-- ==== Sys2Proof/Word.lean ====
section
/-! DEFINITION. The words of the module's register space, memory and instructions (R4, R5). -/

namespace Sys2Proof

/-- A byte of memory. -/
abbrev Byte := BitVec 8

/-- A 32-bit register or value. -/
abbrev Word32 := BitVec 32

/-- A 64-bit register, descriptor word or instruction word. -/
abbrev Word := BitVec 64

end Sys2Proof
end

