-- ==== Sys2Proof/Syntax.lean ====
section
/-! DEFINITION. The commands of the block: one constructor per row of spec/opcode_table.json, with the
operands that name the row's subject and what comes in with the step from outside the module.

An instruction's row names the thread that issues it and the instruction word (R87). -/

namespace Sys2Proof

/-- Who issues an instruction: a hardware thread of a logical core (R42) or the control thread of a context (R74). -/
inductive Agent where
  | thread (core thr : Nat)
  | ctl (ctx : Nat)
  deriving DecidableEq, Repr

/-- What one energy domain of Table 15.3 is. -/
inductive DomainKind where
  | die (k : Nat)
  | stack | capacity | hub
  deriving DecidableEq, Repr

/-- The activity of one context in one domain over an interval, in the units of Table 15.3, the core-ticks that it holds apart: those the
module counts itself. -/
structure Activity where
  ctx : Nat
  matBusy : Nat := 0
  vecBusy : Nat := 0
  /-- Matrix-engine cycles of shadow recomputations (R196). -/
  shadow : Nat := 0
  grains : Nat := 0
  updCycles : Nat := 0
  ctlCycles : Nat := 0
  flits : Nat := 0
  cxlUnits : Nat := 0
  deriving DecidableEq, Repr

/-- One monitored domain's reading of a 10 µs interval (R20, R369): energy in µJ, the activity of each
context and the activity of overhead. -/
structure DomainReading where
  kind : DomainKind
  energyUj : Nat
  acts : List Activity
  overhead : Nat
  /-- Errors that the domain's SRAM codes have corrected in the interval (R383). -/
  sramCe : Nat := 0
  deriving DecidableEq, Repr

/-- A flit as a link carries it (Table 10.3): the header's fields and the 256-byte body. -/
structure Flit where
  check : BitVec 32
  poison : Bool
  format : Nat
  part : Nat
  ftype : Nat
  cls : Nat
  src : Nat
  dst : Nat
  relay : Bool
  /-- The reserved bits W0 [7:0]. -/
  low : Nat := 0
  eseq : Nat
  lseq : Nat
  route : Nat
  body : List Byte
  deriving DecidableEq, Repr

/-- A link word (Table 10.4). -/
structure LinkWord where
  ack : Nat
  nak : Bool
  swapLane : Nat
  cr : List Nat
  deriving DecidableEq, Repr

/-- A received FEC group (R264): whether its codewords decode, how many symbols were corrected, its flits and its
link word. -/
structure FecGroup where
  decodes : Bool
  corrected : Nat
  flits : List Flit
  link : LinkWord
  deriving DecidableEq, Repr

/-- A QUEUE flit delivered by the receiving hub (Table 10.5): 1 to 4 words, each with its poison. -/
structure QueueFlit where
  src : Nat
  cls : Nat
  eseq : Nat
  core : Nat
  ep : Nat
  words : List (List Byte)
  poison : Bool
  first : Bool
  last : Bool
  truncated : Bool
  deriving DecidableEq, Repr

/-- The identity data of a HELLO (R447): the sender's public key, its device certificate, its nonce and, once the far nonce has
arrived, its signature; before that the signature is empty. -/
structure Identity where
  key : List Byte
  cert : List Byte
  nonce : List Byte
  sig : List Byte
  deriving DecidableEq, Repr

/-- A field of an ordered flit beside the ESEQ of its header, which says where in the order of its source and class it stands
(Table 10.3, R271). -/
structure InOrder (α : Type) where
  val : α
  eseq : Nat
  deriving DecidableEq, Repr

/-- The bytes that a MEMREQ asks for or writes: the grain's address, and offset and length inside it. -/
structure GrainSpan where
  pa : Nat
  off : Nat
  len : Nat
  deriving DecidableEq, Repr

/-- A HELLO as it arrives over, or leaves by, port `port` of this module (Table 10.8, R447). -/
structure HelloMsg where
  port : Nat
  peer : Nat
  farPort : Nat
  incarnation : Nat
  joinEpoch : Nat
  ident : Identity
  deriving DecidableEq, Repr

/-- An ARRIVE (Table 10.8). `count` is the element count; for a RESHARD `check` is the grain check of its
mapping record (R292). -/
structure ArriveMsg where
  src : Nat
  group : Nat
  attempt : Nat
  step : Nat
  colseq : Nat
  op : Nat
  red : Nat
  comp : Nat
  k : Nat
  members : Nat
  count : Nat
  check : Nat
  flow : Nat
  deriving DecidableEq, Repr

/-- A COLDATA flit (Table 10.5): the sender, the FLOW this module gave in its ARRIVE, the grain index and the
grain with its tag as the port delivers it. -/
structure ColData where
  src : Nat
  flow : Nat
  grain : Nat
  data : List Byte
  check : BitVec 32
  format : Nat
  part : Nat
  poison : Bool
  deriving DecidableEq, Repr

/-- A source read that fails: its model, and its grain of the source image (R330). -/
structure SourceFail where
  model : Nat
  grain : Nat
  deriving DecidableEq, Repr

/-- Where an uncorrectable SRAM error lies (R383). -/
inductive SramPlace where
  | scratchpad (core unit : Nat)
  | coreState (core : Nat)
  | translationCache (hub : Nat)
  | hubOther (hub : Nat)
  | controlCore (cc : Nat)
  | alwaysOn
  deriving DecidableEq, Repr

/-- A hub unit that can fail (R395). -/
inductive HubUnit where
  | bridgeGroup (group : Nat)
  | movement (hub : Nat)
  | translation (hub : Nat)
  | port (p : Nat)
  /-- A whole hub die (R388). -/
  | die (hub : Nat)
  deriving DecidableEq, Repr

/-- The units that self-test finds failed at bring-up (R434). -/
inductive Unit1 where
  | die (k : Nat)
  | core (die core : Nat)
  | stack (k : Nat)
  | bridgeLane (group lane : Nat)
  | peerLane (port lane : Nat)
  deriving DecidableEq, Repr

/-- Why a carrier record copy does or does not verify (Table 19.12, REC_A and REC_B). -/
inductive CopyCheck where
  | valid | badSig | unreadable | badForm
  deriving DecidableEq, Repr

/-- What bring-up reads to regenerate and check the identity keys (R434, R446), and the two copies of the protection record as their
signatures check under the protection key (R453): the one last written as current, and the other. -/
structure IdentityRead where
  puf : List Byte
  current : CopyCheck
  other : CopyCheck
  deriving DecidableEq, Repr

/-- A byte or a word that the management bus writes, with its packet error code when the master sends one (R428). -/
structure SmbWrite (w : Nat) where
  val : BitVec w
  pec : Option Byte := none
  deriving DecidableEq, Repr

/-- What a requester sends to begin a secure session (R448): its nonce and its secp384r1 share. -/
structure KeyShare where
  nonce : List Byte
  share : List Byte
  deriving DecidableEq, Repr

/-- What an IDE_KM request does (R416): programs keys with a CXL.cachemem mode, 1 containment or 2 skid, or refreshes them. -/
inductive IdeKm where
  | program (mode : Nat)
  | refresh
  deriving DecidableEq, Repr

/-- The commands, in the order of spec/opcode_table.json. -/
inductive Instr where
  /-- GOV_STEP (R18): Every 10 µs the power governor compares averaged input power with SUSTAINED_W and lowers or relaxes the die clock or issue limit by one step. -/
  | govStep (powerMw : Nat)
  /-- THERMAL_SENSE (R430): A temperature sensor reading above 100 °C makes the governor lower clocks and sets THERMAL; a reading above 115 °C puts the module in FATAL. -/
  | thermalSense (maxC : Nat)
  /-- MONITOR_COLLECT (R20): Every 10 µs the always-on domain collects every energy monitor and pays whole millijoules to contexts and overhead. -/
  | monitorCollect (inputUj : Nat) (domains : List DomainReading)
  /-- OSC_FAIL (R22): When the selected oscillator stops or drifts more than 200 ppm, the domain switches to the other oscillator, sets the fail bit and logs the event. -/
  | oscFail (oscB : Bool)
  /-- PLL_STOP (R27): When a die has had no work for HOLDOFF microseconds, its PLL stops. -/
  | pllStop (die : Nat)
  /-- PLL_STABLE (R28): 6 µs after a start request the die PLL is stable and traffic held at the bridge edge is delivered to the core. -/
  | pllStable (die : Nat)
  /-- CORE_CLOCK_GATE (R29): After 4 consecutive core cycles with no thread able to fire, the core gates its clock. -/
  | coreClockGate (core : Nat)
  /-- TICK_LO_READ (R31): A 32-bit read of the low half of LOCAL_TICK latches the high half into TICK_HI_LATCH. -/
  | tickLoRead
  /-- GOV_STATUS_READ (R7): A read of GOV_STATUS returns THROTTLE_EVENTS and clears it. -/
  | govStatusRead
  /-- KEEP_WARM_WRITE (R27): A write to DIE_CLK KEEP_WARM or HOLDOFF takes effect within 1 µs, and setting KEEP_WARM starts a stopped PLL. -/
  | keepWarmWrite (die : Nat) (value : Word32)
  /-- BLOCK_BIND (R39): The sequencer binds one instance of the earliest-ready firing block to a free thread, claims its operands and makes the thread runnable. -/
  | blockBind (core : Nat)
  /-- GRAIN_RESPONSE (R49): A read response grain from tiers 1 to 4 lands in scratchpad, frees its request slot, updates its completion group and wakes parked threads. -/
  | grainResponse (req : Nat) (corrupt : Bool)
  /-- WRITE_ACK (R462): A grain write is acknowledged once performed at every scope, freeing its slot and counting for its group and for fences. -/
  | writeAck (req : Nat)
  /-- BANK_SERVE (R50): A near-memory or capacity-tier bank serves the accepted request of lowest age stamp and source number. -/
  | bankServe (bank : Nat)
  /-- STARVATION_FAULT (R56): When a core has been starved for STALL_CTL.LIMIT_US, its context takes a thread starvation fault. -/
  | starvationFault (core : Nat)
  /-- QUEUE_WORD_LAND (R62): A queue word is written to the receive buffer, and after the packet's last word the packet gets its notice. -/
  | queueWordLand (core ep : Nat)
  /-- CREDIT_ARRIVE (R64): Returned word credits reach the send end, and a sender parked for credit resumes. -/
  | creditArrive (core ep : Nat)
  /-- SUMMARY_ARRIVE (R95): A summary contribution reaches the mailbox; it is combined and counted, and once EXPECT is met the result is delivered. -/
  | summaryArrive (ctx core : Nat)
  /-- LOAD_PROCEED (R77): Once the last bound instance of the previous program has ended, the load checks the image and writes code, data, registers and endpoints. -/
  | loadProceed (ctx core : Nat)
  /-- MMA (R112): Matrix multiply-accumulate of tile A by the transpose of tile B into an accumulation group. -/
  | mma (a : Agent) (w : Word)
  /-- AGSET (R113): Sets the shape, accumulator type and base of an accumulation group. -/
  | agset (a : Agent) (w : Word)
  /-- AGOPEN (R114): Checks the group's area and opens it, optionally initialising the partial sums. -/
  | agopen (a : Agent) (w : Word)
  /-- AGOUT (R115): Writes the group's partial sums to an output tile through an optional epilogue, and closes the group unless KEEP is set. -/
  | agout (a : Agent) (w : Word)
  /-- ATTS (R117): Computes scaled attention scores of a query tile against a key tile into group columns, with optional causal masking. -/
  | atts (a : Agent) (w : Word)
  /-- ATTV (R118): Adds probabilities times values into a group, with an optional row rescale. -/
  | attv (a : Agent) (w : Word)
  /-- VFN (R122): Applies an element-wise function to tiles. -/
  | vfn (a : Agent) (w : Word)
  /-- CVT (R124): Converts a tile element by element between formats. -/
  | cvt (a : Agent) (w : Word)
  /-- VRED (R125): Reduces a tile in a fixed order, optionally sending the result as a summary contribution. -/
  | vred (a : Agent) (w : Word)
  /-- VCMP (R127): Compares tiles into a mask, optionally writing the OR of the mask to a predicate. -/
  | vcmp (a : Agent) (w : Word)
  /-- PEP (R128): Fills a tile with Pepper draws in free or keyed mode. -/
  | pep (a : Agent) (w : Word)
  /-- SHADOW_RECOMPUTE (R194): In idle slice-stage cycles the matrix engine recomputes a sampled block, bins the disagreement and may send an alert summary. -/
  | shadowRecompute (core : Nat)
  /-- LDT (R133): Loads part of a tensor from tiers 1 to 4 into a tile, one grain request at a time. -/
  | ldt (a : Agent) (w : Word)
  /-- STT (R134): Stores a tile into a tensor, computing grain checks as grains leave. -/
  | stt (a : Agent) (w : Word)
  /-- MOVT (R136): Copies a tensor between tiers through the hub movement engines, with tags unchanged. -/
  | movt (a : Agent) (w : Word)
  /-- PFS_ARM (R137): Arms a prefetch schedule. -/
  | pfsArm (a : Agent) (w : Word)
  /-- PFS_STOP (R223): Stops a prefetch schedule so that no further entry starts; grains in flight land. -/
  | pfsStop (a : Agent) (w : Word)
  /-- PREFETCH_ENTRY_START (R221): A schedule entry starts once the previous one has started, the lead limit, the gate and the target slot allow it. -/
  | prefetchEntryStart (sched : Nat)
  /-- GATE_POLL (R221): At least once every 1 µs, the module reads the gate word for an entry waiting on its gate. -/
  | gatePoll (sched : Nat)
  /-- RCFG (R138): Reconfigures a stream ring once every claimed slot has been released. -/
  | rcfg (a : Agent) (w : Word)
  /-- RING_COMMIT (R139): Marks the next N slots that the thread has written as filled. -/
  | ringCommit (a : Agent) (w : Word)
  /-- RING_RELEASE (R139): Releases the N oldest slots that the thread holds. -/
  | ringRelease (a : Agent) (w : Word)
  /-- RING_SWAP (R219): Exchanges FRONT and BACK of a two-slot ring once the grains issued into BACK have landed. -/
  | ringSwap (a : Agent) (w : Word)
  /-- QCFG (R140): Writes an endpoint configuration word, closing an open end first and pairing across modules. -/
  | qcfg (a : Agent) (w : Word)
  /-- QSEND (R141): Sends one packet on a send end, parking for credit. -/
  | qsend (a : Agent) (w : Word)
  /-- QRECV (R142): Waits for and holds the oldest unclaimed packet, and returns its receive result. -/
  | qrecv (a : Agent) (w : Word)
  /-- QHELD (R142): Returns the receive result of a packet already held, without waiting. -/
  | qheld (a : Agent) (w : Word)
  /-- QREL (R143): Releases or drops the oldest held packet of an endpoint and returns its credits. -/
  | qrel (a : Agent) (w : Word)
  /-- QSUM (R144): Sends one summary contribution on the summary queue. -/
  | qsum (a : Agent) (w : Word)
  /-- FENCE (R145): Orders the thread's own accesses at a scope and of a kind. -/
  | fence (a : Agent) (w : Word)
  /-- BAR (R146): Arrives at a context barrier; when the count is reached, every arrival is released. -/
  | bar (a : Agent) (w : Word)
  /-- START (R147): Sends start tokens to a block on a core, or returns BUSY. -/
  | start (a : Agent) (w : Word)
  /-- CG (R148): Waits for and claims a completion group, or reads its last status. -/
  | cg (a : Agent) (w : Word)
  /-- EPOCH_ENTER (R149): Waits until the layer holds the step's weight epoch, or returns STALE_EPOCH. -/
  | epochEnter (a : Agent) (w : Word)
  /-- EPOCH_LEAVE (R338): Records that a step of an epoch has passed a layer. -/
  | epochLeave (a : Agent) (w : Word)
  /-- COLL (R151): Starts a collective over the members and sends ARRIVE to each. -/
  | coll (a : Agent) (w : Word)
  /-- GFLAG (R153): Contributes the step flag, ORed with the step poison latch, and waits for the flag reduced over the members. -/
  | gflag (a : Agent) (w : Word)
  /-- RESHARD (R292): Re-shards a tensor to a new mapping with Churn, after fencing against its open reductions. -/
  | reshard (a : Agent) (w : Word)
  /-- UPDOP_OPEN (R236): Registers a reduction session on a buffer, optionally zeroing the buffer. -/
  | updopOpen (a : Agent) (w : Word)
  /-- UPDOP_NORM (R244): Computes the norm word of a completed reduction buffer. -/
  | updopNorm (a : Agent) (w : Word)
  /-- UPDOP_STEP (R246): Applies, skips or discards an optimiser step and updates the loss-scale and state records. -/
  | updopStep (a : Agent) (w : Word)
  /-- UPDOP_REGEN (R249): Regenerates the whole working copy from the master. -/
  | updopRegen (a : Agent) (w : Word)
  /-- UPDOP_FLUSH (R250): Applies every pending delayed-update slot in step order. -/
  | updopFlush (a : Agent) (w : Word)
  /-- UPDOP_KVGATHER (R254): Copies token rows from KV pages into a destination tensor and writes one result per entry. -/
  | updopKvgather (a : Agent) (w : Word)
  /-- UPD_OP_START (R235): An update operation waiting on earlier operations on the same object starts in its engine. -/
  | updOpStart (op : Nat)
  /-- UPDACC (R237): Sends an FP32 tile as tagged contributions to a reduction buffer. -/
  | updacc (a : Agent) (w : Word)
  /-- UPDCLOSE (R241): Ends the issuer's contributions to a session. -/
  | updclose (a : Agent) (w : Word)
  /-- CONTRIBUTION_ARRIVE (R238): A contribution reaches its engine and is added in tag order, held in the reorder pool, refused or discarded. -/
  | contributionArrive (req : Nat) (corrupt : Bool)
  /-- CONTRIBUTION_RESEND (R239): A refused contribution is sent again 256 core cycles later. -/
  | contributionResend (req : Nat)
  /-- SESSION_COMPLETE (R241): After CONTRIB closes and all accepted adds, the session completes, poisons incomplete grains and completes its UPDCLOSE groups. -/
  | sessionComplete (sess : Nat)
  /-- SNAPSHOT_COMPLETE (R253): A trickle-mirror snapshot finishes copying, and its bank is marked valid. -/
  | snapshotComplete (snap : Nat)
  /-- SALU (R156): Scalar arithmetic or logic into s[DST]. -/
  | salu (a : Agent) (w : Word)
  /-- SCMP (R157): Scalar compare into a predicate. -/
  | scmp (a : Agent) (w : Word)
  /-- BR (R158): Branches to an immediate or register target. -/
  | br (a : Agent) (w : Word)
  /-- SMEM_LOAD (R159): Loads one 8-byte word from scratchpad or from a virtual address. -/
  | smemLoad (a : Agent) (w : Word)
  /-- SMEM_STORE (R159): Stores one 8-byte word, as an atomic read-modify-write at the grain's home on a control thread. -/
  | smemStore (a : Agent) (w : Word)
  /-- NOTIFY (R422): An SMEM store to the notify slot requests one MSI-X message on a vector. -/
  | notify (a : Agent) (w : Word)
  /-- DWR (R160): Writes a scalar register into one word of a descriptor register. -/
  | dwr (a : Agent) (w : Word)
  /-- BEND (R41): Ends the instance, frees the thread and releases the instance's claimed data. -/
  | bend (a : Agent) (w : Word)
  /-- HALT (R161): Ends the context without a fault and starts its teardown. -/
  | halt (a : Agent) (w : Word)
  /-- YIELD (R161): Offers the context to the firmware scheduler as a pre-emption point. -/
  | yield (a : Agent) (w : Word)
  /-- NOP (R161): Does nothing. -/
  | nop (a : Agent) (w : Word)
  /-- RDSYS_TICK (R162): Reads the local tick. -/
  | rdsysTick (a : Agent) (w : Word)
  /-- RDSYS_STATUS (R162): Reads and clears the control thread's status register. -/
  | rdsysStatus (a : Agent) (w : Word)
  /-- RDSYS_COUNTER (R162): Reads a core or die counter of the context. -/
  | rdsysCounter (a : Agent) (w : Word)
  /-- RDSYS_CONTEXT (R162): Reads the context index. -/
  | rdsysContext (a : Agent) (w : Word)
  /-- RDSYS_PEER (R162): Reads the module's peer index. -/
  | rdsysPeer (a : Agent) (w : Word)
  /-- RDSYS_CTX_REGISTER (R162): Reads an accounting, shadow or distillation register of the context's own block. -/
  | rdsysCtxRegister (a : Agent) (w : Word)
  /-- LOADP (R163): Loads a core program image onto cores of the core set. -/
  | loadp (a : Agent) (w : Word)
  /-- SUMARM (R163): Arms a summary tag and round with a KIND and an EXPECT count. -/
  | sumarm (a : Agent) (w : Word)
  /-- SUMGET (R163): Waits for and returns the result of a summary tag and round. -/
  | sumget (a : Agent) (w : Word)
  /-- CORES (R364): Requests a core set of a given size and waits for firmware's grant. -/
  | cores (a : Agent) (w : Word)
  /-- TIER_LATE (R226): A request with no response within its tier's LATE limit ends as failed. -/
  | tierLate (req : Nat)
  /-- MEM_UNCORRECTABLE (R228): An uncorrectable DRAM error poisons the grain at its home, is counted and logged, and starts a re-read for resident weights. -/
  | memUncorrectable (pa : Nat)
  /-- REFETCH_DONE (R229): A re-fetched tile is written back in place, which clears the poison and ends the poisoned window. -/
  | refetchDone (pa : Nat)
  /-- PATROL_SCRUB (R210): Patrol scrubbing reads every grain of tiers 1 and 2 every 24 hours and rewrites corrected grains. -/
  | patrolScrub (pa : Nat) (corrected : Bool)
  /-- HINT_CTL_WRITE (R212): A write to MEM.HINT_CTL changes GROUPS only while no capacity-tier page is mapped, and otherwise sets REFUSED. -/
  | hintCtlWrite (value : Word32)
  /-- PORT_ENABLE (R261): Writing ENABLE to 1 moves a DISABLED port to DETECT, and writing it to 0 holds the port in DISABLED. -/
  | portEnable (port : Nat) (on : Bool)
  /-- PORT_RETRAIN (R261): Writing RETRAIN starts RETRAIN from ACTIVE, or DETECT from DOWN. -/
  | portRetrain (port : Nat)
  /-- SIGNAL_DETECT (R261): Signal on at least 8 lanes moves a port from DETECT to TRAIN. -/
  | signalDetect (port : Nat) (lanes : BitVec 18)
  /-- TRAIN_COMPLETE (R261): The 100 µs lane test ends, and the port enters EXCHANGE at full or half width, or goes DOWN. -/
  | trainComplete (port : Nat) (pass best8 : BitVec 18)
  /-- RETRAIN_COMPLETE (R261): Retraining with saved settings succeeds back to ACTIVE, or the port goes DOWN. -/
  | retrainComplete (port : Nat) (ok : Bool) (pass best8 : BitVec 18)
  /-- PORT_DOWN_TIMEOUT (R261): 100 ms after a port entered DOWN, it returns to DETECT. -/
  | portDownTimeout (port : Nat)
  /-- LANE_ERROR_INTERVAL (R262): At the end of each 1 ms interval, a lane whose corrected-symbol count exceeds LANE_LIMIT becomes bad. -/
  | laneErrorInterval (port : Nat) (counts : List Nat)
  /-- LANE_SIGNAL_LOSS (R262): A lane that loses signal is bad at once. -/
  | laneSignalLoss (port lane : Nat)
  /-- LANE_SWAP (R262): After SWAP_LANE has been exchanged, both ends move the bad lane's stripe to a spare at the next FEC group boundary, or retrain to half width. -/
  | laneSwap (port lane : Nat)
  /-- FEC_GROUP_RECEIVE (R264): A received FEC group is decoded, its flits are checked and accepted, or a NAK is raised. -/
  | fecGroupReceive (port : Nat) (g : FecGroup)
  /-- QUEUE_FLIT (R69): An ordered QUEUE flit is delivered in ESEQ order to its receive endpoint buffer. -/
  | queueFlit (f : QueueFlit)
  /-- MEMREQ (R203): A tier 3 request flit from a peer is checked against the link access rules and served, or refused with MEMACK TIER_FAILED. -/
  | memreq (src txn : Nat) (pa : GrainSpan) (isWrite : Bool)
  /-- MEMDATA (R263): A tier 3 read response or write data grain arrives for an open TXN, or is discarded. -/
  | memdata (src txn : Nat) (data : List Byte) (format part : Nat) (poison : Bool)
  /-- MEMACK (R263): A tier 3 write acknowledgement or refusal arrives and ends its request. -/
  | memack (src txn code : Nat)
  /-- COLDATA (R277): A grain of collective data arrives; the owner combines contributions in member order and forwards or lands results. -/
  | coldata (d : ColData)
  /-- RESERVED_FLIT (R263): A flit with a reserved FTYPE is discarded, PROTO_ERR rises and the port retrains. -/
  | reservedFlit (port : Nat)
  /-- HELLO (R447): A HELLO is checked for peer index, port, identity, INCARNATION and JOIN_EPOCH, and may make the port ACTIVE or the peer present. -/
  | hello (h : HelloMsg)
  /-- ABSENT (R273): An ABSENT message leads to a declaration that the named peer is absent when it matches the accepted life of that peer. -/
  | absent (src : InOrder Nat) (peer incarnation joinEpoch : Nat)
  /-- ARRIVE (R275): An ARRIVE from a member is matched and checked for mismatch, and allows COLDATA to that member. -/
  | arrive (m : InOrder ArriveMsg)
  /-- ABORT (R284): An ABORT message stops the step's limits and ends the step's open work with ABORTED. -/
  | abort (src : InOrder Nat) (group attempt step : Nat)
  /-- GFLAG_MESSAGE (R282): A member's GFLAG message is counted, and once all members are heard the flag is returned and ATTEMPT rises on abort. -/
  | gflagMessage (src : InOrder Nat) (group attempt step : Nat) (flag aborted : Bool)
  /-- RELAYDRAIN (R271): RELAYDRAIN from the partner lets traffic to a destination return from relay to the direct port. -/
  | relaydrain (dst : InOrder Nat)
  /-- QCREDIT (R64): A QCREDIT message returns word credits to a send end on this module. -/
  | qcredit (src : InOrder Nat) (sendCore sendEp recvCore recvEp words : Nat)
  /-- QCONFIG (R461): A QCONFIG is held, or checked and answered, opening or refusing a queue between two modules. -/
  | qconfig (src : InOrder Nat) (core ep : Nat) (word : Word) (part : Nat) (answer : Bool)
  /-- QCLOSE (R461): A QCLOSE closes the named end, once counted words are delivered, or drops the held configuration. -/
  | qclose (src : InOrder Nat) (core ep peerCore peerEp words : Nat)
  /-- ROUTES (R270): A ROUTES message updates which peers the partner reaches directly, and so which peers can be relayed. -/
  | routes (mask : InOrder (BitVec 8))
  /-- PEER_WAIT_LIMIT (R284): WAIT_LIMIT ticks without a member's contribution makes the member send ABORT, end the step's work and declare missing members absent. -/
  | peerWaitLimit (ctx step : Nat)
  /-- REJOIN (R274): Writing REJOIN raises JOIN_EPOCH and sends HELLO over every ACTIVE port. -/
  | rejoin
  /-- RESHARD_FENCE_PASS (R292): When the tensor's open-reduction count reaches zero, the RESHARD passes its fence, sends ARRIVE and starts staging. -/
  | reshardFencePass (id : Nat)
  /-- COMMIT_COMPLETE (R293): The commit or rollback of a staged RESHARD finishes, and requests held at the hub are served. -/
  | commitComplete (id : Nat)
  /-- SUBMIT (R303): A SUBMIT doorbell accepts a request record, or ends it at once with a reason. -/
  | submit (part slot : Nat)
  /-- CANCEL (R317): A CANCEL doorbell ends or marks a request according to its state at the home. -/
  | cancel (part slot : Nat)
  /-- KICK (R320): A KICK makes firmware re-read the ring's READ and publish a held entry that now fits. -/
  | kick (part slot : Nat)
  /-- PREFIX_RELEASE (R316): A write of a handle to PREFIX_RELEASE releases that prefix handle. -/
  | pfxRelease (part : Nat) (handle : Word)
  /-- RING_POLL (R320): At least every 50 µs while an entry is held, firmware re-reads READ and publishes the entry when it fits. -/
  | ringPoll (req : Nat)
  /-- BIND (R314): Binds a request and extends its page sets to cover KV_LEN + N, copying on write or evicting as needed. -/
  | bind (ctx req : Nat) (w0 : Word)
  /-- EMIT (R319): Commits one token for publication and ends the binding. -/
  | emit (ctx req : Nat) (w0 w1 : Word)
  /-- DRAFT (R321): Holds one tentative token. -/
  | draft (ctx req : Nat) (w0 w1 : Word)
  /-- ACCEPT (R321): Publishes the N oldest drafts. -/
  | accept (ctx req : Nat) (w0 : Word)
  /-- ROLLBACK (R321): Discards the N newest drafts and moves KV_LEN back. -/
  | rollback (ctx req : Nat) (w0 : Word)
  /-- PREFILLED (R316): Marks prefill done, creates any prefix handle and ends the binding. -/
  | prefilled (ctx req : Nat) (w0 : Word)
  /-- UNBIND (R307): Ends a request's binding with no other effect. -/
  | unbind (ctx req : Nat) (w0 : Word)
  /-- FAIL (R307): Ends a bound request with END_CODE POISONED or TIER_FAILED. -/
  | fail (ctx req : Nat) (w0 w1 : Word)
  /-- FETCH (R309): Assigns the next ready request of a served model to the context. -/
  | fetch (ctx : Nat) (w0 : Word)
  /-- DEADLINE_MONITOR (R342): When a request's deadline tick passes, firmware sets PAST_DEADLINE and applies DL_POLICY. -/
  | deadlineMonitor (req : Nat)
  /-- LOAD (R330): A LOAD doorbell allocates the model's spaces, evicting if needed, and starts copying layers. -/
  | load (part slot : Nat)
  /-- UNLOAD (R336): An UNLOAD doorbell unmaps and frees a model that no live request or addition uses. -/
  | unload (part slot : Nat)
  /-- REPLACE (R339): A REPLACE doorbell raises the model's epoch and starts staging the new layers. -/
  | replace (part slot : Nat)
  /-- ATTACH (R331): An ATTACH doorbell maps a model's layers and status grain into a context, optionally for serving. -/
  | attach (part slot ctx : Nat) (serve : Bool)
  /-- DETACH (R331): A DETACH doorbell removes a model's mapping and serving from a context. -/
  | detach (part slot ctx : Nat)
  /-- DOORBELL_RESERVED_OP (R303): A write to RQ.DOORBELL or MDL.DOORBELL with a reserved OP is ignored and sets BAD_DOORBELL. -/
  | doorbellReservedOp (models : Bool) (part : Nat) (value : Word)
  /-- LAYER_LOADED (R330): A layer copy is performed at MODULE scope, INSTALLED rises, and after the last layer the model is RESIDENT. -/
  | layerLoaded (model : Nat)
  /-- SOURCE_READ_FAIL (R330): A failed source grain read is issued again, and the third failure in a row ends the model LOAD_FAILED. -/
  | sourceReadFail (f : SourceFail)
  /-- LAYER_STAGED (R339): A new layer finishes reading into the staging area. -/
  | layerStaged (model : Nat)
  /-- LAYER_INSTALL (R339): Once the previous layer is installed, the layer staged and every older-epoch step past it, the layer is copied into place. -/
  | layerInstall (model : Nat)
  /-- LAYER_INSTALLED (R339): An install is performed, INSTALLED rises and parked ENTERs become runnable; after the last layer the replacement completes. -/
  | layerInstalled (model : Nat)
  /-- REPLACE_RETRY (R341): Every 1 ms, a stalled replacement retries its failed read. -/
  | replaceRetry (model : Nat)
  /-- USE_DECAY (R335): Every 48,000,000 local ticks, firmware halves every model's USE. -/
  | useDecay
  /-- CMD_NOP (R420): A command-ring NOP completes at once. -/
  | cmdNop (part : Nat)
  /-- CREATE (R358): Creates a context, or refuses it and sets CREATE_REFUSED. -/
  | create (part : Nat)
  /-- RUN (R357): Starts the control thread of a CREATED context. -/
  | run (part : Nat)
  /-- DESTROY (R360): Tears a context down. -/
  | destroy (part : Nat)
  /-- MAP (R420): Checks every page and then maps them, or refuses the MAP with no page mapped. -/
  | map (part : Nat)
  /-- UNMAP (R420): Removes pages from a context's address space. -/
  | unmap (part : Nat)
  /-- POST (R421): Adds a host summary contribution to a context's mailbox. -/
  | post (part : Nat)
  /-- TEARDOWN_COMPLETE (R360): Once the cores' outstanding requests end, the cores are freed, mappings removed, the context ENDED and a teardown entry queued. -/
  | teardownComplete (ctx : Nat)
  /-- TEARDOWN_READ (R362): A read of PART.TEARDOWN returns and removes the oldest teardown entry. -/
  | teardownRead (part : Nat)
  /-- QUANTUM_BOUNDARY (R365): At each quantum boundary, passes advance, entitlements are recomputed, and contexts are pre-empted or restored. -/
  | quantumBoundary
  /-- CONTEXT_SAVED (R367): The save of a pre-empted context completes, and the context is HELD. -/
  | contextSaved (ctx : Nat)
  /-- CONTEXT_RESTORED (R366): The restore of a HELD context completes, and it becomes LIVE. -/
  | contextRestored (ctx : Nat)
  /-- MSIX_SEND (R371): A pending MSI-X message is sent when its vector is unmasked and its partition's bucket holds a token. -/
  | msixSend (part vec : Nat)
  /-- PARTITION_RESET (R375): A write to PART.CTL.RESET starts a partition reset: doorbells stop, messages are discarded, contexts are torn down and the scrub begins. -/
  | partitionReset (part : Nat)
  /-- RESET_SCRUB_DONE (R375): The partition's windows are scrubbed, RESETTING clears and RESET_DONE sets. -/
  | resetScrubDone (part : Nat)
  /-- CORE_LOST (R389): A lost core is fenced, its context is restarted or torn down, and spare self-test starts. -/
  | coreLost (core : Nat)
  /-- SPARE_CORE_READY (R389): A spare core passes self-test and takes the lost core's logical index. -/
  | spareCoreReady (core : Nat) (pass : Bool)
  /-- DIE_LOST (R390): A lost compute die is fenced and routed around, its contexts are stopped and spare bring-in starts. -/
  | dieLost (die : Nat)
  /-- SPARE_DIE_READY (R391): CD8 completes its tests and takes the lost die's logical index. -/
  | spareDieReady (pass : Bool)
  /-- STACK_LOST (R392): A lost stack is fenced, contexts and requests on it end or are evicted, and spare training starts. -/
  | stackLost (stack : Nat)
  /-- SPARE_STACK_READY (R392): A spare stack takes the lost logical index, and layers, mirrors and trickle-mirrored state are rebuilt. -/
  | spareStackReady (stack : Nat) (pass : Bool)
  /-- CHANNEL_LOST (R394): A capacity-tier channel is lost; later requests to it fail and DEGRADED is set. -/
  | channelLost (chan : Nat)
  /-- HUB_PATH_FAULT (R395): A failed hub unit's work moves to another hub die's unit. -/
  | hubPathFault (u : HubUnit)
  /-- SRAM_UNCORRECTABLE (R383): An uncorrectable SRAM error poisons a unit, loses a core, drops a cache entry, faults a hub path or restarts a control core. -/
  | sramUncorrectable (place : SramPlace)
  /-- WATCHDOG_EXPIRY (R399): A control core's heartbeat missed for 2 µs starts its restart. -/
  | watchdogExpiry (cc : Nat)
  /-- HDM_READ (R412): A host HDM line read is served from a window, returned as zeros, or returned poisoned. -/
  | hdmRead (pa : Nat)
  /-- HDM_WRITE (R413): A host HDM line write is merged into its grain at its home with a new check, or discarded. -/
  | hdmWrite (pa : Nat) (data : List Byte)
  /-- BACK_INVALIDATE (R414): A back-invalidate snoop response lets a waiting module write to a host-cached line be performed at HOST scope. -/
  | backInvalidate (line : Nat)
  /-- HOST_SNOOP (R415): A host snoop is answered with a response that reports the line invalid. -/
  | hostSnoop (addr : Nat)
  /-- TIER4_COMPLETION (R415): A CXL.cache completion for a tier 4 request arrives; an error or timeout ends the request as failed. -/
  | tier4Completion (req : Nat) (ok poison : Bool)
  /-- DECODER_COMMIT (R411): The host commits an HDM decoder, which is refused unless interleave ways is 1. -/
  | decoderCommit (dec ways : Nat)
  /-- FLR_VF (R408): A function-level reset of VF n resets partition n. -/
  | flrVf (n : Nat)
  /-- FLR_PF (R408): A function-level reset of the PF resets all 64 partitions. -/
  | flrPf
  /-- VF_ENABLE_CLEAR (R408): Clearing VF Enable resets partitions 1 to 63. -/
  | vfEnableClear
  /-- DL_DOWN (R408): Hot reset, link disable, loss of the data link layer or conventional reset resets every partition. -/
  | dlDown
  /-- IDE_FAIL (R416): An IDE integrity failure is counted, and the link is treated as DL_Down. -/
  | ideFail
  /-- PERST_DEASSERT (R436): Deassertion of PERST_N lets the CXL link train and configuration space become ready. -/
  | perstDeassert
  /-- DOE_DISCOVERY (R448): Answers a DOE Discovery request. -/
  | doeDiscovery (index : Nat)
  /-- GET_VERSION (R448): Answers SPDM GET_VERSION. -/
  | getVersion
  /-- GET_CAPABILITIES (R448): Answers SPDM GET_CAPABILITIES. -/
  | getCapabilities
  /-- NEGOTIATE_ALGORITHMS (R448): Answers SPDM NEGOTIATE_ALGORITHMS. -/
  | negotiateAlgorithms (extAsym hash dhe aead : Bool)
  /-- GET_DIGESTS (R448): Answers SPDM GET_DIGESTS. -/
  | getDigests
  /-- GET_CERTIFICATE (R448): Returns the slot 0 certificate chain. -/
  | getCertificate (slot offset length : Nat)
  /-- CHALLENGE (R448): Signs a CHALLENGE response with the identity key. -/
  | challenge (slot : Nat) (nonce : List Byte)
  /-- GET_MEASUREMENTS (R449): Returns the measurement blocks, or ResponseNotReady during a change. -/
  | getMeasurements (index : Nat) (signed : Bool) (nonce : List Byte)
  /-- KEY_EXCHANGE (R448): Starts an SPDM secure session. -/
  | keyExchange (slot : Nat) (k : KeyShare)
  /-- FINISH (R448): Completes an SPDM secure session handshake. -/
  | finish (mac : List Byte)
  /-- KEY_UPDATE (R448): Updates the session keys. -/
  | keyUpdate
  /-- HEARTBEAT (R448): Answers an SPDM session heartbeat. -/
  | heartbeat
  /-- END_SESSION (R448): Ends an SPDM secure session. -/
  | endSession
  /-- CHUNK_SEND (R448): Receives one chunk of a large SPDM request. -/
  | chunkSend (handle seq : Nat) (last : Bool) (data : List Byte)
  /-- CHUNK_GET (R448): Returns one chunk of a large SPDM response. -/
  | chunkGet (handle seq : Nat)
  /-- IDE_KM (R416): A vendor-defined IDE_KM request programs or refreshes IDE keys. -/
  | ideKm (k : IdeKm)
  /-- RECOVERY_INFO (R450): In recovery, returns the 64-byte RECOVERY_INFO response. -/
  | recoveryInfo
  /-- UNSUPPORTED_REQUEST (R448): A request outside the supported list receives ERROR UnsupportedRequest. -/
  | unsupportedRequest (code : Nat)
  /-- MATED_N_FALL (R431): With MATED_N low and VIN in range, the hot-swap controller starts conversion with inrush limited to 6 A. -/
  | matedNFall (vinMv : Nat)
  /-- MATED_N_RISE (R432): MATED_N going high deasserts PWRGD and stops conversion within 1 ms; the module is Off. -/
  | matedNRise
  /-- POWER_GOOD (R431): PWRGD rises, power-on reset is released, the tick starts, SLOT is sampled and bring-up begins. -/
  | powerGood (slot : Nat)
  /-- INPUT_OUT_OF_RANGE (R424): The input leaves 46 to 58 V: UV_OV is set, or beyond 42 to 60 V conversion stops and the module enters FATAL. -/
  | inputOutOfRange (mv : Nat)
  /-- INPUT_EXCURSION_TIMEOUT (R424): An input outside 46 to 58 V for more than 1 ms puts the module in FATAL. -/
  | inputExcursionTimeout
  /-- INPUT_COLLAPSE (R424): Input below 36 V stops the always-on domain, and the module is Off. -/
  | inputCollapse
  /-- RECORD_VERIFY (R434): Both carrier record copies are verified and the current copy chosen, or the module enters recovery. -/
  | recordVerify (copyA copyB : CopyCheck)
  /-- IDENTITY_CHECK (R434): Identity keys are regenerated from the PUF and checked against ID_DIGEST. -/
  | identityCheck (read : IdentityRead)
  /-- FIRMWARE_BOOT (R451): The accepted firmware image is loaded into hub SRAM and the control cores start, or the module enters recovery. -/
  | firmwareBoot
  /-- EARLY_SERVICE (R437): Logical die 0 and stacks 0 to 3 are in service, and the module accepts doorbells and commands. -/
  | earlyService
  /-- UNIT_SELF_TEST_DONE (R434): Self-test of the remaining dies, spares, stacks and capacity tier ends, with failed units replaced by spares. -/
  | unitSelfTestDone (failed : List Unit1)
  /-- SPEED_TEST (R438): Firmware pre-empts contexts on logical die 0, runs its 2 s speed test at 1.1 GHz and restores them. -/
  | speedTest
  /-- FULL_SERVICE (R438): Every die runs at 1.1 GHz, every tier serves and the peer ports leave DISABLED. -/
  | fullService
  /-- NAP_ENTRY (R439): With every PLL stopped for NAP_AFTER_US and nothing in flight, the module enters Nap. -/
  | napEntry
  /-- HOLD (R440): A Hold request through PWR.CTL is refused, or pre-empts contexts, stops ports, self-refreshes DRAM and enters L1.2. -/
  | hold
  /-- HOLD_EXIT (R441): An L1.2 exit or CLKREQ_N restarts clocks, takes DRAM out of self-refresh and rejoins peers. -/
  | holdExit
  /-- WARM (R443): A write of PWR.CTL.WARM stops all work, drops the links and repeats bring-up without removing power. -/
  | warm (slot : Nat)
  /-- SMB_STATUS (R428): Returns PWR.STATE and REC.STATUS, and releases the alert lines. -/
  | smbStatus
  /-- SMB_POWER (R428): Returns IN_POWER. -/
  | smbPower
  /-- SMB_VOLTAGE (R428): Returns PWR.IN_MV. -/
  | smbVoltage
  /-- SMB_TEMP (R428): Returns the highest temperature reading. -/
  | smbTemp
  /-- SMB_BOOT (R428): Returns PWR.BOOT. -/
  | smbBoot
  /-- SMB_CAP (R428): Reads or writes GOV_CAP.SUSTAINED_W. -/
  | smbCap (value : Option (SmbWrite 16))
  /-- SMB_WAKE (R441): A WAKE command leaves Hold. -/
  | smbWake
  /-- SMB_HOLD (R440): A HOLD command with 0xA5 requests Hold. -/
  | smbHold (value : SmbWrite 8)
  /-- SMB_WARM (R443): A WARM command with 0x5A starts a warm reset. -/
  | smbWarm (value : SmbWrite 8) (slot : Nat)
  /-- SMB_ALERT_RESPONSE (R428): A read at the SMBus alert response address reports pending conditions and releases the alert lines. -/
  | smbAlertResponse
  /-- FW_VERIFY (R452): A write of SEC.FW_CTL.VERIFY copies a staged image to the inactive slot and checks it. -/
  | fwVerify
  /-- FW_VERIFY_DONE (R451): The staged image check ends, and FW_STATUS records its result. -/
  | fwVerifyDone
  /-- FW_ACTIVATE (R452): A write of SEC.FW_CTL.ACTIVATE starts switching control cores to the verified image, or marks the slot for the next boot. -/
  | fwActivate
  /-- FW_CORE_SWITCH (R452): Every 1 ms one control core pauses, loads the new image and resumes; a failed self-check on the first core reverts it. -/
  | fwCoreSwitch (selfCheckOk : Bool)
  /-- CR_SUBMIT (R457): A change record body is copied, checked and made PENDING. -/
  | crSubmit (i : Nat)
  /-- CR_SIGN (R456): A role signature is verified and moves the slot to SIGNED1 or APPLYING, or raises BAD_SIGS. -/
  | crSign (i : Nat)
  /-- CR_CLEAR (R456): Empties a change record slot, except while APPLYING. -/
  | crClear (i : Nat)
  /-- CR_WINDOW_EXPIRY (R456): WINDOW ticks after SUBMIT or the first signature without the second, the slot becomes EXPIRED. -/
  | crWindowExpiry (i : Nat)
  /-- CR_APPLY (R458): A doubly signed record is applied in turn: checked, any partition reset awaited, the protection record written and CFG_SEQ raised. -/
  | crApply (i : Nat)
  /-- REGISTER_WRITE (R6): A write to a register with no row of its own updates its RW and W1C fields, honouring reserved bits and each field's conditions. `func` is the function whose BAR0 is written (0 the PF, n the VF n), or 64 more than a function whose configuration space is (log 162), `off` the byte offset there, `width` the bytes of the write. -/
  | registerWrite (func off width : Nat) (value : Word)
  /-- INPUT_RESTORED (R431): The 54 V input returns into 46 to 58 V while MATED_N is low: from Off the hot-swap controller starts conversion, and during an excursion the 1 ms count toward FATAL stops. -/
  | inputRestored (mv : Nat)
  /-- BRIDGE_LANE_SWAP (R15): A die-to-die bridge lane fails in service and the spare lane of its group of 12 takes its stripe. -/
  | bridgeLaneSwap (group lane : Nat)
  /-- ILLEGAL_INSTRUCTION (R130): An instruction word with a reserved MAJOR or SUB code issues and raises an illegal instruction fault. -/
  | illegalInstruction (a : Agent) (w : Word)
  /-- RESERVED_COMMAND (R420): A command-ring entry with a reserved OP is taken in ring order and completes BAD_ARG, and HEAD advances. -/
  | reservedCommand (part : Nat)
  /-- SMB_NAK (R428): A management bus command code not listed in Table 18.3 is NAKed by the responder. -/
  | smbNak (code : Byte)
  /-- HOST_LINK_UP (R406): The CXL link trains back to L0 after a DL_Down, hot reset or host-side re-insertion, and LINK_STATUS reports UP with its speed and width. -/
  | hostLinkUp (speed width : Nat)
  deriving DecidableEq, Repr

end Sys2Proof
end

