-- ==== Sys2Proof/Machine/Tbl.lean ====
section
/-! DEFINITION. Tables of repeated things by index (R9): a sparse list of index and value, where an index that is
not listed holds the table's default. -/

namespace Sys2Proof

/-- A table of like things by index. -/
abbrev Tbl (α : Type) := List (Nat × α)

namespace Machine

/-- The entry of index `k`, or the default. -/
def tget {α : Type} (d : α) : Tbl α → Nat → α
  | [], _ => d
  | (i, v) :: t, k => if i = k then v else tget d t k

/-- Whether index `k` is listed. -/
def thas {α : Type} : Tbl α → Nat → Bool
  | [], _ => false
  | (i, _) :: t, k => i == k || thas t k

/-- The entry of index `k`, if it is listed. -/
def tfind {α : Type} : Tbl α → Nat → Option α
  | [], _ => none
  | (i, v) :: t, k => if i = k then some v else tfind t k

/-- Sets the entry of index `k`, keeping ascending order of index. -/
def tput {α : Type} : Tbl α → Nat → α → Tbl α
  | [], k, v => [(k, v)]
  | (i, u) :: t, k, v =>
    if k < i then (k, v) :: (i, u) :: t
    else if i = k then (k, v) :: t
    else (i, u) :: tput t k v

/-- Removes index `k`. -/
def tdel {α : Type} : Tbl α → Nat → Tbl α
  | [], _ => []
  | (i, v) :: t, k => if i = k then tdel t k else (i, v) :: tdel t k

/-- Applies `f` to every listed entry. -/
def tmap {α β : Type} (f : Nat → α → β) (t : Tbl α) : Tbl β :=
  t.map fun e => (e.1, f e.1 e.2)

/-- The lowest index below `n` that is not listed, or none. -/
def tfree {α : Type} (t : Tbl α) (n : Nat) : Option Nat :=
  (List.range (min n (t.length + 1))).find? fun i => !thas t i

end Machine
end Sys2Proof
end

