-- ==== Sys2Proof/Machine/Bits.lean ====
section
/-! DEFINITION. Bit fields, little-endian bytes (R5), the grain check (R204) and small list helpers. -/

namespace Sys2Proof
namespace Machine

/-- Bits `hi` down to `lo` of a number. -/
def bits (n hi lo : Nat) : Nat := (n >>> lo) % 2 ^ (hi + 1 - lo)

/-- Bit `k` of a number. -/
def bit (n k : Nat) : Bool := (n >>> k) % 2 == 1

/-- A Bool as a bit. -/
def b2n (b : Bool) : Nat := if b then 1 else 0

/-- Bits `hi` down to `lo` of a word, as a number. -/
def fld (w : Word) (hi lo : Nat) : Nat := bits w.toNat hi lo

/-- Bit `k` of a word. -/
def wbit (w : Word) (k : Nat) : Bool := bit w.toNat k

/-- Sign extension of an `n`-bit number, as an integer. -/
def sext (n v : Nat) : Int := if v % 2 ^ n < 2 ^ (n - 1) then (v % 2 ^ n : Nat) else (v % 2 ^ n : Nat) - (2 ^ n : Nat)

/-- `⌈a ÷ b⌉`. -/
def cdiv (a b : Nat) : Nat := (a + b - 1) / b

/-- The `n` bytes of a number, least significant first. -/
def leBytes : Nat → Nat → List Byte
  | 0, _ => []
  | n + 1, v => BitVec.ofNat 8 v :: leBytes n (v >>> 8)

/-- The number whose bytes, least significant first, are given. -/
def leNat : List Byte → Nat
  | [] => 0
  | b :: bs => b.toNat + 256 * leNat bs

/-- Saturating addition of 1 to a counter of `n` bits. -/
def satInc (n v : Nat) : Nat := if v + 1 < 2 ^ n then v + 1 else 2 ^ n - 1

/-- A word of 64 bits from a number. -/
def w64 (n : Nat) : Word := BitVec.ofNat 64 n

/-- Word `i` of a descriptor. -/
def dw (d : BitVec 256) (i : Nat) : Word := BitVec.ofNat 64 (d.toNat >>> (64 * i))

/-- Descriptor of 32 little-endian bytes. -/
def descOfBytes (bs : List Byte) : BitVec 256 := BitVec.ofNat 256 (leNat bs)

/-- The list with position `i` replaced. -/
def lset {α : Type} : List α → Nat → α → List α
  | [], _, _ => []
  | _ :: xs, 0, v => v :: xs
  | x :: xs, i + 1, v => x :: lset xs i v

/-- `n` bytes of zero. -/
def zeros (n : Nat) : List Byte := List.replicate n 0

/-- The list cut, or padded with zero bytes, to `n` bytes. -/
def fit (n : Nat) (bs : List Byte) : List Byte := (bs ++ zeros (n - bs.length)).take n

/-- The bytes at `off` to `off + len - 1`. -/
def slice (bs : List Byte) (off len : Nat) : List Byte := (bs.drop off).take len

/-- `bs` with the bytes at `off` onward replaced by `nb`. -/
def patch (bs : List Byte) (off : Nat) (nb : List Byte) : List Byte :=
  bs.take off ++ nb ++ bs.drop (off + nb.length)

/-- Insertion in an ascending list without repeats. -/
def insertAsc : Nat → List Nat → List Nat
  | k, [] => [k]
  | k, x :: xs => if k < x then k :: x :: xs else if k = x then x :: xs else x :: insertAsc k xs

/-- The list without the first element that `p` holds of. -/
def dropFirst {α : Type} (p : α → Bool) : List α → List α
  | [] => []
  | x :: xs => if p x then xs else x :: dropFirst p xs

/-- The element whose key is least; the earlier one of equal keys. -/
def minBy {α : Type} (key : α → Nat) : List α → Option α
  | [] => none
  | x :: xs =>
    match minBy key xs with
    | none => some x
    | some y => if key x ≤ key y then some x else some y

/-- The element whose key is greatest; the earlier one of equal keys. -/
def maxBy {α : Type} (key : α → Nat) : List α → Option α
  | [] => none
  | x :: xs =>
    match maxBy key xs with
    | none => some x
    | some y => if key y ≤ key x then some x else some y

/-- Whether every element of a list of conditions holds. -/
def allOf (l : List Bool) : Bool := l.all id

/-! ### The grain check: CRC-32C, reflected polynomial 0x82F63B78 (R204) -/

/-- One bit of the reflected CRC-32C. -/
def crcBit (c : Nat) : Nat := if c % 2 = 1 then (c >>> 1) ^^^ 0x82F63B78 else c >>> 1

/-- Eight bits. -/
def crcByte (c : Nat) (b : Byte) : Nat :=
  crcBit (crcBit (crcBit (crcBit (crcBit (crcBit (crcBit (crcBit (c ^^^ b.toNat))))))))

/-- CRC-32C of bytes in address order (R204). -/
def crc32c (bs : List Byte) : BitVec 32 := BitVec.ofNat 32 (bs.foldl crcByte 0xFFFFFFFF ^^^ 0xFFFFFFFF)

end Machine
end Sys2Proof
end

