-- ==== Sys2Proof/Machine/Shake.lean ====
section
/-! DEFINITION. The SHAKE256 and SHA3-512 functions of FIPS 202, which the digests of R433, R446 to R455 name. The state is five planes of
five lanes; the rotation offsets and the round constants are computed as FIPS 202 defines them, by the walk over the lanes and by the
shift register. -/

namespace Sys2Proof
namespace Machine

/-! ### Lanes and planes -/

/-- All bits of a lane. -/
def laneMax : Nat := 2 ^ 64 - 1

/-- A lane turned by `k` places toward its higher bits. -/
def turnLane (k v : Nat) : Nat := v * 2 ^ k % 2 ^ 64 + v / 2 ^ (64 - k)

/-- Bitwise sum of two planes. -/
def addPlane (p q : List Nat) : List Nat := (p.zip q).map fun e => e.1 ^^^ e.2

/-- A plane seen from the next lane on. -/
def fromNext (p : List Nat) : List Nat := p.drop 1 ++ p.take 1

/-- A plane seen from the lane before. -/
def fromLast (p : List Nat) : List Nat := p.drop 4 ++ p.take 4

/-! ### The steps of a round -/

/-- Theta: every column takes the parities of its two neighbours. -/
def mixColumns (ps : List (List Nat)) : List (List Nat) :=
  let parity := ps.foldl addPlane (List.replicate 5 0)
  let change := addPlane (fromLast parity) ((fromNext parity).map (turnLane 1))
  ps.map (addPlane change)

/-- Rho and pi: the walk from lane (1, 0) that goes from (x, y) to (y, 2x + 3y); the lane met at step t is turned by the t-th
triangular number and stands at the place that the walk goes to. -/
def moveLanes (ps : List (List Nat)) : Nat → Nat → Nat → Nat → List (List Nat) → List (List Nat)
  | 0, _, _, _, out => out
  | k + 1, t, x, y, out =>
    let v := turnLane (t * (t + 1) / 2 % 64) ((ps.getD y []).getD x 0)
    let z := (2 * x + 3 * y) % 5
    moveLanes ps k (t + 1) y z (lset out z (lset (out.getD z []) y v))

/-- Chi: a lane changes where its next one is 0 and the one after that is 1. -/
def mixPlane (p : List Nat) : List Nat :=
  addPlane p (((fromNext p).zip (fromNext (fromNext p))).map fun e => (laneMax - e.1) &&& e.2)

/-- The shift register of the round constants, one step on. -/
def nextRc (r : Nat) : Nat := if 128 ≤ r then (2 * r) ^^^ 0x171 else 2 * r

/-- A round constant: seven bits of the shift register, the j-th at place 2^j - 1; and the register after them. -/
def roundRc : Nat → Nat → Nat → Nat → Nat × Nat
  | 0, _, r, v => (v, r)
  | k + 1, j, r, v => roundRc k (j + 1) (nextRc r) (v + r % 2 * 2 ^ (2 ^ j - 1))

/-- Iota: the round constant is added to lane (0, 0). -/
def addRc (v : Nat) (ps : List (List Nat)) : List (List Nat) :=
  lset ps 0 (addPlane (ps.getD 0 []) [v, 0, 0, 0, 0])

/-- Rounds of the permutation from a state of the shift register on. -/
def permute : Nat → Nat → List (List Nat) → List (List Nat)
  | 0, _, ps => ps
  | k + 1, r, ps =>
    let (v, r) := roundRc 7 0 r 0
    permute k r (addRc v ((moveLanes (mixColumns ps) 24 1 1 0 (mixColumns ps)).map mixPlane))

/-! ### The sponge -/

/-- The planes of a block of bytes. -/
def planesOf (bs : List Byte) : List (List Nat) :=
  (List.range 5).map fun y => (List.range 5).map fun x => leNat (slice bs (40 * y + 8 * x) 8)

/-- The bytes of the planes. -/
def planeBytes (ps : List (List Nat)) : List Byte := ps.flatMap fun p => p.flatMap (leBytes 8)

/-- What is left of a message once no whole block is: its last bytes, the suffix after them, the highest bit of the block set. -/
def lastBlock (rate suffix : Nat) (bs : List Byte) : List Byte :=
  let m := fit rate (bs ++ [BitVec.ofNat 8 suffix])
  m.take (rate - 1) ++ [m.getD (rate - 1) 0 ||| 0x80]

/-- Takes the blocks of a message in turn, `k` whole ones and the last. -/
def sponge (rate suffix : Nat) : Nat → List Byte → List (List Nat) → List (List Nat)
  | 0, bs, ps => permute 24 1 ((ps.zip (planesOf (lastBlock rate suffix bs))).map fun e => addPlane e.1 e.2)
  | k + 1, bs, ps =>
    sponge rate suffix k (bs.drop rate)
      (permute 24 1 ((ps.zip (planesOf (bs.take rate))).map fun e => addPlane e.1 e.2))

/-- The first `n` bytes of a hash, at most the rate. -/
def hashOut (rate suffix n : Nat) (bs : List Byte) : List Byte :=
  (planeBytes (sponge rate suffix (bs.length / rate) bs (List.replicate 5 (List.replicate 5 0)))).take n

/-- The first `n` bytes of SHAKE256, at most 136. -/
def shake256Out (n : Nat) (bs : List Byte) : List Byte := hashOut 136 0x1F n bs

/-- SHAKE256 with 64 bytes of output. -/
def shake256 (bs : List Byte) : List Byte := shake256Out 64 bs

/-- SHA3-512. -/
def sha3512 (bs : List Byte) : List Byte := hashOut 72 0x06 64 bs

end Machine
end Sys2Proof
end

