-- ==== Sys2Proof/Config.lean ====
section
/-! DEFINITION. What an implementation fixes and the values the spec leaves open. Each constant without a body is a free
value: nothing in the model or its proofs can see what it is (log 6). -/

namespace Sys2Proof

/-- A 32-bit value that the module draws (INCARNATION, R272), by the number of the draw. -/
opaque Config.drawn : Nat → BitVec 32

/-- The number of elements in a key or value row of the model of a handle: the spec gives rows a pitch and no width
(R310, log 11). -/
opaque Config.kvRowElems : Nat → Nat

/-- The context virtual address at which the KV pool of a model handle is mapped: the spec gives none (R311, log 11). -/
opaque Config.kvPoolVa : Nat → Nat

/-- PAGES_VA of a request ID (Table 12.4): the spec gives none (log 11). -/
opaque Config.pagesVa : Nat → Nat

/-- REPLAY_VA of a request ID (Table 12.4): the spec gives none (log 11). -/
opaque Config.replayVa : Nat → Nat

/-- Nugardel's PCI-SIG vendor ID (R407): the spec gives no number (log 162). -/
opaque Config.vendorId : BitVec 16

/-- SLH-DSA-SHAKE-256s verification (R455, FIPS 205): key, context string, signed bytes, signature (log 12). -/
opaque Config.slhVerify : List (BitVec 8) → List (BitVec 8) → List (BitVec 8) → List (BitVec 8) → Bool

/-- The public key of a key pair (FIPS 205), from its three seeds (log 12). -/
opaque Config.slhPublic : List (BitVec 8) → List (BitVec 8)

/-- SLH-DSA signature (FIPS 205): the key's three seeds, the number of the draw, context string and signed bytes (log 12). -/
opaque Config.slhSign : List (BitVec 8) → Nat → List (BitVec 8) → List (BitVec 8) → List (BitVec 8)

/-- The signatures under which the module ships: carrier record copies 0 and 1, protection record copies 2 and 3 (log 12). -/
opaque Config.shippedSig : Nat → List (BitVec 8)

/-- A PUF response corrected with helper data (R446): the spec gives the correction no form (log 12). -/
opaque Config.pufCorrect : List (BitVec 8) → List (BitVec 8) → List (BitVec 8)

/-- Whether an X.509 certificate that binds a public key verifies under a root key (R446, R447): root key, certificate, bound key
(log 12). -/
opaque Config.certVerify : List (BitVec 8) → List (BitVec 8) → List (BitVec 8) → Bool

/-- Nugardel's root public key, which boot ROM holds (R446, log 18). -/
opaque Config.rootKey : List (BitVec 8)

/-- The device certificate in carrier flash (R446, log 18). -/
opaque Config.deviceCert : List (BitVec 8)

/-- The secp384r1 share of a draw, and the AES-256-GCM keys that it and a requester's share give (R448, log 19). -/
opaque Config.dheShare : Nat → List (BitVec 8)
opaque Config.dheKeys : Nat → List (BitVec 8) → List (BitVec 8)

/-- The message authentication code of FINISH under the keys of a session (R448, log 19). -/
opaque Config.finishMac : List (BitVec 8) → List (BitVec 8)

/-- Boot ROM, with its two public keys (Table 19.3, log 18). -/
opaque Config.bootRom : List (BitVec 8)

/-- Nugardel's firmware public key, which boot ROM holds (R446, log 18). -/
opaque Config.fwKey : List (BitVec 8)

/-- The certificate chain of slot 0 (Table 19.2, log 18). -/
opaque Config.certChain : List (BitVec 8)

/-- PUF_HELPER of the carrier record (R433, log 18). -/
opaque Config.pufHelper : List (BitVec 8)

/-- ID_DIGEST of the carrier record (R433, log 18). -/
opaque Config.idDigest : List (BitVec 8)

/-- The firmware image that the module ships with: header and body (log 18). -/
opaque Config.shippedImage : List (BitVec 8)

/-- Body of the protection record that holds given settings: the spec gives the record no layout (R453, log 18). -/
opaque Config.protBody : List Nat → List (BitVec 8)

/-- One less than the bytes of a chunk of a large SPDM response (log 19). -/
opaque Config.chunkBytes : Nat

/-- The FP32 value that an untyped byte widens to as the input of an arithmetic function: the spec gives untyped bytes no
value (log 13). -/
opaque Config.untypedVal : Nat → BitVec 32

/-- CHECK of a flit whose body the spec gives no layout (MEMREQ, control messages): the port and the number of the flit (log 121). -/
opaque Config.bodyCheck : Nat → Nat → BitVec 32

/-- What an engine of the hubs or a stack base reads from a peer's memory: the number of the read and the offset in the grain
(log 14). -/
opaque Config.remoteByte : Nat → Nat → BitVec 8

end Sys2Proof
end

