-- ==== Sys2Proof/Machine/State.lean ====
section
/-! DEFINITION. The state of the module: every register, table, queue, mode and pin the spec gives it, the queue of
waiting commands, and the state right after power-on reset. -/

namespace Sys2Proof
namespace Machine

/-! ### Memory and tags -/

/-- A grain tag (Table 8.2). -/
structure GrainTag where
  check : BitVec 32
  poison : Bool
  format : Nat
  part : Nat
  deriving DecidableEq, Repr

/-- Where the data of a read goes, or what a write carries out, when its request ends. -/
inductive Dest where
  /-- Pieces (offset in grain, scratchpad offset, length) of the grain land in a core's scratchpad. -/
  | tile (core : Nat) (pieces : List (Nat × Nat × Nat))
  /-- The 8-byte word at `off` of the grain goes to scalar register `dst` of a control thread (R159). -/
  | scalar (dst off : Nat)
  /-- The grain is copied, tag and all, to the grain at `va` (R136). -/
  | move (va : Nat)
  /-- The whole-grain write that carries a copied grain to where it goes (R136, R462). -/
  | moved
  /-- A whole-grain write. -/
  | store
  /-- A write of the bytes at `off` only, merged at the grain's home (R134, R159). -/
  | merge (off len : Nat)
  /-- A grain write that an engine has made in its bank, whose acknowledgement waits on back-invalidates (R414, R462). -/
  | settled
  /-- An HDM access of the host to the line at the request's address (R413). -/
  | host
  /-- A tier 3 request of a peer; a write begins at byte `off` of the grain (R203). -/
  | peer (src txn off : Nat)
  deriving DecidableEq, Repr

/-- How far a memory request has come. -/
inductive Phase where
  | waitSlot    -- no request slot was free (R49)
  | queued      -- on its way to, or in the queue of, its bank, port or the host
  | held        -- held at the hub behind a RESHARD (R294)
  | served      -- a read's data is on its way back; a write is in its bank
  | waitBi      -- a write that waits on a back-invalidate (R414)
  deriving DecidableEq, Repr

/-- A request to tiers 1 to 4: one grain (R49, R50). -/
structure MReq where
  agent : Option Agent
  core : Option Nat
  ctx : Nat
  isWrite : Bool
  va : Nat
  pa : Nat
  tier : Nat
  data : List Byte
  tag : GrainTag
  dest : Dest
  cg : Option Nat
  sched : Option Nat
  entry : Nat
  stamp : Nat
  source : Nat
  limit : Nat
  order : Nat
  phase : Phase
  code : Nat
  deriving DecidableEq, Repr

/-- Tiers 1, 2 and 4 with their tags, the requests in flight and the memory registers of Table 8.9. -/
structure Mem where
  cells : List Host.Cell
  tags : Tbl GrainTag
  linesWritten : Tbl Nat
  reqs : Tbl MReq
  nextReq : Nat
  hintGroups : Nat
  hintRefused : Bool
  lateT2 : Nat
  lateT3 : Nat
  lateT4 : Nat
  nmCe : Nat
  nmUe : Nat
  capCe : Nat
  capUe : Nat
  mirrorFailovers : Nat
  refetches : Nat
  tierFailed : Nat
  /-- Grains whose tile is being read again from its source image (R229). -/
  refetching : List Nat
  deriving DecidableEq, Repr

/-! ### Clocks, governor, energy -/

/-- The clock of a physical compute die (Table 1.12). -/
structure DieClk where
  pllOn : Bool
  keepWarm : Bool
  state : Nat
  logical : Nat
  holdoff : Nat
  freq : Nat
  starting : Bool
  idleTicks : Nat
  cycleRem : Nat
  deriving DecidableEq, Repr

/-- Traffic that waits at a die's bridge edge while its PLL is stopped (R28). -/
inductive EdgeItem where
  | grain (req : Nat) (corrupt : Bool)
  | word (core ep : Nat)
  | credit (core ep : Nat)
  | tokens (core block n : Nat)
  /-- A request of a group has completed with a code (R132). -/
  | group (agent : Agent) (cg code : Nat)
  /-- A QCONFIG or a QCLOSE for an endpoint of core `dst` (R461). -/
  | config (dst src core ep : Nat) (word : Word) (part : Nat) (answer : Bool)
  | close (dst src core ep peerCore peerEp words : Nat)
  deriving DecidableEq, Repr

/-- The always-on domain's clock, governor and oscillators (Tables 1.8 to 1.12, 2.10) and the energy balances of
R370. -/
structure Clock where
  tick : Nat
  hiLatch : Nat
  inPower : Nat
  inEnergy : Nat
  throttling : Bool
  issueWithheld : Nat
  throttleEvents : Nat
  sustainedW : Nat
  lowered : Nat
  aboveSamples : Nat
  relaxSamples : Nat
  hot : Bool
  failA : Bool
  failB : Bool
  oscB : Bool
  dies : Tbl DieClk
  /-- Traffic held at the bridge edges, oldest first (R28). -/
  edge : List EdgeItem
  pllOffTicks : Tbl Nat
  stallEnable : Bool
  stallLimitUs : Nat
  owedUj : Tbl Nat
  /-- Remainder in µJ of each monitored domain, by its place among the readings; of the conversion loss, 1,000 (R370). -/
  carry : Tbl Nat
  /-- Since the last collection: core-ticks held on physical die k by context n, by 4,096 × k + n, and ticks of each active die. -/
  heldOn : Tbl Nat
  dieTicks : Tbl Nat
  overheadOwed : Int
  overheadMj : Nat
  retiredMj : Nat
  inputUj : Nat
  deriving DecidableEq, Repr

/-! ### Threads, blocks, groups -/

/-- What a parked thread waits for. -/
inductive Park where
  | landing (lo hi : Nat)
  | slot
  | packet (ep : Nat)
  | credit (ep : Nat)
  | sumCredit
  | ringFilled (ring slot : Nat)
  | ringEmpty (ring slot : Nat)
  | ringDrain (ring : Nat)
  | ringSwap (ring : Nat)
  | fence (scope kind order : Nat)
  | barrier (b : Nat)
  | group (g : Nat)
  | epoch (model layer epoch : Nat)
  | layoutFence (tensor : Nat)
  | reshard (id : Nat)
  | gflag (step : Nat)
  | collTable
  | summary (tag round : Nat)
  | coreSet
  | load
  | smem (req : Nat)
  | qconfig (core ep : Nat)
  /-- A QCFG whose QCONFIG has not left the module (R461). -/
  | qconfigOut (core ep : Nat)
  /-- An UPDOP or UPDCLOSE that finds the operation queue of a stack's engine full (R232). -/
  | updQueue (stack : Nat)
  | restart
  deriving DecidableEq, Repr

/-- Thread states (Table 2.6); a Held thread keeps the state it left beside the `held` mark. -/
inductive TState where
  | free
  | runnable
  | parked (cause : Nat) (wait : Park) (since : Nat)
  deriving DecidableEq, Repr

/-- A hardware thread (R42), or the thread part of a control thread. -/
structure Thread where
  st : TState
  held : Bool
  s : Tbl Word
  p : Tbl Bool
  ip : Nat
  block : Nat
  boundAt : Nat
  /-- Packets held: endpoint and packet number, oldest first (R63). -/
  packets : List (Nat × Nat)
  /-- Words of the QSEND in progress that have left the core. -/
  sent : Nat
  /-- The barrier arrival, CORES request or QCFG whose wait has ended; the instruction then completes. -/
  woken : Option Nat
  deriving DecidableEq, Repr

/-- A thread with nothing bound. -/
def Thread.reset : Thread :=
  { st := .free, held := false, s := [], p := [], ip := 0, block := 0, boundAt := 0, packets := [], sent := 0,
    woken := none }

/-- One operand of a firing block (Table 2.5). -/
structure OpDecl where
  kind : Nat
  source : Nat
  count : Nat
  deriving DecidableEq, Repr

/-- A block table entry (Table 2.4). -/
structure BlockDesc where
  entry : Nat
  insts : Nat
  rearm : Bool
  length : Nat
  ops : List OpDecl
  deriving DecidableEq, Repr

/-- A loaded core program (R37, R76). -/
structure Program where
  codeWords : Nat
  blocks : List BlockDesc
  deriving DecidableEq, Repr

/-- The running state of a firing block (R35, R39 to R41). -/
structure BlockSt where
  bound : Nat
  total : Nat
  retired : Bool
  tokens : Nat
  readySince : Option Nat
  deriving DecidableEq, Repr

def BlockSt.reset : BlockSt := { bound := 0, total := 0, retired := false, tokens := 0, readySince := none }

/-- A completion group (R35, R132): requests issued and completed since the last claim, the largest code kept, the
last status, and how many outstanding requests are of tier 3 or a collective (R148). -/
structure Cg where
  issued : Nat
  done : Nat
  code : Nat
  last : Nat
  peerOut : Nat
  deriving DecidableEq, Repr

def Cg.reset : Cg := { issued := 0, done := 0, code := 0, last := 0, peerOut := 0 }

/-- Ring slot states (Table 8.5). A loading slot names the thread that fills it, if a thread does. -/
inductive RSlot where
  | empty
  | loading (thr : Option Nat)
  | filled
  | claimed (thr : Nat)
  | done
  deriving DecidableEq, Repr

/-- A stream ring (R215 to R219). TAIL, READ and HEAD count slots since configuration. -/
structure Ring where
  mode : Nat
  producer : Nat
  slots : Nat
  size : Nat
  base : Nat
  st : List RSlot
  tail : Nat
  read : Nat
  head : Nat
  front : Nat
  /-- Mode 1: whether a SWAP has happened since the last entry of a schedule. -/
  swapped : Bool
  /-- A reconfiguration that waits for claimed slots (R138). -/
  draining : Bool
  deriving DecidableEq, Repr

/-- An armed prefetch schedule (R220 to R224). -/
structure Sched where
  owner : Agent
  ctx : Nat
  target : Nat
  ring : Nat
  lead : Nat
  list : Nat
  length : Nat
  gateVa : Nat
  gateSeen : Nat
  started : Nat
  /-- Grains of each started entry that have not landed: entry index and count. -/
  inFlight : List (Nat × Nat)
  cg : Option Nat
  stopCgs : List Nat
  stopped : Bool
  insn : Word
  ip : Nat
  block : Nat
  deriving DecidableEq, Repr

/-! ### Queues -/

/-- A word in flight to, or in, a receive buffer. -/
structure QWord where
  data : List Byte
  poison : Bool
  first : Bool
  last : Bool
  truncated : Bool
  deriving DecidableEq, Repr

/-- A complete packet in a receive buffer with its notice record (Table 3.2). -/
structure Packet where
  num : Nat
  off : Nat
  words : Nat
  poison : Bool
  truncated : Bool
  claimed : Option Nat
  released : Bool
  deriving DecidableEq, Repr

/-- A QCONFIG held for an endpoint (R461). -/
structure HeldCfg where
  peer : Nat
  core : Nat
  ep : Nat
  word : Word
  part : Nat
  /-- Whether its answer is due once this module's end has closed (R461). -/
  due : Bool
  deriving DecidableEq, Repr

/-- One of a core's 32 endpoints (R60). -/
structure Endpoint where
  cfg : Word
  isOpen : Bool
  closed : Bool
  credits : Nat
  seq : Nat
  sentWords : Nat
  gotWords : Nat
  /-- Words of the queue that came before this end opened, and were discarded (R461, log 122). -/
  earlyWords : Nat
  /-- The context of the partner end on this module, once the queue is open. -/
  mate : Option Nat
  bufPos : Nat
  partialWords : Nat
  partialPoison : Bool
  /-- Words of the packet that is arriving: no instruction reads them before its notice (R62). -/
  arriving : List QWord
  /-- Words that have left the core for a peer and wait for the rest of their flit (R69). -/
  flit : List QWord
  packets : List Packet
  inFlight : List QWord
  creditFlight : Nat
  closeAfter : Option Nat
  /-- The thread whose packet is partly sent. -/
  sender : Option Nat
  heldCfg : Option HeldCfg
  deriving DecidableEq, Repr

def Endpoint.reset : Endpoint :=
  { cfg := 0, isOpen := false, closed := false, credits := 0, seq := 0, sentWords := 0, gotWords := 0, earlyWords := 0,
    mate := none, bufPos := 0, partialWords := 0, partialPoison := false, arriving := [], flit := [], packets := [], inFlight := [], creditFlight := 0, closeAfter := none,
    sender := none, heldCfg := none }

/-- A summary contribution (Table 4.12). SOURCE 0x400 marks one of the host (R421). -/
structure Contribution where
  source : Nat
  kind : Nat
  round : Nat
  tag : Nat
  poison : Bool
  value : Word
  deriving DecidableEq, Repr

/-! ### Cores -/

/-- An accumulation group register (Table 4.3). -/
structure AccGroup where
  sat : Bool
  isOpen : Bool
  acc : Nat
  rows : Nat
  cols : Nat
  base : Nat
  deriving DecidableEq, Repr

def AccGroup.reset : AccGroup := { sat := false, isOpen := false, acc := 0, rows := 0, cols := 0, base := 0 }

/-- A sampled output block in the shadow buffer (R193): its K and the elements as exact widened inputs' bits. -/
structure Sample where
  k : Nat
  rows : Nat
  cols : Nat
  a : List (List (BitVec 32))
  b : List (List (BitVec 32))
  old : List (BitVec 32)
  new : List (BitVec 32)
  deriving DecidableEq, Repr

/-- A logical compute core (Table 2.1). -/
structure Core where
  owner : Option Nat
  lost : Bool
  prog : Option Program
  loading : Bool
  d : Tbl (BitVec 256)
  ag : Tbl AccGroup
  eps : Tbl Endpoint
  threads : Tbl Thread
  blocks : Tbl BlockSt
  cgs : Tbl Cg
  rings : Tbl Ring
  sp : List Host.Cell
  spPoison : Tbl Bool
  sumCredit : Nat
  sumFlight : List Contribution
  /-- The prefetch schedule that the stream unit served last, and the order number of its next grain request (R224). -/
  streamTurn : Nat
  streamAt : Nat
  pepper : Tbl Nat
  eligible : Nat
  sample : Option Sample
  gated : Bool
  idleRun : Nat
  starvedSince : Option Nat
  busy : Nat
  idle : Tbl Nat
  binds : Nat
  parks : Nat
  deriving DecidableEq, Repr

def Core.reset : Core :=
  { owner := none, lost := false, prog := none, loading := false, d := [], ag := [], eps := [],
    threads := [], blocks := [], cgs := [], rings := [], sp := [], spPoison := [], sumCredit := 4, sumFlight := [],
    streamTurn := 0, streamAt := 0, pepper := [], eligible := 0, sample := none,
    gated := false, idleRun := 0, starvedSince := none, busy := 0, idle := [], binds := 0, parks := 0 }

/-! ### Contexts -/

/-- A fault record (Table 4.16). -/
structure FaultRec where
  code : Nat
  core : Nat
  thread : Nat
  block : Nat
  ip : Nat
  more : Nat
  insn : Word
  addr : Nat
  tick : Nat
  deriving DecidableEq, Repr

def FaultRec.reset : FaultRec :=
  { code := 0, core := 0, thread := 0, block := 0, ip := 0, more := 0, insn := 0, addr := 0, tick := 0 }

/-- One mapped run of pages (R91): virtual and physical page bases, the page size in bytes, and its rights. -/
structure Mapping where
  va : Nat
  pa : Nat
  bytes : Nat
  write : Bool
  model : Bool
  deriving DecidableEq, Repr

/-- A (tag, round) of a summary mailbox (R95): the armed KIND and EXPECT, if armed, the contributions counted,
in arrival order, and the results not yet taken by SUMGET. -/
structure MailSlot where
  armed : Option (Nat × Nat)
  contribs : List Contribution
  results : List (Word × Word)
  deriving DecidableEq, Repr

def MailSlot.reset : MailSlot := { armed := none, contribs := [], results := [] }

/-- A context barrier (R146): the count fixed by the first arrival and the agents that have arrived. -/
structure Barrier where
  count : Nat
  arrived : List Agent
  deriving DecidableEq, Repr

def Barrier.reset : Barrier := { count := 0, arrived := [] }

/-- A step poison latch (R242). -/
structure Latch where
  set : Bool
  step : Nat
  deriving DecidableEq, Repr

def Latch.reset : Latch := { set := false, step := 0 }

/-- A LOADP in progress (R77): the image, the cores still to load, and the first rejection. -/
structure LoadJob where
  va : Nat
  cores : List Nat
  failed : Option Nat
  deriving DecidableEq, Repr

/-- A control thread (R72, R74): its thread part, its descriptors, status register, completion groups, and the virtual
address of its first instruction. -/
structure Control where
  thr : Thread
  d : Tbl (BitVec 256)
  status : Word
  cgs : Tbl Cg
  codeVa : Nat
  deriving DecidableEq, Repr

def Control.reset : Control := { thr := Thread.reset, d := [], status := 0, cgs := [], codeVa := 0 }

/-- Accounting counters of a context (Table 15.6). -/
structure Acct where
  heldCoreTicks : Nat
  matBusy : Nat
  vecBusy : Nat
  updBusy : Nat
  ctlBusy : Nat
  preemptTicks : Nat
  bytesTier : Tbl Nat
  bytesLink : Tbl Nat
  energyMj : Nat
  deriving DecidableEq, Repr

def Acct.reset : Acct :=
  { heldCoreTicks := 0, matBusy := 0, vecBusy := 0, updBusy := 0, ctlBusy := 0, preemptTicks := 0, bytesTier := [],
    bytesLink := [], energyMj := 0 }

/-- Numerics registers of a context (Tables 7.8 to 7.10), and the values latched at creation. -/
structure Num where
  s5emuReg : Bool
  s5emu : Bool
  seedReg : Word
  seed : Word
  shEnable : Bool
  shAlertBin : Nat
  shAlertEn : Bool
  shAlertTag : Nat
  shRateExp : Nat
  shSampled : Nat
  shSkipped : Nat
  shBins : Tbl Nat
  deriving DecidableEq, Repr

def Num.reset : Num :=
  { s5emuReg := false, s5emu := false, seedReg := 0, seed := 0, shEnable := false, shAlertBin := 6, shAlertEn := false,
    shAlertTag := 0, shRateExp := 10, shSampled := 0, shSkipped := 0, shBins := [] }

/-- Distillation registers of a context (Tables 14.3, 14.5), and the role latched at creation. -/
structure Dst where
  roleReg : Nat
  role : Nat
  epMask : Nat
  packets : Nat
  words : Nat
  poisoned : Nat
  truncated : Nat
  waitTicks : Nat
  deriving DecidableEq, Repr

def Dst.reset : Dst :=
  { roleReg := 0, role := 0, epMask := 0, packets := 0, words := 0, poisoned := 0, truncated := 0, waitTicks := 0 }

/-- Why a context is torn down: the teardown entry's reason code, or none for a partition reset (R362). -/
abbrev Reason := Option Nat

/-- A context (R72, R357). -/
structure Ctx where
  state : Nat
  part : Nat
  priv : Bool
  colgroup : Nat
  share : Nat
  savePa : Nat
  saveGrains : Nat
  pass : Nat
  fault : FaultRec
  coreset : List Nat
  acct : Acct
  num : Num
  dst : Dst
  ctl : Control
  maps : List Mapping
  mail : Tbl MailSlot
  barriers : Tbl Barrier
  latchEven : Latch
  latchOdd : Latch
  loadp : Option LoadJob
  /-- A CORES request not yet answered: the count asked for, and the contexts whose save it waits for (R364). -/
  coresReq : Option (Nat × List Nat)
  /-- SHARE as it counts until the next quantum boundary, and the core-ticks held since the last one (R365). -/
  shareNow : Nat
  heldQ : Nat
  saving : Bool
  restoring : Bool
  reason : Reason
  /-- Open-reduction counts by TENSOR_ID (R152). -/
  reductions : Tbl Nat
  restartEn : Bool
  restartVa : Nat
  restarts : Nat
  lastRestart : Nat
  /-- Philox free counters and eligible shadow blocks of the context on logical cores that it does not hold: they begin again only at
  CREATE (R184, R192). -/
  kept : Tbl (Tbl Nat × Nat)
  /-- W1 of each slot of the commit window, as stored (Table 12.4). -/
  windowW1 : Tbl Word
  /-- W0 of the request slots and of the dispatch slot as last stored (Table 12.4), by request ID; the dispatch slot is 65,536. -/
  windowW0 : Tbl Word
  /-- RESULT and VALUE of the dispatch slot (Table 12.4). -/
  dispResult : Nat
  dispValue : Nat
  deriving DecidableEq, Repr

def Ctx.reset : Ctx :=
  { state := 0, part := 0, priv := false, colgroup := 0, share := 0, savePa := 0, saveGrains := 0, pass := 0,
    fault := FaultRec.reset, coreset := [], acct := Acct.reset, num := Num.reset, dst := Dst.reset,
    ctl := Control.reset, maps := [], mail := [], barriers := [], latchEven := Latch.reset, latchOdd := Latch.reset,
    loadp := none, coresReq := none, shareNow := 0, heldQ := 0, saving := false, restoring := false, reason := none, reductions := [],
    restartEn := false, restartVa := 0, restarts := 0, lastRestart := 0, kept := [], windowW1 := [], windowW0 := [], dispResult := 0, dispValue := 0 }

/-! ### Partitions -/

/-- A memory window of whole 2 MiB pages, first and last inclusive (Table 15.5). -/
structure Window where
  first : Nat
  last : Nat
  deriving DecidableEq, Repr

/-- The entry of a partition in the partition table (R354). -/
structure PartEntry where
  enabled : Bool
  privOk : Bool
  vecCount : Nat
  ctxCount : Nat
  ctxFirst : Nat
  windows : Tbl Window
  deriving DecidableEq, Repr

def PartEntry.reset : PartEntry :=
  { enabled := false, privOk := false, vecCount := 0, ctxCount := 0, ctxFirst := 0, windows := [] }

/-- An MSI-X table entry: message address, data and mask bit. -/
structure MsixEntry where
  addr : Word
  data : Word32
  masked : Bool
  deriving DecidableEq, Repr

def MsixEntry.reset : MsixEntry := { addr := 0, data := 0, masked := true }

/-- A partition's registers and queues (Tables 12.9, 13.6, 15.5, 17.6; R362, R371, R372). -/
structure Part where
  resetting : Bool
  resetDone : Bool
  createRefused : Bool
  share : Nat
  evtEn : Bool
  evtVec : Nat
  teardown : List (Nat × Nat)
  irqDeferred : Nat
  pass : Nat
  energyMj : Nat
  resets : Nat
  -- CMD
  cmdBase : Nat
  cmdOrder : Nat
  cmdTail : Nat
  cmdHead : Nat
  cmdCfgRefused : Bool
  cmdBadDoorbell : Bool
  cplEn : Bool
  cplVec : Nat
  cmdCompleted : Nat
  destroyWait : Option Nat
  /-- Doorbells that wait for their turn, oldest first, each with the command ring's TAIL as it was when it came (R373, R418). -/
  bells : List (Instr × Nat)
  -- RQ
  rqBase : Nat
  rqSlots : Nat
  rqMaxActive : Nat
  rqCfgRefused : Bool
  rqBadDoorbell : Bool
  rqAccepted : Nat
  rqEnded : Nat
  rqEvictions : Nat
  -- MDL
  mdlBase : Nat
  mdlSlots : Nat
  mdlCfgRefused : Bool
  mdlBadDoorbell : Bool
  t1Base : Nat
  t1Size : Nat
  t2Base : Nat
  t2Size : Nat
  mdlLoads : Nat
  mdlEvictions : Nat
  mdlReplaces : Nat
  mdlEpochErrors : Nat
  dlMoved : Nat
  dlEnded : Nat
  -- MSI-X
  vectors : Tbl MsixEntry
  pba : Tbl Nat
  /-- Vectors whose pending message has already been counted in IRQ_DEFERRED. -/
  deferred : Tbl Nat
  tokens : Nat
  refill : Nat
  /-- SHARE as it counts until the next quantum boundary, the entitlement (R363), and the core-ticks held since the last
  boundary (R365). -/
  shareNow : Nat
  ent : Nat
  heldQ : Nat
  deriving DecidableEq, Repr

def Part.reset : Part :=
  { resetting := false, resetDone := false, createRefused := false, share := 100, evtEn := false, evtVec := 0,
    teardown := [], irqDeferred := 0, pass := 0, energyMj := 0, resets := 0, cmdBase := 0, cmdOrder := 0, cmdTail := 0,
    cmdHead := 0, cmdCfgRefused := false, cmdBadDoorbell := false, cplEn := false, cplVec := 0, cmdCompleted := 0,
    destroyWait := none, bells := [], rqBase := 0, rqSlots := 0, rqMaxActive := 1024, rqCfgRefused := false,
    rqBadDoorbell := false, rqAccepted := 0, rqEnded := 0, rqEvictions := 0, mdlBase := 0, mdlSlots := 0,
    mdlCfgRefused := false, mdlBadDoorbell := false, t1Base := 0, t1Size := 0, t2Base := 0, t2Size := 0, mdlLoads := 0,
    mdlEvictions := 0, mdlReplaces := 0, mdlEpochErrors := 0, dlMoved := 0, dlEnded := 0, vectors := [], pba := [],
    deferred := [], tokens := 32, refill := 0, shareNow := 100, ent := 0, heldQ := 0 }

/-! ### Collectives, Churn, in-stack work -/

/-- Where a group's completion is reported: the issuer and its completion group (R131). -/
structure CgRef where
  agent : Agent
  cg : Nat
  deriving DecidableEq, Repr

/-- A grain of collective data received: sender, grain index, data and poison. -/
structure Got where
  src : Nat
  grain : Nat
  data : List Byte
  tag : GrainTag
  deriving DecidableEq, Repr

/-- An open collective (R151, R275 to R281). -/
structure Coll where
  ctx : Nat
  group : Nat
  attempt : Nat
  desc : BitVec 256
  src : BitVec 256
  dst : BitVec 256
  cg : CgRef
  flow : Nat
  deadline : Nat
  /-- A COLL that waits for a free entry of the open-collective table (R275). -/
  waiting : Bool
  /-- Order number of its issue (R151). -/
  order : Nat
  /-- Its source has been read; until then its grains are held behind a RESHARD (R294). -/
  read : Bool
  /-- COLDATA that came while its grains were held behind a RESHARD: sender, wire index, data and tag (R294). -/
  inbox : List (Nat × Nat × List Byte × GrainTag)
  arrives : List ArriveMsg
  /-- What this member sends: receiver, grain index, data and tag, as its source read at the start. -/
  mine : List (Nat × Nat × List Byte × GrainTag)
  /-- Reduced grains of the own shard, which the owner of an ALLRED forwards. -/
  fwd : List (Nat × List Byte × GrainTag)
  sentTo : List Nat
  got : List Got
  landed : List Nat
  /-- Owner's shard grains that have been combined. -/
  combined : List Nat
  poisoned : Bool
  /-- An access to a slower tier has failed (R226). -/
  failed : Bool
  deriving DecidableEq, Repr

/-- A mapping record (Table 11.2). -/
structure MapRec where
  oldSplit : Nat
  oldParts : Nat
  newSplit : Nat
  newParts : Nat
  stageVa : Nat
  oldOwner : Nat
  newOwner : Nat
  grows : Nat
  gcols : Nat
  missingOk : Bool
  stageGrains : Nat
  deriving DecidableEq, Repr

/-- Where a RESHARD stands (R292, R293). -/
inductive ReshardPhase where
  | fence | staging | staged | committing | rolledBack
  deriving DecidableEq, Repr

/-- A RESHARD (R292). -/
structure Reshard where
  ctx : Nat
  group : Nat
  attempt : Nat
  desc : BitVec 256
  tensor : BitVec 256
  mapRec : MapRec
  check : Nat
  cg : CgRef
  flow : Nat
  phase : ReshardPhase
  issued : Nat
  deadline : Nat
  order : Nat
  arrives : List ArriveMsg
  sentTo : List Nat
  /-- Positions of the new layout whose grain has landed in staging. -/
  filled : List Nat
  poisoned : Bool
  code : Nat
  deriving DecidableEq, Repr

/-- A GFLAG that waits for its members (R282). -/
structure GflagWait where
  ctx : Nat
  agent : Agent
  dst : Nat
  group : Nat
  attempt : Nat
  step : Nat
  members : Nat
  flag : Bool
  sent : Bool
  deadline : Nat
  /-- Order number of its issue (R151). -/
  order : Nat
  deriving DecidableEq, Repr

/-- A GFLAG message heard (Table 10.8). -/
structure GflagMsg where
  src : Nat
  group : Nat
  attempt : Nat
  step : Nat
  flag : Bool
  aborted : Bool
  deriving DecidableEq, Repr

/-- The collective hubs: open collectives, RESHARDs, GFLAGs, the ATTEMPT of each group, aborted steps (R282 to
R285), and the Churn counters of Table 11.5. -/
structure Hub where
  colls : Tbl Coll
  nextColl : Nat
  /-- Where the search for a free FLOW begins: FLOWs are taken in rotation, so that COLDATA of an aborted attempt finds none open
  (R282). -/
  nextFlow : Nat
  earlyArrives : List ArriveMsg
  reshards : Tbl Reshard
  nextReshard : Nat
  gflags : List GflagWait
  gflagMsgs : List GflagMsg
  /-- Steps (group, attempt, step) aborted at this module. -/
  aborted : List (Nat × Nat × Nat)
  /-- GFLAGs already issued (ctx, attempt, step) (R153, R293). -/
  flagged : List (Nat × Nat × Nat)
  attempts : Tbl Nat
  /-- Completed compressed collectives whose Whey residual awaits its GFLAG: ctx, step, header address (R281). -/
  whey : List (Nat × Nat × Nat)
  /-- Accesses of collectives to grains that a RESHARD holds, done once it has completed (R294): Whey headers to settle (context, step,
  address, applied), and grains to poison (group, context, address). -/
  wheyDue : List (Nat × Nat × Nat × Bool)
  poisonDue : List (CgRef × Nat × Nat)
  reshardCount : Nat
  commits : Nat
  rollbacks : Nat
  grainsOut : Nat
  grainsIn : Nat
  grainsLocal : Nat
  fenceTicks : Nat
  missingGrains : Nat
  deriving DecidableEq, Repr

/-- How far a reduction contribution has come (R237 to R239). -/
inductive ContribPhase where
  | waitSlot | inFlight | refused (tick : Nat)
  deriving DecidableEq, Repr

/-- A contribution of one grain (R237). -/
structure Contrib where
  core : Nat
  thr : Nat
  ctx : Nat
  sess : Nat
  va : Nat
  grain : Nat
  tag : Nat
  data : List Byte
  poison : Bool
  cg : CgRef
  order : Nat
  phase : ContribPhase
  deriving DecidableEq, Repr

/-- A reduction session (R236 to R241). -/
structure Session where
  ctx : Nat
  buffer : BitVec 256
  step : Nat
  ntags : Nat
  contrib : Nat
  closes : Nat
  /-- UPDCLOSEs not yet counted: the issuer and the order number of its issue (R241). -/
  closing : List (Agent × Nat)
  closers : List CgRef
  next : Tbl Nat
  /-- Contributions held in the reorder pool: grain, tag, data, poison. -/
  pool : List (Nat × Nat × List Byte × Bool)
  poisonedGrains : List Nat
  /-- Grains that the buffer cache of their stack holds open (R232). -/
  cached : List Nat
  counted : Bool
  complete : Bool
  deriving DecidableEq, Repr

/-- An update operation (R234, R235). -/
structure UpdOp where
  ctx : Nat
  agent : Agent
  desc : BitVec 256
  tensor : BitVec 256
  step : Nat
  cg : Nat
  insn : Word
  ip : Nat
  block : Nat
  order : Nat
  deriving DecidableEq, Repr

/-- An open mirror snapshot (R252, R253): context, master and mirror record addresses, bank, step, and the (source, target,
grains) runs it still copies. -/
structure Snapshot where
  ctx : Nat
  base : Nat
  mirrorVa : Nat
  bank : Nat
  step : Nat
  runs : List (Nat × Nat × Nat)
  deriving DecidableEq, Repr

/-- What firmware records of a trickle-mirrored tensor at its STEP (R393): its partition, its context and that context's
mappings, the parameter block and the master's descriptor. -/
structure MirrorNote where
  part : Nat
  ctx : Nat
  params : Nat
  tensor : BitVec 256
  maps : List Mapping
  deriving DecidableEq, Repr

/-- The in-stack update engines. -/
structure Upd where
  sessions : Tbl Session
  nextSession : Nat
  contribs : Tbl Contrib
  nextContrib : Nat
  ops : Tbl UpdOp
  nextOp : Nat
  snapshots : Tbl Snapshot
  nextSnapshot : Nat
  mirrored : List MirrorNote
  deriving DecidableEq, Repr

/-! ### What leaves the module -/

/-- What the block puts on its outward interfaces: link messages and flits, messages and completions to the host,
bus and pin events. -/
inductive Out where
  | hello (h : HelloMsg)
  | absentMsg (dst peer incarnation joinEpoch : Nat)
  | arriveMsg (dst : Nat) (m : ArriveMsg)
  | abortMsg (dst group attempt step : Nat)
  | gflagMsg (dst group attempt step : Nat) (flag aborted : Bool)
  | relaydrain (dst forDst : Nat)
  | qcredit (dst sendCore sendEp recvCore recvEp words : Nat)
  | qconfig (dst core ep : Nat) (word : Word) (part : Nat) (answer : Bool)
  | qclose (dst core ep peerCore peerEp words : Nat)
  | routes (dst : Nat) (mask : BitVec 8)
  | queueFlit (dst cls eseq core ep : Nat) (words : List (List Byte)) (check : BitVec 32) (poison first last truncated : Bool)
  | memreq (dst txn pa : Nat) (isWrite : Bool) (off len : Nat)
  | memdata (dst txn : Nat) (data : List Byte) (tag : GrainTag)
  | memack (dst txn code : Nat)
  | coldata (dst flow grain : Nat) (data : List Byte) (tag : GrainTag)
  /-- The header words of a flit that leaves a port (Table 10.3); what it carries follows. -/
  | flit (port : Nat) (w0 w1 : Word)
  /-- A FEC group that leaves a port (R264): the LSEQs of its four flits, a place without one being an IDLE flit, and its link word. -/
  | fecGroup (port : Nat) (lseqs : List (Option Nat)) (link : LinkWord)
  | replay (port : Nat) (lseqs : List Nat)
  | relayFlit (port : Nat) (f : Flit)
  | msix (part vec : Nat)
  | regValue (value : Nat)
  | hdmData (pa : Nat) (data : List Byte) (poison : Bool)
  | hdmDone (pa : Nat)
  | biSnoop (line : Nat)
  | snoopInvalid (addr : Nat)
  | hostRead (req pa : Nat)
  | hostWrite (req pa : Nat) (data : List Byte) (poison : Bool)
  | decoderError (dec : Nat)
  | spdm (what : Nat) (payload : List Byte)
  | spdmError (code : Nat)
  | doe (protocol next : Nat)
  | smb (bytes : List Byte)
  | smbNak (code : Byte)
  | smbAck
  | portDown (port : Nat)
  | viral
  | hostLinkDown
  | l12 (enter : Bool)
  | retryStatus
  deriving DecidableEq, Repr

/-! ### Peer links and membership -/

/-- A flit at a port's sender: its LSEQ once sent, its class, its final destination, whether another module sent it, whether it
crosses the partner (R270), its ESEQ when it is ordered, and what it carries. -/
structure Sent where
  lseq : Nat
  cls : Nat
  dst : Nat
  foreign : Bool
  relay : Bool
  eseq : Option Nat
  msg : Out
  deriving DecidableEq, Repr

/-- A peer port (Tables 10.2, 10.11 to 10.14) and its link state (R262 to R268). -/
structure Port where
  state : Nat
  enteredAt : Nat
  lanes : Nat
  farPeer : Nat
  farPort : Nat
  wiringErr : Bool
  viaPartner : Bool
  enable : Bool
  replayMax : Nat
  wC1 : Nat
  wC2 : Nat
  wC3 : Nat
  bad : BitVec 18
  spare : BitVec 18
  active : BitVec 18
  laneLimit : Nat
  swapLane : Option Nat
  flitsTx : Nat
  flitsRx : Nat
  fecCorrected : Nat
  fecUncorr : Nat
  checkFail : Nat
  replays : Nat
  poisonDelivered : Nat
  laneSwaps : Nat
  retrains : Nat
  protoErr : Nat
  relayed : Nat
  /-- Receiver: next LSEQ expected, and replays asked in a row for it. -/
  rxNext : Nat
  rxTries : Nat
  fecTries : Nat
  /-- Sender: next LSEQ, flits sent and not acknowledged, flits that wait for credit or for the port, credits per class, flits
  sent per class in the present round (R266), and the NAKs in a row at one ACK. -/
  txNext : Nat
  txBuf : List Sent
  txWait : List Sent
  credits : Tbl Nat
  round : Tbl Nat
  nakAt : Nat
  nakTries : Nat
  /-- The nonces of the HELLOs traded in EXCHANGE: this module's, and the far one's once it has come (R447). -/
  nonce : List Byte
  farNonce : List Byte
  deriving DecidableEq, Repr

/-- A write of a peer whose data has not come: its TXN, its grain, its first byte and bytes, and its stamp and order at ingress
(R50). -/
structure PeerWrite where
  src : Nat
  txn : Nat
  pa : Nat
  off : Nat
  len : Nat
  stamp : Nat
  order : Nat
  deriving DecidableEq, Repr

/-- Membership (Table 10.15, R272 to R274) and routes (R270, R271). -/
structure Peers where
  self : Nat
  present : BitVec 8
  absent : BitVec 8
  relay : BitVec 8
  incarnation : Nat
  joinEpoch : Nat
  absentEvents : Nat
  aborts : Nat
  /-- Accepted life of each peer: INCARNATION and JOIN_EPOCH. -/
  lives : Tbl (Nat × Nat)
  /-- The partner's latest ROUTES. -/
  partnerRoutes : BitVec 8
  /-- Next ESEQ to send and to deliver, by 4 × peer + class. -/
  eseqTx : Tbl Nat
  eseqRx : Tbl Nat
  /-- Destinations whose traffic is still relayed until RELAYDRAIN (R271). -/
  draining : BitVec 8
  /-- Destinations that this module has forwarded relayed flits to since its last RELAYDRAIN for them. -/
  relayedFor : BitVec 8
  /-- Destinations that the partner reaches again, for which RELAYDRAIN is due once nothing relayed remains here (R271). -/
  drainDue : BitVec 8
  /-- Absent peers whose HELLO is accepted though their life is unchanged: this module has rejoined (R274). -/
  awaited : BitVec 8
  /-- Ordered messages that have come ahead of their turn: peer, class, ESEQ and the message (R271). -/
  early : List (Nat × Nat × Nat × Instr)
  /-- Whether the next unordered flit for the partner takes P7 (R271). -/
  altP7 : Bool
  /-- Tier 3 requests open, by TXN: the request. -/
  txns : Tbl Nat
  nextTxn : Nat
  writesIn : List PeerWrite
  deriving DecidableEq, Repr

/-! ### Rollout and models -/

/-- A page set (R310): its pool (a model index), place in grains, size in positions, first position, formats, epoch and
references. -/
structure PageSet where
  pool : Nat
  place : Nat
  grains : Nat
  exp : Nat
  firstPos : Nat
  kfmt : Nat
  vfmt : Nat
  epoch : Nat
  refs : Nat
  deriving DecidableEq, Repr

/-- A draft (R321): token, log-probability, END and POISON. -/
structure Draft where
  token : Nat
  logprob : Word32
  ends : Bool
  poison : Bool
  epoch : Nat
  late : Bool
  /-- Whether it was produced after its request moved to the fall-back model (R343). -/
  fallback : Bool
  deriving DecidableEq, Repr

/-- A live rollout request (R301 to R324). -/
structure Request where
  part : Nat
  slot : Nat
  model : Nat
  share : Nat
  pfxIn : Word
  promptPa : Nat
  maxNew : Nat
  promptTokens : Nat
  ringOrder : Nat
  ringPa : Nat
  deadlineTicks : Nat
  dlPolicy : Nat
  specMax : Nat
  irqEn : Bool
  irqVec : Nat
  irqEvery : Nat
  pfxLen : Nat
  user : List Word
  state : Nat
  acceptTick : Nat
  tokensOut : Nat
  pfxOut : Word
  recomputes : Nat
  kvLen : Nat
  capacity : Nat
  sets : List Nat
  published : List Nat
  tail : Nat
  readSeen : Nat
  /-- A committed token that waits for ring space, and its position (R320). -/
  heldEntry : Option (Draft × Nat)
  drafts : List Draft
  bound : Bool
  boundEpoch : Nat
  ctx : Option Nat
  cancelPending : Bool
  pastDeadline : Bool
  fallenBack : Bool
  moveOnEnd : Bool
  endOnEnd : Bool
  evictOnEnd : Bool
  pfxTokens : Nat
  /-- Page sets of the prefix handle named in PREFIX_IN. -/
  pfxSets : List Nat
  replayLen : Nat
  pagesVa : Nat
  replayVa : Nat
  result : Nat
  value : Nat
  endCode : Nat
  endTick : Nat
  deriving DecidableEq, Repr

/-- A live prefix handle (R316). -/
structure Handle where
  gen : Nat
  part : Nat
  model : Nat
  covered : Nat
  sets : List Nat
  deriving DecidableEq, Repr

/-- The rollout side: requests by ID, prefix handles by index, generations, page sets, and the KV counters of Table
12.10. -/
structure Rollout where
  requests : Tbl Request
  handles : Tbl Handle
  handleGens : Tbl Nat
  sets : Tbl PageSet
  nextSet : Nat
  setsAllocated : Nat
  cowCopies : Nat
  evictions : Nat
  selfEvictions : Nat
  bindStallTicks : Nat
  handlesRefused : Nat
  /-- The tick at which USE was halved last (R335). -/
  decayAt : Nat
  deriving DecidableEq, Repr

/-- A layer of a model: its offset and grains in the source image (R329), and the epoch it holds. -/
structure Layer where
  offset : Nat
  grains : Nat
  epoch : Nat
  deriving DecidableEq, Repr

/-- A model (R326 to R341). -/
structure Model where
  part : Nat
  slot : Nat
  gen : Nat
  state : Nat
  endCode : Nat
  kind : Nat
  shared : Bool
  copyOk : Bool
  mirrored : Bool
  pin : Bool
  kvRefresh : Bool
  tier : Nat
  base : Nat
  fallback : Nat
  owner : Nat
  srcPa : Nat
  lastSrc : Nat
  mapVa : Nat
  poolGrains : Nat
  stageGrains : Nat
  replSrcPa : Nat
  epoch : Nat
  installed : Nat
  staged : Nat
  /-- Failed reads in a row of each grain that is read, by its place in the source image (R330). -/
  failures : Tbl Nat
  /-- A stalled replacement has made its failed read again (R341). -/
  retried : Bool
  replStatus : Nat
  copyHandle : Nat
  copyOf : Bool
  layers : List Layer
  /-- Pages of the layers, the mirror, the pool and the staging area, by page number of 2 MiB. -/
  layerPages : List Nat
  mirrorPages : List Nat
  poolPages : List Nat
  stagePages : List Nat
  /-- Staged layers not yet installed: layer and its first grain in the staging area. -/
  stagedAt : List (Nat × Nat)
  /-- Elements of a key or value row, and the context virtual address of the KV pool: the spec states neither; LOAD takes
  them from `Config`. -/
  kvElems : Nat
  poolVa : Nat
  installing : Bool
  /-- A REPLACE came while the model was LOADING: it is carried out once the last layer has loaded (R328; DESIGN CHOICE, log 126). -/
  replaceDue : Bool
  use : Nat
  lastUse : Nat
  /-- STARTED by (context, epoch), and PASSED by (context, epoch, layer) (R338). -/
  started : List (Nat × Nat × Nat)
  passed : List (Nat × Nat × Nat × Nat)
  attached : List (Nat × Bool)
  deriving DecidableEq, Repr

/-! ### Integrity and recovery -/

/-- An error log entry (Table 16.8). -/
structure LogEntry where
  tick : Nat
  event : Nat
  cls : Nat
  unitKind : Nat
  unitNo : Nat
  part : Nat
  ctxValid : Bool
  ctx : Nat
  detail : Nat
  seq : Nat
  count : Nat
  deriving DecidableEq, Repr

/-- An effect of firmware that the host sees (R400, R414): a write, the advance of a command ring's HEAD, a message. -/
inductive FwAct where
  | write (pa : Nat) (bytes : List Byte)
  | head (part : Nat)
  | msix (part vec : Nat)
  deriving DecidableEq, Repr

/-- An entry of a command journal (R400): its number and tick, what it acts on, whether firmware has acted, and the effects that reach the
host, each with its mark done. -/
structure JournalEntry where
  num : Nat
  tick : Nat
  what : Nat
  subject : Nat
  complete : Bool
  effects : List (FwAct × Bool)
  deriving DecidableEq, Repr

/-- Effects of a journal entry of a control core, in order, that wait for the host's answers for lines (R414), or for the core's restart
to end (R399). -/
structure FwWait where
  core : Nat
  entry : Nat
  lines : List Nat
  acts : List FwAct
  deriving DecidableEq, Repr

/-- Recovery: the registers of Table 16.6, the log, lost units and spares, the control cores (R387 to R404). -/
structure Rec where
  fatal : Bool
  degraded : Bool
  spareDie : Nat
  logWritten : Nat
  logRead : Nat
  logLost : Nat
  logIrqEn : Bool
  logIrqVec : Nat
  checkFails : Nat
  sramCe : Nat
  sramUe : Nat
  faults : Tbl Nat
  ctlRestarts : Nat
  journalReplayed : Nat
  ctxRestarts : Nat
  log : Tbl LogEntry
  lostDies : List Nat
  lostStacks : List Nat
  lostChannels : List Nat
  lostCores : List Nat
  /-- Logical stacks whose spare is being trained. -/
  stackSpares : List Nat
  /-- Physical core (136 × die + core) of a logical core a spare has taken, and physical stack of a logical stack. -/
  corePhys : Tbl Nat
  stackPhys : Tbl Nat
  /-- Physical die of each logical die lost since bring-up. -/
  diePhys : Tbl Nat
  /-- Bridge lane groups whose spare lane carries a stripe since bring-up, and the lane it replaces (R15). -/
  bridgeSwaps : Tbl Nat
  /-- Physical cores found lost or failed since bring-up. -/
  failedCores : List Nat
  /-- Lost hub units, the hub die that serves for each, and the tick of the loss. -/
  rerouted : List (HubUnit × Nat × Nat)
  restarting : List Nat
  /-- The journal of each control core, and its copy, which lies on the next hub die (R400). -/
  journals : Tbl (List JournalEntry)
  journalCopies : Tbl (List JournalEntry)
  journalNext : Nat
  deriving DecidableEq, Repr

/-! ### Host attachment -/

/-- The host link (Table 17.5), HDM decoders, snoop filter and functions (R405 to R417). -/
structure HostSide where
  /-- The partition whose work firmware took last (R373), and the one whose message was sent last (R371). -/
  turn : Nat
  msixTurn : Nat
  up : Bool
  ideIo : Bool
  ideCm : Nat
  speed : Nat
  width : Nat
  hdmDenied : Nat
  bisnp : Nat
  sfEvictions : Nat
  ideFails : Nat
  linkDowns : Nat
  committed : Tbl Bool
  decoderErr : Tbl Bool
  /-- Lines the host may hold, oldest first (R414). -/
  snoop : List Nat
  /-- Lines whose back-invalidate the host has not answered, and the steps of firmware that wait, oldest first (R414). -/
  biLines : List Nat
  fwWaits : List FwWait
  vfEnable : Bool
  cfgReady : Bool
  aspmL12 : Bool
  /-- MSI-X Enable and Function Mask by function (R410, R372; log 162). -/
  msixOn : Tbl Bool
  msixMask : Tbl Bool
  deriving DecidableEq, Repr

/-! ### Power and bring-up -/

/-- The carrier record's body (Table 18.4) as far as it names units. -/
structure Carrier where
  seq : Nat
  dieFailed : BitVec 9
  dieActive : BitVec 9
  stackFailed : BitVec 18
  stackActive : BitVec 18
  coreMap : Tbl (BitVec 136)
  bridgeMap : Tbl (Bool × Nat)
  peerBad : Tbl (BitVec 18)
  peerSpare : Tbl (BitVec 18)
  deriving DecidableEq, Repr

/-- Power, pins, bring-up and the power control registers (Tables 18.1 to 18.11). -/
structure Power where
  mated : Bool
  vinMv : Nat
  pwrgd : Bool
  converting : Bool
  perst : Bool
  off : Bool
  state : Nat
  inHold : Bool
  /-- A Hold request was accepted and the module has not entered Hold (R440). -/
  holdAsked : Bool
  service : Nat
  uvOv : Bool
  thermal : Bool
  holdRefused : Bool
  excursionSince : Option Nat
  napEn : Bool
  pin : Nat
  napAfterUs : Nat
  napSince : Option Nat
  inMv : Nat
  tempMax : Nat
  stage : Nat
  bootCode : Nat
  failedUnits : Nat
  warmResets : Nat
  holds : Nat
  alert : Bool
  /-- Conditions reported since they set (R428): FATAL, DEGRADED, UV_OV, THERMAL, HOLD_REFUSED. -/
  reported : List Nat
  selfTested : Bool
  speedTested : Bool
  /-- The speed test of logical die 0 that runs: its first tick, and the contexts that it pre-empted (R438). -/
  speedTest : Option (Nat × List Nat)
  copyA : Carrier
  copyB : Carrier
  checkA : CopyCheck
  checkB : CopyCheck
  /-- The signature of each copy over its body (R433). -/
  sigA : List Byte
  sigB : List Byte
  /-- Whether the identity keys have been regenerated and match ID_DIGEST. -/
  idOk : Bool
  /-- Which copy is current. -/
  currentB : Bool
  deriving DecidableEq, Repr

/-! ### Security -/

/-- A link access rule (Table 19.7, LINK_RULES). -/
structure LinkRule where
  write : Bool
  peers : BitVec 8
  first : Nat
  last : Nat
  deriving DecidableEq, Repr

/-- The protection record (R453). -/
structure Protection where
  cfgSeq : Nat
  parts : Tbl PartEntry
  peerKeys : Tbl (List Byte)
  rules : Tbl LinkRule
  cosign : Bool
  minFw : Nat
  window : Nat
  operatorKey : List Byte
  custodianKey : List Byte
  enrolled : Bool
  deriving DecidableEq, Repr

/-- A firmware image in a flash slot: the bytes copied, and its header's fields (Table 19.4). -/
structure FwImage where
  bytes : List Byte
  fwVersion : Nat
  tableVersion : Nat
  accepted : Nat
  deriving DecidableEq, Repr

/-- A change record slot (Table 19.8, Table 19.10). -/
structure CrSlot where
  bodyPa : Nat
  sigPa : Nat
  state : Nat
  result : Nat
  operator : Bool
  custodian : Bool
  firstTick : Nat
  submitTick : Nat
  window : Nat
  digest : Nat
  body : List Byte
  /-- The role signatures accepted. -/
  opSig : List Byte
  cuSig : List Byte
  order : Nat
  awaitReset : Bool
  deriving DecidableEq, Repr

def CrSlot.reset : CrSlot :=
  { bodyPa := 0, sigPa := 0, state := 0, result := 0, operator := false, custodian := false, firstTick := 0,
    submitTick := 0, window := 0, digest := 0, body := [], opSig := [], cuSig := [], order := 0, awaitReset := false }

/-- SPDM: how far the connection and the session have come, and large messages in chunks (R448). -/
structure Spdm where
  /-- 0 nothing; 1 version; 2 capabilities; 3 algorithms negotiated. -/
  negotiated : Nat
  /-- 0 no session; 1 handshake; 2 established. -/
  session : Nat
  keyGen : Nat
  chunkHandle : Nat
  chunkSeq : Nat
  chunkBuf : List Byte
  /-- Whether the algorithms negotiated allow a secure session. -/
  keyed : Bool
  /-- The AES-256-GCM keys of the session. -/
  keys : List Byte
  /-- A large response that waits to be fetched with CHUNK_GET: what is left of it. -/
  largeResp : Option (List Byte)
  largeHandle : Nat
  largeSeq : Nat
  idePrograms : Nat
  deriving DecidableEq, Repr

/-- Security: the protection record, firmware slots, change records, counters (Table 19.10). -/
structure Sec where
  /-- The protection record in use with its signature, which is one copy in flash, and the other copy with its own (R453). -/
  prot : Protection
  protSig : List Byte
  protOther : Protection
  protOtherSig : List Byte
  /-- The corrected PUF response, from which the module derives its keys; empty when they have not been regenerated (R446). -/
  puf : List Byte
  fwRunning : Option FwImage
  fwSlots : Tbl FwImage
  activeSlot : Nat
  stagePa : Nat
  fwBytes : Nat
  fwState : Nat
  fwResult : Nat
  fwIgnored : Nat
  fwMode : Nat
  fwStep : Nat
  /-- Whether the core whose turn it is in an activation is in its pause (R452). -/
  fwPaused : Bool
  switched : List Nat
  badSigs : Nat
  applied : Nat
  expired : Nat
  slots : Tbl CrSlot
  nextOrder : Nat
  idDigest : List Byte
  spdm : Spdm
  deriving DecidableEq, Repr

/-! ### The whole -/

/-- The state of the module. -/
structure State where
  /-- The commands that are waiting, first in, first out. -/
  pending : List Instr
  /-- The model's own: the next free value's number. -/
  fresh : Nat
  /-- The model's own: the order number of events, for rules that order by arrival, binding or issue. -/
  serial : Nat
  /-- The model's own: what has left the module, oldest first. -/
  out : List Out
  clk : Clock
  mem : Mem
  cores : Tbl Core
  ctxs : Tbl Ctx
  scheds : Tbl Sched
  nextSched : Nat
  parts : Tbl Part
  quantumUs : Nat
  /-- The tick of the last quantum boundary (R365). -/
  quantumAt : Nat
  preemptions : Nat
  hub : Hub
  upd : Upd
  ports : Tbl Port
  peers : Peers
  rollout : Rollout
  models : Tbl Model
  modelGens : Tbl Nat
  recov : Rec
  host : HostSide
  pwr : Power
  sec : Sec
  deriving DecidableEq, Repr

/-- Why the block stops: it has no reason to. Every command of the table has an effect, be it none. -/
inductive Fault where
  deriving DecidableEq, Repr

/-- Why a command has no meaning. -/
inductive Refusal where
  /-- Raised by an arm of `exec` that has no meaning yet. Safe: nothing is proved of a command that is not modelled. -/
  | notModelled (mnemonic : String)
  deriving DecidableEq, Repr

/-! ### Reset -/

def Mem.reset : Mem :=
  { cells := [], tags := [], linesWritten := [], reqs := [], nextReq := 0, hintGroups := 0, hintRefused := false,
    lateT2 := 4800, lateT3 := 24000, lateT4 := 96000, nmCe := 0, nmUe := 0, capCe := 0, capUe := 0,
    mirrorFailovers := 0, refetches := 0, tierFailed := 0, refetching := [] }

def DieClk.reset : DieClk :=
  { pllOn := false, keepWarm := false, state := 0, logical := 0xF, holdoff := 100, freq := 0, starting := false,
    idleTicks := 0, cycleRem := 0 }

def Clock.reset : Clock :=
  { tick := 0, hiLatch := 0, inPower := 0, inEnergy := 0, throttling := false, issueWithheld := 0,
    throttleEvents := 0, sustainedW := 3200, lowered := 0, aboveSamples := 0, relaxSamples := 0, hot := false,
    failA := false, failB := false, oscB := false, dies := [], edge := [], pllOffTicks := [], stallEnable := true,
    stallLimitUs := 10000, owedUj := [], carry := [], heldOn := [], dieTicks := [], overheadOwed := 0, overheadMj := 0, retiredMj := 0, inputUj := 0 }

def Hub.reset : Hub :=
  { colls := [], nextColl := 0, nextFlow := 0, earlyArrives := [], reshards := [], nextReshard := 0, gflags := [], gflagMsgs := [],
    aborted := [], flagged := [], attempts := [], whey := [], wheyDue := [], poisonDue := [], reshardCount := 0, commits := 0, rollbacks := 0,
    grainsOut := 0, grainsIn := 0, grainsLocal := 0, fenceTicks := 0, missingGrains := 0 }

def Upd.reset : Upd :=
  { sessions := [], nextSession := 0, contribs := [], nextContrib := 0, ops := [], nextOp := 0, snapshots := [],
    nextSnapshot := 0, mirrored := [] }

/-- A peer port after reset: SPARE as the shipped repair map, lanes 16 and 17 (R13). -/
def Port.reset : Port :=
  { state := 0, enteredAt := 0, lanes := 0, farPeer := 0, farPort := 0, wiringErr := false, viaPartner := false,
    enable := true, replayMax := 4, wC1 := 8, wC2 := 4, wC3 := 1, bad := 0, spare := 0x30000, active := 0,
    laneLimit := 4096, swapLane := none, flitsTx := 0, flitsRx := 0, fecCorrected := 0, fecUncorr := 0,
    checkFail := 0, replays := 0, poisonDelivered := 0, laneSwaps := 0, retrains := 0, protoErr := 0, relayed := 0,
    rxNext := 0, rxTries := 0, fecTries := 0, txNext := 0, txBuf := [], txWait := [], credits := [], round := [],
    nakAt := 0, nakTries := 0, nonce := [], farNonce := [] }

/-- INCARNATION is 0 here, a DESIGN CHOICE (log 7); POWER_GOOD and WARM draw a free value. -/
def Peers.reset : Peers :=
  { self := 0, present := 0, absent := 0, relay := 0, incarnation := 0, joinEpoch := 0, absentEvents := 0, aborts := 0,
    lives := [], partnerRoutes := 0, eseqTx := [], eseqRx := [], draining := 0, relayedFor := 0, drainDue := 0, awaited := 0, early := [], altP7 := false, txns := [], nextTxn := 0, writesIn := [] }

def Rollout.reset : Rollout :=
  { requests := [], handles := [], handleGens := [], sets := [], nextSet := 0, setsAllocated := 0, cowCopies := 0,
    evictions := 0, selfEvictions := 0, bindStallTicks := 0, handlesRefused := 0, decayAt := 0 }

def Rec.reset : Rec :=
  { fatal := false, degraded := false, spareDie := 0, logWritten := 0, logRead := 0, logLost := 0, logIrqEn := false,
    logIrqVec := 0, checkFails := 0, sramCe := 0, sramUe := 0, faults := [], ctlRestarts := 0, journalReplayed := 0,
    ctxRestarts := 0, log := [], lostDies := [], lostStacks := [], lostChannels := [], lostCores := [],
    stackSpares := [], corePhys := [], stackPhys := [], failedCores := [], diePhys := [], bridgeSwaps := [], rerouted := [], restarting := [], journals := [],
    journalCopies := [], journalNext := 0 }

def HostSide.reset : HostSide :=
  { up := false, ideIo := false, ideCm := 0, speed := 0, width := 0, hdmDenied := 0, bisnp := 0, sfEvictions := 0,
    turn := 63, msixTurn := 63, ideFails := 0, linkDowns := 0, committed := [], decoderErr := [], snoop := [], biLines := [], fwWaits := [], vfEnable := false,
    cfgReady := false, aspmL12 := false, msixOn := [], msixMask := [] }

/-- The carrier record as shipped (Table 18.4, R13). SEQ 0 and cores 0 to 127 of each die are DESIGN CHOICES (log 7). -/
def Carrier.shipped : Carrier :=
  { seq := 0, dieFailed := 0, dieActive := 0x0FF, stackFailed := 0, stackActive := 0x0FFFF,
    coreMap := (List.range 9).map fun k => (k, BitVec.ofNat 136 (2 ^ 128 - 1)), bridgeMap := [], peerBad := [],
    peerSpare := (List.range 8).map fun p => (p, 0x30000) }

/-- Right after power-on reset is released (log 4): mated, PWRGD high, PERST_N asserted, bring-up not begun. -/
def Power.reset : Power :=
  { mated := true, vinMv := 54000, pwrgd := true, converting := true, perst := true, off := false, state := 0,
    inHold := false, holdAsked := false, service := 0, uvOv := false, thermal := false, holdRefused := false, excursionSince := none,
    napEn := true, pin := 0, napAfterUs := 1000, napSince := none, inMv := 0, tempMax := 0, stage := 0, bootCode := 0,
    failedUnits := 0, warmResets := 0, holds := 0, alert := false, reported := [], selfTested := false,
    speedTested := false, speedTest := none, copyA := Carrier.shipped, copyB := Carrier.shipped, checkA := .valid, checkB := .valid,
    sigA := Config.shippedSig 0, sigB := Config.shippedSig 1, idOk := false, currentB := false }

/-- The partition table entry of partition 0 as shipped (R453): windows over all of tiers 1 and 2. -/
def PartEntry.shipped0 : PartEntry :=
  { enabled := true, privOk := true, vecCount := 2048, ctxCount := 4096, ctxFirst := 0,
    windows := [(0, { first := 0, last := 0x02FFFFFFFFFF / 0x200000 })] }

/-- The protection record as shipped (R453). -/
def Protection.shipped : Protection :=
  { cfgSeq := 0, parts := [(0, PartEntry.shipped0)], peerKeys := [], rules := [], cosign := false, minFw := 0,
    window := 28800000000, operatorKey := [], custodianKey := [], enrolled := false }

/-- The shipped image in flash slot 0: FW_VERSION 0 is a DESIGN CHOICE (log 7). -/
def FwImage.shipped : FwImage := { bytes := [], fwVersion := 0, tableVersion := 0, accepted := 1 }

def Spdm.reset : Spdm :=
  { negotiated := 0, session := 0, keyGen := 0, chunkHandle := 0, chunkSeq := 0, chunkBuf := [], keyed := false, keys := [],
    largeResp := none, largeHandle := 0, largeSeq := 0, idePrograms := 0 }

def Sec.reset : Sec :=
  { prot := Protection.shipped, protSig := Config.shippedSig 2, protOther := Protection.shipped, protOtherSig := Config.shippedSig 3,
    puf := [], fwRunning := none, fwSlots := [(0, FwImage.shipped)], activeSlot := 0, stagePa := 0,
    fwBytes := 0, fwState := 0, fwResult := 0, fwIgnored := 0, fwMode := 0, fwStep := 0, fwPaused := false, switched := [], badSigs := 0,
    applied := 0, expired := 0, slots := [], nextOrder := 0, idDigest := [], spdm := Spdm.reset }

/-- The module right after power-on reset is released. -/
def State.reset : State :=
  { pending := [], fresh := 0, serial := 0, out := [], clk := Clock.reset, mem := Mem.reset, cores := [], ctxs := [],
    scheds := [], nextSched := 0, parts := [], quantumUs := 1000, quantumAt := 0, preemptions := 0, hub := Hub.reset,
    upd := Upd.reset, ports := [], peers := Peers.reset, rollout := Rollout.reset, models := [], modelGens := [],
    recov := Rec.reset, host := HostSide.reset, pwr := Power.reset, sec := Sec.reset }

end Machine
end Sys2Proof
end

