-- ==== Sys2Proof/Machine/Flash.lean ====
section
/-! DEFINITION. The records in carrier flash as bytes (Table 18.4, R433, R453), and the keys of the module (R446). -/

namespace Sys2Proof
namespace Machine

/-! ### The carrier record's body (R433, Table 18.4) -/

/-- Bytes of a 64-bit word. -/
def w8 (n : Nat) : List Byte := leBytes 8 n

/-- Words 0 to 63. -/
def carrierWords (c : Carrier) : List Byte :=
  w8 (1 <<< 56 + c.seq) ++ w8 (c.dieFailed.toNat <<< 32 + c.dieActive.toNat) ++
  w8 (c.stackFailed.toNat <<< 32 + c.stackActive.toNat) ++ w8 0 ++
  ((List.range 9).flatMap fun k => leBytes 24 (tget 0 c.coreMap k).toNat) ++ w8 0 ++
  ((List.range 8).flatMap fun p => w8 ((tget 0 c.peerBad p).toNat <<< 36 + (tget 0 c.peerSpare p).toNat <<< 18)) ++ zeros 192

/-- The byte of a bridge lane group. -/
def bridgeByte (c : Carrier) (g : Nat) : Byte :=
  let e := tget (false, 0xF) c.bridgeMap g
  BitVec.ofNat 8 (b2n e.1 <<< 7 + e.2 % 16)

/-- The 16 KiB body. -/
def carrierBody (c : Carrier) : List Byte :=
  fit 16384 (carrierWords c ++ (List.range 4096).map (bridgeByte c) ++ fit 4096 Config.pufHelper ++ fit 64 Config.idDigest)

/-! ### The protection record's body -/

/-- Numbers of a list of bytes, its length first. -/
def byteNats (bs : List Byte) : List Nat := bs.length :: bs.map BitVec.toNat

def partNats (p : Nat) (e : PartEntry) : List Nat :=
  [p, b2n e.enabled, b2n e.privOk, e.vecCount, e.ctxCount, e.ctxFirst, e.windows.length] ++
    e.windows.flatMap fun w => [w.1, w.2.first, w.2.last]

def ruleNats (k : Nat) (r : LinkRule) : List Nat := [k, b2n r.write, r.peers.toNat, r.first, r.last]

/-- The protected settings as numbers. -/
def protNats (p : Protection) : List Nat :=
  [p.cfgSeq, b2n p.cosign, p.minFw, p.window, b2n p.enrolled, p.parts.length] ++ (p.parts.flatMap fun e => partNats e.1 e.2) ++
  (p.peerKeys.length :: p.peerKeys.flatMap fun e => e.1 :: byteNats e.2) ++
  (p.rules.length :: p.rules.flatMap fun e => ruleNats e.1 e.2) ++ byteNats p.operatorKey ++ byteNats p.custodianKey

/-! ### The keys of the module (R446, Table 19.1) -/

/-- Bytes of an SLH-DSA-SHAKE-256s signature, and of a 256f one (R446). -/
def sigBytes : Nat := 29792
def sigBytesF : Nat := 49856

/-- ASCII of a label. -/
def ascii (l : List Nat) : List Byte := l.map (BitVec.ofNat 8)

/-- "NGD-S7-" with the end of a label. -/
def label (l : List Nat) : List Byte := ascii ([0x4E, 0x47, 0x44, 0x2D, 0x53, 0x37, 0x2D] ++ l)

/-- "NGD-S7-FW", "NGD-S7-CR", "NGD-S7-ID", "NGD-S7-REPAIR", "NGD-S7-PROT" (R446). -/
def ctxFw : List Byte := label [0x46, 0x57]
def ctxCr : List Byte := label [0x43, 0x52]
def ctxId : List Byte := label [0x49, 0x44]
def ctxRepair : List Byte := label [0x52, 0x45, 0x50, 0x41, 0x49, 0x52]
def ctxProt : List Byte := label [0x50, 0x52, 0x4F, 0x54]

/-- SK.seed, SK.prf and PK.seed of a key: the first 96 bytes of SHAKE256 of the corrected response and the label. -/
def keySeeds (puf lab : List Byte) : List Byte := shake256Out 96 (puf ++ lab)

/-- The public key of a label, 64 bytes. -/
def publicKey (puf lab : List Byte) : List Byte := fit 64 (Config.slhPublic (keySeeds puf lab))

/-- A signature of the module's key of a label, under that label as context string. -/
def signAs (puf lab : List Byte) (draw : Nat) (bs : List Byte) : List Byte := Config.slhSign (keySeeds puf lab) draw lab bs

end Machine
end Sys2Proof
end

