-- ==== Sys2Proof/Machine/Ops.lean ====
section
/-! DEFINITION. Named operations over the state: tables of units, memory and tags (R204 to R212), the address map
(R92), windows (R356), the error log (R403, R404), MSI-X requests (R371, R372) and accounting (R368). -/

namespace Sys2Proof
namespace Machine

/-! ### Bytes of memory -/

/-- Canonical form: addresses strictly rising above `lo`, and no zero byte listed. -/
def cellsWf : Option Nat → List Host.Cell → Bool
  | _, [] => true
  | lo, (a, b) :: t => (match lo with | none => true | some l => decide (l < a)) && b != 0 && cellsWf (some a) t

/-- The canonical form of a memory. -/
def Memory.wf (m : List Host.Cell) : Bool := cellsWf none m

/-- One byte; an unlisted address reads as zero. -/
def readByte : List Host.Cell → Nat → Byte
  | [], _ => 0
  | (i, v) :: t, a => if i = a then v else readByte t a

/-- Writes one byte, keeping the canonical form. -/
def writeByte : List Host.Cell → Nat → Byte → List Host.Cell
  | [], a, b => if b = 0 then [] else [(a, b)]
  | (i, v) :: t, a, b =>
    if a < i then (if b = 0 then (i, v) :: t else (a, b) :: (i, v) :: t)
    else if i = a then (if b = 0 then t else (a, b) :: t)
    else (i, v) :: writeByte t a b

/-- The bytes at `a` to `a + n - 1`. -/
def readBytes (m : List Host.Cell) (a n : Nat) : List Byte := (List.range n).map fun i => readByte m (a + i)

/-- Writes bytes at ascending addresses from `a`. -/
def writeBytes (m : List Host.Cell) (a : Nat) : List Byte → List Host.Cell
  | [] => m
  | b :: bs => writeBytes (writeByte m a b) (a + 1) bs

/-- Drops every byte from `a` to `a + n - 1`: the addresses read as zero. -/
def eraseBytes (m : List Host.Cell) (a n : Nat) : List Host.Cell := m.filter fun c => !(a ≤ c.1 && c.1 < a + n)

/-! ### Tables of units -/

def getCore (s : State) (c : Nat) : Core := tget Core.reset s.cores c
def setCore (s : State) (c : Nat) (x : Core) : State := { s with cores := tput s.cores c x }
def modCore (s : State) (c : Nat) (f : Core → Core) : State := setCore s c (f (getCore s c))
def getCtx (s : State) (n : Nat) : Ctx := tget Ctx.reset s.ctxs n
def setCtx (s : State) (n : Nat) (x : Ctx) : State := { s with ctxs := tput s.ctxs n x }
def modCtx (s : State) (n : Nat) (f : Ctx → Ctx) : State := setCtx s n (f (getCtx s n))
def getPart (s : State) (p : Nat) : Part := tget Part.reset s.parts p
def setPart (s : State) (p : Nat) (x : Part) : State := { s with parts := tput s.parts p x }
def modPart (s : State) (p : Nat) (f : Part → Part) : State := setPart s p (f (getPart s p))
def getPort (s : State) (p : Nat) : Port := tget Port.reset s.ports p
def setPort (s : State) (p : Nat) (x : Port) : State := { s with ports := tput s.ports p x }
def modPort (s : State) (p : Nat) (f : Port → Port) : State := setPort s p (f (getPort s p))
def getDie (s : State) (k : Nat) : DieClk := tget DieClk.reset s.clk.dies k
def modDie (s : State) (k : Nat) (f : DieClk → DieClk) : State :=
  { s with clk := { s.clk with dies := tput s.clk.dies k (f (getDie s k)) } }
def modClk (s : State) (f : Clock → Clock) : State := { s with clk := f s.clk }
def modMem (s : State) (f : Mem → Mem) : State := { s with mem := f s.mem }
def modHub (s : State) (f : Hub → Hub) : State := { s with hub := f s.hub }
def modUpd (s : State) (f : Upd → Upd) : State := { s with upd := f s.upd }
def modPeers (s : State) (f : Peers → Peers) : State := { s with peers := f s.peers }
def modRo (s : State) (f : Rollout → Rollout) : State := { s with rollout := f s.rollout }
def modRec (s : State) (f : Rec → Rec) : State := { s with recov := f s.recov }
def modHost (s : State) (f : HostSide → HostSide) : State := { s with host := f s.host }
def modPwr (s : State) (f : Power → Power) : State := { s with pwr := f s.pwr }
def modSec (s : State) (f : Sec → Sec) : State := { s with sec := f s.sec }
def getThread (x : Core) (t : Nat) : Thread := tget Thread.reset x.threads t
def setThread (x : Core) (t : Nat) (v : Thread) : Core := { x with threads := tput x.threads t v }
def getEp (x : Core) (e : Nat) : Endpoint := tget Endpoint.reset x.eps e
def setEp (x : Core) (e : Nat) (v : Endpoint) : Core := { x with eps := tput x.eps e v }
def getCg (t : Tbl Cg) (g : Nat) : Cg := tget Cg.reset t g
def getBlk (x : Core) (b : Nat) : BlockSt := tget BlockSt.reset x.blocks b

/-- The next event order number. -/
def bump (s : State) : State := { s with serial := s.serial + 1 }

/-- The local tick (R23). -/
def now (s : State) : Nat := s.clk.tick

/-- Ticks of the 48 MHz clock in a microsecond. -/
def usTicks : Nat := 48

/-! ### Context states (Table 15.2) -/

def ctxFree : Nat := 0
def ctxCreated : Nat := 1
def ctxLive : Nat := 2
def ctxHeld : Nat := 3
def ctxEnding : Nat := 4
def ctxEnded : Nat := 5

/-- CREATED, LIVE or HELD. -/
def ctxActive (x : Ctx) : Bool := x.state == ctxCreated || x.state == ctxLive || x.state == ctxHeld

/-- Whether a pre-emption holds the context's threads: its save waits for a LOADP in progress (Table 6.5). -/
def ctxStops (x : Ctx) : Bool := x.saving && x.loadp.isNone

/-- Context indices in ascending order that a test holds of. -/
def ctxsWhere (s : State) (p : Ctx → Bool) : List Nat := (s.ctxs.filter fun e => p e.2).map Prod.fst

/-! ### The partition table (R354) -/

def partEntry (s : State) (p : Nat) : PartEntry := tget PartEntry.reset s.sec.prot.parts p
/-- Whether a partition is enabled: none is in recovery (R435). -/
def partEnabled (s : State) (p : Nat) : Bool := (partEntry s p).enabled && s.pwr.service != 3
def enabledParts (s : State) : List Nat := (List.range 64).filter fun p => partEnabled s p

/-- Bytes of a 2 MiB page. -/
def pageBytes : Nat := 0x200000

/-- Whether pages `first` to `last` lie in the windows, `n` windows at most taken one after another. -/
def coverPages (ws : Tbl Window) (last : Nat) : Nat → Nat → Bool
  | 0, first => decide (last < first)
  | n + 1, first =>
    decide (last < first) ||
      match ws.find? fun w => w.2.first ≤ first && first ≤ w.2.last with
      | none => false
      | some w => coverPages ws last n (w.2.last + 1)

/-- Whether every byte from `pa` to `pa + len - 1` lies in windows of partition `p` (R356). -/
def inWindows (s : State) (p pa len : Nat) : Bool :=
  let ws := (partEntry s p).windows
  coverPages ws ((pa + (len - 1)) / pageBytes) ws.length (pa / pageBytes)

/-- The enabled partition whose window holds the address, if any. -/
def partOfPa (s : State) (pa : Nat) : Option Nat :=
  (s.sec.prot.parts.find? fun e => partEnabled s e.1 && e.2.windows.any fun w =>
    w.2.first ≤ pa / pageBytes && pa / pageBytes ≤ w.2.last).map Prod.fst

/-! ### The device physical address map (Table 4.10) -/

def tier2Base : Nat := 0x010000000000
def tier2End : Nat := 0x030000000000
def peerBase : Nat := 0x100000000000
def peerSpan : Nat := 0x040000000000
def hostBase : Nat := 0x400000000000
def paEnd : Nat := 0x1000000000000

/-- The tier of a device physical address; 0 for a reserved one. -/
def tierOf (pa : Nat) : Nat :=
  if pa < tier2Base then 1
  else if pa < tier2End then 2
  else if pa < peerBase then 0
  else if pa < peerBase + 8 * peerSpan then (if (pa - peerBase) % peerSpan < tier2End then 3 else 0)
  else if pa < hostBase then 0
  else if pa < paEnd then 4 else 0

/-- The peer whose window holds a tier 3 address. -/
def peerOfPa (pa : Nat) : Nat := (pa - peerBase) / peerSpan

/-- The logical stack of a near-memory address (R207). -/
def stackOf (pa : Nat) : Nat := bits pa 39 36

/-- The XOR of the 6-bit groups of R209. -/
def fold209 (x : Nat) : Nat := bits x 5 0 ^^^ bits x 11 6 ^^^ bits x 17 12 ^^^ bits x 23 18 ^^^ bits x 26 24

/-- Hashed channels for a GROUPS value (R209). -/
def hashedChannels (groups : Nat) : Nat := if groups = 0 then 64 else if groups = 1 then 56 else 48

/-- 32 GiB. -/
def chanBytes : Nat := 0x800000000

/-- Whether a capacity-tier address lies in the hinted range (R209). -/
def hintedPa (groups pa : Nat) : Bool :=
  tierOf pa == 2 && decide (hashedChannels groups * chanBytes ≤ pa - tier2Base)

/-- The channel group of a hinted address. -/
def hintGroupOf (groups pa : Nat) : Nat :=
  let n := hashedChannels groups
  n / 8 + (pa - tier2Base - n * chanBytes) / (8 * chanBytes)

/-- Channel and byte address within the channel of a capacity-tier address (R209). -/
def channelOf (groups pa : Nat) : Nat × Nat :=
  let n := hashedChannels groups
  let o := pa - tier2Base
  if o < n * chanBytes then
    let g := o >>> 8
    let row := g / n
    (((g % n) + (fold209 row % n)) % n, row <<< 8)
  else
    let h := (o - n * chanBytes) % (8 * chanBytes)
    let grp := n / 8 + (o - n * chanBytes) / (8 * chanBytes)
    let gg := h >>> 8
    (8 * grp + ((gg % 8) + (fold209 (gg / 8) % 8)) % 8, (gg / 8) <<< 8)

/-- Whether the stack of a bank is in self-refresh: in Nap, all but those that PWR.PIN pins (R439, Table 1.7).
Requests wait for it; accesses made at a command of their own do not (DESIGN CHOICE, log 172). -/
def bankAsleep (s : State) (bank : Nat) : Bool := s.pwr.state == 2 && decide (bank < 8192) && !bit s.pwr.pin (bank / 512)

/-- The bank that serves a grain: of near memory 512 × stack + 16 × pseudo-channel + bank (R208), of the capacity
tier 8,192 + channel (R209). -/
def bankOf (groups pa : Nat) : Nat :=
  if tierOf pa = 1 then
    stackOf pa * 512 + (bits pa 12 8 ^^^ bits pa 21 17) * 16 + (bits pa 16 13 ^^^ bits pa 25 22)
  else 8192 + (channelOf groups pa).1

/-- Whether a tier 1 or 2 address lies in no unit in service: a stack or channel lost (R226, R394), or not yet brought up
(R437). -/
def unitLost (s : State) (pa : Nat) : Bool :=
  if tierOf pa = 1 then
    s.recov.lostStacks.contains (stackOf pa) || (s.pwr.service != 2 && !(s.pwr.service == 1 && decide (stackOf pa < 4)))
  else tierOf pa == 2 && (s.pwr.service != 2 || s.recov.lostChannels.contains (channelOf s.mem.hintGroups pa).1)

/-! ### Grains and tags (Table 8.2) -/

/-- The check of 256 zero bytes. -/
def zeroCheck : BitVec 32 := crc32c (zeros 256)

/-- The tag of a scrubbed grain (R204). -/
def scrubTag (s : State) (pa : Nat) : GrainTag :=
  { check := zeroCheck, poison := false, format := 0, part := (partOfPa s pa).getD 0 }

/-- The address of the grain that holds a byte. -/
def grainBase (pa : Nat) : Nat := pa / 256 * 256

/-- The tag stored with a grain. -/
def tagAt (s : State) (pa : Nat) : GrainTag := (tfind s.mem.tags (pa / 256)).getD (scrubTag s pa)

/-- The data of the grain at `pa`. -/
def grainAt (s : State) (pa : Nat) : List Byte := readBytes s.mem.cells (grainBase pa) 256

/-- The physical address of the mirror of a mirrored model's grain (R230), if the grain is one. -/
def mirrorOf (s : State) (pa : Nat) : Option Nat :=
  (s.models.findSome? fun e =>
    if e.2.mirrored then
      (e.2.layerPages.zip e.2.mirrorPages).findSome? fun pr =>
        if pr.1 = pa / pageBytes then some (pr.2 * pageBytes + pa % pageBytes) else none
    else none)

/-- The primary of a grain that is a mirror (R230). -/
def primaryOf (s : State) (pa : Nat) : Option Nat :=
  s.models.findSome? fun e =>
    if e.2.mirrored then
      (e.2.layerPages.zip e.2.mirrorPages).findSome? fun pr =>
        if pr.2 = pa / pageBytes then some (pr.1 * pageBytes + pa % pageBytes) else none
    else none

/-- The other copy of a grain of a mirrored model. -/
def otherCopy (s : State) (pa : Nat) : Option Nat := match mirrorOf s pa with | some m => some m | none => primaryOf s pa

/-- Where a read of a grain is served: at the mirror when the grain's own unit is lost and the mirror's is not (R230, R394). -/
def servePa (s : State) (pa : Nat) : Nat :=
  if unitLost s pa then
    match mirrorOf s (grainBase pa) with
    | some m => if unitLost s m then pa else m
    | none => pa
  else pa

/-- Puts a message or an event on the block's outward interfaces. -/
def emit (s : State) (o : Out) : State := { s with out := s.out ++ [o] }

/-- Back-invalidates the tracked lines that a test holds of: the host may hold them until it answers (R414). -/
def snoopLines (s : State) (p : Nat → Bool) : State :=
  let ls := s.host.snoop.filter p
  let s := ls.foldl (fun s l => emit s (.biSnoop l)) s
  { s with host := { s.host with
      bisnp := s.host.bisnp + ls.length, snoop := s.host.snoop.filter fun l => !p l, biLines := s.host.biLines ++ ls } }

/-- The tracked lines of a grain. -/
def heldLines (s : State) (pa : Nat) : List Nat := s.host.snoop.filter fun l => l / 4 == pa / 256

/-- Back-invalidates the lines of a grain. -/
def invalidateGrain (s : State) (pa : Nat) : State := snoopLines s fun l => l / 4 == pa / 256

/-- Whether a write to a grain waits on back-invalidates for its performance at HOST scope (R414). -/
def biWaits (s : State) (pa : Nat) : Bool := s.host.biLines.any fun l => l / 4 == pa / 256

/-- Writes data and tag of one grain, as it lies. -/
def storeGrain (s : State) (pa : Nat) (data : List Byte) (tag : GrainTag) : State :=
  let a := grainBase pa
  { s with mem := { s.mem with
      cells := writeBytes s.mem.cells a (fit 256 data)
      tags := if tierOf a = 4 then s.mem.tags else tput s.mem.tags (a / 256) tag
      linesWritten := tdel s.mem.linesWritten (a / 256) } }

/-- A module write of one grain: lines that the host may hold are back-invalidated. The write is performed at MODULE scope here, at
HOST scope once they are answered (R414; log 49). -/
def putGrain (s : State) (pa : Nat) (data : List Byte) (tag : GrainTag) : State :=
  storeGrain (invalidateGrain s pa) pa data tag

/-- Counts a request that has ended as failed (R226). -/
def countFailed (s : State) : State := modMem s fun m => { m with tierFailed := m.tierFailed + 1 }

/-- A module write of one grain, unless its unit is lost: there it is discarded and counted (R227, R394). -/
def putServed (s : State) (pa : Nat) (data : List Byte) (tag : GrainTag) : State :=
  if unitLost s pa then countFailed s else putGrain s pa data tag

/-- A whole grain that the module writes to tiers 1 and 2: to it and to its mirror (R230). -/
def writeGrain (s : State) (pa : Nat) (data : List Byte) (tag : GrainTag) : State :=
  match mirrorOf s pa with
  | none => putServed s pa data tag
  | some m => putServed (putServed s pa data tag) m data tag

/-- A tag whose check is computed over the data (R381). -/
def mkTag (data : List Byte) (format part : Nat) (poison : Bool) : GrainTag :=
  { check := crc32c data, poison := poison, format := format, part := part }

/-- Merges bytes at `off` into the grain at its home, which computes the new check (R134, R159). FORMAT and PART become those
of `t`; a grain merged in part keeps its poison, with the lines that the host has written since it was set (R413), and one that fails
its check is poisoned (R204, R233). -/
def mergeAs (s : State) (pa off : Nat) (bs : List Byte) (t : GrainTag) : State :=
  let old := tagAt s pa
  let held := grainAt s pa
  let data := patch held off bs
  let bad := old.poison || old.check != crc32c held
  let whole := off == 0 && bs.length == 256
  let lines := s.mem.linesWritten
  let s := writeGrain s pa data { t with check := crc32c data, poison := if whole then t.poison else bad || t.poison }
  if old.poison && !whole && !t.poison then modMem s fun m => { m with linesWritten := lines } else s

/-- Merges bytes into the grain at its home; the tag keeps its FORMAT and PART. -/
def mergeGrain (s : State) (pa off : Nat) (bs : List Byte) (poison : Bool) : State :=
  mergeAs s pa off bs { tagAt s pa with poison := poison }

/-- Bytes from memory outside the module: free values (log 14). -/
def remoteGrain (s : State) : List Byte × State :=
  ((List.range 256).map (Config.remoteByte s.fresh), { s with fresh := s.fresh + 1 })

/-- A value that the module does not say, and the next one to come (log 14). -/
def freeWord (s : State) : Nat × State := ((Config.drawn s.fresh).toNat, { s with fresh := s.fresh + 1 })

/-- A grain that an engine or firmware reads from host memory, with RdCurr (R415): whether it comes with the data poison indication,
or fails with an error completion or a time-out, is the host's (R205, R226); its check is computed at CXL ingress (Table 16.1). -/
def readHost (s : State) (pa : Nat) : List Byte × GrainTag × State :=
  let data := grainAt s pa
  let (w, s) := freeWord (emit s (.hostRead 0 pa))
  if bit w 1 then
    let (bs, s) := remoteGrain s
    (bs, mkTag bs 0 0 true, countFailed s)
  else (data, mkTag data 0 0 (bit w 0), s)

/-- A grain as firmware reads it, and whether it comes poisoned: from host memory as any tier 4 read, from a lost unit as a failed read
(R226). Firmware is no checking point for its tag (Table 16.1). -/
def fwGrain (s : State) (a : Nat) : List Byte × Bool × State :=
  if tierOf a = 4 then
    let (d, t, s) := readHost s a
    (d, t.poison, s)
  else if unitLost s a then (grainAt s a, true, countFailed s)
  else (grainAt s a, (tagAt s a).poison, s)

/-- A run of bytes as firmware reads it, and whether a grain of it comes poisoned. -/
def fwFetch (s : State) (pa n : Nat) : List Byte × Bool × State :=
  let r := (List.range ((pa + n + 255) / 256 - pa / 256)).foldl (fun (r : List Byte × Bool × State) i =>
    let (d, bad, s) := fwGrain r.2.2 ((pa / 256 + i) * 256)
    (r.1 ++ d, r.2.1 || bad, s)) ([], false, s)
  (slice r.1 (pa % 256) n, r.2.1, r.2.2)

/-- The bytes that stand at a device physical address, across grains. -/
def fwRead (s : State) (pa n : Nat) : List Byte := readBytes s.mem.cells pa n

/-- Whether any grain of a run is poisoned. -/
def runPoisoned (s : State) (pa n : Nat) : Bool :=
  (List.range ((pa + n + 255) / 256 - pa / 256)).any fun i => (tagAt s ((pa / 256 + i) * 256)).poison

/-- The 64-bit word at a physical address. -/
def fwWord (s : State) (pa : Nat) : Nat := leNat (fwRead s pa 8)

/-- Merges the parts of a run of bytes into the grains they lie in. -/
def fwWriteTags (s : State) (pa : Nat) (bs : List Byte) : Nat → State
  | 0 => s
  | fuel + 1 =>
    match bs with
    | [] => s
    | _ =>
      let off := pa % 256
      let n := min (256 - off) bs.length
      fwWriteTags (mergeGrain s pa off (bs.take n) false) (pa + n) (bs.drop n) fuel

/-- A write to host memory leaves as full lines (R415); the rest of a line that it writes in part is read first (DESIGN CHOICE, log
157). -/
def emitHostWrite (s : State) (req pa : Nat) (bs : List Byte) (poison : Bool) : State :=
  let lo := pa / 64 * 64
  let hi := (pa + bs.length + 63) / 64 * 64
  let s := if lo = pa && hi = pa + bs.length then s else emit s (.hostRead req (grainBase pa))
  emit s (.hostWrite req lo (patch (readBytes s.mem.cells lo (hi - lo)) (pa - lo) bs) poison)

/-- A write of bytes by firmware: into host memory, with the write on the link; or merged into grains at home. -/
def fwWrite (s : State) (pa : Nat) (bs : List Byte) : State :=
  if tierOf pa = 4 then
    emitHostWrite { s with mem := { s.mem with cells := writeBytes s.mem.cells pa bs } } 0 pa bs false
  else fwWriteTags s pa bs (bs.length + 1)

/-- Whether a line lies in a run of bytes. -/
def lineIn (pa len l : Nat) : Bool := decide (pa < l * 64 + 64) && decide (l * 64 < pa + len)

/-- Back-invalidates the lines of a run that the host may hold (R414). -/
def invalidateRun (s : State) (pa len : Nat) : State := snoopLines s (lineIn pa len)

/-- Lines of a run whose back-invalidate has not been answered. -/
def biRun (s : State) (pa len : Nat) : List Nat := s.host.biLines.filter (lineIn pa len)

/-- Scrubs a run of grains to zero bytes with the tag of Table 8.2 (R204). -/
def scrubRange (s : State) (pa len : Nat) : State :=
  let s := invalidateRun s pa len
  { s with mem := { s.mem with
      cells := eraseBytes s.mem.cells pa len
      tags := s.mem.tags.filter fun e => !(pa ≤ e.1 * 256 && e.1 * 256 < pa + len)
      linesWritten := s.mem.linesWritten.filter fun e => !(pa ≤ e.1 * 256 && e.1 * 256 < pa + len) } }

/-! ### The error log (R403, R404) -/

/-- Requests one MSI-X message on a vector (R371, R372): a pending message on the vector absorbs it, but on EVT_VEC
each teardown entry is its own message. -/
def msixRequest (s : State) (p vec : Nat) (teardown : Bool) : State :=
  if partEnabled s p && decide (vec < (partEntry s p).vecCount) && !(getPart s p).resetting then
    modPart s p fun x =>
      let n := tget 0 x.pba vec
      let n' := if teardown then n + 1 else max n 1
      let e := tget MsixEntry.reset x.vectors vec
      let waits := !e.masked && decide (x.tokens = 0) && decide (n < n')
      { x with
        pba := tput x.pba vec n'
        deferred := if waits then tput x.deferred vec (tget 0 x.deferred vec + 1) else x.deferred
        irqDeferred := if waits then x.irqDeferred + 1 else x.irqDeferred }
  else s

/-! ### Command journals (R400) -/

/-- The control core of a context (R74), as 4 × h + u. -/
def controlCoreOf (n : Nat) : Nat := 4 * (n / 1024) + (n / 256) % 4

/-- The control core that handles what concerns a request (chapter 12): its home, or core 0 while no context serves it (log 129). -/
def homeCore (ctx : Option Nat) : Nat := match ctx with | none => 0 | some n => controlCoreOf n

/-- Whether a control core takes nothing up: it restarts (R399), or pauses in an activation (R452). -/
def coreStops (s : State) (cc : Nat) : Bool := s.recov.restarting.contains cc || (s.sec.fwPaused && s.sec.fwStep == cc)

/-- The place of the copy of a control core's journal: the same control core of hub die (h + 1) mod 4. -/
def copyCore (cc : Nat) : Nat := 4 * ((cc / 4 + 1) % 4) + cc % 4

/-- Writes a control core's journal, which keeps 4,096 entries, and its copy. -/
def setJournal (s : State) (cc : Nat) (l : List JournalEntry) : State :=
  let l := l.drop (l.length - 4096)
  modRec s fun r => { r with journals := tput r.journals cc l, journalCopies := tput r.journalCopies (copyCore cc) l }

def getJournal (s : State) (cc : Nat) : List JournalEntry := tget [] s.recov.journals cc

/-- Enters an action in a control core's journal. An action that ends in the command that brings it is entered as one that firmware has
acted on; it is complete once its effects are made. -/
def journal (s : State) (cc what subject : Nat) (complete : Bool) : State :=
  let e : JournalEntry :=
    { num := s.recov.journalNext, tick := now s, what := what, subject := subject, complete := complete, effects := [] }
  setJournal (modRec s fun r => { r with journalNext := r.journalNext + 1 }) cc (getJournal s cc ++ [e])

/-- Marks the incomplete entries of an action complete. -/
def journalDone (s : State) (cc what subject : Nat) : State :=
  setJournal s cc ((getJournal s cc).map fun e =>
    if e.what = what && e.subject = subject then { e with complete := true } else e)

/-- Whether an entry is complete: firmware has acted, and every effect is made. -/
def entryDone (e : JournalEntry) : Bool := e.complete && e.effects.all fun x => x.2

/-- The incomplete entries of a control core's journal, in journal order. -/
def openEntries (s : State) (cc : Nat) : List JournalEntry := (getJournal s cc).filter fun e => !entryDone e

/-- The number of the newest entry of a journal. -/
def newestEntry (s : State) (cc : Nat) : Nat := (getJournal s cc).getLast?.elim 0 fun e => e.num

/-- Lists effects in the entry of the action under way: the newest of the core, when it is of this tick, or one of their own. -/
def listEffects (s : State) (cc : Nat) (acts : List FwAct) : State :=
  let s := match (getJournal s cc).getLast? with
    | some e => if e.tick = now s then s else journal s cc 8 0 true
    | none => journal s cc 8 0 true
  let n := newestEntry s cc
  setJournal s cc ((getJournal s cc).map fun e =>
    if e.num = n then { e with effects := e.effects ++ acts.map fun a => (a, false) } else e)

/-- The first effect that is not marked done is. -/
def markFirst : List (FwAct × Bool) → List (FwAct × Bool)
  | [] => []
  | (a, d) :: t => if d then (a, d) :: markFirst t else (a, true) :: t

/-- An effect of an entry has been handed to the link: its mark is set. -/
def markEffect (s : State) (cc num : Nat) : State :=
  setJournal s cc ((getJournal s cc).map fun e => if e.num = num then { e with effects := markFirst e.effects } else e)

/-! ### What firmware does at HOST scope, step by step (R414) -/

/-- HEAD of a command ring advances, and the partition's message is requested (R420). -/
def advanceRing (s : State) (p : Nat) : State :=
  let s := modPart s p fun x => { x with cmdHead := (x.cmdHead + 1) % 2 ^ 32 }
  let x := getPart s p
  if x.cplEn then msixRequest s p x.cplVec false else s

/-- Makes the effects of an entry in order, each marked done, up to a write whose lines the host may hold; what is left waits for
them. -/
def runActs (cc num : Nat) : List FwAct → State → State × Option FwWait
  | [], s => (s, none)
  | .write pa bs :: as, s =>
    let s := markEffect (fwWrite s pa bs) cc num
    match biRun s pa bs.length with
    | [] => runActs cc num as s
    | ls => (s, some { core := cc, entry := num, lines := ls, acts := as })
  | .head p :: as, s => runActs cc num as (markEffect (advanceRing s p) cc num)
  | .msix p v :: as, s => runActs cc num as (markEffect (msixRequest s p v false) cc num)

/-- A sequence of effects of a control core: now, or behind what it has waiting already. A core that stops makes none meanwhile. -/
def fwDo (s : State) (cc : Nat) (acts : List FwAct) : State :=
  let add (s : State) (w : FwWait) : State := { s with host := { s.host with fwWaits := s.host.fwWaits ++ [w] } }
  let s := listEffects s cc acts
  let num := newestEntry s cc
  if coreStops s cc || s.host.fwWaits.any fun w => w.core == cc then add s { core := cc, entry := num, lines := [], acts := acts }
  else match runActs cc num acts s with
    | (s, none) => s
    | (s, some w) => add s w

/-- The first sequence that can go on: the first of its core, which runs, with no line that the host has not answered for. -/
def nextFw (s : State) : Option Nat :=
  (List.range s.host.fwWaits.length).find? fun i =>
    match s.host.fwWaits[i]? with
    | none => false
    | some w => !coreStops s w.core && !(s.host.fwWaits.take i).any (fun v => v.core == w.core) &&
        !w.lines.any fun l => s.host.biLines.contains l

/-- Firmware goes on with what waited, of each control core oldest first, as far as the host has answered. -/
def goOnBi : Nat → State → State
  | 0, s => s
  | fuel + 1, s =>
    match nextFw s with
    | none => s
    | some i =>
      match s.host.fwWaits[i]? with
      | none => s
      | some w =>
        match runActs w.core w.entry w.acts s with
        | (s, none) => goOnBi fuel { s with host := { s.host with fwWaits := s.host.fwWaits.eraseIdx i } }
        | (s, some v) => goOnBi fuel { s with host := { s.host with fwWaits := s.host.fwWaits.set i v } }

/-- Firmware goes on with everything that can. -/
def firmwareGoesOn (s : State) : State := goOnBi (s.host.fwWaits.length + 1) s

/-- What a log entry names. -/
structure LogUnit where
  cls : Nat
  kind : Nat
  unit : Nat
  deriving DecidableEq, Repr

/-- The newest entry of a unit. -/
def newestFor (log : Tbl LogEntry) (u : LogUnit) : Option (Nat × LogEntry) :=
  maxBy (fun e => e.2.seq) (log.filter fun e => e.2.unitKind == u.kind && e.2.unitNo == u.unit)

/-- Writes a new log entry (R403), overwriting the one 2,048 before it. -/
def writeLog (s : State) (event : Nat) (u : LogUnit) (part : Nat) (ctx : Option Nat) (detail : Nat) : State :=
  let r := s.recov
  let j := r.logWritten
  let e : LogEntry :=
    { tick := now s, event := event, cls := u.cls, unitKind := u.kind, unitNo := u.unit, part := part,
      ctxValid := ctx.isSome, ctx := ctx.getD 0, detail := detail, seq := j % 2 ^ 32, count := 0 }
  let lost := decide (2048 ≤ j) && decide (r.logRead ≤ j - 2048)
  let s := { s with recov := { r with
    logWritten := j + 1, log := tput r.log (j % 2048) e, logLost := if lost then r.logLost + 1 else r.logLost } }
  if r.logIrqEn then msixRequest s 0 r.logIrqVec false else s

/-- Logs an event: merged into the newest entry of its unit within 10 µs (R404), else a new entry. -/
def logEvent (s : State) (event : Nat) (u : LogUnit) (part : Nat) (ctx : Option Nat) (detail : Nat) : State :=
  match newestFor s.recov.log u with
  | some (slot, e) =>
    if e.event = event && decide (now s ≤ e.tick + 480) then
      modRec s fun r => { r with log := tput r.log slot { e with count := satInc 16 e.count } }
    else writeLog s event u part ctx detail
  | none => writeLog s event u part ctx detail

/-- No unit. -/
def noUnit : LogUnit := { cls := 0, kind := 0, unit := 0 }

/-- Counts a single fault of kind `k` (Table 16.6). -/
def countFault (s : State) (k : Nat) : State :=
  modRec s fun r => { r with faults := tput r.faults k (tget 0 r.faults k + 1) }

/-- The physical die that holds a logical index (R14). -/
def physDie (s : State) (l : Nat) : Option Nat :=
  (s.clk.dies.find? fun e => e.2.state == 2 && e.2.logical == l).map Prod.fst

/-- The carrier record in use. -/
def carrier (s : State) : Carrier := if s.pwr.currentB then s.pwr.copyB else s.pwr.copyA

/-- Writes a changed repair map as the copy that is not current, with SEQ + 1, and signs it with the repair key. The signature of
the module's own key verifies (FIPS 205, log 12), and so the copy becomes the current one. -/
def saveCarrier (s : State) (f : Carrier → Carrier) : State :=
  let c := f (carrier s)
  let c := { c with seq := (c.seq + 1) % 2 ^ 32 }
  let sig := signAs s.sec.puf ctxRepair s.fresh (carrierBody c)
  modPwr { s with fresh := s.fresh + 1 } fun p =>
    if p.currentB then { p with copyA := c, sigA := sig, checkA := .valid, currentB := false }
    else { p with copyB := c, sigB := sig, checkB := .valid, currentB := true }

/-- Writes new protected settings into the copy of the protection record that is not in use and signs it with the protection key;
its signature verifies, and it is the copy in use (R453). The copy used until then stays as the other one. -/
def saveProt (s : State) (p : Protection) : State :=
  let sig := signAs s.sec.puf ctxProt s.fresh (Config.protBody (protNats p))
  modSec { s with fresh := s.fresh + 1 } fun c => { c with
    prot := p, protSig := sig, protOther := c.prot, protOtherSig := c.protSig }

/-- The active physical cores of a physical die in ascending order. -/
def activeCoresOf (s : State) (k : Nat) : List Nat :=
  let m := (tget 0 (carrier s).coreMap k).toNat
  (List.range 136).filter fun c => bit m c

/-- The physical core of a logical core, as the log numbers it. -/
def physCore (s : State) (c : Nat) : Nat :=
  match tfind s.recov.corePhys c with
  | some x => x
  | none =>
    let d := (physDie s (c / 128)).getD (c / 128)
    136 * d + (activeCoresOf s d).getD (c % 128) (c % 128)

/-- The physical stack of a logical stack. -/
def physStack (s : State) (k : Nat) : Nat :=
  match tfind s.recov.stackPhys k with
  | some x => x
  | none =>
    let act := (List.range 18).filter fun i => bit (carrier s).stackActive.toNat i
    act.getD k k

/-- Counts and logs a grain that failed its check (R382). -/
def checkFailed (s : State) (pa : Nat) : State :=
  logEvent (modRec s fun r => { r with checkFails := r.checkFails + 1 }) 0x01 noUnit ((partOfPa s pa).getD 0) none pa

/-- CXL egress of a whole grain into tier 4 (Table 16.1): one that fails its check is counted and logged, and goes with the data poison
indication (R382). -/
def egressTag (s : State) (pa : Nat) (data : List Byte) (tag : GrainTag) : GrainTag × State :=
  if data.length = 256 && tag.check != crc32c data then ({ tag with check := crc32c data, poison := true }, checkFailed s pa)
  else (tag, s)

/-! ### Accounting (R368) -/

def modAcct (s : State) (n : Nat) (f : Acct → Acct) : State := modCtx s n fun x => { x with acct := f x.acct }

/-- Charges bytes at a tier to a context. -/
def chargeTier (s : State) (n t bytes : Nat) : State :=
  modAcct s n fun a => { a with bytesTier := tput a.bytesTier t (tget 0 a.bytesTier t + bytes) }

/-- Charges flits sent on a peer link in a class (272 bytes each) to a context. -/
def chargeLink (s : State) (n cls flits : Nat) : State :=
  modAcct s n fun a => { a with bytesLink := tput a.bytesLink cls (tget 0 a.bytesLink cls + 272 * flits) }

/-! ### Who may act -/

/-- Whether accesses of the host reach the module: the link is up and the module runs. -/
def hostUp (s : State) : Bool := s.host.up && !s.recov.fatal && !s.pwr.off && !s.pwr.inHold

/-- Whether the module takes doorbells and commands of a partition: from early service on (R437), while the partition is
enabled and not resetting (R375). -/
def accepting (s : State) (p : Nat) : Bool :=
  hostUp s && (s.pwr.service == 1 || s.pwr.service == 2) && partEnabled s p && !(getPart s p).resetting

/-! ### Address translation (R91, R92, R211) -/

/-- The commit window of a context (R305). -/
def winDispatch : Nat := 0xFFFFFE000000
def winEnd : Nat := 0x1000000000000

/-- Whether an address lies in the commit window. -/
def inWindow (va : Nat) : Bool := decide (winDispatch ≤ va) && decide (va < winEnd)

/-- The mapping that holds a virtual address. -/
def mapOf (x : Ctx) (va : Nat) : Option Mapping := x.maps.find? fun m => m.va ≤ va && va < m.va + m.bytes

/-- Whether a physical address lies in a page of a model that is attached to a context (R345, R346). -/
def modelPage (s : State) (n pa : Nat) : Bool :=
  s.models.any fun e => (e.2.attached.any fun a => a.1 == n) &&
    (e.2.layerPages ++ e.2.mirrorPages ++ e.2.poolPages ++ e.2.stagePages).contains (pa / pageBytes)

/-- The physical address of a virtual one, or the fault code of R92 or R211. The pages of a teacher's models are read-only to it, by
whichever mapping (R345). The commit window is no memory: a write of it is a protection fault, whatever is mapped (R305). -/
def translate (s : State) (n va : Nat) (write : Bool) : Except Nat Nat :=
  let x := getCtx s n
  if inWindow va then .error (if write then 0x04 else 0x03)
  else match mapOf x va with
  | none => .error 0x03
  | some m =>
    let pa := m.pa + (va - m.va)
    if write && (!m.write || (x.dst.role == 1 && (m.model || modelPage s n pa))) then .error 0x04
    else if hintedPa s.mem.hintGroups pa && !x.priv then .error 0x04
    else if tierOf pa = 0 || (tierOf pa = 3 && peerOfPa pa = s.peers.self) then .error 0x05
    else .ok pa

/-- The first virtual grain of a run that does not translate, with its code. -/
def firstBad (s : State) (n va : Nat) (write : Bool) (grains : Nat) : Option (Nat × Nat) :=
  (List.range grains).findSome? fun i =>
    match translate s n (va + 256 * i) write with
    | .ok _ => none
    | .error c => some (c, va + 256 * i)

end Machine
end Sys2Proof
end

