-- ==== Sys2Proof/Machine/CoreOps.lean ====
section
/-! DEFINITION. Operations on a core: scratchpad and poison marks (R34, R206), registers (R78), block readiness and
claims (R35 to R41), ring slots (R216, R217), completion groups (R35, R132), parking and waking (R47). -/

namespace Sys2Proof
namespace Machine

/-- The cores of the table: below 1,024 the logical cores; above, at 1,024 × (n + 1) + c, core c as saved for the HELD
context n (R359, R367). -/
def savedKey (n c : Nat) : Nat := 1024 * (n + 1) + c

/-- Keys of the cores of a context, running or saved, in ascending order. -/
def ctxCores (s : State) (n : Nat) : List Nat := (s.cores.filter fun e => e.2.owner == some n).map Prod.fst

/-- Scratchpad bytes of a core. -/
def spSize : Nat := 0x200000

/-! ### Scratchpad -/

/-- Units that a run of bytes touches. -/
def unitsOf (off len : Nat) : List Nat :=
  if len = 0 then [] else (List.range ((off + len - 1) / 256 + 1 - off / 256)).map fun i => off / 256 + i

/-- Whether any unit of the run has its poison mark set. -/
def spPoisoned (x : Core) (off len : Nat) : Bool := (unitsOf off len).any fun u => tget false x.spPoison u

/-- Scratchpad bytes. -/
def spRead (x : Core) (off len : Nat) : List Byte := readBytes x.sp off len

/-- The poison mark of one unit after a write of `[off, off + len)` (R206). -/
def markUnit (off len : Nat) (poison : Bool) (t : Tbl Bool) (u : Nat) : Tbl Bool :=
  let full := decide (off ≤ 256 * u) && decide (256 * u + 256 ≤ off + len)
  let m := if full then poison else tget false t u || poison
  if m then tput t u true else tdel t u

/-- A write into scratchpad: the bytes, and the marks of R206. -/
def spWrite (x : Core) (off : Nat) (bs : List Byte) (poison : Bool) : Core :=
  { x with sp := writeBytes x.sp off bs
           spPoison := (unitsOf off bs.length).foldl (markUnit off bs.length poison) x.spPoison }

/-- Bytes of a unit that runs of bytes cover; the runs do not overlap. -/
def unitBytes (runs : List (Nat × Nat)) (u : Nat) : Nat :=
  runs.foldl (fun k r => k + (min (r.1 + r.2) (256 * u + 256) - max r.1 (256 * u))) 0

/-- One write of several runs, such as the pieces of a landing grain: a unit that they fill together takes the write's mark, any
other keeps its own beside it (R206). -/
def spLand (x : Core) (runs : List (Nat × List Byte)) (poison : Bool) : Core :=
  let spans := runs.map fun r => (r.1, r.2.length)
  { x with sp := runs.foldl (fun m r => writeBytes m r.1 r.2) x.sp
           spPoison := (spans.flatMap fun r => unitsOf r.1 r.2).eraseDups.foldl (fun t u =>
             if poison || (tget false t u && decide (unitBytes spans u < 256)) then tput t u true else tdel t u) x.spPoison }

/-- Sets the poison marks of a run (R105). -/
def spMark (x : Core) (off len : Nat) : Core :=
  { x with spPoison := (unitsOf off len).foldl (fun t u => tput t u true) x.spPoison }

/-- The code region's length in words (0 with no program). -/
def codeWords (x : Core) : Nat := match x.prog with | none => 0 | some p => p.codeWords

/-- The word at a word offset of the code region. -/
def codeWord (x : Core) (i : Nat) : Word := w64 (leNat (spRead x (8 * i) 8))

/-- Whether two runs overlap. -/
def overlap (a n b m : Nat) : Bool := decide (0 < n) && decide (0 < m) && decide (a < b + m) && decide (b < a + n)

/-- Whether a run overlaps the code region. -/
def hitsCode (x : Core) (off len : Nat) : Bool := overlap off len 0 (8 * codeWords x)

/-! ### Thread registers (R78) -/

/-- Reads a scalar register; s0 reads 0. -/
def getS (t : Thread) (r : Nat) : Word := if r = 0 then 0 else tget 0 t.s r

/-- Writes a scalar register; a write to s0 is ignored. -/
def setS (t : Thread) (r : Nat) (v : Word) : Thread := if r = 0 then t else { t with s := tput t.s r v }

def getP (t : Thread) (r : Nat) : Bool := tget false t.p r
def setP (t : Thread) (r : Nat) (v : Bool) : Thread := { t with p := tput t.p r v }

/-! ### Rings (R216, R217) -/

/-- The slot index of a slot counted since configuration. -/
def slotIx (r : Ring) (j : Nat) : Nat := if r.slots = 0 then 0 else j % r.slots

/-- The state of a slot counted since configuration. -/
def slotSt (r : Ring) (j : Nat) : RSlot := r.st.getD (slotIx r j) .empty

def setSlot (r : Ring) (j : Nat) (v : RSlot) : Ring := { r with st := lset r.st (slotIx r j) v }

/-- Consecutive filled slots from slot `j` onward, at most `k` (R217). -/
def filledRun (r : Ring) : Nat → Nat → Nat
  | _, 0 => 0
  | j, k + 1 => match slotSt r j with | .filled => filledRun r (j + 1) k + 1 | _ => 0

/-- How many filled slots a ring counts as holding (R217). -/
def ringFilledCount (r : Ring) : Nat := if r.mode = 0 then filledRun r r.read r.slots else 0

/-- Bytes of a slot. -/
def slotBytes (r : Ring) : Nat := if r.slots = 0 then 0 else r.size / r.slots * 256

/-- The ring and the slot index that hold a scratchpad offset. -/
def ringAt (x : Core) (off : Nat) : Option (Nat × Nat) :=
  x.rings.findSome? fun e =>
    let r := e.2
    if r.base ≤ off && off < r.base + 256 * r.size && decide (0 < slotBytes r) then
      some (e.1, (off - r.base) / slotBytes r) else none

/-- Frees released slots at HEAD in order: a DONE slot whose older slots are released becomes EMPTY (Table 8.5). -/
def advanceHead (r : Ring) : Nat → Ring
  | 0 => r
  | fuel + 1 =>
    if r.head < r.tail then
      match slotSt r r.head with
      | .done => advanceHead { setSlot r r.head .empty with head := r.head + 1 } fuel
      | _ => r
    else r

/-- Releases one claimed slot, by index. -/
def releaseSlot (r : Ring) (ix : Nat) : Ring := advanceHead { r with st := lset r.st ix .done } (r.slots + 1)

/-- Slot indices that a thread holds, oldest first. -/
def heldSlots (r : Ring) (thr : Nat) : List Nat :=
  ((List.range (r.tail - r.head)).map fun i => slotIx r (r.head + i)).filter fun ix =>
    r.st.getD ix .empty == .claimed thr

/-- Claims the `n` slots from READ for a thread. -/
def claimSlots (r : Ring) (thr : Nat) : Nat → Ring
  | 0 => r
  | n + 1 => claimSlots { setSlot r r.read (.claimed thr) with read := r.read + 1 } thr n

/-- Whether a slot of the ring is claimed. -/
def anyClaimed (r : Ring) : Bool := r.st.any fun v => match v with | .claimed _ => true | _ => false

/-! ### Completion groups (R35, R132) -/

/-- Counts requests issued under a group. -/
def cgIssue (t : Tbl Cg) (g n : Nat) : Tbl Cg := let c := getCg t g; tput t g { c with issued := c.issued + n }

/-- Counts one request of a group as completed with a code; the group keeps the largest. -/
def cgDone (t : Tbl Cg) (g code : Nat) : Tbl Cg :=
  let c := getCg t g
  tput t g { c with done := c.done + 1, code := max c.code code }

/-- Whether a group's requests have all completed, and there was one (Table 2.3). -/
def cgReady (c : Cg) : Bool := decide (0 < c.issued) && decide (c.issued ≤ c.done)

/-- Claims a group: its code becomes the last status and it returns to empty. -/
def cgClaim (t : Tbl Cg) (g : Nat) : Tbl Cg :=
  let c := getCg t g
  tput t g { c with issued := c.issued - c.done, done := 0, code := 0, last := c.code }

/-! ### Operands and readiness -/

/-- Packets of an endpoint that no thread has claimed, oldest first. -/
def unclaimed (e : Endpoint) : List Packet := e.packets.filter fun p => p.claimed.isNone && !p.released

/-- Whether an operand is satisfied (Table 2.3). -/
def opSat (x : Core) (b : Nat) (o : OpDecl) : Bool :=
  match o.kind with
  | 0 => decide (o.count < (unclaimed (getEp x o.source)).length)
  | 1 => match tfind x.rings o.source with | none => false | some r => decide (o.count < ringFilledCount r)
  | 2 => cgReady (getCg x.cgs o.source)
  | _ => decide (0 < (getBlk x b).tokens)

/-- The block table entry of a block. -/
def blockDesc (x : Core) (b : Nat) : Option BlockDesc := match x.prog with | none => none | some p => p.blocks[b]?

/-- Whether a block is ready (R35). -/
def blockReady (x : Core) (b : Nat) : Bool :=
  match blockDesc x b with
  | none => false
  | some d => !(getBlk x b).retired && d.ops.all (opSat x b)

/-- Notes for each block since when it has been ready (R39). -/
def refresh (x : Core) (serial : Nat) : Core :=
  match x.prog with
  | none => x
  | some p =>
    { x with blocks := (List.range p.blocks.length).foldl (fun t b =>
        let v := tget BlockSt.reset t b
        let r := blockReady x b
        if r && v.readySince.isNone then tput t b { v with readySince := some serial }
        else if !r && v.readySince.isSome then tput t b { v with readySince := none } else t) x.blocks }

/-- The logical die of a core. -/
def dieOfCore (c : Nat) : Nat := c / 128

/-- Changes the clock of the die that holds a core. -/
def modDieOf (s : State) (c : Nat) (f : DieClk → DieClk) : State :=
  match physDie s (dieOfCore c) with
  | none => s
  | some k => modDie s k f

/-- The die of a core has work now: its time without work begins again (R27). -/
def dieWorked (s : State) (c : Nat) : State := modDieOf s c fun d => { d with idleTicks := 0 }

/-- After something arrives at a core: the clock gate opens (R29) and readiness is noted. -/
def touchCore (s : State) (c : Nat) : State :=
  let s := dieWorked (bump s) c
  modCore s c fun x => refresh { x with gated := false, idleRun := 0 } s.serial

/-! ### Parking and waking (R47, R48) -/

/-- Whether a thread is parked with a wait that a test holds of. -/
def waits (p : Nat → Park → Bool) (t : Nat) (v : Thread) : Bool :=
  match v.st with
  | .parked _ w _ => p t w
  | _ => false

/-- Makes parked threads runnable whose wait a test holds of; a starvation ends with the first of them (R56), and the core's clock
restarts (R29). -/
def wakeThreads (x : Core) (p : Nat → Park → Bool) : Core :=
  let woke := x.threads.any fun e => waits p e.1 e.2
  { x with
    threads := tmap (fun t v => if waits p t v then { v with st := .runnable } else v) x.threads
    starvedSince := if woke then none else x.starvedSince
    gated := x.gated && !woke, idleRun := if woke then 0 else x.idleRun }

/-- Makes the parked threads of a core runnable whose wait a test holds of. -/
def wakeCore (s : State) (c : Nat) (p : Nat → Park → Bool) : State := modCore s c fun x => wakeThreads x p

/-- Makes parked threads of a core runnable with a value that their instruction finds. -/
def wakeCoreWith (s : State) (c val : Nat) (p : Park → Bool) : State :=
  modCore s c fun x =>
    let woke := x.threads.any fun e => waits (fun _ w => p w) e.1 e.2
    { x with
      threads := tmap (fun t v => if waits (fun _ w => p w) t v then { v with st := .runnable, woken := some val } else v) x.threads
      starvedSince := if woke then none else x.starvedSince
      gated := x.gated && !woke, idleRun := if woke then 0 else x.idleRun }

/-- Makes a context's parked control thread runnable when a test holds of its wait. -/
def wakeCtl (s : State) (n : Nat) (p : Park → Bool) : State :=
  modCtx s n fun x => match x.ctl.thr.st with
    | .parked _ w _ => if p w then { x with ctl := { x.ctl with thr := { x.ctl.thr with st := .runnable } } } else x
    | _ => x

/-- Makes every thread and control thread runnable whose wait a test holds of. -/
def wakeAll (s : State) (p : Park → Bool) : State :=
  s.ctxs.foldl (fun s e => wakeCtl s e.1 p) (s.cores.foldl (fun s e => wakeCore s e.1 fun _ w => p w) s)

/-- A place of an update engine's operation queue is free (R232): agents that wait for one issue again. -/
def queueFreed (s : State) : State := wakeAll s fun w => match w with | .updQueue _ => true | _ => false

/-- Makes an agent runnable, with a value its waiting instruction finds when it completes. -/
def wakeAgent (s : State) (a : Agent) (woken : Option Nat) : State :=
  let f (t : Thread) : Thread := match t.st with
    | .parked _ _ _ => { t with st := .runnable, woken := woken }
    | _ => t
  match a with
  | .thread c t => modCore s c fun x => { setThread x t (f (getThread x t)) with gated := false, idleRun := 0 }
  | .ctl n => modCtx s n fun x => { x with ctl := { x.ctl with thr := f x.ctl.thr } }

/-- A control thread that could issue parks while its control core restarts or pauses, under code 6 (R399, R452). -/
def parkControl (s : State) (t : Thread) : Thread := if t.st = .runnable then { t with st := .parked 6 .restart s.clk.tick } else t

/-- It goes on at its next instruction. -/
def wakeControl (t : Thread) : Thread :=
  match t.st with
  | .parked _ .restart _ => { t with st := .runnable }
  | _ => t

/-- Changes the control thread of every context of a control core. -/
def onControls (s : State) (cc : Nat) (f : Thread → Thread) : State :=
  { s with ctxs := tmap (fun n x => if controlCoreOf n = cc then { x with ctl := { x.ctl with thr := f x.ctl.thr } } else x) s.ctxs }

/-- The thread of an agent. -/
def threadOf (s : State) (a : Agent) : Thread :=
  match a with
  | .thread c t => getThread (getCore s c) t
  | .ctl n => (getCtx s n).ctl.thr

/-- Changes the thread of an agent. -/
def modThread (s : State) (a : Agent) (f : Thread → Thread) : State :=
  match a with
  | .thread c t => modCore s c fun x => setThread x t (f (getThread x t))
  | .ctl n => modCtx s n fun x => { x with ctl := { x.ctl with thr := f x.ctl.thr } }

/-- The context of an agent, if it has one. -/
def ctxOf (s : State) (a : Agent) : Option Nat :=
  match a with
  | .thread c _ => (getCore s c).owner
  | .ctl n => some n

/-- The core of an agent. -/
def coreOf (a : Agent) : Option Nat := match a with | .thread c _ => some c | .ctl _ => none

/-- Counts requests issued under the group of an agent: a block that waits for the group is then ready no more (R35). -/
def issueCg (s : State) (a : Agent) (g n : Nat) : State :=
  match a with
  | .thread c _ => modCore s c fun x => refresh { x with cgs := cgIssue x.cgs g n } s.serial
  | .ctl k => modCtx s k fun x => { x with ctl := { x.ctl with cgs := cgIssue x.ctl.cgs g n } }

/-- Whether the PLL of the die that holds a core runs. -/
def pllRuns (s : State) (c : Nat) : Bool :=
  match physDie s (dieOfCore c) with
  | none => false
  | some k => (getDie s k).pllOn

/-- A running core whose die's PLL is stopped: what comes for it waits at the bridge edge (R28). -/
def dieStopped (s : State) (c : Nat) : Bool := decide (c < 1024) && (physDie s (dieOfCore c)).isSome && !pllRuns s c

/-- Traffic for a die whose PLL is stopped asks for it (R28). -/
def startPll (s : State) (c : Nat) : State := if dieStopped s c then modDieOf s c fun d => { d with starting := true } else s

/-- The core that an item at a bridge edge is for, if the item names it. -/
def EdgeItem.dest : EdgeItem → Option Nat
  | .grain _ _ => none
  | .word c _ => some c
  | .credit c _ => some c
  | .tokens c _ _ => some c
  | .group a _ _ => coreOf a
  | .config c _ _ _ _ _ _ => some c
  | .close c _ _ _ _ _ _ => some c

/-- Whether an item stands for all that its endpoint holds in flight, so that one is enough. -/
def EdgeItem.stands : EdgeItem → Bool
  | .word _ _ => true
  | .credit _ _ => true
  | _ => false

/-- What arrives for a die whose PLL is stopped starts it, and waits at the bridge edge (R28). -/
def holdAtEdge (s : State) (c : Nat) (it : EdgeItem) : State :=
  match physDie s (dieOfCore c) with
  | none => s
  | some _ =>
    let s := startPll s c
    if it.stands && s.clk.edge.contains it then s else modClk s fun x => { x with edge := x.edge ++ [it] }

/-- Completes one request of the group of an agent with a code, and wakes what waits for the group. -/
def groupDone (s : State) (a : Agent) (g code : Nat) : State :=
  match a with
  | .thread c _ =>
    let s := touchCore (modCore s c fun x => { x with cgs := cgDone x.cgs g code }) c
    if cgReady (getCg (getCore s c).cgs g) then wakeCore s c fun _ w => w == .group g else s
  | .ctl k =>
    let s := modCtx s k fun x => { x with ctl := { x.ctl with cgs := cgDone x.ctl.cgs g code } }
    if cgReady (getCg (getCtx s k).ctl.cgs g) then wakeCtl s k fun w => w == .group g else s

/-- The completion of a request reaches the group of its agent: over the bridge edge while the PLL of a core's die is stopped
(R28). -/
def doneCg (s : State) (a : Agent) (g code : Nat) : State :=
  match a with
  | .thread c _ => if dieStopped s c then holdAtEdge s c (.group a g code) else groupDone s a g code
  | .ctl _ => groupDone s a g code

/-- Keeps the largest code in a group, without completing a request. -/
def noteCg (s : State) (a : Agent) (g code : Nat) : State :=
  let f (t : Tbl Cg) : Tbl Cg := let c := getCg t g; tput t g { c with code := max c.code code }
  match a with
  | .thread c _ => modCore s c fun x => { x with cgs := f x.cgs }
  | .ctl k => modCtx s k fun x => { x with ctl := { x.ctl with cgs := f x.ctl.cgs } }

/-- Counts a tier 3 or collective request of a group in or out, for the park code of CG (R148). -/
def peerOutCg (s : State) (a : Agent) (g : Nat) (up : Bool) : State :=
  let f (t : Tbl Cg) : Tbl Cg :=
    let c := getCg t g
    tput t g { c with peerOut := if up then c.peerOut + 1 else c.peerOut - 1 }
  match a with
  | .thread c _ => modCore s c fun x => { x with cgs := f x.cgs }
  | .ctl k => modCtx s k fun x => { x with ctl := { x.ctl with cgs := f x.ctl.cgs } }

/-- The whole of one zero-length request: it counts as issued and completed (R97). -/
def emptyCg (s : State) (a : Agent) (g : Option Nat) : State :=
  match g with
  | none => s
  | some g => doneCg (issueCg s a g 1) a g 0

/-- Threads of a core bound to an instance. -/
def boundThreads (x : Core) : List (Nat × Thread) := x.threads.filter fun e => e.2.st != .free

/-- Whether some thread could run: one runnable and not held, or a block ready (R29); or a recomputation of the shadow check is
due, which keeps the core from gating (R196). -/
def coreCanFire (x : Core) : Bool :=
  (x.threads.any fun e => e.2.st == .runnable && !e.2.held) ||
    (x.blocks.any fun e => e.2.readySince.isSome) || x.sample.isSome

/-! ### Save areas (R359) -/

/-- The first byte of a core's record in the save area of its context (R359). -/
def coreRecord (s : State) (n c : Nat) : Nat :=
  let x := getCtx s n
  x.savePa + 256 * (256 + 8448 * (x.coreset.findIdx? fun k => k == c % 1024).getD 0)

/-- Bytes merged into a run of grains, with their poison. -/
def mergeRun (s : State) (pa : Nat) (bs : List Byte) (poison : Bool) : Nat → State
  | 0 => s
  | fuel + 1 =>
    match bs with
    | [] => s
    | _ =>
      let k := min (256 - pa % 256) bs.length
      mergeRun (mergeGrain s pa (pa % 256) (bs.take k) poison) (pa + k) (bs.drop k) poison fuel

end Machine
end Sys2Proof
end

