-- ==== Sys2Proof/Machine/Numerics.lean ====
section
/-! DEFINITION. Number formats and arithmetic (R167 to R186): exact values, decoding, rounding to every format, block scales,
the functions of the vector engine, and the Pepper mixing function. -/

namespace Sys2Proof
namespace Machine

/-! ### Values -/

/-- A number as the engines form it: NaN, an infinity, or ± m × 2^e exactly. -/
inductive FVal where
  | nan
  | inf (neg : Bool)
  | fin (neg : Bool) (m : Nat) (e : Int)
  deriving DecidableEq, Repr

def FVal.zero : FVal := .fin false 0 0
def FVal.isNan : FVal → Bool | .nan => true | _ => false
def FVal.isFin : FVal → Bool | .fin _ _ _ => true | _ => false
def FVal.neg? : FVal → Bool | .nan => false | .inf s => s | .fin s _ _ => s

/-- The value of an integer. -/
def FVal.ofInt (n : Int) : FVal := .fin (decide (n < 0)) n.natAbs 0

/-- 2^k for an integer k at least 0. -/
def pow2i (k : Int) : Nat := 2 ^ k.toNat

def FVal.negate : FVal → FVal
  | .nan => .nan
  | .inf s => .inf !s
  | .fin s m e => .fin (!s) m e

def FVal.abs : FVal → FVal
  | .nan => .nan
  | .inf _ => .inf false
  | .fin _ m e => .fin false m e

/-- The signed integer at a common exponent `q` at most `e`. -/
def atExp (s : Bool) (m : Nat) (e q : Int) : Int :=
  let n : Int := (m * pow2i (e - q) : Nat)
  if s then -n else n

/-- The exact sum, with the sign of a zero as IEEE 754 gives it for round to nearest even (R169). -/
def FVal.add : FVal → FVal → FVal
  | .nan, _ => .nan
  | _, .nan => .nan
  | .inf s, .inf t => if s = t then .inf s else .nan
  | .inf s, .fin _ _ _ => .inf s
  | .fin _ _ _, .inf t => .inf t
  | .fin s m e, .fin t n f =>
    let q := min e f
    let z := atExp s m e q + atExp t n f q
    if z = 0 then .fin (s && t && m == 0 && n == 0) 0 0 else .fin (decide (z < 0)) z.natAbs q

/-- The exact product. -/
def FVal.mul : FVal → FVal → FVal
  | .nan, _ => .nan
  | _, .nan => .nan
  | .inf s, .inf t => .inf (s != t)
  | .inf s, .fin t n _ => if n = 0 then .nan else .inf (s != t)
  | .fin s m _, .inf t => if m = 0 then .nan else .inf (s != t)
  | .fin s m e, .fin t n f => .fin (s != t) (m * n) (e + f)

/-- Multiplication by 2^k. -/
def FVal.scale : FVal → Int → FVal
  | .fin s m e, k => .fin s m (e + k)
  | v, _ => v

/-- −1, 0 or 1 as the first is below, equal to or above the second; none with a NaN. −0 equals +0. -/
def FVal.cmp : FVal → FVal → Option Int
  | .nan, _ => none
  | _, .nan => none
  | .inf s, .inf t => some (if s = t then 0 else if s then -1 else 1)
  | .inf s, .fin _ _ _ => some (if s then -1 else 1)
  | .fin _ _ _, .inf t => some (if t then 1 else -1)
  | .fin s m e, .fin t n f =>
    let q := min e f
    let a := atExp s m e q
    let b := atExp t n f q
    some (if a < b then -1 else if a = b then 0 else 1)

/-- Maximum: +0.0 above −0.0, any NaN gives NaN (Table 5.7). -/
def FVal.max (a b : FVal) : FVal :=
  match FVal.cmp a b with
  | none => .nan
  | some c => if c < 0 then b else if c > 0 then a else if a.neg? then b else a

/-- Minimum: −0.0 below +0.0, any NaN gives NaN (Table 5.7). -/
def FVal.min (a b : FVal) : FVal :=
  match FVal.cmp a b with
  | none => .nan
  | some c => if c < 0 then a else if c > 0 then b else if a.neg? then a else b

/-- Bits of a positive number: 2^(bitLen n − 1) ≤ n < 2^bitLen n. -/
def bitLen (n : Nat) : Nat := if n = 0 then 0 else Nat.log2 n + 1

/-! ### Formats (Table 7.1) -/

/-- Exponent bits, mantissa bits and bias of a floating format code. -/
def fexp (f : Nat) : Nat := match f with | 1 => 8 | 2 => 8 | 3 => 5 | 4 => 4 | 5 => 5 | 6 => 3 | 7 => 2 | _ => 2
def fman (f : Nat) : Nat := match f with | 1 => 23 | 2 => 7 | 3 => 10 | 4 => 3 | 5 => 2 | 6 => 2 | 7 => 3 | _ => 1
def fbias (f : Nat) : Int := match f with | 1 => 127 | 2 => 127 | 3 => 15 | 4 => 7 | 5 => 15 | 6 => 3 | 7 => 1 | _ => 1

/-- FP32, BF16, FP16, E4M3, E5M2, E3M2, E2M3 or E2M1. -/
def isFloat (f : Nat) : Bool := decide (1 ≤ f) && decide (f ≤ 8)
/-- INT8, INT4 or INT32. -/
def isIntF (f : Nat) : Bool := f == 9 || f == 0xA || f == 0xB
/-- FP6 or FP4, with block scales. -/
def isBlockF (f : Nat) : Bool := f == 6 || f == 7 || f == 8
/-- Bits of an element (Table 4.5). -/
def elemBits (f : Nat) : Nat :=
  match f with
  | 1 => 32 | 2 => 16 | 3 => 16 | 6 => 6 | 7 => 6 | 8 => 4 | 0xA => 4 | 0xB => 32 | _ => 8

/-- A format with infinities. -/
def hasInf (f : Nat) : Bool := f == 1 || f == 2 || f == 3 || f == 5

/-- The largest exponent of a finite value. -/
def femax (f : Nat) : Int := if hasInf f then 2 ^ fexp f - 2 - fbias f else 2 ^ fexp f - 1 - fbias f

/-- The largest finite value's mantissa, at exponent `femax f − fman f`. -/
def fmaxMan (f : Nat) : Nat := if f = 4 then 14 else 2 ^ (fman f + 1) - 1

/-- The bits of the largest finite value. -/
def fmaxRaw (f : Nat) : Nat :=
  match f with | 1 => 0x7F7FFFFF | 2 => 0x7F7F | 3 => 0x7BFF | 4 => 0x7E | 5 => 0x7B | 6 => 0x1F | 7 => 0x1F | _ => 7

/-- The canonical NaN (R170). -/
def fnan (f : Nat) : Nat := match f with | 1 => 0x7FC00000 | 2 => 0x7FC0 | 3 => 0x7E00 | 4 => 0x7F | _ => 0x7E

/-- The bits of infinity. -/
def finf (f : Nat) : Nat := match f with | 1 => 0x7F800000 | 2 => 0x7F80 | 3 => 0x7C00 | _ => 0x7C

def fsign (f : Nat) (neg : Bool) : Nat := if neg then 2 ^ (fexp f + fman f) else 0

/-- The value of a floating element's bits, without its block scale (R167). -/
def decodeF (f raw : Nat) : FVal :=
  let eb := fexp f
  let mb := fman f
  let neg := bit raw (eb + mb)
  let e := bits raw (eb + mb - 1) mb
  let m := bits raw (mb - 1) 0
  if hasInf f && e == 2 ^ eb - 1 then (if m = 0 then .inf neg else .nan)
  else if f = 4 && e == 15 && m == 7 then .nan
  else if e = 0 then .fin neg m (1 - fbias f - mb)
  else .fin neg (m + 2 ^ mb) (e - fbias f - mb)

/-- Whether a floating element's bits are subnormal. -/
def isSubnormal (f raw : Nat) : Bool :=
  bits raw (fexp f + fman f - 1) (fman f) == 0 && bits raw (fman f - 1) 0 != 0

/-- The integer of an integer element's bits. -/
def decodeI (f raw : Nat) : Int := sext (elemBits f) raw

/-- The exact value of an element's bits with its scale byte, as the engines read it (R171, Table 7.7 for subnormals under
S5 emulation). -/
def decodeV (emu : Bool) (f raw scale : Nat) : FVal :=
  if isIntF f then .ofInt (decodeI f raw)
  else if f = 0xC then (if raw = 0xFF then .nan else .fin false 1 ((raw : Int) - 127))
  else if isFloat f then
    if isBlockF f then (if scale = 0xFF then .nan else (decodeF f raw).scale ((scale : Int) - 127))
    else if emu && decide (f ≤ 3) && isSubnormal f raw then .fin (decodeF f raw).neg? 0 0
    else decodeF f raw
  else decodeF 1 (Config.untypedVal raw).toNat

/-! ### Rounding (R174 to R177) -/

/-- A rounding mode; a stochastic one with the element's draw. -/
inductive RMode where
  | ne | tz | dn | up
  | st (u : Nat)
  deriving DecidableEq, Repr

/-- A magnitude m × 2^e as a whole number of 2^q under a mode. -/
def roundMag (neg : Bool) (m : Nat) (e q : Int) (mode : RMode) : Nat :=
  if q ≤ e then m * pow2i (e - q)
  else
    let sh := (q - e).toNat
    let lo := m >>> sh
    let rem := m % 2 ^ sh
    if rem = 0 then lo
    else match mode with
      | .ne => if 2 * rem > 2 ^ sh || (2 * rem == 2 ^ sh && lo % 2 == 1) then lo + 1 else lo
      | .tz => lo
      | .dn => if neg then lo + 1 else lo
      | .up => if neg then lo else lo + 1
      | .st u => if u < rem * 2 ^ 32 / 2 ^ sh then lo + 1 else lo

/-- Whether m × 2^e exceeds n × 2^f. -/
def magGt (m : Nat) (e : Int) (n : Nat) (f : Int) : Bool :=
  let q := min e f
  decide (n * pow2i (f - q) < m * pow2i (e - q))

/-- The exponent of the grid on which a magnitude is rounded. -/
def gridExp (f m : Nat) (e : Int) : Int := max (e + bitLen m - 1) (1 - fbias f) - fman f

/-- The bits of n × 2^q on the format's grid. -/
def encodeGrid (f n : Nat) (q : Int) : Nat := n + (q - (1 - fbias f - fman f)).toNat * 2 ^ fman f

/-- Whether a finite value needs a draw under stochastic rounding (R175): it is not representable, and lies below the largest
finite value. -/
def needsDraw (f : Nat) (v : FVal) : Bool :=
  match v with
  | .fin _ m e =>
    if m = 0 then false
    else if isIntF f then !(0 ≤ e) && m % pow2i (-e) != 0 && !magGt m e (2 ^ (elemBits f - 1) - 1) 0
    else
      let q := gridExp f m e
      !(q ≤ e) && m % pow2i (q - e) != 0 && !magGt m e (fmaxMan f) (femax f - fman f)
  | _ => false

/-- Overflow outcomes (Table 7.2): the bits, and whether the predicate of R104 is set. -/
def overflowTo (f : Nat) (neg : Bool) (mode : RMode) (sat : Bool) : Nat × Bool :=
  let s := fsign f neg
  let away := if hasInf f then finf f + s else fnan f
  if isBlockF f then (fmaxRaw f + s, true)
  else
    let keeps := match mode with | .tz => true | .dn => !neg | .up => neg | _ => false
    if keeps then (fmaxRaw f + s, false)
    else if sat then (fmaxRaw f + s, true)
    else (away, true)

/-- Rounding of a value to a floating format: bits, and whether it overflowed, was limited or became NaN from an infinity. -/
def roundF (f : Nat) (mode : RMode) (sat : Bool) (v : FVal) : Nat × Bool :=
  match v with
  | .nan => (fnan f, false)
  | .inf neg =>
    if hasInf f then (finf f + fsign f neg, false)
    else if f = 4 then (if sat then (fmaxRaw f + fsign f neg, true) else (fnan f, true))
    else (fmaxRaw f + fsign f neg, true)
  | .fin neg m e =>
    if m = 0 then (fsign f neg, false)
    else
      let big := magGt m e (fmaxMan f) (femax f - fman f)
      let mode' := match mode with | .st u => if big then .ne else .st u | x => x
      let q := gridExp f m e
      let n := roundMag neg m e q mode'
      if magGt n q (fmaxMan f) (femax f - fman f) then overflowTo f neg mode' sat
      else (encodeGrid f n q + fsign f neg, false)

/-- Saturation of an integer to an integer format. -/
def satInt (f : Nat) (n : Int) : Int × Bool :=
  let hi : Int := 2 ^ (elemBits f - 1) - 1
  let lo : Int := -(2 ^ (elemBits f - 1))
  if hi < n then (hi, true) else if n < lo then (lo, true) else (n, false)

/-- The bits of an integer in a format. -/
def intBits (f : Nat) (n : Int) : Nat := (n % (2 ^ elemBits f : Int)).toNat

/-- Conversion to an integer format (R178, R179). A magnitude above the format's largest number is rounded to nearest even,
with no draw, under the stochastic modes too (R175); that number is the largest positive one for either sign (DEDUCED, log 166). -/
def roundI (f : Nat) (mode : RMode) (v : FVal) : Nat × Bool :=
  match v with
  | .nan => (0, false)
  | .inf neg => (intBits f (if neg then -(2 ^ (elemBits f - 1)) else 2 ^ (elemBits f - 1) - 1), true)
  | .fin neg m e =>
    let mode' := match mode with
      | .st u => if magGt m e (2 ^ (elemBits f - 1) - 1) 0 then .ne else .st u
      | x => x
    let n := roundMag neg m e 0 mode'
    let r := satInt f (if neg then -(n : Int) else n)
    (intBits f r.1, r.2)

/-- Rounding to any unscaled format. -/
def roundTo (f : Nat) (mode : RMode) (sat : Bool) (v : FVal) : Nat × Bool :=
  if isIntF f then roundI f mode v else roundF f mode sat v

/-- An FP32 result of rounding; under S5 emulation a subnormal one is a zero (Table 7.7). -/
def r32 (emu : Bool) (v : FVal) : FVal :=
  let raw := (roundF 1 .ne false v).1
  let x := decodeF 1 raw
  if emu && isSubnormal 1 raw then .fin x.neg? 0 0 else x

/-- The bits of an FP32 value. -/
def f32bits (v : FVal) : Nat := (roundF 1 .ne false v).1

/-- An element widened to FP32 (R122, R172): INT32 is rounded, a scaled value beyond FP32 becomes infinite. -/
def widen (emu : Bool) (f raw scale : Nat) : FVal := r32 false (decodeV emu f raw scale)

/-- Whether widening overflowed (R172). -/
def widenOver (f raw scale : Nat) : Bool := isBlockF f && (roundF 1 .ne false (decodeV false f raw scale)).2

/-! ### Block scales (R173) -/

/-- Exponent of the largest normal element. -/
def blockEmax (f : Nat) : Int := if f = 6 then 4 else 2

/-- The scale byte of a block of finite values, of which `amax` is the greatest magnitude. -/
def blockScale (f : Nat) (amax : FVal) : Nat :=
  match amax with
  | .fin _ m e => if m = 0 then 0 else (min (max (e + bitLen m - 1 - blockEmax f) (-127)) 127 + 127).toNat
  | _ => 0xFF

/-- The greatest magnitude of a block. -/
def blockAmax (vs : List FVal) : FVal := vs.foldl (fun a v => FVal.max a v.abs) .zero

/-- The scale byte a block gets: computed, or the one present under SCALEMODE 0b01; 0xFF with a NaN or an infinity. -/
def blockScaleOf (f : Nat) (present : Option Nat) (vs : List FVal) : Nat :=
  if vs.any fun v => !v.isFin then 0xFF
  else match present with
    | some s => s
    | none => blockScale f (blockAmax vs)

/-! ### Functions of the vector engine (R123, Table 7.4) -/

/-- ⌊√n⌋ by bits, from bit k down. -/
def isqrtFrom (n : Nat) : Nat → Nat → Nat
  | 0, r => if (r + 1) * (r + 1) ≤ n then r + 1 else r
  | k + 1, r => let t := r + 2 ^ (k + 1); isqrtFrom n k (if t * t ≤ n then t else r)

def isqrt (n : Nat) : Nat := isqrtFrom n (bitLen n / 2 + 1) 0

/-- A value with a bit below the last that says that the exact value lies above. -/
def sticky (neg : Bool) (m : Nat) (inexact : Bool) (e : Int) : FVal := .fin neg (2 * m + b2n inexact) (e - 1)

/-- Quotient of two values, to more bits than FP32 holds, with a sticky bit. -/
def FVal.div : FVal → FVal → FVal
  | .nan, _ => .nan
  | _, .nan => .nan
  | .inf _, .inf _ => .nan
  | .inf s, .fin t _ _ => .inf (s != t)
  | .fin s _ _, .inf t => .fin (s != t) 0 0
  | .fin s m e, .fin t n f =>
    if n = 0 then (if m = 0 then .nan else .inf (s != t))
    else if m = 0 then .fin (s != t) 0 0
    else
      let k := 40 + bitLen n
      sticky (s != t) (m * 2 ^ k / n) (m * 2 ^ k % n != 0) (e - f - k)

def fone : FVal := .fin false 1 0

def FVal.sqrt : FVal → FVal
  | .nan => .nan
  | .inf s => if s then .nan else .inf false
  | .fin s m e =>
    if m = 0 then .fin s 0 0
    else if s then .nan
    else
      let k := 80 + (e % 2).toNat
      let n := m * 2 ^ k
      let r := isqrt n
      sticky false r (r * r != n) ((e - k) / 2)

def FVal.rsqrt : FVal → FVal
  | .nan => .nan
  | .inf s => if s then .nan else .fin false 0 0
  | .fin s m e =>
    if m = 0 then .inf s
    else if s then .nan
    else
      let n := m * 2 ^ (e % 2).toNat
      let f := (e - e % 2) / 2
      let k := 40 + bitLen n
      let r := isqrt (2 ^ (2 * k) / n)
      sticky false r (r * r * n != 2 ^ (2 * k)) (-f - k)

/-- Fractional bits of the fixed-point evaluation of the transcendental functions. -/
def fxBits : Nat := 256

/-- ∑ z^(2i+1) ÷ (2i+1) in fixed point: the inverse hyperbolic tangent. -/
def fxAtanh (z2 : Int) : Nat → Int → Nat → Int
  | 0, _, _ => 0
  | n + 1, p, i => p / (2 * i + 1 : Nat) + fxAtanh z2 n (p * z2 / 2 ^ fxBits) (i + 1)

/-- ln 2 in fixed point. -/
def fxLn2 : Int := 2 * fxAtanh (2 ^ fxBits / 9) 100 (2 ^ fxBits / 3) 0

/-- ∑ r^i ÷ i! in fixed point. -/
def fxExpSum (r : Int) : Nat → Int → Nat → Int
  | 0, _, _ => 0
  | n + 1, t, i => t + fxExpSum r n (t * r / 2 ^ fxBits / (i + 1 : Nat)) (i + 1)

/-- e^x as M × 2^(k − fxBits), for x in fixed point. -/
def fxExp (x : Int) : Int × Int :=
  let k := (2 * x + fxLn2) / (2 * fxLn2)
  (fxExpSum (x - k * fxLn2) 70 (2 ^ fxBits) 0, k)

/-- A value below 2^100 in fixed point. -/
def toFx (s : Bool) (m : Nat) (e : Int) : Int := atExp s m e (min e (-(fxBits : Int))) / 2 ^ (max 0 (-(fxBits : Int) - e)).toNat

/-- A tiny positive value, far below half of the least FP32 magnitude. -/
def ftiny : FVal := .fin false 1 (-1000)
/-- A value far above FP32's range. -/
def fhuge : FVal := .fin false 1 1000

def FVal.exp : FVal → FVal
  | .nan => .nan
  | .inf s => if s then .fin false 0 0 else .inf false
  | .fin s m e =>
    if m = 0 then fone
    else if magGt m e 128 0 then (if s then ftiny else fhuge)
    else
      let (y, k) := fxExp (toFx s m e)
      sticky false y.toNat true (k - fxBits)

def FVal.log : FVal → FVal
  | .nan => .nan
  | .inf s => if s then .nan else .inf false
  | .fin s m e =>
    if m = 0 then .inf true
    else if s then .nan
    else
      let b := bitLen m
      let k0 : Int := e + b - 1
      -- y = m ÷ 2^(b−1) lies in [1, 2); above 1.5 it is halved.
      let y0 : Int := (m * 2 ^ fxBits / 2 ^ (b - 1) : Nat)
      let half := decide (3 * 2 ^ (fxBits - 1) < y0)
      let y := if half then y0 / 2 else y0
      let k := if half then k0 + 1 else k0
      let z := (y - 2 ^ fxBits) * 2 ^ fxBits / (y + 2 ^ fxBits)
      let r := k * fxLn2 + 2 * fxAtanh (z * z / 2 ^ fxBits) 90 z 0
      if y = 2 ^ fxBits && k == 0 then .fin false 0 0
      else sticky (decide (r < 0)) r.natAbs true (-(fxBits : Int))

def FVal.tanh : FVal → FVal
  | .nan => .nan
  | .inf s => .fin s 1 0
  | .fin s m e =>
    if m = 0 then .fin s 0 0
    else if magGt 1 (-13) m e then .fin s m e
    else if magGt m e 10 0 then .fin s 1 0
    else
      let (y, k) := fxExp (2 * toFx false m e)
      let t : Int := y * pow2i k
      let one : Int := 2 ^ fxBits
      sticky s ((t - one) * 2 ^ 64 / (t + one)).toNat true (-64)

def FVal.sig : FVal → FVal
  | .nan => .nan
  | .inf s => if s then .fin false 0 0 else fone
  | .fin s m e =>
    if m = 0 then .fin false 1 (-1)
    else if magGt m e 128 0 then (if s then ftiny else fone)
    else
      let (y, k) := fxExp (toFx (!s) m e)
      let sh : Nat := (-k).toNat
      let d : Int := 2 ^ (fxBits + sh) + y * pow2i (k + sh)
      sticky false (2 ^ (fxBits + sh + 300) / d).toNat true (-300)

/-! ### Pepper (R183 to R185) -/

def pmixRound (x : Nat) : Nat :=
  let x := (x + 0x5a83e61fc2d497b1) % 2 ^ 64
  let x := ((x ^^^ (x >>> 31)) * 0xe5b20c9f7a14d663) % 2 ^ 64
  let x := ((x ^^^ (x >>> 29)) * 0x6d2eb4a193f70c5b) % 2 ^ 64
  x ^^^ (x >>> 32)

/-- The mixing function. -/
def pmix (key ctr : Nat) : Nat :=
  pmixRound (pmixRound (pmixRound (key % 2 ^ 64 ^^^ (ctr * 0x8f3a61d52c7be94d) % 2 ^ 64)))

/-- The free-mode key of a lane of a core. -/
def freeKey (seed core lane : Nat) : Nat := pmix (pmix seed (2 ^ 64 - 1)) (core <<< 7 ||| lane)

/-- A free-mode draw. -/
def freeDraw (seed core lane n : Nat) : Nat := pmix (freeKey seed core lane) n >>> 32

/-- A keyed draw of element `i`, step `t`, purpose `p`. -/
def keyedDraw (seed t p i : Nat) : Nat := pmix (pmix seed t ^^^ p) i >>> 32

/-! ### Summaries (R96, Table 4.13) -/

/-- The value of a summary of no contributions. -/
def emptySummary (kind : Nat) : Nat :=
  match kind with
  | 2 => 0xFF800000
  | 3 => 0x7F800000
  | 6 => 1
  | _ => 0

/-- Combines two summary values of a kind. -/
def combineSummary (emu : Bool) (kind a b : Nat) : Nat :=
  let fa := decodeV emu 1 (a % 2 ^ 32) 0
  let fb := decodeV emu 1 (b % 2 ^ 32) 0
  match kind with
  | 1 => f32bits (r32 emu (fa.add fb))
  | 2 => f32bits (FVal.max fa fb)
  | 3 => f32bits (FVal.min fa fb)
  | 4 => min (a + b) (2 ^ 64 - 1)
  | 5 => b2n (a % 2 == 1 || b % 2 == 1)
  | 6 => b2n (a % 2 == 1 && b % 2 == 1)
  | _ => a ||| b

end Machine
end Sys2Proof
end

