-- ==== Sys2Proof/Machine/Operands.lean ====
section
/-! DEFINITION. Operand forms: the fields of an instruction word (R87, R88), scalar operands, and every descriptor type
with its checks (R82 to R86, R150, R215, R220, R234, R291). -/

namespace Sys2Proof
namespace Machine

/-! ### The instruction word (Table 4.8) -/

def iClass (w : Word) : Nat := fld w 63 61
def iMajor (w : Word) : Nat := fld w 60 58
def iDst (w : Word) : Nat := fld w 57 53
def iSrc1 (w : Word) : Nat := fld w 52 48
def iSrc2 (w : Word) : Nat := fld w 47 43
def iSrc3 (w : Word) : Nat := fld w 42 38
def iExt (w : Word) : Bool := wbit w 37
def iPe (w : Word) : Bool := wbit w 36
def iPn (w : Word) : Bool := wbit w 35
def iPsel (w : Word) : Nat := fld w 34 32
def iImm (w : Word) : Nat := fld w 31 0

/-- The file that a register field names: none, s or q (5 bits), d (4 bits), a or p (3 bits). -/
inductive RKind where
  | none | s | q | d | a | p
  deriving DecidableEq, Repr

/-- Whether a register field is valid for its file (R88). -/
def regOk (k : RKind) (r : Nat) : Bool :=
  match k with
  | .none => r == 0
  | .s => true
  | .q => true
  | .d => decide (r < 16)
  | .a => decide (r < 8)
  | .p => decide (r < 8)

/-- The registers an instruction's definition gives its four fields. -/
structure RegUse where
  dst : RKind
  src1 : RKind
  src2 : RKind
  src3 : RKind
  deriving DecidableEq, Repr

/-- The register fields and the predicate fields follow R88 and Table 4.8. -/
def frameOk (w : Word) (u : RegUse) : Bool :=
  regOk u.dst (iDst w) && regOk u.src1 (iSrc1 w) && regOk u.src2 (iSrc2 w) && regOk u.src3 (iSrc3 w) &&
  (iPe w || (!iPn w && iPsel w == 0))

/-- Whether the predicate selects the instruction (R90). -/
def selected (t : Thread) (w : Word) : Bool := !iPe w || getP t (iPsel w) != iPn w

/-- An immediate of 25 bits, sign-extended to 64. -/
def imm25 (w : Word) : Word := BitVec.ofInt 64 (sext 25 (iImm w))

/-! ### Tiles (R86) -/

/-- A checked tile descriptor. -/
structure Tile where
  fmt : Nat
  rows : Nat
  cols : Nat
  pitch : Nat
  base : Nat
  scale : Nat
  deriving DecidableEq, Repr

/-- Bytes of one row's elements. -/
def Tile.rowBytes (t : Tile) : Nat := cdiv (t.cols * elemBits t.fmt) 8

/-- Bytes of one row's scales, and of a scale row. -/
def Tile.scaleBytes (t : Tile) : Nat := if isBlockF t.fmt then t.cols / 32 else 0
def Tile.scalePitch (t : Tile) : Nat := cdiv t.scaleBytes 64 * 64

/-- The scratchpad runs of row `r`: its elements and its scales. -/
def Tile.rowRuns (t : Tile) (r : Nat) : List (Nat × Nat) :=
  (t.base + r * t.pitch, t.rowBytes) ::
    (if isBlockF t.fmt then [(t.scale + r * t.scalePitch, t.scaleBytes)] else [])

/-- Every run of a tile. -/
def Tile.runs (t : Tile) : List (Nat × Nat) :=
  if t.cols = 0 then [] else (List.range t.rows).flatMap t.rowRuns

/-- Whether two lists of runs share a byte. -/
def runsHit (a b : List (Nat × Nat)) : Bool := a.any fun x => b.any fun y => overlap x.1 x.2 y.1 y.2

/-- Reads and checks a tile descriptor; none is a descriptor fault. -/
def tileOf (x : Core) (d : BitVec 256) : Option Tile :=
  let w0 := dw d 0
  let w1 := dw d 1
  let w2 := dw d 2
  let t : Tile :=
    { fmt := fld w0 59 56, rows := fld w0 55 44, cols := fld w0 43 32, pitch := fld w1 36 21, base := fld w1 20 0,
      scale := fld w2 20 0 }
  let block := isBlockF t.fmt
  let size := decide (0 < t.rows) && decide (0 < t.cols)
  let inside := !size ||
    (decide (t.base + (t.rows - 1) * t.pitch + t.rowBytes ≤ spSize) && decide (8 * codeWords x ≤ t.base) &&
      (!block || (decide (t.scale + t.rows * t.scalePitch ≤ spSize) && decide (8 * codeWords x ≤ t.scale))))
  if fld w0 63 60 == 2 && decide (t.fmt ≤ 0xC) && decide (t.rows ≤ 2048) && decide (t.cols ≤ 2048) &&
      fld w0 31 0 == 0 && fld w1 63 37 == 0 && fld w2 63 21 == 0 && dw d 3 == 0 && t.pitch % 64 == 0 &&
      decide (cdiv (t.cols * elemBits t.fmt) 512 * 64 ≤ t.pitch) && t.base % 64 == 0 && t.scale % 64 == 0 &&
      (block || t.scale == 0) && (!block || t.cols % 32 == 0) && inside
  then some t else none

/-! ### Tensors (R84) -/

/-- A checked tensor descriptor; dimensions beyond its rank are 1. -/
structure Tensor where
  fmt : Nat
  layout : Nat
  base : Nat
  d0 : Nat
  d1 : Nat
  d2 : Nat
  d3 : Nat
  id : Nat
  scale : Nat
  deriving DecidableEq, Repr

/-- Rows of a tensor. -/
def Tensor.rows (t : Tensor) : Nat := t.d3 * t.d2 * t.d1

def Tensor.elems (t : Tensor) : Nat := t.rows * t.d0

/-- Grains of a linear row, and of its scales. -/
def Tensor.rowGrains (t : Tensor) : Nat := cdiv (t.d0 * elemBits t.fmt) 2048
def Tensor.scaleRowGrains (t : Tensor) : Nat := if isBlockF t.fmt then cdiv (cdiv t.d0 32) 256 else 0

/-- Grains of an engine-ready tile (Table 8.3). -/
def tileGrains (f : Nat) : Nat := (128 * 128 * elemBits f / 8 + (if isBlockF f then 512 else 0)) / 256

def Tensor.tileCols (t : Tensor) : Nat := cdiv t.d0 128
def Tensor.tiles (t : Tensor) : Nat := cdiv t.rows 128 * t.tileCols

/-- Grains at BASE, and grains at SCALE_BASE. -/
def Tensor.dataGrains (t : Tensor) : Nat := if t.layout = 0 then t.rows * t.rowGrains else t.tiles * tileGrains t.fmt
def Tensor.scaleGrains (t : Tensor) : Nat := if t.layout = 0 then t.rows * t.scaleRowGrains else 0
def Tensor.grains (t : Tensor) : Nat := t.dataGrains + t.scaleGrains

/-- The virtual address of grain `g`: data grains, then scale grains. -/
def Tensor.grainVa (t : Tensor) (g : Nat) : Nat :=
  if g < t.dataGrains then t.base + 256 * g else t.scale + 256 * (g - t.dataGrains)

/-- Bytes of the elements of a tensor. -/
def Tensor.bytes (t : Tensor) : Nat := 256 * t.dataGrains

/-- Reads and checks a tensor descriptor; none is a descriptor fault. -/
def tensorOf (d : BitVec 256) : Option Tensor :=
  let w0 := dw d 0
  let w1 := dw d 1
  let w2 := dw d 2
  let w3 := dw d 3
  let rank := fld w0 55 54 + 1
  let t : Tensor :=
    { fmt := fld w0 59 56, layout := fld w0 53 52, base := fld w0 47 0, d0 := fld w1 31 0,
      d1 := if rank < 2 then 1 else fld w1 63 32, d2 := if rank < 3 then 1 else fld w2 31 0,
      d3 := if rank < 4 then 1 else fld w2 63 32, id := fld w3 63 48, scale := fld w3 47 0 }
  let block := isBlockF t.fmt
  if fld w0 63 60 == 1 && decide (t.fmt ≤ 0xC) && decide (t.layout ≤ 1) && fld w0 51 48 == 0 && t.base % 256 == 0 &&
      (decide (2 ≤ rank) || fld w1 63 32 == 0) && (decide (3 ≤ rank) || fld w2 31 0 == 0) &&
      (decide (4 ≤ rank) || fld w2 63 32 == 0) && (!block || t.d0 % 32 == 0) && t.scale % 256 == 0 &&
      ((block && t.layout == 0) || t.scale == 0) &&
      decide (t.base + 256 * t.dataGrains ≤ 2 ^ 48) && decide (t.scale + 256 * t.scaleGrains ≤ 2 ^ 48)
  then some t else none

/-! ### Stream ring descriptors (Table 8.4) -/

/-- Whether a word is a valid ring descriptor's word 0 by itself; whether its zero fields and reserved values are. -/
def ringDescOk (d : BitVec 256) : Bool :=
  let w := dw d 0
  let mode := wbit w 59
  let slots := fld w 56 52
  fld w 63 60 == 3 && decide (fld w 58 57 ≤ 1) && fld w 38 21 == 0 && dw d 1 == 0 && dw d 2 == 0 && dw d 3 == 0 &&
  (if mode then slots == 2 else decide (3 ≤ slots) && decide (slots ≤ 16)) && decide (0 < fld w 51 39) &&
  fld w 51 39 % slots == 0 && fld w 20 0 % 256 == 0 && decide (fld w 20 0 + 256 * fld w 51 39 ≤ spSize)

/-- The ring that a descriptor configures: every slot empty, the pointers at slot 0. -/
def ringOf (d : BitVec 256) : Ring :=
  let w := dw d 0
  { mode := fld w 59 59, producer := fld w 58 57, slots := fld w 56 52, size := fld w 51 39, base := fld w 20 0,
    st := List.replicate (fld w 56 52) .empty, tail := 0, read := 0, head := 0, front := 0,
    swapped := true, draining := false }

/-! ### Prefetch schedule descriptors (Tables 8.7, 8.8) -/

def schedDescOk (d : BitVec 256) : Bool :=
  let w0 := dw d 0
  fld w0 63 60 == 4 && !wbit w0 48 && fld w0 47 0 % 256 == 0 && fld (dw d 1) 63 32 == 0 && fld (dw d 2) 63 48 == 0 &&
  fld (dw d 2) 2 0 == 0 && dw d 3 == 0 && (fld w0 59 59 == 0 || fld w0 58 53 == 0)

/-- A schedule entry's source, destination, grains and gate value; none when it fails a check. -/
def schedEntryOf (target slotGrains : Nat) (bs : List Byte) : Option (Nat × Nat × Nat × Nat) :=
  let d := descOfBytes bs
  let src := fld (dw d 0) 47 0
  let dst := fld (dw d 1) 47 0
  let n := fld (dw d 2) 31 0
  if fld (dw d 0) 63 48 == 0 && src % 256 == 0 && fld (dw d 1) 63 48 == 0 && dst % 256 == 0 &&
      fld (dw d 2) 63 32 == 0 && (target == 1 || (dst == 0 && decide (n ≤ slotGrains)))
  then some (src, dst, n, (dw d 3).toNat) else none

/-! ### Collective descriptors (Table 6.4) -/

/-- A checked collective descriptor. -/
structure ColDesc where
  op : Nat
  red : Nat
  comp : Nat
  k : Nat
  members : Nat
  root : Nat
  step : Nat
  colseq : Nat
  limit : Nat
  whey : Nat
  deriving DecidableEq, Repr

def opAllred : Nat := 0
def opRedscat : Nat := 1
def opAllgath : Nat := 2
def opBcast : Nat := 3
def opAlltoall : Nat := 4
def opReshard : Nat := 5

/-- Reads and checks a collective descriptor at module `self` (R150). -/
def colDescOf (self : Nat) (d : BitVec 256) : Option ColDesc :=
  let w0 := dw d 0
  let c : ColDesc :=
    { op := fld w0 59 56, red := fld w0 55 52, comp := fld w0 51 50, k := fld w0 48 40, members := fld w0 39 32,
      root := fld w0 26 24, step := fld (dw d 1) 63 32, colseq := fld (dw d 1) 31 0, limit := fld (dw d 2) 63 32,
      whey := fld (dw d 3) 47 0 }
  if fld w0 63 60 == 5 && decide (c.op ≤ 5) && decide (c.red ≤ 6) && decide (c.comp ≤ 2) && !wbit w0 49 &&
      fld w0 31 27 == 0 && fld w0 23 0 == 0 && fld (dw d 2) 31 0 == 0 && fld (dw d 3) 63 48 == 0 && c.whey % 256 == 0 &&
      bit c.members self && decide (0 < c.limit) &&
      (decide (c.op ≤ 1) || c.red == 0) && (c.comp == 1 || c.k == 0) && (decide (0 < c.comp) || c.whey == 0) &&
      (if c.op = opBcast then bit c.members c.root else c.root == 0)
  then some c else none

/-- Members in ascending peer index. -/
def membersOf (mask : Nat) : List Nat := (List.range 8).filter fun p => bit mask p

/-! ### Update descriptors (Table 9.2) -/

/-- A checked update descriptor. -/
structure UpdDesc where
  op : Nat
  outcome : Nat
  init : Bool
  ntags : Nat
  contrib : Nat
  lossExp : Int
  params : Nat
  ls : Nat
  out : Nat
  deriving DecidableEq, Repr

def updOpen : Nat := 0
def updNorm : Nat := 1
def updStep : Nat := 2
def updRegen : Nat := 3
def updFlush : Nat := 4
def updKvgather : Nat := 5

/-- Reads and checks an update descriptor: a field that does not apply to OP must be 0 (R234). -/
def updDescOf (d : BitVec 256) : Option UpdDesc :=
  let w0 := dw d 0
  let u : UpdDesc :=
    { op := fld w0 59 56, outcome := fld w0 55 54, init := wbit w0 53, ntags := fld w0 52 47 + 1, contrib := fld w0 46 36,
      lossExp := sext 8 (fld w0 35 28), params := fld (dw d 1) 47 0, ls := fld (dw d 2) 47 0, out := fld (dw d 3) 47 0 }
  let op := u.op
  if fld w0 63 60 == 6 && decide (op ≤ 5) && fld w0 27 0 == 0 && fld (dw d 1) 63 48 == 0 && fld (dw d 2) 63 48 == 0 &&
      fld (dw d 3) 63 48 == 0 && u.params % 256 == 0 && u.ls % 256 == 0 && u.out % 256 == 0 &&
      (if op = updStep then u.outcome != 3 else u.outcome == 0) &&
      (op == updOpen || op == updNorm || !u.init) &&
      (if op = updOpen then decide (u.contrib ≤ 1025) else fld w0 52 36 == 0) &&
      (op == updStep || op == updNorm || fld w0 35 28 == 0) &&
      (op == updStep || op == updRegen || op == updFlush || op == updKvgather || u.params == 0) &&
      (op == updStep || u.ls == 0) && (op == updNorm || op == updKvgather || u.out == 0)
  then some u else none

/-! ### Mapping records (Table 11.2) -/

/-- Reads a mapping record's grain and checks its reserved bits and its version. -/
def mapRecOf (bs : List Byte) : Option MapRec :=
  let d := descOfBytes (bs.take 32)
  let w0 := dw d 0
  let w3 := dw d 3
  let r : MapRec :=
    { oldSplit := fld w0 55 55, oldParts := fld w0 54 52 + 1, newSplit := fld w0 51 51, newParts := fld w0 50 48 + 1,
      stageVa := fld w0 47 0, oldOwner := fld (dw d 1) 63 32, newOwner := fld (dw d 1) 31 0, grows := fld (dw d 2) 63 32,
      gcols := fld (dw d 2) 31 0, missingOk := wbit w3 63, stageGrains := fld w3 31 0 }
  if fld w0 63 56 == 1 && r.stageVa % 256 == 0 && fld w3 62 32 == 0 && (bs.drop 32).all fun b => b == 0
  then some r else none

end Machine
end Sys2Proof
end

