-- ==== Sys2Proof/Machine/Flags.lean ====
section
/-! DEFINITION. Return codes (Table 6.2), the exception predicate (R104), the control thread's status register (R99, R162)
and the step poison latches (R242). -/

namespace Sys2Proof
namespace Machine

def rcOk : Nat := 0
def rcBusy : Nat := 1
def rcClosed : Nat := 2
def rcNoneHeld : Nat := 3
def rcPoisoned : Nat := 4
def rcTierFailed : Nat := 5
def rcAborted : Nat := 6
def rcStaleEpoch : Nat := 7

/-- Fault codes (Table 4.15). -/
def fcIllegal : Nat := 1
def fcDescriptor : Nat := 2
def fcTranslation : Nat := 3
def fcProtection : Nat := 4
def fcAddress : Nat := 5
def fcOverrun : Nat := 6
def fcStarvation : Nat := 7
def fcPoison : Nat := 8
def fcUnitLost : Nat := 9
def fcTierFailed : Nat := 0xA

/-- The predicate that EPE = 1 writes (R104). -/
def writeEpe (epe : Bool) (epsel : Nat) (v : Bool) (t : Thread) : Thread := if epe then setP t epsel v else t

/-- The status register of R162: code and IP of a rejected instruction. -/
def statusWord (code ip : Nat) : Word := w64 (code + (ip % 65536) <<< 16)

/-- Sets the step poison latch of a step (R242). -/
def setLatch (s : State) (n step : Nat) : State :=
  modCtx s n fun x =>
    let l : Latch := { set := true, step := step }
    if step % 2 = 0 then { x with latchEven := l } else { x with latchOdd := l }

/-- The latch of a step's parity. -/
def latchOf (x : Ctx) (step : Nat) : Latch := if step % 2 = 0 then x.latchEven else x.latchOdd

/-- What GFLAG for a step takes from the latch (R242). -/
def latchTaken (s : State) (n step : Nat) : Bool :=
  let l := latchOf (getCtx s n) step
  l.step == step && l.set

/-- GFLAG clears a latch that records its own step. -/
def clearLatch (s : State) (n step : Nat) : State :=
  if (latchOf (getCtx s n) step).step = step then
    modCtx s n fun x =>
      let l : Latch := { set := false, step := step }
      if step % 2 = 0 then { x with latchEven := l } else { x with latchOdd := l }
  else s

/-! ### Open-reduction counts (R152) -/

/-- Changes the open-reduction count of a tensor. -/
def modReductions (s : State) (n id : Nat) (up : Bool) : State :=
  modCtx s n fun x =>
    let v := tget 0 x.reductions id
    { x with reductions := tput x.reductions id (if up then v + 1 else v - 1) }

end Machine
end Sys2Proof
end

