-- ==== Sys2Proof/Machine/LinkOps.lean ====
section
/-! DEFINITION. The sending side of the peer links (R258, R263 to R271): the port map, routes and relay, class credits, the
weighted rotation, and the replay buffer. -/

namespace Sys2Proof
namespace Machine

/-! ### The port map (Table 10.1) -/

/-- The peer at the far end of a port. -/
def farOf (self p : Nat) : Nat := if p = 7 then self ^^^ 4 else self ^^^ (p + 1)

def partnerOf (s : State) : Nat := s.peers.self ^^^ 4

/-- The direct port to a peer that is not this module; P3 to the partner. -/
def portTo (s : State) (j : Nat) : Nat := (s.peers.self ^^^ j) - 1

/-- Port states (Table 10.2). -/
def ptDisabled : Nat := 0
def ptDetect : Nat := 1
def ptTrain : Nat := 2
def ptExchange : Nat := 3
def ptActive : Nat := 4
def ptRetrain : Nat := 5
def ptDown : Nat := 6

def isActive (s : State) (p : Nat) : Bool := (getPort s p).state == ptActive

/-- Whether a port carries traffic, or will once it has retrained. -/
def isUp (s : State) (p : Nat) : Bool := (getPort s p).state == ptActive || (getPort s p).state == ptRetrain

/-- Whether a direct port reaches a peer. -/
def directUp (s : State) (j : Nat) : Bool := isUp s (portTo s j) || (j == partnerOf s && isUp s 7)

/-- Whether this module's own direct port to a peer is ACTIVE, as ROUTES says (Table 10.8). -/
def directActive (s : State) (j : Nat) : Bool := isActive s (portTo s j) || (j == partnerOf s && isActive s 7)

/-- The mask of a ROUTES message. -/
def routesMask (s : State) : BitVec 8 :=
  BitVec.ofNat 8 (((List.range 8).filter fun j => j != s.peers.self && directActive s j).foldl (fun m j => m + 2 ^ j) 0)

/-- Whether the partner can relay for a peer: the partner is present and reached directly, and its latest ROUTES shows its port to
the peer ACTIVE (R270). -/
def relayReach (s : State) (j : Nat) : Bool :=
  j != partnerOf s && bit s.peers.present.toNat (partnerOf s) && directUp s (partnerOf s) &&
  bit s.peers.partnerRoutes.toNat j

/-- Whether flits for a peer go through the partner now (R270, R271). -/
def viaRelay (s : State) (j : Nat) : Bool :=
  j != s.peers.self && relayReach s j && (!directUp s j || bit s.peers.draining.toNat j)

/-- Whether a route reaches a peer. -/
def reaches (s : State) (j : Nat) : Bool := j != s.peers.self && (directUp s j || relayReach s j)

/-- The port toward the partner: P3, or P7 when P3 is down; unordered flits alternate (R271). -/
def partnerPort (s : State) (ordered : Bool) : Nat :=
  if !isUp s 3 then 7
  else if !ordered && isUp s 7 && s.peers.altP7 then 7 else 3

/-- The port of a flit for a peer, if a route reaches it. -/
def routeOf (s : State) (j : Nat) (ordered : Bool) : Option Nat :=
  if !reaches s j then none
  else if j = partnerOf s || viaRelay s j then some (partnerPort s ordered)
  else some (portTo s j)

/-! ### Credits and arbitration (R265, R266) -/

/-- Receive buffer of a class, in flits (Table 10.6). -/
def classBuffer (cls : Nat) : Nat := match cls with | 0 => 64 | 1 => 256 | 2 => 512 | _ => 128

def portCredit (p : Port) (cls : Nat) : Nat := tget (classBuffer cls) p.credits cls

/-- Flits that a replay buffer holds (R268). -/
def replayRoom : Nat := 1024

/-- Whether a flit of a class waits and holds credit. -/
def classReady (p : Port) (cls : Nat) : Bool := decide (0 < portCredit p cls) && p.txWait.any fun q => q.cls == cls

def classWeight (p : Port) (cls : Nat) : Nat := match cls with | 1 => p.wC1 | 2 => p.wC2 | _ => p.wC3

/-- The class of the next flit, and the flits sent per class in its round (R266). -/
def nextClass (p : Port) : Option (Nat × Tbl Nat) :=
  if classReady p 0 then some (0, p.round)
  else
    let ready := [1, 2, 3].filter fun c => classReady p c && decide (0 < classWeight p c)
    match ready.find? fun c => tget 0 p.round c < classWeight p c with
    | some c => some (c, tput p.round c (tget 0 p.round c + 1))
    | none =>
      match ready with
      | c :: _ => some (c, [(c, 1)])
      | [] => ([1, 2, 3].find? fun c => classReady p c).map fun c => (c, p.round)

/-! ### Flit headers (R263, Tables 10.3 and 10.5) -/

/-- What a header says of its body: CHECK, POISON, FORMAT, PART, FTYPE and ROUTE. -/
structure HeaderOf where
  check : BitVec 32
  poison : Bool := false
  format : Nat := 0
  part : Nat := 0
  ftype : Nat
  route : Nat
  deriving DecidableEq, Repr

/-- The header of a control message. -/
def ctlHeader (check : BitVec 32) (code : Nat) : HeaderOf := { check := check, ftype := 6, route := code <<< 32 }

/-- The header of what a flit carries. The spec gives the bodies of MEMREQ and of the control messages no layout: their CHECK is the
free value `check` (log 121). -/
def headerOf (check : BitVec 32) : Out → HeaderOf
  | .queueFlit _ _ _ core ep words c poison first last truncated =>
    { check := c, poison := poison, ftype := 1,
      route := core <<< 30 + ep <<< 25 + (words.length - 1) <<< 23 + b2n first <<< 22 + b2n last <<< 21 + b2n truncated <<< 20 }
  | .memreq _ _ _ _ _ _ => { check := check, ftype := 2, route := 0 }
  | .memdata _ txn _ t => { check := t.check, poison := t.poison, format := t.format, part := t.part, ftype := 3, route := txn <<< 24 }
  | .memack _ txn code => { check := zeroCheck, ftype := 4, route := txn <<< 24 + code <<< 16 }
  | .coldata _ flow grain _ t =>
    { check := t.check, poison := t.poison, format := t.format, part := t.part, ftype := 5, route := flow <<< 28 + grain }
  | .hello _ => ctlHeader check 0x01
  | .absentMsg _ _ _ _ => ctlHeader check 0x02
  | .arriveMsg _ _ => ctlHeader check 0x03
  | .abortMsg _ _ _ _ => ctlHeader check 0x04
  | .gflagMsg _ _ _ _ _ _ => ctlHeader check 0x05
  | .relaydrain _ _ => ctlHeader check 0x06
  | .qcredit _ _ _ _ _ _ => ctlHeader check 0x07
  | .qconfig _ _ _ _ _ _ => ctlHeader check 0x08
  | .qclose _ _ _ _ _ _ => ctlHeader check 0x09
  | .routes _ _ => ctlHeader check 0x0A
  | .relayFlit _ f => { check := f.check, poison := f.poison, format := f.format, part := f.part, ftype := f.ftype, route := f.route }
  | _ => { check := check, ftype := 0, route := 0 }

/-- The header words of a flit (Table 10.3). A forwarded flit keeps the SRC and the ESEQ of its sender. -/
def headerWords (self : Nat) (check : BitVec 32) (q : Sent) : Word × Word :=
  let h := headerOf check q.msg
  let (src, eseq) := match q.msg with | .relayFlit _ f => (f.src, f.eseq) | _ => (self, q.eseq.getD 0)
  (w64 (h.check.toNat <<< 32 + b2n h.poison <<< 31 + h.format <<< 27 + h.part <<< 21 + h.ftype <<< 17 + q.cls <<< 15 + src <<< 12 +
     q.dst <<< 9 + b2n q.relay <<< 8),
   w64 (eseq <<< 52 + q.lseq <<< 40 + h.route))

/-! ### FEC groups and lanes (R260, R264) -/

/-- The bytes of a FEC group: four flits, the link word, the parity. -/
def groupBytes : Nat := 4 * 272 + 8 + 24

/-- The Reed-Solomon codeword that a byte of a group belongs to. -/
def codewordOf (byte : Nat) : Nat := byte % 8

/-- The lanes of a port that carry traffic, in ascending order. -/
def lanesOf (active : BitVec 18) : List Nat := (List.range 18).filter fun k => bit active.toNat k

/-- The lane that byte `b` of a group goes on: the (b mod w)-th active lane (R260). -/
def laneOfByte (active : BitVec 18) (b : Nat) : Option Nat := (lanesOf active)[b % (lanesOf active).length]?

/-- The groups that flits leave in: four to a group, the last completed with IDLE flits. -/
def groupsOf : List Nat → List (List (Option Nat))
  | [] => []
  | [a] => [[some a, none, none, none]]
  | [a, b] => [[some a, some b, none, none]]
  | [a, b, c] => [[some a, some b, some c, none]]
  | a :: b :: c :: d :: l => [some a, some b, some c, some d] :: groupsOf l

/-- A link word's bits (Table 10.4). -/
def linkWordBits (w : LinkWord) : Word :=
  w64 (w.ack <<< 52 + b2n w.nak <<< 51 + w.swapLane <<< 46 + w.cr.getD 0 0 <<< 30 + w.cr.getD 1 0 <<< 20 + w.cr.getD 2 0 <<< 10 + w.cr.getD 3 0)

/-- A QCFG that waits for its QCONFIG to leave the module goes on (R461). -/
def qconfigLeft (s : State) : Out → State
  | .qconfig _ core ep _ _ false =>
    (s.ctxs.filter fun e => match e.2.ctl.thr.st with
      | .parked _ (.qconfigOut c k) _ => c % 1024 == core && k == ep
      | _ => false).foldl (fun s e => wakeAgent s (.ctl e.1) (some 0)) s
  | _ => s

/-- No lane to retire (Table 10.4). -/
def noLane : Nat := 31

/-- The link word of a group that carries flits: the last flit accepted in order. What a receiver asks for, and the buffers it has
freed, travel in the link words that answer its groups. -/
def linkNow (p : Port) : LinkWord :=
  { ack := (p.rxNext + 4095) % 4096, nak := false, swapLane := p.swapLane.getD noLane, cr := [0, 0, 0, 0] }

/-- Flits that have taken their place in the replay buffer leave in groups, each with its link word (R264). -/
def sendGroups (s : State) (k : Nat) (lseqs : List Nat) : State :=
  (groupsOf lseqs).foldl (fun s g => emit s (.fecGroup k g (linkNow (getPort s k)))) s

/-- Sends one flit of a class that waits: LSEQ, credit, its place in the replay buffer. -/
def sendOne (s : State) (k cls : Nat) (round : Tbl Nat) : State :=
  let p := getPort s k
  match p.txWait.find? fun q => q.cls == cls with
  | none => s
  | some q =>
    let h := headerWords s.peers.self (Config.bodyCheck k p.flitsTx) { q with lseq := p.txNext }
    let s := setPort s k { p with
      txWait := dropFirst (fun x => x == q) p.txWait
      txBuf := p.txBuf ++ [{ q with lseq := p.txNext }]
      txNext := (p.txNext + 1) % 4096
      credits := tput p.credits cls (portCredit p cls - 1)
      round := round
      flitsTx := p.flitsTx + 1
      relayed := p.relayed + b2n q.foreign }
    qconfigLeft (emit (emit s (.flit k h.1 h.2)) q.msg) q.msg

/-- Sends what waits at an ACTIVE port while there is credit and room for it. -/
def pumpPort (k : Nat) : Nat → State → State
  | 0, s => s
  | fuel + 1, s =>
    let p := getPort s k
    if p.state != ptActive || decide (replayRoom ≤ p.txBuf.length) then s
    else match nextClass p with
      | none => s
      | some (cls, round) => pumpPort k fuel (sendOne s k cls round)

/-- Sends everything that may leave a port now, in groups (R264). -/
def drainPort (s : State) (k : Nat) : State :=
  let s' := pumpPort k ((getPort s k).txWait.length + 1) s
  let n := (getPort s' k).txBuf.length - (getPort s k).txBuf.length
  let sent := ((getPort s' k).txBuf.drop ((getPort s k).txBuf.length)).map fun q => q.lseq
  if n = 0 then s' else sendGroups s' k sent

/-- A flit goes to its route's port, marked RELAY when it crosses the partner; with no route it has nowhere to go (R270). A flit for
this module itself has no route: the spec names no check of R61 on a REMOTE word whose PEER is this module, and the model drops its
QCONFIG (DESIGN CHOICE, log 122). -/
def linkPut (s : State) (q : Sent) : State :=
  match routeOf s q.dst q.eseq.isSome with
  | none => s
  | some k =>
    let q := { q with relay := q.dst != partnerOf s && viaRelay s q.dst }
    let s := if q.dst = partnerOf s && q.eseq.isNone then modPeers s fun p => { p with altP7 := !p.altP7 } else s
    drainPort (modPort s k fun p => { p with txWait := p.txWait ++ [q] }) k

/-- Sends a message of this module to a peer in a class; an ordered one carries its ESEQ. -/
def linkSend (s : State) (dst cls : Nat) (eseq : Option Nat) (o : Out) : State :=
  linkPut s { lseq := 0, cls := cls, dst := dst, foreign := false, relay := false, eseq := eseq, msg := o }

/-- Sends an unordered C2 flit: tier 3 traffic and collective data. -/
def sendBulk (s : State) (dst : Nat) (o : Out) : State := linkSend s dst 2 none o

end Machine
end Sys2Proof
end

