-- ==== Sys2Proof/Machine/QueueOps.lean ====
section
/-! DEFINITION. Packet queues (R58 to R71): configuration words, opening and closing of ends, words in flight,
notices, credits, release; and the messages of queues between two modules (R461). -/

namespace Sys2Proof
namespace Machine

/-! ### Configuration words (Table 3.1) -/

def cfgDir (w : Word) : Nat := fld w 63 62
def cfgClass (w : Word) : Nat := fld w 61 60
def cfgExp (w : Word) : Nat := fld w 59 56
def cfgMaxWords (w : Word) : Nat := fld w 55 50 + 1
def cfgBase (w : Word) : Nat := 64 * fld w 46 32
def cfgPeer (w : Word) : Nat := fld w 31 29
def cfgRemote (w : Word) : Bool := wbit w 28
def cfgCore (w : Word) : Nat := fld w 27 18
def cfgEp (w : Word) : Nat := fld w 17 13

/-- Words of a receive buffer. -/
def bufWords (w : Word) : Nat := 2 ^ cfgExp w

/-- The partition of a core's context, if it has one. -/
def partOfCore (s : State) (c : Nat) : Option Nat := (getCore s c).owner.map fun n => (getCtx s n).part

/-- The checks of R61 on the word alone and on the endpoints of its core. -/
def cfgFormOk (x : Core) (ep : Nat) (w : Word) : Bool :=
  fld w 49 47 == 0 && fld w 12 0 == 0 &&
  match cfgDir w with
  | 0 => true
  | 1 =>
    decide (4 ≤ cfgExp w) && decide (cfgExp w ≤ 12) && decide (cfgMaxWords w ≤ bufWords w) &&
    decide (cfgBase w + 64 * bufWords w ≤ spSize) &&
    (x.eps.all fun e => e.1 == ep || cfgDir e.2.cfg != 1 ||
      !overlap (cfgBase w) (64 * bufWords w) (cfgBase e.2.cfg) (64 * bufWords e.2.cfg))
  | 2 => cfgExp w == 0 && fld w 46 32 == 0
  | _ => false

/-- Whether the two words of a pair fit each other: one sends, one receives, and the send end's packets fit the receive
buffer (R61). R61 names no check for two ends on two modules with the same DIR: the model takes such a pair as one that fails
its checks (DESIGN CHOICE, log 122). -/
def pairFits (a b : Word) : Bool :=
  (cfgDir a == 1 && cfgDir b == 2 && decide (cfgMaxWords b ≤ bufWords a)) ||
  (cfgDir a == 2 && cfgDir b == 1 && decide (cfgMaxWords a ≤ bufWords b))

/-- Whether the end `(pc, pe)` names the end `(c, ep)` of this module back, the one sending and the other receiving. -/
def namesBack (s : State) (pc pe c ep dir : Nat) : Bool :=
  let e := getEp (getCore s pc) pe
  cfgDir e.cfg != 0 && cfgDir e.cfg != dir && !cfgRemote e.cfg && cfgCore e.cfg == c % 1024 && cfgEp e.cfg == ep

/-- A partner end on this module that the word names and that names this end, of the same partition (R60): on the core that runs,
or in the saved core of a HELD context; with a condition on the end and its core. Of several the first by key, cores that run
before saved ones (DESIGN CHOICE, log 145). -/
def partnerWhere (s : State) (c ep : Nat) (w : Word) (p : Core → Endpoint → Bool) : Option (Nat × Nat) :=
  if cfgRemote w then none
  else
    match s.cores.find? fun e => e.1 % 1024 == cfgCore w && namesBack s e.1 (cfgEp w) c ep (cfgDir w) &&
        partOfCore s e.1 == partOfCore s c && p e.2 (getEp e.2 (cfgEp w)) with
    | some e => some (e.1, cfgEp w)
    | none => none

/-- The partner end of an open queue on this module: the end that opened with this one. -/
def localPartner (s : State) (c ep : Nat) (w : Word) : Option (Nat × Nat) :=
  partnerWhere s c ep w fun x e =>
    e.isOpen && x.owner == (getEp (getCore s c) ep).mate && e.mate == (getCore s c).owner

/-- The end on this module with which a word completes a queue: configured, neither open nor waiting closed (R60, Table 3.3). -/
def newPartner (s : State) (c ep : Nat) (w : Word) : Option (Nat × Nat) :=
  partnerWhere s c ep w fun _ e => !e.isOpen && !e.closed

/-- Whether the word may be written to the endpoint (R61): its form, the partner's partition, and the pair's fit. While no end
names this one back, the partner's partition is that of the context which holds the named core now, whatever HELD context is to
have it back (DESIGN CHOICE, log 146). -/
def cfgOk (s : State) (c ep : Nat) (w : Word) : Bool :=
  cfgFormOk (getCore s c) ep w &&
  (cfgDir w == 0 || cfgRemote w ||
    match newPartner s c ep w with
    | some (pc, pe) => pairFits w (getEp (getCore s pc) pe).cfg
    | none => match partOfCore s (cfgCore w), partOfCore s c with
      | some a, some b => a == b
      | _, _ => true)

/-! ### Sending of control messages -/

/-- Draws the next ESEQ of a destination and class (R271). -/
def nextEseq (s : State) (dst cls : Nat) : Nat × State :=
  let k := 4 * dst + cls
  let n := tget 0 s.peers.eseqTx k
  (n, modPeers s fun p => { p with eseqTx := tput p.eseqTx k ((n + 1) % 4096) })

/-- Sends a C0 control message to a peer. -/
def sendCtl (s : State) (dst : Nat) (o : Out) : State := let (n, s) := nextEseq s dst 0; linkSend s dst 0 (some n) o

/-- QCONFIG of an end, to its partner's module (R461). -/
def sendQconfig (s : State) (c ep : Nat) (answer : Bool) : State :=
  let w := (getEp (getCore s c) ep).cfg
  sendCtl s (cfgPeer w) (.qconfig (cfgPeer w) (c % 1024) ep w ((partOfCore s c).getD 0) answer)

/-- QCLOSE of an end, naming both ends; a send end's carries its words sent since open (R461). -/
def sendQclose (s : State) (c ep : Nat) : State :=
  let e := getEp (getCore s c) ep
  sendCtl s (cfgPeer e.cfg) (.qclose (cfgPeer e.cfg) (c % 1024) ep (cfgCore e.cfg) (cfgEp e.cfg)
    (if cfgDir e.cfg = 2 then e.sentWords else 0))

/-- Sends the words that wait for their flit, under the grain check of the flit's 256 bytes (R69, R70). -/
def flushFlit (s : State) (c ep : Nat) : State :=
  let e := getEp (getCore s c) ep
  match e.flit with
  | [] => s
  | w :: ws =>
    let all := w :: ws
    let dst := cfgPeer e.cfg
    let cls := cfgClass e.cfg
    let (n, s) := nextEseq s dst cls
    let s := modCore s c fun x => setEp x ep { e with flit := [] }
    let s := match (getCore s c).owner with | none => s | some k => chargeLink s k cls 1
    let words := all.map fun q => q.data
    linkSend s dst cls (some n) (.queueFlit dst cls n (cfgCore e.cfg) (cfgEp e.cfg) words (crc32c (fit 256 words.flatten))
      (all.any fun q => q.poison) w.first (all.any fun q => q.last) (all.any fun q => q.truncated))

/-! ### Landing and notices -/

/-- Marks distillation counters at a notice at a student's marked receive end (Table 14.3). -/
def dstNotice (s : State) (c ep : Nat) (p : Packet) : State :=
  match (getCore s c).owner with
  | none => s
  | some n => modCtx s n fun x =>
    if x.dst.role = 2 && bit x.dst.epMask ep then
      { x with dst := { x.dst with
          packets := x.dst.packets + 1, words := x.dst.words + p.words,
          poisoned := x.dst.poisoned + b2n p.poison, truncated := x.dst.truncated + b2n p.truncated } }
    else x

/-- Writes words into the receive buffer, from word `pos` of the queue on. -/
def putWords (cfg : Word) (x : Core) (pos : Nat) : List QWord → Core
  | [] => x
  | q :: qs => putWords cfg (spWrite x (cfgBase cfg + 64 * (pos % bufWords cfg)) (fit 64 q.data) q.poison) (pos + 1) qs

/-- Writes words into the receive buffer of a saved core, which lies in its record (R359). -/
def putSaved (cfg : Word) (n c : Nat) (s : State) (pos : Nat) : List QWord → State
  | [] => s
  | q :: qs =>
    putSaved cfg n c (mergeRun s (coreRecord s n c + cfgBase cfg + 64 * (pos % bufWords cfg)) (fit 64 q.data) q.poison 65) (pos + 1) qs

/-- The words of an arrived packet reach the receive buffer of a core, running or saved. -/
def putArrived (s : State) (c : Nat) (e : Endpoint) : State :=
  match decide (1024 ≤ c), (getCore s c).owner with
  | true, some n => putSaved e.cfg n c s (e.bufPos - e.partialWords) e.arriving
  | _, _ => modCore s c fun x => putWords e.cfg x (e.bufPos - e.partialWords) e.arriving

/-- Gives the notice of the packet that has arrived (R62): its words can be read in the buffer from now on. -/
def giveNotice (s : State) (c ep : Nat) (truncated : Bool) : State :=
  let e := getEp (getCore s c) ep
  let s := putArrived s c e
  let p : Packet :=
    { num := e.seq, off := e.bufPos - e.partialWords, words := e.partialWords, poison := e.partialPoison,
      truncated := truncated, claimed := none, released := false }
  let s := modCore s c fun x => setEp x ep
    { e with packets := e.packets ++ [p], seq := e.seq + 1, partialWords := 0, partialPoison := false, arriving := [] }
  let s := touchCore (dstNotice s c ep p) c
  wakeCore s c fun _ w => w == .packet ep

/-! ### Credits and release -/

/-- Returns credits of a receive end to its send end: in flight on this module, or in a QCREDIT (R64). -/
def returnCredits (s : State) (c ep n : Nat) : State :=
  let e := getEp (getCore s c) ep
  if n = 0 || !e.isOpen then s
  else if cfgRemote e.cfg then
    sendCtl s (cfgPeer e.cfg) (.qcredit (cfgPeer e.cfg) (cfgCore e.cfg) (cfgEp e.cfg) (c % 1024) ep n)
  else match localPartner s c ep e.cfg with
    | none => s
    | some (pc, pe) => modCore s pc fun x =>
      let f := getEp x pe
      setEp x pe { f with creditFlight := f.creditFlight + n }

/-- Words of the released packets at the head of an endpoint. -/
def headWords : List Packet → Nat
  | [] => 0
  | p :: ps => if p.released then p.words + headWords ps else 0

/-- Releases a packet a thread holds; its credits return once every older packet is released too (R64). -/
def releasePacket (s : State) (c ep num : Nat) : State :=
  let e := getEp (getCore s c) ep
  let ps := e.packets.map fun p => if p.num = num && p.claimed.isSome then { p with released := true } else p
  let s := modCore s c fun x => setEp x ep { e with packets := ps.dropWhile fun p => p.released }
  returnCredits s c ep (headWords ps)

/-- Claims the oldest `n` unclaimed packets of an endpoint for a thread. -/
def claimPackets (x : Core) (ep thr : Nat) : Nat → Core
  | 0 => x
  | n + 1 =>
    let e := getEp x ep
    match unclaimed e with
    | [] => x
    | p :: _ =>
      let ps := e.packets.map fun q => if q.num = p.num && q.claimed.isNone then { q with claimed := some thr } else q
      let x := setEp x ep { e with packets := ps }
      let x := setThread x thr (let t := getThread x thr; { t with packets := t.packets ++ [(ep, p.num)] })
      claimPackets x ep thr n

/-- The notice record of a packet (Table 3.2). -/
def noticeRecord (p : Packet) : Word :=
  w64 (b2n p.poison <<< 63 + b2n p.truncated <<< 62 + (p.num % 65536) <<< 32 + p.words)

/-- Where the first word of a packet lies in scratchpad. -/
def packetOff (e : Endpoint) (p : Packet) : Nat := cfgBase e.cfg + 64 * (p.off % bufWords e.cfg)

/-! ### Opening and closing -/

/-- The return code CLOSED (Table 6.2), which a send or a receive that waited on a closed end completes with (R140, R142). -/
def closedCode : Nat := 2

/-- An end that opens: SEQ from 0, credit of the receive buffer at the send end (R64, Table 3.3). A closed receive end that opens
again may hold noticed packets that are not released: the spec does not say what becomes of them, and the model discards them
(DESIGN CHOICE, log 122). Words that came before it opened count as here (R461). -/
def openEnd (e : Endpoint) (credits : Nat) (mate : Option Nat) : Endpoint :=
  { e with isOpen := true, closed := false, credits := credits, seq := 0, sentWords := 0, gotWords := e.earlyWords, earlyWords := 0,
           mate := mate, bufPos := 0,
           partialWords := 0, partialPoison := false, arriving := [], flit := [], packets := [], inFlight := [], creditFlight := 0,
           closeAfter := none, sender := none }

/-- No thread of a core holds a packet of an endpoint any more. -/
def forgetPackets (x : Core) (ep : Nat) : Core :=
  { x with threads := tmap (fun _ t => { t with packets := t.packets.filter fun q => q.1 != ep }) x.threads }

/-- Opens one end of a queue whose other end has the word `far` and, on this module, the context `mate`; a sender parked for credit
resumes. -/
def openEndAt (s : State) (c ep : Nat) (far : Word) (mate : Option Nat) : State :=
  let e := getEp (getCore s c) ep
  let credits := if cfgDir e.cfg = 2 then bufWords far else 0
  let s := touchCore (modCore s c fun x => forgetPackets (setEp x ep (openEnd e credits mate)) ep) c
  wakeCore s c fun _ w => w == .credit ep

/-- Opens a queue on this module once both ends name each other and neither waits closed (R60, Table 3.3). -/
def tryOpen (s : State) (c ep : Nat) : State :=
  let w := (getEp (getCore s c) ep).cfg
  match newPartner s c ep w with
  | none => s
  | some (pc, pe) =>
    let f := getEp (getCore s pc) pe
    if !pairFits w f.cfg then s
    else openEndAt (openEndAt s c ep f.cfg (getCore s pc).owner) pc pe w (getCore s c).owner

/-- The checks of R61 on a pair across two modules: the held word names this end, the two words fit, and the partition numbers
are equal. -/
def remotePairOk (s : State) (c ep : Nat) (v : Word) (h : HeldCfg) : Bool :=
  pairFits v h.word && cfgRemote h.word && cfgPeer h.word == s.peers.self && cfgCore h.word == c % 1024 && cfgEp h.word == ep &&
  partOfCore s c == some h.part

/-- A QCONFIG with ANSWER 0 meets an end that names its sender (R461 step 3): the pair's checks; then the end opens and its own QCONFIG
answers, or the end stays unopened and QCLOSE goes out. -/
def answerConfig (s : State) (c ep : Nat) (h : HeldCfg) : State :=
  let e := getEp (getCore s c) ep
  if remotePairOk s c ep e.cfg h then sendQconfig (if e.isOpen then s else openEndAt s c ep h.word none) c ep true else sendQclose s c ep

/-- A QCONFIG that came while its end was closing is answered once the end has closed (R461). -/
def answerDue (s : State) (c ep : Nat) : State :=
  match (getEp (getCore s c) ep).heldCfg with
  | none => s
  | some h =>
    if h.due then answerConfig (modCore s c fun x => setEp x ep { getEp x ep with heldCfg := some { h with due := false } }) c ep h else s

/-- Closes a receive end whose far end has closed and whose words are all here: a partial packet is noticed with
TRUNCATED (R68), and waiting receivers see CLOSED. -/
def finishClose (s : State) (c ep : Nat) : State :=
  let e := getEp (getCore s c) ep
  match e.closeAfter with
  | some n =>
    if e.inFlight = [] && decide (n ≤ e.gotWords) then
      let s := if 0 < e.partialWords then giveNotice s c ep true else s
      let s := modCore s c fun x => setEp x ep
        { getEp x ep with isOpen := false, closed := true, closeAfter := none }
      answerDue (wakeCore s c fun _ w => w == .packet ep) c ep
    else s
  | none => s

/-- One word arrives in the receive buffer; after the last word of its packet comes the notice, and no instruction reads it before
(R62). -/
def landWord (s : State) (c ep : Nat) (q : QWord) : State :=
  let s := modCore s c fun x => let e := getEp x ep; setEp x ep
    { e with bufPos := e.bufPos + 1, gotWords := e.gotWords + 1, partialWords := e.partialWords + 1,
             partialPoison := e.partialPoison || q.poison, arriving := e.arriving ++ [q] }
  let s := if q.last then giveNotice s c ep q.truncated else s
  finishClose s c ep

/-- The far end of a queue sees its partner's end close (Table 3.3): a receive end once every word so far sent is here;
a send end at once. `words` counts the words the closing send end has sent. -/
def farClosed (s : State) (c ep words : Nat) : State :=
  let e := getEp (getCore s c) ep
  if !e.isOpen then modCore s c fun x => setEp x ep { e with closed := true }
  else if cfgDir e.cfg = 1 then
    finishClose (modCore s c fun x => setEp x ep { e with closeAfter := some words }) c ep
  else
    let s := modCore s c fun x => setEp x ep { e with isOpen := false, closed := true, credits := 0, sender := none }
    wakeCoreWith s c closedCode fun w => w == .credit ep

/-- The queue of this end closes (Table 3.3): words in flight to it and in its buffer are discarded, or what it has sent
is delivered, and the far end is told. -/
def closeEnd (s : State) (c ep : Nat) (tellFar : Bool) : State :=
  let e := getEp (getCore s c) ep
  if cfgDir e.cfg = 0 then s
  else
    let s := if cfgRemote e.cfg && cfgDir e.cfg == 2 && e.isOpen && tellFar then flushFlit s c ep else s
    let s :=
      if cfgRemote e.cfg then (if tellFar && !e.closed then sendQclose s c ep else s)
      else if e.isOpen then
        match localPartner s c ep e.cfg with
        | none => s
        | some (pc, pe) => farClosed s pc pe e.sentWords
      else s
    let s := modCore s c fun x => setEp x ep
      { getEp x ep with isOpen := false, closed := true, packets := [], inFlight := [], partialWords := 0,
                        partialPoison := false, arriving := [], credits := 0, creditFlight := 0, flit := [], closeAfter := none, sender := none }
    let s := touchCore (modCore s c fun x => forgetPackets x ep) c
    wakeCoreWith s c closedCode fun w => w == .packet ep || w == .credit ep

/-- Closes and unconfigures an end. -/
def unconfigEnd (s : State) (c ep : Nat) : State :=
  let s := closeEnd s c ep true
  modCore s c fun x => setEp x ep { Endpoint.reset with heldCfg := (getEp x ep).heldCfg }

/-- Closes and unconfigures every end of a core (R77 step 6, R360). -/
def closeCoreEnds (s : State) (c : Nat) : State :=
  ((getCore s c).eps.map Prod.fst).foldl (fun s ep => unconfigEnd s c ep) s

/-- Writes a configuration word to an endpoint and clears what it held. -/
def writeCfg (s : State) (c ep : Nat) (w : Word) : State :=
  modCore s c fun x => setEp x ep
    { Endpoint.reset with cfg := w, heldCfg := (getEp x ep).heldCfg.map fun h => { h with due := false } }

/-- The context whose control thread waits in QCFG for the answer for an endpoint. -/
def qcfgWaiter (s : State) (c ep : Nat) : Option Nat :=
  match (getCore s c).owner with
  | none => none
  | some n => match (getCtx s n).ctl.thr.st with
    | .parked _ (.qconfig k e) _ => if k % 1024 = c % 1024 && e = ep then some n else none
    | _ => none

/-- A QCFG that waits for the answer of its peer is rejected: its end stays configured and unopened (R461 step 2). -/
def rejectQcfg (s : State) (c ep n : Nat) : State :=
  wakeAgent (modCore s c fun x => setEp x ep { getEp x ep with isOpen := false, credits := 0 }) (.ctl n) (some 1)

/-- One end of a queue to an absent peer. The spec does not say what a QCFG does that waits for the peer's answer: it is rejected, as
when a QCLOSE comes (DESIGN CHOICE, log 122). -/
def closePeerEnd (s : State) (c ep : Nat) : State :=
  match qcfgWaiter s c ep with
  | some n => rejectQcfg s c ep n
  | none => farClosed s c ep (getEp (getCore s c) ep).gotWords

/-- Every open queue to or from a peer closes as if the far end had closed (Table 3.3); a QCFG whose QCONFIG can no longer leave
completes. -/
def closePeerQueues (s : State) (peer : Nat) : State :=
  s.cores.foldl (fun s e => e.2.eps.foldl (fun s f =>
    if cfgDir f.2.cfg != 0 && cfgRemote f.2.cfg && cfgPeer f.2.cfg == peer then
      let s := if f.2.isOpen then closePeerEnd s e.1 f.1 else s
      qconfigLeft s (.qconfig peer (e.1 % 1024) f.1 f.2.cfg 0 false)
    else s) s) s

end Machine
end Sys2Proof
end

