-- ==== Sys2Proof/Machine/HubOps.lean ====
section
/-! DEFINITION. Operations of the hubs: an engine's reads and writes of grains by virtual address, messages to the members
of a collective group, and the geometry of a tensor under Churn (R289 to R291). -/

namespace Sys2Proof
namespace Machine

/-! ### Grains as the engines of hubs and stack bases read and write them -/

/-- Whether the peer of a tier 3 address cannot serve: it is not present (R226, R274). -/
def peerGone (s : State) (p : Nat) : Bool := bit s.peers.absent.toNat p || !bit s.peers.present.toNat p

/-- A grain that an engine reads from a peer's memory: data, tag, and whether the peer serves it at all are free values (R226);
a failed read delivers poison and is counted. -/
def readPeer (s : State) (pa : Nat) : List Byte × GrainTag × State :=
  let (bs, s) := remoteGrain s
  let (w, s) := freeWord s
  if peerGone s (peerOfPa pa) || bit w 11 then (bs, mkTag bs 0 0 true, countFailed s)
  else (bs, mkTag bs (bits w 3 0) (bits w 9 4) (bit w 10), s)

/-- A grain at a physical address, checked (R381, R382): one that fails its check is poisoned, counted and logged; one of a lost
unit without a mirror is a failed read (R226). -/
def readGrain (s : State) (pa : Nat) : List Byte × GrainTag × State :=
  match tierOf pa with
  | 3 => readPeer s pa
  | 4 => readHost s pa
  | _ =>
    let q := servePa s pa
    let (data, t) := (grainAt s q, tagAt s q)
    let s := if q = pa then s else modMem s fun m => { m with mirrorFailovers := m.mirrorFailovers + 1 }
    if unitLost s q then (data, { t with poison := true, check := crc32c data }, countFailed s)
    else if t.check = crc32c data then (data, t, s)
    else (data, { t with poison := true, check := crc32c data }, checkFailed s pa)

/-- A whole grain written at a physical address by an engine; toward a peer or the host it leaves the module. -/
def writeGrainAt (s : State) (pa : Nat) (data : List Byte) (tag : GrainTag) : State :=
  match tierOf pa with
  | 3 =>
    let p := peerOfPa pa
    if peerGone s p then countFailed s
    else
      let txn := s.peers.nextTxn
      let s := modPeers s fun q => { q with nextTxn := (txn + 1) % 65536 }
      sendBulk (sendBulk s p (.memreq p txn ((pa - peerBase) % peerSpan) true 0 256)) p (.memdata p txn data tag)
  | 4 =>
    let (tag, s) := egressTag s pa data tag
    emitHostWrite (putGrain s pa data tag) 0 pa data tag.poison
  | _ => writeGrain s pa data tag

/-- The first byte of its grain that a write request writes. -/
def writeOff (r : MReq) : Nat := match r.dest with | .merge off _ => off | .peer _ _ off => off | _ => 0

/-- The home checks the grain that it merges bytes into (R204): a failed check is counted and logged. -/
def checkHome (s : State) (pa off len : Nat) : State :=
  if (off == 0 && len == 256) || (tagAt s pa).check == crc32c (grainAt s pa) then s else checkFailed s pa

/-- A write request is performed at its home: the bytes at its offset, or the whole grain. An STT takes FORMAT and PART with it
(R205), a store of a control thread PART (R356). Toward a peer, the peer performs it; into host memory, the bytes go there (R134, R159, R462). -/
def performWrite (s : State) (r : MReq) : State :=
  match tierOf r.pa with
  | 3 => s
  | 4 => modMem s fun m => { m with cells := writeBytes m.cells (grainBase r.pa + writeOff r) r.data }
  | _ =>
    if unitLost s r.pa then s
    else
      let s := checkHome s r.pa (writeOff r) r.data.length
      match r.dest with
      | .merge off _ =>
        mergeAs s r.pa off r.data (if r.core.isSome then r.tag else { tagAt s r.pa with part := (getCtx s r.ctx).part, poison := r.tag.poison })
      | .peer _ _ off => mergeAs s r.pa off r.data r.tag
      | .settled => s
      | _ => writeGrain s r.pa r.data r.tag

/-! ### Requests in flight -/

def getMReq (s : State) (id : Nat) : Option MReq := tfind s.mem.reqs id
def setMReq (s : State) (id : Nat) (r : MReq) : State := modMem s fun m => { m with reqs := tput m.reqs id r }

/-- The limit of a tier (R226); tier 1 has none. -/
def lateLimit (s : State) (tier : Nat) : Nat :=
  match tier with | 2 => s.mem.lateT2 | 3 => s.mem.lateT3 | 4 => s.mem.lateT4 | _ => 0

/-- A request leaves for the peer that holds its grain, under a TXN of its own; a write's data follows it. -/
def sendToPeer (s : State) (id : Nat) (r : MReq) : State :=
  let p := peerOfPa r.pa
  let txn := s.peers.nextTxn
  let s := modPeers s fun q => { q with txns := tput q.txns txn id, nextTxn := (txn + 1) % 65536 }
  let len := if r.isWrite then r.data.length else 256
  let s := sendBulk s p (.memreq p txn ((r.pa - peerBase) % peerSpan) r.isWrite (writeOff r) len)
  let s := if r.isWrite then sendBulk s p (.memdata p txn r.data r.tag) else s
  chargeLink s r.ctx 2 (if r.isWrite then 2 else 1)

/-- A request leaves for the host. -/
def sendToHost (s : State) (id : Nat) (r : MReq) : State :=
  if r.isWrite then
    let (tag, s) := egressTag s r.pa r.data r.tag
    emitHostWrite s id (r.pa + writeOff r) r.data tag.poison
  else emit s (.hostRead id r.pa)

/-- A grain at a virtual address, for an operation of a context; its bytes are charged. One that no longer translates reads
as a poisoned grain of zeros. -/
def engineRead (s : State) (n va : Nat) : List Byte × GrainTag × State :=
  match translate s n va false with
  | .error _ => (zeros 256, mkTag (zeros 256) 0 0 true, s)
  | .ok pa => readGrain (chargeTier s n (tierOf pa) 256) pa

/-- A whole grain written at a virtual address, for an operation of a context. -/
def engineWrite (s : State) (n va : Nat) (data : List Byte) (tag : GrainTag) : State :=
  match translate s n va true with
  | .error _ => s
  | .ok pa =>
    let s := chargeTier s n (tierOf pa) 256
    writeGrainAt (if tierOf pa = 3 then chargeLink s n 2 2 else s) pa data tag

/-- A request that counts in a completion group until it is acknowledged. -/
def groupReq (s : State) (ref : CgRef) (r : MReq) : Nat × State :=
  let s := bump (issueCg s ref.agent ref.cg 1)
  let id := s.mem.nextReq
  (id, setMReq (modMem s fun m => { m with nextReq := id + 1 }) id r)

/-- Writes of an operation whose lines the host may still hold count in its group until they are acknowledged (R414, R462): one request
for each grain of the context with a back-invalidate not answered. -/
def settleWrites (s : State) (ref : CgRef) (n : Nat) : State :=
  let mine (a : Nat) : Bool := (getCtx s n).maps.any fun m => decide (m.pa ≤ a) && decide (a < m.pa + m.bytes)
  ((s.host.biLines.map fun l => l / 4 * 256).eraseDups.filter mine).foldl (fun s a =>
    (groupReq s ref
      { agent := some ref.agent, core := none, ctx := n, isWrite := true, va := a, pa := a, tier := tierOf a, data := [],
        tag := tagAt s a, dest := .settled, cg := some ref.cg, sched := none, entry := 0, stamp := now s, source := 1040 + n / 1024,
        limit := lateLimit s (tierOf a), order := s.serial + 1, phase := .waitBi, code := 0 }).2) s

/-- An operation of a hub or of a stack base ends for its group, which then waits for the last of its writes only. -/
def groupEnds (s : State) (ref : CgRef) (n code : Nat) : State := doneCg (settleWrites s ref n) ref.agent ref.cg code

/-- A grain that an operation writes for a completion group. Toward a peer or the host it is a request of the group, which the group
counts until it is acknowledged (R226, R462); to a lost unit it fails, and the group receives TIER_FAILED (R227). -/
def groupWrite (s : State) (ref : CgRef) (n va : Nat) (data : List Byte) (tag : GrainTag) : State :=
  match translate s n va true with
  | .error _ => s
  | .ok pa =>
    let t := tierOf pa
    let s := chargeTier s n t 256
    let r : MReq :=
      { agent := some ref.agent, core := none, ctx := n, isWrite := true, va := va, pa := pa, tier := t, data := data, tag := tag,
        dest := .moved, cg := some ref.cg, sched := none, entry := 0, stamp := now s, source := 1040 + n / 1024,
        limit := lateLimit s t, order := s.serial + 1, phase := .queued, code := 0 }
    if t = 1 || t = 2 then
      if unitLost s pa then noteCg (countFailed s) ref.agent ref.cg rcTierFailed
      else
        writeGrainAt s pa data tag
    else if t = 3 && peerGone s (peerOfPa pa) then
      doneCg (countFailed (issueCg s ref.agent ref.cg 1)) ref.agent ref.cg rcTierFailed
    else
      let (id, s) := groupReq s ref r
      if t = 3 then peerOutCg (sendToPeer s id r) ref.agent ref.cg true else sendToHost s id r

/-- Grains of a list of virtual addresses, in order. -/
def engineReads (s : State) (n : Nat) : List Nat → List (List Byte × GrainTag) × State
  | [] => ([], s)
  | va :: vas =>
    let (d, t, s) := engineRead s n va
    let (l, s) := engineReads s n vas
    ((d, t) :: l, s)

/-- Poisons a grain at a virtual address, its data unchanged; toward a peer or the host, whose data the module does not hold, a
poisoned grain of zeros is written for the group (R154; DESIGN CHOICE, log 123). -/
def enginePoison (s : State) (ref : CgRef) (n va : Nat) : State :=
  match translate s n va true with
  | .error _ => s
  | .ok pa =>
    if tierOf pa = 1 || tierOf pa = 2 then putGrain s pa (grainAt s pa) { tagAt s pa with poison := true }
    else groupWrite s ref n va (zeros 256) (mkTag (zeros 256) 0 (getCtx s n).part true)

/-- The first grain of a list of runs that may not be written, with its code. -/
def runsBad (s : State) (n : Nat) (runs : List (Nat × Nat)) : Option (Nat × Nat) :=
  runs.findSome? fun r => firstBad s n r.1 true r.2

/-- The first grain of a tensor that does not translate, with its code. -/
def tensorBad (s : State) (n : Nat) (t : Tensor) (write : Bool) : Option (Nat × Nat) :=
  (List.range t.grains).findSome? fun g =>
    match translate s n (t.grainVa g) write with
    | .ok _ => none
    | .error c => some (c, t.grainVa g)

/-- Whether a run of grains maps wholly into the tiers of a list. -/
def mapsTo (s : State) (n va grains : Nat) (tiers : List Nat) : Bool :=
  (List.range grains).all fun i =>
    match translate s n (va + 256 * i) false with
    | .ok pa => tiers.contains (tierOf pa)
    | .error _ => false

/-! ### Groups (R275, R282) -/

/-- The active context of this module that holds a collective group. -/
def ctxOfGroup (s : State) (group : Nat) : Option Nat :=
  if group = 0 then none
  else (s.ctxs.find? fun e => e.2.colgroup == group && ctxActive e.2).map Prod.fst

/-- ATTEMPT of a group at this module. -/
def attemptOf (s : State) (group : Nat) : Nat := tget 0 s.hub.attempts group

def raiseAttempt (s : State) (group : Nat) : State :=
  modHub s fun h => { h with attempts := tput h.attempts group (tget 0 h.attempts group + 1) }

/-- Members other than this module. -/
def othersOf (s : State) (mask : Nat) : List Nat := (membersOf mask).filter fun p => p != s.peers.self

/-- Sends a C0 control message of a context's work to each other member of a mask. -/
def castCtl (s : State) (n mask : Nat) (o : Nat → Out) : State :=
  (othersOf s mask).foldl (fun s p => chargeLink (sendCtl s p (o p)) n 0 1) s

/-- Whether a member of a mask has been declared absent (R274). -/
def anyAbsent (s : State) (mask : Nat) : Bool := (othersOf s mask).any fun p => bit s.peers.absent.toNat p

/-- Whether a COLL or GFLAG over a mask ends at once with ABORTED: a member is absent (R274), or no peer is present before full
service (R437). -/
def groupBlocked (s : State) (mask : Nat) : Bool :=
  anyAbsent s mask || (s.pwr.service != 2 && !(othersOf s mask).isEmpty)

/-- Whether a step is aborted at this module. -/
def stepAborted (s : State) (group attempt step : Nat) : Bool := s.hub.aborted.contains (group, attempt, step)

/-- Sends ABORT for a step to members (R284). -/
def sendAbort (s : State) (n mask attempt step : Nat) : State :=
  let g := (getCtx s n).colgroup
  let s := castCtl s n mask fun p => .abortMsg p g attempt step
  modPeers s fun p => { p with aborts := p.aborts + (othersOf s mask).length }

/-! ### Geometry of a tensor under Churn (R289) -/

/-- A grain of the whole tensor: plane (0 elements, 1 scales), row or tile row, column or tile column, grain within a tile. -/
structure GGrain where
  plane : Nat
  r : Nat
  c : Nat
  i : Nat
  deriving DecidableEq, Repr

/-- The whole tensor as Churn views it. -/
structure Geo where
  fmt : Nat
  layout : Nat
  rows : Nat
  cols : Nat
  deriving DecidableEq, Repr

/-- Row units and column units. -/
def Geo.rowUnits (g : Geo) : Nat := if g.layout = 0 then g.rows else cdiv g.rows 128
def Geo.colUnits (g : Geo) : Nat := if g.layout = 0 then cdiv (g.cols * elemBits g.fmt) 2048 else cdiv g.cols 128
/-- Grains of a unit: 1, or those of a tile. -/
def Geo.unitGrains (g : Geo) : Nat := if g.layout = 0 then 1 else tileGrains g.fmt
/-- Grains of a scale row. -/
def Geo.scaleCols (g : Geo) : Nat := if g.layout = 0 && isBlockF g.fmt then cdiv (cdiv g.cols 32) 256 else 0

/-- First unit of part `k` of `p` (R289). -/
def partLo (x p k : Nat) : Nat := k * x / p

/-- Rows and columns of units of a part: first row, rows, first column, columns. -/
def Geo.box (g : Geo) (split p k : Nat) : Nat × Nat × Nat × Nat :=
  if split = 0 then
    (partLo g.rowUnits p k, partLo g.rowUnits p (k + 1) - partLo g.rowUnits p k, 0, g.colUnits)
  else (0, g.rowUnits, partLo g.colUnits p k, partLo g.colUnits p (k + 1) - partLo g.colUnits p k)

/-- Element grains of a part, and all its grains. -/
def Geo.partData (g : Geo) (split p k : Nat) : Nat :=
  let (_, nr, _, nc) := g.box split p k
  nr * nc * g.unitGrains
def Geo.partGrains (g : Geo) (split p k : Nat) : Nat :=
  let (_, nr, _, _) := g.box split p k
  g.partData split p k + nr * g.scaleCols

/-- The grain at position `j` of a part. -/
def Geo.at (g : Geo) (split p k j : Nat) : GGrain :=
  let (r0, _, c0, nc) := g.box split p k
  let n := g.partData split p k
  if j < n then
    let u := j / g.unitGrains
    { plane := 0, r := r0 + u / nc, c := c0 + u % nc, i := j % g.unitGrains }
  else { plane := 1, r := r0 + (j - n) / g.scaleCols, c := (j - n) % g.scaleCols, i := 0 }

/-- The position of a grain in a part, if it lies there. -/
def Geo.pos (g : Geo) (split p k : Nat) (x : GGrain) : Option Nat :=
  let (r0, nr, c0, nc) := g.box split p k
  if r0 ≤ x.r && x.r < r0 + nr then
    if x.plane = 1 then some (g.partData split p k + (x.r - r0) * g.scaleCols + x.c)
    else if c0 ≤ x.c && x.c < c0 + nc then some (((x.r - r0) * nc + (x.c - c0)) * g.unitGrains + x.i) else none
  else none

/-- The part that holds a grain. -/
def Geo.partOf (g : Geo) (split p : Nat) (x : GGrain) : Nat :=
  ((List.range p).find? fun k => (g.pos split p k x).isSome).getD 0

/-- The nibble of a peer in an owner word. -/
def nibble (w p : Nat) : Nat := bits w (4 * p + 3) (4 * p)

/-- Where the grain of a new position comes from (R290). -/
inductive Source where
  | kept
  | peer (p old : Nat)
  | missing
  deriving DecidableEq, Repr

/-- Whether two positions lie at the same address: in the same plane, as far from its base (R289). Scale grains lie at SCALE_BASE,
whatever the number of element grains. -/
def samePlace (oldData newData i j : Nat) : Bool :=
  if i < oldData then decide (j < newData) && i == j else !decide (j < newData) && i - oldData == j - newData

/-- The source of position `j` of the new layout on module `d`, with its position in the source's old layout. -/
def sourceOf (g : Geo) (m : MapRec) (members : List Nat) (d j : Nat) : Source :=
  let x := g.at m.newSplit m.newParts (nibble m.newOwner d) j
  let mine := nibble m.oldOwner d
  let own := if mine = 0xF then none else g.pos m.oldSplit m.oldParts mine x
  match own with
  | some i =>
    if samePlace (g.partData m.oldSplit m.oldParts mine) (g.partData m.newSplit m.newParts (nibble m.newOwner d)) i j then .kept
    else .peer d i
  | none =>
    let k := g.partOf m.oldSplit m.oldParts x
    let h := members.filter fun p => nibble m.oldOwner p == k
    match h[d % h.length]? with
    | none => .missing
    | some p => .peer p ((g.pos m.oldSplit m.oldParts k x).getD 0)

/-- Grains of a module's new layout. -/
def newGrains (g : Geo) (m : MapRec) (d : Nat) : Nat :=
  if nibble m.newOwner d = 0xF then 0 else g.partGrains m.newSplit m.newParts (nibble m.newOwner d)

/-- Grains of a module's old layout. -/
def oldGrains (g : Geo) (m : MapRec) (d : Nat) : Nat :=
  if nibble m.oldOwner d = 0xF then 0 else g.partGrains m.oldSplit m.oldParts (nibble m.oldOwner d)

/-- The virtual address of a local position, in the old or the new layout of module `d`. -/
def posVa (g : Geo) (m : MapRec) (t : Tensor) (isNew : Bool) (d j : Nat) : Nat :=
  let n := if isNew then g.partData m.newSplit m.newParts (nibble m.newOwner d)
           else g.partData m.oldSplit m.oldParts (nibble m.oldOwner d)
  if j < n then t.base + 256 * j else t.scale + 256 * (j - n)

/-- The geometry that a mapping record and a tensor give. -/
def geoOf (m : MapRec) (t : Tensor) : Geo := { fmt := t.fmt, layout := t.layout, rows := m.grows, cols := m.gcols }

/-- Whether the re-shard is the no-op of R97. -/
def mapEmpty (m : MapRec) : Bool := m.grows == 0 || m.gcols == 0

/-- The whole tensor's grain count, as ARRIVE carries it. -/
def Geo.total (g : Geo) : Nat := g.rowUnits * g.colUnits * g.unitGrains + g.rowUnits * g.scaleCols

/-- The checks of R291 on a record with its tensor and members, apart from the mapping of its ranges. -/
def mapRecOk (m : MapRec) (t : Tensor) (members : List Nat) : Bool :=
  let okN (w parts p : Nat) : Bool := nibble w p == 0xF || decide (nibble w p < parts)
  members.all (fun p => okN m.oldOwner m.oldParts p && okN m.newOwner m.newParts p) &&
  ((List.range m.newParts).all fun k => members.any fun p => nibble m.newOwner p == k) &&
  (m.missingOk || mapEmpty m || (List.range m.oldParts).all fun k =>
    (geoOf m t).partGrains m.oldSplit m.oldParts k == 0 || members.any fun p => nibble m.oldOwner p == k) &&
  !((m.oldSplit == 1 || m.newSplit == 1) && isBlockF t.fmt && t.layout == 0)

/-- The ranges of a re-shard on this module: base and grains of elements, of scales, of staging. -/
def reshardRuns (self : Nat) (m : MapRec) (t : Tensor) : List (Nat × Nat) :=
  let g := geoOf m t
  let dataN (split parts owner : Nat) := if nibble owner self = 0xF then 0 else g.partData split parts (nibble owner self)
  let d := max (dataN m.oldSplit m.oldParts m.oldOwner) (dataN m.newSplit m.newParts m.newOwner)
  let sc := max (oldGrains g m self - dataN m.oldSplit m.oldParts m.oldOwner)
                (newGrains g m self - dataN m.newSplit m.newParts m.newOwner)
  [(t.base, d), (t.scale, sc), (m.stageVa, m.stageGrains)]

/-- The checks of R291 on where the ranges of a re-shard map. -/
def reshardRangesOk (s : State) (n : Nat) (m : MapRec) (t : Tensor) : Bool :=
  let self := s.peers.self
  let rs := reshardRuns self m t
  (rs.all fun r => mapsTo s n r.1 r.2 [1, 2]) && decide (newGrains (geoOf m t) m self ≤ m.stageGrains) &&
  ((rs.take 2).all fun r => !overlap r.1 (256 * r.2) m.stageVa (256 * m.stageGrains))

/-- Whether requests of a context to a virtual address are held behind a RESHARD that has passed its fence (R294). -/
def reshardHolds (s : State) (n va : Nat) : Bool :=
  s.hub.reshards.any fun e =>
    let r := e.2
    r.ctx == n && r.phase != .fence && match tensorOf r.tensor with
      | none => false
      | some t => (reshardRuns s.peers.self r.mapRec t).any fun q => overlap q.1 (256 * q.2) (va / 256 * 256) 256

/-- Whether a RESHARD of a tensor of a context has passed its fence and not completed (R152). -/
def reshardOf (s : State) (n id : Nat) : Bool :=
  s.hub.reshards.any fun e => e.2.ctx == n && e.2.phase != .fence && fld (dw e.2.tensor 3) 63 48 == id

end Machine
end Sys2Proof
end

