-- ==== Sys2Proof/Machine/RolloutOps.lean ====
section
/-! DEFINITION. Models and requests: handles, spaces and their pages (R346, R230), the model's and the request's status
words, KV page sets (R310 to R316), token rings (R318 to R322), the ends and evictions of requests and models. -/

namespace Sys2Proof
namespace Machine

/-! ### Models -/

def mdlLoading : Nat := 1
def mdlResident : Nat := 2
def mdlReplacing : Nat := 3
def mdlGone : Nat := 4

/-- In LOADING, RESIDENT or REPLACING (R328). -/
def mdlAlive (m : Model) : Bool := m.state == mdlLoading || m.state == mdlResident || m.state == mdlReplacing

/-- The handle of a model index (R326). -/
def handleOf (ix : Nat) (m : Model) : Nat := m.gen * 256 + ix

/-- The resident model that a handle names within a partition (R326). -/
def modelByHandle (s : State) (part h : Nat) : Option (Nat × Model) :=
  match tfind s.models (h % 256) with
  | some m => if m.gen = h / 256 && m.part = part && mdlAlive m && h < 65536 then some (h % 256, m) else none
  | none => none

/-- The model of a partition's table slot. -/
def modelBySlot (s : State) (part slot : Nat) : Option (Nat × Model) :=
  s.models.find? fun e => e.2.part == part && e.2.slot == slot && mdlAlive e.2

def setModel (s : State) (ix : Nat) (m : Model) : State := { s with models := tput s.models ix m }

def modModel (s : State) (ix : Nat) (f : Model → Model) : State :=
  match tfind s.models ix with
  | some m => setModel s ix (f m)
  | none => s

/-- The base of a model: its private copy, its BASE, or itself (R333, R334). -/
def baseOf (s : State) (ix : Nat) (m : Model) : Nat × Model :=
  if m.kind = 1 then
    match modelByHandle s m.part (if m.copyHandle = 0 then m.base else m.copyHandle) with
    | some b => b
    | none => (ix, m)
  else (ix, m)

/-- The epoch a binding on a model records (R333, R337). -/
def bindEpochOf (s : State) (ix : Nat) (m : Model) : Nat := (baseOf s ix m).2.epoch

/-- Pages of a span of bytes. -/
def pagesOf (bytes : Nat) : Nat := cdiv bytes pageBytes

/-- Grains a model occupies, mirror, pool and staging included. -/
def residentGrains (m : Model) : Nat :=
  8192 * (m.layerPages.length + m.mirrorPages.length + m.poolPages.length + m.stagePages.length)

/-- W16 to W19 of the model's table slot (Table 13.1). -/
def modelWords (ix : Nat) (m : Model) : List Byte :=
  leBytes 8 (m.state <<< 60 + m.endCode <<< 56 + handleOf ix m <<< 32 + m.epoch % 2 ^ 32) ++
  leBytes 8 (m.copyHandle <<< 48 + m.replStatus <<< 44 + m.layers.length <<< 16 + m.installed) ++
  leBytes 8 m.lastUse ++ leBytes 8 ((m.use % 2 ^ 32) <<< 32 + residentGrains m % 2 ^ 32)

/-- Firmware writes the model's status into its slot, which lies within the partition's memory windows (R326). -/
def syncModel (s : State) (ix : Nat) : State :=
  match tfind s.models ix with
  | none => s
  | some m =>
    let a := (getPart s m.part).mdlBase + 256 * m.slot
    if m.copyOf || !inWindows s m.part a 256 then s else fwDo s 0 [.write (a + 128) (modelWords ix m)]

/-- The model status grain (Table 13.4). -/
def statusGrain (ix : Nat) (m : Model) : List Byte :=
  fit 256 (leBytes 8 (m.state <<< 60 + handleOf ix m <<< 32 + m.epoch % 2 ^ 32) ++
    leBytes 8 (m.epoch * 65536 + m.installed) ++ leBytes 8 m.layers.length)

/-- Pages in use by the models of the module. -/
def usedPages (s : State) : List Nat :=
  s.models.flatMap fun e => e.2.layerPages ++ e.2.mirrorPages ++ e.2.poolPages ++ e.2.stagePages

/-- The lowest page from `p` on, below `stop`, that is not in use. -/
def lowestFree (used : List Nat) (stop : Nat) : Nat → Nat → Option Nat
  | _, 0 => none
  | p, fuel + 1 => if stop ≤ p then none else if used.contains p then lowestFree used stop (p + 1) fuel else some p

/-- A page of a tier 1 region from logical stack `k`. -/
def stackPage (used : List Nat) (first stop k : Nat) : Option Nat :=
  lowestFree used (min stop ((k + 1) * 32768)) (max first (k * 32768)) (used.length + 1)

/-- The next page of a space in a tier 1 region: from stack `k`, or the next in rotation with a free page (R346). -/
def rotatePage (used : List Nat) (first stop k : Nat) : Option (Nat × Nat) :=
  (List.range 16).findSome? fun i =>
    (stackPage used first stop ((k + i) % 16)).map fun p => (p, (k + i + 1) % 16)

/-- `n` pages of one space in a tier 1 region, the first from stack `k`. -/
def takeT1 (used : List Nat) (first stop : Nat) : Nat → Nat → Option (List Nat)
  | _, 0 => some []
  | k, n + 1 =>
    match rotatePage used first stop k with
    | none => none
    | some (p, k') => (takeT1 (p :: used) first stop k' n).map fun l => p :: l

/-- `n` pages of one space in a tier 2 region, in ascending address. -/
def takeT2 (used : List Nat) (first stop : Nat) : Nat → Option (List Nat)
  | 0 => some []
  | n + 1 =>
    match lowestFree used stop first (used.length + 1) with
    | none => none
    | some p => (takeT2 (p :: used) first stop n).map fun l => p :: l

/-- First and stop page of a partition's model region. -/
def regionOf (s : State) (part tier : Nat) : Nat × Nat :=
  let p := getPart s part
  if tier = 0 then (cdiv p.t1Base pageBytes, (p.t1Base + p.t1Size) / pageBytes)
  else (cdiv p.t2Base pageBytes, (p.t2Base + p.t2Size) / pageBytes)

/-- `n` pages of a space (R346). -/
def takePages (s : State) (used : List Nat) (part tier ix n : Nat) : Option (List Nat) :=
  let (a, b) := regionOf s part tier
  if tier = 0 then takeT1 used a b (ix % 16) n else takeT2 used a b n

/-- Whether page `q` may mirror page `p` (R230): another stack, or another channel grain by grain. -/
def mirrorOk (s : State) (tier p q : Nat) : Bool :=
  if tier = 0 then stackOf (p * pageBytes) != stackOf (q * pageBytes)
  else (List.range 8192).all fun i =>
    (channelOf s.mem.hintGroups (p * pageBytes + 256 * i)).1 != (channelOf s.mem.hintGroups (q * pageBytes + 256 * i)).1

/-- The lowest free page from `q` on, below `stop`, that may mirror a tier 2 page `p`. -/
def mirrorFrom (s : State) (p : Nat) (used : List Nat) (stop : Nat) : Nat → Nat → Option Nat
  | _, 0 => none
  | q, fuel + 1 =>
    if stop ≤ q then none
    else if !used.contains q && mirrorOk s 1 p q then some q else mirrorFrom s p used stop (q + 1) fuel

/-- A mirror page for each page of a list: in tier 1 on the next stack in rotation that has a free page (R230). -/
def takeMirror (s : State) (used : List Nat) (part tier : Nat) : List Nat → Option (List Nat)
  | [] => some []
  | p :: ps =>
    let (a, b) := regionOf s part tier
    let other (i : Nat) : Option Nat := stackPage used a b ((stackOf (p * pageBytes) + i + 1) % 16)
    match (if tier = 0 then (List.range 15).findSome? other else mirrorFrom s p used b a (b - a)) with
    | none => none
    | some q => (takeMirror s (q :: used) part tier ps).map fun l => q :: l

/-- The span of a model's layers in bytes (R329). -/
def layerSpan (ls : List Layer) : Nat := ls.foldl (fun n l => if l.grains = 0 then n else max n (l.offset + 256 * l.grains)) 0

/-- The physical address of byte `off` of a space of pages. -/
def spacePa (pages : List Nat) (off : Nat) : Nat := pages.getD (off / pageBytes) 0 * pageBytes + off % pageBytes

/-! ### Attachments (R331) -/

/-- The mappings of a model's layers in a context. -/
def layerMaps (m : Model) (write : Bool) : List Mapping :=
  (List.range m.layerPages.length).map fun i =>
    { va := m.mapVa + i * pageBytes, pa := m.layerPages.getD i 0 * pageBytes, bytes := pageBytes, write := write,
      model := true }

/-- The mappings of a model's KV pool in a serving context. -/
def poolMaps (m : Model) : List Mapping :=
  (List.range m.poolPages.length).map fun i =>
    { va := m.poolVa + i * pageBytes, pa := m.poolPages.getD i 0 * pageBytes, bytes := pageBytes, write := true,
      model := false }

/-- Maps a model's KV pool into a context, unless it is mapped (R311, R333). -/
def mapPool (s : State) (ix n : Nat) : State :=
  match tfind s.models ix with
  | none => s
  | some m => modCtx s n fun x =>
      { x with maps := (x.maps.filter fun q => !m.poolPages.contains (q.pa / pageBytes)) ++ poolMaps m }

/-- Attaches one model to a context. -/
def attachOne (s : State) (ix n : Nat) (serve write : Bool) : State :=
  match tfind s.models ix with
  | none => s
  | some m =>
    let s := setModel s ix { m with attached := (m.attached.filter fun a => a.1 != n) ++ [(n, serve)] }
    modCtx s n fun x =>
      let keep := x.maps.filter fun q => !(m.layerPages ++ m.poolPages).contains (q.pa / pageBytes)
      { x with maps := keep ++ layerMaps m write ++ (if serve then poolMaps m else []) }

/-- Detaches one model from a context: mapping and serving (R331). What the context's steps still owe stays owed (R338). -/
def detachOne (s : State) (ix n : Nat) : State :=
  match tfind s.models ix with
  | none => s
  | some m =>
    let s := setModel s ix { m with attached := m.attached.filter fun a => a.1 != n }
    modCtx s n fun x => { x with maps := x.maps.filter fun q => !(m.layerPages ++ m.poolPages).contains (q.pa / pageBytes) }

/-- The LEAVEs that a context's open steps still owe are added (R338): no step of it is open, and its counts begin again. -/
def settleSteps (s : State) (n : Nat) : State :=
  { s with models := tmap (fun _ m => { m with
      started := m.started.filter fun a => a.1 != n, passed := m.passed.filter fun a => a.1 != n }) s.models }

/-- Whether a model is attached to a context. -/
def attachedTo (m : Model) (n : Nat) : Bool := m.attached.any fun a => a.1 == n

/-! ### Requests -/

def rqFree : Nat := 0
def rqQueued : Nat := 1
def rqPrefill : Nat := 2
def rqDecode : Nat := 3
def rqRingWait : Nat := 4
def rqEvicted : Nat := 5
def rqCancelling : Nat := 6
def rqDone : Nat := 7

/-- Live: accepted and not ended. -/
def rqLive (r : Request) : Bool := r.state != rqDone && r.state != rqFree

def getReq (s : State) (id : Nat) : Option Request := tfind s.rollout.requests id

def setReq (s : State) (id : Nat) (r : Request) : State := modRo s fun ro => { ro with requests := tput ro.requests id r }

def modReq (s : State) (id : Nat) (f : Request → Request) : State :=
  match getReq s id with
  | some r => setReq s id (f r)
  | none => s

/-- Live requests of a partition (RQ.STATUS.ACTIVE). -/
def activeReqs (s : State) (part : Nat) : Nat :=
  (s.rollout.requests.filter fun e => e.2.part == part && rqLive e.2).length

/-- The live request of a table slot. -/
def reqBySlot (s : State) (part slot : Nat) : Option (Nat × Request) :=
  s.rollout.requests.find? fun e => e.2.part == part && e.2.slot == slot && rqLive e.2

/-- Whether a live request names a model handle of a partition. -/
def namedByLive (s : State) (part h : Nat) : Bool :=
  s.rollout.requests.any fun e => rqLive e.2 && e.2.part == part && e.2.model == h

/-- W16 to W20 of the request's slot (Table 12.1). -/
def reqWords (id : Nat) (r : Request) : List Byte :=
  leBytes 8 (r.state <<< 60 + r.endCode <<< 56 + id <<< 32 + r.tokensOut % 2 ^ 32) ++ leBytes 8 r.pfxOut.toNat ++
  leBytes 8 ((r.recomputes % 2 ^ 32) <<< 32 + r.kvLen % 2 ^ 32) ++ leBytes 8 r.acceptTick ++ leBytes 8 r.endTick

/-- Firmware writes the request's status into its slot, which lies within the partition's memory windows (R301). -/
def syncReq (s : State) (id : Nat) : State :=
  match getReq s id with
  | none => s
  | some r =>
    let a := (getPart s r.part).rqBase + 256 * r.slot
    if inWindows s r.part a 256 then fwDo s (homeCore r.ctx) [.write (a + 128) (reqWords id r)] else s

/-! ### Token rings (R318 to R322) -/

/-- Entries of a ring. -/
def ringEntries (r : Request) : Nat := 2 ^ (r.ringOrder + 4)

/-- Re-reads READ: one beyond TAIL as TAIL (R324); a poisoned word reads as its previous value, and is logged (R384). -/
def rereadRing (s : State) (id : Nat) : State :=
  match getReq s id with
  | none => s
  | some r =>
    let (bs, bad, s) := fwFetch s (r.ringPa + 8) 8
    if bad then logEvent s 0x01 noUnit r.part r.ctx r.ringPa
    else setReq s id { r with readSeen := min (leNat bs) r.tail }

/-- Whether one more token entry fits beside `extra` drafts (R320, R321). -/
def ringFits (r : Request) (extra : Nat) : Bool := decide (r.tail + extra + 2 ≤ r.readSeen + ringEntries r)

/-- One ring entry (Table 12.6a). -/
def ringEntry (token pos kind : Nat) (late fallback : Bool) (epoch endCode logprob : Nat) : List Byte :=
  leBytes 8 ((token % 2 ^ 32) <<< 32 + pos % 2 ^ 32) ++
  leBytes 8 (kind <<< 60 + b2n late <<< 59 + b2n fallback <<< 58 + (epoch % 256) <<< 50 + endCode <<< 32 + logprob)

/-- Writes an entry at TAIL, then TAIL once the entry is performed at HOST scope (R320). -/
def putEntry (s : State) (id : Nat) (bs : List Byte) : State :=
  match getReq s id with
  | none => s
  | some r =>
    let s := fwDo s (homeCore r.ctx)
      [.write (r.ringPa + 256 + 16 * (r.tail % ringEntries r)) bs, .write r.ringPa (leBytes 8 (r.tail + 1))]
    setReq s id { r with tail := r.tail + 1 }

/-- Publishes one committed token (R320). -/
def publishToken (s : State) (id : Nat) (d : Draft) (pos : Nat) : State :=
  match getReq s id with
  | none => s
  | some r =>
    let s := putEntry s id (ringEntry d.token pos 1 d.late d.fallback d.epoch 0 d.logprob.toNat)
    let s := modReq s id fun r => { r with tokensOut := r.tokensOut + 1 }
    if r.irqEn && decide (0 < r.irqEvery) && (r.tail + 1) % r.irqEvery == 0 then fwDo s (homeCore r.ctx) [.msix r.part r.irqVec]
    else s

/-! ### Page sets (R310 to R315) -/

/-- Bits of an element by format code (Table 4.5). -/
def fmtBits (f : Nat) : Nat :=
  match f with
  | 1 => 32 | 2 => 16 | 3 => 16 | 6 => 6 | 7 => 6 | 8 => 4 | 0xA => 4 | 0xB => 32 | _ => 8

/-- Whether a format carries E8M0 scales (R83). -/
def fmtScaled (f : Nat) : Bool := f == 6 || f == 7 || f == 8

/-- Bytes of a KV row: a multiple of 64. -/
def kvPitch (m : Model) (f : Nat) : Nat := cdiv (m.kvElems * fmtBits f) 512 * 64

/-- Grains of a page of 2^e rows. -/
def kvPageGrains (m : Model) (f e : Nat) : Nat :=
  cdiv (256 + 2 ^ e * kvPitch m f + (if fmtScaled f then 2 ^ e * 64 else 0)) 256

/-- Grains of a page set: a key and a value page for every layer. -/
def setGrains (m : Model) (kf vf e : Nat) : Nat := m.layers.length * (kvPageGrains m kf e + kvPageGrains m vf e)

/-- The model whose pool serves a request (R333). -/
def poolModel (s : State) (r : Request) : Option (Nat × Model) :=
  match modelByHandle s r.part r.model with
  | none => none
  | some (ix, m) => if m.kind = 1 && m.poolGrains = 0 then some (baseOf s ix m) else some (ix, m)

/-- The lowest place in a pool of `size` grains where `n` grains fit between the sets placed there. -/
def findPlace (taken : List (Nat × Nat)) (size n : Nat) : Option Nat :=
  let cands := 0 :: taken.map fun t => t.1 + t.2
  minBy id (cands.filter fun p => decide (p + n ≤ size) && taken.all fun t => !overlap p n t.1 t.2)

/-- The sets placed in a pool. -/
def poolTaken (s : State) (pool : Nat) : List (Nat × Nat) :=
  (s.rollout.sets.filter fun e => e.2.pool == pool).map fun e => (e.2.place, e.2.grains)

/-- The physical address of a grain of a set. -/
def setPa (m : Model) (p : PageSet) (g : Nat) : Nat := spacePa m.poolPages (256 * (p.place + g))

/-- The header grain of page `i` of a set (Table 12.5). -/
def pageHeader (m : Model) (p : PageSet) (i : Nat) : List Byte :=
  let f := if i % 2 = 0 then p.kfmt else p.vfmt
  let pitch := kvPitch m f
  fit 256 (leBytes 8 (p.exp <<< 60 + f <<< 56 + (i % 2) <<< 55 + (i / 2) <<< 32 + p.refs <<< 16) ++
    leBytes 8 (pitch <<< 32 + p.firstPos) ++
    leBytes 8 ((p.epoch % 2 ^ 32) <<< 32 + (if fmtScaled f then 256 + 2 ^ p.exp * pitch else 0)))

/-- The grain at which page `i` of a set begins. -/
def pageStart (m : Model) (p : PageSet) (i : Nat) : Nat :=
  (i / 2) * (kvPageGrains m p.kfmt p.exp + kvPageGrains m p.vfmt p.exp) +
    (if i % 2 = 0 then 0 else kvPageGrains m p.kfmt p.exp)

/-- Firmware writes the page headers of a set. -/
def writeHeaders (s : State) (m : Model) (p : PageSet) : State :=
  (List.range (2 * m.layers.length)).foldl (fun s i =>
    let d := pageHeader m p i
    writeGrain s (setPa m p (pageStart m p i)) d (mkTag d 0 m.part false)) s

/-- Changes the number of holders of a set; a set with none is freed. -/
def refSet (s : State) (id : Nat) (up : Bool) : State :=
  match tfind s.rollout.sets id with
  | none => s
  | some p =>
    let p := { p with refs := if up then p.refs + 1 else p.refs - 1 }
    if p.refs = 0 then modRo s fun ro => { ro with sets := tdel ro.sets id }
    else
      let s := modRo s fun ro => { ro with sets := tput ro.sets id p }
      match tfind s.models p.pool with
      | none => s
      | some m => writeHeaders s m p

def refSets (s : State) (ids : List Nat) (up : Bool) : State := ids.foldl (fun s i => refSet s i up) s

/-- Positions that sets cover. -/
def setsCapacity (s : State) (ids : List Nat) : Nat :=
  ids.foldl (fun n i => match tfind s.rollout.sets i with | none => n | some p => n + 2 ^ p.exp) 0

/-- Places a set in a pool; none when no run of free grains is long enough. -/
def placeSet (s : State) (pool : Nat) (m : Model) (e firstPos kf vf epoch : Nat) : Option (Nat × State) :=
  let n := setGrains m kf vf e
  match findPlace (poolTaken s pool) m.poolGrains n with
  | none => none
  | some place =>
    let id := s.rollout.nextSet
    let p : PageSet := { pool := pool, place := place, grains := n, exp := e, firstPos := firstPos, kfmt := kf,
                         vfmt := vf, epoch := epoch, refs := 1 }
    let s := modRo s fun ro => { ro with
      sets := tput ro.sets id p, nextSet := id + 1, setsAllocated := ro.setsAllocated + 1 }
    some (id, writeHeaders s m p)

/-- The largest free set of at most 2^e positions, at least 16 (R314). -/
def placeUpTo (s : State) (pool : Nat) (m : Model) (firstPos kf vf epoch : Nat) : Nat → Option (Nat × State)
  | 0 => none
  | e + 1 =>
    if e + 1 < 4 then none
    else match placeSet s pool m (e + 1) firstPos kf vf epoch with
      | some r => some r
      | none => placeUpTo s pool m firstPos kf vf epoch e

/-! ### Ends, evictions and moves of requests -/

/-- Releases the references a request holds. -/
def releaseSets (s : State) (id : Nat) : State :=
  match getReq s id with
  | none => s
  | some r =>
    refSets (setReq s id { r with sets := [], pfxSets := [], capacity := 0 }) r.sets false

/-- The request ends (R322): terminal entry, TAIL, status words, references, message. Its drafts are discarded, and KV_LEN counts them
no longer (R308). -/
def endRequest (s : State) (id code : Nat) : State :=
  match getReq s id with
  | none => s
  | some r =>
    if !rqLive r then s
    else
      let s := putEntry s id (ringEntry 0 r.tokensOut 0xF false r.fallenBack 0 code 0)
      let s := modReq s id fun r => { r with
        state := rqDone, endCode := code, endTick := now s, bound := false, drafts := [], heldEntry := none
        kvLen := r.kvLen - r.drafts.length }
      let s := syncReq s id
      let s := releaseSets s id
      let s := modPart s r.part fun p => { p with
        rqEnded := p.rqEnded + 1, dlEnded := if code = 3 then p.dlEnded + 1 else p.dlEnded }
      if r.irqEn then fwDo s (homeCore r.ctx) [.msix r.part r.irqVec] else s

/-- Whether a page set has one holder. -/
def onlyHolder (s : State) (i : Nat) : Bool := (tfind s.rollout.sets i).any fun p => p.refs == 1

/-- Evicts a request (R315): REFCNT-1 sets are freed, shared references released, drafts discarded. The references to shared sets
that came with its prefix handle stay. -/
def evictReq (s : State) (id : Nat) (self : Bool) : State :=
  match getReq s id with
  | none => s
  | some r =>
    let kept (i : Nat) : Bool := r.pfxSets.contains i && !onlyHolder s i
    let keep := r.sets.filter kept
    let drop := r.sets.filter fun i => !kept i
    let s := refSets s drop false
    let s := setReq s id { r with
      state := rqEvicted, sets := keep, capacity := setsCapacity s keep, drafts := [], bound := false,
      recomputes := r.recomputes + 1, kvLen := r.pfxTokens, evictOnEnd := false }
    let s := modPart s r.part fun p => { p with rqEvictions := p.rqEvictions + 1 }
    let s := modRo s fun ro =>
      if self then { ro with selfEvictions := ro.selfEvictions + 1 } else { ro with evictions := ro.evictions + 1 }
    syncReq s id

/-- Whether a request may be a victim for a growing one (R315). -/
def isVictim (s : State) (pool grow share : Nat) (id : Nat) (r : Request) : Bool :=
  rqLive r && !r.bound && id != grow && decide (r.share ≤ share) &&
  ((poolModel s r).map Prod.fst == some pool) &&
  r.sets.any (onlyHolder s)

/-- The next victim: lowest REQ_SHARE, then latest ACCEPT_TICK, then highest request ID (R315). -/
def nextVictim (s : State) (pool grow share : Nat) : Option Nat :=
  let c := s.rollout.requests.filter fun e => isVictim s pool grow share e.1 e.2
  match minBy (fun e => e.2.share) c with
  | none => none
  | some m =>
    let c := c.filter fun e => e.2.share == m.2.share
    match maxBy (fun e => e.2.acceptTick) c with
    | none => none
    | some m => (maxBy (fun e => e.1) (c.filter fun e => e.2.acceptTick == m.2.acceptTick)).map Prod.fst

/-- Moves a request to its fall-back model (R343), or ends it DEADLINE. -/
def moveRequest (s : State) (id : Nat) : State :=
  match getReq s id with
  | none => s
  | some r =>
    let fb := match modelByHandle s r.part r.model with
      | none => none
      | some (_, m) => if m.fallback = 0 || r.pfxIn != 0 then none else (modelByHandle s r.part m.fallback).map fun _ => m.fallback
    match fb with
    | none => endRequest s id 3
    | some h =>
      let s := releaseSets s id
      let s := modReq s id fun r => { r with
        state := rqEvicted, model := h, drafts := [], bound := false, fallenBack := true, moveOnEnd := false, evictOnEnd := false,
        kvLen := 0, pfxTokens := 0 }
      let s := modPart s r.part fun p => { p with dlMoved := p.dlMoved + 1 }
      syncReq s id

/-- What waited for the end of a binding, or for the held entry: cancel, deadline end, move, eviction (R317, R339,
R342). -/
def afterBinding (s : State) (id : Nat) : State :=
  match getReq s id with
  | none => s
  | some r =>
    if !rqLive r then s
    else if r.cancelPending then endRequest s id 2
    else if r.endOnEnd then endRequest s id 3
    else if r.moveOnEnd then moveRequest s id
    else if r.evictOnEnd then evictReq s id false
    else syncReq s id

/-- Publishes the held entry if it fits now, and what follows from it (R317, R320). -/
def publishHeld (s : State) (id : Nat) : State :=
  let s := rereadRing s id
  match getReq s id with
  | none => s
  | some r =>
    match r.heldEntry with
    | none => s
    | some (d, pos) =>
      if ringFits r 0 then
        let s := publishToken s id d pos
        let s := modReq s id fun r => { r with
          heldEntry := none, state := if r.state = rqRingWait then rqDecode else r.state }
        match getReq s id with
        | none => s
        | some r =>
          if d.ends || decide (r.maxNew ≤ r.tokensOut) then endRequest s id 1
          else if r.bound then syncReq s id
          else afterBinding s id
      else s

/-! ### Prefix handles (R316) -/

/-- A handle's word (Table 12.5a). -/
def handleWord (ix : Nat) (h : Handle) : Word := w64 (h.gen <<< 32 + h.part <<< 26 + ix)

/-- The live handle of a partition that a word names. -/
def handleByWord (s : State) (part : Nat) (w : Word) : Option (Nat × Handle) :=
  match tfind s.rollout.handles (fld w 13 0) with
  | some h => if handleWord (fld w 13 0) h = w && h.part = part then some (fld w 13 0, h) else none
  | none => none

/-- Releases a prefix handle. -/
def releaseHandle (s : State) (ix : Nat) : State :=
  match tfind s.rollout.handles ix with
  | none => s
  | some h => refSets (modRo s fun ro => { ro with handles := tdel ro.handles ix }) h.sets false

/-- Releases every prefix handle that a test holds of. -/
def releaseHandles (s : State) (p : Handle → Bool) : State :=
  ((s.rollout.handles.filter fun e => p e.2).map Prod.fst).foldl releaseHandle s

/-! ### The end of a model (R336) -/

/-- Unmaps, releases, frees one model and writes its slot. -/
def endOneModel (s : State) (ix code : Nat) : State :=
  match tfind s.models ix with
  | none => s
  | some m =>
    let s := m.attached.foldl (fun s a => detachOne s ix a.1) s
    let s := releaseHandles s fun h => h.model == ix
    let s := setModel s ix { m with
      state := mdlGone, endCode := code, layerPages := [], mirrorPages := [], poolPages := [], stagePages := [],
      attached := [], started := [], passed := [] }
    let s := syncModel s ix
    { s with models := tdel s.models ix }

/-- Ends a model, and the private copy that goes with an addition (R334). -/
def endModel (s : State) (ix code : Nat) : State :=
  match tfind s.models ix with
  | none => s
  | some m =>
    let s := endOneModel s ix code
    if m.copyHandle = 0 then s else endOneModel s (m.copyHandle % 256) 1

/-- Whether a resident addition uses a model as base: its private copy where it has one (R334, R336). -/
def usedAsBase (s : State) (part h : Nat) : Bool :=
  s.models.any fun e => mdlAlive e.2 && e.2.kind == 1 && e.2.part == part && (if e.2.copyHandle = 0 then e.2.base else e.2.copyHandle) == h

end Machine
end Sys2Proof
end

