-- ==== Sys2Proof/Machine/Rollout.lean ====
section
/-! DEFINITION. Rollout requests (R301 to R324): the doorbells SUBMIT, CANCEL and KICK, PREFIX_RELEASE, the ring poll,
the deadline monitor, and what the commands of the commit window do. -/

namespace Sys2Proof
namespace Machine

open Host (Outcome)

/-! ### Acceptance (R302, R303) -/

/-- Word `i` of a record read from memory. -/
def recWord (bs : List Byte) (i : Nat) : Word := w64 (leNat (slice bs (8 * i) 8))

/-- A request as its record gives it, not yet accepted. -/
def readRequest (s : State) (part slot : Nat) (bs : List Byte) : Request :=
  let w := recWord bs
  { part := part, slot := slot, model := fld (w 0) 47 32, share := fld (w 0) 31 16, pfxIn := w 1,
    promptPa := fld (w 2) 47 0, maxNew := fld (w 3) 63 32, promptTokens := fld (w 3) 31 0,
    ringOrder := fld (w 4) 51 48, ringPa := fld (w 4) 47 0, deadlineTicks := fld (w 5) 63 32,
    dlPolicy := fld (w 5) 31 30, specMax := fld (w 5) 23 16, irqEn := wbit (w 5) 11, irqVec := fld (w 5) 10 0,
    irqEvery := fld (w 6) 63 32, pfxLen := fld (w 6) 31 0, user := (List.range 8).map fun i => w (8 + i),
    state := rqQueued, acceptTick := now s, tokensOut := 0, pfxOut := 0, recomputes := 0, kvLen := 0, capacity := 0,
    sets := [], published := [], tail := 0, readSeen := 0, heldEntry := none, drafts := [], bound := false,
    boundEpoch := 0, ctx := none, cancelPending := false, pastDeadline := false, fallenBack := false,
    moveOnEnd := false, endOnEnd := false, evictOnEnd := false, pfxTokens := 0, pfxSets := [], replayLen := 0,
    pagesVa := 0, replayVa := 0, result := 0, value := 0, endCode := 0, endTick := 0 }

/-- The ring fields of a record pass their check (R302). -/
def ringFieldsOk (s : State) (r : Request) (w4 : Word) : Bool :=
  fld w4 63 52 == 0 && decide (r.ringOrder ≤ 12) && r.ringPa % 256 == 0 &&
  inWindows s r.part r.ringPa (256 + 16 * ringEntries r)

/-- Every check of R302 on a record. -/
def recordOk (s : State) (r : Request) (w : Nat → Word) : Bool :=
  fld (w 0) 63 56 == 1 && fld (w 0) 55 48 == 0 && fld (w 0) 15 0 == 0 && fld (w 2) 63 48 == 0 &&
  r.promptPa % 256 == 0 && (r.promptTokens == 0 || inWindows s r.part r.promptPa (4 * r.promptTokens)) &&
  ringFieldsOk s r (w 4) && r.dlPolicy != 3 && fld (w 5) 29 24 == 0 && decide (r.specMax ≤ 64) &&
  fld (w 5) 15 12 == 0 && decide (r.irqVec < (partEntry s r.part).vecCount) && w 7 == 0

/-- The lowest request ID that no live request has. -/
def freeReqId (s : State) : Nat :=
  ((List.range (s.rollout.requests.length + 1)).find? fun i =>
    match getReq s i with | none => true | some r => !rqLive r).getD 0

/-- Live requests of the module. -/
def liveReqs (s : State) : Nat := (s.rollout.requests.filter fun e => rqLive e.2).length

/-- A request that ends without being accepted: its outcome in W16, and a terminal entry when its ring passed. -/
def refuseRequest (s : State) (r : Request) (ringOk : Bool) (code : Nat) : State :=
  let r := { r with state := rqDone, endCode := code, endTick := now s }
  let s := if ringOk then
      fwDo s 0 [.write (r.ringPa + 256) (ringEntry 0 0 0xF false false 0 code 0), .write r.ringPa (leBytes 8 1)]
    else s
  let s := fwDo s 0 [.write ((getPart s r.part).rqBase + 256 * r.slot + 128) (reqWords 0 r)]
  let s := if ringOk then modPart s r.part fun p => { p with rqEnded := p.rqEnded + 1 } else s
  if r.irqEn && decide (r.irqVec < (partEntry s r.part).vecCount) && ringOk then
    fwDo s 0 [.msix r.part r.irqVec] else s

/-- Accepts a request that passed its checks: ID, QUEUED, the prefix's sets, or an end at once. -/
def acceptRequest (s : State) (r : Request) : State :=
  let id := freeReqId s
  let s := modPart s r.part fun p => { p with rqAccepted := p.rqAccepted + 1 }
  match modelByHandle s r.part r.model with
  | none => endRequest (setReq s id r) id 8
  | some _ =>
    if r.pfxIn = 0 then
      if r.promptTokens = 0 then endRequest (setReq s id r) id 1 else syncReq (setReq s id r) id
    else
      match handleByWord s r.part r.pfxIn with
      | none => endRequest (setReq s id r) id 6
      | some (_, h) =>
        let s := refSets s h.sets true
        syncReq (setReq s id { r with
          sets := h.sets, pfxSets := h.sets, pfxTokens := h.covered, kvLen := h.covered,
          capacity := setsCapacity s h.sets }) id

/-- SUBMIT (R303): a bad slot or a live one sets BAD_DOORBELL, as does one outside the partition's memory windows (R301; DESIGN CHOICE,
log 127); else the record is read once and accepted or ended. -/
def submitEffect (s : State) (part slot : Nat) : State :=
  let p := getPart s part
  if p.rqSlots ≤ slot || (reqBySlot s part slot).isSome || !inWindows s part (p.rqBase + 256 * slot) 256 then
    modPart s part fun p => { p with rqBadDoorbell := true }
  else
    let s := journal s 0 1 (part * 65536 + slot) true
    let (bs, bad, s) := fwFetch s (p.rqBase + 256 * slot) 256
    let r := readRequest s part slot bs
    let w := recWord bs
    if bad || !recordOk s r w then refuseRequest s r (!bad && ringFieldsOk s r (w 4)) 7
    else if !(decide (activeReqs s part < p.rqMaxActive) && decide (liveReqs s < 65536)) then refuseRequest s r true 9
    else acceptRequest s r

/-! ### Cancel, kick, poll, handles (R316, R317, R320) -/

/-- CANCEL at the request's home (R317). -/
def cancelRequest (s : State) (id : Nat) : State :=
  match getReq s id with
  | none => s
  | some r =>
    let s := setReq s id { r with drafts := [], kvLen := r.kvLen - r.drafts.length }
    if r.bound then
      syncReq (modReq s id fun r => { r with cancelPending := true, state := rqCancelling }) id
    else if r.heldEntry.isSome then modReq s id fun r => { r with cancelPending := true }
    else endRequest s id 2

/-- A doorbell on a slot: out of range sets BAD_DOORBELL, an ended request is not touched. -/
def slotDoorbell (s : State) (part slot : Nat) (f : State → Nat → State) : State :=
  if (getPart s part).rqSlots ≤ slot then modPart s part fun p => { p with rqBadDoorbell := true }
  else match reqBySlot s part slot with
    | none => s
    | some (id, r) => f (journal s (homeCore r.ctx) 2 id true) id

/-- PREFIX_RELEASE (R316): a value that is no live handle of the partition has no effect. -/
def pfxReleaseEffect (s : State) (part : Nat) (handle : Word) : State :=
  match handleByWord s part handle with
  | none => s
  | some (ix, _) => releaseHandle (journal s 0 9 ix true) ix

/-- RING_POLL (R320), by firmware at the request's home. -/
def execRingPoll (req : Nat) (s : State) : Outcome State Fault Refusal :=
  match getReq s req with
  | none => .next s
  | some r => if r.heldEntry.isSome && !coreStops s (homeCore r.ctx) then .next (publishHeld s req) else .next s

/-! ### Deadlines (R342, R343) -/

/-- Whether a request's deadline tick has passed. -/
def deadlinePassed (s : State) (r : Request) : Bool :=
  r.deadlineTicks != 0 && decide (r.acceptTick + r.deadlineTicks ≤ now s)

/-- DL_POLICY at the deadline (Table 13.7). -/
def applyPolicy (s : State) (id : Nat) : State :=
  match getReq s id with
  | none => s
  | some r =>
    let wait := r.bound || r.state == rqRingWait
    if r.fallenBack then s
    else if r.dlPolicy = 1 then
      if wait then modReq s id fun r => { r with moveOnEnd := true } else moveRequest s id
    else if r.dlPolicy = 2 then
      if wait then modReq s id fun r => { r with endOnEnd := true } else endRequest s id 3
    else s

/-- DEADLINE_MONITOR (R342), by firmware at the request's home; in Hold it waits for the exit (R440). -/
def execDeadlineMonitor (req : Nat) (s : State) : Outcome State Fault Refusal :=
  match getReq s req with
  | none => .next s
  | some r =>
    if rqLive r && deadlinePassed s r && !r.pastDeadline && !s.pwr.inHold && !coreStops s (homeCore r.ctx) then
      .next (applyPolicy (setReq s req { r with pastDeadline := true }) req)
    else .next s

/-! ### The commit window (R305 to R309) -/

/-- What a commit command answers: a fault code of R306, or a result and a value. -/
inductive CommitRes where
  | fault (code : Nat)
  | done (result value : Nat) (s : State)
  deriving DecidableEq, Repr

/-- Result codes (Table 12.8). -/
def resOk : Nat := 0
def resHeld : Nat := 1
def resCancelled : Nat := 2
def resEnded : Nat := 3
def resEvicted : Nat := 4
def resRefused : Nat := 5
def resNotBound : Nat := 6
def resEmpty : Nat := 7

/-- The result that decides before the command is looked at: ended, evicted, cancelled, not bound. -/
def commitGate (r : Request) (needsBinding afterCancel : Bool) : Option Nat :=
  if !rqLive r then some resEnded
  else if r.state = rqEvicted then some resEvicted
  else if r.cancelPending && !afterCancel then some resCancelled
  else if needsBinding && !r.bound then some resNotBound
  else none

/-- Ends a binding, and does what waited for it. A held entry stays through a move and an eviction (R315, R343); a cancel, and the end
at a deadline of a request in RING_WAIT, wait until it is published (R317, Table 13.7). -/
def endBinding (s : State) (id : Nat) : State :=
  match getReq s id with
  | none => s
  | some r =>
    let s := setReq s id { r with bound := false }
    if r.heldEntry.isNone then afterBinding s id
    else if r.cancelPending then syncReq s id
    else if r.endOnEnd then (if r.state = rqRingWait then syncReq s id else endRequest s id 3)
    else if r.moveOnEnd then moveRequest s id
    else if r.evictOnEnd then evictReq s id false
    else syncReq s id

/-- ⌊log2 n⌋ for n above 0. -/
def log2 (n : Nat) : Nat := Nat.log2 n

/-- The size exponent R314 asks for. -/
def growExp (capacity target : Nat) : Nat :=
  let short := (target - capacity + 15) / 16 * 16
  let e := if 0 < capacity then max (log2 short) (log2 capacity) else log2 short
  min (max e 4) 12

/-- How a BIND's copy or growth ends: the pages are there; no victim remains and the request is to evict itself, its victims evicted
(R315); or its page list would pass 256 sets (R311). -/
inductive Grown where
  | room (s : State)
  | none (s : State)
  | full
  deriving DecidableEq, Repr

/-- Grows or evicts (R314, R315). -/
def growLoop (s : State) (id pool kf vf epoch target : Nat) : Nat → Grown
  | 0 => .room s
  | fuel + 1 =>
    match getReq s id, tfind s.models pool with
    | some r, some m =>
      if target ≤ r.capacity then .room s
      else if 256 ≤ r.sets.length then .full
      else match placeUpTo s pool m r.capacity kf vf epoch (growExp r.capacity target) with
        | some (sid, s) =>
          match tfind s.rollout.sets sid with
          | none => .room s
          | some p =>
            growLoop (modReq s id fun r => { r with
              sets := r.sets ++ [sid], capacity := r.capacity + 2 ^ p.exp }) id pool kf vf epoch target fuel
        | none =>
          match nextVictim s pool id r.share with
          | some v => growLoop (evictReq s v false) id pool kf vf epoch target fuel
          | none => .none s
    | _, _ => .room s

/-- Copies one page set onto new grains, tags unchanged, and rewrites its headers (R314). -/
def copySet (s : State) (m : Model) (old new : PageSet) : State :=
  let s := (List.range old.grains).foldl (fun s g =>
    let (data, tag, s) := readGrain s (setPa m old g)
    writeGrain s (setPa m new g) data tag) s
  writeHeaders s m new

/-- Copy-on-write of the last page set, when it is shared and the step may write it (R314). The request keeps the set among those that
its prefix handle gave it, and takes a reference again when it starts over (R316). -/
def cowLast (s : State) (id pool : Nat) : Nat → Grown
  | 0 => .room s
  | fuel + 1 =>
    match getReq s id, tfind s.models pool with
    | some r, some m =>
      match r.sets.getLast? with
      | none => .room s
      | some sid =>
        match tfind s.rollout.sets sid with
        | none => .room s
        | some p =>
          if decide (1 < p.refs) && decide (r.kvLen < p.firstPos + 2 ^ p.exp) then
            match placeSet s pool m p.exp p.firstPos p.kfmt p.vfmt p.epoch with
            | some (nid, s) =>
              let s := match tfind s.rollout.sets nid with | none => s | some q => copySet s m p q
              let s := refSet s sid false
              let s := modReq s id fun r => { r with
                sets := r.sets.dropLast ++ [nid] }
              .room (modRo s fun ro => { ro with cowCopies := ro.cowCopies + 1 })
            | none =>
              match nextVictim s pool id r.share with
              | some v => cowLast (evictReq s v false) id pool fuel
              | none => .none s
          else .room s
    | _, _ => .room s

/-- How many sets the growth of R314 would append if every size were free: for the page list's limit (R311). -/
def setsNeeded (capacity target : Nat) : Nat → Nat
  | 0 => 0
  | fuel + 1 =>
    if target ≤ capacity then 0 else setsNeeded (capacity + 2 ^ growExp capacity target) target fuel + 1

/-- BIND (R314). -/
def commitBind (s : State) (id : Nat) (w0 : Word) : CommitRes :=
  match getReq s id with
  | none => .fault 0x03
  | some r =>
    match commitGate r false false with
    | some c => .done c 0 s
    | none =>
      let n := fld w0 47 32
      let kf := fld w0 55 52
      let vf := fld w0 51 48
      if r.state = rqRingWait then .done resRefused 0 s
      else if 256 < r.sets.length + setsNeeded r.capacity (r.kvLen + n) 300 then .done resRefused 0 s
      else match poolModel s r, modelByHandle s r.part r.model with
        | some (pool, _), some (ix, m) =>
          let epoch := bindEpochOf s ix m
          let before := s
          let s := setReq s id { r with bound := true, boundEpoch := epoch }
          if n = 0 then .done resOk r.capacity (syncReq s id)
          else if kf = 0 || 8 < kf || vf = 0 || 8 < vf then .fault 0x02
          else
            match (match cowLast s id pool 65537 with
              | .room s => growLoop s id pool kf vf epoch (r.kvLen + n) 66000
              | g => g) with
            | .room s => .done resOk ((getReq s id).elim 0 fun r => r.capacity) (syncReq s id)
            | .none s => .done resEvicted 0 (endBinding (evictReq s id true) id)
            | .full => .done resRefused 0 before
        | _, _ => .done resOk r.capacity (syncReq (setReq s id { r with bound := true }) id)

/-- The draft or token that an EMIT or DRAFT carries. -/
def tokenOf (s : State) (r : Request) (w0 w1 : Word) : Draft :=
  { token := fld w0 31 0, logprob := BitVec.ofNat 32 (fld w1 31 0), ends := wbit w0 59, poison := wbit w0 58,
    epoch := r.boundEpoch, late := deadlinePassed s r, fallback := r.fallenBack }

/-- EMIT (R319, R320, R313). While an entry is held there is no ring space for another: REFUSED (Table 12.8; DESIGN CHOICE, log
128). -/
def commitEmit (s : State) (id : Nat) (w0 w1 : Word) : CommitRes :=
  match getReq s id with
  | none => .fault 0x03
  | some r =>
    match commitGate r true false with
    | some c => .done c 0 s
    | none =>
      if !r.drafts.isEmpty || r.heldEntry.isSome then .done resRefused r.tokensOut s
      else
        let d := tokenOf s r w0 w1
        if d.poison then .done resOk r.tokensOut (endRequest s id 4)
        else
          let s := rereadRing s id
          let s := modReq s id fun r => { r with kvLen := r.kvLen + 1, published := r.published ++ [d.token] }
          let fits := (getReq s id).any fun r => ringFits r 0
          if fits then
            let s := publishToken s id d r.kvLen
            if d.ends || decide (r.maxNew ≤ r.tokensOut + 1) then .done resOk (r.tokensOut + 1) (endRequest s id 1)
            else .done resOk (r.tokensOut + 1) (endBinding s id)
          else
            let s := modReq s id fun r => { r with heldEntry := some (d, r.kvLen - 1), state := rqRingWait }
            .done resHeld r.tokensOut (endBinding s id)

/-- DRAFT (R321). -/
def commitDraft (s : State) (id : Nat) (w0 w1 : Word) : CommitRes :=
  match getReq s id with
  | none => .fault 0x03
  | some r =>
    match commitGate r true false with
    | some c => .done c 0 s
    | none =>
      let s := rereadRing s id
      let n := r.drafts.length
      let room := (getReq s id).any fun r => ringFits r n && r.heldEntry.isNone
      if room && decide (n < r.specMax) && decide (n < r.maxNew - r.tokensOut) then
        .done resOk r.tokensOut (syncReq (modReq s id fun r => { r with
          drafts := r.drafts ++ [tokenOf s r w0 w1], kvLen := r.kvLen + 1 }) id)
      else .done resRefused r.tokensOut s

/-- Publishes drafts in order, to the one that ends the request (R321). -/
def acceptLoop (s : State) (id : Nat) : Nat → State
  | 0 => s
  | n + 1 =>
    match getReq s id with
    | none => s
    | some r =>
      match r.drafts with
      | [] => s
      | d :: ds =>
        if d.poison then endRequest s id 4
        else
          let pos := r.kvLen - r.drafts.length
          let s := setReq s id { r with drafts := ds, published := r.published ++ [d.token] }
          let s := publishToken s id { d with late := deadlinePassed s r } pos
          if d.ends || decide (r.maxNew ≤ r.tokensOut + 1) then endRequest s id 1
          else acceptLoop s id n

/-- ACCEPT (R321). -/
def commitAccept (s : State) (id : Nat) (w0 : Word) : CommitRes :=
  match getReq s id with
  | none => .fault 0x03
  | some r =>
    match commitGate r true false with
    | some c => .done c 0 s
    | none =>
      let s := acceptLoop (rereadRing s id) id (min (fld w0 47 32) r.drafts.length)
      .done resOk ((getReq s id).elim 0 fun r => r.tokensOut) (syncReq s id)

/-- ROLLBACK (R321). -/
def commitRollback (s : State) (id : Nat) (w0 : Word) : CommitRes :=
  match getReq s id with
  | none => .fault 0x03
  | some r =>
    match commitGate r true false with
    | some c => .done c 0 s
    | none =>
      let n := min (fld w0 47 32) r.drafts.length
      .done resOk r.tokensOut (syncReq (setReq s id { r with
        drafts := r.drafts.take (r.drafts.length - n), kvLen := r.kvLen - n }) id)

/-- Creates the prefix handle of a prefill (R316). -/
def makeHandle (s : State) (id : Nat) : State :=
  match getReq s id with
  | none => s
  | some r =>
    let covered := min r.pfxLen r.kvLen
    match tfree s.rollout.handles 16384, modelByHandle s r.part r.model with
    | some ix, some (mx, _) =>
      let sets := r.sets.filter fun i => (tfind s.rollout.sets i).any fun p => decide (p.firstPos < covered)
      let g := tget 0 s.rollout.handleGens ix
      let g := if g + 1 < 2 ^ 32 then g + 1 else 1
      let h : Handle := { gen := g, part := r.part, model := mx, covered := covered, sets := sets }
      let s := refSets s sets true
      let s := modRo s fun ro => { ro with handles := tput ro.handles ix h, handleGens := tput ro.handleGens ix g }
      modReq s id fun r => { r with pfxOut := handleWord ix h }
    | _, _ => modRo s fun ro => { ro with handlesRefused := ro.handlesRefused + 1 }

/-- PREFILLED (R307, R308, R316). -/
def commitPrefilled (s : State) (id : Nat) : CommitRes :=
  match getReq s id with
  | none => .fault 0x03
  | some r =>
    match commitGate r true false with
    | some c => .done c 0 s
    | none =>
      if r.state != rqPrefill then .done resRefused r.tokensOut s
      else
        let s := setReq s id { r with
          kvLen := r.pfxTokens + r.replayLen, state := if r.heldEntry.isSome then rqRingWait else rqDecode }
        let s := if r.pfxLen = 0 then s else makeHandle s id
        if r.maxNew = 0 then .done resOk r.tokensOut (endRequest s id 1)
        else .done resOk r.tokensOut (endBinding s id)

/-- UNBIND (R307). -/
def commitUnbind (s : State) (id : Nat) : CommitRes :=
  match getReq s id with
  | none => .fault 0x03
  | some r =>
    match commitGate r true true with
    | some c => .done c 0 s
    | none => .done resOk r.tokensOut (endBinding s id)

/-- FAIL (R307): an ARG other than 0x4 or 0x5 is a descriptor fault (R306). -/
def commitFail (s : State) (id : Nat) (w1 : Word) : CommitRes :=
  match getReq s id with
  | none => .fault 0x03
  | some r =>
    let c := fld w1 31 0
    if c != 4 && c != 5 then .fault 0x02
    else match commitGate r true true with
      | some g => .done g 0 s
      | none => .done resOk r.tokensOut (endRequest s id c)

/-- Whether a context serves the model of a request (R309, R331, R333). -/
def serves (s : State) (n : Nat) (r : Request) : Bool :=
  match modelByHandle s r.part r.model with
  | none => false
  | some (_, m) => m.attached.any fun a => a.1 == n && a.2

/-- The next ready request for a context: EVICTED, then QUEUED, each in ascending ACCEPT_TICK (R309). -/
def nextReady (s : State) (n : Nat) : Option Nat :=
  let of (st : Nat) := minBy (fun e : Nat × Request => e.2.acceptTick)
    (s.rollout.requests.filter fun e => e.2.state == st && serves s n e.2)
  match of rqEvicted with
  | some e => some e.1
  | none => (of rqQueued).map Prod.fst

/-- Takes back the references to a prefix's sets after an eviction; none when a set is gone. -/
def regainPrefix (s : State) (r : Request) : Option State :=
  (r.pfxSets.filter fun i => !r.sets.contains i).foldl (fun o i => o.bind fun s =>
    if (tfind s.rollout.sets i).isSome then some (refSet s i true) else none) (some s)

/-- FETCH (R309). -/
def commitFetch (s : State) (n : Nat) : CommitRes :=
  match nextReady s n with
  | none => .done resEmpty 0 s
  | some id =>
    match getReq s id with
    | none => .done resEmpty 0 s
    | some r =>
      match regainPrefix s r with
      | none => .done resOk id (endRequest s id 6)
      | some s =>
        let s := setReq s id { r with
          state := rqPrefill, ctx := some n, sets := r.pfxSets, capacity := setsCapacity s r.pfxSets,
          kvLen := r.pfxTokens, replayLen := r.promptTokens + r.published.length,
          pagesVa := Config.pagesVa id, replayVa := Config.replayVa id }
        let s := match modelByHandle s r.part r.model with
          | none => s
          | some (ix, m) => syncModel (setModel s ix { m with use := m.use + 1, lastUse := now s }) ix
        .done resOk id (syncReq s id)

/-- A command stored to W0 of a request slot (Table 12.7). -/
def commitCommand (s : State) (n id : Nat) (w0 w1 : Word) : CommitRes :=
  match getReq s id with
  | none => .fault 0x03
  | some r =>
    if r.ctx != some n then .fault 0x03
    else if fld w0 57 56 != 0 then .fault 0x02
    else
      let s := journal s (controlCoreOf n) 3 id true
      match fld w0 63 60 with
      | 1 => commitBind s id w0
      | 2 => commitEmit s id w0 w1
      | 3 => commitDraft s id w0 w1
      | 4 => commitAccept s id w0
      | 5 => commitRollback s id w0
      | 6 => commitPrefilled s id
      | 7 => commitUnbind s id
      | 8 => commitFail s id w1
      | _ => .fault 0x02

/-- W0 of the dispatch slot: FETCH alone. -/
def commitDispatch (s : State) (n : Nat) (w0 : Word) : CommitRes :=
  if fld w0 63 60 = 9 && fld w0 57 56 = 0 then commitFetch (journal s (controlCoreOf n) 3 0x10000 true) n else .fault 0x02

end Machine
end Sys2Proof
end

