-- ==== Sys2Proof/Machine/Models.lean ====
section
/-! DEFINITION. Model residency and weight replacement (R326 to R341): the doorbells LOAD, UNLOAD, REPLACE, ATTACH and
DETACH, and the copies, stagings and installs that follow from them. -/

namespace Sys2Proof
namespace Machine

open Host (Outcome)

/-! ### Records and source images (R327, R329) -/

def badModelDoorbell (s : State) (part : Nat) : State := modPart s part fun p => { p with mdlBadDoorbell := true }

/-- The record of a model table slot as firmware reads it, and whether its grain comes poisoned (Table 16.2). -/
def modelRecord (s : State) (part slot : Nat) : (Nat → Word) × Bool × State :=
  let (bs, bad, s) := fwFetch s ((getPart s part).mdlBase + 256 * slot) 256
  (recWord bs, bad, s)

/-- Whether a context index lies in a partition's range (R354). -/
def inCtxRange (s : State) (part n : Nat) : Bool :=
  let e := partEntry s part
  decide (e.ctxFirst ≤ n) && decide (n < e.ctxFirst + e.ctxCount)

/-- The checks of R327 on a record's own fields. A REPL_SRC_PA of 0 is taken as none given (DESIGN CHOICE, log 155). -/
def modelRecordOk (s : State) (part : Nat) (w : Nat → Word) : Bool :=
  let kind := fld (w 0) 55 54
  let shared := wbit (w 0) 53
  fld (w 0) 63 56 == 1 && decide (kind < 2) && fld (w 0) 15 12 == 0 && fld (w 1) 63 48 == 0 && fld (w 2) 63 48 == 0 &&
  fld (w 4) 63 48 == 0 && (List.range 11).all (fun i => w (5 + i) == 0) &&
  (kind == 0 || !shared) && (kind == 1 || fld (w 0) 47 32 == 0) &&
  (if kind == 0 && shared then fld (w 0) 11 0 == 0 else inCtxRange s part (fld (w 0) 11 0)) &&
  fld (w 1) 7 0 == 0 && fld (w 2) 20 0 == 0 && fld (w 4) 7 0 == 0 && inWindows s part (fld (w 1) 47 0) 256 &&
  (fld (w 4) 47 0 == 0 || inWindows s part (fld (w 4) 47 0) 256)

/-- The layers that a layer table gives, or none when it breaks R329 or R330. -/
def imageLayers (s : State) (part src n : Nat) (bs : List Byte) : Option (List Layer) :=
  let raw := (List.range n).map fun i => (recWord bs (2 * i), recWord bs (2 * i + 1))
  let ls : List Layer := raw.map fun e => { offset := fld e.1 47 0, grains := fld e.2 31 0, epoch := 0 }
  let formOk := raw.all fun e => fld e.1 63 48 == 0 && fld e.1 7 0 == 0 && fld e.2 63 32 == 0
  let apart := (List.range n).all fun i => (List.range i).all fun j =>
    let a := ls.getD i { offset := 0, grains := 0, epoch := 0 }
    let b := ls.getD j { offset := 0, grains := 0, epoch := 0 }
    !overlap a.offset (256 * a.grains) b.offset (256 * b.grains)
  let inside := ls.all fun l => l.grains == 0 || inWindows s part (src + l.offset) (256 * l.grains)
  if formOk && apart && inside then some ls else none

/-- The layers of the source image at a physical address as firmware reads its header and its layer table, or none when it breaks R329 or
R330, or reads poisoned (DESIGN CHOICE, log 158). -/
def readImage (s : State) (part src : Nat) : Option (List Layer) × State :=
  if !inWindows s part src 256 then (none, s)
  else
    let (hd, bad, s) := fwFetch s src 256
    let h := recWord hd 0
    let n := fld h 15 0
    if bad || fld h 63 56 != 1 || fld h 55 16 != 0 || 4096 < n || (hd.drop 8).any (fun b => b != 0) ||
        (n != 0 && !inWindows s part (src + 256) (16 * n)) then (none, s)
    else
      let (bs, bad, s) := fwFetch s (src + 256) (16 * n)
      (if bad then none else imageLayers s part src n bs, s)

/-- The image that a record names, of a record that passes its own checks (R327). -/
def recordImage (s : State) (part : Nat) (w : Nat → Word) (bad : Bool) (src : Nat) : Option (List Layer) × State :=
  if bad || !modelRecordOk s part w then (none, s) else readImage s part src

/-! ### Space (R330, R335, R346) -/

/-- The pages of a model's four spaces, when its regions have room. -/
def allocSpaces (s : State) (ix : Nat) (m : Model) : Option Model :=
  let used := usedPages s
  match takePages s used m.part m.tier ix (pagesOf (layerSpan m.layers)) with
  | none => none
  | some lp =>
    match (if m.mirrored then takeMirror s (lp ++ used) m.part m.tier lp else some []) with
    | none => none
    | some mp =>
      match takePages s (lp ++ mp ++ used) m.part 0 ix (pagesOf (256 * m.poolGrains)) with
      | none => none
      | some pp =>
        match takePages s (lp ++ mp ++ pp ++ used) m.part 0 ix (pagesOf (256 * m.stageGrains)) with
        | none => none
        | some sp => some { m with layerPages := lp, mirrorPages := mp, poolPages := pp, stagePages := sp }

/-- The next model to evict for space (R335), other than the base that the new model itself needs. -/
def modelVictim (s : State) (part needed : Nat) : Option Nat :=
  let c := s.models.filter fun e =>
    let m := e.2
    m.part == part && m.state == mdlResident && !m.pin && (m.kind == 1 || m.shared) && !m.copyOf &&
    !namedByLive s part (handleOf e.1 m) && !usedAsBase s part (handleOf e.1 m) && handleOf e.1 m != needed
  match minBy (fun e => e.2.use) c with
  | none => none
  | some a =>
    let c := c.filter fun e => e.2.use == a.2.use
    match minBy (fun e => e.2.lastUse) c with
    | none => none
    | some a => (minBy (fun e => e.1) (c.filter fun e => e.2.lastUse == a.2.lastUse)).map Prod.fst

/-- Allocates, evicting one victim after another (R335). -/
def allocEvict (s : State) (ix : Nat) (m : Model) : Nat → State × Option Model
  | 0 => (s, allocSpaces s ix m)
  | fuel + 1 =>
    match allocSpaces s ix m with
    | some m => (s, some m)
    | none =>
      match modelVictim s m.part (if m.kind = 1 then m.base else 0) with
      | none => (s, none)
      | some v =>
        let s := modPart (endModel s v 2) m.part fun p => { p with mdlEvictions := p.mdlEvictions + 1 }
        allocEvict s ix m fuel

/-- The generation of an index when it is used again (R326). -/
def nextGen (g : Nat) : Nat := if g < 255 then g + 1 else 1

/-- Writes a model that ends as it is loaded into its slot, and forgets it. -/
def refuseModel (s : State) (ix : Nat) (m : Model) (code : Nat) : State :=
  let s := syncModel (setModel s ix { m with state := mdlGone, endCode := code, layers := [] }) ix
  { s with models := tdel s.models ix }

/-- A LOAD that finds 256 models in the module ends its slot without a handle (R326; that it ends NO_SPACE is the model's choice,
log 135). -/
def refuseSlot (s : State) (part slot code : Nat) : State :=
  fwDo s 0 [.write ((getPart s part).mdlBase + 256 * slot + 128) (leBytes 8 (mdlGone <<< 60 + code <<< 56) ++ zeros 24)]

/-- A model accepted at LOAD: its spaces, EPOCH 1, INSTALLED 0 (R330); RESIDENT at once without layers. -/
def startLoad (s : State) (ix : Nat) (m : Model) : State :=
  let (s, r) := allocEvict s ix m 257
  match r with
  | none => refuseModel s ix m 4
  | some m =>
    let m := { m with
      state := if m.layers.isEmpty then mdlResident else mdlLoading, epoch := 1, installed := 0,
      kvElems := Config.kvRowElems (handleOf ix m), poolVa := Config.kvPoolVa (handleOf ix m) }
    syncModel (setModel s ix m) ix

/-- A model as its record gives it. -/
def readModel (part slot gen : Nat) (w : Nat → Word) (ls : List Layer) : Model :=
  { part := part, slot := slot, gen := gen, state := mdlLoading, endCode := 0, kind := fld (w 0) 55 54,
    shared := wbit (w 0) 53, copyOk := wbit (w 0) 52, mirrored := wbit (w 0) 51, pin := wbit (w 0) 50,
    kvRefresh := wbit (w 0) 49, tier := fld (w 0) 48 48, base := fld (w 0) 47 32, fallback := fld (w 0) 31 16,
    owner := fld (w 0) 11 0, srcPa := fld (w 1) 47 0, lastSrc := fld (w 1) 47 0, mapVa := fld (w 2) 47 0,
    poolGrains := fld (w 3) 63 32, stageGrains := fld (w 3) 31 0, replSrcPa := fld (w 4) 47 0, epoch := 0,
    installed := 0, staged := 0, failures := [], retried := false, replStatus := 0, copyHandle := 0, copyOf := false, layers := ls,
    layerPages := [], mirrorPages := [], poolPages := [], stagePages := [], stagedAt := [], kvElems := 0, poolVa := 0,
    installing := false, replaceDue := false, use := 0, lastUse := 0, started := [], passed := [], attached := [] }

/-- A LOAD of a partition is accepted, or a private copy begun: it takes the lowest free model index with its next generation, and
counts in LOADS whatever becomes of it (R326, Table 13.6). -/
def takeIndex (s : State) (part : Nat) : Option (Nat × Nat × State) :=
  match tfree s.models 256 with
  | none => none
  | some ix =>
    let g := nextGen (tget 0 s.modelGens ix)
    some (ix, g, modPart { s with modelGens := tput s.modelGens ix g } part fun p => { p with mdlLoads := p.mdlLoads + 1 })

/-- The private copy of another context's base (R334). Without room for it, in the regions or among the 256 models, the addition
ends NO_SPACE. It has a KV pool of the base's size when the addition has none (R333). -/
def startCopy (s : State) (add : Nat) (b : Model) (owner : Nat) : State :=
  match takeIndex s b.part with
  | none => endModel s add 4
  | some (cx, g, s) =>
    let m := { b with
      gen := g, shared := false, owner := owner, srcPa := b.lastSrc, copyOf := true, copyHandle := 0, replStatus := 0,
      layers := b.layers.map fun l => { l with epoch := 0 }, staged := 0, failures := [], retried := false, stagedAt := [],
      installing := false, replaceDue := false, use := 0, lastUse := 0, started := [], passed := [], attached := [], base := 0,
      poolGrains := if (tfind s.models add).any (fun a => a.poolGrains == 0) then b.poolGrains else 0, stageGrains := 0, mirrored := false, state := mdlLoading, slot := 65536 + cx }
    let s := startLoad s cx m
    match tfind s.models cx with
    | none => endModel s add 4
    | some m => syncModel (modModel s add fun a => { a with copyHandle := handleOf cx m }) add

/-- An addition's base (R333, R334): an end code, or whether a private copy is needed. -/
def additionBase (s : State) (m : Model) : Nat ⊕ Bool :=
  match modelByHandle s m.part m.base with
  | none => .inl 7
  | some (_, b) =>
    if b.kind != 0 then .inl 7
    else if b.shared || b.owner == m.owner then .inr false
    else if m.copyOk then .inr true else .inl 6

/-- LOAD of a record that has passed its checks (R330, R334). -/
def loadChecked (s : State) (ix : Nat) (m : Model) : State :=
  if m.kind = 0 then startLoad s ix m
  else match additionBase s m with
    | .inl code => refuseModel s ix m code
    | .inr copy =>
      let s := startLoad s ix m
      if copy && (tfind s.models ix).isSome then
        match modelByHandle s m.part m.base with
        | some (_, b) => startCopy s ix b m.owner
        | none => s
      else s

/-- Whether a slot lies in the partition's model table, and within its memory windows (R326). -/
def slotInTable (s : State) (part slot : Nat) : Bool :=
  decide (slot < (getPart s part).mdlSlots) && inWindows s part ((getPart s part).mdlBase + 256 * slot) 256

/-- LOAD (R327, R328, R330): on a slot that is not FREE or GONE, or is none of the table, it sets BAD_DOORBELL. -/
def loadEffect (s : State) (part slot : Nat) : State :=
  if !slotInTable s part slot || (modelBySlot s part slot).isSome then badModelDoorbell s part
  else
    let s := journal s 0 4 (part * 256 + slot) true
    let (w, bad, s) := modelRecord s part slot
    match takeIndex s part with
    | none => refuseSlot s part slot 4
    | some (ix, g, s) =>
      match recordImage s part w bad (fld (w 1) 47 0) with
      | (none, s) => refuseModel s ix (readModel part slot g w []) 3
      | (some ls, s) => loadChecked s ix (readModel part slot g w ls)

/-! ### Unload, attach, detach (R328, R331, R336) -/

/-- A doorbell on a slot that must be LOADING, RESIDENT or REPLACING (R328); none of the table is. -/
def modelDoorbell (s : State) (part slot : Nat) (f : State → Nat → Model → State) : State :=
  if !slotInTable s part slot then badModelDoorbell s part
  else match modelBySlot s part slot with
    | none => badModelDoorbell s part
    | some (ix, m) => f (journal s 0 5 ix true) ix m

/-- UNLOAD (R336). -/
def unloadEffect (s : State) (part slot : Nat) : State :=
  modelDoorbell s part slot fun s ix m =>
    if namedByLive s part (handleOf ix m) || usedAsBase s part (handleOf ix m) then badModelDoorbell s part
    else endModel s ix 1

/-- ATTACH (R331, R333). -/
def attachEffect (s : State) (part slot ctx : Nat) (serve : Bool) : State :=
  modelDoorbell s part slot fun s ix m =>
    if !inCtxRange s part ctx then badModelDoorbell s part
    else if !(m.kind == 0 && m.shared) && ctx != m.owner then badModelDoorbell s part
    else if !ctxActive (getCtx s ctx) then s
    else
      let s := attachOne s ix ctx serve (!m.shared)
      if m.kind = 1 then
        let (bx, b) := baseOf s ix m
        if bx = ix then s
        else
          let s := if attachedTo b ctx then s else attachOne s bx ctx false false
          if serve && m.poolGrains == 0 then mapPool s bx ctx else s
      else s

/-- DETACH (R331). -/
def detachEffect (s : State) (part slot ctx : Nat) : State := modelDoorbell s part slot fun s ix _ => detachOne s ix ctx

/-! ### Loading (R330) -/

/-- A grain of a source image as the movement engines read it; one from the host enters with the partition's number (R205). -/
def readSource (s : State) (m : Model) (pa : Nat) : List Byte × GrainTag × State :=
  let (data, tag, s) := readGrain s pa
  (data, if tierOf pa = 4 then mkTag data 0 m.part tag.poison else tag, s)

/-- Copies the grains of a layer from a source image into the model's pages, and into its mirror. -/
def copyLayer (s : State) (m : Model) (src : Nat) (l : Layer) : State :=
  (List.range l.grains).foldl (fun s g =>
    let (data, tag, s) := readSource s m (src + l.offset + 256 * g)
    writeGrain s (spacePa m.layerPages (l.offset + 256 * g)) data tag) s

/-- Whether threads parked at a layer of a model may go on. -/
def epochWait (h layer : Nat) (w : Park) : Bool :=
  match w with
  | .epoch m l _ => m == h && l == layer
  | _ => false

/-- Wakes the ENTERs parked at a layer, of whichever context. -/
def wakeEnters (s : State) (h layer : Nat) : State :=
  let s := s.cores.foldl (fun s e => wakeCore s e.1 fun _ w => epochWait h layer w) s
  s.ctxs.foldl (fun s e => wakeCtl s e.1 fun w => epochWait h layer w) s

/-- Whether two images have one shape (R339). -/
def sameShape (a b : List Layer) : Bool :=
  a.length == b.length && (a.zip b).all fun e => e.1.offset == e.2.offset && e.1.grains == e.2.grains

/-- Whether a model serves with the epoch of model `ix`: it is that base, or an addition over it (R333). -/
def epochFrom (s : State) (ix : Nat) (e : Nat × Model) : Bool := e.1 == ix || (baseOf s e.1 e.2).1 == ix

/-- With KV_REFRESH, the prefix handles of a replaced model go, and the requests that hold sets of an older epoch are
evicted, a bound one when its binding ends (R339 step 4); those of the additions over it as well, whose rows came of its weights
(DEDUCED). -/
def refreshKv (s : State) (ix : Nat) (m : Model) : State :=
  let mine := (s.models.filter (epochFrom s ix)).map Prod.fst
  let s := releaseHandles s fun h => mine.contains h.model
  s.rollout.requests.foldl (fun s e =>
    match getReq s e.1 with
    | none => s
    | some r =>
      let old := r.sets.any fun i => (tfind s.rollout.sets i).any fun p => p.epoch != m.epoch
      if rqLive r && r.part == m.part && mine.contains (r.model % 256) && (modelByHandle s r.part r.model).isSome && old then
        if r.bound then setReq s e.1 { r with evictOnEnd := true } else evictReq s e.1 false
      else s) s

/-- A replacement completes (R339 step 4). -/
def finishReplace (s : State) (ix : Nat) (m : Model) : State :=
  let m := { m with state := mdlResident, replStatus := 2, lastSrc := m.replSrcPa }
  let s := modPart (syncModel (setModel s ix m) ix) m.part fun p => { p with mdlReplaces := p.mdlReplaces + 1 }
  if m.kvRefresh then refreshKv s ix m else s

/-- REPLACE on a base (R339 step 1), or a restart of a stalled replacement (Table 13.5). A stalled one whose new image has another shape
shows REPL_STATUS 0x3 and stays stalled (DEDUCED, log 156). On a LOADING base it is carried out once the
last layer has loaded, since steps of the first epoch still need the layers to come (R328, R340; DESIGN CHOICE, log 126). -/
def replaceEffect (s : State) (part slot ix : Nat) (m : Model) : State :=
  if m.kind = 1 || m.replStatus == 1 || m.replaceDue then badModelDoorbell s part
  else if m.state == mdlLoading then setModel s ix { m with replaceDue := true }
  else
    let (w, bad, s) := modelRecord s part slot
    let src := fld (w 4) 47 0
    match recordImage s part w bad src with
    | (none, s) => endModel s ix 3
    | (some ls, s) =>
      if !sameShape ls m.layers then syncModel (setModel s ix { m with replStatus := 3 }) ix
      else if m.state = mdlReplacing then
        syncModel (setModel s ix { m with
          replSrcPa := src, replStatus := 1, staged := m.installed, stagedAt := [], failures := [], retried := false }) ix
      else
        let m := { m with
          replSrcPa := src, epoch := m.epoch + 1, installed := 0, staged := 0, stagedAt := [], failures := [], retried := false,
          replStatus := 1, state := mdlReplacing, installing := false }
        if m.layers.isEmpty then finishReplace s ix m else syncModel (setModel s ix m) ix

/-- LAYER_LOADED (R330); after the last layer a REPLACE that came meanwhile is carried out. -/
def execLayerLoaded (model : Nat) (s : State) : Outcome State Fault Refusal :=
  match tfind s.models model with
  | none => .next s
  | some m =>
    if m.state = mdlLoading then
      match m.layers[m.installed]? with
      | none => .next s
      | some l =>
        let s := copyLayer s m m.srcPa l
        let m := { m with
          layers := lset m.layers m.installed { l with epoch := m.epoch }, installed := m.installed + 1, failures := [],
          state := if m.installed + 1 = m.layers.length then mdlResident else mdlLoading }
        let s := wakeEnters (syncModel (setModel s model m) model) (handleOf model m) (m.installed - 1)
        .next (if m.state = mdlResident && m.replaceDue then replaceEffect s m.part m.slot model { m with replaceDue := false } else s)
    else .next s

/-- Whether a source read of a replacement is out: the replacement runs, or is stalled and has made its failed read again (R341). -/
def replReading (m : Model) : Bool := m.state == mdlReplacing && (m.replStatus == 1 || m.retried)

/-- Whether firmware reads from the source image of a model. -/
def reading (m : Model) : Bool := m.state == mdlLoading || replReading m

/-- SOURCE_READ_FAIL (R330, R341): the third failure in a row of one grain ends the load, or stalls the replacement; a read made again
by a stalled one stalls it again. -/
def execSourceReadFail (f : SourceFail) (s : State) : Outcome State Fault Refusal :=
  match tfind s.models f.model with
  | none => .next s
  | some m =>
    let n := tget 0 m.failures f.grain + 1
    if !reading m then .next s
    else if n < 3 && !m.retried then .next (countFailed (setModel s f.model { m with failures := tput m.failures f.grain n }))
    else if m.state = mdlLoading then
      let h := handleOf f.model m
      let ids := (s.rollout.requests.filter fun e => rqLive e.2 && e.2.part == m.part && e.2.model == h).map Prod.fst
      let s := ids.foldl (fun s i => endRequest s i 8) (countFailed s)
      .next (endModel s f.model 5)
    else .next (syncModel (setModel (countFailed s) f.model { m with failures := [], retried := false, replStatus := 4 }) f.model)

/-! ### Replacement (R339 to R341) -/

/-- Where the next layer may be staged: a place in the staging area, when it fits there whole (R339). -/
def stagePlace (m : Model) (l : Layer) : Option Nat :=
  if l.grains ≤ m.stageGrains && decide (0 < m.stageGrains) then
    findPlace (m.stagedAt.map fun e => (e.2, ((m.layers[e.1]?).elim 0 fun l => l.grains))) m.stageGrains l.grains
  else none

/-- Whether a layer is read straight into place at its install (R339). -/
def readsInPlace (m : Model) (l : Layer) : Bool := decide (m.stageGrains < l.grains) || m.stageGrains == 0

/-- A new layer of a replacement has been read: one that was stalled runs again. -/
def readAgain (s : State) (ix : Nat) (m : Model) : State :=
  if m.replStatus = 1 then setModel s ix m else syncModel (setModel s ix { m with replStatus := 1, retried := false }) ix

/-- LAYER_STAGED (R339). -/
def execLayerStaged (model : Nat) (s : State) : Outcome State Fault Refusal :=
  match tfind s.models model with
  | none => .next s
  | some m =>
    if replReading m then
      match m.layers[m.staged]? with
      | none => .next s
      | some l =>
        match stagePlace m l with
        | none => .next s
        | some at_ =>
          let s := (List.range l.grains).foldl (fun s g =>
            let (data, tag, s) := readSource s m (m.replSrcPa + l.offset + 256 * g)
            writeGrain s (spacePa m.stagePages (256 * (at_ + g))) data tag) s
          .next (readAgain s model { m with
            staged := m.staged + 1, stagedAt := m.stagedAt ++ [(m.staged, at_)], failures := [] })
    else .next s

/-- Steps of older epochs that have entered the model and not passed layer `l` (R339 step 3). -/
def olderPassed (m : Model) (l : Nat) : Bool :=
  m.started.all fun a =>
    decide (m.epoch ≤ a.2.1) ||
    a.2.2 == ((m.passed.filter fun q => q.1 == a.1 && q.2.1 == a.2.1 && q.2.2.1 == l).foldl (fun n q => n + q.2.2.2) 0)

/-- LAYER_INSTALL (R339 step 3). -/
def execLayerInstall (model : Nat) (s : State) : Outcome State Fault Refusal :=
  match tfind s.models model with
  | none => .next s
  | some m =>
    match m.layers[m.installed]? with
    | none => .next s
    | some l =>
      if m.state = mdlReplacing && !m.installing && olderPassed m m.installed then
        match m.stagedAt.find? fun e => e.1 == m.installed with
        | some (_, at_) =>
          let s := (List.range l.grains).foldl (fun s g =>
            let (data, tag, s) := readGrain s (spacePa m.stagePages (256 * (at_ + g)))
            writeGrain s (spacePa m.layerPages (l.offset + 256 * g)) data tag) s
          .next (setModel s model { m with installing := true })
        | none =>
          if readsInPlace m l && replReading m then
            .next (readAgain (copyLayer s m m.replSrcPa l) model
              { m with installing := true, staged := max m.staged (m.installed + 1), failures := [] })
          else .next s
      else .next s

/-- LAYER_INSTALLED (R339). -/
def execLayerInstalled (model : Nat) (s : State) : Outcome State Fault Refusal :=
  match tfind s.models model with
  | none => .next s
  | some m =>
    if m.state = mdlReplacing && m.installing then
      match m.layers[m.installed]? with
      | none => .next s
      | some l =>
        let m' := { m with
          layers := lset m.layers m.installed { l with epoch := m.epoch }, installed := m.installed + 1,
          installing := false, stagedAt := m.stagedAt.filter (fun e => e.1 != m.installed) }
        let s := wakeEnters (syncModel (setModel s model m') model) (handleOf model m) m.installed
        .next (if m.installed + 1 = m.layers.length then finishReplace s model m' else s)
    else .next s

/-- REPLACE_RETRY (R341): the failed read is made again; REPL_STATUS stays 0x4 until it succeeds, and the next failure ends the
try. -/
def execReplaceRetry (model : Nat) (s : State) : Outcome State Fault Refusal :=
  match tfind s.models model with
  | none => .next s
  | some m =>
    if m.state = mdlReplacing && m.replStatus != 1 then .next (setModel s model { m with retried := true })
    else .next s

/-- Writes the status of every model into its slot. -/
def syncModels (s : State) : State := s.models.foldl (fun s e => syncModel s e.1) s

/-- USE_DECAY (R335): 48,000,000 ticks after the last one. -/
def execUseDecay (s : State) : Outcome State Fault Refusal :=
  if now s < s.rollout.decayAt + 48000000 then .next s
  else
    let s := modRo s fun ro => { ro with decayAt := now s }
    .next (syncModels { s with models := tmap (fun _ m => { m with use := m.use / 2 }) s.models })

/-! ### ENTER and LEAVE (R149, R338) -/

/-- STARTED of a context and epoch. -/
def startedOf (m : Model) (n e : Nat) : Nat :=
  (m.started.find? fun a => a.1 == n && a.2.1 == e).elim 0 fun a => a.2.2

/-- PASSED of a context, epoch and layer. -/
def passedOf (m : Model) (n e l : Nat) : Nat :=
  (m.passed.find? fun a => a.1 == n && a.2.1 == e && a.2.2.1 == l).elim 0 fun a => a.2.2.2

/-- Counts one ENTER at layer 0. -/
def addStarted (m : Model) (n e : Nat) : Model :=
  { m with started := (m.started.filter fun a => !(a.1 == n && a.2.1 == e)) ++ [(n, e, startedOf m n e + 1)] }

/-- Counts one LEAVE. -/
def addPassed (m : Model) (n e l : Nat) : Model :=
  { m with passed := (m.passed.filter fun a => !(a.1 == n && a.2.1 == e && a.2.2.1 == l)) ++
      [(n, e, l, passedOf m n e l + 1)] }

end Machine
end Sys2Proof
end

