-- ==== Sys2Proof/Machine/Doorbells.lean ====
section
/-! DEFINITION. How firmware takes doorbells and commands: one partition's in the order they arrive (R418), the partitions in
rotation (R373), none while the control core that takes it restarts (R386, R399). -/

namespace Sys2Proof
namespace Machine

open Host (Outcome)

/-! ### Whose turn it is (R373, R418) -/

/-- Commands that wait in a ring. -/
def cmdWaiting (x : Part) : Nat := (x.cmdTail + 2 ^ 32 - x.cmdHead) % 2 ^ 32

/-- Whether commands stood in the ring before a doorbell that came when TAIL was `t`. -/
def commandsBefore (x : Part) (t : Nat) : Bool :=
  let d := (t + 2 ^ 32 - x.cmdHead) % 2 ^ 32
  d != 0 && decide (d < 2 ^ 31)

/-- The control core that handles a doorbell: the home of the request that it concerns (chapter 12), else core 0 (log 129). -/
def bellCore (s : State) (c : Instr) : Nat :=
  match c with
  | .cancel part slot => (reqBySlot s part slot).elim 0 fun e => homeCore e.2.ctx
  | .kick part slot => (reqBySlot s part slot).elim 0 fun e => homeCore e.2.ctx
  | _ => 0

/-- Whether a command's completion waits on back-invalidates (R414). -/
def completing (s : State) (p : Nat) : Bool := s.host.fwWaits.any fun w => w.acts.contains (.head p)

/-- What firmware is to take first of a partition's pending work: a doorbell, or (`none`) the command at the ring's HEAD. A DESTROY that
waits for its context, a completion that is not yet performed at HOST scope, or work for a control core that stops (R399), holds the
partition's later work back. -/
def firstWork (s : State) (p : Nat) : Option (Option Instr) :=
  let x := getPart s p
  let ring := if coreStops s 0 then none else some none
  if !accepting s p || x.destroyWait.isSome || completing s p then none
  else match x.bells with
    | (c, t) :: _ => if commandsBefore x t then ring else if coreStops s (bellCore s c) then none else some (some c)
    | [] => if decide (0 < cmdWaiting x) && x.cmdBase != 0 then ring else none

/-- The partition whose turn it is among those with work pending, and its work. -/
def nextTurn (s : State) : Option (Nat × Option Instr) :=
  (List.range 64).findSome? fun i =>
    let p := (s.host.turn + 1 + i) % 64
    (firstWork s p).map fun w => (p, w)

/-- Firmware takes work of a partition. -/
def takeTurn (s : State) (p : Nat) : State := { s with host := { s.host with turn := p } }

/-- Whether doorbells and commands of every partition wait: the module is on its way into Hold (R440 step 1). -/
def firmwareBusy (s : State) : Bool := s.pwr.holdAsked

/-! ### Doorbells -/

/-- DOORBELL_RESERVED_OP (R303, Tables 12.9 and 13.6): ignored, and BAD_DOORBELL set. -/
def reservedBell (models : Bool) (s : State) (part : Nat) (value : Word) : State :=
  let op := fld value 63 60
  if 1 ≤ op && decide (op ≤ if models then 5 else 3) then s
  else modPart s part fun p => if models then { p with mdlBadDoorbell := true } else { p with rqBadDoorbell := true }

/-- What a doorbell does when firmware takes it; other commands are none. -/
def ringBell (c : Instr) (s : State) : State :=
  match c with
  | .submit part slot => submitEffect s part slot
  | .cancel part slot => slotDoorbell s part slot cancelRequest
  | .kick part slot => slotDoorbell s part slot publishHeld
  | .pfxRelease part handle => pfxReleaseEffect s part handle
  | .load part slot => loadEffect s part slot
  | .unload part slot => unloadEffect s part slot
  | .replace part slot => modelDoorbell s part slot fun s ix m => replaceEffect s part slot ix m
  | .attach part slot ctx serve => attachEffect s part slot ctx serve
  | .detach part slot ctx => detachEffect s part slot ctx
  | .doorbellReservedOp models part value => reservedBell models s part value
  | _ => s

/-- Firmware takes doorbells as long as one is next. -/
def takeBells : Nat → State → State
  | 0, s => s
  | fuel + 1, s =>
    match nextTurn s with
    | some (p, some c) =>
      takeBells fuel (ringBell c (takeTurn (modPart s p fun x => { x with bells := x.bells.drop 1 }) p))
    | _ => s

/-- Doorbells that wait, of every partition. -/
def bellCount (s : State) : Nat := s.parts.foldl (fun n e => n + e.2.bells.length) 0

/-- Firmware goes on with what waits for it. -/
def pumpBells (s : State) : State := if firmwareBusy s then s else takeBells (bellCount s) s

/-- Whether firmware takes a doorbell of a partition as it arrives: its control core does not stop, and no work is pending. -/
def bellAtOnce (s : State) (p : Nat) (c : Instr) : Bool :=
  !firmwareBusy s && !coreStops s (bellCore s c) && (getPart s p).bells.isEmpty && cmdWaiting (getPart s p) == 0 && (nextTurn s).isNone

/-- A doorbell arrives: it is taken at once, or waits for its turn. -/
def doorbell (p : Nat) (c : Instr) (s : State) : Outcome State Fault Refusal :=
  if !accepting s p then .next s
  else if bellAtOnce s p c then .next (ringBell c (takeTurn s p))
  else .next (pumpBells (modPart s p fun x => { x with bells := x.bells ++ [(c, x.cmdTail)] }))

/-- SUBMIT (R303). -/
def execSubmit (part slot : Nat) (s : State) : Outcome State Fault Refusal := doorbell part (.submit part slot) s

/-- CANCEL (R317). -/
def execCancel (part slot : Nat) (s : State) : Outcome State Fault Refusal := doorbell part (.cancel part slot) s

/-- KICK (R320): READ is read again, and a held entry that now fits is published. -/
def execKick (part slot : Nat) (s : State) : Outcome State Fault Refusal := doorbell part (.kick part slot) s

/-- PREFIX_RELEASE (R316). -/
def execPfxRelease (part : Nat) (handle : Word) (s : State) : Outcome State Fault Refusal :=
  doorbell part (.pfxRelease part handle) s

/-- LOAD (R330). -/
def execLoad (part slot : Nat) (s : State) : Outcome State Fault Refusal := doorbell part (.load part slot) s

/-- UNLOAD (R336). -/
def execUnload (part slot : Nat) (s : State) : Outcome State Fault Refusal := doorbell part (.unload part slot) s

/-- REPLACE (R339). -/
def execReplace (part slot : Nat) (s : State) : Outcome State Fault Refusal := doorbell part (.replace part slot) s

/-- ATTACH (R331, R333). -/
def execAttach (part slot ctx : Nat) (serve : Bool) (s : State) : Outcome State Fault Refusal :=
  doorbell part (.attach part slot ctx serve) s

/-- DETACH (R331). -/
def execDetach (part slot ctx : Nat) (s : State) : Outcome State Fault Refusal := doorbell part (.detach part slot ctx) s

/-- A doorbell with a reserved operation (R303, R328). -/
def execDoorbellReservedOp (models : Bool) (part : Nat) (value : Word) (s : State) : Outcome State Fault Refusal :=
  doorbell part (.doorbellReservedOp models part value) s

end Machine
end Sys2Proof
end

