-- ==== Sys2Proof/Machine/Collective.lean ====
section
/-! DEFINITION. Collectives (R275 to R285): what each member sends, how the owner combines, compression and Whey feedback,
GFLAG and ATTEMPT, the end of a step, and RESHARD from its fence to its commit or rollback (R292 to R294). -/

namespace Sys2Proof
namespace Machine

/-! ### Layout of a tensor as a list of grains -/

/-- First grain of shard `k` of `n` in a tensor of `g` grains (R276). -/
def shardLo (g n k : Nat) : Nat := k * g / n

/-- The position of this module among the members. -/
def memberIx (members : List Nat) (p : Nat) : Nat := (members.findIdx? fun q => q == p).getD 0

/-- Elements of one format as numbers, from bytes. -/
def unpackBits (bits n : Nat) (bs : List Byte) : List Nat :=
  let v := leNat bs
  (List.range n).map fun i => (v >>> (bits * i)) % 2 ^ bits

/-- Bytes from elements. -/
def packBits (bits bytes : Nat) (es : List Nat) : List Byte :=
  leBytes bytes (es.foldr (fun e a => e % 2 ^ bits + a <<< bits) 0)

/-- The blocks of a tensor with block scales: byte offset of 32 elements and of their scale in its list of grains
(R84, R213). -/
def blockOffsets (t : Tensor) : List (Nat × Nat) :=
  let eb := 4 * elemBits t.fmt
  if t.layout = 0 then
    (List.range t.rows).flatMap fun r => (List.range (t.d0 / 32)).map fun j =>
      (r * t.rowGrains * 256 + j * eb, t.dataGrains * 256 + r * t.scaleRowGrains * 256 + j)
  else
    (List.range t.tiles).flatMap fun i => (List.range 128).flatMap fun r => (List.range 4).map fun j =>
      (i * tileGrains t.fmt * 256 + r * 4 * eb + j * eb, i * tileGrains t.fmt * 256 + 512 * eb + 4 * r + j)

/-! ### Combining (R277) -/

/-- One combining step on element bits, and on values carried in FP32 or exactly. -/
def redBits (red a b : Nat) : Nat := if red = 4 then a &&& b else if red = 5 then a ||| b else a ^^^ b

def redVal (red : Nat) (a b : FVal) : FVal :=
  if red = 1 then r32 false (a.add b) else if red = 2 then FVal.max a b else FVal.min a b

/-- INT32 saturating addition. -/
def addI32 (a b : Int) : Int := (satInt 0xB (a + b)).1

/-- One reduced element from the members' elements in ascending member order. -/
def reduceElem (f red : Nat) (es : List Nat) : Nat :=
  match es with
  | [] => 0
  | e :: rest =>
    if 4 ≤ red then rest.foldl (redBits red) e
    else if red = 1 && f = 0xB then
      intBits f (rest.foldl (fun a b => addI32 a (decodeI f b)) (decodeI f e))
    else (roundTo f .ne false (rest.foldl (fun a b => redVal red a (decodeV false f b 0)) (decodeV false f e 0))).1

/-- One reduced grain. -/
def reduceGrain (f red : Nat) (gs : List (List Byte)) : List Byte :=
  match gs with
  | [g] => g
  | _ =>
    let b := elemBits f
    let n := 2048 / b
    let cols := gs.map (unpackBits b n)
    packBits b 256 ((List.range n).map fun i => reduceElem f red (cols.map fun c => c.getD i 0))

/-- MAX or MIN of one block of scaled elements, written with new scales. -/
def reduceBlock (f red : Nat) (bs : List (List Byte × Nat)) : List Byte × Nat :=
  let b := elemBits f
  let vals := bs.map fun m => (unpackBits b 32 m.1).map fun e => decodeV false f e m.2
  let vs := (List.range 32).map fun i =>
    match vals.map (fun v => v.getD i .zero) with
    | [] => FVal.zero
    | v :: rest => rest.foldl (redVal red) v
  let sc := blockScaleOf f none vs
  let es := vs.map fun v => if sc = 0xFF then 0 else (roundF f .ne false (v.scale (127 - (sc : Int)))).1
  (packBits b (4 * b) es, sc)

/-- MAX or MIN of whole tensors with block scales. -/
def reduceScaled (t : Tensor) (red : Nat) (ms : List (List Byte)) : List Byte :=
  (blockOffsets t).foldl (fun out o =>
    let r := reduceBlock t.fmt red (ms.map fun m => (slice m o.1 (4 * elemBits t.fmt), ((m.getD o.2 0).toNat)))
    patch (patch out o.1 r.1) o.2 [BitVec.ofNat 8 r.2]) (zeros (256 * t.grains))

/-! ### Compression (R279, R280) -/

/-- FP32 values of bytes. -/
def f32s (bs : List Byte) : List FVal := (unpackBits 32 (bs.length / 4) bs).map fun e => decodeF 1 e

def f32bytes (vs : List FVal) : List Byte := vs.flatMap fun v => leBytes 4 (f32bits v)

/-- Blocks of at most 4,096 elements. -/
def blocks4096 : Nat → List FVal → List (List FVal)
  | 0, _ => []
  | k + 1, vs => if vs.isEmpty then [] else vs.take 4096 :: blocks4096 k (vs.drop 4096)

def blocksOf (vs : List FVal) : List (List FVal) := blocks4096 (vs.length / 4096 + 1) vs

/-- Whether |a| ranks before |b|: NaN above ∞ above every finite value, ties to the lower index (R279). -/
def skimBefore (a b : Nat × FVal) : Bool :=
  match a.2, b.2 with
  | .nan, .nan => decide (a.1 < b.1)
  | .nan, _ => true
  | _, .nan => false
  | x, y => match FVal.cmp x.abs y.abs with
    | some c => if c = 0 then decide (a.1 < b.1) else decide (c > 0)
    | none => false

/-- Insertion of an element in rank order. -/
def rankInsert (x : Nat × FVal) : List (Nat × FVal) → List (Nat × FVal)
  | [] => [x]
  | y :: ys => if skimBefore x y then x :: y :: ys else y :: rankInsert x ys

/-- Indices of the `k` elements that Skim keeps, ascending. -/
def skimKept (k : Nat) (vs : List FVal) : List Nat :=
  let idx := vs.zipIdx.map fun e => (e.2, e.1)
  ((idx.foldl (fun l x => rankInsert x l) []).take k).map Prod.fst |>.foldl (fun l i => insertAsc i l) []

def padGrain (bs : List Byte) : List Byte := fit (cdiv bs.length 256 * 256) bs

/-- A Skim block record, and the block's new residual. -/
def skimBlock (k : Nat) (es : List FVal) : List Byte × List FVal :=
  let kept := skimKept (min k es.length) es
  (padGrain (kept.flatMap fun i => leBytes 8 (f32bits (es.getD i .zero) <<< 32 + i)),
   es.zipIdx.map fun e => if kept.contains e.2 then FVal.zero else e.1)

/-- The scale of a sign-mode block. -/
def signScale (es : List FVal) : FVal :=
  let sum := es.foldl (fun a e => r32 false (a.add e.abs)) FVal.zero
  let f := if es.length = 4096 then .fin false 1 (-12) else r32 false (fone.div (.ofInt es.length))
  r32 false (sum.mul f)

/-- A sign-mode bit record. -/
def signBits (es : List FVal) : List Byte :=
  padGrain (packBits 1 (es.length / 8) (es.map fun e => f32bits e >>> 31))

/-- Grains of bytes, with one poison bit for all. -/
def grainsWith (bs : List Byte) (p : Bool) : List (List Byte × Bool) :=
  (List.range (bs.length / 256)).map fun i => (slice bs (256 * i) 256, p)

/-- What one shard's elements become on the wire under COMP, and their new residual, as grains with their poison; `bad b` says
whether a source or residual grain of block `b` is poisoned. -/
def compressShard (comp k : Nat) (bad : Nat → Bool) (es : List FVal) : List (List Byte × Bool) × List (List Byte × Bool) :=
  let bs := (blocksOf es).zipIdx
  if comp = 1 then
    let r := bs.map fun b => (skimBlock k b.1, bad b.2)
    (r.flatMap fun x => grainsWith x.1.1 x.2, r.flatMap fun x => grainsWith (f32bytes x.1.2) x.2)
  else
    let sc := bs.map fun b => (signScale b.1, b.2)
    let w (es : List FVal) (s : FVal) : List FVal :=
      es.map fun e => r32 false (e.add (if f32bits e >>> 31 = 1 then s else s.negate))
    (bs.flatMap (fun b => grainsWith (signBits b.1) (bad b.2)) ++
      (List.range (cdiv sc.length 64)).map (fun i =>
        let g := (sc.drop (64 * i)).take 64
        (fit 256 (f32bytes (g.map Prod.fst)), g.any fun x => bad x.2)),
     (bs.zip sc).flatMap fun p => grainsWith (f32bytes (w p.1.1 p.2.1)) (bad p.1.2))

/-- Grains of a Skim block record of L elements. -/
def skimGrains (k l : Nat) : Nat := cdiv (min k l * 8) 256

/-- Lengths of the blocks of a shard of `n` elements. -/
def blockLens : Nat → Nat → List Nat
  | 0, _ => []
  | f + 1, n => if n = 0 then [] else min 4096 n :: blockLens f (n - 4096)

/-- Grains of a shard's stream: per block, and of the scales after all bit records. -/
def streamGrains (comp k elems : Nat) : Nat :=
  let ls := blockLens (elems / 4096 + 1) elems
  if comp = 1 then ls.foldl (fun n l => n + skimGrains k l) 0
  else ls.foldl (fun n l => n + cdiv (l / 8) 256) 0 + cdiv (4 * ls.length) 256

/-- A Skim block rebuilt: values, and which of its grains of 64 values are poisoned. An element that no entry names is +0.0 by every
entry of the block, so a poisoned entry grain poisons the whole block (R279, R283). -/
def unskim (k l : Nat) (gs : List (List Byte × Bool)) : List FVal × List Bool :=
  let bs := gs.flatMap Prod.fst
  let ents := (List.range (min k l)).map fun i => leNat (slice bs (8 * i) 8)
  ((List.range l).map fun i =>
    match ents.find? fun e => e % 4096 == i with
    | some e => decodeF 1 (e >>> 32)
    | none => .zero, List.replicate (l / 64) (gs.any Prod.snd))

/-- The dense values of a Skim stream, block by block, each with its poison. -/
def unskimAll (k : Nat) : List Nat → List (List Byte × Bool) → List (List FVal × List Bool)
  | [], _ => []
  | l :: ls, gs => unskim k l (gs.take (skimGrains k l)) :: unskimAll k ls (gs.drop (skimGrains k l))

/-- The dense values of a sign-mode stream; a grain of 64 values depends on the grain of its sign bits and on that of its scale. -/
def unsign (scales : List (FVal × Bool)) : Nat → List Nat → List (List Byte × Bool) → List (List FVal × List Bool)
  | _, [], _ => []
  | b, l :: ls, gs =>
    let n := cdiv (l / 8) 256
    let g := gs.take n
    let (s, p) := scales.getD b (.zero, false)
    ((unpackBits 1 l (g.flatMap Prod.fst)).map fun x => if x = 1 then s.negate else s,
      (List.range (l / 64)).map fun i => p || (g.getD (64 * i / 2048) ([], false)).2) :: unsign scales (b + 1) ls (gs.drop n)

/-- The dense values of a shard's stream, block by block, with the poison of each grain of 64 values. -/
def decompress (comp k elems : Nat) (gs : List (List Byte × Bool)) : List (List FVal × List Bool) :=
  let ls := blockLens (elems / 4096 + 1) elems
  if comp = 1 then unskimAll k ls gs
  else
    let bitG := ls.foldl (fun n l => n + cdiv (l / 8) 256) 0
    let sg := gs.drop bitG
    let scales := sg.flatMap fun g => (f32s g.1).map fun v => (v, g.2)
    unsign scales 0 ls gs

/-! ### A COLL in progress -/

/-- The parts of a COLL that its descriptors give. -/
structure CollView where
  d : ColDesc
  src : Tensor
  dst : Tensor
  members : List Nat
  me : Nat
  /-- MAX or MIN on block-scaled elements, for which every member's whole source is needed. -/
  scaled : Bool
  deriving DecidableEq, Repr

def collView (s : State) (c : Coll) : Option CollView :=
  match colDescOf s.peers.self c.desc, tensorOf c.src, tensorOf c.dst with
  | some d, some a, some b =>
    let ms := membersOf d.members
    some { d := d, src := a, dst := b, members := ms, me := memberIx ms s.peers.self,
           scaled := decide (d.op ≤ 1) && isBlockF a.fmt }
  | _, _, _ => none

def CollView.n (v : CollView) : Nat := v.members.length
/-- Grains of the source. -/
def CollView.g (v : CollView) : Nat := v.src.grains
def CollView.lo (v : CollView) (k : Nat) : Nat := shardLo v.g v.n k
/-- No element to move (R97, Table 6.6). -/
def CollView.empty (v : CollView) : Bool := v.src.elems == 0 || (v.d.comp == 1 && v.d.k == 0)

/-- Wire index of the first grain of a contribution that is not a dense grain of the receiver's shard: a compressed stream, or the
grains of elements and scales that a shard of scaled elements is formed from. It lies above every index of a dense grain. -/
def CollView.streamBase (v : CollView) : Nat := v.g

/-- The grains of a tensor with block scales that a block lies in: its elements', and its scale's. -/
def blockGrains (t : Tensor) (o : Nat × Nat) : List Nat := [o.1 / 256, (o.1 + 4 * elemBits t.fmt - 1) / 256, o.2 / 256]

/-- The source grains that the reduced grains from `lo` up to `hi` of a tensor with block scales depend on, ascending: every grain of a
block that lies in one of them, since a reduced element takes its block's new scale from all the block's elements (R173, R277). -/
def scaledNeeds (t : Tensor) (lo hi : Nat) : List Nat :=
  ((blockOffsets t).map (blockGrains t)).foldl (fun l gs =>
    if gs.any fun g => decide (lo ≤ g) && decide (g < hi) then gs.foldl (fun l g => insertAsc g l) l else l) []

/-- The reduced grains of a tensor with block scales that depend on a poisoned source grain (R283). -/
def scaledBad (t : Tensor) (bad : Nat → Bool) : List Nat :=
  (blockOffsets t).flatMap fun o => if (blockGrains t o).any bad then blockGrains t o else []

/-- The position in an ALLGATH's destination of grain `i` of the source of member `k`: element grains before scale grains. -/
def gathIx (v : CollView) (k i : Nat) : Nat :=
  let dg := v.src.dataGrains
  if i < dg then k * dg + i else v.n * dg + k * (v.g - dg) + (i - dg)

/-- What this member sends to each member, itself included: receiver, wire index, data, tag; and the new residual grains of a
compressed collective (R276). -/
def collOut (v : CollView) (part : Nat) (src : List (List Byte × GrainTag)) (resid : List (List Byte × GrainTag)) :
    List (Nat × Nat × List Byte × GrainTag) × List (List Byte × Bool) :=
  let item (to_ ix g : Nat) : Nat × Nat × List Byte × GrainTag :=
    let e := src.getD g (zeros 256, mkTag (zeros 256) 0 part false)
    (to_, ix, e.1, e.2)
  let all (f : Nat → Nat → List (Nat × Nat × List Byte × GrainTag)) :=
    v.members.zipIdx.flatMap fun p => f p.1 p.2
  if v.empty then ([], [])
  else if 0 < v.d.comp then
    let r := v.members.zipIdx.map fun p =>
      let lo := v.lo p.2
      let n := v.lo (p.2 + 1) - lo
      let gs := (src.drop lo).take n
      let ws := (resid.drop lo).take n
      let es := ((gs.flatMap fun g => f32s g.1).zip (ws.flatMap fun g => f32s g.1)).map fun e => r32 false (e.1.add e.2)
      let bad (b : Nat) : Bool := (((gs.drop (64 * b)).take 64) ++ (ws.drop (64 * b)).take 64).any fun g => g.2.poison
      let (stream, w) := compressShard v.d.comp v.d.k bad es
      (stream.zipIdx.map fun e => (p.1, v.streamBase + e.2, e.1.1, mkTag e.1.1 1 part e.1.2), w)
    (r.flatMap Prod.fst, r.flatMap Prod.snd)
  else
    (match v.d.op with
      | 0 | 1 =>
        if v.scaled then all fun p k => (scaledNeeds v.src (v.lo k) (v.lo (k + 1))).map fun i => item p (v.streamBase + i) i
        else all fun p k => (List.range (v.lo (k + 1) - v.lo k)).map fun i => item p (v.lo k + i) (v.lo k + i)
      | 2 => all fun p _ => (List.range v.g).map fun i => item p (gathIx v v.me i) i
      | 3 => if v.d.root = v.members.getD v.me 0 then all fun p _ => (List.range v.g).map fun i => item p i i else []
      | _ => all fun p k => (List.range (v.g / v.n)).map fun i => item p (v.me * (v.g / v.n) + i) (k * (v.g / v.n) + i),
     [])

/-- Grains the destination needs. -/
def collNeed (v : CollView) : Nat := if v.empty then 0 else v.dst.grains

/-- Changes an open collective. -/
def modColl (s : State) (id : Nat) (f : Coll → Coll) : State :=
  match tfind s.hub.colls id with
  | some c => modHub s fun h => { h with colls := tput h.colls id (f c) }
  | none => s

/-- Ends a collective with a code: its group, its counts, the latch of its step (R152, R242). -/
def finishColl (s : State) (id code : Nat) : State :=
  match tfind s.hub.colls id with
  | none => s
  | some c =>
    let s := modHub s fun h => { h with colls := tdel h.colls id }
    let s := match collView s c with
      | none => s
      | some v =>
        let s := if v.d.op ≤ 1 then
            modReductions (modReductions s c.ctx v.src.id false) c.ctx v.dst.id false else s
        if c.poisoned && code != rcAborted then setLatch s c.ctx v.d.step else s
    groupEnds (peerOutCg s c.cg.agent c.cg.cg false) c.cg c.ctx code

/-- The code of a collective that has run to its end (R132: the largest). -/
def collCode (c : Coll) : Nat := if c.failed then rcTierFailed else if c.poisoned then rcPoisoned else rcOk

/-- A destination grain is written and counted; toward a peer or the host the write is a request of the collective's group (R462). -/
def collLand (s : State) (id : Nat) (v : CollView) (ix : Nat) (data : List Byte) (tag : GrainTag) : State :=
  match tfind s.hub.colls id with
  | none => s
  | some c =>
    if c.landed.contains ix || v.dst.grains ≤ ix then s
    else
      let s := groupWrite s c.cg c.ctx (v.dst.grainVa ix) data tag
      modColl s id fun c => { c with landed := insertAsc ix c.landed, poisoned := c.poisoned || tag.poison }

/-- Sends one grain of a collective to a member, under the member's FLOW. -/
def sendColdata (s : State) (n p flow ix : Nat) (data : List Byte) (tag : GrainTag) : State :=
  chargeLink (sendBulk s p (.coldata p flow ix data tag)) n 2 1

/-- Sends a member everything it is owed, once its ARRIVE is here (R275). -/
def collFlush (s : State) (id : Nat) (m : ArriveMsg) : State :=
  match tfind s.hub.colls id with
  | none => s
  | some c =>
    if c.sentTo.contains m.src || !c.read then s
    else
      let s := (c.mine.filter fun e => e.1 == m.src).foldl
        (fun s e => sendColdata s c.ctx m.src m.flow e.2.1 e.2.2.1 e.2.2.2) s
      let s := c.fwd.foldl (fun s e => sendColdata s c.ctx m.src m.flow e.1 e.2.1 e.2.2) s
      modColl s id fun c => { c with sentTo := m.src :: c.sentTo }

/-- The owner's reduced grain: written, and for ALLRED forwarded to every member heard (R276). -/
def collReduced (s : State) (id : Nat) (v : CollView) (ix : Nat) (data : List Byte) (poison : Bool) : State :=
  match tfind s.hub.colls id with
  | none => s
  | some c =>
    let tag := mkTag data v.src.fmt (getCtx s c.ctx).part poison
    let s := modColl s id fun c => { c with combined := insertAsc ix c.combined }
    if v.d.op = opRedscat then collLand s id v (ix - v.lo v.me) data tag
    else
      let s := collLand s id v ix data tag
      let s := modColl s id fun c => { c with fwd := c.fwd ++ [(ix, data, tag)] }
      (c.arrives.filter fun m => c.sentTo.contains m.src).foldl
        (fun s m => sendColdata s c.ctx m.src m.flow ix data tag) s

/-- A contribution received, by sender and wire index. -/
def gotOf (c : Coll) (src ix : Nat) : Option Got := c.got.find? fun g => g.src == src && g.grain == ix

/-- The grains of all members at a wire index, in member order, once all are here. -/
def allGot (c : Coll) (members : List Nat) (ix : Nat) : Option (List Got) := members.mapM fun p => gotOf c p ix

/-- Adds the dense blocks of the members in member order (R277). -/
def sumBlocks (ms : List (List (List FVal × List Bool))) : List (List FVal × List Bool) :=
  match ms with
  | [] => []
  | m :: rest => rest.foldl (fun acc x => (acc.zip x).map fun p =>
      ((p.1.1.zip p.2.1).map fun e => r32 false (e.1.add e.2), (p.1.2.zip p.2.2).map fun e => e.1 || e.2)) m

/-- The owner combines what is complete (R277). -/
def collCombine (s : State) (id : Nat) : State :=
  match tfind s.hub.colls id with
  | none => s
  | some c =>
    match collView s c with
    | none => s
    | some v =>
      if 1 < v.d.op || v.empty then s
      else
        let lo := v.lo v.me
        let own := v.lo (v.me + 1) - lo
        if v.scaled then
          let need := scaledNeeds v.src lo (lo + own)
          if !c.combined.isEmpty then s
          else match v.members.mapM fun p => need.mapM fun i => gotOf c p (v.streamBase + i) with
          | none => s
          | some ms =>
            let whole (m : List Got) : List Byte := (List.range v.g).flatMap fun i =>
              match m.find? fun g => g.grain == v.streamBase + i with | some g => g.data | none => zeros 256
            let out := reduceScaled v.src v.d.red (ms.map whole)
            let poison := scaledBad v.src fun i => ms.any fun m => m.any fun g => g.grain == v.streamBase + i && g.tag.poison
            (List.range own).foldl (fun s i =>
              collReduced s id v (lo + i) (slice out (256 * (lo + i)) 256) (poison.contains (lo + i))) s
        else if 0 < v.d.comp then
          let n := streamGrains v.d.comp v.d.k (64 * own)
          if !c.combined.isEmpty then s
          else match v.members.mapM fun p => (List.range n).mapM fun i => gotOf c p (v.streamBase + i) with
            | none => s
            | some ms =>
              let sum := sumBlocks (ms.map fun m => decompress v.d.comp v.d.k (64 * own) (m.map fun g => (g.data, g.tag.poison)))
              let gs := sum.flatMap fun b => (List.range (b.1.length / 64)).map fun i =>
                (f32bytes ((b.1.drop (64 * i)).take 64), b.2.getD i false)
              gs.zipIdx.foldl (fun s e => collReduced s id v (lo + e.2) e.1.1 e.1.2) s
        else
          (List.range own).foldl (fun s i =>
            if c.combined.contains (lo + i) then s
            else match allGot c v.members (lo + i) with
              | none => s
              | some gs => collReduced s id v (lo + i) (reduceGrain v.src.fmt v.d.red (gs.map fun g => g.data))
                  (gs.any fun g => g.tag.poison)) s

/-- Whether a wire index carries a contribution to this owner, rather than a grain of its destination. -/
def isContribution (v : CollView) (ix : Nat) : Bool :=
  decide (v.d.op ≤ 1) && (if v.scaled || decide (0 < v.d.comp) then decide (v.streamBase ≤ ix)
    else decide (v.lo v.me ≤ ix) && decide (ix < v.lo (v.me + 1)))

/-- A grain of a collective reaches this member, from another or from itself; a second copy is discarded (R271). -/
def collGot (s : State) (id src ix : Nat) (data : List Byte) (tag : GrainTag) : State :=
  match tfind s.hub.colls id with
  | none => s
  | some c =>
    match collView s c with
    | none => s
    | some v =>
      if isContribution v ix then
        if (gotOf c src ix).isSome then s
        else modColl s id fun c => { c with got := c.got ++ [{ src := src, grain := ix, data := data, tag := tag }] }
      else collLand s id v ix data tag

/-- Completes the collective once its destination is whole and every ARRIVE is here (R151). -/
def collCheck (s : State) (id : Nat) : State :=
  match tfind s.hub.colls id with
  | none => s
  | some c =>
    match collView s c with
    | none => s
    | some v =>
      if !c.waiting && c.read && decide (collNeed v ≤ c.landed.length) &&
        (othersOf s v.d.members).all fun p => c.arrives.any fun m => m.src == p
      then finishColl s id (collCode c) else s

/-! ### GFLAG (R282) -/

/-- Settles one Whey header (R281); one in a range that a RESHARD holds waits for its completion (R294). -/
def settleHeader (s : State) (n step va : Nat) (applied : Bool) : State :=
  if reshardHolds s n va then modHub s fun h => { h with wheyDue := h.wheyDue ++ [(n, step, va, applied)] }
  else
    let (d, t, s) := engineRead s n va
    let w0 := leNat (d.take 8)
    let cur := w0 % 2
    let nw0 := if applied then 1 - cur else cur
    let w1 := leNat (slice d 8 8)
    let nw1 := if applied then step <<< 32 + w1 % 2 ^ 32 else w1
    let d' := patch (patch d 0 (leBytes 8 nw0)) 8 (leBytes 8 nw1)
    engineWrite s n va d' (mkTag d' t.format t.part t.poison)

/-- Settles the Whey residuals of a step (R281). -/
def settleWhey (s : State) (n step : Nat) (applied : Bool) : State :=
  let todo := s.hub.whey.filter fun e => e.1 == n && e.2.1 == step
  let s := modHub s fun h => { h with whey := h.whey.filter fun e => !(e.1 == n && e.2.1 == step) }
  todo.foldl (fun s e => settleHeader s n step e.2.2 applied) s

/-- Poisons a grain of a collective's destination; one in a range that a RESHARD holds, after its completion (R154, R294). -/
def collPoison (s : State) (ref : CgRef) (n va : Nat) : State :=
  if reshardHolds s n va then modHub s fun h => { h with poisonDue := h.poisonDue ++ [(ref, n, va)] } else enginePoison s ref n va

/-- What collectives left to do in held ranges is done where nothing holds them any more. -/
def settleDue (s : State) : State :=
  let ws := s.hub.wheyDue
  let ps := s.hub.poisonDue
  let s := modHub s fun h => { h with wheyDue := [], poisonDue := [] }
  let s := ws.foldl (fun s e => settleHeader s e.1 e.2.1 e.2.2.1 e.2.2.2) s
  ps.foldl (fun s e => collPoison s e.1 e.2.1 e.2.2) s

/-- Whether a RESHARD awaits the GFLAG of a step of its context (R293). -/
def awaitsGflag (n step : Nat) (r : Reshard) : Bool :=
  r.ctx == n && fld (dw r.desc 1) 63 32 == step && r.phase != .committing && r.phase != .rolledBack

/-- A RESHARD meets the GFLAG of its step: one that is staged whole commits where the step applies; any other rolls back, and one not
staged yet gives its group ABORTED first and lets a thread at its fence go on (R154, R293). -/
def settleReshard (s : State) (id : Nat) (r : Reshard) (applied : Bool) : State :=
  let put (s : State) (p : ReshardPhase) : State :=
    modHub s fun h => { h with reshards := tput h.reshards id { r with phase := p } }
  match r.phase with
  | .staged => put s (if applied && r.code != rcAborted then .committing else .rolledBack)
  | .staging => groupEnds (put s .rolledBack) r.cg r.ctx rcAborted
  | _ =>
    let s := modHub s fun h => { h with fenceTicks := h.fenceTicks + (now s - r.issued) }
    groupEnds (wakeAgent (put s .rolledBack) r.cg.agent (some 0)) r.cg r.ctx rcAborted

/-- A GFLAG returns: RESHARDs of its step commit or roll back, Whey settles, ATTEMPT rises on ABORTED, the thread goes on
(R153, R282, R293). -/
def gflagReturn (s : State) (g : GflagWait) (flag : Bool) (rc : Nat) : State :=
  let applied := !flag && rc == rcOk
  let s := modHub s fun h => { h with
    gflags := h.gflags.filter fun x => !(x.ctx == g.ctx && x.attempt == g.attempt && x.step == g.step)
    gflagMsgs := h.gflagMsgs.filter fun m => !(m.group == g.group && m.attempt == g.attempt && m.step == g.step) }
  let s := (s.hub.reshards.filter fun e => awaitsGflag g.ctx g.step e.2).foldl (fun s e => settleReshard s e.1 e.2 applied) s
  let s := settleWhey s g.ctx g.step applied
  let s := if rc = rcAborted then raiseAttempt s g.group else s
  wakeAgent s g.agent (some (b2n flag + rc <<< 8))

/-- Returns a GFLAG once its message is sent and every member is heard. -/
def gflagCheck (s : State) (g : GflagWait) : State :=
  let heard := s.hub.gflagMsgs.filter fun m => m.group == g.group && m.attempt == g.attempt && m.step == g.step
  if g.sent && (othersOf s g.members).all fun p => heard.any fun m => m.src == p then
    let heard := heard.filter fun m => bit g.members m.src
    let ab := heard.any fun m => m.aborted
    gflagReturn s g (g.flag || heard.any fun m => m.flag || m.aborted) (if ab then rcAborted else rcOk)
  else s

/-- Whether an earlier COLL of the context still waits to start: the context's COL instructions start in issue order (R151, R164). -/
def colBefore (s : State) (n order : Nat) : Bool :=
  s.hub.colls.any fun e => e.2.waiting && e.2.ctx == n && decide (e.2.order < order)

/-- Sends the message of a GFLAG whose turn it is and whose RESHARDs are all staged (R151, R293), with what the step's latch holds by
then (R242), and returns it if every member is heard. -/
def gflagSend (s : State) (g : GflagWait) : State :=
  let staged := s.hub.reshards.all fun e => !awaitsGflag g.ctx g.step e.2 || e.2.phase == .staged
  if g.sent || !staged || colBefore s g.ctx g.order then s
  else
    let g' := { g with sent := true, flag := g.flag || latchTaken s g.ctx g.step }
    let s := clearLatch s g.ctx g.step
    let s := castCtl s g.ctx g.members fun p => .gflagMsg p g.group g.attempt g.step g'.flag false
    let s := modHub s fun h => { h with gflags := h.gflags.map fun x => if x = g then g' else x }
    gflagCheck s g'

/-- Tries every GFLAG that waits. -/
def gflagPump (s : State) : State :=
  let s := s.hub.gflags.foldl gflagSend s
  s.hub.gflags.foldl gflagCheck s

/-! ### The end of a step (R154, R284) -/

/-- Whether an open collective or RESHARD is of a step. -/
def ofStep (ctx attempt step c a : Nat) (desc : BitVec 256) : Bool :=
  c == ctx && a == attempt && fld (dw desc 1) 63 32 == step

/-- MEMBERS of the open work of a step. -/
def stepMembers (s : State) (n attempt step : Nat) : Nat :=
  let a := (s.hub.colls.filter fun e => ofStep n attempt step e.2.ctx e.2.attempt e.2.desc).map fun e => fld (dw e.2.desc 0) 39 32
  let b := (s.hub.reshards.filter fun e => ofStep n attempt step e.2.ctx e.2.attempt e.2.desc).map fun e => fld (dw e.2.desc 0) 39 32
  let c := (s.hub.gflags.filter fun g => g.ctx == n && g.attempt == attempt && g.step == step).map fun g => g.members
  (a ++ b ++ c).foldl (fun x y => x ||| y) 0

/-- Ends one open collective with ABORTED: every destination grain not yet produced is poisoned (R154). -/
def abortColl (s : State) (id : Nat) (c : Coll) : State :=
  let s := match collView s c with
    | none => s
    | some v => (List.range (collNeed v)).foldl (fun s i =>
        if c.landed.contains i then s else collPoison s c.cg c.ctx (v.dst.grainVa i)) s
  finishColl s id rcAborted

/-- Ends a RESHARD's group with ABORTED; it stands until its GFLAG rolls it back (R293). -/
def abortReshard (s : State) (id : Nat) (r : Reshard) : State :=
  match r.phase with
  | .staging =>
    let s := modHub s fun h => { h with reshards := tput h.reshards id { r with phase := .staged, code := rcAborted } }
    groupEnds s r.cg r.ctx rcAborted
  | _ => s

/-- Every open collective and GFLAG of the step ends (R154). -/
def endStep (s : State) (n attempt step : Nat) : State :=
  let g := (getCtx s n).colgroup
  let mask := stepMembers s n attempt step
  let first := !stepAborted s g attempt step
  let s := if first then modHub s fun h => { h with aborted := (g, attempt, step) :: h.aborted } else s
  let s := if first && mask != 0 then castCtl s n mask fun p => .gflagMsg p g attempt step true true else s
  let s := (s.hub.colls.filter fun e => ofStep n attempt step e.2.ctx e.2.attempt e.2.desc).foldl
    (fun s e => abortColl s e.1 e.2) s
  let s := (s.hub.reshards.filter fun e => ofStep n attempt step e.2.ctx e.2.attempt e.2.desc).foldl
    (fun s e => abortReshard s e.1 e.2) s
  (s.hub.gflags.filter fun x => x.ctx == n && x.attempt == attempt && x.step == step).foldl
    (fun s x => gflagReturn s x true rcAborted) s

/-- Steps with open work, as (context, attempt, step); with `fence`, that of RESHARDs that wait at their fence too. -/
def openSteps (s : State) (fence : Bool) (p : Nat → Nat → Bool) : List (Nat × Nat × Nat) :=
  ((s.hub.colls.filter fun e => p e.2.ctx (fld (dw e.2.desc 0) 39 32)).map fun e => (e.2.ctx, e.2.attempt, fld (dw e.2.desc 1) 63 32)) ++
  ((s.hub.reshards.filter fun e => p e.2.ctx (fld (dw e.2.desc 0) 39 32) && (e.2.phase == .staging || e.2.phase == .staged ||
    (fence && e.2.phase == .fence))).map
    fun e => (e.2.ctx, e.2.attempt, fld (dw e.2.desc 1) 63 32)) ++
  ((s.hub.gflags.filter fun g => p g.ctx g.members).map fun g => (g.ctx, g.attempt, g.step))

/-! ### ARRIVE (R275, R151) -/

/-- The ARRIVE that this member sends for a collective. -/
def arriveOf (s : State) (n attempt : Nat) (d : ColDesc) (count check flow : Nat) : ArriveMsg :=
  { src := s.peers.self, group := (getCtx s n).colgroup, attempt := attempt, step := d.step, colseq := d.colseq,
    op := d.op, red := d.red, comp := d.comp, k := d.k, members := d.members, count := count, check := check, flow := flow }

/-- Whether two members' ARRIVEs agree (R151, R292). -/
def arriveAgrees (a b : ArriveMsg) : Bool :=
  a.op == b.op && a.red == b.red && a.comp == b.comp && a.k == b.k && a.members == b.members && a.count == b.count &&
  a.check == b.check

/-- Who is told of the abort that an ARRIVE of another shape causes: the members here, the sender and the members that it names (R151). -/
def toldOf (members : Nat) (m : ArriveMsg) : Nat := members ||| m.members ||| 2 ^ m.src

/-- An ARRIVE meets the local collective: a mismatch aborts the step (a sender that is no member here has other MEMBERS), else the
member is sent its data. -/
def collArrived (s : State) (id : Nat) (m : ArriveMsg) : State :=
  match tfind s.hub.colls id with
  | none => s
  | some c =>
    match collView s c with
    | none => s
    | some v =>
      if c.arrives.any (fun x => x.src == m.src) then s
      else if !bit v.d.members m.src || !arriveAgrees m (arriveOf s c.ctx c.attempt v.d v.src.elems 0 0) then
        endStep (sendAbort s c.ctx (toldOf v.d.members m) c.attempt v.d.step) c.ctx c.attempt v.d.step
      else
        let s := modColl s id fun c => { c with arrives := c.arrives ++ [m] }
        collCheck (collFlush s id m) id

/-- Takes the ARRIVEs that came before the local collective or RESHARD. -/
def takeEarly (s : State) (group attempt step colseq : Nat) : List ArriveMsg × State :=
  let p (m : ArriveMsg) : Bool := m.group == group && m.attempt == attempt && m.step == step && m.colseq == colseq
  (s.hub.earlyArrives.filter p, modHub s fun h => { h with earlyArrives := h.earlyArrives.filter fun m => !p m })

/-! ### Start of a COLL -/

/-- Residual grains of the copy in use, the header's address noted and PEND set (R281). -/
def wheyRead (s : State) (n : Nat) (v : CollView) : List (List Byte × GrainTag) × Nat × State :=
  let (h, _, s) := engineRead s n v.d.whey
  let cur := leNat (h.take 8) % 2
  let b := v.src.bytes
  let (ws, s) := engineReads s n ((List.range v.g).map fun i => v.d.whey + 256 + cur * b + 256 * i)
  (ws, cur, s)

/-- Writes the new residual into the other copy and sets PEND and PEND_STEP. -/
def wheyWrite (s : State) (c : Coll) (v : CollView) (cur : Nat) (w : List (List Byte × Bool)) : State :=
  let n := c.ctx
  let b := v.src.bytes
  let part := (getCtx s n).part
  let s := w.zipIdx.foldl (fun s e => groupWrite s c.cg n (v.d.whey + 256 + (1 - cur) * b + 256 * e.2) e.1.1
    (mkTag e.1.1 1 part e.1.2)) s
  let (h, t, s) := engineRead s n v.d.whey
  let h' := patch (patch h 0 (leBytes 8 (2 + cur))) 8 (leBytes 8 (leNat (slice h 8 8) / 2 ^ 32 * 2 ^ 32 + v.d.step))
  let s := groupWrite s c.cg n v.d.whey h' (mkTag h' t.format part t.poison)
  modHub s fun x => { x with whey := x.whey ++ [(n, v.d.step, v.d.whey)] }

/-- Whether any grain of a collective, its Whey area with them, lies in a range that a RESHARD holds (R294). -/
def collHeld (s : State) (n : Nat) (v : CollView) : Bool :=
  (decide (0 < v.d.comp) && (List.range (1 + 2 * v.g)).any fun g => reshardHolds s n (v.d.whey + 256 * g)) ||
  ((List.range v.src.grains).any fun g => reshardHolds s n (v.src.grainVa g)) ||
  ((List.range v.dst.grains).any fun g => reshardHolds s n (v.dst.grainVa g))

/-- What came for a collective while its grains were held is taken. -/
def takeInbox (s : State) (id : Nat) (c : Coll) : State :=
  c.inbox.foldl (fun s e => collGot s id e.1 e.2.1 e.2.2.1 e.2.2.2) (modColl s id fun c => { c with inbox := [] })

/-- A started collective whose grains are not held reads its source, takes its own contributions and what has come, and sends every
member heard its data. -/
def collRead (s : State) (id : Nat) (c : Coll) (v : CollView) : State :=
  let before := s.mem.tierFailed
  let (src, s) := if v.empty || (v.d.op == opBcast && v.d.root != s.peers.self) then ([], s)
    else engineReads s c.ctx ((List.range v.g).map v.src.grainVa)
  let part := (getCtx s c.ctx).part
  let (items, s) :=
    if 0 < v.d.comp && !v.empty then
      let (ws, cur, s) := wheyRead s c.ctx v
      let (items, w) := collOut v part src ws
      (items, wheyWrite s c v cur w)
    else ((collOut v part src []).1, s)
  let self := s.peers.self
  let failed := decide (before < s.mem.tierFailed)
  let s := modColl s id fun c => { c with mine := items.filter fun e => e.1 != self, read := true, failed := failed }
  let s := (items.filter fun e => e.1 == self).foldl (fun s e => collGot s id self e.2.1 e.2.2.1 e.2.2.2) s
  let s := c.arrives.foldl (fun s m => collFlush s id m) (takeInbox s id c)
  collCheck (collCombine s id) id

/-- A COLL starts: it ends at once in an aborted step or with an absent member (R274, R285); else ARRIVE goes to every other member,
and its grains are read unless a RESHARD holds them (R294). -/
def collBegin (s : State) (id : Nat) (c : Coll) (v : CollView) : State :=
  let c := { c with waiting := false, flow := id }
  let s := modHub s fun h => { h with colls := tput h.colls id c, nextFlow := (id + 1) % 4096 }
  if stepAborted s c.group c.attempt v.d.step || groupBlocked s v.d.members then finishColl s id rcAborted
  else
    let s := castCtl s c.ctx v.d.members fun p => .arriveMsg p (arriveOf s c.ctx c.attempt v.d v.src.elems 0 id)
    let s := if collHeld s c.ctx v then s else collRead s id c v
    let (early, s) := takeEarly s c.group c.attempt v.d.step v.d.colseq
    collCheck (early.foldl (fun s m => collArrived s id m) s) id

/-- Whether a FLOW names an open collective or a RESHARD past its fence. -/
def flowUsed (s : State) (f : Nat) : Bool :=
  thas s.hub.colls f || s.hub.reshards.any fun e => e.2.phase != .fence && e.2.flow == f

/-- A free FLOW, taken in rotation; none while the open-collective table is full (R275). A RESHARD takes an entry of it as a COLL
does (DESIGN CHOICE, log 124). -/
def freeFlow (s : State) : Option Nat :=
  let used := (s.hub.colls.filter fun e => !e.2.waiting).length + (s.hub.reshards.filter fun e => e.2.phase != .fence).length
  if 4096 ≤ used then none
  else (List.range (used + 1)).findSome? fun i =>
    let f := (s.hub.nextFlow + i) % 4096
    if flowUsed s f then none else some f

/-- Starts the collectives that wait for an entry of the table, in issue order (R151, R275). -/
def pumpColls : Nat → State → State
  | 0, s => s
  | fuel + 1, s =>
    match minBy (fun e => e.1) (s.hub.colls.filter fun e => e.2.waiting) with
    | none => s
    | some (key, c) =>
      match collView s c, freeFlow s with
      | some v, some id => pumpColls fuel (collBegin (modHub s fun h => { h with colls := tdel h.colls key }) id c v)
      | none, _ => pumpColls fuel (modHub s fun h => { h with colls := tdel h.colls key })
      | _, none => s

/-- A started collective whose grains a RESHARD held goes on once they are free (R294). -/
def collResume (s : State) (id : Nat) : State :=
  match tfind s.hub.colls id with
  | none => s
  | some c =>
    match collView s c with
    | none => s
    | some v =>
      if c.waiting || (c.read && c.inbox.isEmpty) || collHeld s c.ctx v then s
      else if c.read then collCheck (collCombine (takeInbox s id c) id) id
      else collRead s id c v

/-- Starts what can start, goes on with what can go on, and returns what can return. -/
def hubSettle (s : State) : State :=
  let s := s.hub.colls.foldl (fun s e => collResume s e.1) s
  gflagPump (pumpColls (s.hub.colls.length + 1) s)

/-! ### RESHARD (R292, R293) -/

def modReshard (s : State) (id : Nat) (f : Reshard → Reshard) : State :=
  match tfind s.hub.reshards id with
  | some r => modHub s fun h => { h with reshards := tput h.reshards id (f r) }
  | none => s

/-- New positions of this module that come from elsewhere. -/
def needPositions (s : State) (r : Reshard) (t : Tensor) : List Nat :=
  let g := geoOf r.mapRec t
  let self := s.peers.self
  let ms := membersOf (fld (dw r.desc 0) 39 32)
  (List.range (newGrains g r.mapRec self)).filter fun j => match sourceOf g r.mapRec ms self j with
    | .peer _ _ => true
    | _ => false

/-- A grain lands in staging. -/
def stageGrain (s : State) (id : Nat) (r : Reshard) (j : Nat) (data : List Byte) (tag : GrainTag) : State :=
  let s := engineWrite s r.ctx (r.mapRec.stageVa + 256 * j) data tag
  modReshard s id fun r => { r with filled := insertAsc j r.filled, poisoned := r.poisoned || tag.poison }

/-- Sends a member the grains it takes from this module. -/
def reshardFlush (s : State) (id : Nat) (m : ArriveMsg) : State :=
  match tfind s.hub.reshards id with
  | none => s
  | some r =>
    match tensorOf r.tensor with
    | none => s
    | some t =>
      if r.sentTo.contains m.src then s
      else
        let g := geoOf r.mapRec t
        let self := s.peers.self
        let ms := membersOf (fld (dw r.desc 0) 39 32)
        let n := if mapEmpty r.mapRec then 0 else newGrains g r.mapRec m.src
        let s := (List.range n).foldl (fun s j =>
          match sourceOf g r.mapRec ms m.src j with
          | .peer p i =>
            if p = self then
              let (d, tag, s) := engineRead s r.ctx (posVa g r.mapRec t false self i)
              let s := modHub s fun h => { h with grainsOut := h.grainsOut + 1 }
              sendColdata s r.ctx m.src m.flow j d tag
            else s
          | _ => s) s
        modReshard s id fun r => { r with sentTo := m.src :: r.sentTo }

/-- Whether a grain sent to a member under its FLOW still waits at a port, or for its acknowledgement there (R264). -/
def linkOwes (s : State) (m : ArriveMsg) : Bool :=
  s.ports.any fun e => (e.2.txWait ++ e.2.txBuf).any fun q => match q.msg with
    | .coldata p flow _ _ _ => !q.foreign && p == m.src && flow == m.flow
    | _ => false

/-- Staged (R292 step 4): every position has landed, every member has been sent its grains, and its links have acknowledged them. -/
def reshardCheck (s : State) (id : Nat) : State :=
  match tfind s.hub.reshards id with
  | none => s
  | some r =>
    match tensorOf r.tensor with
    | none => s
    | some t =>
      let need := if mapEmpty r.mapRec then [] else needPositions s r t
      let ms := othersOf s (fld (dw r.desc 0) 39 32)
      if r.phase == .staging && need.all (fun j => r.filled.contains j) && (ms.all fun p => r.sentTo.contains p) &&
        !r.arrives.any (linkOwes s) then
        let code := if r.poisoned then rcPoisoned else rcOk
        let s := modReshard s id fun r => { r with phase := .staged, code := code }
        groupEnds s r.cg r.ctx code
      else s

/-- An ARRIVE of a member meets the local RESHARD. -/
def reshardArrived (s : State) (id : Nat) (m : ArriveMsg) : State :=
  match tfind s.hub.reshards id with
  | none => s
  | some r =>
    match colDescOf s.peers.self r.desc, tensorOf r.tensor with
    | some d, some t =>
      if r.phase != .staging || r.arrives.any (fun x => x.src == m.src) then s
      else if !bit d.members m.src || !arriveAgrees m (arriveOf s r.ctx r.attempt d (geoOf r.mapRec t).total r.check 0) then
        endStep (sendAbort s r.ctx (toldOf d.members m) r.attempt d.step) r.ctx r.attempt d.step
      else
        let s := modReshard s id fun r => { r with arrives := r.arrives ++ [m] }
        reshardCheck (reshardFlush s id m) id
    | _, _ => s

/-- RESHARDs look again whether they are staged: a link has acknowledged flits (R292 step 4). -/
def reshardAcks (s : State) : State :=
  if s.hub.reshards.isEmpty then s else hubSettle (s.hub.reshards.foldl (fun s e => reshardCheck s e.1) s)

/-- The fence passes (R292): ARRIVE is sent under a FLOW of the RESHARD's own, local grains are copied into staging, the thread goes
on. -/
def reshardPass (s : State) (id : Nat) : State :=
  match tfind s.hub.reshards id with
  | none => s
  | some r =>
    match colDescOf s.peers.self r.desc, tensorOf r.tensor, freeFlow s with
    | some d, some t, some flow =>
      let s := modHub s fun h => { h with
        reshardCount := h.reshardCount + 1, fenceTicks := h.fenceTicks + (now s - r.issued), nextFlow := (flow + 1) % 4096 }
      let s := modReshard s id fun r => { r with phase := .staging, deadline := now s + d.limit, flow := flow }
      let g := geoOf r.mapRec t
      let self := s.peers.self
      let s := castCtl s r.ctx d.members fun p =>
        .arriveMsg p (arriveOf s r.ctx r.attempt d g.total r.check flow)
      let s := (if mapEmpty r.mapRec then [] else needPositions s r t).foldl (fun s j =>
        match sourceOf g r.mapRec (membersOf d.members) self j with
        | .peer p i =>
          if p = self then
            let (data, tag, s) := engineRead s r.ctx (posVa g r.mapRec t false self i)
            stageGrain (modHub s fun h => { h with grainsLocal := h.grainsLocal + 1 }) id r j data tag
          else s
        | _ => s) s
      let s := wakeAgent s r.cg.agent (some 0)
      let (early, s) := takeEarly s r.group r.attempt d.step d.colseq
      reshardCheck (early.foldl (fun s m => reshardArrived s id m) s) id
    | _, _, _ => s

/-- Whether a RESHARD at its fence may pass (R292): in its turn among the context's COL instructions (R151), and with a free entry of
the table (log 124). -/
def fenceOpen (s : State) (r : Reshard) : Bool :=
  let id := fld (dw r.tensor 3) 63 48
  (freeFlow s).isSome && !colBefore s r.ctx r.order && tget 0 (getCtx s r.ctx).reductions id == 0 &&
  s.hub.reshards.all fun e =>
    !(e.2.ctx == r.ctx && fld (dw e.2.tensor 3) 63 48 == id) || r.order ≤ e.2.order

/-- Requests held behind RESHARDs that are gone go on, and threads parked at their fences look again (R294, R152). -/
def releaseHeld (s : State) : State :=
  let s := settleDue s
  let s := modMem s fun m => { m with reqs := tmap (fun _ q =>
    if q.phase == .held && !reshardHolds s q.ctx q.va then { q with phase := .queued } else q) m.reqs }
  let wait (w : Park) : Bool := match w with | .layoutFence _ => true | _ => false
  let s := s.cores.foldl (fun s e => wakeCore s e.1 fun _ w => wait w) s
  s.ctxs.foldl (fun s e => wakeCtl s e.1 wait) s

/-- Commits a staged RESHARD (R293): each filled staging grain is copied to its position with its tag; missing positions are
zero and poisoned. -/
def commitReshard (s : State) (r : Reshard) (t : Tensor) : State :=
  let g := geoOf r.mapRec t
  let self := s.peers.self
  let ms := membersOf (fld (dw r.desc 0) 39 32)
  let s := if mapEmpty r.mapRec then s else
    (List.range (newGrains g r.mapRec self)).foldl (fun s j =>
      match sourceOf g r.mapRec ms self j with
      | .kept => s
      | .missing =>
        let s := modHub s fun h => { h with missingGrains := h.missingGrains + 1 }
        engineWrite s r.ctx (posVa g r.mapRec t true self j) (zeros 256)
          (mkTag (zeros 256) t.fmt (getCtx s r.ctx).part true)
      | .peer _ _ =>
        let (d, tag, s) := engineRead s r.ctx (r.mapRec.stageVa + 256 * j)
        engineWrite s r.ctx (posVa g r.mapRec t true self j) d tag) s
  modHub s fun h => { h with commits := h.commits + 1 }

/-- Removes a RESHARD that has completed, and lets what waited for it go on. -/
def dropReshard (s : State) (id : Nat) : State :=
  releaseHeld (modHub s fun h => { h with reshards := tdel h.reshards id })

/-- Abandons the hub work of a context without completing any group (R360, R397): its RESHARDs roll back; one that
waits at its fence has waited until now (R292 step 1). -/
def dropHubWork (s : State) (n : Nat) : State :=
  let gone := (s.hub.reshards.filter fun e => e.2.ctx == n && e.2.phase != .fence).length
  let waited := ((s.hub.reshards.filter fun e => e.2.ctx == n && e.2.phase == .fence).map fun e => now s - e.2.issued).foldl (· + ·) 0
  let s := modHub s fun h => { h with
    colls := h.colls.filter fun e => e.2.ctx != n
    reshards := h.reshards.filter fun e => e.2.ctx != n
    gflags := h.gflags.filter fun g => g.ctx != n
    flagged := h.flagged.filter fun f => f.1 != n
    rollbacks := h.rollbacks + gone
    whey := h.whey.filter fun e => e.1 != n
    wheyDue := h.wheyDue.filter fun e => e.1 != n
    poisonDue := h.poisonDue.filter fun e => e.2.1 != n
    fenceTicks := h.fenceTicks + waited }
  hubSettle (releaseHeld s)

end Machine
end Sys2Proof
end

