-- ==== Sys2Proof/Machine/Shares.lean ====
section
/-! DEFINITION. Shares: entitlements (R363), passes (R365), the message bound (R371), and the free cores of the module. -/

namespace Sys2Proof
namespace Machine

/-- Whether a partition holds a context in CREATED, LIVE or HELD. -/
def partActive (s : State) (p : Nat) : Bool := s.ctxs.any fun e => e.2.part == p && ctxActive e.2

/-- Logical cores that can be granted: 1,024 less the 128 of each lost logical die (R390); 128 before full service (R437). -/
def coreCount (s : State) : Nat := if s.pwr.service = 2 then 1024 - 128 * s.recov.lostDies.length else 128

/-- Cores that a partition's contexts hold. -/
def heldByPart (s : State) (p : Nat) : Nat :=
  (s.cores.filter fun e => e.1 < 1024 && match e.2.owner with
    | none => false
    | some n => (getCtx s n).part == p).length

/-- Cores that a context holds, in ascending logical order. -/
def heldByCtx (s : State) (n : Nat) : List Nat :=
  (s.cores.filter fun e => e.1 < 1024 && e.2.owner == some n).map Prod.fst

/-- The sum of SHARE over the partitions of R363. -/
def shareSum (s : State) : Nat :=
  ((enabledParts s).filter (partActive s)).foldl (fun k p => k + (getPart s p).shareNow) 0

/-- Firmware recomputes every entitlement (R363). -/
def recomputeEnt (s : State) : State :=
  let sum := shareSum s
  (List.range 64).foldl (fun s' p =>
    let e := if sum = 0 || !partEnabled s p then 0 else coreCount s * (getPart s p).shareNow / sum
    if (getPart s' p).ent = e then s' else modPart s' p fun x => { x with ent := e }) s

/-- The rise of a pass for core-ticks held at a share (R365). -/
def passRise (t share : Nat) : Nat := if share = 0 then t * 2 ^ 32 else t * 65536 / share

/-- The pass with which a new or restored context starts (R365). -/
def startPass (s : State) (n : Nat) : Nat :=
  let x := getCtx s n
  let live := (s.ctxs.filter fun e => e.1 != n && e.2.part == x.part && e.2.state == ctxLive).map fun e => e.2.pass
  match minBy id live with
  | none => x.pass
  | some m => max x.pass m

/-- The sum of SHARE over enabled partitions, and the message bound R of a partition (R371). -/
def irqRate (s : State) (p : Nat) : Nat :=
  let sum := (enabledParts s).foldl (fun k q => k + (getPart s q).shareNow) 0
  if sum = 0 || !partEnabled s p then 10000 else 10000 + 7360000 * (getPart s p).shareNow / sum

/-- Whether a core can be granted: in service, under no speed test (R438), and held by no context. -/
def coreFree (s : State) (c : Nat) : Bool :=
  let x := getCore s c
  x.owner.isNone && !x.lost && (physDie s (dieOfCore c)).isSome && !s.recov.lostDies.contains (dieOfCore c) &&
  (s.pwr.service == 2 || (s.pwr.service == 1 && decide (c < 128) && s.pwr.speedTest.isNone))

/-- The free cores of the module, in ascending logical order. -/
def freeCores (s : State) : List Nat := (List.range 1024).filter (coreFree s)

/-- The core counts and indices that a partition holds beyond its entitlement (R363). -/
def borrowedBy (s : State) (p : Nat) : Nat := heldByPart s p - (getPart s p).ent

end Machine
end Sys2Proof
end

