-- ==== Sys2Proof/Machine/Teardown.lean ====
section
/-! DEFINITION. Context faults (R100), the teardown of a context (R360, R362), its restart (R397, R398), and the freeing of
cores. -/

namespace Sys2Proof
namespace Machine

/-! ### Fault records (Table 4.16) -/

/-- The 32 bytes of a fault record. -/
def faultWords (f : FaultRec) : List Byte :=
  leBytes 8 (f.code <<< 56 + f.core <<< 46 + f.thread <<< 42 + f.block <<< 34 + (f.ip % 65536) <<< 16 + f.more) ++
  leBytes 8 f.insn.toNat ++ leBytes 8 (f.addr % 2 ^ 48) ++ leBytes 8 f.tick

/-- Writes the fault record to the context's register and to the first grain of its save area (R100, R359). -/
def setFaultRec (s : State) (n : Nat) (f : FaultRec) : State :=
  let s := modCtx s n fun x => { x with fault := f }
  let x := getCtx s n
  if x.saveGrains = 0 || unitLost s x.savePa then s
  else
    let d := fit 256 (faultWords f)
    writeGrain s x.savePa d (mkTag d 0 x.part false)

/-! ### Cores -/

/-- The counters that a context keeps for a core it gives up (R184, R192). -/
def keepCounters (s : State) (c : Nat) : State :=
  let x := getCore s c
  match x.owner with
  | none => s
  | some n => modCtx s n fun y =>
    { y with kept := if x.pepper.isEmpty && x.eligible == 0 then tdel y.kept (c % 1024) else tput y.kept (c % 1024) (x.pepper, x.eligible) }

/-- Frees a core: no owner, no program, threads, rings and groups empty (R360 step 3, R364). Its scratchpad stays until the
next load, its counters always. -/
def freeCore (s : State) (c : Nat) : State :=
  let s := keepCounters s c
  if 1024 ≤ c then { s with cores := tdel s.cores c }
  else modCore s c fun x =>
    { x with owner := none, prog := none, loading := false, threads := [], blocks := [], cgs := [],
             rings := [], sample := none, starvedSince := none,
             sumCredit := 4, sumFlight := [], d := [], ag := [], pepper := [], eligible := 0 }

/-- Removes a core from its context and frees it; the ends of its queues close (DESIGN CHOICE, log 147). -/
def dropCore (s : State) (n c : Nat) : State :=
  freeCore (modCtx (closeCoreEnds s c) n fun x => { x with coreset := x.coreset.filter fun k => k != c }) c

/-- Whether a request of a context's cores is outstanding (R360 step 3). -/
def coreReqsOut (s : State) (n : Nat) : Bool :=
  s.mem.reqs.any fun e => e.2.ctx == n && e.2.core.isSome

/-! ### The end of work in flight (R360 steps 1 and 2) -/

/-- The sample of a core's shadow buffer is discarded and counted (R195). -/
def dropSample (s : State) (n c : Nat) : State :=
  if (getCore s c).sample.isSome then
    modCtx (modCore s c fun x => { x with sample := none }) n fun x =>
      { x with num := { x.num with shSkipped := x.num.shSkipped + 1 } }
  else s

/-- Sessions, contributions, operations and snapshots of a context are dropped. -/
def dropUpdWork (s : State) (n : Nat) : State :=
  modUpd s fun u =>
    { u with
      sessions := u.sessions.filter fun e => e.2.ctx != n
      contribs := u.contribs.filter fun e => e.2.ctx != n
      ops := u.ops.filter fun e => e.2.ctx != n
      snapshots := u.snapshots.filter fun e => e.2.ctx != n }

/-- Every thread and the control thread stop; schedules stop; queue ends close; sessions are dropped; requests without a
slot are withdrawn. -/
def stopWork (s : State) (n : Nat) : State :=
  let cores := ctxCores s n
  let s := modCtx s n fun x => { x with saving := false, restoring := false, loadp := none, coresReq := none }
  let s := cores.foldl (fun s c => dropSample s n c) s
  let s := cores.foldl (fun s c => modCore s c fun x =>
    { x with loading := false, threads := [],
             starvedSince := none, blocks := tmap (fun _ b => { b with bound := 0, retired := true, readySince := none }) x.blocks }) s
  let s := { s with scheds := s.scheds.filter fun e => e.2.ctx != n }
  let s := modMem s fun m => { m with reqs := m.reqs.filter fun e => e.2.ctx != n || e.2.phase != .waitSlot }
  let s := cores.foldl closeCoreEnds s
  queueFreed (dropUpdWork s n)

/-- Requests assigned to a context. -/
def reqsOfCtx (s : State) (n : Nat) : List Nat :=
  (s.rollout.requests.filter fun e => e.2.ctx == some n && rqLive e.2).map Prod.fst

/-- Models attached to a context. -/
def modelsOfCtx (s : State) (n : Nat) : List Nat :=
  (s.models.filter fun e => attachedTo e.2 n).map Prod.fst

/-- Requests that a test holds of end: writes issued and not yet in their banks are performed, reads are discarded (R360 step 2). -/
def flushReqs (s : State) (p : MReq → Bool) : State :=
  let mine := s.mem.reqs.filter fun e => p e.2
  let s := mine.foldl (fun s e =>
    if e.2.isWrite && e.2.phase != .waitSlot && e.2.phase != .served then performWrite s e.2 else s) s
  modMem s fun m => { m with reqs := m.reqs.filter fun e => !p e.2 }

/-- The last steps of R360: cores are freed, mappings removed, the context ENDED, and its teardown entry placed and its
message requested (R362). -/
def endTeardown (s : State) (n : Nat) : State :=
  let x := getCtx s n
  let s := (ctxCores s n).foldl freeCore (flushReqs s fun r => r.ctx == n)
  let s := recomputeEnt (modCtx s n fun x => { x with state := ctxEnded, coreset := [], maps := [] })
  match x.reason with
  | none => s
  | some r =>
    let s := modPart s x.part fun p => { p with teardown := p.teardown ++ [(n, r)] }
    let p := getPart s x.part
    if p.evtEn then msixRequest s x.part p.evtVec true else s

/-- Teardown starts (R360 steps 1 and 2) unless the context is not CREATED, LIVE or HELD (R361). A partition reset, which
gives no reason, ends requests by itself (R375). A CREATED context is ENDED at once (Table 15.2). -/
def beginTeardown (s : State) (n : Nat) (reason : Reason) : State :=
  let st := (getCtx s n).state
  if !ctxActive (getCtx s n) then s
  else
    let s := modCtx s n fun x => { x with state := ctxEnding, reason := reason }
    let s := stopWork s n
    let s := if reason.isSome then (reqsOfCtx s n).foldl (fun s id => endRequest s id 0xA) s else s
    let s := settleSteps ((modelsOfCtx s n).foldl (fun s ix => detachOne s ix n) s) n
    let s := dropHubWork s n
    if st = ctxCreated then endTeardown s n else s

/-! ### Context faults (R100) -/

/-- Raises a context fault: the first tears the context down; later ones are counted in MORE; one of the same tick and a
lower core or thread takes the record. -/
def ctxFault (s : State) (n : Nat) (f : FaultRec) : State :=
  let x := getCtx s n
  if x.state = ctxCreated || x.state = ctxLive || x.state = ctxHeld then
    beginTeardown (setFaultRec s n { f with more := 0 }) n (some f.code)
  else if x.state = ctxEnding then
    let old := x.fault
    let more := satInc 16 old.more
    if f.tick = old.tick && decide (0 < old.code) && (decide (f.core < old.core) || (f.core == old.core && decide (f.thread < old.thread)))
    then setFaultRec s n { f with more := more }
    else setFaultRec s n { old with more := more }
  else s

/-- The fault record of an agent's instruction. -/
def faultOf (s : State) (a : Agent) (code addr : Nat) (insn : Word) (ip block : Nat) : FaultRec :=
  match a with
  | .thread c t =>
    { code := code, core := c, thread := t, block := block, ip := ip, more := 0, insn := insn,
      addr := if 3 ≤ code && code ≤ 5 then addr else 0, tick := now s }
  | .ctl _ =>
    { code := code, core := 0x3FF, thread := 0, block := 0, ip := ip, more := 0, insn := insn,
      addr := if 3 ≤ code && code ≤ 5 then addr else 0, tick := now s }

/-- The fault record of a loss of unit (R396, R397). -/
def lossRec (s : State) (core : Nat) : FaultRec :=
  { code := fcUnitLost, core := core, thread := 0, block := 0, ip := 0, more := 0, insn := 0, addr := 0, tick := now s }

/-! ### Restart (R397, R398) -/

/-- Ends one open step of a restarted context (R398): `own` is the ATTEMPT of its work; the messages carry the ATTEMPT that
is current before the raise. -/
def abortOpenStep (s : State) (n own step : Nat) : State :=
  let g := (getCtx s n).colgroup
  let attempt := attemptOf s g
  let mask := stepMembers s n own step
  let told := stepAborted s g own step ||
    s.hub.gflags.any fun x => x.ctx == n && x.attempt == own && x.step == step && x.sent
  let s := sendAbort s n mask attempt step
  let s := if told then s else castCtl s n mask fun p => .gflagMsg p g attempt step true true
  let s := modHub s fun h => { h with
    aborted := (g, own, step) :: h.aborted
    gflags := h.gflags.filter fun x => !(x.ctx == n && x.attempt == own && x.step == step) }
  raiseAttempt (settleWhey s n step false) g

/-- Ends every open step of a restarted context, in ascending step order (R398). -/
def abortOpenSteps (s : State) (n : Nat) : State :=
  let open_ := openSteps s true fun c _ => c == n
  let steps := open_.foldl (fun l e => insertAsc e.2.2 l) []
  steps.foldl (fun s step =>
    match open_.find? fun e => e.2.2 == step with
    | some e => abortOpenStep s n e.2.1 step
    | none => s) s

/-- What a restart does with a request of the context (R397): one evicted already stays so; one that holds an entry keeps it, and what
waits for it, until it is published (R320); else what waited for the end of its binding, or eviction. -/
def evictForRestart (s : State) (id : Nat) : State :=
  match getReq s id with
  | none => s
  | some r =>
    if r.state = rqEvicted then s
    else if r.heldEntry.isSome && (r.cancelPending || r.endOnEnd || r.moveOnEnd) then
      syncReq (modReq s id fun r => { r with bound := false }) id
    else if r.cancelPending || r.endOnEnd || r.moveOnEnd then
      afterBinding (modReq s id fun r => { r with bound := false }) id
    else evictReq s id false

/-- The control thread as a restart starts it. -/
def restartControl (restarts event va : Nat) : Control :=
  { Control.reset with
    codeVa := va
    thr := setS (setS { Thread.reset with st := .runnable } 1 (w64 restarts)) 2 (w64 event) }

/-- The restart of a context that lost a unit (R397). `event` is the event code of the loss, `core` the core named in the
record. -/
def restartCtx (s : State) (n event core : Nat) : State :=
  let s := stopWork s n
  let s := (reqsOfCtx s n).foldl evictForRestart s
  let s := settleSteps (abortOpenSteps s n) n
  let s := dropHubWork s n
  let s := flushReqs s fun r => r.ctx == n
  let s := (ctxCores s n).foldl freeCore s
  let s := modCtx s n fun x => { x with
    state := ctxLive, coreset := [], mail := [], barriers := [], reductions := [], restarts := x.restarts + 1,
    lastRestart := now s, kept := (x.kept.filter fun e => e.2.2 != 0).map fun e => (e.1, ([], e.2.2)) }
  let s := setFaultRec s n (lossRec s core)
  let s := modRec s fun r => { r with ctxRestarts := r.ctxRestarts + 1 }
  let s := logEvent s 0x11 noUnit (getCtx s n).part (some n) 0
  modCtx s n fun x => { x with ctl := restartControl x.restarts event x.restartVa }

/-- A context that lost a unit is restarted when it asks for that, else torn down with code 0x09 (R396). -/
def loseUnit (s : State) (n event core : Nat) : State :=
  let x := getCtx s n
  if x.state != ctxLive && x.state != ctxHeld then s
  else if x.restartEn then restartCtx s n event core
  else beginTeardown (setFaultRec s n (lossRec s core)) n (some fcUnitLost)

end Machine
end Sys2Proof
end

