-- ==== Sys2Proof/Machine/Frame.lean ====
section
/-! DEFINITION. The frame in which an instruction issues: who may issue it, its fetch (R75, R99), the illegal-instruction
checks (R88, R89, R130), the predicate (R90), what its body answers, faults (R99, R100) and parking (R47); and the guards
of a core's scratchpad (R94 rule 1, R217, R218). -/

namespace Sys2Proof
namespace Machine

open Host

/-! ### What a body answers -/

/-- The result of an instruction's body. -/
inductive IRes where
  /-- The instruction completes; the thread goes on with its next instruction. -/
  | done (s : State)
  /-- A branch to a word offset. -/
  | jump (s : State) (ip : Nat)
  /-- The thread parks; the instruction goes on when it is woken. -/
  | park (s : State) (cause : Nat) (w : Park)
  /-- A fault with its address; `own` marks a fault that is a context fault on a control thread too (R99). -/
  | fault (code addr : Nat) (own : Bool)
  /-- The thread has ended. -/
  | stop (s : State)
  deriving DecidableEq, Repr

/-- A descriptor fault of the instruction. -/
def descFault : IRes := .fault fcDescriptor 0 false

/-! ### Registers of an agent -/

/-- A scalar register of an agent. -/
def sOf (s : State) (a : Agent) (r : Nat) : Word := getS (threadOf s a) r

/-- Writes a scalar register of an agent. -/
def putS (s : State) (a : Agent) (r : Nat) (v : Word) : State := modThread s a fun t => setS t r v

/-- A descriptor register of an agent. -/
def dOf (s : State) (a : Agent) (r : Nat) : BitVec 256 :=
  match a with
  | .thread c _ => tget 0 (getCore s c).d r
  | .ctl n => tget 0 (getCtx s n).ctl.d r

/-- Writes a descriptor register of an agent. -/
def putD (s : State) (a : Agent) (r : Nat) (v : BitVec 256) : State :=
  match a with
  | .thread c _ => modCore s c fun x => { x with d := tput x.d r v }
  | .ctl n => modCtx s n fun x => { x with ctl := { x.ctl with d := tput x.ctl.d r v } }

/-- A completion group of an agent. -/
def cgOf (s : State) (a : Agent) (g : Nat) : Cg :=
  match a with
  | .thread c _ => getCg (getCore s c).cgs g
  | .ctl n => getCg (getCtx s n).ctl.cgs g

/-- Completes with a return code in s[DST] (R132). -/
def doneRc (s : State) (a : Agent) (w : Word) (rc : Nat) : IRes := .done (putS s a (iDst w) (w64 rc))

/-! ### Who may issue -/

/-- Whether an agent's next instruction may issue now: its context is LIVE, its thread runnable; a core's die clock runs and
the core is not being saved or restored; a control core neither restarts nor pauses (R42, R399, R452). -/
def canIssue (s : State) (a : Agent) (n : Nat) : Bool :=
  let t := threadOf s a
  (getCtx s n).state == ctxLive && !ctxStops (getCtx s n) && t.st == .runnable && !t.held &&
  match a with
  | .thread c _ => !(getCore s c).lost && pllRuns s c
  | .ctl k => !s.recov.fatal && !coreStops s (controlCoreOf k)

/-! ### Advance -/

/-- The word at a word offset of an agent's code, for a fault record; 0 outside a core's code region. -/
def wordAt (s : State) (a : Agent) (ip : Nat) : Word :=
  match a with
  | .thread c _ => let x := getCore s c; if ip < codeWords x then codeWord x ip else 0
  | .ctl _ => 0

/-- Whether a word offset lies in an agent's code: the block's range on a core (R41), 65,536 words on a control thread
(R75). -/
def inCode (s : State) (a : Agent) (ip : Nat) : Bool :=
  match a with
  | .thread c t =>
    match blockDesc (getCore s c) (getThread (getCore s c) t).block with
    | none => false
    | some d => decide (d.entry ≤ ip) && decide (ip < d.entry + d.length)
  | .ctl _ => decide (ip < 65536)

/-- The thread's instruction pointer moves on, and what its instruction kept for its completion is dropped; a next instruction
outside its code is an overrun (R41, R99). -/
def advance (s : State) (a : Agent) (n ip : Nat) : State :=
  let s := modThread s a fun t => { t with ip := ip, woken := none, sent := 0 }
  if inCode s a ip then s
  else ctxFault s n (faultOf s a fcOverrun 0 (wordAt s a ip) ip (threadOf s a).block)

/-- Parks an agent (R47). -/
def parkAgent (s : State) (a : Agent) (cause : Nat) (w : Park) : State :=
  let s := bump s
  let s := modThread s a fun t => { t with st := .parked cause w s.serial }
  match a with
  | .thread c _ => modCore s c fun x => { x with parks := x.parks + 1 }
  | .ctl _ => s

/-! ### The row of an instruction -/

/-- What an instruction's definition says of its word: class, major and the bits that select the row; its register files;
where it runs; the checks on its immediate and modifiers (R88, R101, R130); whether EXT may be 1 (R89), and which extension
words have no reserved bit set (R101). -/
structure Row where
  cls : Nat
  maj : Nat
  sub : Word → Bool
  regs : Word → RegUse
  cores : Bool
  ctl : Bool
  legal : Word → Bool
  ext : Bool
  extLegal : Word → Bool := fun _ => true

/-- Words of code that an extension pointer may name (R89). -/
def extLimit (s : State) (a : Agent) : Nat :=
  match a with
  | .thread c _ => codeWords (getCore s c)
  | .ctl _ => 65536

/-- Whether the extension word that a core's instruction names has a reserved bit set (R101). -/
def extReserved (row : Row) (s : State) (a : Agent) (w : Word) : Bool :=
  match a with
  | .thread c _ => iExt w && decide (iImm w < extLimit s a) && !row.extLegal (codeWord (getCore s c) (iImm w))
  | .ctl _ => false

/-- The checks of R88, which an instruction that its predicate does not select keeps (R90): register fields, the immediate and
the modifiers, EXT among them, and an ATTS extension word's reserved bits (R101). -/
def legalFor (row : Row) (s : State) (a : Agent) (w : Word) : Bool :=
  frameOk w (row.regs w) && (!iExt w || row.ext) && row.legal w && !extReserved row s a w

/-- The illegal instruction checks of other rules, made of a selected instruction only (R90): the agent it runs on (R75, R130),
and the end of the code that an extension pointer must stay below (R89). -/
def admits (row : Row) (s : State) (a : Agent) (w : Word) : Bool :=
  (match a with | .thread _ _ => row.cores | .ctl _ => row.ctl) && (!iExt w || decide (iImm w < extLimit s a))

/-- The fault of a control thread's own code fetch, if it has one (R99, Table 16.2). -/
def fetchFault (s : State) (a : Agent) : Option (Nat × Nat) :=
  match a with
  | .thread _ _ => none
  | .ctl n =>
    let va := (getCtx s n).ctl.codeVa + 8 * (getCtx s n).ctl.thr.ip
    match translate s n va false with
    | .error c => some (c, va)
    | .ok pa => if (readGrain s pa).2.1.poison then some (fcPoison, 0) else none

/-- Whether a fault of an agent is reported to its status register instead of ending the context (R99). -/
def reported (a : Agent) (code : Nat) (own : Bool) : Bool :=
  match a with
  | .thread _ _ => false
  | .ctl _ => code != fcIllegal && !own

/-- What an instruction does once its agent may issue it. A fault of the control thread's own code fetch is recorded with
INSTRUCTION 0, since no word was fetched (the model's choice, log 45). -/
def issue (row : Row) (a : Agent) (n : Nat) (w : Word) (body : State → IRes) (s : State) : State :=
  let t := threadOf s a
  let fault (code addr : Nat) : State := ctxFault s n (faultOf s a code addr w t.ip t.block)
  match fetchFault s a with
  | some (c, va) => ctxFault s n (faultOf s a c va 0 t.ip t.block)
  | none =>
    if !legalFor row s a w then fault fcIllegal 0
    else if !selected t w then advance s a n (t.ip + 1)
    else if !admits row s a w then fault fcIllegal 0
    else match body s with
      | .done s' => advance s' a n (t.ip + 1)
      | .jump s' ip => advance s' a n ip
      | .park s' cause wait => parkAgent s' a cause wait
      | .stop s' => s'
      | .fault code addr own =>
        if reported a code own then
          advance (modCtx s n fun x => { x with ctl := { x.ctl with status := statusWord code t.ip } }) a n (t.ip + 1)
        else fault code addr

/-- An instruction's row: without effect when its agent cannot issue, or when the word is another row's. -/
def runInstr (row : Row) (a : Agent) (w : Word) (body : Nat → State → IRes) (s : State) : Outcome State Fault Refusal :=
  match ctxOf s a with
  | none => .next s
  | some n =>
    if canIssue s a n && iClass w == row.cls && iMajor w == row.maj && row.sub w then .next (issue row a n w (body n) s)
    else .next s

/-- The core and thread of an agent on a core. -/
def onCore (a : Agent) (f : Nat → Nat → IRes) : IRes :=
  match a with
  | .thread c t => f c t
  | .ctl _ => .fault fcIllegal 0 false

/-- No condition on the word. -/
def always : Word → Bool := fun _ => true

/-- Fixed register use. -/
def regs4 (k0 k1 k2 k3 : RKind) : Word → RegUse := fun _ => { dst := k0, src1 := k1, src2 := k2, src3 := k3 }

/-- The completion group of an asynchronous instruction (R131). -/
def cgField (w : Word) : Option Nat := if bit (iImm w) 27 then some (bits (iImm w) 31 28) else none

/-! ### Guards of a core's scratchpad -/

/-- Whether the instruction may proceed, after the claims it makes by reading; or why not. -/
inductive Guard where
  | ok (s : State)
  | park (cause : Nat) (w : Park)
  | fault (code : Nat)
  deriving DecidableEq, Repr

/-- A landing that a run of bytes must wait for: the grain was requested by the same thread (R94 rule 1). -/
def landingMiss (s : State) (a : Agent) (runs : List (Nat × Nat)) : Option (Nat × Park) :=
  s.mem.reqs.findSome? fun e =>
    if e.2.agent == some a && !e.2.isWrite then
      match e.2.dest with
      | .tile _ ps => ps.findSome? fun p =>
          if runs.any fun r => overlap r.1 r.2 p.2.1 p.2.2 then
            some (if e.2.tier = 3 then 4 else 3, Park.landing p.2.1 (p.2.1 + p.2.2)) else none
      | _ => none
    else none

/-- Slot indices of a ring that a run touches. -/
def slotsHit (r : Ring) (run : Nat × Nat) : List Nat :=
  let sb := slotBytes r
  if sb = 0 || !overlap run.1 run.2 r.base (256 * r.size) then []
  else
    let lo := max run.1 r.base - r.base
    let hi := min (run.1 + run.2) (r.base + 256 * r.size) - 1 - r.base
    (List.range (hi / sb + 1 - lo / sb)).map fun i => lo / sb + i

/-- Whether a loaded block declares a source of a kind as an operand. -/
def declared (x : Core) (kind source : Nat) : Bool :=
  match x.prog with
  | none => false
  | some p => p.blocks.any fun b => b.ops.any fun o => o.kind == kind && o.source == source

/-- A read of one slot (R217, R218). -/
def readSlot (x : Core) (k thr ix : Nat) : Core ⊕ Guard :=
  match tfind x.rings k with
  | none => .inl x
  | some r =>
    if r.mode = 1 then .inl x
    else match r.st.getD ix .empty with
      | .empty => .inr (.park 1 (.ringFilled k ix))
      | .loading _ => .inr (.park 1 (.ringFilled k ix))
      | .filled =>
        if ix = slotIx r r.read && !declared x 1 k then .inl { x with rings := tput x.rings k (claimSlots r thr 1) }
        else .inl x
      | _ => .inl x

/-- A write into one slot (R218). -/
def writeSlot (x : Core) (k thr ix : Nat) : Core ⊕ Guard :=
  match tfind x.rings k with
  | none => .inl x
  | some r =>
    if r.mode = 1 then .inl x
    else if r.producer = 1 then .inr (.fault fcProtection)
    else match r.st.getD ix .empty with
      | .empty =>
        if r.draining then .inr (.park 2 (.ringEmpty k ix))
        else .inl { x with rings := tput x.rings k { r with st := lset r.st ix (.loading (some thr)) } }
      | .loading t => if t = some thr then .inl x else .inr (.park 2 (.ringEmpty k ix))
      | _ => .inr (.park 2 (.ringEmpty k ix))

/-- Passes over the slots that runs touch. -/
def guardSlots (f : Core → Nat → Nat → Core ⊕ Guard) (x : Core) (runs : List (Nat × Nat)) : Core ⊕ Guard :=
  (x.rings.flatMap fun e => (runs.flatMap (slotsHit e.2)).map fun ix => (e.1, ix)).foldl (fun acc p =>
    match acc with
    | .inr g => .inr g
    | .inl x => f x p.1 p.2) (.inl x)

/-- The guard of an instruction of a core's thread over the runs it reads and those it writes. -/
def guardSp (s : State) (c thr : Nat) (reads writes : List (Nat × Nat)) : Guard :=
  match landingMiss s (.thread c thr) (reads ++ writes) with
  | some (cause, w) => .park cause w
  | none =>
    let x := getCore s c
    match guardSlots (fun x k ix => writeSlot x k thr ix) x writes with
    | .inr g => g
    | .inl x =>
      match guardSlots (fun x k ix => readSlot x k thr ix) x reads with
      | .inr g => g
      | .inl x => .ok (setCore s c x)

/-- Goes on under a guard, or parks or faults as it says. -/
def guarded (s : State) (g : Guard) (f : State → IRes) : IRes :=
  match g with
  | .ok s' => f s'
  | .park cause w => .park s cause w
  | .fault code => .fault code 0 false

end Machine
end Sys2Proof
end

