-- ==== Sys2Proof/Machine/Window.lean ====
section
/-! DEFINITION. The commit window of a context (R305): the dispatch slot, the model status grains (R332) and the request
slots, with the page and replay lists of its requests, as a read finds them. -/

namespace Sys2Proof
namespace Machine

/-! ### What a read of the commit window finds (Table 12.4) -/

def winStatus : Nat := 0xFFFFFE010000
def winSlots : Nat := 0xFFFFFF000000

/-- The dispatch slot among the stored words of slots. -/
def dispatchKey : Nat := 65536

/-- W0 and W1 of a slot as last stored (Table 12.4). -/
def storedWords (s : State) (n key : Nat) : List Byte :=
  leBytes 8 (tget 0 (getCtx s n).windowW0 key).toNat ++ leBytes 8 (tget 0 (getCtx s n).windowW1 key).toNat

/-- A word is stored into W0 or W1 of a slot. -/
def storeW0 (s : State) (n key : Nat) (v : Word) : State := modCtx s n fun x => { x with windowW0 := tput x.windowW0 key v }
def storeW1 (s : State) (n key : Nat) (v : Word) : State := modCtx s n fun x => { x with windowW1 := tput x.windowW1 key v }

/-- The words of a request slot. -/
def slotGrain (s : State) (n id : Nat) (r : Request) : List Byte :=
  fit 256 (storedWords s n id ++
    leBytes 8 (r.result <<< 56 + r.value % 2 ^ 32) ++
    leBytes 8 (r.state <<< 60 + b2n r.bound <<< 59 + b2n r.cancelPending <<< 58 + b2n r.pastDeadline <<< 57 +
      r.drafts.length <<< 49 + r.kvLen % 2 ^ 32) ++
    leBytes 8 (r.pagesVa % 2 ^ 48) ++ leBytes 8 ((r.capacity % 2 ^ 32) <<< 32 + r.sets.length) ++
    leBytes 8 ((r.replayLen % 2 ^ 32) <<< 32 + r.pfxTokens % 2 ^ 32) ++ leBytes 8 (r.replayVa % 2 ^ 48) ++
    r.user.flatMap fun w => leBytes 8 w.toNat)

/-- The page list of a request (R311). -/
def pageList (s : State) (r : Request) : List Byte :=
  r.sets.flatMap fun i =>
    match tfind s.rollout.sets i with
    | none => zeros 16
    | some p =>
      let va := ((tfind s.models p.pool).elim 0 fun m => m.poolVa) + 256 * p.place
      leBytes 8 (va % 2 ^ 48) ++ leBytes 8 (p.exp <<< 60 + (p.grains % 2 ^ 28) <<< 32 + p.firstPos % 2 ^ 32)

/-- The tokens to prefill: the prompt, then every token published and held. -/
def replayBytes (s : State) (r : Request) : List Byte :=
  fwRead s r.promptPa (4 * r.promptTokens) ++ r.published.flatMap fun t => leBytes 4 t

/-- The grain that a context reads at an address of the commit window, or of the lists firmware keeps for its requests, as its bytes
stand; none where nothing is mapped (R305). -/
def windowGrain (s : State) (n va : Nat) : Option (List Byte) :=
  if va = winDispatch then
    let x := getCtx s n
    some (fit 256 (storedWords s n dispatchKey ++ leBytes 8 (x.dispResult <<< 56 + x.dispValue % 2 ^ 32)))
  else if winStatus ≤ va && va < winStatus + 65536 then
    match tfind s.models ((va - winStatus) / 256) with
    | some m => if attachedTo m n then some (statusGrain ((va - winStatus) / 256) m) else none
    | none => none
  else if winSlots ≤ va && va < winEnd then
    match getReq s ((va - winSlots) / 256) with
    | some r => if r.ctx = some n then some (slotGrain s n ((va - winSlots) / 256) r) else none
    | none => none
  else
    (s.rollout.requests.filter fun e => e.2.ctx == some n).findSome? fun e =>
      let r := e.2
      if r.pagesVa ≤ va && va < r.pagesVa + cdiv (16 * r.sets.length) 256 * 256 then
        some (fit 256 (slice (pageList s r) (va - r.pagesVa) 256))
      else if r.replayVa ≤ va && va < r.replayVa + cdiv (4 * r.replayLen) 256 * 256 then
        some (fit 256 (slice (replayBytes s r) (va - r.replayVa) 256))
      else none

/-- The grain of the prompt that a grain of a request's replay list is made from, if one is. -/
def promptGrain (s : State) (n va : Nat) : Option Nat :=
  (s.rollout.requests.filter fun e => e.2.ctx == some n).findSome? fun e =>
    let r := e.2
    if r.replayVa ≤ va && va < r.replayVa + cdiv (4 * r.promptTokens) 256 * 256 then some (r.promptPa + (va - r.replayVa)) else none

/-- Whether that grain reads poisoned, which the list carries on (R384), and the state after the read. -/
def promptPoison (s : State) (n va : Nat) : Bool × State :=
  match promptGrain s n va with
  | none => (false, s)
  | some pa =>
    let (_, bad, s) := fwGrain s pa
    (bad, s)

end Machine
end Sys2Proof
end

