-- ==== Sys2Proof/Machine/MemReq.lean ====
section
/-! DEFINITION. Memory requests (R49, R50, R226, R462): taking a slot, the way to a bank, a peer or the host, landing, the
ends of requests, what waits for them, and the entries of prefetch schedules that they belong to (R221, R223). -/

namespace Sys2Proof
namespace Machine

/-- Request slots of a core (R49). -/
def slotCount : Nat := 48

/-- Slots of a core in use: requests, and contributions not yet accepted (R237). -/
def slotsUsed (s : State) (c : Nat) : Nat :=
  (s.mem.reqs.filter fun e => e.2.core == some c && e.2.phase != .waitSlot).length +
  (s.upd.contribs.filter fun e => e.2.core == c && e.2.phase != .waitSlot).length

/-- Source number at a bank (Table 2.11) of a context's control core. -/
def ctlSource (n : Nat) : Nat := 1024 + controlCoreOf n

/-- Source number of the movement engines of a context's hub die. -/
def hubSource (n : Nat) : Nat := 1040 + n / 1024

/-! ### Fences and landings that are waited for -/

/-- Whether a request is an access of the agent's own thread (R94 rule 3). -/
def ownAccess (a : Agent) (r : MReq) : Bool :=
  r.agent == some a && r.sched.isNone && match r.dest with | .move _ => false | .moved => false | _ => true

/-- The outstanding accesses that a fence waits for: scope 0 waits for reads only. -/
def fenceOut (s : State) (a : Agent) (scope kind : Nat) : List MReq :=
  (s.mem.reqs.filter fun e => ownAccess a e.2 &&
    (if e.2.isWrite then bit kind 1 && scope != 0 else bit kind 0)).map Prod.snd

/-- Whether a landing into a range of scratchpad is outstanding for a thread. -/
def landingOut (s : State) (a : Agent) (lo hi : Nat) : Bool := (landingMiss s a [(lo, hi - lo)]).isSome

/-- Whether what an agent parks for has come, of the waits on memory requests. -/
def memWaitOver (s : State) (a : Agent) (w : Park) : Bool :=
  match w with
  | .landing lo hi => !landingOut s a lo hi
  | .fence scope kind _ => (fenceOut s a scope kind).isEmpty
  | .slot =>
    !(s.mem.reqs.any fun e => e.2.agent == some a && e.2.phase == .waitSlot && e.2.sched.isNone) &&
    match a with
    | .thread c t => !(s.upd.contribs.any fun e => e.2.core == c && e.2.thr == t && e.2.phase == .waitSlot)
    | .ctl _ => true
  | _ => false

/-- Wakes an agent whose wait on memory requests is over. -/
def wakeMemWait (s : State) (a : Agent) : State :=
  match (threadOf s a).st with
  | .parked _ w _ => if memWaitOver s a w then wakeAgent s a (if w = .slot then some 0 else none) else s
  | _ => s

/-! ### Prefetch schedules: landings and ends (R221, R223) -/

/-- The run of one slot of a ring, by index. -/
def slotRun (r : Ring) (ix : Nat) : Nat × Nat := (r.base + ix * slotBytes r, slotBytes r)

/-- Whether a grain issued into BACK of a two-slot ring has not landed (R219). -/
def backOutstanding (s : State) (c : Nat) (r : Ring) : Bool :=
  let b := slotRun r (1 - r.front)
  s.mem.reqs.any fun e => !e.2.isWrite && match e.2.dest with
    | .tile k ps => k == c && ps.any fun p => overlap b.1 b.2 p.2.1 p.2.2
    | _ => false

/-- Whether a wait of a thread on a ring is over. -/
def ringWaitOver (s : State) (c thr : Nat) (w : Park) : Bool :=
  let x := getCore s c
  let ring (k : Nat) (f : Ring → Bool) : Bool := match tfind x.rings k with | none => true | some r => f r
  match w with
  | .ringFilled k ix => ring k fun r => match r.st.getD ix .empty with | .empty => false | .loading _ => false | _ => true
  | .ringEmpty k ix => ring k fun r => match r.st.getD ix .empty with
    | .empty => !r.draining
    | .loading t => t == some thr
    | _ => false
  | .ringDrain k => ring k fun r => !anyClaimed r
  | .ringSwap k => ring k fun r => !backOutstanding s c r
  | _ => false

/-- Wakes the threads of a core whose wait on a ring is over. -/
def wakeRings (s : State) (c : Nat) : State := wakeCore s c fun t w => ringWaitOver s c t w

/-- The slot of a finished entry becomes FILLED (Table 8.5). -/
def fillSlot (s : State) (c k j : Nat) : State :=
  match tfind (getCore s c).rings k with
  | none => s
  | some r =>
    let s := if r.mode = 0 then modCore s c fun x => { x with rings := tput x.rings k (setSlot r j .filled) } else s
    touchCore (wakeRings s c) c

/-- Completes a schedule that has delivered its last entry, or that has stopped and has nothing in flight (R137). -/
def schedCheck (s : State) (id : Nat) : State :=
  match tfind s.scheds id with
  | none => s
  | some d =>
    if d.inFlight.isEmpty && (d.stopped || decide (d.length ≤ d.started)) then
      let s := { s with scheds := tdel s.scheds id }
      let s := match d.cg with | none => s | some g => doneCg s d.owner g 0
      d.stopCgs.foldl (fun s g => doneCg s d.owner g 0) s
    else s

/-- One grain of an entry has landed. -/
def schedLanded (s : State) (id key code : Nat) : State :=
  match tfind s.scheds id with
  | none => s
  | some d =>
    let s := match d.cg with | none => s | some g => noteCg s d.owner g code
    let s := d.stopCgs.foldl (fun s g => noteCg s d.owner g code) s
    let left := (tget 1 d.inFlight key) - 1
    let d := { d with inFlight := if left = 0 then tdel d.inFlight key else tput d.inFlight key left }
    let s := { s with scheds := tput s.scheds id d }
    let s := if left = 0 && d.target = 0 then
        match coreOf d.owner with | none => s | some c => fillSlot s c d.ring key
      else s
    schedCheck s id

/-! ### The end of a request -/

/-- A control thread's load that has read poison. -/
def smemPoison : Nat := 2 ^ 64

/-- Grains of a schedule land in the saved scratchpad image (R223). -/
def landSaved (s : State) (n c : Nat) (ps : List (Nat × Nat × Nat)) (data : List Byte) (poison : Bool) : State :=
  ps.foldl (fun s p => mergeRun s (coreRecord s n c + p.2.1) (slice data p.1 p.2.2) poison (p.2.2 + 1)) s

/-- The data of a read reaches its destination. -/
def landGrain (s : State) (r : MReq) (data : List Byte) (tag : GrainTag) : State :=
  match r.dest with
  | .tile c ps =>
    if 1024 ≤ c then wakeRings (touchCore (landSaved s r.ctx c ps data tag.poison) c) c
    else wakeRings (touchCore (modCore s c fun x =>
      spLand x (ps.map fun p => (p.2.1, slice data p.1 p.2.2)) tag.poison) c) c
  | .scalar _ off =>
    match r.agent with
    | none => s
    | some a => wakeAgent s a (some (if tag.poison then smemPoison else leNat (slice data off 8)))
  | _ => s

/-- Counts a tier 3 request of a completion group out, or in (R148). -/
def peerCount (s : State) (r : MReq) (up : Bool) : State :=
  match r.agent, r.cg, r.sched with
  | some a, some g, none => if r.tier = 3 then peerOutCg s a g up else s
  | _, _, _ => s

/-- Counts a request's end for its group or its schedule (R49, R132). -/
def countEnd (s : State) (r : MReq) (code : Nat) : State :=
  match r.sched with
  | some k => schedLanded s k r.entry code
  | none =>
    match r.agent, r.cg with
    | some a, some g => doneCg s a g code
    | _, _ => s

/-- The grain of a MOVT or of a tier-to-tier schedule has been read: its write waits to be issued, and keeps the code of the read. The
group or the schedule counts the grain when that write is acknowledged (R462). A grain whose destination no longer translates ends
here. -/
def moveOn (s : State) (r : MReq) (va code : Nat) (data : List Byte) (tag : GrainTag) : State :=
  match translate s r.ctx va true with
  | .error _ => countEnd s r code
  | .ok pa =>
    let s := bump s
    let w := { r with isWrite := true, va := va, pa := pa, tier := tierOf pa, data := data, tag := tag, dest := .moved, code := code,
                      order := s.serial, phase := .waitSlot }
    let s := modMem s fun m => { m with reqs := tput m.reqs m.nextReq w, nextReq := m.nextReq + 1 }
    peerCount s w true

/-- A control thread's SMEM store that has failed is reported in its status register, with the IP of the store (R99). -/
def reportStore (s : State) (r : MReq) (code : Nat) : State :=
  match r.agent, r.dest with
  | some (.ctl n), .merge _ _ =>
    if r.isWrite && code == rcTierFailed then
      modCtx s n fun x => { x with ctl := { x.ctl with status := statusWord fcTierFailed r.entry } }
    else s
  | _, _ => s

/-- Whether an earlier access of the same thread to the same grain must take effect first (R94 rule 1). -/
def mustWait (s : State) (r : MReq) : Bool :=
  s.mem.reqs.any fun e => e.2.agent == r.agent && r.agent.isSome && e.2.pa / 256 == r.pa / 256 && decide (e.2.order < r.order) &&
    (e.2.isWrite || r.isWrite) && e.2.phase != .served

/-- A request ends with a code: it leaves its slot, its data lands, its group counts it, and what waited for it goes on. -/
def endReq (s : State) (id code : Nat) (data : List Byte) (tag : GrainTag) : State :=
  match getMReq s id with
  | none => s
  | some r =>
    let s := modMem s fun m => { m with reqs := tdel m.reqs id }
    let s := modPeers s fun p => { p with txns := p.txns.filter fun e => e.2 != id }
    let s := peerCount (if r.isWrite then s else landGrain s r data tag) r false
    let code := if tag.poison then max code rcPoisoned else code
    let s := match r.dest with
      | .move va => moveOn s r va code data tag
      | _ => countEnd s r code
    match r.agent with
    | none => s
    | some a =>
      wakeMemWait (reportStore s r code) a

/-- Whether a failed write has landed: the module does not say (R227). -/
def failedWriteLands (s : State) : Bool × State :=
  ((Config.drawn s.fresh).toNat % 2 == 1, { s with fresh := s.fresh + 1 })

/-- A failed request reaches its requester: at once, or over the bridge edge when the PLL of its core's die is stopped (R28). -/
def failArrives (s : State) (id : Nat) (r : MReq) : State :=
  match r.core with
  | some c =>
    if dieStopped s c then holdAtEdge (setMReq s id { r with phase := .served }) c (.grain id false)
    else endReq s id r.code r.data r.tag
  | none => endReq s id r.code r.data r.tag

/-- A request ends as failed (R226, R227): a read delivers poison, a write leaves its grain old or new. A write that has been
performed already has landed. -/
def failReq (s : State) (id : Nat) : State :=
  match getMReq s id with
  | none => s
  | some r =>
    let s := countFailed s
    let code := max r.code rcTierFailed
    if r.isWrite then
      let (lands, s) := failedWriteLands s
      let s := if lands && !unitLost s r.pa && r.phase != .served then performWrite s r else s
      failArrives s id { r with code := code }
    else
      let (bs, s) := remoteGrain s
      failArrives s id { r with code := code, data := bs, tag := mkTag bs 0 0 true }

/-! ### Issue -/

/-- A request that holds its slot leaves for its bank, its peer or the host; one that cannot be served ends as failed. -/
def routeReq (s : State) (id : Nat) (r : MReq) : State :=
  match r.tier with
  | 3 => if peerGone s (peerOfPa r.pa) then failReq s id else if mustWait s r then s else sendToPeer s id r
  | 4 => sendToHost s id r
  | _ => if unitLost s (if r.isWrite then r.pa else servePa s r.pa) then failReq s id else s

/-- A read of the commit window takes its slot: firmware answers it from what the window holds now (R305). -/
def startWindow (s : State) (id : Nat) (r : MReq) : State :=
  let bs := (windowGrain s r.ctx r.va).getD (zeros 256)
  let (bad, s) := promptPoison s r.ctx r.va
  setMReq s id { r with phase := .served, stamp := now s, data := bs, tag := mkTag bs 0 (getCtx s r.ctx).part bad }

/-- A request takes its slot and is issued; one into a range that a RESHARD holds waits at the hub (R294). -/
def startReq (s : State) (id : Nat) : State :=
  match getMReq s id with
  | none => s
  | some r =>
    if r.tier = 0 then startWindow s id r
    else
      let held := reshardHolds s r.ctx r.va
      let r := { r with phase := if held then .held else .queued, stamp := now s, limit := lateLimit s r.tier }
      let s := chargeTier (setMReq s id r) r.ctx r.tier 256
      if held then s else routeReq s id r

/-- Grain requests of a core's prefetch schedules that wait for a slot: the schedule, the order number and the request. -/
def streamWaits (s : State) (c : Nat) : List (Nat × Nat × Nat) :=
  (s.mem.reqs.filter fun e => e.2.core == some c && e.2.phase == .waitSlot && (getCtx s e.2.ctx).state == ctxLive).filterMap
    fun e => e.2.sched.map fun k => (k, e.2.order, e.1)

/-- The grain request that the stream unit issues next: its schedules take turns, one grain request at a time, in rotation (R224). -/
def streamNext (s : State) (c : Nat) : Option (Nat × Nat) :=
  let l := streamWaits s c
  let ks := l.map fun e => e.1
  let later := ks.filter fun k => (getCore s c).streamTurn < k
  match minBy id (if later.isEmpty then ks else later) with
  | none => none
  | some k => (minBy (fun (e : Nat × Nat × Nat) => e.2.1) (l.filter fun e => e.1 == k)).map fun e => (k, e.2.2)

/-- What takes a core's next free slot. -/
inductive Waiting where
  | req (id : Nat)
  | stream (sched id : Nat)
  | contrib (id : Nat)
  deriving DecidableEq, Repr

/-- A core's waiting request or contribution that was issued first; the stream unit stands in that order with its one next grain
request (R49, R221). -/
def nextWaiting (s : State) (c : Nat) : Option Waiting :=
  let live (n : Nat) : Bool := (getCtx s n).state == ctxLive
  let a := (s.mem.reqs.filter fun e => e.2.core == some c && e.2.phase == .waitSlot && e.2.sched.isNone && live e.2.ctx).map
    fun e => (e.2.order, Waiting.req e.1)
  let b := (s.upd.contribs.filter fun e => e.2.core == c && e.2.phase == .waitSlot && live e.2.ctx).map
    fun e => (e.2.order, Waiting.contrib e.1)
  let z := (streamNext s c).toList.map fun e => ((getCore s c).streamAt, Waiting.stream e.1 e.2)
  (minBy (fun e => e.1) (a ++ b ++ z)).map fun e => e.2

/-- A slot goes to what waits for it. After a grain request of the stream unit, its next one is issued (R224). -/
def takeSlot (s : State) (c : Nat) (w : Waiting) : State :=
  match w with
  | .req id => startReq s id
  | .stream k id =>
    let s := bump s
    startReq (modCore s c fun x => { x with streamTurn := k, streamAt := s.serial }) id
  | .contrib id => modUpd s fun u => match tfind u.contribs id with
    | none => u
    | some k => { u with contribs := tput u.contribs id { k with phase := .inFlight } }

/-- Free slots of a core go to waiting requests in order of issue (R49). -/
def fillSlots (c : Nat) : Nat → State → State
  | 0, s => s
  | fuel + 1, s =>
    if slotCount ≤ slotsUsed s c then s
    else match nextWaiting s c with
      | none => s
      | some w => fillSlots c fuel (takeSlot s c w)

/-- After a change of a core's slots: waiting requests take free ones, and threads that waited for a slot go on. -/
def pumpSlots (s : State) (c : Nat) : State :=
  let s := fillSlots c (s.mem.reqs.length + s.upd.contribs.length + 1) s
  (getCore s c).threads.foldl (fun s e => wakeMemWait s (.thread c e.1)) s

/-- The writes of copied grains whose reads have ended are issued. -/
def startMoves (s : State) : State :=
  (s.mem.reqs.filter fun e => e.2.dest == .moved && e.2.phase == .waitSlot).foldl (fun s e => startReq s e.1) s

/-- Adds a request; one of a core waits for its slot. -/
def addReq (s : State) (r : MReq) : State :=
  let s := bump s
  let id := s.mem.nextReq
  let r := { r with order := s.serial, phase := .waitSlot }
  let s := peerCount (modMem s fun m => { m with reqs := tput m.reqs id r, nextReq := id + 1 }) r true
  match r.core with
  | some _ => s
  | none => startMoves (startReq s id)

/-- A request of an agent for one grain, with the fields that its issue does not set. -/
def mkReq (a : Agent) (core : Option Nat) (n : Nat) (isWrite : Bool) (va pa : Nat) (data : List Byte) (tag : GrainTag)
    (dest : Dest) (cg : Option Nat) (source : Nat) : MReq :=
  { agent := some a, core := core, ctx := n, isWrite := isWrite, va := va, pa := pa, tier := tierOf pa, data := data,
    tag := tag, dest := dest, cg := cg, sched := none, entry := 0, stamp := 0, source := source,
    limit := 0, order := 0, phase := .waitSlot, code := 0 }

/-- Tier 3 requests that waited for an earlier access of their thread to the same grain leave (R94 rule 1). -/
def sendOrdered (s : State) : State :=
  (s.mem.reqs.filter fun e => e.2.tier == 3 && e.2.phase == .queued && !(s.peers.txns.any fun t => t.2 == e.1)).foldl
    (fun s e => routeReq s e.1 e.2) s

/-- After a request of a core or of none has ended. -/
def afterReq (s : State) (core : Option Nat) : State :=
  let s := sendOrdered s
  match core with | none => startMoves s | some c => pumpSlots s c

end Machine
end Sys2Proof
end

