-- ==== Sys2Proof/Machine/Summary.lean ====
section
/-! DEFINITION. The summary mailbox (R95, R96): contributions, arming, delivery; and the summary queue of a core (R144). -/

namespace Sys2Proof
namespace Machine

open Host

/-- The index of a (tag, round). -/
def mailKey (tag round : Nat) : Nat := 2 * tag + round

/-- SOURCE of a contribution of the host: above every core. -/
def hostSource : Nat := 0x3FF + 1

def isSumKind (k : Nat) : Bool := decide (1 ≤ k) && decide (k ≤ 7)

/-- A value as its kind reads it (Table 4.12). -/
def sumValue (kind v : Nat) : Nat :=
  match kind with
  | 1 => v % 2 ^ 32
  | 2 => v % 2 ^ 32
  | 3 => v % 2 ^ 32
  | 5 => v % 2
  | 6 => v % 2
  | _ => v

/-- Combines values in list order; none of none. -/
def sumFold (emu : Bool) (kind : Nat) : List Nat → Option Nat
  | [] => none
  | v :: vs => some (vs.foldl (combineSummary emu kind) v)

/-- Sources of contributions in ascending order. -/
def sumSources (cs : List Contribution) : List Nat := cs.foldl (fun l c => insertAsc c.source l) []

/-- The combined value of contributions: each core's in queue order, then the cores in ascending order (R96), then each of the host's in
the order its POSTs completed (R421). Where EXPECT contributions were counted and none has the armed KIND, the value is the empty one of
Table 4.13, which R96 states for EXPECT 0 only (the model's choice, log 132). -/
def sumCombine (emu : Bool) (kind : Nat) (cs : List Contribution) : Nat :=
  let value (c : Contribution) : Nat := sumValue kind c.value.toNat
  let host (c : Contribution) : Bool := c.source == hostSource
  let cores := (sumSources (cs.filter fun c => !host c)).filterMap fun src =>
    sumFold emu kind ((cs.filter fun c => c.source == src).map value)
  (sumFold emu kind (cores ++ (cs.filter host).map value)).getD (emptySummary kind)

/-- The result of the contributions counted under an arming (Table 4.12): VALUE and the low word. -/
def sumResult (emu : Bool) (kind tag round : Nat) (cs : List Contribution) : Word × Word :=
  let same := cs.filter fun c => c.kind == kind
  (w64 (sumCombine emu kind same),
   w64 (kind <<< 60 + round <<< 59 + b2n (cs.any fun c => c.poison) <<< 58 + b2n (same.length != cs.length) <<< 57 +
     tag <<< 53 + 0x3FF <<< 43 + cs.length % 2 ^ 32))

/-- Delivers the result of an armed (tag, round) once EXPECT contributions are counted; later ones open its next use. -/
def mailSettle (s : State) (n tag round : Nat) : State :=
  let x := getCtx s n
  let k := mailKey tag round
  let m := tget MailSlot.reset x.mail k
  match m.armed with
  | none => s
  | some (kind, expect) =>
    if expect ≤ m.contribs.length then
      let r := sumResult x.num.s5emu kind tag round (m.contribs.take expect)
      let m : MailSlot := { armed := none, contribs := m.contribs.drop expect, results := m.results ++ [r] }
      let s := modCtx s n fun x => { x with mail := tput x.mail k m }
      wakeCtl s n fun w => w == .summary tag round
    else s

/-- A contribution reaches the mailbox. -/
def mailAdd (s : State) (n : Nat) (c : Contribution) : State :=
  let k := mailKey c.tag c.round
  let s := modCtx s n fun x =>
    let m := tget MailSlot.reset x.mail k
    { x with mail := tput x.mail k { m with contribs := m.contribs ++ [c] } }
  mailSettle s n c.tag c.round

/-- A contribution leaves its core, which holds credit for it (R144). -/
def sendSummary (s : State) (c : Nat) (m : Contribution) : State :=
  modCore s c fun x => { x with sumCredit := x.sumCredit - 1, sumFlight := x.sumFlight ++ [{ m with source := c % 1024 }] }

/-- The core, running or saved, of a context at a logical index. -/
def coreKeyOf (s : State) (n c : Nat) : Option Nat := (ctxCores s n).reverse.find? fun k => k % 1024 == c

/-- SUMMARY_ARRIVE (R95): the oldest contribution in flight from a core is counted, and its word of credit returns. -/
def execSummaryArrive (ctx core : Nat) (s : State) : Outcome State Fault Refusal :=
  match coreKeyOf s ctx core with
  | none => .next s
  | some k =>
    match (getCore s k).sumFlight with
    | [] => .next s
    | m :: rest =>
      let s := modCore s k fun x => { x with sumFlight := rest, sumCredit := x.sumCredit + 1 }
      .next (wakeCore (mailAdd s ctx m) k fun _ w => w == .sumCredit)

end Machine
end Sys2Proof
end

