-- ==== Sys2Proof/Machine/Firing.lean ====
section
/-! DEFINITION. Firing blocks: binding (R39, R79), the load of a core program (R76, R77, R38), starvation (R56), the core
clock gate (R29), and words and credits that arrive at a core (R62, R64). -/

namespace Sys2Proof
namespace Machine

open Host

/-- Hardware threads of a core. -/
def threadCount : Nat := 16

/-- Whether a core runs instances of its context now. -/
def coreRuns (s : State) (c : Nat) : Bool :=
  let x := getCore s c
  decide (c < 1024) && !x.lost && pllRuns s c &&
  match x.owner with
  | none => false
  | some n => (getCtx s n).state == ctxLive && !ctxStops (getCtx s n)

/-! ### Binding -/

/-- Start tokens reach a block of a core (R35). -/
def addTokens (s : State) (c b n : Nat) : State :=
  touchCore (modCore s c fun x => { x with blocks := tput x.blocks b { getBlk x b with tokens := (getBlk x b).tokens + n } }) c

/-- Claims one operand for a thread (Table 2.3). -/
def claimOp (x : Core) (b thr : Nat) (o : OpDecl) : Core :=
  match o.kind with
  | 0 => claimPackets x o.source thr (o.count + 1)
  | 1 =>
    match tfind x.rings o.source with
    | none => x
    | some r => { x with rings := tput x.rings o.source (claimSlots r thr (o.count + 1)) }
  | 2 => { x with cgs := cgClaim x.cgs o.source }
  | _ => { x with blocks := tput x.blocks b { getBlk x b with tokens := (getBlk x b).tokens - 1 } }

/-- Blocks that could bind: ready, with fewer instances than they may have (R39). -/
def bindable (x : Core) : List (Nat × Nat) :=
  match x.prog with
  | none => []
  | some p => (List.range p.blocks.length).filterMap fun b =>
      match (getBlk x b).readySince, p.blocks[b]? with
      | some t, some d => if blockReady x b && (getBlk x b).bound ≤ d.insts then some (b, t) else none
      | _, _ => none

/-- The lowest free thread. -/
def freeThread (x : Core) : Option Nat := (List.range threadCount).find? fun t => (getThread x t).st == .free

/-- A thread as it is bound to a block (R39, R79). -/
def boundThread (c b total entry serial : Nat) : Thread :=
  let t : Thread := { Thread.reset with st := .runnable, ip := entry, block := b, boundAt := serial }
  setS (setS (setS t 1 (w64 (c % 1024))) 2 (w64 b)) 3 (w64 total)

/-- Binds an instance of a block to a thread; a block that is ready again becomes so now (R40). -/
def bindBlock (s : State) (c b thr : Nat) (d : BlockDesc) : State :=
  let s := dieWorked (bump s) c
  modCore s c fun x =>
    let v := getBlk x b
    let x := { x with
      blocks := tput x.blocks b { v with bound := v.bound + 1, total := v.total + 1, readySince := none }, binds := x.binds + 1,
      starvedSince := none, gated := false, idleRun := 0 }
    let x := setThread x thr (boundThread c b (v.total + 1) d.entry s.serial)
    refresh (d.ops.foldl (fun x o => claimOp x b thr o) x) s.serial

/-- BLOCK_BIND (R39). -/
def execBlockBind (core : Nat) (s : State) : Outcome State Fault Refusal :=
  let x := getCore s core
  if !coreRuns s core || x.loading then .next s
  else match minBy (fun e => e.2) (bindable x), freeThread x with
    | some (b, _), some t =>
      match blockDesc x b with
      | some d => .next (bindBlock s core b t d)
      | none => .next s
    | _, _ => .next s

/-! ### The end of an instance (R41) -/

/-- Releases what a thread holds: packets and ring slots. -/
def releaseAll (s : State) (c thr : Nat) : State :=
  let s := (getThread (getCore s c) thr).packets.foldl (fun s q => releasePacket s c q.1 q.2) s
  let s := modCore s c fun x => { x with rings := tmap (fun _ r =>
    (heldSlots r thr).foldl releaseSlot r) x.rings }
  wakeRings s c

/-- The instance of a thread ends: what it holds is released, the thread is free, a block without REARM retires. -/
def endInstance (s : State) (c thr : Nat) : State :=
  let b := (getThread (getCore s c) thr).block
  let s := releaseAll s c thr
  let s := modCore s c fun x =>
    let v := getBlk x b
    let rearm := match blockDesc x b with | some d => d.rearm | none => false
    { setThread x thr Thread.reset with
      blocks := tput x.blocks b { v with bound := v.bound - 1, retired := v.retired || !rearm } }
  touchCore s c

/-! ### Program images (R76) -/

/-- Bytes of a core program image at a virtual address, or the fault code that its grains give (R99). -/
def imageGrains (s : State) (n va : Nat) : Nat → Except Nat (List Byte) × State
  | 0 => (.ok [], s)
  | k + 1 =>
    match translate s n va false with
    | .error c => (.error c, s)
    | .ok _ =>
      let (d, t, s) := engineRead s n va
      if t.poison then (.error fcPoison, s)
      else match imageGrains s n (va + 256) k with
        | (.ok bs, s) => (.ok (d ++ bs), s)
        | (.error c, s) => (.error c, s)

/-- An operand declaration (Table 2.5). -/
def opDeclOf (v : Nat) : OpDecl := { kind := bits v 15 14, source := bits v 13 8, count := bits v 7 0 }

/-- A block table entry of three words (Tables 2.4, 2.5). -/
def blockDescOf (w0 w1 w2 : Nat) : BlockDesc :=
  let n := bits w0 43 41 + 1
  { entry := bits w0 63 48, insts := bits w0 47 44, rearm := bit w0 40, length := bits w0 39 24,
    ops := (List.range n).map fun i => opDeclOf (bits (w1 + w2 <<< 64) (16 * i + 15) (16 * i)) }

/-- Whether an operand's source and count are within their limits; a configured ring limits its count (R37, R38). -/
def opDeclOk (x : Core) (o : OpDecl) : Bool :=
  match o.kind with
  | 0 => decide (o.source < 32) && decide (o.count ≤ 15)
  | 1 => decide (o.count ≤ 15) && match tfind x.rings o.source with | none => true | some r => decide (o.count < r.slots)
  | 2 => decide (o.source < 16) && o.count == 0
  | _ => o.source == 0 && o.count == 0

/-- The checks of R38 on one entry. -/
def blockOk (x : Core) (codeWords w0 w1 w2 : Nat) : Bool :=
  let d := blockDescOf w0 w1 w2
  bits w0 23 0 == 0 && decide (0 < d.length) && decide (d.entry + d.length ≤ codeWords) &&
  bits (w1 + w2 <<< 64) 127 (16 * d.ops.length) == 0 && d.ops.all (opDeclOk x)

/-- No source is declared twice (R36). -/
def noDouble (bs : List BlockDesc) : Bool :=
  let srcs := bs.zipIdx.flatMap fun e => e.1.ops.map fun o => (o.kind, if o.kind = 3 then e.2 else o.source)
  srcs.eraseDups.length == srcs.length

/-- An accumulation group's initial value (Table 4.3); none when a reserved value is set. -/
def accOf (v : Nat) : Option AccGroup :=
  let g : AccGroup := { sat := false, isOpen := false, acc := bits v 61 60, rows := bits v 59 48, cols := bits v 47 36,
                        base := bits v 20 0 }
  if g.acc ≤ 1 && g.rows ≤ 2048 && g.cols ≤ 2048 && bits v 35 21 == 0 && g.base % 256 == 0 then some g else none

/-- A checked image. -/
structure Image where
  prog : Program
  code : List Byte
  dataBase : Nat
  data : List Byte
  descs : List (BitVec 256)
  accs : List AccGroup
  deriving DecidableEq, Repr

/-- 64-bit word `i` of bytes. -/
def wordIn (bs : List Byte) (i : Nat) : Nat := leNat (slice bs (8 * i) 8)

/-- Reads and checks an image for a core, or the fault code of its rejection (R38, R77, R99). -/
def readProgram (s : State) (n c va : Nat) : Except Nat Image × State :=
  match imageGrains s n va 1 with
  | (.error e, s) => (.error e, s)
  | (.ok h, s) =>
    let w0 := wordIn h 0
    let w1 := wordIn h 1
    let cw := bits w0 47 32
    let nb := bits w0 8 0
    let base := bits w1 41 21
    let db := bits w1 20 0
    if bits w0 63 56 != 2 || bits w0 55 48 != 0 || bits w0 31 9 != 0 || 256 < nb || bits w1 63 42 != 0 || base % 64 != 0 ||
        (h.drop 16).any (fun b => b != 0) || (0 < db && (base < 8 * cw || spSize < base + db)) then (.error fcDescriptor, s)
    else
      let tg := cdiv (24 * nb) 256
      let cg := cdiv (8 * cw) 256
      let dg := cdiv db 256
      match imageGrains s n (va + 256) (tg + cg + dg + 2 + 1) with
      | (.error e, s) => (.error e, s)
      | (.ok bs, s) =>
        let ws (i : Nat) : Nat := wordIn bs i
        let rest := bs.drop (256 * (tg + cg + dg))
        let accs := (List.range 8).map fun i => accOf (wordIn (rest.drop 512) i)
        let blocks := (List.range nb).map fun b => blockDescOf (ws (3 * b)) (ws (3 * b + 1)) (ws (3 * b + 2))
        if (List.range nb).all (fun b => blockOk (getCore s c) cw (ws (3 * b)) (ws (3 * b + 1)) (ws (3 * b + 2))) &&
            noDouble blocks && accs.all Option.isSome then
          (.ok { prog := { codeWords := cw, blocks := blocks }, code := slice bs (256 * tg) (8 * cw), dataBase := base,
                 data := slice bs (256 * (tg + cg)) db,
                 descs := (List.range 16).map fun i => descOfBytes (slice rest (32 * i) 32),
                 accs := accs.filterMap id }, s)
        else (.error fcDescriptor, s)

/-- The entries of a list as a table. -/
def toTbl {α : Type} (l : List α) : Tbl α := l.zipIdx.map fun e => (e.2, e.1)

/-- Installs an image on a core (R77 steps 4 to 6). -/
def installImage (s : State) (c : Nat) (im : Image) : State :=
  let s := closeCoreEnds s c
  let s := modCore s c fun x => { x with
    prog := some im.prog, loading := false, sp := writeBytes (writeBytes [] 0 im.code) im.dataBase im.data,
    spPoison := [], d := toTbl im.descs, ag := toTbl im.accs, blocks := [], threads := [] }
  touchCore s c

/-- A load that failed its check leaves the core without a program, its ends unconfigured (R77). -/
def rejectImage (s : State) (c : Nat) : State :=
  modCore (closeCoreEnds s c) c fun x => { x with prog := none, loading := false, blocks := [] }

/-- Grains of an image, as its header says; of one whose header does not read, the header. -/
def imageSpan (s : State) (n va : Nat) : Nat :=
  match translate s n va false with
  | .error _ => 1
  | .ok pa =>
    let h := grainAt s pa
    cdiv (24 * bits (wordIn h 0) 8 0) 256 + cdiv (8 * bits (wordIn h 0) 47 32) 256 + cdiv (bits (wordIn h 1) 20 0) 256 + 4

/-- Whether a RESHARD holds a grain of an image (R294). -/
def imageHeld (s : State) (n va : Nat) : Bool := (List.range (imageSpan s n va)).any fun i => reshardHolds s n (va + 256 * i)

/-- LOAD_PROCEED (R77): an image that a RESHARD holds waits for its completion (R294). -/
def execLoadProceed (ctx core : Nat) (s : State) : Outcome State Fault Refusal :=
  match (getCtx s ctx).loadp with
  | none => .next s
  | some j =>
    let x := getCore s core
    if !j.cores.contains core || x.owner != some ctx || !x.loading || !(boundThreads x).isEmpty ||
        imageHeld s ctx j.va then .next s
    else if !coreRuns s core then .next (startPll s core)
    else
      let (s, failed) := match readProgram s ctx core j.va with
        | (.ok im, s) => (installImage s core im, j.failed)
        | (.error e, s) => (rejectImage s core, match j.failed with | some f => some f | none => some e)
      let left := j.cores.filter fun k => k != core
      let s := modCtx s ctx fun x => { x with
        loadp := if left.isEmpty then none else some { j with cores := left, failed := failed } }
      .next (if left.isEmpty then wakeAgent s (.ctl ctx) (some (failed.getD 0)) else s)

/-! ### Starvation (R56) -/

/-- All 16 threads parked under cause 1 or 2 while a block is ready. -/
def starved (x : Core) : Bool :=
  ((List.range threadCount).all fun t => match (getThread x t).st with
    | .parked c _ _ => c == 1 || c == 2
    | _ => false) && x.blocks.any fun e => e.2.readySince.isSome

/-- STARVATION_FAULT (R56). -/
def execStarvationFault (core : Nat) (s : State) : Outcome State Fault Refusal :=
  let x := getCore s core
  match x.owner, x.starvedSince with
  | some n, some t =>
    if s.clk.stallEnable && decide (0 < s.clk.stallLimitUs) && starved x && coreRuns s core &&
        decide (t + s.clk.stallLimitUs * usTicks ≤ now s) then
      .next (ctxFault s n { FaultRec.reset with code := fcStarvation, core := core, tick := now s })
    else .next s
  | _, _ => .next s

/-! ### The core clock gate (R29) -/

/-- CORE_CLOCK_GATE (R29). -/
def execCoreClockGate (core : Nat) (s : State) : Outcome State Fault Refusal :=
  let x := getCore s core
  if 4 ≤ x.idleRun && !coreCanFire x && !x.gated then .next (modCore s core fun x => { x with gated := true }) else .next s

/-! ### Words and credits (R62, R64) -/

/-- The oldest word in flight to an endpoint lands; a closed end discards it. -/
def landNext (s : State) (c ep : Nat) : State :=
  let e := getEp (getCore s c) ep
  match e.inFlight with
  | [] => s
  | q :: rest =>
    let s := modCore s c fun x => setEp x ep { e with inFlight := rest }
    if e.isOpen && cfgDir e.cfg == 1 then landWord s c ep q else s

/-- QUEUE_WORD_LAND (R62, R28). -/
def execQueueWordLand (core ep : Nat) (s : State) : Outcome State Fault Refusal :=
  let e := getEp (getCore s core) ep
  if e.inFlight.isEmpty then .next s
  else if coreRuns s core then .next (landNext s core ep)
  else if dieStopped s core then .next (holdAtEdge s core (.word core ep))
  else .next s

/-- Returned credits reach a send end, and a sender that waits for credit goes on. -/
def takeCredits (s : State) (c ep : Nat) : State :=
  let e := getEp (getCore s c) ep
  let s := modCore s c fun x => setEp x ep { e with credits := e.credits + e.creditFlight, creditFlight := 0 }
  wakeCore (touchCore s c) c fun _ w => w == .credit ep

/-- CREDIT_ARRIVE (R64). -/
def execCreditArrive (core ep : Nat) (s : State) : Outcome State Fault Refusal :=
  let e := getEp (getCore s core) ep
  if e.creditFlight = 0 || !e.isOpen then .next s
  else if coreRuns s core then .next (takeCredits s core ep)
  else if dieStopped s core then .next (holdAtEdge s core (.credit core ep))
  else .next s

end Machine
end Sys2Proof
end

