-- ==== Sys2Proof/Machine/Sched.lean ====
section
/-! DEFINITION. The firmware scheduler: saving and restoring contexts (R359, R367, Table 6.5), the exchange of R366, the grant of
a core set (R364), and what waits for cores. -/

namespace Sys2Proof
namespace Machine

/-! ### Saving -/

/-- A pre-emption starts: threads stop at their next instruction boundary (R367). -/
def beginSave (s : State) (n : Nat) : State :=
  let x := getCtx s n
  if x.state = ctxLive && !x.saving then modCtx s n fun x => { x with saving := true } else s

/-- A pre-emption by the scheduler. -/
def preempt (s : State) (n : Nat) : State :=
  let x := getCtx s n
  if x.state = ctxLive && !x.saving then { beginSave s n with preemptions := s.preemptions + 1 } else s

/-- One grain of a record of the save area is written. -/
def saveGrain (s : State) (n pa : Nat) (d : List Byte) (poison : Bool) : State :=
  if unitLost s pa then countFailed s else putGrain s pa d (mkTag d 0 (getCtx s n).part poison)

/-- Grains of a record that hold registers, rings, endpoints and replay state: the spec gives their content no layout, so each takes a
free value; the state itself stays in the saved core (log 78). -/
def saveState (n pa : Nat) : Nat → State → State
  | 0, s => s
  | k + 1, s => let (d, s) := remoteGrain s; saveState n (pa + 256) k (saveGrain s n pa d false)

/-- The record of a core goes to the save area (R359): the scratchpad image with its poison marks, and 256 grains of state. -/
def writeImage (s : State) (n c : Nat) : State :=
  let x := getCore s c
  let base := coreRecord s n c
  let s := (List.range 8192).foldl (fun s u => saveGrain s n (base + 256 * u) (spRead x (256 * u) 256) (tget false x.spPoison u)) s
  saveState n (base + 256 * 8192) 256 s

/-- A core as it is saved: its threads Held; its scratchpad lies in the save area. -/
def savedCore (x : Core) : Core :=
  { x with
    sp := [], spPoison := [], sample := none, gated := false, idleRun := 0, starvedSince := none, busy := 0, idle := [],
    binds := 0, parks := 0, lost := false,
    threads := tmap (fun _ t => if t.st = .free then t else { t with held := true }) x.threads }

/-- What a module holds for endpoints beside their own state: the last QCONFIG received (R461). -/
def heldOnly (t : Tbl Endpoint) : Tbl Endpoint :=
  (t.filter fun e => e.2.heldCfg.isSome).map fun e => (e.1, { Endpoint.reset with heldCfg := e.2.heldCfg })

/-- A core that nothing holds, with the counters of its logical index. -/
def bareCore (x : Core) : Core :=
  { Core.reset with lost := x.lost, busy := x.busy, idle := x.idle, binds := x.binds, parks := x.parks, eps := heldOnly x.eps }

/-- The words held for endpoints that a core configures are saved with it; those for its other endpoints stay. -/
def freeEps (t : Tbl Endpoint) : Tbl Endpoint := t.filter fun e => cfgDir e.2.cfg == 0

/-- Endpoints of a restored core: a QCONFIG that came meanwhile replaces the word held before. -/
def mergeHeld (saved now : Tbl Endpoint) : Tbl Endpoint :=
  (now.filter fun e => e.2.heldCfg.isSome).foldl (fun t e =>
    tput t e.1 { tget Endpoint.reset t e.1 with heldCfg := e.2.heldCfg }) saved

/-- Core keys changed by `f` in an agent. -/
def rekeyAgent (f : Nat → Nat) : Agent → Agent
  | .thread c t => .thread (f c) t
  | .ctl n => .ctl n

def rekeyRef (f : Nat → Nat) (r : CgRef) : CgRef := { r with agent := rekeyAgent f r.agent }

def rekeyDest (f : Nat → Nat) : Dest → Dest
  | .tile c ps => .tile (f c) ps
  | o => o

/-- Everything outside the cores that names a core of a context by its key names it by another. -/
def rekeyCtx (s : State) (n : Nat) (f : Nat → Nat) : State :=
  let mine (k : Nat) : Bool := k == n
  let s := modMem s fun m => { m with reqs := tmap (fun _ r => if mine r.ctx then
    { r with agent := r.agent.map (rekeyAgent f), core := r.core.map f, dest := rekeyDest f r.dest } else r) m.reqs }
  let s := { s with scheds := tmap (fun _ d => if mine d.ctx then { d with owner := rekeyAgent f d.owner } else d) s.scheds }
  let s := modHub s fun h => { h with
    colls := tmap (fun _ c => if mine c.ctx then { c with cg := rekeyRef f c.cg } else c) h.colls
    reshards := tmap (fun _ c => if mine c.ctx then { c with cg := rekeyRef f c.cg } else c) h.reshards
    gflags := h.gflags.map fun g => if mine g.ctx then { g with agent := rekeyAgent f g.agent } else g }
  let s := modUpd s fun u => { u with
    sessions := tmap (fun _ e => if mine e.ctx then { e with
      closing := e.closing.map (fun c => (rekeyAgent f c.1, c.2)), closers := e.closers.map (rekeyRef f) } else e) u.sessions
    contribs := tmap (fun _ c => if mine c.ctx then { c with core := f c.core, cg := rekeyRef f c.cg } else c) u.contribs
    ops := tmap (fun _ o => if mine o.ctx then { o with agent := rekeyAgent f o.agent } else o) u.ops }
  modCtx s n fun x => { x with barriers := tmap (fun _ b => { b with arrived := b.arrived.map (rekeyAgent f) }) x.barriers }

/-- Traffic that waited at the bridge edge for a core waits with the saved core; the control messages of queues stay there. -/
def dropEdge (s : State) (c : Nat) : State :=
  modClk s fun k => { k with edge := k.edge.filter fun e => match e with
    | .config _ _ _ _ _ _ _ => true
    | .close _ _ _ _ _ _ _ => true
    | it => it.dest != some c }

/-- START tokens and completions that waited at the edge for a core count in its blocks and groups, which are saved (R147,
Table 6.5). -/
def edgeToBlocks (s : State) (c : Nat) : State :=
  s.clk.edge.foldl (fun s e => match e with
    | .tokens d b k => if d = c then addTokens s c b k else s
    | .group a g code => match a with | .thread d _ => if d = c then groupDone s a g code else s | .ctl _ => s
    | _ => s) s

/-- One core is saved. -/
def saveCore (s : State) (n c : Nat) : State :=
  let s := writeImage (dropSample (dropEdge (edgeToBlocks s c) c) n c) n c
  let x := getCore s c
  let kept := x.eps.filter fun e => cfgDir e.2.cfg != 0
  setCore (setCore s (savedKey n c) { savedCore x with eps := kept }) c (bareCore { x with eps := freeEps x.eps })

/-- Bytes of the records of a context's save area are charged to it (R367, R368). -/
def chargeSave (s : State) (n k : Nat) : State :=
  chargeTier s n (tierOf (getCtx s n).savePa) (256 * (256 + 8448 * k))

/-! ### Cores for those who wait -/

/-- Whether a HELD context that is to be restored holds its cores again. -/
def hasCores (s : State) (n : Nat) : Bool :=
  (getCtx s n).coreset.all fun c => (getCore s c).owner == some n

/-- A HELD context to be restored takes its cores once every one of them is free (R366). -/
def claimRestore (s : State) (n : Nat) : State :=
  let x := getCtx s n
  if x.state = ctxHeld && x.restoring && !hasCores s n && x.coreset.all (coreFree s) then
    x.coreset.foldl (fun s c => modCore s c fun k => { k with owner := some n }) s
  else s

/-- Whether some CORES request not yet answered, of a LIVE or HELD context, lies within its partition's entitlement (R364). -/
def openRequest (s : State) (n : Nat) : Bool :=
  s.ctxs.any fun e => e.1 != n && (e.2.state == ctxLive || e.2.state == ctxHeld) && e.2.coresReq.isSome &&
    decide (heldByPart s e.2.part < (getPart s e.2.part).ent)

/-- Cores that the save area of a context allows (R359). -/
def saveable (x : Ctx) : Nat := (x.saveGrains - 256) / 8448

/-- How many more cores a context may take: those it wants, and those within its partition's entitlement (R364). -/
def wantOwn (s : State) (n count : Nat) : Nat × Nat :=
  let x := getCtx s n
  let want := min count (saveable x) - (heldByCtx s n).length
  (want, min want ((getPart s x.part).ent - heldByPart s x.part))

/-- A core is granted to a context: nothing is loaded on it; the context's counters for it go on (R184, R192). -/
def grantCore (s : State) (n c : Nat) : State :=
  let (pepper, eligible) := tget ([], 0) (getCtx s n).kept c
  modCtx (modCore s c fun k => { bareCore k with owner := some n, pepper := pepper, eligible := eligible }) n fun x => { x with coreset := insertAsc c x.coreset }

/-- The free cores in the order in which a request takes them (R364): free ones first, then those of the borrowers it pre-empted, then
those of its own partition's contexts; ascending within each source. -/
def coresFor (s : State) (n : Nat) (saves : List Nat) : List Nat :=
  let free := freeCores s
  let from_ (p : Nat → Bool) : List Nat := free.filter fun c => saves.any fun k => p k && (getCtx s k).coreset.contains c
  let lent := from_ fun k => (getCtx s k).part != (getCtx s n).part
  let own := (from_ fun k => (getCtx s k).part == (getCtx s n).part).filter fun c => !lent.contains c
  (free.filter fun c => !lent.contains c && !own.contains c) ++ lent ++ own

/-- Answers a CORES request. -/
def answerCores (s : State) (n : Nat) : State :=
  let s := modCtx s n fun x => { x with coresReq := none }
  let s := journalDone s (controlCoreOf n) 6 n
  wakeAgent s (.ctl n) (some (heldByCtx s n).length)

/-- Goes on with a CORES request: a smaller set once the instances on the cores given up have ended; a larger one once the
saves it caused have finished (R364). -/
def coresStep (s : State) (n : Nat) : State :=
  let x := getCtx s n
  match x.coresReq with
  | none => s
  | some (count, saves) =>
    if x.state != ctxLive then s
    else
      let h := heldByCtx s n
      if count ≤ h.length then
        let give := h.drop count
        if give.all fun c => (boundThreads (getCore s c)).isEmpty then
          answerCores (give.foldl (fun s c => dropCore s n c) s) n
        else s
      else if saves.any fun k => (getCtx s k).saving then s
      else
        let (want, own) := wantOwn s n count
        let free := coresFor s n saves
        let got := if openRequest s n then min own free.length else min want free.length
        answerCores ((free.take got).foldl (fun s c => grantCore s n c) s) n

/-- Contexts other than `n` that hold one of its logical cores. -/
def holdersOf (s : State) (n : Nat) : List Nat :=
  ((getCtx s n).coreset.filterMap fun c => (getCore s c).owner).eraseDups.filter fun k => k != n

/-- A HELD context whose cores another has taken is to be restored no more until a boundary finds it so again (R366). -/
def dropRestore (s : State) (n : Nat) : State :=
  if (getCtx s n).state = ctxHeld && !hasCores s n && (holdersOf s n).any fun k => (getCtx s k).state == ctxLive && !(getCtx s k).saving
  then modCtx s n fun x => { x with restoring := false } else s

/-- After cores have been freed: contexts to be restored take theirs, then requests for cores go on. -/
def coresFreed (s : State) : State :=
  let s := (ctxsWhere s fun x => x.restoring).foldl claimRestore s
  let s := (ctxsWhere s fun x => x.restoring).foldl dropRestore s
  (ctxsWhere s fun x => x.coresReq.isSome).foldl coresStep s

/-- Whom a request pre-empts to have `k` more cores: borrowers, of the partition that has most borrowed first, within it the
context of highest pass; then contexts of the same partition whose pass exceeds the asker's, highest first (R364). -/
def victimsFor (s : State) (n : Nat) : Nat → Nat → List Nat → List Nat
  | 0, _, vs => vs
  | fuel + 1, k, vs =>
    if k = 0 then vs
    else
      let x := getCtx s n
      let holds (p : Nat) : List (Nat × Ctx) := s.ctxs.filter fun e =>
        e.1 != n && !vs.contains e.1 && e.2.part == p && e.2.state == ctxLive && !(heldByCtx s e.1).isEmpty
      let gone (p : Nat) : Nat := (vs.filter fun v => (getCtx s v).part == p).foldl (fun t v => t + (heldByCtx s v).length) 0
      let owes (p : Nat) : Nat := borrowedBy s p - gone p
      let lender := maxBy owes ((List.range 64).filter fun p => decide (0 < owes p) && p != x.part && !(holds p).isEmpty)
      let pick := match lender with
        | some p => maxBy (fun e : Nat × Ctx => e.2.pass) (holds p)
        | none => maxBy (fun e : Nat × Ctx => e.2.pass) ((holds x.part).filter fun e => decide (x.pass < e.2.pass))
      match pick with
      | none => vs
      | some v => victimsFor s n fuel (k - (heldByCtx s v.1).length) (vs ++ [v.1])

/-- CORES (R364): the smaller set retires the programs of its highest cores; the larger one pre-empts for what free cores do not
give. -/
def askCores (s : State) (n count : Nat) : State :=
  let h := heldByCtx s n
  if count ≤ h.length then
    let s := (h.drop count).foldl (fun s c => modCore s c fun x => { x with loading := true }) s
    coresStep (modCtx s n fun x => { x with coresReq := some (count, []) }) n
  else
    let own := (wantOwn s n count).2
    let vs := victimsFor s n (s.ctxs.length + 1) (own - (freeCores s).length) []
    let s := vs.foldl preempt s
    coresStep (modCtx s n fun x => { x with coresReq := some (count, vs) }) n

/-! ### Exchange and restore (R366) -/

/-- A HELD context is to be restored when every holder of its cores has a higher pass: the holders are pre-empted, and it takes
the cores once they are free. -/
def tryRestore (s : State) (n : Nat) : State :=
  let x := getCtx s n
  let hs := holdersOf s n
  if x.state = ctxHeld && !(x.restoring && hasCores s n) && (hs.all fun k => decide (x.pass < (getCtx s k).pass)) &&
      x.coreset.all fun c => !(getCore s c).lost then
    claimRestore (hs.foldl preempt (modCtx s n fun x => { x with restoring := true })) n
  else s

/-- The scratchpad of a saved core comes back from its record. -/
def readSaved (s : State) (n c : Nat) : Nat → List Host.Cell × Tbl Bool × State
  | 0 => ([], [], s)
  | u + 1 =>
    let (m, t, s) := readSaved s n c u
    let (d, tag, s) := readGrain s (coreRecord s n c + 256 * u)
    (writeBytes m (256 * u) d, if tag.poison then tput t u true else t, s)

/-- One core is restored: its state, the counters of its index, its scratchpad. -/
def restoreCore (s : State) (n c : Nat) : State :=
  let k := savedKey n c
  let (m, t, s) := readSaved s n c 8192
  let x := getCore s k
  let o := getCore s c
  let s := { s with cores := tdel s.cores k }
  setCore s c { x with
    owner := some n, lost := o.lost, busy := o.busy, idle := o.idle, binds := o.binds, parks := o.parks, sp := m, spPoison := t,
    eps := mergeHeld x.eps o.eps,
    threads := tmap (fun _ v => { v with held := false }) x.threads }

/-- The key of a running core for the key of a saved one. -/
def runKey (n k : Nat) : Nat := if 1024 * (n + 1) ≤ k && k < 1024 * (n + 2) then k % 1024 else k

/-- Whether what a thread is parked for has come (Table 6.5). -/
def parkOver (s : State) (c thr : Nat) (w : Park) : Bool :=
  let x := getCore s c
  match w with
  | .packet ep => !(unclaimed (getEp x ep)).isEmpty
  | .credit ep => decide (0 < (getEp x ep).credits)
  | .sumCredit => decide (0 < x.sumCredit)
  | .group g => cgReady (getCg x.cgs g)
  | w => ringWaitOver s c thr w

/-- A context is restored: threads go on where they stopped; requests recorded as replay state are issued (Table 6.5). -/
def restoreCtx (s : State) (n : Nat) : State :=
  let cores := (getCtx s n).coreset
  let s := chargeSave s n cores.length
  let s := cores.foldl (fun s c => restoreCore s n c) s
  let s := rekeyCtx s n (runKey n)
  let p := startPass s n
  let s := modCtx s n fun x => { x with state := ctxLive, restoring := false, pass := p }
  cores.foldl (fun s c => pumpSlots (wakeCore (touchCore s c) c (parkOver s c)) c) s

/-- Whether a request is an LDT grain that has been issued and has not landed (Table 6.5). -/
def ldtInFlight (n : Nat) (r : MReq) : Bool :=
  r.ctx == n && r.core.isSome && r.sched.isNone && (r.phase == .queued || r.phase == .served || r.phase == .held) &&
    match r.dest with | .tile _ _ => true | _ => false

/-- LDT grains in flight become replay state under new numbers, to be issued again at restore; the responses to the old ones find no
request (R165). -/
def recordReplay (s : State) (n : Nat) : State :=
  let old := s.mem.reqs.filter fun e => ldtInFlight n e.2
  let s := modMem s fun m =>
    { m with reqs := old.zipIdx.foldl (fun t e => tput (tdel t e.1.1) (m.nextReq + e.2) { e.1.2 with phase := .waitSlot }) m.reqs
             nextReq := m.nextReq + old.length }
  modPeers s fun p => { p with txns := p.txns.filter fun t => !(old.any fun e => e.1 == t.2) }

/-- A context saved for a short time takes its cores back at once. -/
def bringBack (s : State) (n : Nat) : State :=
  restoreCtx (claimRestore (modCtx s n fun x => { x with restoring := true }) n) n

/-- A context is saved: it is HELD, and its cores are free (R367). -/
def saveAll (s : State) (n : Nat) : State :=
  let s := recordReplay s n
  let cores := heldByCtx s n
  let s := chargeSave s n cores.length
  let s := saveState n ((getCtx s n).savePa + 256) 255 s
  let s := cores.foldl (fun s c => saveCore s n c) s
  let s := rekeyCtx s n fun c => if cores.contains c then savedKey n c else c
  modCtx s n fun x => { x with state := ctxHeld, saving := false }

/-- The save of a context completes, and its cores go to who waits for them. -/
def finishSave (s : State) (n : Nat) : State := coresFreed (saveAll s n)

end Machine
end Sys2Proof
end

