-- ==== Sys2Proof/Machine/Partition.lean ====
section
/-! DEFINITION. Contexts and partitions: the command path (R419 to R421), CREATE, RUN and DESTROY (R357, R358, R360), MAP and UNMAP
(R420), teardown (R360, R362), the quantum boundary (R363 to R367), MSI-X (R371, R372), and partition resets (R375). -/

namespace Sys2Proof
namespace Machine

open Host

/-! ### MSI-X (R371, R372) -/

/-- Messages of a partition that now wait for a token are counted in IRQ_DEFERRED, each once. -/
def noteDeferred (s : State) (p : Nat) : State :=
  modPart s p fun x =>
    if x.tokens != 0 then x
    else x.pba.foldl (fun x e =>
      let known := tget 0 x.deferred e.1
      if (tget MsixEntry.reset x.vectors e.1).masked || e.2 ≤ known then x
      else { x with irqDeferred := x.irqDeferred + (e.2 - known), deferred := tput x.deferred e.1 e.2 }) x

/-- Whether a pending message of a partition may be sent: its function is enabled, sends MSI-X and is not masked (R372, R407), the
vector is unmasked, and the bucket holds a token. -/
def msixReady (s : State) (p vec : Nat) : Bool :=
  let x := getPart s p
  hostUp s && partEnabled s p && !x.resetting && (p == 0 || s.host.vfEnable) &&
  tget false s.host.msixOn p && !tget false s.host.msixMask p && decide (vec < (partEntry s p).vecCount) &&
  decide (0 < tget 0 x.pba vec) && !(tget MsixEntry.reset x.vectors vec).masked && decide (0 < x.tokens)

/-- The partition whose message is next: the first in rotation with one that may be sent (R371). -/
def msixNext (s : State) : Option Nat :=
  (List.range 64).findSome? fun i =>
    let p := (s.host.msixTurn + 1 + i) % 64
    if (getPart s p).pba.any fun e => msixReady s p e.1 then some p else none

/-- MSIX_SEND (R371, R372): of the partition whose turn it is. -/
def execMsixSend (part vec : Nat) (s : State) : Outcome State Fault Refusal :=
  if !msixReady s part vec || msixNext s != some part then .next s
  else
    let s := { s with host := { s.host with msixTurn := part } }
    let s := modPart s part fun x =>
      let n := tget 0 x.pba vec - 1
      let k := tget 0 x.deferred vec - 1
      { x with tokens := x.tokens - 1
               pba := if n = 0 then tdel x.pba vec else tput x.pba vec n
               deferred := if k = 0 then tdel x.deferred vec else tput x.deferred vec k }
    .next (emit (noteDeferred s part) (.msix part vec))

/-! ### The command ring (R419, R420) -/

/-- RESULT codes (Table 17.9). -/
def crOk : Nat := 0
def crRefused : Nat := 1
def crBadArg : Nat := 2
def crNoWindow : Nat := 3
def crNoPriv : Nat := 4

/-- Entries of a ring of an ORDER. -/
def cmdSlots (order : Nat) : Nat := 2 ^ (order + 4)

/-- The address of the entry at HEAD. -/
def cmdEntryPa (s : State) (p : Nat) : Nat :=
  let x := getPart s p
  x.cmdBase + 256 * (x.cmdHead % cmdSlots x.cmdOrder)

/-- Word `i` of the entry at HEAD. -/
def cmdWord (s : State) (p i : Nat) : Nat := fwWord s (cmdEntryPa s p + 8 * i)

/-- Whether the entry at HEAD comes poisoned as firmware reads it, and the state after the read. -/
def fetchEntry (s : State) (p : Nat) : Bool × State :=
  let (_, bad, s) := fwFetch s (cmdEntryPa s p) 256
  (bad, s)

/-- Whether firmware takes a command of a partition: one is pending, it is the partition's turn (R373), and its control core does not
stop (R399). -/
def cmdReady (s : State) (p : Nat) : Bool := !firmwareBusy s && nextTurn s == some (p, none)

/-- The journal's number of a command (R400). -/
def cmdSubject (s : State) (p : Nat) : Nat := p * 2 ^ 32 + (getPart s p).cmdHead

/-- Completion: W28 to W31, performed at HOST scope; then HEAD and the message (R414, R420). -/
def cmdComplete (s : State) (p result detail : Nat) : State :=
  let s := journalDone s 0 7 (cmdSubject s p)
  let s := modPart s p fun x => { x with cmdCompleted := x.cmdCompleted + 1, destroyWait := none }
  fwDo s 0 [.write (cmdEntryPa s p + 224) (leBytes 8 (result <<< 56 + detail % 2 ^ 32) ++ leBytes 8 (now s) ++ zeros 16), .head p]

/-- Bits of W1 to W6 that an OP uses. -/
def cmdMask (op : Nat) : List Nat :=
  let ctx := 0xFFF
  let all := 2 ^ 64 - 1
  match op with
  | 1 => [0xFFFFFFFF1FFF, all, 0xFFFFFFFF, 0xFFFFFFFF, all, 0xC0000000]
  | 2 => [ctx, all, 0, 0, 0, 0]
  | 3 => [ctx, 0, 0, 0, 0, 0]
  | 4 => [ctx, all, all, 0x3FFFFFFFFF, 0, 0]
  | 5 => [ctx, all, 0, 0x1FFFFFFFF, 0, 0]
  | 6 => [ctx, all, 0, 0xF9E0000000000000, 0, 0]
  | _ => [0, 0, 0, 0, 0, 0]

/-- Whether the fields an OP does not use are 0 (R6). -/
def cmdFieldsOk (s : State) (p op : Nat) : Bool :=
  cmdWord s p 0 % 2 ^ 56 == 0 &&
  ((cmdMask op).zipIdx.all fun e => cmdWord s p (e.2 + 1) &&& (2 ^ 64 - 1 - e.1) == 0) &&
  (List.range 21).all fun i => cmdWord s p (i + 7) == 0

/-- How a command ends: with a result and a detail, or later. -/
inductive CmdEnd where
  | done (s : State) (result detail : Nat)
  | wait (s : State)
  deriving DecidableEq, Repr

/-- Takes the command at HEAD of a partition's ring if its turn has come and its OP is `op`: one that reads poisoned, or with a field that
must be 0, ends BAD_ARG (R420). Doorbells that waited for it follow (R418). -/
def runCommand (op part : Nat) (body : State → CmdEnd) (s : State) : Outcome State Fault Refusal :=
  if !cmdReady s part then .next s
  else if !(fetchEntry s part).1 && cmdWord s part 0 / 2 ^ 56 != op then .next s
  else
    let (bad, s) := fetchEntry s part
    let s := journal (takeTurn s part) 0 7 (cmdSubject s part) false
    if bad then .next (pumpBells (cmdComplete s part crBadArg 0))
    else if !cmdFieldsOk s part op then .next (pumpBells (cmdComplete s part crBadArg 0))
    else match body s with
      | .done s result detail => .next (pumpBells (cmdComplete s part result detail))
      | .wait s => .next (pumpBells s)

/-- The context that a command names. -/
def cmdCtx (s : State) (p : Nat) : Nat := cmdWord s p 1 % 4096

/-- Whether a context index lies in a partition's range. -/
def ctxInRange (s : State) (p n : Nat) : Bool :=
  let e := partEntry s p
  decide (e.ctxFirst ≤ n) && decide (n < e.ctxFirst + e.ctxCount)

/-- A command on a context of the partition's range; NO_WINDOW for one outside. -/
def onCtx (s : State) (p : Nat) (f : Nat → CmdEnd) : CmdEnd :=
  let n := cmdCtx s p
  if ctxInRange s p n then f n else .done s crNoWindow 0

def execCmdNop (part : Nat) (s : State) : Outcome State Fault Refusal :=
  runCommand 0 part (fun s => .done s crOk 0) s

/-- RESERVED_COMMAND: an entry with a reserved OP completes BAD_ARG (R420, Table 17.9). -/
def execReservedCommand (part : Nat) (s : State) : Outcome State Fault Refusal :=
  let op := cmdWord s part 0 / 2 ^ 56
  if op ≤ 6 then .next s
  else runCommand op part (fun s => .done s crBadArg 0) s

/-! ### CREATE, RUN, DESTROY -/

/-- Whether a save area passes R358. -/
def saveAreaOk (s : State) (p pa grains : Nat) : Bool :=
  pa % 256 == 0 && decide (256 ≤ grains) && decide (pa + 256 * grains ≤ tier2End) && inWindows s p pa (256 * grains)

/-- Whether CREATE of context `n` is accepted (R358). -/
def createOk (s : State) (p n : Nat) (priv : Bool) (colgroup pa grains : Nat) : Bool :=
  let st := (getCtx s n).state
  (st == ctxFree || st == ctxEnded) && !((getPart s p).teardown.any fun e => e.1 == n) &&
  (!priv || (partEntry s p).privOk) && (colgroup == 0 || !(s.ctxs.any fun e => ctxActive e.2 && e.2.colgroup == colgroup)) &&
  saveAreaOk s p pa grains

/-- The context that an accepted CREATE makes; its pass, its SHADOW_CTL and its EP_MASK stay (Table 16.10). -/
def createdCtx (x : Ctx) (p : Nat) (priv : Bool) (colgroup share pa grains numCtl seed role : Nat) : Ctx :=
  { Ctx.reset with
    state := ctxCreated, part := p, priv := priv, colgroup := colgroup, share := share, shareNow := share, savePa := pa,
    saveGrains := grains, pass := x.pass
    num := { x.num with
      s5emuReg := bit numCtl 31, s5emu := bit numCtl 31, seedReg := w64 seed, seed := w64 seed, shSampled := 0, shSkipped := 0,
      shBins := [] }
    dst := { x.dst with roleReg := role, role := role, packets := 0, words := 0, poisoned := 0, truncated := 0, waitTicks := 0 } }

/-- The energy of a context index that is created again moves on (R370). -/
def retireEnergy (s : State) (n : Nat) : State :=
  let paid := (getCtx s n).acct.energyMj
  modClk s fun c => { c with
    retiredMj := c.retiredMj + paid
    overheadOwed := c.overheadOwed + ((tget 0 c.owedUj n : Nat) : Int) - 1000 * (paid : Int)
    owedUj := tdel c.owedUj n }

def refuseCreate (s : State) (p result : Nat) : CmdEnd :=
  .done (modPart s p fun x => { x with createRefused := true }) result 0

/-- Whether a CREATE stands at HEAD of the ring of a partition that is disabled or resetting: firmware takes no command of such a
partition, and the CREATE is refused where it stands (R358, R375; log 148). -/
def createBarred (s : State) (p : Nat) : Bool :=
  hostUp s && (s.pwr.service == 1 || s.pwr.service == 2) && (!partEnabled s p || (getPart s p).resetting) &&
  decide (0 < cmdWaiting (getPart s p)) && (getPart s p).cmdBase != 0 && !(fetchEntry s p).1 && cmdWord s p 0 / 2 ^ 56 == 1

def execCreate (part : Nat) (s : State) : Outcome State Fault Refusal :=
  if createBarred s part then .next (modPart (fetchEntry s part).2 part fun x => { x with createRefused := true }) else
  runCommand 1 part (fun s =>
    let w1 := cmdWord s part 1
    let n := w1 % 4096
    let priv := bit w1 12
    let colgroup := bits w1 47 32
    let pa := cmdWord s part 2
    let grains := cmdWord s part 3
    let role := bits (cmdWord s part 6) 31 30
    let numCtl := cmdWord s part 4
    if role = 3 || numCtl % 2 ^ 31 != 0 then .done s crBadArg 0
    else if !ctxInRange s part n then refuseCreate s part crNoWindow
    else if !createOk s part n priv colgroup pa grains then refuseCreate s part crRefused
    else
      let s := retireEnergy s n
      let s := modCtx s n fun x =>
        createdCtx x part priv colgroup (bits w1 31 16) pa grains numCtl (cmdWord s part 5) role
      let p := startPass s n
      .done (recomputeEnt (modCtx s n fun x => { x with pass := p })) crOk 0) s

/-- RUN (R357): the control thread starts at A, its registers 0. A must be a word address of the context's space. -/
def execRun (part : Nat) (s : State) : Outcome State Fault Refusal :=
  runCommand 2 part (fun s =>
    let a := cmdWord s part 2
    if a % 8 != 0 || 2 ^ 48 ≤ a then .done s crBadArg 0
    else onCtx s part fun n =>
      if (getCtx s n).state != ctxCreated then .done s crRefused 0
      else .done (modCtx s n fun x =>
        { x with state := ctxLive, ctl := { Control.reset with codeVa := a, thr := { Thread.reset with st := .runnable } } })
        crOk 0) s

/-- DESTROY (R360, R361): completes when the context is ENDED. -/
def execDestroy (part : Nat) (s : State) : Outcome State Fault Refusal :=
  runCommand 3 part (fun s => onCtx s part fun n =>
    let st := (getCtx s n).state
    if st = ctxFree then .done s crRefused 0
    else if st = ctxEnded then .done s crOk 0
    else
      let s := beginTeardown s n (some 0xF0)
      if (getCtx s n).state = ctxEnded then .done s crOk 0
      else .wait (modPart s part fun x => { x with destroyWait := some n })) s

/-! ### MAP, UNMAP, POST -/

/-- Bytes of a page of a MAP or UNMAP. -/
def mapPage (c : Nat) : Nat := if bit c 32 then 2 ^ 30 else pageBytes

/-- What page `i` of a MAP fails with (R420): no window governs tier 3 (R356). -/
def mapPageFault (s : State) (p n a b c i : Nat) : Option Nat :=
  let x := getCtx s n
  let sz := mapPage c
  let pa := b + i * sz
  let va := a + i * sz
  let hinted := hintedPa s.mem.hintGroups pa
  let hint := bit c 34
  if 2 ^ 48 < va + sz then some crBadArg
  else if tierOf pa != 3 && !inWindows s p pa sz then some crNoWindow
  else if hint && !(hinted && hintGroupOf s.mem.hintGroups pa == bits c 37 35) then some crBadArg
  else if hinted && !x.priv then some crNoPriv
  else if hinted && !hint then some crBadArg
  else if x.maps.any fun m => overlap va sz m.va m.bytes then some crRefused
  else none

/-- The first page of a MAP that fails, with its result. -/
def mapFault (s : State) (p n a b c : Nat) : Option (Nat × Nat) :=
  (List.range (c % 2 ^ 32)).findSome? fun i => (mapPageFault s p n a b c i).map fun r => (r, i)

def execMap (part : Nat) (s : State) : Outcome State Fault Refusal :=
  runCommand 4 part (fun s =>
    let a := cmdWord s part 2
    let b := cmdWord s part 3
    let c := cmdWord s part 4
    let sz := mapPage c
    if a % sz != 0 || 2 ^ 48 ≤ a || b % sz != 0 || 2 ^ 48 ≤ b || (!bit c 34 && bits c 37 35 != 0) then .done s crBadArg 0
    else onCtx s part fun n =>
      if !ctxActive (getCtx s n) then .done s crRefused 0
      else match mapFault s part n a b c with
        | some (r, i) => .done s r i
        | none =>
          if c % 2 ^ 32 = 0 then .done s crOk 0
          else
            let m : Mapping := { va := a, pa := b, bytes := c % 2 ^ 32 * sz, write := bit c 33, model := false }
            .done (modCtx s n fun x => { x with maps := x.maps ++ [m] }) crOk 0) s

/-- What is left of a mapped run outside a range of virtual addresses. -/
def mapOutside (lo hi : Nat) (m : Mapping) : List Mapping :=
  let e := m.va + m.bytes
  (if m.va < lo then [{ m with bytes := min e lo - m.va }] else []) ++
  (if hi < e then [{ m with va := max hi m.va, pa := m.pa + (max hi m.va - m.va), bytes := e - max hi m.va }] else [])

def execUnmap (part : Nat) (s : State) : Outcome State Fault Refusal :=
  runCommand 5 part (fun s =>
    let a := cmdWord s part 2
    let c := cmdWord s part 4
    let sz := mapPage c
    if a % sz != 0 || 2 ^ 48 ≤ a then .done s crBadArg 0
    else onCtx s part fun n =>
      if !ctxActive (getCtx s n) then .done s crRefused 0
      else .done (modCtx s n fun x => { x with maps := x.maps.flatMap (mapOutside a (a + c % 2 ^ 32 * sz)) }) crOk 0) s

/-- SOURCE of a host contribution: after every core's (R421). -/
def postSource : Nat := 0x400

def execPost (part : Nat) (s : State) : Outcome State Fault Refusal :=
  runCommand 6 part (fun s =>
    let c := cmdWord s part 4
    let kind := bits c 63 60
    if kind = 0 || 7 < kind then .done s crBadArg 0
    else onCtx s part fun n =>
      if !ctxActive (getCtx s n) then .done s crRefused 0
      else
        let k : Contribution :=
          { source := postSource, kind := kind, round := bits c 59 59, tag := bits c 56 53, poison := false,
            value := w64 (cmdWord s part 2) }
        .done (mailAdd s n k) crOk 0) s

/-! ### Teardown (R360, R362) -/

/-- A DESTROY that waited for a context completes. -/
def endDestroy (s : State) (p n : Nat) : State :=
  if (getPart s p).destroyWait = some n then pumpBells (cmdComplete s p crOk 0) else s

/-- TEARDOWN_COMPLETE (R360): once no request of the context's cores is outstanding, its cores are freed and it is ENDED. -/
def execTeardownComplete (ctx : Nat) (s : State) : Outcome State Fault Refusal :=
  if (getCtx s ctx).state != ctxEnding || coreReqsOut s ctx then .next s
  else .next (coresFreed (endDestroy (endTeardown s ctx) (getCtx s ctx).part ctx))

/-- TEARDOWN_READ (R362, Table 15.5): answers and removes the oldest entry. In recovery the block does not respond (R435). -/
def execTeardownRead (part : Nat) (s : State) : Outcome State Fault Refusal :=
  if !hostUp s || s.pwr.service == 3 then .next s
  else match (getPart s part).teardown with
    | [] => .next (emit s (.regValue 0))
    | (n, r) :: rest =>
      .next (emit (modPart s part fun x => { x with teardown := rest }) (.regValue (2 ^ 31 + r <<< 16 + n)))

/-! ### The quantum boundary (R363 to R366) -/

/-- Passes of contexts and partitions rise by the quantum's core-ticks at the share in force, and the shares as written take
effect. -/
def advancePasses (s : State) : State :=
  let ctxRise (x : Ctx) : Ctx :=
    if x.state = ctxFree then x
    else { x with pass := (x.pass + passRise x.heldQ x.shareNow) % 2 ^ 64, heldQ := 0, shareNow := x.share }
  let partRise (x : Part) : Part :=
    { x with pass := (x.pass + passRise x.heldQ x.shareNow) % 2 ^ 64, heldQ := 0, shareNow := x.share }
  { s with ctxs := tmap (fun _ x => ctxRise x) s.ctxs, parts := tmap (fun _ x => partRise x) s.parts }

/-- Whether SCHED.QUANTUM_US has passed since the last boundary (R365). -/
def quantumOver (s : State) : Bool := decide (s.quantumAt + usTicks * s.quantumUs ≤ now s)

def execQuantumBoundary (s : State) : Outcome State Fault Refusal :=
  if s.recov.fatal || s.pwr.off || s.pwr.inHold || s.pwr.holdAsked || !quantumOver s then .next s
  else
    let s := recomputeEnt (advancePasses { s with quantumAt := now s })
    let s := (ctxsWhere s fun x => x.state == ctxHeld).foldl tryRestore s
    .next (coresFreed s)

/-- CONTEXT_SAVED (R367): the save completes once no LOADP of the context is in progress (Table 6.5). -/
def execContextSaved (ctx : Nat) (s : State) : Outcome State Fault Refusal :=
  let x := getCtx s ctx
  if x.state = ctxLive && x.saving && x.loadp.isNone then .next (finishSave s ctx) else .next s

/-- CONTEXT_RESTORED (R366). -/
def execContextRestored (ctx : Nat) (s : State) : Outcome State Fault Refusal :=
  let x := getCtx s ctx
  if x.state = ctxHeld && x.restoring && hasCores s ctx then .next (coresStep (restoreCtx s ctx) ctx) else .next s

/-! ### Partition reset (R375) -/

/-- Requests, prefix handles and models of a partition are dropped, with nothing written for them (R324, R336). -/
def dropServing (s : State) (p : Nat) : State :=
  let rs := (s.rollout.requests.filter fun e => e.2.part == p && rqLive e.2).map Prod.fst
  let s := rs.foldl releaseSets s
  let s := modRo s fun ro => { ro with requests := ro.requests.filter fun e => e.2.part != p }
  let s := releaseHandles s fun h => h.part == p
  let ms := (s.models.filter fun e => e.2.part == p).map Prod.fst
  let s := ms.foldl (fun s ix => match tfind s.models ix with
    | none => s
    | some m => m.attached.foldl (fun s a => detachOne s ix a.1) s) s
  { s with models := s.models.filter fun e => e.2.part != p }

/-- Contexts of a partition are torn down without an entry; those that are ENDING join them (R362, Table 15.4). -/
def resetContexts (s : State) (p : Nat) : State :=
  let mine := ctxsWhere s fun x => x.part == p && x.state != ctxFree && x.state != ctxEnded
  mine.foldl (fun s n => modCtx (beginTeardown s n none) n fun x => { x with reason := none }) s

/-- The lowest pass among enabled partitions. -/
def lowestPass (s : State) : Nat :=
  match minBy id ((enabledParts s).map fun q => (getPart s q).pass) with
  | none => 0
  | some v => v

/-- Whether an effect of firmware concerns a partition: a write into its windows, its HEAD, its messages. -/
def actOfPart (s : State) (p : Nat) : FwAct → Bool
  | .write pa bs => inWindows s p pa bs.length
  | .head q => q == p
  | .msix q _ => q == p

/-- What firmware still has to do for a partition is dropped, and its commands count as acted on: nothing is issued for it after step 1
(R375, Table 15.4). -/
def dropFirmware (s : State) (p : Nat) : State :=
  let clear (e : JournalEntry) : JournalEntry := { e with
    complete := e.complete || (e.what == 7 && e.subject / 2 ^ 32 == p)
    effects := e.effects.filter fun x => x.2 || !actOfPart s p x.1 }
  let waits := s.host.fwWaits.map fun w => { w with acts := w.acts.filter fun a => !actOfPart s p a }
  (List.range 16).foldl (fun s cc => setJournal s cc ((getJournal s cc).map clear)) { s with host := { s.host with fwWaits := waits } }

/-- Steps 1 to 3 of a partition reset begin; a reset in progress goes on (Table 15.4). -/
def resetPart (s : State) (p : Nat) : State :=
  if (getPart s p).resetting then s
  else
    let s := modPart (dropFirmware s p) p fun x => { x with
      resetting := true, pba := [], deferred := [], vectors := [], teardown := [], cmdHead := 0, cmdTail := 0, destroyWait := none
      bells := [] }
    let s := dropServing (resetContexts s p) p
    modUpd s fun u => { u with mirrored := u.mirrored.filter fun e => e.part != p }

/-- PARTITION_RESET: a PF write of 1 to PART.CTL.RESET (Table 15.5). In recovery the block does not respond (R435). -/
def execPartitionReset (part : Nat) (s : State) : Outcome State Fault Refusal :=
  if hostUp s && s.pwr.service != 3 && part < 64 then .next (resetPart s part) else .next s

/-- The runs of tiers 1 and 2 in a partition's windows: first byte and length. -/
def scrubRuns (s : State) (p : Nat) : List (Nat × Nat) :=
  (partEntry s p).windows.map fun w => (w.2.first * pageBytes, min ((w.2.last + 1) * pageBytes) tier2End - w.2.first * pageBytes)

/-- Every grain of tiers 1 and 2 in a partition's windows is scrubbed (R204, R375 step 5). -/
def scrubWindows (s : State) (p : Nat) : State :=
  (scrubRuns s p).foldl (fun s r => if r.2 = 0 then s else scrubRange s r.1 r.2) s

/-- Lines of a partition's windows that the host may hold are back-invalidated before the scrub (R414). -/
def snoopWindows (s : State) (p : Nat) : State := (scrubRuns s p).foldl (fun s r => invalidateRun s r.1 r.2) s

/-- Whether the scrub of a partition's windows waits on back-invalidates. -/
def windowsWait (s : State) (p : Nat) : Bool := (scrubRuns s p).any fun r => !(biRun s r.1 r.2).isEmpty

/-- The last steps of R375: the pass, the scrub, the end. -/
def finishReset (s : State) (p : Nat) : State :=
  let low := lowestPass s
  modPart (scrubWindows s p) p fun x => { x with pass := low, resetting := false, resetDone := true, resets := x.resets + 1 }

end Machine
end Sys2Proof
end

