-- ==== Sys2Proof/Machine/Ingress.lean ====
section
/-! DEFINITION. Accesses that enter from outside: HDM accesses of the host (R411 to R414) and tier 3 requests of peers (R203),
and their place in the queues of the banks (R50). -/

namespace Sys2Proof
namespace Machine

/-! ### HDM accesses (R411 to R414) -/

/-- The HDM decoder that covers an address (R411). -/
def decoderOf (pa : Nat) : Option Nat :=
  if pa < tier2Base then some 0 else if pa < tier2End then some 1 else none

/-- Lines that the snoop filter tracks (R414). -/
def snoopRoom : Nat := 1048576

/-- The host may hold a line from now on; a full filter back-invalidates its oldest line (R414). -/
def trackLine (s : State) (l : Nat) : State :=
  if s.host.snoop.contains l then s
  else if s.host.snoop.length < snoopRoom then modHost s fun h => { h with snoop := h.snoop ++ [l] }
  else match s.host.snoop with
    | [] => s
    | o :: rest => modHost (emit s (.biSnoop o)) fun h => { h with
        snoop := rest ++ [l], biLines := h.biLines ++ [o], bisnp := h.bisnp + 1, sfEvictions := h.sfEvictions + 1 }

/-- Counts an HDM access that is not served. -/
def hdmDenied (s : State) : State := modHost s fun h => { h with hdmDenied := h.hdmDenied + 1 }

/-- An access outside every window: a read returns zero bytes, a write completes and is discarded; both count (R412). -/
def hdmOutside (s : State) (pa : Nat) (data : Option (List Byte)) : State :=
  let a := pa / 64 * 64
  emit (hdmDenied s) (if data.isSome then .hdmDone a else .hdmData a (zeros 64) false)

/-- A line read outside every window, or of a partition that resets, answers zeros; of a range not in service, poison (R412,
R437, Table 15.4). -/
def readLine (s : State) (pa : Nat) : State :=
  let a := pa / 64 * 64
  match partOfPa s a with
  | none => emit (hdmDenied s) (.hdmData a (zeros 64) false)
  | some p =>
    if (getPart s p).resetting then emit s (.hdmData a (zeros 64) false)
    else if unitLost s (servePa s a) then
      let (bs, s) := remoteGrain s
      emit (hdmDenied s) (.hdmData a (bs.take 64) true)
    else
      let (data, t, s) := readGrain s (grainBase a)
      emit (trackLine s (a / 64)) (.hdmData a (slice data (a % 256) 64) t.poison)

/-- Lines of a poisoned grain that the host has written since the poison was set, this one with them (R413). -/
def linesNow (s : State) (a : Nat) : Nat :=
  let old := tget 0 s.mem.linesWritten (a / 256)
  let b := a % 256 / 64
  if bit old b then old else old + 2 ^ b

/-- A line write is merged into its grain at the home: a new check, FORMAT 0x0, PART from the window; poison clears with the fourth
line (R205, R413). The mirror of a mirrored model gets it too (R230). -/
def mergeLine (s : State) (p a : Nat) (data : List Byte) : State :=
  let bs := patch (grainAt s a) (a % 256) (fit 64 data)
  let was := (tagAt s a).poison || (tagAt s a).check != crc32c (grainAt s a)
  let s := checkHome s a (a % 256) 64
  let lines := linesNow s a
  let poison := was && lines != 15
  let tag := mkTag bs 0 p poison
  let m := mirrorOf s (grainBase a)
  let s := storeGrain s a bs tag
  let s := match m with | none => s | some q => storeGrain s q bs tag
  if poison then modMem s fun m => { m with linesWritten := tput m.linesWritten (a / 256) lines } else s

/-- What a host write of one line does (R412, R413). -/
def writeLine (s : State) (pa : Nat) (data : List Byte) : State :=
  let a := pa / 64 * 64
  match partOfPa s a with
  | none => hdmDenied s
  | some p =>
    if (getPart s p).resetting then s
    else if unitLost s a then hdmDenied s
    else mergeLine s p a data

/-- An HDM access as its bank serves it: a read answers its line; a write completes to the host in every case. -/
def hdmServe (s : State) (pa : Nat) (data : Option (List Byte)) : State :=
  match data with
  | none => readLine s pa
  | some bs => emit (writeLine s pa bs) (.hdmDone (pa / 64 * 64))

/-! ### Tier 3 requests of peers (R203) -/

/-- Whether a peer is present at this module (R272). -/
def peerPresent (s : State) (p : Nat) : Bool := bit s.peers.present.toNat p && !bit s.peers.absent.toNat p

/-- Whether the link access rules export an address to a peer (Table 19.7). -/
def exported (s : State) (src pa : Nat) (isWrite : Bool) : Bool :=
  s.sec.prot.rules.any fun e =>
    let r := e.2
    bit r.peers.toNat src && (!isWrite || r.write) && decide (r.first ≤ pa / pageBytes) && decide (pa / pageBytes ≤ r.last)

/-- Whether a peer's request is served: exported, in service, in no partition that resets (R203, Table 15.4). -/
def peerServed (s : State) (src pa : Nat) (isWrite : Bool) : Bool :=
  exported s src pa isWrite && (tierOf pa == 1 || tierOf pa == 2) && !unitLost s (if isWrite then pa else servePa s pa) &&
  match partOfPa s pa with | none => true | some p => !(getPart s p).resetting

/-- A peer's read as its bank serves it: the grain leaves with its tag, from the mirror when its own unit is lost (R230). -/
def servePeerRead (s : State) (src txn pa : Nat) : State :=
  let q := servePa s pa
  let s := if q = pa then s else modMem s fun m => { m with mirrorFailovers := m.mirrorFailovers + 1 }
  sendBulk s src (.memdata src txn (grainAt s q) (tagAt s q))

/-! ### Queues of the banks (R50) -/

/-- The number that stands for no context. -/
def noCtx : Nat := 4096

/-- Whether requests wait in the queue of the bank that serves an address. -/
def bankBusy (s : State) (pa : Nat) : Bool :=
  (tierOf pa == 1 || tierOf pa == 2) && s.mem.reqs.any fun e => e.2.phase == .queued && (e.2.tier == 1 || e.2.tier == 2) &&
    bankOf s.mem.hintGroups e.2.pa == bankOf s.mem.hintGroups pa

/-- A request from outside for a grain, stamped at its ingress with its source number (R50, Table 2.11). -/
def outsideReq (stamp order source pa : Nat) (isWrite : Bool) (data : List Byte) (tag : GrainTag) (dest : Dest) (ph : Phase) : MReq :=
  { agent := none, core := none, ctx := noCtx, isWrite := isWrite, va := pa, pa := pa, tier := tierOf pa, data := data, tag := tag,
    dest := dest, cg := none, sched := none, entry := 0, stamp := stamp, source := source, limit := 0, order := order, phase := ph, code := 0 }

def addOutside (s : State) (r : MReq) : State := modMem s fun m => { m with reqs := tput m.reqs m.nextReq r, nextReq := m.nextReq + 1 }

/-- A request from outside joins the queue of its bank as it enters. -/
def queueAtBank (s : State) (source pa : Nat) (isWrite : Bool) (data : List Byte) (tag : GrainTag) (dest : Dest) : State :=
  let s := bump s
  addOutside s (outsideReq (now s) s.serial source pa isWrite data tag dest .queued)

/-- An HDM access enters: its bank serves it now when nothing waits there, else in its turn (R50). -/
def hdmEnter (s : State) (pa : Nat) (data : Option (List Byte)) : State :=
  if bankBusy s pa then queueAtBank s 1048 pa data.isSome (data.getD []) (mkTag [] 0 0 false) .host else hdmServe s pa data

/-- Source number of the port that a peer's requests enter by (Table 2.11). -/
def peerSource (s : State) (src : Nat) : Nat := 1049 + portTo s src

/-- A peer's write as its bank serves it: the bytes from `off` on, merged when they are not the whole grain; then it is acknowledged
(R462), once the lines that the host may hold are invalidated (R414). -/
def servePeerWrite (s : State) (src txn pa off : Nat) (data : List Byte) (tag : GrainTag) : State :=
  if unitLost s pa then sendBulk s src (.memack src txn rcTierFailed)
  else
    let s := mergeAs (checkHome s pa off data.length) pa off data tag
    if biWaits s pa then addOutside s (outsideReq (now s) s.serial (peerSource s src) pa true [] tag (.peer src txn off) .waitBi)
    else sendBulk s src (.memack src txn rcOk)

/-- A queued request from outside is served at its bank. -/
def serveOutside (s : State) (r : MReq) : State :=
  match r.dest with
  | .host => hdmServe s r.pa (if r.isWrite then some r.data else none)
  | .peer src txn off =>
    if !peerServed s src r.pa r.isWrite then sendBulk s src (.memack src txn rcTierFailed)
    else if r.isWrite then servePeerWrite s src txn r.pa off r.data r.tag
    else servePeerRead s src txn r.pa
  | _ => s

/-- Whether a request came from outside the module. -/
def fromOutside (r : MReq) : Bool := match r.dest with | .host => true | .peer _ _ _ => true | _ => false

end Machine
end Sys2Proof
end

