-- ==== Sys2Proof/Machine/MemEvents.lean ====
section
/-! DEFINITION. Events of the memory tiers: responses and acknowledgements (R49, R462), banks (R50), late requests (R226), DRAM
errors and repairs (R228 to R230), patrol (R210), MEM.HINT_CTL (R212), requests of peers (R203, R263), host completions
(R415) and back-invalidates (R414). -/

namespace Sys2Proof
namespace Machine

open Host

/-- A response or acknowledgement for a context that is ending is discarded. -/
def discardReq (s : State) (id : Nat) (r : MReq) : State :=
  afterReq (modMem s fun m => { m with reqs := tdel m.reqs id }) r.core

/-- A response grain reaches its core or engine: it is checked (R135, R381), lands, and ends its request. -/
def respond (s : State) (id : Nat) (r : MReq) (corrupt : Bool) : State :=
  if corrupt || r.tag.check != crc32c r.data then
    let (bs, s) := if corrupt then remoteGrain s else (r.data, s)
    let tag : GrainTag := { r.tag with check := crc32c bs, poison := true }
    afterReq (endReq (checkFailed s r.pa) id r.code bs tag) r.core
  else afterReq (endReq s id r.code r.data r.tag) r.core

/-- GRAIN_RESPONSE (R49, R28). -/
def execGrainResponse (req : Nat) (corrupt : Bool) (s : State) : Outcome State Fault Refusal :=
  match getMReq s req with
  | none => .next s
  | some r =>
    if r.isWrite || r.phase != .served then .next s
    else
      let st := (getCtx s r.ctx).state
      if st = ctxEnding || st = ctxEnded || st = ctxFree then .next (discardReq s req r)
      else match r.core with
        | some c =>
          if dieStopped s c then .next (holdAtEdge s c (.grain req corrupt))
          else .next (respond s req r corrupt)
        | none => .next (respond s req r corrupt)

/-- A write's acknowledgement reaches its requester: its slot is free and its group counts it (R462). -/
def ackWrite (s : State) (id : Nat) (r : MReq) : State := afterReq (endReq s id r.code [] r.tag) r.core

/-- An acknowledgement for a core whose die's PLL is stopped waits at the bridge edge (R28). -/
def ackAtCore (s : State) (id : Nat) (r : MReq) : State :=
  match r.core with
  | some c => if dieStopped s c then holdAtEdge s c (.grain id false) else ackWrite s id r
  | none => ackWrite s id r

/-- WRITE_ACK (R462). -/
def execWriteAck (req : Nat) (s : State) : Outcome State Fault Refusal :=
  match getMReq s req with
  | none => .next s
  | some r =>
    if !r.isWrite || r.phase != .served then .next s
    else
      let st := (getCtx s r.ctx).state
      if st = ctxEnding || st = ctxEnded || st = ctxFree then .next (discardReq s req r)
      else .next (ackAtCore s req r)

/-- The accepted request that a bank serves next (R50). -/
def nextAtBank (s : State) (bank : Nat) : Option (Nat × MReq) :=
  let q := s.mem.reqs.filter fun e => e.2.phase == .queued && (e.2.tier == 1 || e.2.tier == 2) &&
    bankOf s.mem.hintGroups e.2.pa == bank && !mustWait s e.2
  match minBy (fun e => e.2.stamp) q with
  | none => none
  | some m => minBy (fun e => e.2.source) (q.filter fun e => e.2.stamp == m.2.stamp)

/-- A write as it is once performed: a merge into a poisoned grain leaves it poisoned (Table 6.2). -/
def mergedReq (s : State) (r : MReq) : MReq :=
  match r.dest with
  | .merge _ _ => { r with tag := { r.tag with poison := r.tag.poison || (tagAt s r.pa).poison } }
  | _ => r

/-- A write that waited on back-invalidates is performed, unless its bank has it, or acknowledged to its peer. -/
def freeBiWrite (s : State) (id : Nat) (r : MReq) : State :=
  match r.dest with
  | .peer src txn _ => sendBulk (modMem s fun m => { m with reqs := tdel m.reqs id }) src (.memack src txn rcOk)
  | _ => setMReq (performWrite s r) id { mergedReq s r with phase := .served }

/-- Writes whose back-invalidates have all been answered go on. -/
def freeBiWrites (s : State) : State :=
  (s.mem.reqs.filter fun e => e.2.phase == .waitBi && !biWaits s e.2.pa).foldl (fun s e => freeBiWrite s e.1 e.2) s

/-- BANK_SERVE (R50, R222, R414): a read takes its grain as it lies now; a write is performed, after the lines that the host
may hold have been invalidated. A stack in self-refresh serves nothing (R439). -/
def execBankServe (bank : Nat) (s : State) : Outcome State Fault Refusal :=
  match if s.pwr.inHold || bankAsleep s bank then none else nextAtBank s bank with
  | none => .next s
  | some (id, r) =>
    let q := if r.isWrite then r.pa else servePa s r.pa
    if fromOutside r then .next (serveOutside (modMem s fun m => { m with reqs := tdel m.reqs id }) r)
    else if unitLost s q then .next (afterReq (failReq s id) r.core)
    else if !r.isWrite then
      let s := if q = r.pa then s else modMem s fun m => { m with mirrorFailovers := m.mirrorFailovers + 1 }
      .next (setMReq s id { r with phase := .served, data := grainAt s q, tag := tagAt s q })
    else
      let s := invalidateGrain s r.pa
      if biWaits s r.pa then .next (setMReq s id { r with phase := .waitBi })
      else .next (setMReq (performWrite s r) id { mergedReq s r with phase := .served })

/-- BACK_INVALIDATE (R414): the host has answered for a line; a write that waited for its last line is performed at HOST scope, and
firmware goes on. -/
def execBackInvalidate (line : Nat) (s : State) : Outcome State Fault Refusal :=
  .next (firmwareGoesOn (freeBiWrites (modHost s fun h => { h with biLines := h.biLines.filter fun l => l != line })))

/-- Whether a request has had no response: it is on its way out or back, and has not reached the edge of its core's die (R226). -/
def unanswered (s : State) (id : Nat) (r : MReq) : Bool :=
  r.phase != .waitSlot && r.tier != 0 && !fromOutside r && !s.clk.edge.contains (.grain id false) && !s.clk.edge.contains (.grain id true)

/-- TIER_LATE (R226). -/
def execTierLate (req : Nat) (s : State) : Outcome State Fault Refusal :=
  match getMReq s req with
  | none => .next s
  | some r =>
    if 2 ≤ r.tier && unanswered s req r && decide (r.stamp + r.limit < now s) then
      .next (afterReq (failReq s req) r.core)
    else .next s

/-! ### DRAM errors -/

/-- Counts and logs an uncorrectable error (R228). -/
def logUncorrectable (s : State) (pa : Nat) : State :=
  let part := (partOfPa s pa).getD 0
  if tierOf pa = 1 then
    logEvent (modMem s fun m => { m with nmUe := m.nmUe + 1 }) 0x03
      { cls := 0, kind := 3, unit := physStack s (stackOf pa) } part none pa
  else
    logEvent (modMem s fun m => { m with capUe := m.capUe + 1 }) 0x04
      { cls := 0, kind := 4, unit := (channelOf s.mem.hintGroups pa).1 } part none pa

/-- The resident model, layer and offset within the layers' span of a grain that lies in a model's pages. -/
def modelGrain (s : State) (pa : Nat) : Option (Nat × Model × Layer × Nat) :=
  s.models.findSome? fun e =>
    match e.2.layerPages.findIdx? fun p => p == pa / pageBytes with
    | none => none
    | some i =>
      let off := i * pageBytes + pa % pageBytes / 256 * 256
      (e.2.layers.find? fun l => l.offset ≤ off && off < l.offset + 256 * l.grains).map fun l => (e.1, e.2, l, off)

/-- The source image of the epoch that a layer holds. -/
def layerSrc (m : Model) (l : Layer) : Nat := if m.state = mdlReplacing && l.epoch = m.epoch then m.replSrcPa else m.lastSrc

/-- A grain with an uncorrectable error that belongs to a resident model is read again, when the model's source image is in host
memory (R229). -/
def queueRefetch (s : State) (a : Nat) : State :=
  match modelGrain s a with
  | some (_, m, l, _) => if tierOf (layerSrc m l) = 4 then modMem s fun x => { x with refetching := x.refetching ++ [a] } else s
  | none => s

/-- MEM_UNCORRECTABLE (R228 to R230). A copy of a mirrored model's grain is written again from the other one, and R228 applies only when
both fail; a failed primary counts a failover. -/
def execMemUncorrectable (pa : Nat) (s : State) : Outcome State Fault Refusal :=
  if (tierOf pa != 1 && tierOf pa != 2) || unitLost s pa then .next s
  else
    let a := grainBase pa
    match (otherCopy s a).filter fun m => !unitLost s m with
    | some m =>
      let s := putGrain s a (grainAt s m) (tagAt s m)
      .next (if (mirrorOf s a).isSome then modMem s fun x => { x with mirrorFailovers := x.mirrorFailovers + 1 } else s)
    | none => .next (queueRefetch (logUncorrectable (storeGrain s a (grainAt s a) { tagAt s a with poison := true }) a) a)

/-- The engine-ready tile of a layer that holds the grain at an offset of the layers' span: its first offset and its grains. The
module does not know the tensors of a layer (R329): tiles are taken from the layer's start on, in the size of Table 8.3 for the
FORMAT of the grain's tag (DESIGN CHOICE, log 120). -/
def tileSpan (s : State) (a : Nat) (l : Layer) (off : Nat) : Nat × Nat :=
  let n := max 1 (tileGrains (tagAt s a).format)
  let i := (off - l.offset) / 256 / n * n
  (l.offset + 256 * i, min n (l.grains - i))

/-- One grain of a layer is written again from its source image. -/
def rewriteGrain (s : State) (m : Model) (l : Layer) (off : Nat) : State :=
  let pa := (m.layerPages.getD (off / pageBytes) 0) * pageBytes + off % pageBytes
  let (data, t, s) := readGrain s (layerSrc m l + off)
  writeGrain s pa data { t with format := (tagAt s pa).format, part := m.part }

/-- The tile that holds a grain of a model is written again from the source image of the epoch that its layer holds; the repair is
counted once (R229, R392). -/
def refetchTile (s : State) (a : Nat) : State :=
  match modelGrain s a with
  | none => s
  | some (_, m, l, off) =>
    let t := tileSpan s a l off
    let s := (List.range t.2).foldl (fun s i => rewriteGrain s m l (t.1 + 256 * i)) s
    let s := modMem s fun x => { x with
      refetches := x.refetches + 1
      refetching := x.refetching.filter fun g => match modelGrain s g with
        | none => true
        | some (_, m', l', o) => !(m'.slot == m.slot && m'.part == m.part && l' == l && decide (t.1 ≤ o) && decide (o < t.1 + 256 * t.2)) }
    logEvent s 0x07 noUnit m.part none a

/-- REFETCH_DONE (R229): the tile that holds the grain is written back from its source image. -/
def execRefetchDone (pa : Nat) (s : State) : Outcome State Fault Refusal :=
  let a := grainBase pa
  if !s.mem.refetching.contains a then .next s
  else .next (refetchTile (modMem s fun x => { x with refetching := x.refetching.filter fun g => g != a }) a)

/-- PATROL_SCRUB (R210): a corrected grain is rewritten as it is and counted. -/
def execPatrolScrub (pa : Nat) (corrected : Bool) (s : State) : Outcome State Fault Refusal :=
  if !corrected || unitLost s pa then .next s
  else if tierOf pa = 1 then .next (modMem s fun m => { m with nmCe := m.nmCe + 1 })
  else if tierOf pa = 2 then .next (modMem s fun m => { m with capCe := m.capCe + 1 })
  else .next s

/-- Whether a capacity-tier page is mapped into any context (R212). -/
def capacityMapped (s : State) : Bool :=
  s.ctxs.any fun e => e.2.maps.any fun m => decide (m.pa < tier2End) && decide (tier2Base < m.pa + m.bytes)

/-- A write of MEM.HINT_CTL (R212, Table 8.10). -/
def writeHintCtl (s : State) (v : Nat) : State :=
  modMem s fun m =>
    let refused := m.hintRefused && !bit v 31
    let g := v % 4
    if g = 3 || g = m.hintGroups then { m with hintRefused := refused }
    else if capacityMapped s then { m with hintRefused := true }
    else { m with hintRefused := refused, hintGroups := g }

/-- HINT_CTL_WRITE (R212). -/
def execHintCtlWrite (value : Word32) (s : State) : Outcome State Fault Refusal := .next (writeHintCtl s value.toNat)

/-! ### Tier 3 (R203, R226, R263) -/

/-- MEMREQ (R203). -/
def execMemreq (src txn : Nat) (span : GrainSpan) (isWrite : Bool) (s : State) : Outcome State Fault Refusal :=
  let pa := span.pa
  if !peerPresent s src then .next s
  else if !peerServed s src pa isWrite then .next (sendBulk s src (.memack src txn rcTierFailed))
  else if isWrite then
    let s := bump s
    let w : PeerWrite := { src := src, txn := txn, pa := grainBase pa, off := span.off, len := span.len, stamp := now s, order := s.serial }
    .next (modPeers s fun p => { p with writesIn := p.writesIn ++ [w] })
  else if bankBusy s pa then .next (queueAtBank s (peerSource s src) (grainBase pa) false [] (mkTag [] 0 0 false) (.peer src txn 0))
  else .next (servePeerRead s src txn (grainBase pa))

/-- The open request of this module that a TXN names at a peer. -/
def openTxn (s : State) (src txn : Nat) : Option (Nat × MReq) :=
  match tfind s.peers.txns txn with
  | none => none
  | some id =>
    match getMReq s id with
    | some r => if r.tier = 3 && peerOfPa r.pa = src then some (id, r) else none
    | none => none

/-- MEMDATA (R263, R271): the data of a peer's write, which is performed and acknowledged, or of this module's read. -/
def execMemdata (src txn : Nat) (data : List Byte) (format part : Nat) (poison : Bool) (s : State) :
    Outcome State Fault Refusal :=
  if !peerPresent s src then .next s
  else
    let bs := fit 256 data
    let tag := mkTag bs format part poison
    match s.peers.writesIn.find? fun w => w.src == src && w.txn == txn with
    | some w =>
      let s := modPeers s fun p => { p with writesIn := dropFirst (fun x => x == w) p.writesIn }
      let data := bs.take w.len
      if bankBusy s w.pa then
        .next (addOutside s (outsideReq w.stamp w.order (peerSource s src) w.pa true data tag (.peer src txn w.off) .queued))
      else .next (servePeerWrite s src txn w.pa w.off data tag)
    | none =>
      match openTxn s src txn with
      | some (id, r) =>
        if r.isWrite then .next s
        else
          let s := modPeers s fun p => { p with txns := tdel p.txns txn }
          .next (setMReq s id { r with phase := .served, data := bs, tag := tag })
      | none => .next s

/-- MEMACK (R263, R226): ends the request it names, with the peer's code. -/
def execMemack (src txn code : Nat) (s : State) : Outcome State Fault Refusal :=
  if !peerPresent s src then .next s
  else match openTxn s src txn with
    | none => .next s
    | some (id, r) =>
      if code = rcOk then
        if r.isWrite then .next (ackAtCore (setMReq s id { r with phase := .served }) id { r with phase := .served }) else .next s
      else .next (afterReq (failReq s id) r.core)

/-! ### Tier 4 (R415) -/

/-- TIER4_COMPLETION (R415, R226). -/
def execTier4Completion (req : Nat) (ok poison : Bool) (s : State) : Outcome State Fault Refusal :=
  match getMReq s req with
  | none => .next s
  | some r =>
    if r.tier != 4 || r.phase != .queued || mustWait s r then .next s
    else if !ok then .next (afterReq (failReq s req) r.core)
    else if r.isWrite then .next (setMReq (performWrite s r) req { r with phase := .served })
    else
      let bs := grainAt s r.pa
      .next (setMReq s req { r with phase := .served, data := bs, tag := mkTag bs 0 (getCtx s r.ctx).part poison })

/-- HOST_SNOOP (R415): the answer reports the line invalid. -/
def execHostSnoop (addr : Nat) (s : State) : Outcome State Fault Refusal :=
  if hostUp s then .next (emit s (.snoopInvalid addr)) else .next s

end Machine
end Sys2Proof
end

