-- ==== Sys2Proof/Machine/Peers.lean ====
section
/-! DEFINITION. Membership (R270 to R274): declaring a peer absent, routes, lives; and the states of a port (R261). -/

namespace Sys2Proof
namespace Machine

open Host

/-- Sets or clears a bit of a mask. -/
def setBit (m : BitVec 8) (j : Nat) (v : Bool) : BitVec 8 :=
  BitVec.ofNat 8 (m.toNat - b2n (bit m.toNat j) * 2 ^ j + b2n v * 2 ^ j)

/-- Peers present at this module. -/
def presentPeers (s : State) : List Nat := (List.range 8).filter fun j => j != s.peers.self && peerPresent s j

/-! ### Absence (R273, R274) -/

/-- Tier 3 requests to a peer end as failed (R226). -/
def failPeerReqs (s : State) (j : Nat) : State :=
  (s.mem.reqs.filter fun e => e.2.tier == 3 && peerOfPa e.2.pa == j && e.2.phase == .queued).foldl
    (fun s e => afterReq (failReq s e.1) e.2.core) s

/-- Every open step whose members include a peer ends (R154, R274). -/
def endStepsOf (s : State) (p : Nat → Bool) : State :=
  (openSteps s false fun _ mask => p mask).foldl (fun s e => endStep s e.1 e.2.1 e.2.2) s

/-- Whether flits of other modules for a destination are left here: waiting, or not acknowledged (R271). -/
def relaysFor (s : State) (k : Nat) : Bool :=
  s.ports.any fun e => (e.2.txWait ++ e.2.txBuf).any fun q => q.foreign && q.dst == k

/-- RELAYDRAIN for each destination that the partner reaches again, once nothing relayed for it remains here (R271). -/
def settleDrain (s : State) : State :=
  ((List.range 8).filter fun k => bit s.peers.drainDue.toNat k && !relaysFor s k).foldl (fun s k =>
    sendCtl (modPeers s fun p => { p with relayedFor := setBit p.relayedFor k false, drainDue := setBit p.drainDue k false })
      (partnerOf s) (.relaydrain (partnerOf s) k)) s

/-- Declares a peer absent: its queues close, its requests fail, its steps end, and every present peer is told. -/
def declareAbsent (s : State) (j : Nat) : State :=
  if j = s.peers.self || bit s.peers.absent.toNat j then s
  else
    let (inc, je) := tget (0, 0) s.peers.lives j
    let s := modPeers s fun p => { p with
      absent := setBit p.absent j true, present := setBit p.present j false, absentEvents := p.absentEvents + 1
      awaited := setBit p.awaited j false, writesIn := p.writesIn.filter fun w => w.src != j
      early := p.early.filter fun w => w.1 != j }
    let s := (presentPeers s).foldl (fun s k => sendCtl s k (.absentMsg k j inc je)) s
    let s := closePeerQueues s j
    let s := failPeerReqs s j
    hubSettle (endStepsOf s fun mask => bit mask j)

/-- What VIA_PARTNER and RELAY show now (Tables 10.12, 10.15). -/
def showRelay (s : State) : State :=
  let m := ((List.range 8).filter fun j => viaRelay s j).foldl (fun m j => m + 2 ^ j) 0
  let s := modPeers s fun p => { p with relay := BitVec.ofNat 8 m }
  (List.range 8).foldl (fun s p =>
    let v := viaRelay s (farOf s.peers.self p)
    if (getPort s p).viaPartner = v then s else modPort s p fun x => { x with viaPartner := v }) s

/-- After a change of routes: peers that no route reaches are declared absent at once (R270, R273). -/
def relink (s : State) : State :=
  let d := ((List.range 8).filter fun j => bit s.peers.draining.toNat j && relayReach s j).foldl (fun m j => m + 2 ^ j) 0
  let s := modPeers s fun p => { p with draining := BitVec.ofNat 8 d }
  let s := showRelay s
  let lost := (presentPeers s).filter fun j => !reaches s j
  showRelay (lost.foldl declareAbsent s)

/-- ROUTES to the partner, when it is present (Table 10.8). -/
def sendRoutes (s : State) : State :=
  if peerPresent s (partnerOf s) then sendCtl s (partnerOf s) (.routes (partnerOf s) (routesMask s)) else s

/-! ### Port states (R261) -/

/-- Unit number of a port in the log (Table 16.8). -/
def portUnit (p : Nat) : LogUnit := { cls := 1, kind := 5, unit := 32 * p + 31 }

/-- Whether a flit goes over its own port only: a HELLO (Table 10.8). -/
def boundToPort (q : Sent) : Bool := match q.msg with | .hello _ => true | _ => false

/-- What waits at a port, or is not acknowledged, is sent again on the routes that are left, in its original order (R270). Flits of
other modules have no other route, and a HELLO has none. -/
def rerouteAll (s : State) (k : Nat) : State :=
  let p := getPort s k
  let items := ((p.txBuf ++ p.txWait).filter fun q => !q.foreign && !boundToPort q).map fun q => { q with lseq := 0 }
  let s := setPort s k { p with txBuf := [], txWait := [], credits := [], round := [], nakTries := 0, rxTries := 0, fecTries := 0 }
  items.foldl linkPut s

/-- A port leaves service for a state: its lanes are idle and its traffic moves. -/
def portOff (s : State) (k st : Nat) : State :=
  let was := isUp s k
  let s := modPort s k fun p => { p with state := st, enteredAt := now s, lanes := 0, active := 0, swapLane := none }
  let s := rerouteAll s k
  if was then relink (sendRoutes s) else sendRoutes s

/-- A port that carries no traffic enters another state that carries none; the partner is told of every change (Table 10.8). -/
def portMoves (s : State) (k st : Nat) : State := sendRoutes (modPort s k fun p => { p with state := st, enteredAt := now s })

/-- A port enters DOWN (R261, R270). -/
def portDown (s : State) (k : Nat) : State :=
  let s := portOff s k ptDown
  logEvent (emit s (.portDown k)) 0x06 (portUnit k) 0 none 0

/-- A port enters RETRAIN from ACTIVE. -/
def portRetrain (s : State) (k : Nat) : State :=
  if isActive s k then
    sendRoutes (modPort s k fun p => { p with
      state := ptRetrain, enteredAt := now s, retrains := p.retrains + 1, swapLane := none, fecTries := 0, nakTries := 0 })
  else s

/-- The lowest set bits of a lane mask, at most `n`. -/
def lowLanes (m : BitVec 18) (n : Nat) : BitVec 18 :=
  BitVec.ofNat 18 ((((List.range 18).filter fun k => bit m.toNat k).take n).foldl (fun a k => a + 2 ^ k) 0)

def laneCount (m : BitVec 18) : Nat := ((List.range 18).filter fun k => bit m.toNat k).length

/-- Lanes of a port that a test passed and the repair map does not name failed. -/
def usableLanes (s : State) (k : Nat) (pass : BitVec 18) : BitVec 18 := pass &&& ~~~(tget 0 (carrier s).peerBad k)

/-- The module records the spares of a link in PEER_SPARE of its repair map (R261, R434). -/
def recordSpares (s : State) (k : Nat) (spare : BitVec 18) : State :=
  if tget 0 (carrier s).peerSpare k = spare then s else saveCarrier s fun c => { c with peerSpare := tput c.peerSpare k spare }

/-- The lanes of a trained port: 16 at full width, 8 at half width, none if fewer than 8 pass (Table 10.2). A lane that passes is
bad no longer. -/
def setLanes (s : State) (k : Nat) (pass best8 : BitVec 18) : State :=
  let u := usableLanes s k pass
  let full := decide (16 ≤ laneCount u)
  let act := if full then lowLanes u 16 else best8
  let spare := if full then u &&& ~~~act else 0
  let s := modPort s k fun p => { p with lanes := if full then 16 else 8, active := act, spare := spare, bad := p.bad &&& ~~~u }
  if full then recordSpares s k spare else logEvent s 0x06 (portUnit k) 0 none 0

/-- Whether the test's result is one: at most 18 lanes, and at half width 8 of those that pass. -/
def laneTestOk (s : State) (k : Nat) (pass best8 : BitVec 18) : Bool :=
  let u := usableLanes s k pass
  decide (laneCount u < 8) || decide (16 ≤ laneCount u) || (best8 &&& ~~~u == 0 && laneCount best8 == 8)

/-- A port enters ACTIVE: a destination relayed until now stays relayed until RELAYDRAIN (R271). -/
def portUp (s : State) (k : Nat) : State :=
  let j := farOf s.peers.self k
  let relayed := viaRelay s j
  let s := modPort s k fun p => { p with state := ptActive, enteredAt := now s }
  let s := if relayed then modPeers s fun p => { p with draining := setBit p.draining j true } else s
  drainPort (showRelay (sendRoutes s)) k

/-! ### Lives (R272, R274) -/

/-- Whether a HELLO brings a new life of its peer, or the first. -/
def newLife (s : State) (j inc je : Nat) : Bool :=
  match tfind s.peers.lives j with
  | none => true
  | some (i, e) => i != inc || decide (e < je)

/-- Whether a HELLO is accepted as an arrival: of a new life, or, after this module's own rejoin, of a peer that it holds absent
(R274, R441). -/
def arrives (s : State) (j inc je : Nat) : Bool := newLife s j inc je || bit s.peers.awaited.toNat j

/-- A peer's HELLO is accepted: the peer is present, its sequences begin again. One declared absent returns only with a new life, or
when this module rejoins (R274). -/
def acceptHello (s : State) (j inc je : Nat) : State :=
  if arrives s j inc je then
    let clear (t : Tbl Nat) : Tbl Nat := t.filter fun e => e.1 / 4 != j
    let s := if peerPresent s j then endStepsOf (failPeerReqs (closePeerQueues s j) j) fun mask => bit mask j else s
    let s := modPeers s fun p => { p with
      lives := tput p.lives j (inc, je), absent := setBit p.absent j false, present := setBit p.present j true
      eseqTx := clear p.eseqTx, eseqRx := clear p.eseqRx, awaited := setBit p.awaited j false,
      early := p.early.filter fun w => w.1 != j, partnerRoutes := if j = partnerOf s then 0 else p.partnerRoutes }
    if j = partnerOf s then sendRoutes s else s
  else s

end Machine
end Sys2Proof
end

