-- ==== Sys2Proof/Machine/Ports.lean ====
section
/-! DEFINITION. Peer ports (R261 to R268): training, lanes and their spares, FEC groups with their flits and link words; and
the messages of membership and routes (R270 to R274, R447). -/

namespace Sys2Proof
namespace Machine

open Host

/-! ### HELLO (R272, R274, R447) -/

/-- What the two ends sign: the digest of the signer's nonce, the other's nonce and the port number, in one byte (log 12). -/
def helloDigest (own far : List Byte) (port : Nat) : List Byte := shake256 (own ++ far ++ [BitVec.ofNat 8 port])

/-- The HELLO that leaves a port: this module's index, port and life, with its identity data; the signature once the far nonce has
come. -/
def helloOf (s : State) (port : Nat) : HelloMsg :=
  let p := getPort s port
  { port := port, peer := s.peers.self, farPort := port, incarnation := s.peers.incarnation, joinEpoch := s.peers.joinEpoch
    ident := {
      key := publicKey s.sec.puf ctxId, cert := Config.deviceCert, nonce := p.nonce
      sig := if p.farNonce.isEmpty then [] else signAs s.sec.puf ctxId s.fresh (helloDigest p.nonce p.farNonce port) } }

/-- A HELLO leaves a port as a control flit for the peer at its far end. It begins its receiver's sequences, and so its ESEQ is 0; in
EXCHANGE it takes no LSEQ that the traffic of ACTIVE goes on from (DESIGN CHOICE, log 154). -/
def sendHello (s : State) (port : Nat) : State :=
  let q : Sent := {
    lseq := 0, cls := 0, dst := farOf s.peers.self port, foreign := false, relay := false, eseq := some 0, msg := .hello (helloOf s port) }
  let s := { s with fresh := s.fresh + 1 }
  if isActive s port then drainPort (modPort s port fun p => { p with txWait := p.txWait ++ [q] }) port
  else
    let h := headerWords s.peers.self (Config.bodyCheck port (getPort s port).flitsTx) q
    emit (emit s (.flit port h.1 h.2)) q.msg

/-- Four random bytes for each of `n` draws. -/
def drawBytes (n : Nat) (s : State) : List Byte := (List.range n).flatMap fun i => leBytes 4 (Config.drawn (s.fresh + i)).toNat

/-- A HELLO with a fresh nonce. -/
def greet (s : State) (port : Nat) : State :=
  let nonce := drawBytes 8 s
  sendHello (modPort { s with fresh := s.fresh + 8 } port fun p => { p with nonce := nonce }) port

/-! ### Training (R261) -/

/-- PORT_ENABLE (R261): until full service a port stays DISABLED (R437); in recovery the block does not respond (R435). -/
def execPortEnable (port : Nat) (on : Bool) (s : State) : Outcome State Fault Refusal :=
  if s.pwr.service = 3 then .next s else
  let s := modPort s port fun p => { p with enable := on }
  if on then
    if (getPort s port).state = ptDisabled && s.pwr.service == 2 then
      .next (portMoves s port ptDetect)
    else .next s
  else if (getPort s port).state = ptDisabled then .next s
  else .next (portOff s port ptDisabled)

/-- PORT_RETRAIN (R261). -/
def execPortRetrain (port : Nat) (s : State) : Outcome State Fault Refusal :=
  if (getPort s port).state = ptDown then .next (portMoves s port ptDetect)
  else .next (portRetrain s port)

/-- SIGNAL_DETECT (R261). -/
def execSignalDetect (port : Nat) (lanes : BitVec 18) (s : State) : Outcome State Fault Refusal :=
  if (getPort s port).state = ptDetect && decide (8 ≤ laneCount lanes) then
    .next (portMoves s port ptTrain)
  else .next s

/-- TRAIN_COMPLETE (R261): in EXCHANGE the module sends its HELLO. -/
def execTrainComplete (port : Nat) (pass best8 : BitVec 18) (s : State) : Outcome State Fault Refusal :=
  if (getPort s port).state != ptTrain || !laneTestOk s port pass best8 then .next s
  else if laneCount (usableLanes s port pass) < 8 then .next (portDown s port)
  else
    let s := setLanes s port pass best8
    let s := modPort s port fun p => { p with
      txNext := 0, rxNext := 0, rxTries := 0, fecTries := 0, nakTries := 0, farNonce := [] }
    .next (greet (portMoves s port ptExchange) port)

/-- A replay starts: the flits not acknowledged are sent again, in LSEQ order and in groups (R264, R268). -/
def replayOf (s : State) (port : Nat) : State :=
  let l := (getPort s port).txBuf.map fun q => q.lseq
  if l.isEmpty then s
  else sendGroups (emit (modPort s port fun p => { p with replays := p.replays + 1 }) (.replay port l)) port l

/-- Replay resumes from the last acknowledged flit. -/
def resume (s : State) (port : Nat) : State := drainPort (replayOf s port) port

/-- The lanes that a retrained port may use: those that pass and are not bad, so that a port without a spare comes back at half
width (R262). -/
def retrainLanes (s : State) (port : Nat) (pass : BitVec 18) : BitVec 18 := pass &&& ~~~(getPort s port).bad

/-- RETRAIN_COMPLETE (R261, R262). -/
def execRetrainComplete (port : Nat) (ok : Bool) (pass best8 : BitVec 18) (s : State) : Outcome State Fault Refusal :=
  let u := retrainLanes s port pass
  if (getPort s port).state != ptRetrain || !laneTestOk s port u best8 then .next s
  else if !ok || decide (laneCount (usableLanes s port u) < 8) then .next (portDown s port)
  else .next (resume (portUp (setLanes s port u best8) port) port)

/-- PORT_DOWN_TIMEOUT (R261): 100 ms after entry. -/
def execPortDownTimeout (port : Nat) (s : State) : Outcome State Fault Refusal :=
  let p := getPort s port
  if p.state = ptDown && decide (p.enteredAt + 4800000 ≤ now s) then
    .next (portMoves s port ptDetect)
  else .next s

/-! ### Lanes (R262) -/

/-- The link word that a receiver sends in a group of IDLE flits: the last flit accepted in order, and what it asks for. -/
def sendLinkWord (s : State) (port : Nat) (nak : Bool) (swap : Nat) (cr : List Nat) : State :=
  emit s (.fecGroup port [none, none, none, none]
    { ack := ((getPort s port).rxNext + 4095) % 4096, nak := nak, swapLane := swap, cr := cr })

/-- The exchange for the next bad lane that still carries a stripe begins; with no spare left, the port retrains. -/
def nextSwap (s : State) (port : Nat) : State :=
  let p := getPort s port
  if p.swapLane.isSome || p.state != ptActive then s
  else match (List.range 18).find? fun k => bit p.active.toNat k && bit p.bad.toNat k with
    | none => s
    | some k =>
      if p.spare = 0 then portRetrain s port
      else sendLinkWord (modPort s port fun p => { p with swapLane := some k }) port false k [0, 0, 0, 0]

/-- A bit of lane `k`. -/
def laneBit (k : Nat) : BitVec 18 := BitVec.ofNat 18 (2 ^ k)

/-- A lane is bad: counted as a fault of a lane, no longer a spare. -/
def laneBad (s : State) (port k : Nat) : State :=
  if bit (getPort s port).bad.toNat k then s
  else
    let s := modPort s port fun p => { p with bad := p.bad ||| laneBit k, spare := p.spare &&& ~~~(laneBit k) }
    countFault s 0

/-- LANE_ERROR_INTERVAL (R262). -/
def execLaneErrorInterval (port : Nat) (counts : List Nat) (s : State) : Outcome State Fault Refusal :=
  let p := getPort s port
  if p.state != ptActive then .next s
  else
    let bads := (List.range 18).filter fun k => bit p.active.toNat k && decide (p.laneLimit < counts.getD k 0)
    .next (nextSwap (bads.foldl (fun s k => laneBad s port k) s) port)

/-- LANE_SIGNAL_LOSS (R262). -/
def execLaneSignalLoss (port lane : Nat) (s : State) : Outcome State Fault Refusal :=
  let p := getPort s port
  if p.state != ptActive || !(bit p.active.toNat lane || bit p.spare.toNat lane) then .next s
  else .next (nextSwap (laneBad s port lane) port)

/-- LANE_SWAP (R262): both ends move the stripe to the lowest spare. -/
def execLaneSwap (port lane : Nat) (s : State) : Outcome State Fault Refusal :=
  let p := getPort s port
  if p.swapLane != some lane || p.state != ptActive then .next s
  else
    let sp := lowLanes p.spare 1
    if sp = 0 then .next (portRetrain s port)
    else
      let s := setPort s port { p with
        active := (p.active &&& ~~~(laneBit lane)) ||| sp, spare := p.spare &&& ~~~sp, bad := p.bad ||| laneBit lane
        laneSwaps := p.laneSwaps + 1, swapLane := none }
      let s := logEvent s 0x05 { cls := 1, kind := 5, unit := 32 * port + lane } 0 none lane
      .next (nextSwap (resume s port) port)

/-! ### Link words (R268, Table 10.4) -/

/-- Flits after the one that is acknowledged; all of them when it is not in the buffer. -/
def afterAck (ack : Nat) (l : List Sent) : List Sent :=
  match l.findIdx? fun q => q.lseq == ack with
  | some i => l.drop (i + 1)
  | none => l

/-- A NAK: the flits from ACK + 1 are sent again; after REPLAY_MAX replays of one group the port retrains. Where nothing is left to
replay, none is counted. NAKs at one ACK are of the group that comes next after it: a link word names no group (DEDUCED, log 153). -/
def takeNak (s : State) (port ack : Nat) : State :=
  let p := getPort s port
  let tries := if p.nakAt = ack then p.nakTries else 0
  if p.txBuf.isEmpty then s
  else if p.replayMax ≤ tries then portRetrain s port
  else replayOf (setPort s port { p with nakAt := ack, nakTries := tries + 1 }) port

/-- A link word received. -/
def takeLinkWord (s : State) (port : Nat) (w : LinkWord) : State :=
  let s := modPort s port fun p => { p with
    txBuf := afterAck w.ack p.txBuf
    credits := (List.range 4).foldl (fun t c => tput t c (min (classBuffer c) (portCredit p c + w.cr.getD c 0))) p.credits }
  let s := if w.nak then takeNak s port w.ack else s
  let s :=
    if w.swapLane != noLane && (getPort s port).swapLane.isNone && bit (getPort s port).active.toNat w.swapLane then
      modPort (laneBad s port w.swapLane) port fun p => { p with swapLane := some w.swapLane }
    else s
  reshardAcks (settleDrain (drainPort s port))

/-! ### FEC groups and flits (R263, R264, R268, R270) -/

/-- What came of a flit. -/
inductive FlitResult where
  | taken (s : State)
  | nak (s : State)
  deriving DecidableEq, Repr

/-- A flit with RELAY of a module that is present, whose destination is another module goes on over this module's own direct port (R270). -/
def forward (s : State) (f : Flit) : State :=
  if f.relay && f.dst != s.peers.self && peerPresent s f.src && isUp s (portTo s f.dst) then
    let k := portTo s f.dst
    let s := modPeers s fun p => { p with relayedFor := setBit p.relayedFor f.dst true }
    let q : Sent := { lseq := 0, cls := f.cls, dst := f.dst, foreign := true, relay := true, eseq := some f.eseq, msg := .relayFlit k f }
    drainPort (modPort s k fun p => { p with txWait := p.txWait ++ [q] }) k
  else s

/-- Whether a reserved field of a flit is set: W0 [7:0]; in ROUTE by its FTYPE (Table 10.5); FORMAT and PART where the body is no data grain, and
ESEQ of an unordered flit (R263, Table 10.3). Such a flit counts in PROTO_ERR; the spec names no other outcome, and the model takes
it as any other (DESIGN CHOICE, log 121). -/
def reservedFields (f : Flit) : Bool :=
  let grain := f.ftype == 3 || f.ftype == 5
  let route := match f.ftype with
    | 1 => bits f.route 19 0 != 0
    | 2 => f.route != 0
    | 3 => bits f.route 23 0 != 0
    | 4 => bits f.route 15 0 != 0
    | 6 => bits f.route 31 0 != 0
    | _ => false
  f.low != 0 || route || (!grain && (f.format != 0 || f.part != 0)) || (f.ftype != 1 && f.ftype != 6 && f.eseq != 0)

/-- A flit accepted in order. -/
def acceptFlit (s : State) (port : Nat) (f : Flit) : State :=
  let s := modPort s port fun p => { p with
    rxNext := (p.rxNext + 1) % 4096, rxTries := 0, fecTries := 0, flitsRx := p.flitsRx + 1
    protoErr := p.protoErr + b2n (reservedFields f) }
  forward s f

/-- One flit of a group that decodes. -/
def takeFlit (s : State) (port : Nat) (f : Flit) : FlitResult :=
  let p := getPort s port
  if f.ftype = 0 || f.lseq != p.rxNext then .taken s
  else if 7 ≤ f.ftype then
    .nak (portRetrain (setPort s port { p with protoErr := p.protoErr + 1, rxNext := (p.rxNext + 1) % 4096 }) port)
  else if f.check = crc32c f.body then .taken (acceptFlit s port f)
  else
    let s := setPort s port { p with checkFail := p.checkFail + 1 }
    if p.replayMax ≤ p.rxTries then
      let s := modPort s port fun p => { p with poisonDelivered := p.poisonDelivered + 1 }
      let s := logEvent (modRec s fun r => { r with checkFails := r.checkFails + 1 }) 0x01
        { cls := 0, kind := 5, unit := 32 * port + 31 } 0 none 0
      .taken (acceptFlit s port { f with poison := true, check := crc32c f.body })
    else .nak (modPort s port fun p => { p with rxTries := p.rxTries + 1 })

/-- The flits of a group in order; those after one that is asked for again are discarded. -/
def takeFlits (s : State) (port : Nat) : List Flit → State × Bool
  | [] => (s, false)
  | f :: fs =>
    match takeFlit s port f with
    | .taken s => takeFlits s port fs
    | .nak s => (s, true)

/-- Flits accepted per class, whose buffers are free again. -/
def freedOf (before after : Nat) (fs : List Flit) : List Nat :=
  let n := (after + 4096 - before) % 4096
  let took := fs.filter fun f => f.ftype != 0 && decide ((f.lseq + 4096 - before) % 4096 < n)
  [0, 1, 2, 3].map fun c => (took.filter fun f => f.cls == c).length

/-- Whether a group carries the flit that its receiver waits for: when it fails again, it is a replay of that one group that fails. -/
def carriesNext (p : Port) (g : FecGroup) : Bool := g.flits.any fun f => f.ftype != 0 && f.lseq == p.rxNext

/-- FEC_GROUP_RECEIVE (R264, R268): a group that fails is asked for again; when it is the group that the receiver waits for and its
REPLAY_MAX-th replay fails too, the port retrains. -/
def execFecGroupReceive (port : Nat) (g : FecGroup) (s : State) : Outcome State Fault Refusal :=
  let p := getPort s port
  if p.state != ptActive then .next s
  else if !g.decodes then
    let s := setPort s port { p with fecUncorr := p.fecUncorr + 1, fecTries := p.fecTries + b2n (carriesNext p g) }
    if carriesNext p g && decide (p.replayMax ≤ p.fecTries) then .next (portRetrain s port)
    else .next (sendLinkWord s port true noLane [0, 0, 0, 0])
  else
    let s := setPort s port { p with
      fecCorrected := p.fecCorrected + g.corrected, fecTries := if carriesNext p g then 0 else p.fecTries }
    let (s, nak) := takeFlits s port (g.flits.take 4)
    let s := takeLinkWord s port g.link
    .next (sendLinkWord s port nak noLane (freedOf p.rxNext (getPort s port).rxNext g.flits))

/-- RESERVED_FLIT (R263): discarded, counted, and the port retrains. -/
def execReservedFlit (port : Nat) (s : State) : Outcome State Fault Refusal :=
  if !isActive s port then .next s
  else .next (portRetrain (modPort s port fun p => { p with protoErr := p.protoErr + 1 }) port)

/-! ### Membership messages -/

/-- The identity check of R447. -/
def identityOk (s : State) (h : HelloMsg) : Bool :=
  let key := tget [] s.sec.prot.peerKeys h.peer
  (key.all (fun b => b == 0) || key == h.ident.key) && Config.certVerify Config.rootKey h.ident.cert h.ident.key &&
  Config.slhVerify h.ident.key ctxId (helloDigest h.ident.nonce (getPort s h.port).nonce h.port) h.ident.sig

/-- A HELLO in EXCHANGE: the first part of the far identity data brings its nonce, and this module's signature goes out; the rest
brings its signature, and the checks decide (R261, R447). -/
def exchange (h : HelloMsg) (s : State) : State :=
  let first := (getPort s h.port).farNonce.isEmpty
  let s := modPort s h.port fun p => { p with farPeer := h.peer, farPort := h.farPort, farNonce := h.ident.nonce }
  if !(h.peer == farOf s.peers.self h.port && h.farPort == h.port) then
    portDown (modPort s h.port fun p => { p with wiringErr := true }) h.port
  else
    let s := if first then sendHello s h.port else s
    if h.ident.sig.isEmpty then s
    else if identityOk s h then relink (sendRoutes (acceptHello (portUp s h.port) h.peer h.incarnation h.joinEpoch))
    else portDown (modPort s h.port fun p => { p with wiringErr := true }) h.port

/-- HELLO (R261, R272, R274, R447). -/
def execHello (h : HelloMsg) (s : State) : Outcome State Fault Refusal :=
  let p := getPort s h.port
  let fits := h.peer == farOf s.peers.self h.port && h.farPort == h.port
  if p.state = ptExchange then .next (exchange h s)
  else if p.state = ptActive && fits && newLife s h.peer h.incarnation h.joinEpoch then
    .next (relink (greet (acceptHello s h.peer h.incarnation h.joinEpoch) h.port))
  else if p.state = ptActive && fits && bit s.peers.awaited.toNat h.peer then
    .next (relink (acceptHello s h.peer h.incarnation h.joinEpoch))
  else .next s

/-- ABSENT (R273). -/
def takeAbsent (peer incarnation joinEpoch : Nat) (s : State) : State :=
  if peer = s.peers.self then hubSettle (endStepsOf s fun _ => true)
  else
    match tfind s.peers.lives peer with
    | none => s
    | some (inc, je) =>
      if peerPresent s peer && incarnation == inc && decide (je ≤ joinEpoch) then relink (declareAbsent s peer) else s

/-- ROUTES (R270): from the partner. RELAYDRAIN is due for each destination that the partner reaches again, whether anything was
relayed for it or not (R271). -/
def takeRoutes (mask : BitVec 8) (s : State) : State :=
  relink (settleDrain (modPeers s fun p => { p with
    partnerRoutes := mask, drainDue := p.drainDue ||| (setBit mask p.self false &&& (~~~p.partnerRoutes ||| p.relayedFor)) }))

/-- RELAYDRAIN (R271). -/
def takeRelaydrain (dst : Nat) (s : State) : State := relink (modPeers s fun p => { p with draining := setBit p.draining dst false })

/-- The module rejoins: JOIN_EPOCH rises, and the answers of peers that it holds absent are awaited (R274, R441). -/
def rejoin (s : State) : State := modPeers s fun p => { p with joinEpoch := p.joinEpoch + 1, awaited := p.absent }

/-- REJOIN (R274). In recovery the block does not respond (R435). -/
def execRejoin (s : State) : Outcome State Fault Refusal :=
  if s.pwr.service = 3 then .next s else .next ((List.range 8).foldl (fun s p => if isActive s p then greet s p else s) (rejoin s))

end Machine
end Sys2Proof
end

