-- ==== Sys2Proof/Machine/Movement.lean ====
section
/-! DEFINITION. Movement instructions and the streams: LDT, STT, MOVT (R133 to R136, R213, R214), prefetch schedules (R137, R220 to
R224) and stream rings (R138, R139, R215 to R219). -/

namespace Sys2Proof
namespace Machine

open Host

/-- The immediate of an asynchronous instruction with no fields besides CG and CGE (R131). -/
def cgOnly (w : Word) : Bool := bits (iImm w) 26 0 == 0

/-- The PART of grains that an agent's context writes. -/
def partNo (s : State) (n : Nat) : Nat := (getCtx s n).part

/-! ### LDT and STT -/

/-- A run of bytes of a tensor's stored form: its virtual address, its place in scratchpad, and its length. -/
structure TRun where
  va : Nat
  off : Nat
  len : Nat
  deriving DecidableEq, Repr

/-- Row bytes of an engine-ready tile (Table 8.3). -/
def tileRowBytes (f : Nat) : Nat := 16 * elemBits f

/-- The coordinates of s[SRC2]: first row and first element, or a tile's index. -/
def coordRow (v : Word) : Nat := fld v 31 0
def coordCol (v : Word) : Nat := fld v 63 32

/-- The checks of R133, R134 and R214. A check on a size is dropped when that size is zero, of the tile or of the tensor (R97). -/
def partFits (t : Tile) (n : Tensor) (v : Word) (store : Bool) : Bool :=
  let b := elemBits t.fmt
  t.fmt == n.fmt &&
  (if n.layout = 1 then
     coordCol v == 0 && (t.rows == 0 || t.rows == 128) && (t.cols == 0 || t.cols == 128) && (n.tiles == 0 || decide (coordRow v < n.tiles))
   else (coordCol v * b) % 2048 == 0 && (t.rows == 0 || n.rows == 0 || decide (coordRow v + t.rows ≤ n.rows)) &&
     (t.cols == 0 || n.d0 == 0 || decide (coordCol v + t.cols ≤ n.d0)) &&
     (!store || (t.cols * b) % 2048 == 0 || coordCol v + t.cols == n.d0))

/-- The element runs of a tile in a tensor, in ascending address order. -/
def dataRuns (t : Tile) (n : Tensor) (v : Word) : List TRun :=
  if n.layout = 1 then
    let rb := tileRowBytes t.fmt
    let base := n.base + coordRow v * (256 * tileGrains t.fmt)
    (List.range 128).map fun r => { va := base + r * rb, off := t.base + r * t.pitch, len := rb }
  else (List.range t.rows).map fun i =>
    { va := n.base + (coordRow v + i) * (256 * n.rowGrains) + coordCol v * elemBits t.fmt / 8, off := t.base + i * t.pitch,
      len := t.rowBytes }

/-- The scale runs of a tile in a tensor (R84, R213). -/
def scaleRuns (t : Tile) (n : Tensor) (v : Word) : List TRun :=
  if !isBlockF t.fmt then []
  else if n.layout = 1 then
    let base := n.base + coordRow v * (256 * tileGrains t.fmt) + 128 * tileRowBytes t.fmt
    (List.range 128).map fun r => { va := base + 4 * r, off := t.scale + r * t.scalePitch, len := 4 }
  else (List.range t.rows).map fun i =>
    { va := n.scale + (coordRow v + i) * (256 * n.scaleRowGrains) + coordCol v / 32, off := t.scale + i * t.scalePitch,
      len := t.scaleBytes }

/-- Grains that a run touches. -/
def TRun.grains (r : TRun) : List Nat := (unitsOf r.va r.len).map fun g => 256 * g

/-- Grains of runs, each once, in their order. -/
def grainsOf (rs : List TRun) : List Nat :=
  rs.foldl (fun l r => l ++ (r.grains.filter fun g => !(l.getLast? == some g))) []

/-- The pieces of a grain that runs give: offset in the grain, scratchpad offset, length. -/
def piecesOf (rs : List TRun) (g : Nat) : List (Nat × Nat × Nat) :=
  rs.filterMap fun r =>
    if overlap r.va r.len g 256 then
      let lo := max r.va g
      let hi := min (r.va + r.len) (g + 256)
      some (lo - g, r.off + (lo - r.va), hi - lo)
    else none

/-- The grains of an access with their pieces, in ascending tensor address order (R135); whether each is a scale grain of a
linear tensor. -/
def accessGrains (t : Tile) (n : Tensor) (v : Word) : List (Nat × List (Nat × Nat × Nat) × Bool) :=
  let d := dataRuns t n v
  let c := scaleRuns t n v
  let of (rs : List TRun) (scale : Bool) := (grainsOf rs).map fun g => (g, piecesOf rs g, scale)
  if n.layout = 1 then of (d ++ c) false
  else if n.scale < n.base then of c true ++ of d false else of d false ++ of c true

/-- The first grain of a list that does not translate, with its code. -/
def firstFault (s : State) (n : Nat) (write : Bool) (vas : List Nat) : Option (Nat × Nat) :=
  vas.findSome? fun va => match translate s n va write with | .ok _ => none | .error c => some (c, va)

/-- The physical address of a translated grain. -/
def paOf (s : State) (n va : Nat) (write : Bool) : Nat := match translate s n va write with | .ok pa => pa | .error _ => 0

/-- Whether a thread has requests that wait for a slot. -/
def slotWait (s : State) (a : Agent) : Bool :=
  s.mem.reqs.any fun e => e.2.agent == some a && e.2.phase == .waitSlot && e.2.sched.isNone

/-- Counts requests for a group and issues them; the thread parks while some have no slot (R49). -/
def issueReqs (s : State) (a : Agent) (c : Nat) (g : Option Nat) (reqs : List MReq) : IRes :=
  let s := match g with | none => s | some g => issueCg s a g reqs.length
  let s := pumpSlots (reqs.foldl addReq s) c
  if slotWait s a then .park s 3 .slot else .done s

/-- The tag of a request before its data is known. -/
def noTag : GrainTag := { check := 0, poison := false, format := 0, part := 0 }

/-- An instruction that has issued its requests completes once they have their slots. -/
def afterSlot (a : Agent) (f : State → IRes) (s : State) : IRes :=
  if (threadOf s a).woken.isSome then .done s else f s

def rowLdt : Row :=
  { cls := 2, maj := 0, sub := always, regs := regs4 .d .d .s .none, cores := true, ctl := false, ext := false, legal := cgOnly }

/-- The requests of an LDT. -/
def ldtReqs (s : State) (a : Agent) (n c : Nat) (w : Word) (t : Tile) (m : Tensor) : List MReq :=
  (accessGrains t m (sOf s a (iSrc2 w))).map fun e =>
    let r := mkReq a (some c) n false e.1 (paOf s n e.1 false) [] noTag (.tile c e.2.1) (cgField w) (c % 1024)
    if (windowGrain s n e.1).isSome then { r with tier := 0 } else r

/-- The first grain of an LDT that neither translates nor lies in the context's commit window (R305). -/
def ldtFault (s : State) (n : Nat) (vas : List Nat) : Option (Nat × Nat) :=
  firstFault s n false (vas.filter fun va => (windowGrain s n va).isNone)

/-- The first grain of an STT that may not be written: cores write no word of the commit window (R305). -/
def sttFault (s : State) (n : Nat) (vas : List Nat) : Option (Nat × Nat) :=
  match vas.find? inWindow with
  | some va => some (fcProtection, va)
  | none => firstFault s n true vas

def execLdt (a : Agent) (w : Word) (s : State) : Outcome State Fault Refusal :=
  runInstr rowLdt a w (fun n => afterSlot a fun s => onCore a fun c thr =>
    match tileOf (getCore s c) (dOf s a (iDst w)), tensorOf (dOf s a (iSrc1 w)) with
    | some t, some m =>
      if !partFits t m (sOf s a (iSrc2 w)) false then descFault
      else if t.rows = 0 || t.cols = 0 || m.grains = 0 then .done (emptyCg s a (cgField w))
      else match ldtFault s n ((accessGrains t m (sOf s a (iSrc2 w))).map fun e => e.1) with
        | some (code, va) => .fault code va false
        | none => guarded s (guardSp s c thr [] t.runs) fun s => issueReqs s a c (cgField w) (ldtReqs s a n c w t m)
    | _, _ => descFault) s

def rowStt : Row :=
  { cls := 2, maj := 1, sub := always, regs := regs4 .d .d .s .none, cores := true, ctl := false, ext := false, legal := cgOnly }

/-- Valid rows and elements of an engine-ready tile at the tensor's edge (R213). -/
def tileValid (m : Tensor) (ix : Nat) : Nat × Nat :=
  (min 128 (m.rows - 128 * (ix / m.tileCols)), min 128 (m.d0 - 128 * (ix % m.tileCols)))

/-- The bytes of row `r` of a tile as it is stored: beyond `valid` elements they are zero. -/
def storedRow (x : Core) (t : Tile) (r valid : Nat) : List Byte :=
  leBytes t.rowBytes (leNat (spRead x (t.base + r * t.pitch) t.rowBytes) % 2 ^ (elemBits t.fmt * valid))

/-- The scales of row `r` of a tile as they are stored. -/
def storedScales (x : Core) (t : Tile) (r valid : Nat) : List Byte :=
  fit t.scaleBytes ((spRead x (t.scale + r * t.scalePitch) t.scaleBytes).take (valid / 32))

/-- The bytes of an engine-ready tile as it is stored. -/
def storedTile (x : Core) (t : Tile) (m : Tensor) (ix : Nat) : List Byte :=
  let v := tileValid m ix
  let rows := (List.range 128).flatMap fun r => storedRow x t r (if r < v.1 then v.2 else 0)
  if isBlockF t.fmt then rows ++ (List.range 128).flatMap fun r => storedScales x t r (if r < v.1 then v.2 else 0) else rows

/-- The data of a grain from its pieces in scratchpad; other bytes are zero. -/
def grainOf (x : Core) (ps : List (Nat × Nat × Nat)) : List Byte :=
  fit 256 (ps.foldl (fun bs p => patch bs p.1 (spRead x p.2.1 p.2.2)) (zeros 256))

/-- Whether a unit that a grain is taken from is poisoned. -/
def piecesPoison (x : Core) (ps : List (Nat × Nat × Nat)) : Bool := ps.any fun p => spPoisoned x p.2.1 p.2.2

/-- One request of an STT: a scale grain that the tile covers in part is merged at its home (R134). -/
def sttReq (s : State) (a : Agent) (n c : Nat) (w : Word) (t : Tile) (m : Tensor) (e : Nat × List (Nat × Nat × Nat) × Bool) : MReq :=
  let x := getCore s c
  let v := sOf s a (iSrc2 w)
  let bad := piecesPoison x e.2.1
  let pa := paOf s n e.1 true
  if m.layout = 1 then
    let base := m.base + coordRow v * (256 * tileGrains t.fmt)
    let data := slice (storedTile x t m (coordRow v)) (e.1 - base) 256
    mkReq a (some c) n true e.1 pa data (mkTag data m.fmt (partNo s n) bad) .store (cgField w) (c % 1024)
  else match e.2.2, e.2.1 with
    | true, [(off, sp, len)] =>
      if len = 256 then
        let data := spRead x sp 256
        mkReq a (some c) n true e.1 pa data (mkTag data m.fmt (partNo s n) bad) .store (cgField w) (c % 1024)
      else
        mkReq a (some c) n true e.1 pa (spRead x sp len) (mkTag [] m.fmt (partNo s n) bad) (.merge off len) (cgField w) (c % 1024)
    | _, ps =>
      let data := grainOf x ps
      mkReq a (some c) n true e.1 pa data (mkTag data m.fmt (partNo s n) bad) .store (cgField w) (c % 1024)

def execStt (a : Agent) (w : Word) (s : State) : Outcome State Fault Refusal :=
  runInstr rowStt a w (fun n => afterSlot a fun s => onCore a fun c thr =>
    match tileOf (getCore s c) (dOf s a (iSrc1 w)), tensorOf (dOf s a (iDst w)) with
    | some t, some m =>
      if !partFits t m (sOf s a (iSrc2 w)) true then descFault
      else if t.rows = 0 || t.cols = 0 || m.grains = 0 then .done (emptyCg s a (cgField w))
      else match sttFault s n ((accessGrains t m (sOf s a (iSrc2 w))).map fun e => e.1) with
        | some (code, va) => .fault code va false
        | none => guarded s (guardSp s c thr t.runs []) fun s =>
          issueReqs s a c (cgField w) ((accessGrains t m (sOf s a (iSrc2 w))).map (sttReq s a n c w t m))
    | _, _ => descFault) s

/-! ### MOVT (R136) -/

def rowMovt : Row :=
  { cls := 2, maj := 2, sub := always, regs := regs4 .d .d .none .none, cores := true, ctl := true, ext := false, legal := cgOnly }

/-- The requests of a MOVT: the hub's movement engines read each grain, and write it where it goes. -/
def movtReqs (s : State) (a : Agent) (n : Nat) (g : Option Nat) (src dst : Tensor) : List MReq :=
  (List.range src.grains).map fun i =>
    let va := src.grainVa i
    mkReq a none n false va (paOf s n va false) [] noTag (.move (dst.grainVa i)) g (hubSource n)

def execMovt (a : Agent) (w : Word) (s : State) : Outcome State Fault Refusal :=
  runInstr rowMovt a w (fun n s =>
    match tensorOf (dOf s a (iSrc1 w)), tensorOf (dOf s a (iDst w)) with
    | some src, some dst =>
      if src.fmt != dst.fmt || src.layout != dst.layout || src.grains != dst.grains then descFault
      else if src.grains = 0 then .done (emptyCg s a (cgField w))
      else match tensorBad s n src false, tensorBad s n dst true with
        | some (code, va), _ => .fault code va false
        | none, some (code, va) => .fault code va false
        | none, none =>
          let s := match cgField w with | none => s | some g => issueCg s a g src.grains
          .done ((movtReqs s a n (cgField w) src dst).foldl addReq s)
    | _, _ => descFault) s

/-! ### Prefetch schedules (R137, R220 to R224) -/

/-- Whether two agents are threads of one core, or one control thread. -/
def sameSide (a b : Agent) : Bool :=
  match a, b with
  | .thread c _, .thread d _ => c == d
  | .ctl m, .ctl n => m == n
  | _, _ => false

/-- The schedule that a descriptor names, as it is armed. -/
def schedOf (a : Agent) (n : Nat) (w : Word) (ip block : Nat) (d : BitVec 256) : Sched :=
  let w0 := dw d 0
  { owner := a, ctx := n, target := fld w0 59 59, ring := fld w0 58 53, lead := fld w0 52 49, list := fld w0 47 0,
    length := fld (dw d 1) 31 0, gateVa := fld (dw d 2) 47 0, gateSeen := 0, started := 0, inFlight := [], cg := cgField w,
    stopCgs := [], stopped := false, insn := w, ip := ip, block := block }

/-- Whether an armed schedule is the one of a descriptor. -/
def schedIs (d e : Sched) : Bool :=
  sameSide d.owner e.owner && d.target == e.target && d.ring == e.ring && d.lead == e.lead && d.list == e.list &&
  d.length == e.length && d.gateVa == e.gateVa

/-- Armed schedules of a core or a control thread, and how many there may be (R220). -/
def schedsOf (s : State) (a : Agent) : Nat := (s.scheds.filter fun e => sameSide e.2.owner a).length
def schedLimit (a : Agent) : Nat := match a with | .thread _ _ => 4 | .ctl _ => 8

/-- The legal forms of PFS: OPN in [26:25]. -/
def rowPfs (opn : Nat) : Row :=
  { cls := 2, maj := 3, sub := fun w => bits (iImm w) 26 25 == opn, regs := regs4 .none .d .none .none, cores := true, ctl := true,
    ext := false, legal := fun w => bits (iImm w) 24 0 == 0 }

/-- Whether a descriptor may be used by PFS on an agent (R220). -/
def pfsDescOk (a : Agent) (d : BitVec 256) : Bool :=
  schedDescOk d && (fld (dw d 0) 59 59 == 1 || match a with | .thread _ _ => true | .ctl _ => false)

def execPfsArm (a : Agent) (w : Word) (s : State) : Outcome State Fault Refusal :=
  runInstr (rowPfs 0) a w (fun n s =>
    let d := dOf s a (iSrc1 w)
    let t := threadOf s a
    let k := schedOf a n w t.ip t.block d
    if !pfsDescOk a d || schedLimit a ≤ schedsOf s a then descFault
    else if k.length = 0 then .done (emptyCg s a (cgField w))
    else
      let s := match cgField w with | none => s | some g => issueCg s a g 1
      .done { s with scheds := tput s.scheds s.nextSched k, nextSched := s.nextSched + 1 }) s

def execPfsStop (a : Agent) (w : Word) (s : State) : Outcome State Fault Refusal :=
  runInstr (rowPfs 1) a w (fun n s =>
    let d := dOf s a (iSrc1 w)
    if !pfsDescOk a d then descFault
    else match s.scheds.find? fun e => schedIs e.2 (schedOf a n w 0 0 d) with
      | none => .done (emptyCg s a (cgField w))
      | some (id, k) =>
        let s := match cgField w with | none => s | some g => issueCg s a g 1
        let k := { k with stopped := true, stopCgs := match cgField w with | none => k.stopCgs | some g => k.stopCgs ++ [g] }
        .done (schedCheck { s with scheds := tput s.scheds id k } id)) s

/-- A context fault that a schedule raises, which names its PFS (R221). -/
def schedFault (s : State) (d : Sched) (code addr : Nat) : State := ctxFault s d.ctx (faultOf s d.owner code addr d.insn d.ip d.block)

/-- Whether a schedule may act: its context is LIVE, or HELD for tier to tier (R223). -/
def schedRuns (s : State) (d : Sched) : Bool :=
  let st := (getCtx s d.ctx).state
  match d.target, d.owner with
  | 0, .thread c _ => coreRuns s c
  | 0, .ctl _ => false
  | _, _ => st == ctxLive || st == ctxHeld

/-- GATE_POLL (R221): the gate word is read; a poisoned one is read again. -/
def execGatePoll (sched : Nat) (s : State) : Outcome State Fault Refusal :=
  match tfind s.scheds sched with
  | none => .next s
  | some d =>
    if d.gateVa = 0 || d.stopped || d.length ≤ d.started || !schedRuns s d || reshardHolds s d.ctx d.gateVa then .next s
    else match windowGrain s d.ctx (d.gateVa / 256 * 256), translate s d.ctx d.gateVa false with
      | some bs, _ =>
        .next { s with scheds := tput s.scheds sched { d with gateSeen := leNat (slice bs (d.gateVa % 256) 8) } }
      | none, .error c => .next (schedFault s d c d.gateVa)
      | none, .ok _ =>
        let (bs, t, s) := engineRead s d.ctx (d.gateVa / 256 * 256)
        if t.poison then .next s
        else .next { s with scheds := tput s.scheds sched { d with gateSeen := leNat (slice bs (d.gateVa % 256) 8) } }

/-- The slot that the next entry of a core's schedule loads: its key and its scratchpad offset, if it may start (R221). A ring that is
not configured lets the entry wait; a thread-fed one is loaded as any (DESIGN CHOICE, log 169). -/
def entrySlot (s : State) (d : Sched) : Option (Nat × Nat × Nat) :=
  match d.owner with
  | .ctl _ => none
  | .thread c _ =>
    match tfind (getCore s c).rings d.ring with
    | none => none
    | some r =>
      if r.mode = 1 then (if r.swapped then some (d.started, (slotRun r (1 - r.front)).1, r.size / r.slots) else none)
      else match slotSt r r.tail with
        | .empty => if r.draining || r.head + r.slots ≤ r.tail then none
          else some (r.tail, (slotRun r (slotIx r r.tail)).1, r.size / r.slots)
        | _ => none

/-- The ring of a schedule as an entry starts on it. -/
def ringStart (r : Ring) : Ring :=
  if r.mode = 1 then { r with swapped := false } else { setSlot r r.tail (.loading none) with tail := r.tail + 1 }

/-- Starts an entry of a core's schedule: its grains are requested in order through the core's slots, in turn with those of
the core's other schedules (R221, R224). -/
def startCoreEntry (s : State) (id c : Nat) (d : Sched) (key off src grains : Nat) : State :=
  let s := modCore s c fun x => match tfind x.rings d.ring with
    | none => x
    | some r => { x with rings := tput x.rings d.ring (ringStart r) }
  let d := { d with started := d.started + 1, inFlight := if grains = 0 then d.inFlight else tput d.inFlight key grains }
  let s := { s with scheds := tput s.scheds id d }
  if grains = 0 then schedCheck (fillSlot s c d.ring key) id
  else
    let reqs := (List.range grains).map fun i =>
      { mkReq d.owner (some c) d.ctx false (src + 256 * i) (paOf s d.ctx (src + 256 * i) false) [] noTag
          (.tile c [(0, off + 256 * i, 256)]) none (c % 1024) with sched := some id, entry := key }
    let s := if (streamWaits s c).isEmpty then (let s := bump s; modCore s c fun x => { x with streamAt := s.serial }) else s
    pumpSlots (reqs.foldl addReq s) c

/-- Starts an entry of a tier-to-tier schedule. -/
def startHubEntry (s : State) (id : Nat) (d : Sched) (src dst grains : Nat) : State :=
  let key := d.started
  let d := { d with started := key + 1, inFlight := if grains = 0 then d.inFlight else tput d.inFlight key grains }
  let s := { s with scheds := tput s.scheds id d }
  if grains = 0 then schedCheck s id
  else ((List.range grains).map fun i =>
    { mkReq d.owner none d.ctx false (src + 256 * i) (paOf s d.ctx (src + 256 * i) false) [] noTag (.move (dst + 256 * i)) none
        (hubSource d.ctx) with sched := some id, entry := key }).foldl addReq s

/-- Slot grains of a schedule's ring; a tier-to-tier one has no such limit. -/
def entryLimit (s : State) (d : Sched) : Nat := match entrySlot s d with | some (_, _, n) => n | none => 0

/-- An entry as it is read from the list: the fault code and address of a bad one. -/
def readEntry (s : State) (d : Sched) : Except (Nat × Nat) (Nat × Nat × Nat × Nat) × State :=
  let va := d.list + 32 * d.started
  match translate s d.ctx va false with
  | .error c => (.error (c, va), s)
  | .ok _ =>
    let (bs, t, s) := engineRead s d.ctx (va / 256 * 256)
    if t.poison then (.error (fcPoison, 0), s)
    else match schedEntryOf d.target (entryLimit s d) (slice bs (va % 256) 32) with
      | none => (.error (fcDescriptor, 0), s)
      | some e => (.ok e, s)

/-- PREFETCH_ENTRY_START (R221, R222, R224). -/
def execPrefetchEntryStart (sched : Nat) (s : State) : Outcome State Fault Refusal :=
  match tfind s.scheds sched with
  | none => .next s
  | some d =>
    if d.stopped || d.length ≤ d.started || d.lead + 1 ≤ d.inFlight.length || !schedRuns s d ||
        reshardHolds s d.ctx (d.list + 32 * d.started) || (d.target == 0 && (entrySlot s d).isNone) then .next s
    else match readEntry s d with
      | (.error (c, va), s) => .next (schedFault s d c va)
      | (.ok (src, dst, n, gate), s') =>
        if d.gateVa != 0 && decide (d.gateSeen < gate) then .next s
        else match firstBad s' d.ctx src false n, (if d.target = 0 then none else firstBad s' d.ctx dst true n) with
          | some (c, va), _ => .next (schedFault s' d c va)
          | none, some (c, va) => .next (schedFault s' d c va)
          | none, none =>
            match d.owner, entrySlot s' d with
            | .thread c _, some (key, off, _) =>
              if d.target = 0 then .next (startCoreEntry s' sched c d key off src n) else .next (startHubEntry s' sched d src dst n)
            | _, _ => .next (startHubEntry s' sched d src dst n)

/-! ### Stream rings (R138, R139, R215, R219) -/

def rowRcfg : Row :=
  { cls := 2, maj := 4, sub := always, regs := regs4 .s .d .none .none, cores := true, ctl := false, ext := false,
    legal := fun w => bits (iImm w) 31 6 == 0 }

/-- Slots that a loaded block declares for a ring. -/
def declaredSlots (x : Core) (k : Nat) : Nat :=
  match x.prog with
  | none => 0
  | some p => (p.blocks.flatMap fun b => b.ops).foldl (fun m o => if o.kind = 1 && o.source = k then max m (o.count + 1) else m) 0

/-- The checks of R138 and R215 on a ring descriptor for ring `k` of a core. -/
def ringOk (s : State) (c k : Nat) (d : BitVec 256) : Bool :=
  let x := getCore s c
  let r := ringOf d
  let bytes := 256 * r.size
  ringDescOk d && !hitsCode x r.base bytes &&
  (x.rings.all fun e => e.1 == k || !overlap r.base bytes e.2.base (256 * e.2.size)) &&
  (x.eps.all fun e => cfgDir e.2.cfg != 1 || !overlap r.base bytes (cfgBase e.2.cfg) (64 * bufWords e.2.cfg)) &&
  (s.scheds.all fun e => !(sameSide e.2.owner (.thread c 0) && e.2.target == 0 && e.2.ring == k)) &&
  decide (declaredSlots x k ≤ r.slots) && (r.mode == 0 || !declared x 1 k)

/-- Installs a ring configuration: filled, unclaimed slots are discarded. -/
def installRing (s : State) (c k : Nat) (d : BitVec 256) : State :=
  wakeRings (touchCore (modCore s c fun x => { x with rings := tput x.rings k (ringOf d) }) c) c

def execRcfg (a : Agent) (w : Word) (s : State) : Outcome State Fault Refusal :=
  runInstr rowRcfg a w (fun _ s => onCore a fun c _ =>
    let k := bits (iImm w) 5 0
    let d := dOf s a (iSrc1 w)
    if !ringOk s c k d then descFault
    else match tfind (getCore s c).rings k with
      | none => doneRc (installRing s c k d) a w rcOk
      | some r =>
        if anyClaimed r then
          .park (modCore s c fun x => { x with rings := tput x.rings k { r with draining := true } }) 1 (.ringDrain k)
        else doneRc (installRing s c k d) a w rcOk) s

/-- The forms of RING: SUB in [31:30]. -/
def rowRing (sub : Nat) : Row :=
  { cls := 2, maj := 5, sub := fun w => bits (iImm w) 31 30 == sub, regs := regs4 .s .none .none .none, cores := true, ctl := false,
    ext := false, legal := fun w => decide (bits (iImm w) 23 16 ≤ 16) && bits (iImm w) 15 0 == 0 && (sub != 2 || bits (iImm w) 23 16 == 0) }

def ringNo (w : Word) : Nat := bits (iImm w) 29 24
def ringCount (w : Word) : Nat := bits (iImm w) 23 16

/-- Marks as filled the slots from TAIL on that a thread has written, at most `n`. -/
def commitSlots (r : Ring) (thr : Nat) : Nat → Ring
  | 0 => r
  | n + 1 =>
    match slotSt r r.tail with
    | .loading t => if t = some thr then commitSlots { setSlot r r.tail .filled with tail := r.tail + 1 } thr n else r
    | _ => r

def execRingCommit (a : Agent) (w : Word) (s : State) : Outcome State Fault Refusal :=
  runInstr (rowRing 0) a w (fun _ s => onCore a fun c thr =>
    match tfind (getCore s c).rings (ringNo w) with
    | none => doneRc s a w rcOk
    | some r =>
      let s := modCore s c fun x => { x with rings := tput x.rings (ringNo w) (commitSlots r thr (ringCount w)) }
      doneRc (wakeRings (touchCore s c) c) a w rcOk) s

def execRingRelease (a : Agent) (w : Word) (s : State) : Outcome State Fault Refusal :=
  runInstr (rowRing 1) a w (fun _ s => onCore a fun c thr =>
    if ringCount w = 0 then doneRc s a w rcOk
    else match tfind (getCore s c).rings (ringNo w) with
      | none => doneRc s a w rcNoneHeld
      | some r =>
        match (heldSlots r thr).take (ringCount w) with
        | [] => doneRc s a w rcNoneHeld
        | l =>
          let s := modCore s c fun x => { x with rings := tput x.rings (ringNo w) (l.foldl releaseSlot r) }
          doneRc (wakeRings (touchCore s c) c) a w rcOk) s

def execRingSwap (a : Agent) (w : Word) (s : State) : Outcome State Fault Refusal :=
  runInstr (rowRing 2) a w (fun _ s => onCore a fun c _ =>
    match tfind (getCore s c).rings (ringNo w) with
    | none => doneRc s a w rcOk
    | some r =>
      if r.mode = 0 then doneRc s a w rcOk
      else if backOutstanding s c r then .park s 1 (.ringSwap (ringNo w))
      else
        let r := { r with front := 1 - r.front, swapped := true }
        doneRc (modCore s c fun x => { x with rings := tput x.rings (ringNo w) r }) a w rcOk) s

end Machine
end Sys2Proof
end

