-- ==== Sys2Proof/Machine/Collectives.lean ====
section
/-! DEFINITION. The collective instructions COLL (R151), GFLAG (R153) and RESHARD (R152, R292), and what reaches them from the
peers and from time: ARRIVE, COLDATA, ABORT, GFLAG messages, the peer wait limit, the fence and the commit of a re-shard. -/

namespace Sys2Proof
namespace Machine

open Host

/-! ### COLL (R150, R151) -/

/-- Immediate bits of an asynchronous instruction that requires CGE = 1 (R131). -/
def cgRequired (w : Word) : Bool := bit (iImm w) 27 && bits (iImm w) 26 0 == 0

def rowColl : Row :=
  { cls := 5, maj := 0, sub := always, regs := regs4 .d .d .none .d, cores := true, ctl := true, ext := false,
    legal := cgRequired }

/-- Whether RED fits the source's format (R151, R277): MAX and MIN are those of VMAX and VMIN, which untyped bytes and E8M0 do not
have. -/
def redOk (red f : Nat) : Bool :=
  match red with
  | 0 => false
  | 1 => f == 1 || f == 2 || f == 3 || f == 0xB
  | 2 => f != 0 && f != 0xC
  | 3 => f != 0 && f != 0xC
  | _ => f == 0 || isIntF f

/-- Whether the destination has the shape that OP gives it (R151). The rule compares element counts; grain counts that differ are a
descriptor fault in every OP (DESIGN CHOICE, log 164). -/
def collShapeOk (op n : Nat) (a b : Tensor) : Bool :=
  a.fmt == b.fmt && a.layout == b.layout &&
  match op with
  | 1 => b.elems * n == a.elems && a.grains % n == 0 && b.grains * n == a.grains
  | 2 => b.elems == n * a.elems && b.grains == n * a.grains
  | 4 => b.elems == a.elems && b.grains == a.grains && a.grains % n == 0
  | _ => b.elems == a.elems && b.grains == a.grains

/-- The checks of R150, R151 and R85 on a COLL's descriptors. -/
def collOk (d : ColDesc) (a b : Tensor) (group : Nat) : Bool :=
  let reduces := decide (d.op ≤ 1)
  d.op != opReshard && group != 0 && collShapeOk d.op (membersOf d.members).length a b &&
  (!reduces || (redOk d.red a.fmt && a.id != 0 && b.id != 0)) &&
  (d.comp == 0 || (reduces && d.red == 1 && a.fmt == 1))

/-- Whether a COLL of the same STEP and COLSEQ is open in the same ATTEMPT (R151). -/
def collDouble (s : State) (n attempt : Nat) (d : ColDesc) : Bool :=
  s.hub.colls.any fun e => e.2.ctx == n && e.2.attempt == attempt &&
    fld (dw e.2.desc 1) 63 32 == d.step && fld (dw e.2.desc 1) 31 0 == d.colseq

/-- Grains of a Whey area: its header and both copies (R281). -/
def wheyGrains (a : Tensor) : Nat := 1 + 2 * a.dataGrains

/-- The first grain of a Whey area that may not be read and written. -/
def wheyBad (s : State) (n : Nat) (d : ColDesc) (a : Tensor) : Option (Nat × Nat) :=
  firstBad s n d.whey true (wheyGrains a)

/-- What the Whey header stops a compressed collective with: poison (Table 16.2), or PEND for its own step (R281).
The header is read when the instruction issues, also while a RESHARD holds its grain (DESIGN CHOICE, log 171). -/
def wheyStop (s : State) (n : Nat) (d : ColDesc) : Option (Nat × Bool) :=
  let (h, t, _) := engineRead s n d.whey
  if t.poison then some (fcPoison, true)
  else if bit (leNat (h.take 8)) 1 && leNat (slice h 8 4) == d.step then some (fcDescriptor, false) else none

/-- What a COLL does once its descriptors are checked: it is counted, and starts or waits for its turn (R275). -/
def collIssue (s : State) (a : Agent) (n g : Nat) (desc src dst : BitVec 256) (d : ColDesc) (t u : Tensor) : State :=
  let s := peerOutCg (bump (issueCg s a g 1)) a g true
  let s := if d.op ≤ 1 then modReductions (modReductions s n t.id true) n u.id true else s
  let group := (getCtx s n).colgroup
  let c : Coll :=
    { ctx := n, group := group, attempt := attemptOf s group, desc := desc, src := src, dst := dst,
      cg := { agent := a, cg := g }, flow := 0, deadline := now s + d.limit, waiting := true, arrives := [], mine := [],
      fwd := [], sentTo := [], got := [], landed := [], combined := [], poisoned := false, failed := false, order := s.serial,
      read := false, inbox := [] }
  hubSettle (modHub s fun h => { h with colls := tput h.colls (4096 + h.nextColl) c, nextColl := h.nextColl + 1 })

/-- A compressed collective with something to move reads its Whey area. -/
def usesWhey (d : ColDesc) (a : Tensor) : Bool := decide (0 < d.comp) && a.elems != 0 && !(d.comp == 1 && d.k == 0)

def execColl (a : Agent) (w : Word) (s : State) : Outcome State Fault Refusal :=
  runInstr rowColl a w (fun n s =>
    let desc := dOf s a (iSrc3 w)
    let src := dOf s a (iSrc1 w)
    let dst := dOf s a (iDst w)
    match colDescOf s.peers.self desc, tensorOf src, tensorOf dst with
    | some d, some t, some u =>
      let group := (getCtx s n).colgroup
      if !collOk d t u group || collDouble s n (attemptOf s group) d then descFault
      else match tensorBad s n t false, tensorBad s n u true, (if usesWhey d t then wheyBad s n d t else none) with
        | some (code, va), _, _ => .fault code va false
        | _, some (code, va), _ => .fault code va false
        | _, _, some (code, va) => .fault code va false
        | none, none, none =>
          match (if usesWhey d t then wheyStop s n d else none) with
          | some (code, own) => .fault code 0 own
          | none =>
            if d.op ≤ 1 && (reshardOf s n t.id || reshardOf s n u.id) then
              .park s 5 (.layoutFence (if reshardOf s n t.id then t.id else u.id))
            else .done (collIssue s a n (bits (iImm w) 31 28) desc src dst d t u)
    | _, _, _ => descFault) s

/-! ### GFLAG (R153, R282) -/

def rowGflag : Row :=
  { cls := 5, maj := 1, sub := always, regs := regs4 .s .s .none .d, cores := true, ctl := true, ext := false,
    legal := fun w => iImm w == 0 }

/-- A GFLAG of an aborted step, or with an absent member: it sends its message and returns at once (R274, R285). -/
def gflagAtOnce (s : State) (g : GflagWait) : State :=
  gflagReturn (castCtl s g.ctx g.members fun p => .gflagMsg p g.group g.attempt g.step g.flag true) g true rcAborted

/-- What s[DST] receives: the flag and the return code. -/
def gflagResult (v : Nat) : Word := w64 v

def execGflag (a : Agent) (w : Word) (s : State) : Outcome State Fault Refusal :=
  runInstr rowGflag a w (fun n s =>
    match (threadOf s a).woken with
    | some v => .done (putS s a (iDst w) (gflagResult v))
    | none =>
      match colDescOf s.peers.self (dOf s a (iSrc3 w)) with
      | none => descFault
      | some d =>
        let group := (getCtx s n).colgroup
        let attempt := attemptOf s group
        if group = 0 || s.hub.flagged.contains (n, attempt, d.step) then descFault
        else
          let flag := wbit (sOf s a (iSrc1 w)) 0 || latchTaken s n d.step
          let s := clearLatch s n d.step
          let g : GflagWait :=
            { ctx := n, agent := a, dst := iDst w, group := group, attempt := attempt, step := d.step, members := d.members,
              flag := flag, sent := false, deadline := now s + d.limit, order := s.serial + 1 }
          let s := modHub s fun h => { h with flagged := h.flagged ++ [(n, attempt, d.step)] }
          if stepAborted s group attempt d.step || groupBlocked s d.members then
            .done (putS (gflagAtOnce s g) a (iDst w) (gflagResult (1 + rcAborted <<< 8)))
          else
            -- The thread parks; with every message here it is runnable again at once, and its GFLAG then completes.
            .stop (hubSettle (parkAgent (modHub (bump s) fun h => { h with gflags := h.gflags ++ [g] }) a 4 (.gflag d.step)))) s

/-! ### RESHARD (R152, R291, R292) -/

def rowReshard : Row :=
  { cls := 5, maj := 2, sub := always, regs := regs4 .none .d .s .d, cores := true, ctl := true, ext := false,
    legal := cgRequired }

/-- The mapping record of a RESHARD, or what reading and checking it stops with. -/
def readMapRec (s : State) (n va : Nat) (d : ColDesc) (t : Tensor) : Except (Nat × Nat × Bool) (MapRec × Nat) × State :=
  if va % 256 != 0 then (.error (fcDescriptor, 0, false), s)
  else match translate s n va false with
    | .error c => (.error (c, va, false), s)
    | .ok _ =>
      let (bs, tag, s) := engineRead s n va
      if tag.poison then (.error (fcPoison, 0, true), s)
      else match mapRecOf bs with
        | none => (.error (fcDescriptor, 0, false), s)
        | some m =>
          if !(mapRecOk m t (membersOf d.members) && reshardRangesOk s n m t) then (.error (fcDescriptor, 0, false), s)
          else match runsBad s n (reshardRuns s.peers.self m t) with
            | some (code, va) => (.error (code, va, false), s)
            | none => (.ok (m, tag.check.toNat), s)

/-- The checks of R151, R152 and R85 on a RESHARD's descriptors. -/
def reshardOk (d : ColDesc) (t : Tensor) (group : Nat) : Bool := d.op == opReshard && group != 0 && t.id != 0

/-- A RESHARD after the GFLAG of its step, or of an aborted step, completes at once (R293). -/
def reshardTooLate (s : State) (n group attempt step : Nat) : Bool :=
  s.hub.flagged.contains (n, attempt, step) || stepAborted s group attempt step

/-- A RESHARD enters the hub at its fence. -/
def reshardEnter (s : State) (a : Agent) (n g : Nat) (desc tensor : BitVec 256) (m : MapRec) (check : Nat) : Nat × State :=
  let s := bump (issueCg s a g 1)
  let group := (getCtx s n).colgroup
  let id := s.hub.nextReshard
  let r : Reshard :=
    { ctx := n, group := group, attempt := attemptOf s group, desc := desc, tensor := tensor, mapRec := m, check := check,
      cg := { agent := a, cg := g }, flow := 0, phase := .fence, issued := now s, deadline := 0, order := s.serial,
      arrives := [], sentTo := [], filled := [], poisoned := false, code := 0 }
  (id, modHub s fun h => { h with reshards := tput h.reshards id r, nextReshard := id + 1 })

/-- Ends a RESHARD that does nothing: its group receives ABORTED and the tensor is unchanged. -/
def reshardVoid (s : State) (a : Agent) (g : Nat) : State :=
  let s := doneCg (issueCg s a g 1) a g rcAborted
  modHub s fun h => { h with rollbacks := h.rollbacks + 1 }

def execReshard (a : Agent) (w : Word) (s : State) : Outcome State Fault Refusal :=
  runInstr rowReshard a w (fun n s =>
    if (threadOf s a).woken.isSome then .done s
    else
      let desc := dOf s a (iSrc3 w)
      let tensor := dOf s a (iSrc1 w)
      match colDescOf s.peers.self desc, tensorOf tensor with
      | some d, some t =>
        let group := (getCtx s n).colgroup
        let g := bits (iImm w) 31 28
        if (getCtx s n).dst.role = 1 then .fault fcProtection 0 false
        else if !reshardOk d t group then descFault
        else match readMapRec s n (sOf s a (iSrc2 w)).toNat d t with
          | (.error (code, va, own), _) => .fault code va own
          | (.ok (m, check), s) =>
            if reshardTooLate s n group (attemptOf s group) d.step then .done (reshardVoid s a g)
            else
              let (id, s) := reshardEnter s a n g desc tensor m check
              match tfind s.hub.reshards id with
              | none => .done s
              | some r =>
                if fenceOpen s r then .done (hubSettle (reshardPass s id)) else .park s 5 (.reshard id)
      | _, _ => descFault) s

/-- RESHARD_FENCE_PASS (R292): one of an aborted step ends instead. -/
def execReshardFencePass (id : Nat) (s : State) : Outcome State Fault Refusal :=
  match tfind s.hub.reshards id with
  | none => .next s
  | some r =>
    if r.phase != .fence || !fenceOpen s r then .next s
    else if stepAborted s r.group r.attempt (fld (dw r.desc 1) 63 32) then
      let s := modHub s fun h => { h with
        fenceTicks := h.fenceTicks + (now s - r.issued), rollbacks := h.rollbacks + 1 }
      let s := wakeAgent (dropReshard s id) r.cg.agent (some 0)
      .next (hubSettle (groupEnds s r.cg r.ctx rcAborted))
    else .next (hubSettle (reshardPass s id))

/-- COMMIT_COMPLETE (R293). -/
def execCommitComplete (id : Nat) (s : State) : Outcome State Fault Refusal :=
  match tfind s.hub.reshards id with
  | none => .next s
  | some r =>
    match r.phase with
    | .committing =>
      let s := match tensorOf r.tensor with | none => s | some t => commitReshard s r t
      .next (hubSettle (dropReshard s id))
    | .rolledBack => .next (hubSettle (dropReshard (modHub s fun h => { h with rollbacks := h.rollbacks + 1 }) id))
    | _ => .next s

/-! ### Messages of members -/

/-- Whether a message of a group belongs to an attempt that is past (R282). -/
def oldAttempt (s : State) (group attempt : Nat) : Bool := decide (attempt < attemptOf s group)

/-- Whether an open collective or RESHARD matches a message (R275). -/
def matchesWork (m : ArriveMsg) (group attempt : Nat) (desc : BitVec 256) : Bool :=
  m.group == group && m.attempt == attempt && m.step == fld (dw desc 1) 63 32 && m.colseq == fld (dw desc 1) 31 0

/-- ARRIVE (R275, R151, R292). -/
def takeArrive (m : ArriveMsg) (s : State) : State :=
  if oldAttempt s m.group m.attempt then s
  else match s.hub.colls.find? fun e => !e.2.waiting && matchesWork m e.2.group e.2.attempt e.2.desc with
    | some e => hubSettle (collArrived s e.1 m)
    | none =>
      match s.hub.reshards.find? fun e => e.2.phase != .fence && matchesWork m e.2.group e.2.attempt e.2.desc with
      | some e => hubSettle (reshardArrived s e.1 m)
      | none =>
        if stepAborted s m.group m.attempt m.step then s
        else modHub s fun h => { h with earlyArrives := h.earlyArrives ++ [m] }

/-- The tag of a COLDATA grain: one that fails its check is poisoned with the check of what came (R154, R382). -/
def coldataTag (d : ColData) : GrainTag :=
  { check := crc32c d.data, poison := d.poison || d.check != crc32c d.data, format := d.format, part := d.part }

/-- A COLDATA grain of a collective. -/
def collData (s : State) (id : Nat) (c : Coll) (d : ColData) : State :=
  let s := if d.check = crc32c d.data then s else checkFailed s 0
  match collView s c with
  | none => s
  | some v =>
    if !bit v.d.members d.src then s
    else if collHeld s c.ctx v then
      modColl s id fun c => { c with inbox := c.inbox ++ [(d.src, d.grain, d.data, coldataTag d)] }
    else collCheck (collCombine (collGot s id d.src d.grain d.data (coldataTag d)) id) id

/-- A COLDATA grain of a RESHARD: one that failed its check sets the step's latch (Table 11.3). -/
def reshardData (s : State) (id : Nat) (r : Reshard) (d : ColData) : State :=
  match tensorOf r.tensor with
  | none => s
  | some t =>
    let self := s.peers.self
    let src := sourceOf (geoOf r.mapRec t) r.mapRec (membersOf (fld (dw r.desc 0) 39 32)) self d.grain
    let mine := match src with | .peer p _ => p == d.src | _ => false
    if r.phase != .staging || r.filled.contains d.grain || !mine || newGrains (geoOf r.mapRec t) r.mapRec self ≤ d.grain then s
    else
      let s := if d.check = crc32c d.data then s else setLatch (checkFailed s 0) r.ctx (fld (dw r.desc 1) 63 32)
      let s := modHub s fun h => { h with grainsIn := h.grainsIn + 1 }
      reshardCheck (stageGrain s id r d.grain d.data (coldataTag d)) id

/-- COLDATA (R275 to R277, R292): under a FLOW that is not open it is discarded (R271). -/
def execColdata (d : ColData) (s : State) : Outcome State Fault Refusal :=
  if !peerPresent s d.src then .next s
  else
    let d := { d with data := fit 256 d.data }
    match s.hub.colls.find? fun e => !e.2.waiting && e.2.flow == d.flow with
    | some e => .next (hubSettle (collData s e.1 e.2 d))
    | none =>
      match s.hub.reshards.find? fun e => e.2.phase != .fence && e.2.flow == d.flow with
      | some e => .next (hubSettle (reshardData s e.1 e.2 d))
      | none => .next s

/-- ABORT (R284, R285): counted, and the step's open work ends. Before any of the step is issued here, the step is remembered as
aborted. -/
def takeAbort (group attempt step : Nat) (s : State) : State :=
  let s := modPeers s fun p => { p with aborts := p.aborts + 1 }
  if oldAttempt s group attempt then s
  else match ctxOfGroup s group with
    | some n => hubSettle (endStep s n attempt step)
    | none => modHub s fun h => { h with aborted := (group, attempt, step) :: h.aborted }

/-- GFLAG_MESSAGE (R282): a member's second message, of its abort, is ORed with its first. -/
def takeGflagMessage (src group attempt step : Nat) (flag aborted : Bool) (s : State) : State :=
  if oldAttempt s group attempt then s
  else
    let m : GflagMsg := { src := src, group := group, attempt := attempt, step := step, flag := flag, aborted := aborted }
    let s := if s.hub.gflagMsgs.contains m then s else modHub s fun h => { h with gflagMsgs := h.gflagMsgs ++ [m] }
    hubSettle s

/-! ### The peer wait limit (R284) -/

/-- Whether a collective still needs data from a member (R276): what waits behind a RESHARD has come. -/
def needFrom (v : CollView) (c : Coll) (p : Nat) : Bool :=
  let k := memberIx v.members p
  let here (i : Nat) : Bool := c.inbox.any fun e => e.1 == p && e.2.1 == i
  let lacksGot (l : List Nat) : Bool := l.any fun i => (gotOf c p i).isNone && !here i
  let lacksLand (l : List Nat) : Bool := l.any fun i => !c.landed.contains i && !here i
  let span (lo n : Nat) : List Nat := (List.range n).map fun i => lo + i
  if v.empty then false
  else match v.d.op with
    | 2 => lacksLand ((List.range v.g).map (gathIx v k))
    | 3 => v.d.root == p && lacksLand (List.range v.g)
    | 4 => lacksLand (span (k * (v.g / v.n)) (v.g / v.n))
    | _ =>
      lacksGot (if v.scaled then (scaledNeeds v.src (v.lo v.me) (v.lo (v.me + 1))).map fun i => v.streamBase + i
        else if 0 < v.d.comp then
          span v.streamBase (streamGrains v.d.comp v.d.k (64 * (v.lo (v.me + 1) - v.lo v.me)))
        else span (v.lo v.me) (v.lo (v.me + 1) - v.lo v.me)) ||
        (v.d.op == 0 && lacksLand (span (v.lo k) (v.lo (k + 1) - v.lo k)))

/-- Members that a collective waits for: those without ARRIVE, or else those whose data is incomplete. -/
def collMissing (s : State) (c : Coll) : List Nat :=
  match collView s c with
  | none => []
  | some v =>
    let others := othersOf s v.d.members
    let heard (p : Nat) : Bool := c.arrives.any (fun m => m.src == p) ||
      s.hub.earlyArrives.any fun m => m.src == p && matchesWork m c.group c.attempt c.desc
    match others.filter fun p => !heard p with
    | [] => others.filter fun p => needFrom v c p
    | l => l

/-- Members that a RESHARD waits for. -/
def reshardMissing (s : State) (r : Reshard) : List Nat :=
  match tensorOf r.tensor with
  | none => []
  | some t =>
    let ms := membersOf (fld (dw r.desc 0) 39 32)
    let others := othersOf s (fld (dw r.desc 0) 39 32)
    match others.filter fun p => !r.arrives.any fun m => m.src == p with
    | [] =>
      let todo := (if mapEmpty r.mapRec then [] else needPositions s r t).filter fun j => !r.filled.contains j
      others.filter fun p => todo.any fun j =>
        match sourceOf (geoOf r.mapRec t) r.mapRec ms s.peers.self j with
        | .peer q _ => q == p
        | _ => false
    | l => l

/-- Members that a GFLAG has not heard. -/
def gflagMissing (s : State) (g : GflagWait) : List Nat :=
  (othersOf s g.members).filter fun p => !s.hub.gflagMsgs.any fun m =>
    m.src == p && m.group == g.group && m.attempt == g.attempt && m.step == g.step

/-- The attempts and missing members of a step's work whose limit has expired. -/
def expired (s : State) (n step : Nat) : List (Nat × List Nat) :=
  ((s.hub.colls.filter fun e => e.2.ctx == n && fld (dw e.2.desc 1) 63 32 == step && decide (e.2.deadline ≤ now s)).map
    fun e => (e.2.attempt, collMissing s e.2)) ++
  ((s.hub.reshards.filter fun e => e.2.ctx == n && fld (dw e.2.desc 1) 63 32 == step && e.2.phase == .staging &&
      decide (e.2.deadline ≤ now s)).map fun e => (e.2.attempt, reshardMissing s e.2)) ++
  ((s.hub.gflags.filter fun g => g.ctx == n && g.step == step && decide (g.deadline ≤ now s)).map
    fun g => (g.attempt, gflagMissing s g))

/-- PEER_WAIT_LIMIT (R284). -/
def execPeerWaitLimit (ctx step : Nat) (s : State) : Outcome State Fault Refusal :=
  match expired s ctx step with
  | [] => .next s
  | l@((attempt, _) :: _) =>
    if stepAborted s (getCtx s ctx).colgroup attempt step then .next s
    else
      let missing := (l.filter fun e => e.1 == attempt).flatMap fun e => e.2
      let s := sendAbort s ctx (stepMembers s ctx attempt step) attempt step
      let s := endStep s ctx attempt step
      .next (hubSettle (relink ((missing.foldl (fun l p => insertAsc p l) []).foldl declareAbsent s)))

end Machine
end Sys2Proof
end

