-- ==== Sys2Proof/Machine/UpdMath.lean ====
section
/-! DEFINITION. What the in-stack update engines compute and check: parameter blocks, state grains, loss-scale records and
gather lists (Tables 7.5, 9.5, 9.6, R254), the reads and writes of linear tensors, and the arithmetic of R190, R197, R244 and R246. -/

namespace Sys2Proof
namespace Machine

/-! ### Records -/

/-- A checked parameter block (Table 9.5). -/
structure UpdParams where
  opt : Bool
  bf16 : Bool
  keyed : Bool
  wfmt : Nat
  delay : Nat
  mirror : Bool
  period : Nat
  grad : Nat
  mom : Nat
  rf : Nat
  cf : Nat
  wc : Nat
  state : Nat
  mirrorVa : Nat
  b1 : Nat
  omb1 : Nat
  b2 : Nat
  omb2 : Nat
  eps1 : Nat
  lr : Nat
  wd : Nat
  deriving DecidableEq, Repr

/-- Word `i` of a grain's bytes. -/
def gword (bs : List Byte) (i : Nat) : Nat := leNat (slice bs (8 * i) 8)

/-- An address word of the parameter block: bits [63:48] and [7:0] are 0. -/
def addrWordOk (w : Nat) : Bool := bits w 63 48 == 0 && w % 256 == 0

/-- Reads and checks a parameter block; none is a descriptor fault (R234). -/
def updParamsOf (bs : List Byte) : Option UpdParams :=
  let w0 := gword bs 0
  let p : UpdParams :=
    { opt := bits w0 55 54 == 1, bf16 := bits w0 53 52 == 1, keyed := bits w0 51 50 == 1, wfmt := bits w0 49 46,
      delay := bits w0 45 43, mirror := bit w0 42, period := bits w0 41 34, grad := gword bs 1, mom := gword bs 2,
      rf := gword bs 3, cf := gword bs 4, wc := gword bs 5, state := gword bs 6, mirrorVa := gword bs 7,
      b1 := bits (gword bs 8) 63 32, omb1 := bits (gword bs 8) 31 0, b2 := bits (gword bs 9) 63 32,
      omb2 := bits (gword bs 9) 31 0, eps1 := bits (gword bs 10) 63 32, lr := bits (gword bs 10) 31 0,
      wd := bits (gword bs 11) 63 32 }
  if bits w0 63 56 == 1 && decide (bits w0 55 54 ≤ 1) && decide (bits w0 53 52 ≤ 1) && decide (bits w0 51 50 ≤ 1) &&
      (p.wfmt == 0 || (decide (2 ≤ p.wfmt) && decide (p.wfmt ≤ 8))) && decide (p.delay ≤ 4) && bits w0 33 0 == 0 &&
      ((List.range 7).all fun i => addrWordOk (gword bs (i + 1))) && bits (gword bs 11) 31 0 == 0 &&
      ((bs.drop 96).all fun b => b == 0) && (p.opt || (p.rf == 0 && p.cf == 0)) && (p.wfmt != 0 || p.wc == 0) &&
      (p.mirror || p.mirrorVa == 0)
  then some p else none

/-- An update state grain (Table 9.6): its slots are (SLOT_STATE, SLOT_STEP). -/
structure UpdState where
  seen : Bool
  delay : Nat
  last : Nat
  slots : List (Nat × Nat)
  deriving DecidableEq, Repr

/-- Reads and checks a state grain. -/
def updStateOf (bs : List Byte) : Option UpdState :=
  let w0 := gword bs 0
  let ws := (List.range 4).map fun k => gword bs (k + 1)
  if bits w0 62 35 == 0 && (ws.all fun w => bits w 61 32 == 0 && bits w 63 62 != 3) && (bs.drop 40).all fun b => b == 0 then
    some { seen := bit w0 63, delay := bits w0 34 32, last := bits w0 31 0,
           slots := ws.map fun w => (bits w 63 62, bits w 31 0) }
  else none

/-- The bytes of a state grain. -/
def UpdState.bytes (u : UpdState) : List Byte :=
  fit 256 (leBytes 8 (b2n u.seen <<< 63 + u.delay <<< 32 + u.last) ++
    u.slots.flatMap fun e => leBytes 8 (e.1 <<< 62 + e.2))

/-- A slot is marked (R250). -/
def UpdState.mark (u : UpdState) (k st step : Nat) : UpdState := { u with slots := lset u.slots k (st, step) }

/-- Whether some slot is pending. -/
def UpdState.pending (u : UpdState) : Bool := u.slots.any fun e => e.1 == 1

/-- Pending slots that a step applies, in ascending SLOT_STEP: those at most `limit`, or all. -/
def UpdState.due (u : UpdState) (limit : Option Int) : List (Nat × Nat) :=
  let l := u.slots.zipIdx.filterMap fun e =>
    if e.1.1 = 1 && (match limit with | none => true | some m => decide ((e.1.2 : Int) ≤ m)) then some (e.1.2, e.2) else none
  l.foldl (fun acc e => (acc.takeWhile fun x => x.1 ≤ e.1) ++ e :: acc.dropWhile fun x => x.1 ≤ e.1) []

/-- A loss-scale record (Table 7.5). -/
structure LossRec where
  growth : Nat
  maxExp : Int
  minExp : Int
  scale : Int
  clean : Nat
  seen : Bool
  last : Nat
  skips : Nat
  raises : Nat
  deriving DecidableEq, Repr

/-- Reads and checks a loss-scale record (R191). A MIN_EXP below the -126 of Table 7.5 rejects it too (DEDUCED, log 167). -/
def lossRecOf (bs : List Byte) : Option LossRec :=
  let w0 := gword bs 0
  let w2 := gword bs 2
  let r : LossRec :=
    { growth := bits w0 63 32, maxExp := sext 8 (bits w0 23 16), minExp := sext 8 (bits w0 15 8), scale := sext 8 (bits w0 7 0),
      clean := bits (gword bs 1) 31 0, seen := bit w2 63, last := bits w2 31 0, skips := bits (gword bs 3) 63 32,
      raises := bits (gword bs 3) 31 0 }
  if bits w0 31 24 == 0 && bits (gword bs 1) 63 32 == 0 && bits w2 62 32 == 0 && ((bs.drop 32).all fun b => b == 0) &&
      decide (r.minExp ≤ r.scale) && decide (r.scale ≤ r.maxExp) && decide (-126 ≤ r.minExp)
  then some r else none

/-- An 8-bit two's complement field. -/
def field8 (v : Int) : Nat := (v % 256).toNat

/-- The bytes of a loss-scale record. -/
def LossRec.bytes (r : LossRec) : List Byte :=
  fit 256 (leBytes 8 (r.growth <<< 32 + field8 r.maxExp <<< 16 + field8 r.minExp <<< 8 + field8 r.scale) ++
    leBytes 8 r.clean ++ leBytes 8 (b2n r.seen <<< 63 + r.last) ++ leBytes 8 (r.skips <<< 32 + r.raises))

/-- The update of R190 for a step that was applied or skipped; none leaves the record as it is. -/
def LossRec.update (r : LossRec) (step : Nat) (skipped : Bool) : Option LossRec :=
  if r.growth = 0 || (r.seen && decide (step ≤ r.last)) then none
  else
    let r := { r with seen := true, last := step }
    if skipped then some { r with scale := max (r.scale - 1) r.minExp, clean := 0, skips := satInc 32 r.skips }
    else
      let clean := satInc 32 r.clean
      if r.growth ≤ clean then
        if r.scale < r.maxExp then some { r with scale := r.scale + 1, raises := satInc 32 r.raises, clean := 0 }
        else some { r with clean := 0 }
      else some { r with clean := clean }

/-- The header of a KV page as KVGATHER reads it (Table 12.5). -/
structure PageHead where
  exp : Nat
  fmt : Nat
  pitch : Nat
  deriving DecidableEq, Repr

def pageHeadOf (bs : List Byte) : Option PageHead :=
  let h : PageHead := { exp := bits (gword bs 0) 63 60, fmt := bits (gword bs 0) 59 56, pitch := bits (gword bs 1) 47 32 }
  if 4 ≤ h.exp && decide (h.exp ≤ 12) && decide (1 ≤ h.fmt) && decide (h.fmt ≤ 8) then some h else none

/-! ### Grains of the engines -/

/-- Whether a virtual grain lies in a unit that is lost (R226). -/
def vaLost (s : State) (n va : Nat) : Bool :=
  match translate s n va false with
  | .error _ => false
  | .ok pa => (tierOf pa == 1 || tierOf pa == 2) && unitLost s (servePa s pa)

/-- A grain that an engine reads: data, poison, whether the read failed. -/
def fetchGrain (s : State) (n va : Nat) : List Byte × Bool × Bool × State :=
  let lost := vaLost s n va
  let (d, t, s) := engineRead s n va
  (d, t.poison, lost, s)

/-- A grain that an engine writes with a format and a fresh check (R205, R233). -/
def storeFmt (s : State) (n va fmt : Nat) (data : List Byte) (poison : Bool) : State :=
  engineWrite s n va data (mkTag data fmt (getCtx s n).part poison)

/-- Grains of a row of elements. -/
def rowGrainsOf (fmt cols : Nat) : Nat := cdiv (cols * elemBits fmt) 2048

/-- Grains read in order: their bytes joined, the poison of each, whether any read failed. -/
def fetchRun (s : State) (n va : Nat) : Nat → List Byte × List Bool × Bool × State
  | 0 => ([], [], false, s)
  | k + 1 =>
    let (bs, ps, f, s) := fetchRun s n va k
    let (d, p, l, s) := fetchGrain s n (va + 256 * k)
    (bs ++ d, ps ++ [p], f || l, s)

/-- An element: its bits and its poison. -/
abbrev UElem := Nat × Bool

/-- A row of a linear tensor: elements with the poison of the grains that each lies in. -/
def fetchRow (s : State) (n va fmt cols : Nat) : List UElem × Bool × State :=
  let (bs, ps, f, s) := fetchRun s n va (rowGrainsOf fmt cols)
  let b := elemBits fmt
  let bad (i : Nat) : Bool := ps.getD (i * b / 2048) false || ps.getD ((i * b + b - 1) / 2048) false
  ((unpackBits b cols bs).zipIdx.map fun e => (e.1, bad e.2), f, s)

/-- The rows of a linear tensor. -/
def fetchRows (s : State) (n va fmt cols : Nat) : Nat → List (List UElem) × Bool × State
  | 0 => ([], false, s)
  | r + 1 =>
    let (rows, f, s) := fetchRows s n va fmt cols r
    let (row, l, s) := fetchRow s n (va + 256 * (r * rowGrainsOf fmt cols)) fmt cols
    (rows ++ [row], f || l, s)

/-- Writes a row of a linear tensor; the bits of its last grain beyond its elements are written 0 (log 16). -/
def storeRow (s : State) (n va fmt : Nat) (row : List UElem) : State :=
  let b := elemBits fmt
  let g := rowGrainsOf fmt row.length
  let bs := leBytes (256 * g) (row.foldr (fun e a => e.1 % 2 ^ b + a <<< b) 0)
  (List.range g).foldl (fun s k =>
    let bad := row.zipIdx.any fun e => e.1.2 && (e.2 * b / 2048 == k || (e.2 * b + b - 1) / 2048 == k)
    storeFmt s n (va + 256 * k) fmt (slice bs (256 * k) 256) bad) s

/-- Writes the rows of a linear tensor. -/
def storeRows (s : State) (n va fmt : Nat) (rows : List (List UElem)) : State :=
  rows.zipIdx.foldl (fun s e => storeRow s n (va + 256 * (e.2 * rowGrainsOf fmt e.1.length)) fmt e.1) s

/-! ### Arithmetic (R233, R246): every operation is rounded to FP32, nearest even -/

/-- A value and its poison (R105). -/
abbrev UVal := FVal × Bool

/-- FP32 rounding of the engines in a context's mode. -/
def ur (emu : Bool) (v : FVal) : FVal := r32 emu v

/-- An element widened exactly. -/
def uval (emu : Bool) (fmt : Nat) (e : UElem) : UVal := (decodeV emu fmt e.1 127, e.2)

/-- Unscaled gradients of a row: `r(g × 2^−LOSS_EXP)`. -/
def unscaleRow (emu : Bool) (lossExp : Int) (row : List UElem) : List UVal :=
  row.map fun e => let v := uval emu 1 e; (ur emu (v.1.scale (-lossExp)), v.2)

def uadd (emu : Bool) (a b : FVal) : FVal := ur emu (a.add b)
def umul (emu : Bool) (a b : FVal) : FVal := ur emu (a.mul b)

/-- Sum of a list in order, from +0.0, rounded at each add. -/
def usum (emu : Bool) (vs : List FVal) : FVal := vs.foldl (uadd emu) .zero

/-- Pairs of neighbours added: one level of the binary tree of R125. -/
def updPairs (emu : Bool) : List FVal → List FVal
  | a :: b :: t => uadd emu a b :: updPairs emu t
  | l => l

/-- The sum of 64 values by the binary tree. -/
def treeSum64 (emu : Bool) (vs : List FVal) : FVal :=
  let f := updPairs emu
  (f (f (f (f (f (f vs)))))).headD .zero

/-- The sum of squares of a grain of unscaled gradients, and whether one of them is not finite (R244). -/
def grainNorm (emu : Bool) (gh : List FVal) : FVal × Bool :=
  (treeSum64 emu (gh.map fun g => umul emu g g), gh.any fun g => !g.isFin)

/-- The new factors of OPT 0b01 and the inverse of the mean (R246 pass 1), with their poison. -/
structure Factors where
  rf : List UVal
  cf : List UVal
  invMean : UVal
  deriving DecidableEq, Repr

/-- The squares of pass 1, `r(r(gh × gh) + eps1)`. -/
def squares (emu : Bool) (eps1 : FVal) (gh : List (List UVal)) : List (List UVal) :=
  gh.map fun row => row.map fun g => (uadd emu (umul emu g.1 g.1) eps1, g.2)

/-- Sums of rows in ascending column. -/
def rowSums (emu : Bool) (q : List (List UVal)) : List UVal :=
  q.map fun row => row.foldl (fun a e => (uadd emu a.1 e.1, a.2 || e.2)) (.zero, false)

/-- Sums of columns in ascending row. -/
def colSums (emu : Bool) (cols : Nat) (q : List (List UVal)) : List UVal :=
  q.foldl (fun acc row => (acc.zip row).map fun p => (uadd emu p.1.1 p.2.1, p.1.2 || p.2.2))
    (List.replicate cols (.zero, false))

/-- One factor: `r(r(b2 × old) + r(omb2 × r(sum × inv)))`. -/
def newFactor (emu : Bool) (b2 omb2 inv : FVal) (old sum : UVal) : UVal :=
  (uadd emu (umul emu b2 old.1) (umul emu omb2 (umul emu sum.1 inv)), old.2 || sum.2)

/-- Pass 1 of R246. -/
def pass1 (emu : Bool) (b2 omb2 eps1 : FVal) (cols : Nat) (gh : List (List UVal)) (rf cf : List UVal) : Factors :=
  let q := squares emu eps1 gh
  let invCols := ur emu (fone.div (FVal.ofInt cols))
  let invRows := ur emu (fone.div (FVal.ofInt gh.length))
  let rf' := (rf.zip (rowSums emu q)).map fun p => newFactor emu b2 omb2 invCols p.1 p.2
  let cf' := (cf.zip (colSums emu cols q)).map fun p => newFactor emu b2 omb2 invRows p.1 p.2
  let mean := umul emu (usum emu (rf'.map Prod.fst)) invRows
  { rf := rf', cf := cf', invMean := (ur emu (fone.div mean), rf'.any Prod.snd) }

/-- What pass 2 uses of the parameter block and the mode. -/
structure Pass2 where
  emu : Bool
  b1 : FVal
  omb1 : FVal
  lr : FVal
  wd : FVal
  bf16 : Bool
  keyed : Bool
  seed : Nat
  step : Nat
  deriving DecidableEq, Repr

/-- The moment as stored: its bits in its format, under MRND; the element's index selects the draw (R186). -/
def storeMoment (q : Pass2) (index : Nat) (m : FVal) : Nat :=
  if !q.bf16 then f32bits m
  else if q.keyed && needsDraw 2 m then (roundF 2 (.st (keyedDraw q.seed q.step 15 index)) false m).1
  else (roundF 2 .ne false m).1

/-- Pass 2 of R246 for one element: the stored moment's bits and the new master's bits, from u, the old moment and the old
master. -/
def pass2Elem (q : Pass2) (index : Nat) (u m w : UVal) : UElem × UElem :=
  let m1 := uadd q.emu (umul q.emu q.b1 m.1) (umul q.emu q.omb1 u.1)
  let raw := storeMoment q index m1
  let ms := decodeV q.emu (if q.bf16 then 2 else 1) raw 127
  let step := umul q.emu q.lr (uadd q.emu ms (umul q.emu q.wd w.1))
  let w' := ur q.emu (w.1.add step.negate)
  let bad := u.2 || m.2 || w.2
  ((raw, bad), (f32bits w', bad))

/-- `u` of R246 for one element. -/
def scaledGrad (emu : Bool) (f : Option Factors) (i j : Nat) (gh : UVal) : UVal :=
  match f with
  | none => gh
  | some f =>
    let r := f.rf.getD i (.zero, false)
    let c := f.cf.getD j (.zero, false)
    let v := umul emu (umul emu r.1 c.1) f.invMean.1
    (umul emu gh.1 (ur emu v.rsqrt), gh.2 || r.2 || c.2 || f.invMean.2)

/-- Pass 2 over every element: the moment's and the master's rows. -/
def pass2 (q : Pass2) (f : Option Factors) (cols : Nat) (gh m w : List (List UVal)) : List (List UElem) × List (List UElem) :=
  let rows := (List.range gh.length).map fun i =>
    (List.range cols).map fun j =>
      let at' (t : List (List UVal)) : UVal := (t.getD i []).getD j (.zero, false)
      pass2Elem q (i * cols + j) (scaledGrad q.emu f i j (at' gh)) (at' m) (at' w)
  (rows.map fun r => r.map Prod.fst, rows.map fun r => r.map Prod.snd)

/-! ### The working copy (R197) -/

/-- One row of a working copy: its elements and, for FP6 and FP4, its scale bytes. In S5 emulation mode a subnormal master reads as
zero (Table 7.7). -/
def copyRow (emu : Bool) (fmt : Nat) (row : List UElem) : List UElem × List UElem :=
  let vs := row.map fun e => decodeV emu 1 e.1 127
  if isBlockF fmt then
    let bs := (List.range (row.length / 32)).map fun b =>
      let v := (vs.drop (32 * b)).take 32
      let bad := ((row.drop (32 * b)).take 32).any Prod.snd
      let sc := blockScaleOf fmt none v
      let es := v.map fun x => if sc = 0xFF then 0 else (roundF fmt .ne true (x.scale (127 - (sc : Int)))).1
      (es, sc, bad)
    ((bs.flatMap fun b => b.1.map fun e => (e, b.2.2)), bs.map fun b => (b.2.1, b.2.2))
  else ((row.zip vs).map fun p => ((roundF fmt .ne true p.2).1, p.1.2), [])

/-- Regenerates the whole working copy at `va`: element rows, then scale rows (R245), in its format under S5 emulation too
(DEDUCED, log 168). -/
def writeCopy (s : State) (n va fmt : Nat) (master : List (List UElem)) : State :=
  let rows := master.map (copyRow (getCtx s n).num.s5emu fmt)
  let s := storeRows s n va fmt (rows.map Prod.fst)
  if isBlockF fmt then
    let cols := (master.headD []).length
    storeRows s n (va + 256 * (rows.length * rowGrainsOf fmt cols)) 0xC (rows.map Prod.snd)
  else s

end Machine
end Sys2Proof
end

