-- ==== Sys2Proof/Machine/Update.lean ====
section
/-! DEFINITION. UPDOP (R155, R234 to R236, R244 to R255): the operations of the in-stack update engines, the order of those
on one object (R235, R256), and the mirror snapshots of R252 and R253. -/

namespace Sys2Proof
namespace Machine

open Host

/-- How an operation ends: a return code, or a fault code and address. -/
abbrev UpdEnd := Except (Nat × Nat) Nat × State

def updBad (s : State) : UpdEnd := (.error (fcDescriptor, 0), s)

/-- The return code of reads and poison. -/
def updRc (lost bad : Bool) : Nat := if lost then rcTierFailed else if bad then rcPoisoned else rcOk

/-! ### Sessions -/

/-- The stack that holds a grain of a context. -/
def stackOfVa (s : State) (n va : Nat) : Nat := stackOf (paOf s n va false)

/-- The buffer address of a session or an operation's tensor. -/
def descBase (d : BitVec 256) : Nat := fld (dw d 0) 47 0

/-- The open session of a context on a buffer. -/
def sessionOn (s : State) (n base : Nat) : Option (Nat × Session) :=
  s.upd.sessions.find? fun e => e.2.ctx == n && descBase e.2.buffer == base && !e.2.complete

/-- What OPEN asks of its buffer's fields, whatever its size (R236, R97). -/
def openFieldsOk (t : Tensor) : Bool := t.d0 % 64 == 0 && t.id != 0

/-- OPEN (R236, R241): a buffer that is not wholly mapped to tier 1 is a descriptor fault before its rights are checked. -/
def updOpenRun (s : State) (o : UpdOp) (d : UpdDesc) (t : Tensor) : UpdEnd :=
  if !openFieldsOk t || (sessionOn s o.ctx t.base).isSome || !mapsTo s o.ctx t.base t.dataGrains [1] then updBad s
  else match firstBad s o.ctx t.base true t.dataGrains with
    | some (code, va) => (.error (code, va), s)
    | none =>
        let s := if d.init then
            (List.range t.dataGrains).foldl (fun s i => storeFmt s o.ctx (t.base + 256 * i) 1 (zeros 256) false) s
          else s
        if d.contrib = 0 then (.ok rcOk, s)
        else
          let x : Session :=
            { ctx := o.ctx, buffer := o.tensor, step := o.step, ntags := d.ntags, contrib := d.contrib, closes := 0,
              closing := [], closers := [], next := [], pool := [], poisonedGrains := [], cached := [], counted := false,
              complete := false }
          (.ok rcOk, modUpd s fun u =>
            { u with sessions := tput u.sessions u.nextSession x, nextSession := u.nextSession + 1 })

/-! ### NORM (R244) -/

/-- Sum of squares, NONFINITE, poison and failure over the first `k` grains of a buffer. -/
def normSum (emu : Bool) (lossExp : Int) (s : State) (n base : Nat) : Nat → (FVal × Bool × Bool × Bool) × State
  | 0 => ((.zero, false, false, false), s)
  | k + 1 =>
    let ((sum, nf, bad, lost), s) := normSum emu lossExp s n base k
    let (d, p, l, s) := fetchGrain s n (base + 256 * k)
    let gh := (unscaleRow emu lossExp ((unpackBits 32 64 d).map fun e => (e, false))).map Prod.fst
    let (q, nf') := grainNorm emu gh
    ((uadd emu sum q, nf || nf', bad || p, lost || l), s)

/-- NORM (R242, R244): the POISON bit of an earlier norm word is carried into the new one; the latch and the code tell of the grains
that this NORM read. -/
def updNormRun (s : State) (o : UpdOp) (d : UpdDesc) (t : Tensor) : UpdEnd :=
  let n := o.ctx
  let emu := (getCtx s n).num.s5emu
  match firstBad s n t.base false t.dataGrains, translate s n d.out true with
  | some (code, va), _ => (.error (code, va), s)
  | _, .error code => (.error (code, d.out), s)
  | none, .ok _ =>
    let ((sum, nf, bad, lost), s) := normSum emu d.lossExp s n t.base t.dataGrains
    let (sum, nf, was, bad, lost, s) :=
      if d.init then (sum, nf, false, bad, lost, s)
      else
        let (g, p, l, s) := fetchGrain s n d.out
        let w := gword g 0
        (uadd emu (decodeV emu 1 (bits w 31 0) 127) sum, nf || bit w 33, bit w 32, bad || p, lost || l, s)
    let word := b2n (nf || !sum.isFin) <<< 33 + b2n (was || bad || lost) <<< 32 + f32bits sum
    let bs := fit 256 (leBytes 8 word)
    let s := groupWrite s { agent := o.agent, cg := o.cg } n d.out bs (mkTag bs 0 (getCtx s n).part false)
    (.ok (updRc lost bad), if bad || lost then setLatch s n o.step else s)

/-! ### Parameter blocks (R245) -/

/-- Source, size and place of what a bank holds: master, tier 1 moment, tier 1 factors (log 17). -/
def bankParts (p : UpdParams) (t : Tensor) : List (Nat × Nat) :=
  (t.base, t.dataGrains) ::
    (if p.delay = 0 then
      (p.mom, t.rows * rowGrainsOf (if p.bf16 then 2 else 1) t.d0) ::
        (if p.opt then [(p.rf, rowGrainsOf 1 t.rows), (p.cf, rowGrainsOf 1 t.d0)] else [])
    else [])

/-- Grains of the mirror record and its two banks. -/
def mirrorGrains (p : UpdParams) (t : Tensor) : Nat :=
  if !p.mirror then 0 else if p.period = 0 then 1 else 1 + 2 * ((bankParts p t).map Prod.snd).foldl (· + ·) 0

/-- The runs that a parameter block names, each with its grains, whether the operation writes it or reads it, if it touches it at
all, and the tiers it may lie in. REGEN reads the master and writes the working copy only (R249); a STEP that is ABORTED writes
nothing (R247); only one that is APPLIED reads the gradient. -/
def paramRuns (p : UpdParams) (d : UpdDesc) (t : Tensor) : List (Nat × Nat × Option Bool × List Nat) :=
  let rows := t.rows
  let regen := d.op == updRegen
  let flush := d.op == updFlush
  let records := flush || (!regen && d.outcome != 2)
  let applies := flush || (records && (decide (0 < p.delay) || d.outcome == 0))
  let use (touched write : Bool) : Option Bool := if touched then some write else none
  let slow := if p.delay = 0 then [1] else [2]
  let copy := if p.wfmt = 0 then 0 else rows * rowGrainsOf p.wfmt t.d0 +
    (if isBlockF p.wfmt then rows * rowGrainsOf 0xC (t.d0 / 32) else 0)
  [ (t.base, t.dataGrains, if regen then some false else use applies true, [1]),
    (p.grad, t.dataGrains, use (records && !flush && d.outcome == 0) false, [1]),
    (p.mom, rows * rowGrainsOf (if p.bf16 then 2 else 1) t.d0, use applies true, slow),
    (p.rf, if p.opt then rowGrainsOf 1 rows else 0, use applies true, slow),
    (p.cf, if p.opt then rowGrainsOf 1 t.d0 else 0, use applies true, slow),
    (p.wc, copy, use (regen || applies) true, [1]),
    (p.state, 1 + p.delay * t.dataGrains, if records then some true else use (!regen) false, [1]),
    (p.mirrorVa, mirrorGrains p t, use records true, [2]),
    (d.ls, if d.ls = 0 then 0 else 1, use (records && !flush) true, [1, 2]) ]

/-- A run that the operation does not touch need only not lie in a wrong tier where it is mapped. -/
def runTiers (s : State) (n : Nat) (r : Nat × Nat × Option Bool × List Nat) : Bool :=
  match r.2.2.1 with
  | some _ => mapsTo s n r.1 r.2.1 r.2.2.2
  | none => (List.range r.2.1).all fun i =>
      match translate s n (r.1 + 256 * i) false with
      | .ok pa => r.2.2.2.contains (tierOf pa)
      | .error _ => true

/-- Reads and checks the parameter block of an operation; or what it faults with. -/
def readParams (s : State) (n : Nat) (d : UpdDesc) (t : Tensor) : Except (Nat × Nat) UpdParams × State :=
  match translate s n d.params false with
  | .error code => (.error (code, d.params), s)
  | .ok _ =>
    let (bs, bad, _, s) := fetchGrain s n d.params
    if bad then (.error (fcPoison, 0), s)
    else match updParamsOf bs with
      | none => (.error (fcDescriptor, 0), s)
      | some p =>
        let runs := paramRuns p d t
        match runs.findSome? fun r => r.2.2.1.bind fun write => firstBad s n r.1 write r.2.1 with
        | some (code, va) => (.error (code, va), s)
        | none =>
          if (runs.all fun r => runTiers s n r) && (!isBlockF p.wfmt || t.d0 % 32 == 0) then (.ok p, s)
          else (.error (fcDescriptor, 0), s)

/-- Reads and checks the state grain. -/
def readUpdState (s : State) (n : Nat) (p : UpdParams) : Except (Nat × Nat) UpdState × State :=
  let (bs, bad, _, s) := fetchGrain s n p.state
  if bad then (.error (fcPoison, 0), s)
  else match updStateOf bs with
    | none => (.error (fcDescriptor, 0), s)
    | some u => if u.pending && u.delay != p.delay then (.error (fcDescriptor, 0), s) else (.ok u, s)

/-- Writes the state grain. -/
def writeUpdState (s : State) (n : Nat) (p : UpdParams) (u : UpdState) : State :=
  storeFmt s n p.state 0 { u with delay := p.delay }.bytes false

/-- Staging slot `k` (R250). -/
def slotVa (p : UpdParams) (t : Tensor) (k : Nat) : Nat := p.state + 256 + k * (256 * t.dataGrains)

/-! ### Passes 1 and 2 (R246, R249) -/

/-- The code and the poison of an application. -/
structure Applied where
  lost : Bool
  bad : Bool
  deriving DecidableEq, Repr

/-- Applies unscaled gradients to a master: passes 1 and 2, the moment, the factors and the working copy. -/
def applyStep (s : State) (n : Nat) (p : UpdParams) (t : Tensor) (step : Nat) (gh : List (List UVal)) : Applied × State :=
  let x := getCtx s n
  let emu := x.num.s5emu
  let cols := t.d0
  let mf := if p.bf16 then 2 else 1
  let f (v : Nat) : FVal := decodeV emu 1 v 127
  let vals (fmt : Nat) (rows : List (List UElem)) : List (List UVal) := rows.map fun r => r.map (uval emu fmt)
  let (w, l1, s) := fetchRows s n t.base 1 cols t.rows
  let (m, l2, s) := fetchRows s n p.mom mf cols t.rows
  let (fs, l3, s) :=
    if p.opt then
      let (rf, l1, s) := fetchRow s n p.rf 1 t.rows
      let (cf, l2, s) := fetchRow s n p.cf 1 cols
      (some (pass1 emu (f p.b2) (f p.omb2) (f p.eps1) cols gh (rf.map (uval emu 1)) (cf.map (uval emu 1))), l1 || l2, s)
    else (none, false, s)
  let q : Pass2 :=
    { emu := emu, b1 := f p.b1, omb1 := f p.omb1, lr := f p.lr, wd := f p.wd, bf16 := p.bf16, keyed := p.keyed,
      seed := x.num.seed.toNat, step := step }
  let (m', w') := pass2 q fs cols gh (vals mf m) (vals 1 w)
  let s := storeRows (storeRows s n t.base 1 w') n p.mom mf m'
  let enc (l : List UVal) : List UElem := l.map fun v => (f32bits v.1, v.2)
  let s := match fs with
    | none => s
    | some fs => storeRow (storeRow s n p.rf 1 (enc fs.rf)) n p.cf 1 (enc fs.cf)
  let s := if p.wfmt = 0 then s else writeCopy s n p.wc p.wfmt w'
  let bad := (w'.any fun r => r.any Prod.snd) ||
    match fs with | none => false | some fs => fs.rf.any Prod.snd || fs.cf.any Prod.snd
  ({ lost := l1 || l2 || l3, bad := bad }, s)

/-- Applies the slots that are due, in order; each becomes empty (R250 step 1). -/
def applySlots (s : State) (n : Nat) (p : UpdParams) (t : Tensor) : List (Nat × Nat) → UpdState → Applied →
    UpdState × Applied × State
  | [], u, r => (u, r, s)
  | (step, k) :: due, u, r =>
    let emu := (getCtx s n).num.s5emu
    let (g, l, s) := fetchRows s n (slotVa p t k) 1 t.d0 t.rows
    let (r', s) := applyStep s n p t step (g.map fun row => row.map (uval emu 1))
    applySlots s n p t due (u.mark k 0 step) { lost := r.lost || r'.lost || l, bad := r.bad || r'.bad }

/-! ### The loss-scale record (R190, R191) -/

/-- Updates the record at LS_VA; a record that fails its checks is a descriptor fault. -/
def updateLoss (s : State) (n ls step : Nat) (skipped : Bool) : UpdEnd :=
  if ls = 0 then (.ok rcOk, s)
  else
    let (bs, bad, lost, s) := fetchGrain s n ls
    if bad || lost then (.ok (updRc lost bad), s)
    else match lossRecOf bs with
      | none => (.error (fcDescriptor, 0), s)
      | some r =>
        match r.update step skipped with
        | none => (.ok rcOk, s)
        | some r => (.ok rcOk, storeFmt s n ls 0 r.bytes false)

/-! ### Mirror snapshots (R252, R253) -/

/-- Bytes that an engine merges into a grain, for a completion group: a grain that fails its check is poisoned (R233). One of a peer or
of the host is read and written whole. -/
def engineMerge (s : State) (ref : CgRef) (n va off : Nat) (bs : List Byte) : State :=
  match translate s n va true with
  | .error _ => s
  | .ok pa =>
    if tierOf pa = 3 || tierOf pa = 4 then
      let (old, t, s) := engineRead s n va
      let d := patch old off bs
      groupWrite s ref n va d { t with check := crc32c d }
    else if unitLost s pa then countFailed s
    else mergeGrain (checkHome (chargeTier s n (tierOf pa) 256) pa off bs.length) pa off bs false

/-- The runs of a snapshot into a bank. -/
def bankRuns (p : UpdParams) (t : Tensor) (bank : Nat) : List (Nat × Nat × Nat) :=
  let parts := bankParts p t
  let size := (parts.map Prod.snd).foldl (· + ·) 0
  (parts.foldl (fun acc r => (acc.1 ++ [(r.1, acc.2, r.2)], acc.2 + 256 * r.2))
    (([] : List (Nat × Nat × Nat)), p.mirrorVa + 256 + bank * (256 * size))).1

/-- Copies what an open snapshot has not copied yet, tags and all. -/
def copySnapshot (s : State) (id : Nat) : State :=
  match tfind s.upd.snapshots id with
  | none => s
  | some x =>
    let s := x.runs.foldl (fun s r => (List.range r.2.2).foldl (fun s i =>
      let (d, t, s) := engineRead s x.ctx (r.1 + 256 * i)
      engineWrite s x.ctx (r.2.1 + 256 * i) d t) s) s
    modUpd s fun u => { u with snapshots := tput u.snapshots id { x with runs := [] } }

/-- Physical addresses of the grains of runs. -/
def runPas (s : State) (n : Nat) (runs : List (Nat × Nat)) : List Nat :=
  runs.flatMap fun r => (List.range r.2).map fun i => paOf s n (r.1 + 256 * i) false

/-- Before an operation overwrites grains that an open snapshot has still to copy, whichever block it was started by, the snapshot
copies them (R253). -/
def copyBefore (s : State) (n : Nat) (p : UpdParams) (t : Tensor) : State :=
  let mine := runPas s n (bankParts p t)
  (s.upd.snapshots.filter fun e =>
    (runPas s e.2.ctx (e.2.runs.map fun r => (r.1, r.2.2))).any mine.contains).foldl (fun s e => copySnapshot s e.1) s

/-- The validity bits of a mirror record with one changed. -/
def mirrorValid (s : State) (n va bank : Nat) (v : Bool) : State :=
  let ref : CgRef := { agent := .ctl n, cg := 0 }
  let (bs, _, _, s) := fetchGrain s n va
  let w := gword bs 0
  let keep := if bank = 0 then bits w 1 1 * 2 else bits w 0 0
  engineMerge s ref n va 0 (leBytes 8 (w / 4 * 4 + keep + b2n v * 2 ^ bank))

/-- Whether a STEP that ends APPLIED or SKIPPED starts a snapshot (R252). -/
def mirrors (p : UpdParams) (step : Nat) : Bool := p.mirror && decide (0 < p.period) && step % p.period == 0

/-- A snapshot of the state after a step starts: its bank is marked invalid (R253). -/
def startSnapshot (s : State) (n : Nat) (p : UpdParams) (t : Tensor) (step : Nat) : State :=
  let bank := step / p.period % 2
  let s := mirrorValid s n p.mirrorVa bank false
  let x : Snapshot := { ctx := n, base := t.base, mirrorVa := p.mirrorVa, bank := bank, step := step, runs := bankRuns p t bank }
  modUpd s fun u => { u with snapshots := tput u.snapshots u.nextSnapshot x, nextSnapshot := u.nextSnapshot + 1 }

/-- Firmware records a trickle-mirrored tensor at its STEP (R393). -/
def noteMirrored (s : State) (o : UpdOp) (d : UpdDesc) (p : UpdParams) : State :=
  if p.mirror && decide (0 < p.period) then
    let x := getCtx s o.ctx
    let note : MirrorNote := { part := x.part, ctx := o.ctx, params := d.params, tensor := o.tensor, maps := x.maps }
    modUpd s fun u =>
      { u with mirrored := (u.mirrored.filter fun e => !(e.ctx == o.ctx && e.params == d.params)) ++ [note] }
  else s

/-- A mirror record that a STEP is about to use must not be poisoned (Table 16.2). -/
def mirrorPoisoned (s : State) (n : Nat) (p : UpdParams) (step : Nat) : Bool :=
  mirrors p step && (fetchGrain s n p.mirrorVa).2.1

/-! ### STEP, REGEN, FLUSH (R246 to R250) -/

/-- The end of a STEP that was not found poisoned: state grain, loss-scale record, snapshot. -/
def finishStep (s : State) (n : Nat) (p : UpdParams) (d : UpdDesc) (t : Tensor) (u : UpdState) (step : Nat) (r : Applied) :
    UpdEnd :=
  let s := writeUpdState s n p { u with seen := true, last := step }
  let s := if r.lost || r.bad then setLatch s n step else s
  let s := if mirrors p step then startSnapshot s n p t step else s
  match updateLoss s n d.ls step (d.outcome == 1) with
  | (.error e, s) => (.error e, s)
  | (.ok rc, s) => (.ok (max rc (updRc r.lost r.bad)), s)

/-- A STEP that is APPLIED or SKIPPED for the first time. -/
def runStep (s : State) (n : Nat) (p : UpdParams) (d : UpdDesc) (t : Tensor) (u : UpdState) (step : Nat) : UpdEnd :=
  let emu := (getCtx s n).num.s5emu
  let s := copyBefore s n p t
  let (u, r, s) := if p.delay = 0 then (u, { lost := false, bad := false }, s)
    else applySlots s n p t (u.due (some ((step : Int) - p.delay))) u { lost := false, bad := false }
  if d.outcome = 1 then finishStep s n p d t (if p.delay = 0 then u else u.mark (step % p.delay) 2 step) step r
  else
    let (g, lost, s) := fetchRows s n p.grad 1 t.d0 t.rows
    if lost || g.any (fun row => row.any Prod.snd) then
      let s := if p.delay = 0 then s else writeUpdState s n p u
      (.ok (max (updRc lost true) (updRc r.lost r.bad)), setLatch s n step)
    else
      let gh := g.map (unscaleRow emu d.lossExp)
      if p.delay = 0 then
        let (r, s) := applyStep s n p t step gh
        finishStep s n p d t u step r
      else
        let k := step % p.delay
        let s := storeRows s n (slotVa p t k) 1 (gh.map fun row => row.map fun v => (f32bits v.1, false))
        finishStep s n p d t (u.mark k 1 step) step r

def updStepRun (s : State) (o : UpdOp) (d : UpdDesc) (t : Tensor) : UpdEnd :=
  let n := o.ctx
  match readParams s n d t with
  | (.error e, s) => (.error e, s)
  | (.ok p, s) =>
    match readUpdState s n p with
    | (.error e, s) => (.error e, s)
    | (.ok u, s) =>
      if d.outcome = 2 || (u.seen && decide (o.step ≤ u.last)) then (.ok rcOk, s)
      else if mirrorPoisoned s n p o.step then (.error (fcPoison, 0), s)
      else runStep (noteMirrored s o d p) n p d t u o.step

def updRegenRun (s : State) (o : UpdOp) (d : UpdDesc) (t : Tensor) : UpdEnd :=
  let n := o.ctx
  match readParams s n d t with
  | (.error e, s) => (.error e, s)
  | (.ok p, s) =>
    if p.wfmt = 0 then (.ok rcOk, s)
    else
      let (w, lost, s) := fetchRows s n t.base 1 t.d0 t.rows
      (.ok (updRc lost (w.any fun r => r.any Prod.snd)), writeCopy s n p.wc p.wfmt w)

def updFlushRun (s : State) (o : UpdOp) (d : UpdDesc) (t : Tensor) : UpdEnd :=
  let n := o.ctx
  match readParams s n d t with
  | (.error e, s) => (.error e, s)
  | (.ok p, s) =>
    match readUpdState s n p with
    | (.error e, s) => (.error e, s)
    | (.ok u, s) =>
      let (u, r, s) := applySlots (copyBefore s n p t) n p t (u.due none) u { lost := false, bad := false }
      (.ok (updRc r.lost r.bad), writeUpdState s n p u)

/-! ### KVGATHER (R254, R255) -/

/-- One gather entry: PAGE_VA, FIRST, COUNT. -/
structure GatherEntry where
  page : Nat
  first : Nat
  count : Nat
  deriving DecidableEq, Repr

/-- Entry `i` of a gather list; none when a reserved bit is set. -/
def gatherEntryOf (bs : List Byte) (i : Nat) : Option GatherEntry :=
  let w0 := gword bs (2 * i + 1)
  let w1 := gword bs (2 * i + 2)
  if bits w0 63 48 == 0 && w0 % 256 == 0 then some { page := w0, first := bits w1 63 32, count := bits w1 31 0 } else none

/-- The result word of an entry. -/
def gatherResult (fmt firstByte off : Nat) : List Byte := leBytes 8 (fmt <<< 60 + firstByte <<< 40 + off)

/-- Copies the grains of a run from a page into the destination, tags unchanged; poisoned ones, and those of a page whose header
is poisoned, arrive poisoned. -/
def gatherRun (s : State) (n src : Nat) (t : Tensor) (off : Nat) (headBad : Bool) : Nat → Bool × Bool × State
  | 0 => (false, false, s)
  | k + 1 =>
    let (bad, lost, s) := gatherRun s n src t off headBad k
    let l := vaLost s n (src + 256 * k)
    let (d, tag, s) := engineRead s n (src + 256 * k)
    let p := tag.poison || headBad
    (bad || p, lost || l, engineWrite s n (t.grainVa (off + k)) d { tag with poison := p })

/-- Entry `i` and those after it. -/
def gatherGo (ref : CgRef) (n out : Nat) (t : Tensor) (bs : List Byte) : Nat → Nat → Nat → Bool × Bool → State → UpdEnd
  | 0, _, _, r, s => (.ok (updRc r.2 r.1), s)
  | k + 1, i, next, r, s =>
    match gatherEntryOf bs i with
    | none => (.error (fcDescriptor, 0), s)
    | some e =>
      match translate s n e.page false with
      | .error code => (.error (code, e.page), s)
      | .ok _ =>
        let (h, hp, _, s) := fetchGrain s n e.page
        match pageHeadOf h with
        | none => (.error (fcDescriptor, 0), s)
        | some p =>
          let lo := 256 + e.first * p.pitch
          let hi := 256 + (e.first + e.count) * p.pitch
          let g := if e.count = 0 || hi = lo then 0 else cdiv hi 256 - lo / 256
          if 2 ^ p.exp < e.first + e.count || t.grains < next + g then (.error (fcDescriptor, 0), s)
          else match firstBad s n (e.page + lo / 256 * 256) false g,
              firstBad s n ((out + 8 * i) / 256 * 256) true 1 with
            | some (code, va), _ => (.error (code, va), s)
            | _, some (code, va) => (.error (code, va), s)
            | none, none =>
              let (bad, lost, s) := gatherRun s n (e.page + lo / 256 * 256) t next hp g
              let a := out + 8 * i
              let s := engineMerge s ref n (a / 256 * 256) (a % 256) (gatherResult p.fmt (lo % 256) next)
              gatherGo ref n out t bs k (i + 1) (next + g) (r.1 || bad, r.2 || lost) s

def updGatherRun (s : State) (o : UpdOp) (d : UpdDesc) (t : Tensor) : UpdEnd :=
  let n := o.ctx
  match tensorBad s n t true, translate s n d.params false with
  | some (code, va), _ => (.error (code, va), s)
  | _, .error code => (.error (code, d.params), s)
  | none, .ok _ =>
    if !mapsTo s n t.base t.dataGrains [1] then updBad s
    else
      let (h, bad, _, s) := fetchGrain s n d.params
      let entries := bits (gword h 0) 12 0
      let grains := cdiv (8 + 16 * entries) 256
      if bad then (.error (fcPoison, 0), s)
      else if bits (gword h 0) 63 13 != 0 || 4096 < entries then updBad s
      else match firstBad s n d.params false grains with
        | some (code, va) => (.error (code, va), s)
        | none =>
          let (rest, bads, _, s) := fetchRun s n (d.params + 256) (grains - 1)
          if bads.any id then (.error (fcPoison, 0), s)
          else gatherGo { agent := o.agent, cg := o.cg } n d.out t (h ++ rest) entries 0 0 (false, false) s

/-! ### Order on one object (R235, R256) -/

/-- What an operation would read of a parameter block, without an effect. -/
def peekGrain (s : State) (n va : Nat) : List Byte :=
  match translate s n va false with
  | .error _ => zeros 256
  | .ok pa => grainAt s pa

/-- The objects of an operation: its tensor or buffer, a NORM's norm grain, a STEP's reduction buffer. -/
def opObjects (s : State) (o : UpdOp) : List Nat :=
  descBase o.tensor :: match updDescOf o.desc with
    | none => []
    | some d =>
      if d.op = updNorm then [d.out] else if d.op = updStep then [bits (gword (peekGrain s o.ctx d.params) 1) 47 0] else []

/-- Whether a STEP would start a snapshot while one of its tensor is open (R253). -/
def snapshotBlocks (s : State) (o : UpdOp) (d : UpdDesc) : Bool :=
  match updParamsOf (peekGrain s o.ctx d.params) with
  | none => false
  | some p =>
    let u := updStateOf (peekGrain s o.ctx p.state)
    let done := match u with | none => false | some u => u.seen && decide (o.step ≤ u.last)
    d.op == updStep && d.outcome != 2 && mirrors p o.step && !done &&
      s.upd.snapshots.any fun e => e.2.ctx == o.ctx && (e.2.mirrorVa == p.mirrorVa || e.2.base == descBase o.tensor)

/-- What a KVGATHER touches besides its destination: its list, its result list, and the pages that the list names. -/
def gatherRuns (s : State) (n : Nat) (d : UpdDesc) : List (Nat × Nat) :=
  let entries := min (bits (gword (peekGrain s n d.params) 0) 12 0) 4096
  let grains := cdiv (8 + 16 * entries) 256
  let bs := (List.range grains).flatMap fun i => peekGrain s n (d.params + 256 * i)
  (d.params, grains) :: (d.out, cdiv (8 * entries) 256) :: (List.range entries).flatMap fun i =>
    match gatherEntryOf bs i with
    | none => []
    | some e =>
      match pageHeadOf (peekGrain s n e.page) with
      | none => [(e.page, 1)]
      | some p =>
        let lo := 256 + e.first * p.pitch
        [(e.page, 1), (e.page + lo / 256 * 256, cdiv (256 + (e.first + e.count) * p.pitch) 256 - lo / 256)]

/-- The runs of grains that an operation touches. -/
def opRuns (s : State) (o : UpdOp) (d : UpdDesc) (t : Tensor) : List (Nat × Nat) :=
  (t.base, t.dataGrains) ::
    if d.op = updOpen then []
    else if d.op = updNorm then [(d.out, 1)]
    else if d.op = updKvgather then gatherRuns s o.ctx d
    else (d.params, 1) :: match updParamsOf (peekGrain s o.ctx d.params) with
      | none => []
      | some p => (paramRuns p d t).filterMap fun r => if r.2.2.1.isSome then some (r.1, r.2.1) else none

/-- Whether an operation touches grains that a RESHARD of its context holds (R294, Table 11.3). -/
def opHeld (s : State) (o : UpdOp) : Bool :=
  !s.hub.reshards.isEmpty && match updDescOf o.desc, tensorOf o.tensor with
    | some d, some t => (opRuns s o d t).any fun r => (List.range r.2).any fun i => reshardHolds s o.ctx (r.1 + 256 * i)
    | _, _ => false

/-- Whether an operation waits: behind a RESHARD, an earlier one on an object of its, an open session on its buffer, or an open
snapshot. -/
def opBlocked (s : State) (o : UpdOp) : Bool :=
  let mine := opObjects s o
  opHeld s o ||
  (s.upd.ops.any fun e => e.2.ctx == o.ctx && decide (e.2.order < o.order) && (opObjects s e.2).any mine.contains) ||
  match updDescOf o.desc with
  | none => false
  | some d =>
    ((d.op == updNorm || d.op == updStep) && mine.any fun b => (sessionOn s o.ctx b).isSome) || snapshotBlocks s o d

/-! ### Operation queues (R232) -/

/-- Operations that wait in the queue of a stack's engine: UPDOPs and UPDCLOSEs on tensors that begin in it (R232; that the stack of
the tensor's first grain keeps the operation is the model's choice, log 133). -/
def opsQueued (s : State) (k : Nat) : Nat :=
  (s.upd.ops.filter fun e => stackOfVa s e.2.ctx (descBase e.2.tensor) == k).length +
  ((s.upd.sessions.filter fun e => stackOfVa s e.2.ctx (descBase e.2.buffer) == k).map fun e => e.2.closing.length).foldl (· + ·) 0

/-- Whether the operation queue of a stack's engine is full (Table 9.1). -/
def opQueueFull (s : State) (k : Nat) : Bool := decide (64 ≤ opsQueued s k)

/-! ### UPDOP (R155) -/

/-- What an operation does in its engine. -/
def runUpd (s : State) (o : UpdOp) (d : UpdDesc) (t : Tensor) : UpdEnd :=
  match d.op with
  | 0 => updOpenRun s o d t
  | 1 => updNormRun s o d t
  | 2 => updStepRun s o d t
  | 3 => updRegenRun s o d t
  | 4 => updFlushRun s o d t
  | _ => updGatherRun s o d t

/-- The code of an operation: TIER_FAILED when an access of it has failed (R226, R227, R132). -/
def updCode (before : Nat) (s : State) (rc : Nat) : Nat := if before < s.mem.tierFailed then max rc rcTierFailed else rc

/-- An operation runs and ends: its group receives the code, or its context the fault (R234). -/
def endUpd (s : State) (o : UpdOp) (d : UpdDesc) (t : Tensor) : State :=
  match runUpd (queueFreed s) o d t with
  | (.ok rc, s') => groupEnds s' { agent := o.agent, cg := o.cg } o.ctx (updCode s.mem.tierFailed s' rc)
  | (.error (code, va), s) => ctxFault s o.ctx (faultOf s o.agent code va o.insn o.ip o.block)

/-- An operation in the queue that nothing blocks starts. -/
def startUpd (s : State) (id : Nat) : State :=
  match tfind s.upd.ops id with
  | none => s
  | some o =>
    if opBlocked s o then s
    else
      let s := modUpd s fun u => { u with ops := tdel u.ops id }
      match updDescOf o.desc, tensorOf o.tensor with
      | some d, some t => endUpd s o d t
      | _, _ => s

def rowUpdop : Row :=
  { cls := 6, maj := 0, sub := always, regs := regs4 .none .d .s .d, cores := true, ctl := true, ext := false,
    legal := cgRequired }

/-- A tensor that an operation may name: FP32 and linear; of untyped bytes for KVGATHER (R254). -/
def updTensorOk (op : Nat) (t : Tensor) : Bool := if op = updKvgather then t.fmt == 0 else t.fmt == 1 && t.layout == 0

/-- UPDOP whose descriptor names `op`; one that names another operation is another row's. -/
def updopBody (op : Nat) (a : Agent) (w : Word) (n : Nat) (s : State) : IRes :=
  let desc := dOf s a (iSrc3 w)
  let tensor := dOf s a (iSrc1 w)
  let g := bits (iImm w) 31 28
  match updDescOf desc, tensorOf tensor with
  | some d, some t =>
    if d.op != op then .stop s
    else if (getCtx s n).dst.role = 1 && op != updKvgather then .fault fcProtection 0 false
    else if !updTensorOk op t then .fault fcDescriptor 0 true
    else if op == updOpen && !openFieldsOk t then .fault fcDescriptor 0 true
    else if t.elems == 0 then .done (emptyCg s a (some g))
    else if opQueueFull s (stackOfVa s n t.base) then .park s 3 (.updQueue (stackOfVa s n t.base))
    else
      let s := bump (issueCg s a g 1)
      let th := threadOf s a
      let o : UpdOp :=
        { ctx := n, agent := a, desc := desc, tensor := tensor, step := (sOf s a (iSrc2 w)).toNat % 2 ^ 32, cg := g, insn := w,
          ip := th.ip, block := th.block, order := s.serial }
      let id := s.upd.nextOp
      let s := startUpd (modUpd s fun u => { u with ops := tput u.ops id o, nextOp := id + 1 }) id
      if (getCtx s n).state = ctxLive then .done s else .stop s
  | _, _ => .fault fcDescriptor 0 true

def execUpdopOpen (a : Agent) (w : Word) (s : State) : Outcome State Fault Refusal :=
  runInstr rowUpdop a w (updopBody updOpen a w) s
def execUpdopNorm (a : Agent) (w : Word) (s : State) : Outcome State Fault Refusal :=
  runInstr rowUpdop a w (updopBody updNorm a w) s
def execUpdopStep (a : Agent) (w : Word) (s : State) : Outcome State Fault Refusal :=
  runInstr rowUpdop a w (updopBody updStep a w) s
def execUpdopRegen (a : Agent) (w : Word) (s : State) : Outcome State Fault Refusal :=
  runInstr rowUpdop a w (updopBody updRegen a w) s
def execUpdopFlush (a : Agent) (w : Word) (s : State) : Outcome State Fault Refusal :=
  runInstr rowUpdop a w (updopBody updFlush a w) s
def execUpdopKvgather (a : Agent) (w : Word) (s : State) : Outcome State Fault Refusal :=
  runInstr rowUpdop a w (updopBody updKvgather a w) s

/-- UPD_OP_START (R235). -/
def execUpdOpStart (op : Nat) (s : State) : Outcome State Fault Refusal := .next (startUpd s op)

/-- SNAPSHOT_COMPLETE (R253): what is left is copied and the bank is marked valid. -/
def execSnapshotComplete (snap : Nat) (s : State) : Outcome State Fault Refusal :=
  match tfind s.upd.snapshots snap with
  | none => .next s
  | some x =>
    let s := copySnapshot s snap
    let s := mirrorValid s x.ctx x.mirrorVa x.bank true
    let s := engineMerge s { agent := .ctl x.ctx, cg := 0 } x.ctx x.mirrorVa (8 + 4 * x.bank) (leBytes 4 x.step)
    .next (modUpd s fun u => { u with snapshots := tdel u.snapshots snap })

end Machine
end Sys2Proof
end

