-- ==== Sys2Proof/Machine/Recover.lean ====
section
/-! DEFINITION. Faults and recovery (R386 to R402): FATAL, the alert lines, lost cores, dies, stacks and channels with their
spares, hub paths, SRAM errors, and restarts of control cores. -/

namespace Sys2Proof
namespace Machine

open Host

/-! ### Alert lines (R428) -/

/-- The conditions of R428 that are set: 0 FATAL, 1 DEGRADED, 2 UV_OV, 3 THERMAL, 4 HOLD_REFUSED. -/
def alertConds (s : State) : List Nat :=
  ([s.recov.fatal, s.recov.degraded, s.pwr.uvOv, s.pwr.thermal, s.pwr.holdRefused].zipIdx.filter Prod.fst).map Prod.snd

/-- The lines are asserted while some condition is set and not yet reported. -/
def settleAlert (s : State) : State :=
  let c := alertConds s
  modPwr s fun p => { p with
    reported := p.reported.filter fun k => c.contains k
    alert := c.any fun k => !p.reported.contains k }

/-- DEGRADED: a unit is lost with no spare left (Table 16.7). -/
def setDegraded (s : State) : State := settleAlert (modRec s fun r => { r with degraded := true })

/-! ### All work stops: FATAL (R388), warm reset (R443) -/

/-- A port that carries nothing. -/
def quietPort (p : Port) : Port :=
  { p with state := ptDisabled, lanes := 0, active := 0, swapLane := none, txBuf := [], txWait := [], credits := [], round := [],
           nakTries := 0, rxTries := 0, fecTries := 0 }

/-- All work ends unsaved: what is in flight, every context, request and model, the contents of every memory, the links. Counters
stay; the energy of contexts moves on as at CREATE, so that R20's sum holds. -/
def stopAll (s : State) : State :=
  let s := (s.ports.filter fun e => isUp s e.1).foldl (fun s e => emit s (.portDown e.1)) s
  let s := (s.ctxs.map Prod.fst).foldl retireEnergy s
  { s with
    cores := tmap (fun _ x => { bareCore x with eps := [] }) (s.cores.filter fun e => e.1 < 1024)
    ctxs := [], scheds := [], models := []
    mem := { s.mem with cells := [], tags := [], linesWritten := [], reqs := [], refetching := [] }
    hub := { s.hub with
      colls := [], earlyArrives := [], reshards := [], gflags := [], gflagMsgs := [], aborted := [], flagged := [],
      attempts := [], whey := [], wheyDue := [], poisonDue := [] }
    upd := { s.upd with sessions := [], contribs := [], ops := [], snapshots := [], mirrored := [] }
    rollout := { s.rollout with requests := [], handles := [], sets := [] }
    ports := tmap (fun _ p => quietPort p) s.ports
    peers := { Peers.reset with
      self := s.peers.self, incarnation := s.peers.incarnation, absentEvents := s.peers.absentEvents, aborts := s.peers.aborts }
    host := { s.host with up := false, snoop := [], biLines := [], fwWaits := [], cfgReady := false }
    clk := { s.clk with
      edge := [], dies := tmap (fun _ d => { d with pllOn := false, starting := false, freq := 0, idleTicks := 0 }) s.clk.dies } }

/-- The module enters FATAL (R388): every clock but the always-on domain's stops; the links go down, with viral (Table 17.1). -/
def enterFatal (s : State) : State :=
  if s.recov.fatal || s.pwr.off then s
  else
    let s := logEvent (modRec s fun r => { r with fatal := true }) 0x14 { cls := 5, kind := 0, unit := 0 } 0 none 0
    let s := if s.host.up then emit (emit s .viral) .hostLinkDown else s
    settleAlert (stopAll s)

/-- Whether the module runs: events of its units take place. -/
def running (s : State) : Bool := !s.recov.fatal && !s.pwr.off

/-! ### The carrier record (R434) -/

/-- Sets or clears one bit of a map. -/
def putBit {w : Nat} (m : BitVec w) (k : Nat) (v : Bool) : BitVec w :=
  if v then m ||| BitVec.ofNat w (2 ^ k) else m &&& ~~~(BitVec.ofNat w (2 ^ k))

/-- The physical cores of a logical die as they are now stay so, whatever the repair map becomes (R14). -/
def freezeCores (s : State) (die : Nat) : State :=
  let now := (List.range 128).map fun i => (128 * die + i, physCore s (128 * die + i))
  modRec s fun r => { r with corePhys := now.foldl (fun t e => tput t e.1 e.2) r.corePhys }

/-- The physical stacks of the logical ones as they are now stay so. -/
def freezeStacks (s : State) : State :=
  let now := (List.range 16).map fun k => (k, physStack s k)
  modRec s fun r => { r with stackPhys := now.foldl (fun t e => tput t e.1 e.2) r.stackPhys }

/-! ### Contexts and requests of a lost unit -/

/-- Outstanding requests of running cores are discarded on return; writes issued are performed whole (R389 step 1). -/
def flushCores (s : State) (p : Nat → Bool) : State :=
  flushReqs s fun r => match r.core with | some c => p c | none => false

/-- Contexts, LIVE or HELD, whose core set meets a set of cores, lose a unit (R396). -/
def loseCores (s : State) (p : Nat → Bool) (event first : Nat) : State :=
  (ctxsWhere s fun x => (x.state == ctxLive || x.state == ctxHeld) && x.coreset.any p).foldl
    (fun s n => loseUnit s n event first) s

/-- What a lost core leaves: its counters (R54). -/
def fenceCore (s : State) (c : Nat) : State := modCore s c fun x => { bareCore x with lost := true }

/-! ### Cores (R389) -/

/-- Partition and context of a core, for the log. -/
def coreHolder (s : State) (c : Nat) : Nat × Option Nat :=
  match (getCore s c).owner with
  | some n => ((getCtx s n).part, some n)
  | none => (0, none)

/-- The spare cores of a logical die, lowest first: mapped out, never found failed, not in place of another. -/
def spareCores (s : State) (die : Nat) : List Nat :=
  match physDie s die with
  | none => []
  | some k =>
    let m := (tget 0 (carrier s).coreMap k).toNat
    ((List.range 136).filter fun c => !bit m c && !s.recov.failedCores.contains (136 * k + c) &&
      !s.recov.corePhys.any fun e => e.2 == 136 * k + c).map fun c => 136 * k + c

def spareCore (s : State) (die : Nat) : Option Nat := (spareCores s die).head?

/-- Whether a logical die has fewer spares than lost cores: each lost core is due one (R389). -/
def coresShort (s : State) (die : Nat) : Bool :=
  decide ((spareCores s die).length < (s.recov.lostCores.filter fun c => c / 128 == die).length)

/-- A core in service is lost (R389 steps 1 and 2). -/
def loseCore (s : State) (c : Nat) : State :=
  let phys := physCore s c
  let (part, ctx) := coreHolder s c
  let s := logEvent (countFault s 1) 0x08 { cls := 2, kind := 1, unit := phys } part ctx 0
  let s := closeCoreEnds (flushCores s fun k => k == c) c
  let s := fenceCore (loseCores s (fun k => k == c) 0x08 c) c
  let s := modRec s fun r => { r with lostCores := insertAsc c r.lostCores, failedCores := r.failedCores ++ [phys] }
  let s := if coresShort s (c / 128) then setDegraded s else s
  coresFreed s

/-- Whether a logical core is in service. -/
def coreInService (s : State) (c : Nat) : Bool :=
  decide (c < 1024) && !(getCore s c).lost && (physDie s (c / 128)).isSome

/-- Whether a lost core's spare is being tested: a fault of the core meanwhile is a second one during its own recovery (R388, log 159). -/
def coreRecovers (s : State) (c : Nat) : Bool := s.recov.lostCores.contains c && (spareCore s (c / 128)).isSome

/-- CORE_LOST (R389, R388). -/
def execCoreLost (core : Nat) (s : State) : Outcome State Fault Refusal :=
  if !running s then .next s
  else if coreInService s core then .next (loseCore s core)
  else if coreRecovers s core then .next (enterFatal s) else .next s

/-- SPARE_CORE_READY (R389 steps 3 and 4). -/
def execSpareCoreReady (core : Nat) (pass : Bool) (s : State) : Outcome State Fault Refusal :=
  if !running s || !s.recov.lostCores.contains core then .next s
  else match physDie s (core / 128), spareCore s (core / 128) with
    | some k, some phys =>
      if pass then
        let s := freezeCores s (core / 128)
        let old := physCore s core
        let s := modRec s fun r => { r with
          corePhys := tput r.corePhys core phys, lostCores := r.lostCores.filter fun c => c != core }
        let s := modCore s core fun x => { x with lost := false }
        let s := logEvent s 0x09 { cls := 2, kind := 1, unit := phys } 0 none 0
        let s := saveCarrier s fun c => { c with
          coreMap := tput c.coreMap k (putBit (putBit (tget 0 c.coreMap k) (old % 136) false) (phys % 136) true) }
        .next (coresFreed s)
      else
        let s := modRec s fun r => { r with failedCores := r.failedCores ++ [phys] }
        .next (if coresShort s (core / 128) then setDegraded s else s)
    | _, _ => .next s

/-! ### Compute dies (R390, R391) -/

/-- The cold spare die: in neither set of the repair map, and in no use yet. -/
def coldDie (s : State) : Option Nat :=
  if s.recov.spareDie != 0 then none
  else
    let c := carrier s
    (List.range 9).find? fun k => !bit c.dieFailed.toNat k && !bit c.dieActive.toNat k

/-- Traffic that waits at the bridge edge for cores is dropped. -/
def dropDieEdge (s : State) (die : Nat) : State :=
  modClk s fun k => { k with edge := k.edge.filter fun e => match e with
    | .grain id _ => (getMReq s id).isSome
    | it => match it.dest with | some c => c / 128 != die | none => true }

/-- A logical die is lost (Table 16.4). -/
def loseDie (s : State) (die k : Nat) : State :=
  let mine (c : Nat) : Bool := c / 128 == die
  let s := logEvent (countFault s 5) 0x0A { cls := 4, kind := 2, unit := k } 0 none 0
  let s := flushCores s mine
  let listed := (s.cores.map Prod.fst).filter mine
  let s := dropDieEdge (listed.foldl closeCoreEnds s) die
  let s := loseCores s mine 0x0A (128 * die)
  let s := listed.foldl (fun s c => modCore s c fun x => bareCore x) s
  let s := modDie s k fun d => { d with pllOn := false, state := 3, logical := 0xF, starting := false, freq := 0, idleTicks := 0 }
  let s := modRec s fun r => { r with
    lostDies := r.lostDies ++ [die], diePhys := tput r.diePhys die k, lostCores := r.lostCores.filter fun c => !mine c }
  let s := match coldDie s with
    | some sp => modDie (modRec s fun r => { r with spareDie := 1 }) sp fun d => { d with state := 1 }
    | none => setDegraded s
  coresFreed (recomputeEnt s)

/-- DIE_LOST (R390); of a logical die whose spare is being tested, a second fault during its own recovery (R388, log 159). -/
def execDieLost (die : Nat) (s : State) : Outcome State Fault Refusal :=
  if !running s then .next s
  else match physDie s die with
    | some k => .next (loseDie s die k)
    | none => if s.recov.spareDie = 1 && s.recov.lostDies.head? = some die then .next (enterFatal s) else .next s

/-- The frequency at which a die that is brought up runs now (Table 1.12). -/
def baseFreq (s : State) : Nat := if s.pwr.service = 2 then 1100 else 550

/-- SPARE_DIE_READY (R391). -/
def execSpareDieReady (pass : Bool) (s : State) : Outcome State Fault Refusal :=
  let sp := s.clk.dies.find? fun e => e.2.state == 1 && !bit (carrier s).dieActive.toNat e.1
  match s.recov.spareDie == 1 && running s, sp, s.recov.lostDies with
  | true, some (k, _), die :: rest =>
    if pass then
      let old := getDie s (tget 0 s.recov.diePhys die)
      let s := modDie s k fun d => { d with
        state := 2, logical := die, pllOn := !s.pwr.inHold, freq := baseFreq s, keepWarm := old.keepWarm, holdoff := old.holdoff }
      let s := modRec s fun r => { r with
        spareDie := 2, lostDies := rest, corePhys := r.corePhys.filter fun e => e.1 / 128 != die }
      let s := { s with cores := tmap (fun c x => if c / 128 = die then { x with lost := false } else x) s.cores }
      let s := logEvent s 0x0B { cls := 4, kind := 2, unit := k } 0 none 0
      let s := saveCarrier s fun c => { c with
        dieActive := putBit (putBit c.dieActive (tget 0 s.recov.diePhys die) false) k true
        dieFailed := putBit c.dieFailed (tget 0 s.recov.diePhys die) true }
      .next (coresFreed (recomputeEnt s))
    else
      let s := modDie s k fun d => { d with state := 3 }
      .next (setDegraded (modRec s fun r => { r with spareDie := 3 }))
  | _, _, _ => .next s

/-! ### Stacks (R392, R393) -/

/-- Bytes of a stack. -/
def stackBytes : Nat := 2 ^ 36

/-- Whether a run of physical addresses meets a logical stack. -/
def onStack (k pa len : Nat) : Bool := overlap pa len (k * stackBytes) stackBytes

/-- Whether a context has a writable page or its save area on a stack. -/
def ctxOnStack (k : Nat) (x : Ctx) : Bool :=
  onStack k x.savePa (256 * x.saveGrains) || x.maps.any fun m => m.write && onStack k m.pa m.bytes

/-- Whether a page set has a grain on a stack. -/
def setOnStack (s : State) (k id : Nat) : Bool :=
  match tfind s.rollout.sets id with
  | none => false
  | some p =>
    match tfind s.models p.pool with
    | none => false
    | some m => (List.range p.grains).any fun g => onStack k (setPa m p g) 256

/-- Requests with a page set on a stack are evicted, a bound one at the end of its binding (R392, R315). -/
def evictOnStack (s : State) (k : Nat) : State :=
  let hit := s.rollout.requests.filter fun e => rqLive e.2 && e.2.sets.any (setOnStack s k)
  hit.foldl (fun s e => if e.2.bound then modReq s e.1 fun r => { r with evictOnEnd := true } else evictReq s e.1 false) s

/-- Requests that wait at their bank for a lost unit end as failed (R226). -/
def failPending (s : State) (p : Nat → Bool) : State :=
  (s.mem.reqs.filter fun e => (e.2.phase == .queued || e.2.phase == .waitBi) && (e.2.tier == 1 || e.2.tier == 2) && p e.2.pa).foldl
    (fun s e => if e.2.isWrite || unitLost s (servePa s e.2.pa) then afterReq (failReq s e.1) e.2.core else s) s

/-- Spare stacks not yet promised to a lost one. -/
def freeStacks (s : State) : List Nat :=
  let c := carrier s
  ((List.range 18).filter fun k => !bit c.stackFailed.toNat k && !bit c.stackActive.toNat k).drop s.recov.stackSpares.length

/-- A lost stack gets a spare, or the module is degraded. -/
def askStack (s : State) (k : Nat) : State :=
  if (freeStacks s).isEmpty then setDegraded s else modRec s fun r => { r with stackSpares := r.stackSpares ++ [k] }

/-- A logical stack is lost (R392 steps 1 to 3). Its contexts are torn down with code 0x09, not restarted. -/
def loseStack (s : State) (k : Nat) : State :=
  let s := logEvent (countFault s 3) 0x0C { cls := 3, kind := 3, unit := physStack s k } 0 none 0
  let s := modRec s fun r => { r with lostStacks := insertAsc k r.lostStacks }
  let s := failPending s fun pa => tierOf pa == 1 && stackOf pa == k
  let s := (ctxsWhere s fun x => ctxActive x && ctxOnStack k x).foldl
    (fun s n => beginTeardown (setFaultRec s n (lossRec s 0x3FF)) n (some fcUnitLost)) s
  askStack (evictOnStack s k) k

/-- STACK_LOST (R392); of a stack whose spare is being trained, a second fault during its own recovery (R388, log 159). -/
def execStackLost (stack : Nat) (s : State) : Outcome State Fault Refusal :=
  if !running s || 16 ≤ stack then .next s
  else if !s.recov.lostStacks.contains stack then .next (loseStack s stack)
  else if s.recov.stackSpares.contains stack then .next (enterFatal s) else .next s

/-- The grains of a layer that lie on a stack, by their offsets in the model. -/
def layerOnStack (k : Nat) (m : Model) (l : Layer) : List Nat :=
  ((List.range l.grains).map fun i => l.offset + 256 * i).filter fun off =>
    onStack k (m.layerPages.getD (off / pageBytes) 0 * pageBytes) pageBytes

/-- A layer of a model is read again from the source image of the epoch that it holds, where it lay on a stack; each tile read is counted
(Table 8.9). -/
def rereadLayer (s : State) (k : Nat) (m : Model) (l : Layer) : State :=
  let offs := layerOnStack k m l
  let tiles := (offs.map fun off =>
    (tileSpan s (m.layerPages.getD (off / pageBytes) 0 * pageBytes + off % pageBytes) l off).1).eraseDups
  modMem (offs.foldl (fun s off => rewriteGrain s m l off) s) fun x => { x with refetches := x.refetches + tiles.length }

/-- Model layers that lay on a stack are read again, and mirrors made again (R392). -/
def rebuildModels (s : State) (k : Nat) : State :=
  let s := s.models.foldl (fun s e => if mdlAlive e.2 then e.2.layers.foldl (fun s l => rereadLayer s k e.2 l) s else s) s
  s.models.foldl (fun s e =>
    if e.2.mirrored then
      (e.2.layerPages.zip e.2.mirrorPages).foldl (fun s pr =>
        if onStack k (pr.2 * pageBytes) pageBytes then
          (List.range 8192).foldl (fun s g =>
            let a := pr.1 * pageBytes + 256 * g
            storeGrain s (pr.2 * pageBytes + 256 * g) (grainAt s a) (tagAt s a)) s
        else s) s
    else s) s

/-- Whether a virtual run of a context has a grain on a stack. -/
def runOnStack (s : State) (n k va grains : Nat) : Bool :=
  (List.range grains).any fun i => match translate s n (va + 256 * i) false with
    | .ok pa => onStack k pa 256
    | .error _ => false

/-- The valid bank with the higher step of a mirror record: bank and step (Table 9.7). -/
def bestBank (bs : List Byte) : Option (Nat × Nat) :=
  let w := gword bs 0
  let st := gword bs 1
  match bit w 0, bit w 1 with
  | false, false => none
  | true, false => some (0, bits st 31 0)
  | false, true => some (1, bits st 63 32)
  | true, true => if bits st 31 0 < bits st 63 32 then some (1, bits st 63 32) else some (0, bits st 31 0)

/-- A step that names no rebuild (R393). -/
def notRebuilt : Nat := 0xFFFFFFFF

/-- Steps 1 to 3 of R393, for a tensor of context `n`. -/
def rebuildFrom (s : State) (n : Nat) (p : UpdParams) (t : Tensor) (bank step : Nat) : State :=
  let s := (bankRuns p t bank).foldl (fun s r => (List.range r.2.2).foldl (fun s i =>
    let (d, tag, s) := engineRead s n (r.2.1 + 256 * i)
    engineWrite s n (r.1 + 256 * i) d tag) s) s
  let s :=
    if p.wfmt = 0 then s
    else
      let (w, _, s) := fetchRows s n t.base 1 t.d0 t.rows
      writeCopy s n p.wc p.wfmt w
  writeUpdState s n p { seen := true, delay := 0, last := step, slots := List.replicate 4 (0, 0) }

/-- What the state of a tensor is in tier 1: master, moment, factors, working copy, state grain and slots. -/
def tensorOnStack (s : State) (n k : Nat) (p : UpdParams) (d : UpdDesc) (t : Tensor) : Bool :=
  (paramRuns p d t).any fun r => r.2.2.1 == some true && runOnStack s n k r.1 r.2.1

/-- Rebuilds one trickle-mirrored tensor, its context's mappings in place for the time of it; answers the step, if there was
anything to rebuild. -/
def rebuildOne (s : State) (k : Nat) (m : MirrorNote) : Option Nat × State :=
  let n := m.ctx
  match tensorOf m.tensor with
  | none => (none, s)
  | some t =>
    let d : UpdDesc := { op := 0, params := m.params, contrib := 0, ntags := 0, lossExp := 0, ls := 0, outcome := 0, init := false, out := 0 }
    match readParams s n d t with
    | (.error _, s) => (if runOnStack s n k t.base t.dataGrains then some notRebuilt else none, s)
    | (.ok p, s) =>
      if !tensorOnStack s n k p d t then (none, s)
      else if 0 < p.delay then (some notRebuilt, s)
      else
        let (bs, bad, _, s) := fetchGrain s n p.mirrorVa
        match if bad then none else bestBank bs with
        | none => (some notRebuilt, s)
        | some (bank, step) => (some step, rebuildFrom s n p t bank step)

/-- DETAIL of a REBUILT entry: it names the master's physical address and the step (R393), which together are wider than the word. The
number of the master's tier 1 grain takes [63:32], the step [31:0] (DESIGN CHOICE, log 160). -/
def rebuiltDetail (s : State) (m : MirrorNote) (step : Nat) : Nat :=
  match translate s m.ctx (fld (dw m.tensor 0) 47 0) false with
  | .ok pa => (pa / 256 % 2 ^ 32) * 2 ^ 32 + step
  | .error _ => step

/-- The rebuild of R393, with its log entries. -/
def rebuildTensors (s : State) (k : Nat) : State :=
  s.upd.mirrored.foldl (fun s m =>
    let kept := getCtx s m.ctx
    let s := setCtx s m.ctx { Ctx.reset with part := m.part, priv := true, maps := m.maps }
    let (done, s) := rebuildOne s k m
    let detail := rebuiltDetail s m (done.getD 0)
    let s := setCtx s m.ctx kept
    if done.isSome then logEvent s 0x12 noUnit m.part none detail else s) s

/-- A spare stack that has passed takes the lost logical index (R392 step 4). -/
def placeStack (s : State) (k sp : Nat) : State :=
  let s := freezeStacks s
  let old := physStack s k
  let s := modRec s fun r => { r with
    stackPhys := tput r.stackPhys k sp, lostStacks := r.lostStacks.filter fun x => x != k
    stackSpares := r.stackSpares.filter fun x => x != k }
  let s := scrubRange s (k * stackBytes) stackBytes
  let s := logEvent s 0x0D { cls := 3, kind := 3, unit := sp } 0 none 0
  let s := saveCarrier s fun c => { c with
    stackActive := putBit (putBit c.stackActive old false) sp true, stackFailed := putBit c.stackFailed old true }
  rebuildTensors (rebuildModels s k) k

/-- SPARE_STACK_READY (R392). -/
def execSpareStackReady (stack : Nat) (pass : Bool) (s : State) : Outcome State Fault Refusal :=
  let c := carrier s
  let sp := (List.range 18).find? fun k => !bit c.stackFailed.toNat k && !bit c.stackActive.toNat k
  match running s && s.recov.stackSpares.contains stack, sp with
  | true, some sp =>
    if pass then .next (placeStack s stack sp)
    else
      let s := modRec (freezeStacks s) fun r => { r with stackSpares := r.stackSpares.filter fun x => x != stack }
      .next (askStack (saveCarrier s fun c => { c with stackFailed := putBit c.stackFailed sp true }) stack)
  | _, _ => .next s

/-! ### Channels (R394) -/

/-- CHANNEL_LOST (R394). -/
def execChannelLost (chan : Nat) (s : State) : Outcome State Fault Refusal :=
  if !running s || 64 ≤ chan || s.recov.lostChannels.contains chan then .next s
  else
    let s := logEvent (countFault s 4) 0x0E { cls := 3, kind := 4, unit := chan } 0 none 0
    let s := modRec s fun r => { r with lostChannels := insertAsc chan r.lostChannels }
    let s := failPending s fun pa => tierOf pa == 2 && (channelOf s.mem.hintGroups pa).1 == chan
    .next (setDegraded s)

/-! ### Hub paths (R395, R15) -/

/-- The log names a hub unit by its hub die; a bridge group by number in DETAIL. -/
def hubLog : HubUnit → LogUnit × Nat
  | .bridgeGroup g => ({ cls := 3, kind := 0, unit := 0 }, g)
  | .movement h => ({ cls := 3, kind := 6, unit := h }, 0)
  | .translation h => ({ cls := 3, kind := 6, unit := h }, 0)
  | .port p => ({ cls := 3, kind := 6, unit := p / 2 }, p)
  | .die h => ({ cls := 5, kind := 6, unit := h }, 0)

/-- The hub die of a unit; a bridge group's work goes over another bridge. -/
def hubOf : HubUnit → Nat
  | .bridgeGroup _ => 0
  | .movement h => h
  | .translation h => h
  | .port p => p / 2
  | .die h => h

/-- A grain that an engine's move has not landed is issued again, and its source read again (R395): at its bank, or under a new TXN at its
peer, or to the host. -/
def reissueMove (s : State) (id : Nat) : State :=
  match getMReq s id with
  | none => s
  | some r =>
    let s := modPeers s fun p => { p with txns := p.txns.filter fun e => e.2 != id }
    let r := { r with phase := .queued }
    let s := setMReq s id r
    match r.tier with
    | 3 => if peerGone s (peerOfPa r.pa) then failReq s id else sendToPeer s id r
    | 4 => sendToHost s id r
    | _ => s

/-- The moves of a hub die's engine are issued again from what has not landed. -/
def reissueMoves (s : State) (h : Nat) : State :=
  (s.mem.reqs.filter fun e => e.2.source == 1040 + h && !e.2.isWrite && e.2.tier != 0 &&
    (e.2.phase == .served || (e.2.phase == .queued && (e.2.tier == 3 || e.2.tier == 4)))).foldl (fun s e => reissueMove s e.1) s

/-- 20 µs: the bound of class H (Table 16.3), within which the model takes a hub unit to be in recovery (log 159). -/
def hubRecovery : Nat := 960

/-- Whether a hub unit recovers from its loss now. -/
def hubRecovers (s : State) (u : HubUnit) : Bool := s.recov.rerouted.any fun e => e.1 == u && decide (now s ≤ e.2.2 + hubRecovery)

/-- A failed hub unit's work moves to another hub die (R395); a second fault during its recovery, and the loss of a whole hub die, are
FATAL (R388). -/
def loseHubUnit (s : State) (u : HubUnit) : State :=
  let moved (s : State) : State := modRec s fun r => { r with rerouted := r.rerouted ++ [(u, (hubOf u + 1) % 4, now s)] }
  if hubRecovers s u then enterFatal s
  else if s.recov.rerouted.any fun e => e.1 == u then s
  else match u with
    | .die _ => enterFatal s
    | .port p => portDown (logEvent (countFault s 2) 0x0F (hubLog u).1 0 none (hubLog u).2) p
    | .movement h => moved (reissueMoves (logEvent (countFault s 2) 0x0F (hubLog u).1 0 none (hubLog u).2) h)
    | _ => moved (logEvent (countFault s 2) 0x0F (hubLog u).1 0 none (hubLog u).2)

/-- Whether a hub unit exists. -/
def hubUnitOk : HubUnit → Bool
  | .bridgeGroup g => decide (g < 4096)
  | .movement h => decide (h < 4)
  | .translation h => decide (h < 4)
  | .port p => decide (p < 8)
  | .die h => decide (h < 4)

/-- HUB_PATH_FAULT (R395). -/
def execHubPathFault (u : HubUnit) (s : State) : Outcome State Fault Refusal :=
  if running s && hubUnitOk u then .next (loseHubUnit s u) else .next s

/-- BRIDGE_LANE_SWAP (R15): the first lane of a group; the loss of a second one is a hub-path fault. -/
def execBridgeLaneSwap (group lane : Nat) (s : State) : Outcome State Fault Refusal :=
  let used := match tfind (carrier s).bridgeMap group with | some (failed, l) => failed || l != 0xF | none => false
  if !running s || 4096 ≤ group || 12 ≤ lane || thas s.recov.bridgeSwaps group || used then .next s
  else
    let s := modRec (countFault s 0) fun r => { r with bridgeSwaps := tput r.bridgeSwaps group lane }
    .next (logEvent s 0x05 { cls := 1, kind := 0, unit := 0 } 0 none lane)

/-! ### The control complex (R399 to R401) -/

/-- A control core restarts; a second fault of it meanwhile is FATAL (R388). The incomplete entries of its journal are replayed when the
restart ends (R401). -/
def restartCore (s : State) (cc : Nat) : State :=
  if s.recov.restarting.contains cc then enterFatal s
  else
    let open_ := (openEntries s cc).length
    let s := modRec s fun r => { r with
      restarting := r.restarting ++ [cc], ctlRestarts := r.ctlRestarts + 1, journalReplayed := r.journalReplayed + open_ }
    let s := if s.sec.fwStep = cc then modSec s fun x => { x with fwPaused := false } else s
    let s := onControls s cc (parkControl s)
    logEvent s 0x10 { cls := 3, kind := 7, unit := cc } 0 none 0

/-- WATCHDOG_EXPIRY (R399). -/
def execWatchdogExpiry (cc : Nat) (s : State) : Outcome State Fault Refusal :=
  if running s && decide (cc < 16) then .next (restartCore s cc) else .next s

/-! ### SRAM errors (R383) -/

/-- The log's unit of an SRAM error. -/
def sramUnit (s : State) : SramPlace → LogUnit
  | .scratchpad c _ => { cls := 0, kind := 1, unit := physCore s c }
  | .coreState c => { cls := 0, kind := 1, unit := physCore s c }
  | .translationCache h => { cls := 0, kind := 6, unit := h }
  | .hubOther h => { cls := 0, kind := 6, unit := h }
  | .controlCore cc => { cls := 0, kind := 7, unit := cc }
  | .alwaysOn => noUnit

/-- What the error does where it lies. -/
def sramEffect (s : State) : SramPlace → State
  | .scratchpad c u => if coreInService s c && decide (u < 8192) then modCore s c fun x => spMark x (256 * u) 256 else s
  | .coreState c => if coreInService s c then loseCore s c else s
  | .translationCache _ => s
  | .hubOther h => loseHubUnit s (.movement (h % 4))
  | .controlCore cc => restartCore s (cc % 16)
  | .alwaysOn => enterFatal s

/-- SRAM_UNCORRECTABLE (R383, R388). -/
def execSramUncorrectable (place : SramPlace) (s : State) : Outcome State Fault Refusal :=
  if !running s then .next s
  else
    let s := modRec s fun r => { r with sramUe := r.sramUe + 1 }
    .next (sramEffect (logEvent s 0x02 (sramUnit s place) 0 none 0) place)

end Machine
end Sys2Proof
end

