-- ==== Sys2Proof/Machine/Records.lean ====
section
/-! DEFINITION. Firmware images and their acceptance (R451), and the measurement blocks (Tables 19.3, 19.11). -/

namespace Sys2Proof
namespace Machine

/-! ### Firmware images (R451, Table 19.4) -/

/-- Word `i` of the header of an image. -/
def imgWord (bs : List Byte) (i : Nat) : Nat := leNat (slice bs (8 * i) 8)

def codeBytes (bs : List Byte) : Nat := bits (imgWord bs 2) 31 0

/-- Where the first signature starts: the grain after the body. -/
def sigAt (bs : List Byte) : Nat := 256 + cdiv (codeBytes bs) 256 * 256

/-- Header and body. -/
def imgBody (bs : List Byte) : List Byte := bs.take (256 + codeBytes bs)

/-- Results of a check of an image (Table 19.10, SEC.FW_STATUS). -/
def fwOk : Nat := 0
def fwBadSig : Nat := 1
def fwBadVersion : Nat := 2
def fwSelfCheck : Nat := 3
def fwRefused : Nat := 4

/-- Whether the header is formed as Table 19.4 says, its VERSION apart. -/
def imgForm (bs : List Byte) : Bool :=
  bits (imgWord bs 0) 55 32 == 0 && bits (imgWord bs 1) 63 32 == 0 && bits (imgWord bs 2) 63 32 == 0 &&
  ((slice bs 24 232).all fun b => b == 0) && decide (0 < codeBytes bs) && decide (codeBytes bs ≤ 0x1000000) &&
  decide (sigAt bs + sigBytes ≤ bs.length)

/-- Where the custodian's signature starts: at the next grain boundary. -/
def cosigAt (bs : List Byte) : Nat := cdiv (sigAt bs + sigBytes) 256 * 256

/-- The check of R451 on copied bytes. -/
def checkImage (p : Protection) (bs : List Byte) : Nat :=
  let d := shake256 (imgBody bs)
  if bits (imgWord bs 0) 63 56 != 1 then fwBadVersion
  else if !imgForm bs || !Config.slhVerify Config.fwKey ctxFw d (slice bs (sigAt bs) sigBytes) then fwBadSig
  else if p.cosign && !Config.slhVerify p.custodianKey ctxFw d (slice bs (cosigAt bs) sigBytes) then fwBadSig
  else if bits (imgWord bs 0) 31 0 < p.minFw then fwBadVersion else fwOk

/-- The acceptance of the image in a slot: of the shipped one, Nugardel's signature alone holds (log 7). -/
def imageResult (s : State) (i : FwImage) : Nat :=
  let p := s.sec.prot
  if i.bytes.isEmpty then
    if i.accepted != 1 || p.cosign then fwBadSig else if i.fwVersion < p.minFw then fwBadVersion else fwOk
  else checkImage p i.bytes

/-- An image as VERIFY copies it. -/
def readImg (bs : List Byte) : FwImage :=
  { bytes := bs, fwVersion := bits (imgWord bs 0) 31 0, tableVersion := bits (imgWord bs 1) 31 0, accepted := 0 }

/-- Header and body of an image. -/
def imageBody (i : FwImage) : List Byte := if i.bytes.isEmpty then Config.shippedImage else imgBody i.bytes

/-! ### Measurement blocks (Tables 19.3, 19.11) -/

/-- Whether the module is in recovery. -/
def inRecovery (s : State) : Bool := s.pwr.service == 3

/-- Whether the protection record has been read: its key is at hand. -/
def protRead (s : State) : Bool := !inRecovery s || s.pwr.bootCode == 3

/-- The digest of a block's subject; of an absent one, zeros. -/
def digestOf (o : Option (List Byte)) : List Byte := match o with | none => zeros 64 | some bs => shake256 bs

/-- The subject of a carrier record copy as read. -/
def copyBody (c : Carrier) (k : CopyCheck) : Option (List Byte) := if k = .unreadable then none else some (carrierBody c)

/-- The subject of block `k`. -/
def blockSubject (s : State) (k : Nat) : Option (List Byte) :=
  match k with
  | 1 => some Config.bootRom
  | 2 => if inRecovery s then none else s.sec.fwRunning.map imageBody
  | 3 => if inRecovery s && s.pwr.bootCode == 1 then none else some (carrierBody (carrier s))
  | 4 => if protRead s then some (Config.protBody (protNats s.sec.prot)) else none
  | 5 => if protRead s then some (leBytes 8 s.sec.prot.cfgSeq) else none
  | 6 => copyBody s.pwr.copyA s.pwr.checkA
  | 7 => copyBody s.pwr.copyB s.pwr.checkB
  | 8 => (tfind s.sec.fwSlots 0).map imageBody
  | _ => (tfind s.sec.fwSlots 1).map imageBody

/-- Blocks that there are. -/
def blockCount (s : State) : Nat := if inRecovery s then 9 else 5

def measureBlock (s : State) (k : Nat) : List Byte := digestOf (blockSubject s k)

/-- PWR.BOOT (Table 18.11). -/
def bootReg (p : Power) : Nat :=
  (if p.service = 3 then 0xF else p.stage) <<< 28 + p.bootCode <<< 24 + min p.failedUnits 0xFFFF

/-- REC_A and REC_B (Table 19.12). -/
def recCode : CopyCheck → Nat
  | .valid => 0
  | .badSig => 1
  | .unreadable => 2
  | .badForm => 3

/-- FW_VERSION of a slot; 0 when there is no image. -/
def slotVersion (s : State) (k : Nat) : Nat := match tfind s.sec.fwSlots k with | none => 0 | some i => i.fwVersion

/-- Acceptance of a slot, coded as RESULT; an empty slot carries no valid signature. -/
def imgSlotResult (s : State) (k : Nat) : Nat := match tfind s.sec.fwSlots k with | none => fwBadSig | some i => imageResult s i

/-- The RECOVERY_INFO response (Table 19.12). -/
def recoveryBytes (s : State) : List Byte :=
  let p := s.pwr
  let seq (c : Carrier) (k : CopyCheck) : Nat := if k = .unreadable then 0 else c.seq
  w8 (bootReg p) ++ w8 (seq p.copyB p.checkB <<< 32 + seq p.copyA p.checkA) ++
  w8 (s.sec.activeSlot <<< 17 + b2n p.idOk <<< 16 + recCode p.checkB <<< 8 + recCode p.checkA) ++
  w8 (slotVersion s 1 <<< 32 + slotVersion s 0) ++ w8 (imgSlotResult s 1 <<< 4 + imgSlotResult s 0) ++ zeros 24

end Machine
end Sys2Proof
end

