-- ==== Sys2Proof/Machine/Firmware.lean ====
section
/-! DEFINITION. Firmware replacement (R451, R452, Table 19.5). -/

namespace Sys2Proof
namespace Machine

open Host

/-- States of SEC.FW_STATUS (Table 19.10). -/
def fsIdle : Nat := 0
def fsBusy : Nat := 1
def fsVerified : Nat := 2
def fsActive : Nat := 3

/-- Ends what FW_CTL started. -/
def fwEnd (s : State) (state result : Nat) : State :=
  modSec s fun x => { x with fwState := state, fwResult := result, fwMode := 0, fwPaused := false }

/-- FW_CTL is written while FW_STATUS is BUSY: ignored, counted. -/
def fwIgnore (s : State) : State := modSec s fun x => { x with fwIgnored := satInc 16 x.fwIgnored }

/-- Whether a staged image may be read where it lies (R452): in a window of partition 0, or in the host window. -/
def stageOk (s : State) (pa len : Nat) : Bool :=
  (decide (hostBase ≤ pa) && decide (pa + len ≤ paEnd)) || (partEnabled s 0 && inWindows s 0 pa len)

/-- The flash slot that is not marked active. -/
def otherSlot (s : State) : Nat := 1 - s.sec.activeSlot

/-- FW_VERIFY (R452 step 1): the image is copied; its check ends with FW_VERIFY_DONE. One that reads poisoned carries no valid signature
(DESIGN CHOICE, log 158). -/
def execFwVerify (s : State) : Outcome State Fault Refusal :=
  if !hostUp s then .next s
  else if s.sec.fwState = fsBusy then .next (fwIgnore s)
  else if !stageOk s s.sec.stagePa s.sec.fwBytes then .next (fwEnd s fsIdle fwRefused)
  else
    let (bs, bad, s) := fwFetch s s.sec.stagePa s.sec.fwBytes
    if bad then .next (fwEnd s fsIdle fwBadSig)
    else .next (modSec s fun x => { x with fwState := fsBusy, fwSlots := tput x.fwSlots (otherSlot s) (readImg bs) })

/-- The image in the inactive slot. -/
def stagedImage (s : State) : FwImage := tget FwImage.shipped s.sec.fwSlots (otherSlot s)

/-- FW_VERIFY_DONE (R451). -/
def execFwVerifyDone (s : State) : Outcome State Fault Refusal :=
  if !running s || s.sec.fwState != fsBusy || s.sec.fwMode != 0 then .next s
  else
    let r := imageResult s (stagedImage s)
    .next (fwEnd s (if r = fwOk then fsVerified else fsIdle) r)

/-- TABLE_VERSION of the running image. -/
def runningTable (s : State) : Option Nat := s.sec.fwRunning.map fun i => i.tableVersion

/-- The slot of the staged image is marked active. -/
def markActive (s : State) : State :=
  fwEnd (modSec s fun x => { x with activeSlot := otherSlot s }) fsActive fwOk

/-- Whether the policy as it is now still admits the staged image: its version, and the custodian's signature once COSIGN is 1: no
image runs without it (Table 19.5). -/
def stillAdmitted (s : State) (i : FwImage) : Bool :=
  decide (s.sec.prot.minFw ≤ i.fwVersion) && (!s.sec.prot.cosign || imageResult s i == fwOk)

/-- An activation begins (R452 steps 2 and 3, Table 19.5). -/
def startActivate (s : State) : State :=
  let i := stagedImage s
  if !stillAdmitted s i then fwEnd s fsIdle fwRefused
  else if inRecovery s || runningTable s != some i.tableVersion then markActive s
  else modSec s fun x => { x with fwState := fsBusy, fwMode := 2, fwStep := 0, switched := [] }

/-- Whether a change record is applying. -/
def applying (s : State) : Bool := s.sec.slots.any fun e => e.2.state == 3

/-- FW_ACTIVATE (R452): it waits for a change record that is applying. With no verified image it is refused. -/
def execFwActivate (s : State) : Outcome State Fault Refusal :=
  if !hostUp s then .next s
  else if s.sec.fwState = fsBusy then .next (fwIgnore s)
  else if s.sec.fwState != fsVerified then .next (modSec s fun x => { x with fwResult := fwRefused })
  else if applying s then .next (modSec s fun x => { x with fwState := fsBusy, fwMode := 1 })
  else .next (startActivate s)

/-- The last control core has switched: the new image runs and its slot is active. -/
def finishSwitch (s : State) : State :=
  let i := stagedImage s
  markActive (modSec s fun x => { x with fwRunning := some i })

/-- The control core whose turn it is pauses: its control threads park and its doorbells wait. -/
def pauseCore (s : State) : State :=
  onControls (modSec s fun x => { x with fwPaused := true }) s.sec.fwStep (parkControl s)

/-- Its pause ends. -/
def resumeCore (s : State) : State :=
  let s' := modSec s fun x => { x with fwPaused := false }
  if s'.recov.restarting.contains s.sec.fwStep then s' else onControls (firmwareGoesOn s') s.sec.fwStep wakeControl

/-- The paused core has loaded the new image and goes on; after the last one the activation ends. -/
def switchCore (s : State) : State :=
  let k := s.sec.fwStep
  let s := modSec (resumeCore s) fun x => { x with fwStep := k + 1, switched := x.switched ++ [k] }
  if k = 15 then finishSwitch s else s

/-- FW_CORE_SWITCH (R452 step 2): the control core whose turn it is pauses, once its journal holds no incomplete entry; the next such
command finds it paused, with the new image in its hub SRAM, and it goes on (DESIGN CHOICE: two commands to a core, log 152). A failed
self-check of the first core ends the activation, with that core back on the old image. -/
def execFwCoreSwitch (selfCheckOk : Bool) (s : State) : Outcome State Fault Refusal :=
  let k := s.sec.fwStep
  if !running s || s.sec.fwMode != 2 then .next s
  else if !s.sec.fwPaused then
    if !(openEntries s k).isEmpty then .next s else .next (pauseCore s)
  else if k = 0 && !selfCheckOk then .next (fwEnd (resumeCore s) fsIdle fwSelfCheck)
  else .next (switchCore s)

end Machine
end Sys2Proof
end

