-- ==== Sys2Proof/Machine/Queues.lean ====
section
/-! DEFINITION. Queue instructions (R140 to R144) and the queue messages of peers (R64, R69, R461). -/

namespace Sys2Proof
namespace Machine

open Host

/-! ### QCFG (R140, R61, R461) -/

def rowQcfg : Row :=
  { cls := 3, maj := 0, sub := always, regs := regs4 .s .s .s .none, cores := false, ctl := true, ext := false,
    legal := fun w => bits (iImm w) 31 5 == 0 }

/-- The QCONFIG that a module holds for an endpoint from the partner end that a word names. -/
def heldPartner (s : State) (c ep : Nat) (v : Word) : Option HeldCfg :=
  match (getEp (getCore s c) ep).heldCfg with
  | none => none
  | some h => if h.peer = cfgPeer v && h.core = cfgCore v && h.ep = cfgEp v then some h else none

/-- Whether a configuration word may be written, across modules too. -/
def qcfgOk (s : State) (c ep : Nat) (v : Word) : Bool :=
  cfgOk s c ep v && (cfgDir v == 0 || !cfgRemote v || match heldPartner s c ep v with
    | none => true
    | some h => remotePairOk s c ep v h)

/-- Whether the QCONFIG of an end has not left the module: it waits at a port for credit (R461 step 1). -/
def qconfigWaits (s : State) (c ep : Nat) : Bool :=
  s.ports.any fun e => e.2.txWait.any fun q => match q.msg with
    | .qconfig _ core k _ _ false => core == c % 1024 && k == ep
    | _ => false

/-- Writes a checked word: the old end closes first. -/
def qcfgWrite (s : State) (c ep : Nat) (v : Word) : State := writeCfg (closeEnd s c ep true) c ep v

def execQcfg (a : Agent) (w : Word) (s : State) : Outcome State Fault Refusal :=
  runInstr rowQcfg a w (fun n s =>
    match (threadOf s a).woken with
    | some 0 => doneRc s a w rcOk
    | some _ => descFault
    | none =>
      let c := (sOf s a (iSrc1 w)).toNat
      let v := sOf s a (iSrc2 w)
      let ep := bits (iImm w) 4 0
      if !(getCtx s n).coreset.contains c || !qcfgOk s c ep v then descFault
      else
        let held := heldPartner s c ep v
        let s := qcfgWrite s c ep v
        if cfgDir v = 0 then doneRc s a w rcOk
        else if cfgRemote v then
          let s := sendQconfig s c ep false
          match held with
          | none => if qconfigWaits s c ep then .park s 4 (.qconfigOut c ep) else doneRc s a w rcOk
          | some h => .park (openEndAt s c ep h.word none) 4 (.qconfig c ep)
        else doneRc (tryOpen s c ep) a w rcOk) s

/-! ### QSEND (R141, R64 to R66) -/

def rowQsend : Row :=
  { cls := 3, maj := 1, sub := always,
    regs := fun w => { dst := .s, src1 := .q, src2 := .s, src3 := if bit (iImm w) 7 then .s else .none },
    cores := true, ctl := false, ext := false,
    legal := fun w => bits (iImm w) 31 8 == 0 && (bit (iImm w) 7 || decide (bits (iImm w) 6 0 ≤ 64)) }

/-- Words of a QSEND. -/
def qsendCount (s : State) (a : Agent) (w : Word) : Nat :=
  if bit (iImm w) 7 then fld (sOf s a (iSrc3 w)) 6 0 else bits (iImm w) 6 0

/-- A word of a packet as it leaves the core. -/
def qwordAt (x : Core) (off i n : Nat) : QWord :=
  { data := spRead x (off + 64 * i) 64, poison := spPoisoned x (off + 64 * i) 64, first := i == 0, last := i + 1 == n,
    truncated := false }

/-- One word of a packet leaves its send end: toward the partner on this module, or into the flit for the peer (R69). -/
def sendWord (s : State) (c ep : Nat) (q : QWord) : State :=
  let e := getEp (getCore s c) ep
  let s := modCore s c fun x => setEp x ep { e with credits := e.credits - 1, sentWords := e.sentWords + 1 }
  if cfgRemote e.cfg then
    let s := modCore s c fun x => let f := getEp x ep; setEp x ep { f with flit := f.flit ++ [q] }
    if q.last || (getEp (getCore s c) ep).flit.length = 4 then flushFlit s c ep else s
  else match localPartner s c ep e.cfg with
    | none => s
    | some (pc, pe) => modCore s pc fun x => let f := getEp x pe; setEp x pe { f with inFlight := f.inFlight ++ [q] }

/-- Sends words `i` to `i + k - 1` of a packet of `n`. -/
def sendWords (s : State) (c ep off n : Nat) : Nat → Nat → State
  | _, 0 => s
  | i, k + 1 => sendWords (sendWord s c ep (qwordAt (getCore s c) off i n)) c ep off n (i + 1) k

/-- Counts a packet sent at a teacher's marked send end (Table 14.3). -/
def dstSent (s : State) (n ep words : Nat) : State :=
  modCtx s n fun x =>
    if x.dst.role = 1 && bit x.dst.epMask ep && decide (0 < words) then
      { x with dst := { x.dst with packets := x.dst.packets + 1, words := x.dst.words + words } }
    else x

/-- A send goes on from the words that have left: as many words as there is credit for. -/
def qsendRun (s : State) (a : Agent) (n c thr ep off words : Nat) (w : Word) : IRes :=
  let e := getEp (getCore s c) ep
  let sent := (threadOf s a).sent
  if e.closed then doneRc s a w rcClosed
  else if words = 0 then doneRc s a w rcOk
  else if e.sender.isSome && e.sender != some thr then .park s 2 (.credit ep)
  else
    let k := min e.credits (words - sent)
    let s := sendWords s c ep off words sent k
    if sent + k = words then
      let s := modCore s c fun x => let f := getEp x ep; setEp x ep { f with sender := none }
      let s := if 0 < (getEp (getCore s c) ep).credits then wakeCore s c fun t p => t != thr && p == .credit ep else s
      doneRc (dstSent s n ep words) a w rcOk
    else
      let s := modThread s a fun t => { t with sent := sent + k }
      let s := modCore s c fun x =>
        let f := getEp x ep
        setEp x ep { f with sender := if 0 < sent + k then some thr else f.sender }
      .park s 2 (.credit ep)

def execQsend (a : Agent) (w : Word) (s : State) : Outcome State Fault Refusal :=
  runInstr rowQsend a w (fun n s => onCore a fun c thr =>
    match (threadOf s a).woken with
    | some v => doneRc s a w v
    | none =>
      let ep := iSrc1 w
      let e := getEp (getCore s c) ep
      let words := qsendCount s a w
      let off := (sOf s a (iSrc2 w)).toNat / 64 * 64
      if decide (0 < (threadOf s a).sent) && e.sender != some thr then doneRc s a w rcClosed
      else if cfgDir e.cfg != 2 || decide (cfgMaxWords e.cfg < words) || (words != 0 && decide (spSize < off + 64 * words)) then descFault
      else guarded s (guardSp s c thr (if words = 0 then [] else [(off, 64 * words)]) []) fun s =>
        qsendRun s a n c thr ep off words w) s

/-! ### QRECV, QHELD, QREL (R142, R143, R67) -/

/-- The receive result (Table 6.3). -/
def recvResult (e : Endpoint) (p : Packet) : Word :=
  w64 (b2n p.poison <<< 63 + b2n p.truncated <<< 62 + (p.num % 65536) <<< 32 + (packetOff e p / 64) <<< 17 + rcOk <<< 8 + p.words)

/-- A receive result that names no packet. -/
def recvNone (rc : Nat) : Word := w64 (rc <<< 8)

def rowQrecv : Row :=
  { cls := 3, maj := 2, sub := always, regs := regs4 .s .q .none .none, cores := true, ctl := false, ext := false,
    legal := fun w => iImm w == 0 }

def execQrecv (a : Agent) (w : Word) (s : State) : Outcome State Fault Refusal :=
  runInstr rowQrecv a w (fun _ s => onCore a fun c thr =>
    match (threadOf s a).woken with
    | some v => .done (putS s a (iDst w) (recvNone v))
    | none =>
      let ep := iSrc1 w
      let x := getCore s c
      let e := getEp x ep
      if cfgDir e.cfg != 1 || declared x 0 ep then descFault
      else match unclaimed e with
        | p :: _ =>
          let s := touchCore (modCore s c fun x => claimPackets x ep thr 1) c
          .done (putS s a (iDst w) (recvResult e p))
        | [] => if e.closed then .done (putS s a (iDst w) (recvNone rcClosed)) else .park s 1 (.packet ep)) s

/-- Packets that a thread holds from an endpoint, oldest first. -/
def heldPackets (x : Core) (thr ep : Nat) : List Packet :=
  ((getThread x thr).packets.filter fun q => q.1 == ep).filterMap fun q => (getEp x ep).packets.find? fun p => p.num == q.2

def rowQheld : Row :=
  { cls := 3, maj := 3, sub := always, regs := regs4 .s .q .none .none, cores := true, ctl := false, ext := false,
    legal := fun w => bits (iImm w) 31 4 == 0 }

def execQheld (a : Agent) (w : Word) (s : State) : Outcome State Fault Refusal :=
  runInstr rowQheld a w (fun _ s => onCore a fun c thr =>
    let x := getCore s c
    match (heldPackets x thr (iSrc1 w))[bits (iImm w) 3 0]? with
    | some p => .done (putS s a (iDst w) (recvResult (getEp x (iSrc1 w)) p))
    | none => .done (putS s a (iDst w) (recvNone rcNoneHeld))) s

def rowQrel : Row :=
  { cls := 3, maj := 4, sub := always, regs := regs4 .s .q .none .none, cores := true, ctl := false, ext := false,
    legal := fun w => iImm w == 0 }

/-- The thread no longer holds a packet. -/
def dropHeld (s : State) (a : Agent) (ep num : Nat) : State :=
  modThread s a fun t => { t with packets := t.packets.filter fun q => q != (ep, num) }

def execQrel (a : Agent) (w : Word) (s : State) : Outcome State Fault Refusal :=
  runInstr rowQrel a w (fun _ s => onCore a fun c thr =>
    match heldPackets (getCore s c) thr (iSrc1 w) with
    | [] => doneRc s a w rcNoneHeld
    | p :: _ => doneRc (dropHeld (releasePacket s c (iSrc1 w) p.num) a (iSrc1 w) p.num) a w rcOk) s

/-! ### QSUM (R144) -/

def rowQsum : Row :=
  { cls := 3, maj := 5, sub := always, regs := regs4 .none .s .none .none, cores := true, ctl := false, ext := false,
    legal := fun w => bits (iImm w) 21 0 == 0 }

/-- The contribution of a QSUM. -/
def qsumContribution (s : State) (a : Agent) (w : Word) : Contribution :=
  { source := 0, kind := bits (iImm w) 31 28, round := bits (iImm w) 23 23, tag := bits (iImm w) 27 24, poison := bit (iImm w) 22,
    value := sOf s a (iSrc1 w) }

def execQsum (a : Agent) (w : Word) (s : State) : Outcome State Fault Refusal :=
  runInstr rowQsum a w (fun _ s => onCore a fun c _ =>
    if !isSumKind (bits (iImm w) 31 28) then descFault
    else if (getCore s c).sumCredit = 0 then .park s 2 .sumCredit
    else .done (sendSummary s c (qsumContribution s a w))) s

/-! ### Messages of peers -/

/-- The cores, running or saved, whose endpoint `e` names a peer's end: those first whose end a test holds of. -/
def remoteEnds (s : State) (src core ep c e : Nat) (p : Endpoint → Bool) : List Nat :=
  let l := s.cores.filter fun k => k.1 % 1024 == c &&
    let f := getEp k.2 e
    cfgDir f.cfg != 0 && cfgRemote f.cfg && cfgPeer f.cfg == src && cfgCore f.cfg == core && cfgEp f.cfg == ep
  ((l.filter fun k => p (getEp k.2 e)) ++ l).map Prod.fst

/-- The core, running or saved, whose endpoint is an end of a queue with a peer's end: an open end before one that is not. -/
def remoteEnd (s : State) (src core ep c e : Nat) : Option Nat := (remoteEnds s src core ep c e fun f => f.isOpen).head?

/-- The end that a QCONFIG meets: one that waits to open before any other (R461 step 3). -/
def configEnd (s : State) (src core ep c e : Nat) : Option Nat :=
  (remoteEnds s src core ep c e fun f => !f.isOpen && !f.closed).head?

/-- Words of a QUEUE flit as they go to the receive end. -/
def flitWords (f : QueueFlit) : List QWord :=
  f.words.zipIdx.map fun e =>
    let final := e.2 + 1 == f.words.length
    { data := fit 64 e.1, poison := f.poison, first := f.first && e.2 == 0, last := final && (f.last || f.truncated),
      truncated := final && f.truncated }

/-- The receive end of a QUEUE flit. The second end of a queue may send at once, and its flit in another class may overtake its
QCONFIG: the spec does not say what becomes of words for an end that has not opened, and the model discards them (DESIGN CHOICE,
log 122). -/
def flitEnd (s : State) (f : QueueFlit) : Option Nat :=
  (s.cores.find? fun k => k.1 % 1024 == f.core &&
    let e := getEp k.2 f.ep
    cfgDir e.cfg == 1 && cfgRemote e.cfg && cfgPeer e.cfg == f.src && e.isOpen).map Prod.fst

/-- Words for a receive end that waits to open are discarded, and counted for the QCLOSE that may count them (R461). -/
def discardEarly (f : QueueFlit) (s : State) : State :=
  match s.cores.find? fun k => k.1 % 1024 == f.core &&
      let e := getEp k.2 f.ep
      cfgDir e.cfg == 1 && cfgRemote e.cfg && cfgPeer e.cfg == f.src && !e.isOpen && !e.closed with
  | none => s
  | some k => modCore s k.1 fun x => let e := getEp x f.ep; setEp x f.ep { e with earlyWords := e.earlyWords + f.words.length }

/-- A QUEUE flit is delivered (R69 to R71): its words go to the receive end. -/
def takeQueueFlit (f : QueueFlit) (s : State) : State :=
  match flitEnd s f with
  | none => discardEarly f s
  | some c => modCore s c fun x => let e := getEp x f.ep; setEp x f.ep { e with inFlight := e.inFlight ++ flitWords f }

/-- QCREDIT (R64). -/
def takeQcredit (src sendCore sendEp recvCore recvEp words : Nat) (s : State) : State :=
  match remoteEnd s src recvCore recvEp sendCore sendEp with
  | none => s
  | some c =>
    let e := getEp (getCore s c) sendEp
    if cfgDir e.cfg != 2 || !e.isOpen then s
    else
      let s := modCore s c fun x => setEp x sendEp { e with creditFlight := e.creditFlight + words }
      if coreRuns s c then takeCredits s c sendEp
      else if dieStopped s c then holdAtEdge s c (.credit c sendEp)
      else s

/-- QCONFIG (R461): held; and answered when this module's end names the sender's, after the end has closed if it is closing. For a
core whose die's PLL is stopped it waits at the bridge edge (R28). -/
def takeQconfig (src core ep : Nat) (word : Word) (part : Nat) (answer : Bool) (s : State) : State :=
  let e := cfgEp word
  let named := (if answer then remoteEnd else configEnd) s src core ep (cfgCore word) e
  let c := named.getD (cfgCore word)
  if dieStopped s c then holdAtEdge s c (.config c src core ep word part answer) else
  let closing := match named with | none => false | some c => (getEp (getCore s c) e).closeAfter.isSome
  let h : HeldCfg := { peer := src, core := core, ep := ep, word := word, part := part, due := closing && !answer }
  let s := modCore s c fun x => setEp x e { getEp x e with heldCfg := some h }
  match named with
  | none => s
  | some c =>
    if answer then
      match qcfgWaiter s c e with
      | none => s
      | some n => wakeAgent s (.ctl n) (some 0)
    else if h.due then s
    else answerConfig s c e h

/-- QCLOSE (R461); at the bridge edge as a QCONFIG. -/
def takeQclose (src core ep peerCore peerEp words : Nat) (s : State) : State :=
  let c := (remoteEnd s src core ep peerCore peerEp).getD peerCore
  if dieStopped s c then holdAtEdge s c (.close c src core ep peerCore peerEp words) else
  let e := getEp (getCore s c) peerEp
  let drop := match e.heldCfg with | none => false | some h => h.peer == src && h.core == core && h.ep == ep
  let s := if drop then modCore s c fun x => setEp x peerEp { e with heldCfg := none } else s
  match remoteEnd s src core ep peerCore peerEp with
  | none => s
  | some c =>
    match qcfgWaiter s c peerEp with
    | some n => rejectQcfg s c peerEp n
    | none => if (getEp (getCore s c) peerEp).isOpen then farClosed s c peerEp words else s

end Machine
end Sys2Proof
end

