-- ==== Sys2Proof/Machine/Clock.lean ====
section
/-! DEFINITION. The always-on domain: the governor (R18, R430), oscillators (R22), energy (R20, R369, R370), the PLLs of the
compute dies (R27, R28), the tick and governor registers (Tables 1.8 to 1.12). -/

namespace Sys2Proof
namespace Machine

open Host

/-! ### The governor (R18, R430) -/

/-- THROTTLING as the steps leave it (Table 1.9). -/
def settleGov (s : State) : State :=
  modClk s fun c => { c with throttling := decide (0 < c.lowered) || decide (0 < c.issueWithheld) }

/-- Whether an active die runs above 550 MHz, the lowest clock of R18: before full service none does (R437). -/
def canLower (s : State) : Bool := baseFreq s == 1100 && decide (s.clk.lowered < 8)

/-- One step down: the clock while it can be lowered, then the issue limit. -/
def lowerStep (clock : Bool) (c : Clock) : Clock :=
  if clock then { c with lowered := c.lowered + 1 } else { c with issueWithheld := min 15 (c.issueWithheld + 1) }

/-- One step up: the issue limit first; the clock only while every sensor reads 95 °C or less (R430). -/
def raiseStep (maxC : Nat) (c : Clock) : Clock :=
  if 0 < c.issueWithheld then { c with issueWithheld := c.issueWithheld - 1 }
  else if c.hot || decide (95 < maxC) then c else { c with lowered := c.lowered - 1 }

/-- The bound that the phase controllers' current limit keeps on input power averaged over 10 µs, in mW (R17). -/
def peakMw : Nat := 3600000

/-- One comparison of the governor: samples are 10 µs apart, 800 of them are 8 ms. `clock` says whether the clock can be
lowered, `maxC` the highest sensor reading. -/
def govCompare (clock : Bool) (maxC : Nat) (c : Clock) (powerMw : Nat) : Clock :=
  let c := { c with inPower := powerMw }
  if 1000 * c.sustainedW < powerMw then
    let n := c.aboveSamples + 1
    let c := { c with aboveSamples := n, relaxSamples := 0 }
    if n < 800 then c
    else
      let c := if n = 800 && clock then { c with throttleEvents := satInc 16 c.throttleEvents } else c
      lowerStep clock c
  else
    let c := { c with aboveSamples := 0 }
    if powerMw * 20 ≤ 1000 * c.sustainedW * 19 then
      if 9 ≤ c.relaxSamples then raiseStep maxC { c with relaxSamples := 0 } else { c with relaxSamples := c.relaxSamples + 1 }
    else { c with relaxSamples := 0 }

/-- GOV_STEP (R18), in every state but Off (R21): the average that the load asks for, within the current limit of R17;
PWR.IN_MV is averaged over the same 10 µs (Table 18.8). -/
def execGovStep (powerMw : Nat) (s : State) : Outcome State Fault Refusal :=
  if s.pwr.off then .next s
  else
    let s := modPwr s fun p => { p with inMv := p.vinMv }
    .next (settleGov (modClk s fun c => govCompare (canLower s) s.pwr.tempMax c (min powerMw peakMw)))

/-- A hot module: one step of the clock down, THERMAL set; lowering begins when the module becomes hot. -/
def heatStep (s : State) : State :=
  let clock := canLower s
  let s := modClk s fun c =>
    let c := if !c.hot && clock then { c with throttleEvents := satInc 16 c.throttleEvents } else c
    { c with hot := true, lowered := if clock then c.lowered + 1 else c.lowered }
  settleAlert (settleGov (modPwr s fun p => { p with thermal := true }))

/-- THERMAL_SENSE (R430). -/
def execThermalSense (maxC : Nat) (s : State) : Outcome State Fault Refusal :=
  if s.pwr.off then .next s
  else
    let s := modPwr s fun p => { p with tempMax := maxC % 256 }
    if s.recov.fatal then .next s
    else if 115 < maxC then .next (enterFatal (heatStep s))
    else if 100 < maxC then .next (heatStep s)
    else if maxC ≤ 95 then .next (modClk s fun c => { c with hot := false })
    else .next s

/-! ### Energy (R20, R369, R370) -/

/-- The activity of a context in a domain (Table 15.3), the core-ticks that it holds on a die apart. -/
def activityOf (k : DomainKind) (a : Activity) : Nat :=
  match k with
  | .die _ => 2 * (a.matBusy + a.shadow) + a.vecBusy
  | .stack => a.grains + 4 * a.updCycles
  | .capacity => a.grains
  | .hub => a.ctlCycles + a.flits + a.cxlUnits

/-- The core-ticks held on a die since the last collection: each context's. -/
def heldOnDie (c : Clock) (k : Nat) : List (Nat × Nat) :=
  (c.heldOn.filter fun e => e.1 / 4096 == k).map fun e => (e.1 % 4096, e.2)

/-- The activities that divide a domain's energy (Table 15.3): contexts', and overhead's. On a compute die those that hold cores count 8
to a core-tick, and cores that none holds are overhead's. -/
def domainActs (c : Clock) (d : DomainReading) : List (Nat × Nat) × Nat :=
  let given := d.acts.map fun a => (a.ctx, activityOf d.kind a)
  match d.kind with
  | .die k =>
    let held := heldOnDie c k
    let free := 128 * tget 0 c.dieTicks k - held.foldl (fun t e => t + e.2) 0
    ((held.map fun e => (e.1, 8 * e.2)).foldl (fun t e => tput t e.1 (tget 0 t e.1 + e.2))
      (given.foldl (fun t e => tput t e.1 (tget 0 t e.1 + e.2)) []), d.overhead + 8 * free)
  | _ => (given, d.overhead)

/-- Energy in µJ that contexts and overhead get of an interval, and a domain's remainder. -/
structure Split where
  shares : List (Nat × Nat)
  ovh : Nat
  rest : Nat
  deriving DecidableEq, Repr

/-- Divides energy in proportion to activity, whole µJ each; the rest is carried. With no activity all goes to overhead. -/
def splitEnergy (energy : Nat) (acts : List (Nat × Nat)) (ovh : Nat) : Split :=
  let sum := acts.foldl (fun t a => t + a.2) ovh
  if sum = 0 then { shares := [], ovh := energy, rest := 0 }
  else
    let sh := acts.map fun a => (a.1, energy * a.2 / sum)
    let o := energy * ovh / sum
    { shares := sh, ovh := o, rest := energy - sh.foldl (fun t a => t + a.2) o }

/-- Adds a split to what is owed, its remainder kept under the domain's place. -/
def oweSplit (c : Clock) (key : Nat) (x : Split) : Clock :=
  { c with
    owedUj := x.shares.foldl (fun t a => tput t a.1 (tget 0 t a.1 + a.2)) c.owedUj
    overheadOwed := c.overheadOwed + (x.ovh : Int)
    carry := tput c.carry key x.rest }

/-- The energy of one domain. -/
def oweDomain (c : Clock) (key : Nat) (d : DomainReading) : Split × Clock :=
  let (acts, ovh) := domainActs c d
  let x := splitEnergy (d.energyUj + tget 0 c.carry key) acts ovh
  (x, oweSplit c key x)

/-- The energies of the monitored domains, in order, and the sums that contexts and overhead got. -/
def oweDomains (c : Clock) (key : Nat) : List DomainReading → Tbl Nat × Nat × Clock
  | [] => ([], 0, c)
  | d :: ds =>
    let (x, c) := oweDomain c key d
    let (t, o, c) := oweDomains c (key + 1) ds
    (x.shares.foldl (fun t a => tput t a.1 (tget 0 t a.1 + a.2)) t, o + x.ovh, c)

/-- The balance of a holder: owed less paid, in µJ. -/
def balanceOf (s : State) (n : Nat) : Int :=
  (tget 0 s.clk.owedUj n : Nat) - 1000 * ((getCtx s n).acct.energyMj : Int)

/-- The context with the largest balance, the lower one of equals. -/
def topHolder (s : State) : List Nat → Option (Nat × Int)
  | [] => none
  | n :: ns =>
    match topHolder s ns with
    | none => some (n, balanceOf s n)
    | some (m, b) => if b ≤ balanceOf s n then some (n, balanceOf s n) else some (m, b)

/-- One millijoule to a context, and to the sum of its partition. -/
def payCtx (s : State) (n : Nat) : State :=
  let s := modAcct s n fun a => { a with energyMj := a.energyMj + 1 }
  modPart s (getCtx s n).part fun p => { p with energyMj := p.energyMj + 1 }

/-- Pays whole millijoules, each to the holder with the largest balance (R370). -/
def payOut : Nat → State → State
  | 0, s => s
  | k + 1, s =>
    let ovh := s.clk.overheadOwed - 1000 * (s.clk.overheadMj : Int)
    let s := match topHolder s (s.clk.owedUj.map Prod.fst) with
      | some (n, b) => if ovh ≤ b then payCtx s n else modClk s fun c => { c with overheadMj := c.overheadMj + 1 }
      | none => modClk s fun c => { c with overheadMj := c.overheadMj + 1 }
    payOut k s

/-- What has been paid in all. -/
def paidMj (s : State) : Nat :=
  s.ctxs.foldl (fun t e => t + e.2.acct.energyMj) (s.clk.overheadMj + s.clk.retiredMj)

/-- The cycles of an interval that contexts are charged with (R368). -/
def chargeCycles (s : State) (d : DomainReading) : State :=
  d.acts.foldl (fun s a => modAcct s a.ctx fun x =>
    { x with matBusy := x.matBusy + a.matBusy, vecBusy := x.vecBusy + a.vecBusy, updBusy := x.updBusy + a.updCycles,
             ctlBusy := x.ctlBusy + a.ctlCycles }) s

/-- The corrected SRAM errors that the domains report (R383; DESIGN CHOICE: with the monitors, log 161). -/
def noteCorrected (s : State) (ds : List DomainReading) : State :=
  modRec s fun r => { r with sramCe := ds.foldl (fun n d => n + d.sramCe) r.sramCe }

/-- MONITOR_COLLECT (R20, R369, R370): of an interval of 10 µs, in which the input gives what the current limit of R17 lets it. -/
def execMonitorCollect (inputUj : Nat) (domains : List DomainReading) (s : State) : Outcome State Fault Refusal :=
  if s.pwr.off then .next s
  else
    let inputUj := min inputUj (peakMw / 100)
    let s := noteCorrected (domains.foldl chargeCycles s) domains
    let (t, o, c) := oweDomains s.clk 0 domains
    let c := { c with heldOn := [], dieTicks := [] }
    let loss := inputUj - domains.foldl (fun k d => k + d.energyUj) 0
    let c := oweSplit c 1000 (splitEnergy (loss + tget 0 c.carry 1000) t o)
    let total := c.inputUj + inputUj
    let s := { s with clk := { c with inputUj := total, inEnergy := total / 1000 } }
    .next (payOut (s.clk.inEnergy - paidMj s) s)

/-! ### Oscillators (R22) -/

/-- OSC_FAIL (R22): the domain leaves a failed oscillator that it runs from; with both failed the module is in FATAL (R388). -/
def execOscFail (oscB : Bool) (s : State) : Outcome State Fault Refusal :=
  if s.pwr.off then .next s
  else
    let s := modClk s fun c => if oscB then { c with failB := true } else { c with failA := true }
    if s.clk.failA && s.clk.failB then .next (enterFatal s)
    else if s.clk.oscB = oscB then
      .next (logEvent (modClk s fun c => { c with oscB := !oscB }) 0x13 { cls := 0, kind := 8, unit := b2n oscB } 0 none 0)
    else .next s

/-! ### PLLs (R27, R28) -/

/-- The logical cores of an active physical die. -/
def coresOfDie (s : State) (k : Nat) : List Nat :=
  let d := getDie s k
  if d.state = 2 then (List.range 128).map fun i => 128 * d.logical + i else []

/-- Whether a die has work (R27). -/
def dieHasWork (s : State) (k : Nat) : Bool :=
  let mine := coresOfDie s k
  ((getDie s k).state == 2 && (getDie s k).keepWarm) ||
  (s.cores.any fun e => mine.contains e.1 &&
    (!(boundThreads e.2).isEmpty || (e.2.blocks.any fun b => b.2.readySince.isSome) ||
      e.2.eps.any fun q => !q.2.inFlight.isEmpty)) ||
  s.mem.reqs.any fun e => e.2.phase == .served && match e.2.core with | some c => mine.contains c | none => false

/-- PLL_STOP (R27): after HOLDOFF microseconds without work. -/
def execPllStop (die : Nat) (s : State) : Outcome State Fault Refusal :=
  let d := getDie s die
  if running s && d.state == 2 && d.pllOn && !dieHasWork s die && decide (usTicks * d.holdoff ≤ d.idleTicks) then
    .next (modDie s die fun d => { d with pllOn := false, starting := false, idleTicks := 0 })
  else .next s

/-- Delivers one item that waited at the bridge edge. -/
def deliverEdge (s : State) : EdgeItem → State
  | .grain id corrupt => match getMReq s id with | none => s | some r => if r.isWrite then ackWrite s id r else respond s id r corrupt
  | .tokens c b n => addTokens s c b n
  | .word c ep => landNext s c ep
  | .credit c ep => takeCredits s c ep
  | .group a g code => groupDone s a g code
  | .config _ src core ep word part answer => takeQconfig src core ep word part answer s
  | .close _ src core ep pc pe words => takeQclose src core ep pc pe words s

/-- Whether an item waits for a core of a die. -/
def edgeOf (s : State) (mine : List Nat) : EdgeItem → Bool
  | .grain id _ => match getMReq s id with
    | none => false
    | some r => match r.core with | some c => mine.contains c | none => false
  | it => match it.dest with | some c => mine.contains c | none => false

/-- PLL_STABLE (R28): the PLL of an active die that was asked for runs, and what waited at its edge is delivered in order. -/
def execPllStable (die : Nat) (s : State) : Outcome State Fault Refusal :=
  let d := getDie s die
  if running s && !s.pwr.inHold && d.state == 2 && !d.pllOn && (d.starting || dieHasWork s die) then
    let mine := coresOfDie s die
    let items := s.clk.edge.filter (edgeOf s mine)
    let s := modDie s die fun d => { d with pllOn := true, starting := false, idleTicks := 0, freq := baseFreq s }
    let s := modClk s fun c => { c with edge := c.edge.filter fun e => !items.contains e }
    .next (items.foldl deliverEdge s)
  else .next s

/-! ### Registers -/

/-- TICK_LO_READ (R31). -/
def execTickLoRead (s : State) : Outcome State Fault Refusal :=
  if !hostUp s then .next s
  else .next (emit (modClk s fun c => { c with hiLatch := c.tick >>> 32 % 2 ^ 32 }) (.regValue (now s % 2 ^ 32)))

/-- GOV_STATUS (Table 1.9). -/
def govStatus (c : Clock) : Nat := b2n c.throttling <<< 31 + c.issueWithheld <<< 16 + c.throttleEvents

/-- GOV_STATUS_READ (R7): the read clears THROTTLE_EVENTS. -/
def execGovStatusRead (s : State) : Outcome State Fault Refusal :=
  if !hostUp s then .next s
  else .next (emit (modClk s fun c => { c with throttleEvents := 0 }) (.regValue (govStatus s.clk)))

/-- Present clock of a die in MHz, rounded down (Table 1.12): 1/16 of 1,100 MHz per step of the governor, at least 550. -/
def freqMhz (c : Clock) (d : DieClk) : Nat := if d.pllOn then max 550 ((16 * d.freq - 1100 * c.lowered) / 16) else 0

/-- DIE_CLK (Table 1.12). -/
def dieClkReg (c : Clock) (d : DieClk) : Nat :=
  b2n d.pllOn <<< 31 + b2n d.keepWarm <<< 30 + d.state <<< 28 + (if d.state = 2 then d.logical else 0xF) <<< 24 +
    d.holdoff <<< 12 + freqMhz c d

/-- KEEP_WARM_WRITE (Table 1.12, R27): the fields are stored; KEEP_WARM has no effect unless the die is active, whose stopped
PLL it starts. -/
def execKeepWarmWrite (die : Nat) (value : Word32) (s : State) : Outcome State Fault Refusal :=
  if !hostUp s || 9 ≤ die then .next s
  else
    let v := value.toNat
    .next (modDie s die fun d =>
      { d with holdoff := bits v 23 12, keepWarm := bit v 30
               idleTicks := if d.keepWarm || bit v 30 then 0 else d.idleTicks
               starting := d.starting || (d.state == 2 && bit v 30 && !d.pllOn) })

end Machine
end Sys2Proof
end

