-- ==== Sys2Proof/Machine/Hold.lean ====
section
/-! DEFINITION. The way into Hold (R440): when a request is refused, what an accepted one waits for, and the entry. -/

namespace Sys2Proof
namespace Machine

/-- Whether a Hold request is refused (R440). -/
def holdBlocked (s : State) : Bool :=
  !s.host.aspmL12 || s.pwr.service != 2 || s.recov.fatal || !s.recov.restarting.isEmpty || s.recov.spareDie == 1 ||
  !s.recov.stackSpares.isEmpty || s.recov.lostCores.any fun c => (spareCore s (c / 128)).isSome

/-- Whether something that an accepted request waits for goes on: a LOADP of a LIVE context, hub movement, in-stack work. -/
def holdWaits (s : State) : Bool :=
  (s.ctxs.any fun e => e.2.state == ctxLive && e.2.loadp.isSome) || (s.mem.reqs.any fun e => e.2.core.isNone) ||
  !s.upd.ops.isEmpty || !s.upd.snapshots.isEmpty

/-- Contexts that are LIVE. -/
def liveCtxs (s : State) : List Nat := ctxsWhere s fun x => x.state == ctxLive

/-- Every LIVE context is saved (R440 step 2). -/
def saveLive (s : State) : State := (liveCtxs s).foldl (fun s n => saveAll (beginSave s n) n) s

/-- The peer ports stop, and every peer is treated as absent (R440 step 3). -/
def leavePeers (s : State) : State :=
  let s := (List.range 8).foldl (fun s k => portOff s k ptDisabled) s
  (presentPeers s).foldl declareAbsent s

/-- The module enters Hold (R440 steps 2 to 5). -/
def enterHold (s : State) : State :=
  let s := leavePeers (saveLive s)
  let s := modClk s fun c => { c with dies := tmap (fun _ d => { d with pllOn := false, starting := false }) c.dies }
  emit (modPwr s fun p => { p with inHold := true, holdAsked := false, holds := p.holds + 1, state := 0, napSince := none }) (.l12 true)

/-- Goes on with an accepted request: the module enters Hold once nothing that it waits for goes on. -/
def holdStep (s : State) : State := if s.pwr.holdAsked && !holdWaits s then enterHold s else s

/-- A Hold request (R440): refused; or accepted, when doorbells and commands wait and the threads of every LIVE context stop. -/
def requestHold (s : State) : State :=
  if s.pwr.off || s.pwr.inHold || s.pwr.holdAsked then s
  else if holdBlocked s then settleAlert (modPwr s fun p => { p with holdRefused := true })
  else holdStep ((liveCtxs s).foldl beginSave (modPwr s fun p => { p with holdAsked := true }))

end Machine
end Sys2Proof
end

