-- ==== Sys2Proof/Machine/Functions.lean ====
section
/-! DEFINITION. The configuration space of the module's PCIe functions (R405, R407, R408, R410), and the resets that clear it. The
spec names its fields and leaves their places to PCI Express: the places and the reset values of the MSI-X fields are PRESUMED
from there (log 162). -/

namespace Sys2Proof
namespace Machine

/-- Every partition of a list is reset. -/
def resetParts (s : State) (ps : List Nat) : State := ps.foldl resetPart s

/-- The functions of a list lose what the host set in their configuration space (Table 17.2). -/
def clearFunctions (s : State) (fs : List Nat) : State :=
  { s with host := { s.host with msixOn := s.host.msixOn.filter fun e => !fs.contains e.1,
                                 msixMask := s.host.msixMask.filter fun e => !fs.contains e.1 } }

/-- VF Enable is cleared by the host (R408): the VFs lose their configuration space and their partitions are reset. -/
def disableVfs (s : State) : State :=
  let s := clearFunctions s ((List.range 64).drop 1)
  resetParts { s with host := { s.host with vfEnable := false } } ((List.range 64).drop 1)

/-- A write of 32 bits to configuration space. Enables of features that Table 17.1 does not support stand nowhere there: a write
that asks for one changes nothing (R405). -/
def configWrite (n off : Nat) (v : Nat) (s : State) : State :=
  if n != 0 && !s.host.vfEnable then s
  else match off with
    -- MSI-X Message Control: Enable and Function Mask
    | 0xB0 => { s with host := { s.host with msixOn := tput s.host.msixOn n (v.testBit 31),
                                             msixMask := tput s.host.msixMask n (v.testBit 30) } }
    -- SR-IOV Control: VF Enable; in recovery there is the PF alone (R435)
    | 0x168 =>
      if n != 0 || s.pwr.service == 3 then s
      else if v.testBit 0 then { s with host := { s.host with vfEnable := true } }
      else if s.host.vfEnable then disableVfs s else s
    -- L1 PM Substates Control 1: ASPM L1.2 Enable (R440)
    | 0x208 => if n != 0 then s else { s with host := { s.host with aspmL12 := v.testBit 2 } }
    | _ => s

end Machine
end Sys2Proof
end

