-- ==== Sys2Proof/Machine/HostLink.lean ====
section
/-! DEFINITION. The host link: device memory as HDM (R411 to R414), host-side resets (R408, Table 17.2), IDE failures (R416), and
the link's coming up (R406, R436). -/

namespace Sys2Proof
namespace Machine

open Host

/-! ### HDM (R411 to R414) -/

/-- An HDM access enters while the link is up and the decoder of its address is committed. One that no decoder covers lies
outside every window, and is answered as R412 says of such (log 20). -/
def hdmAccess (pa : Nat) (data : Option (List Byte)) (s : State) : State :=
  match hostUp s, decoderOf pa with
  | false, _ => s
  | true, none => hdmOutside s pa data
  | true, some d => if tget false s.host.committed d then hdmEnter s pa data else s

/-- HDM_READ (R412, R413). -/
def execHdmRead (pa : Nat) (s : State) : Outcome State Fault Refusal := .next (hdmAccess pa none s)

/-- HDM_WRITE (R412, R413): it completes to the host in every case. -/
def execHdmWrite (pa : Nat) (data : List Byte) (s : State) : Outcome State Fault Refusal :=
  .next (hdmAccess pa (some data) s)

/-- DECODER_COMMIT (R411): only interleave ways 1 is accepted. -/
def execDecoderCommit (dec ways : Nat) (s : State) : Outcome State Fault Refusal :=
  if !hostUp s || 2 ≤ dec then .next s
  else if ways = 1 then
    .next (modHost s fun h => { h with
      committed := tput h.committed dec true, decoderErr := tput h.decoderErr dec false })
  else .next (emit (modHost s fun h => { h with decoderErr := tput h.decoderErr dec true }) (.decoderError dec))

/-! ### Host-side resets (R408, Table 17.2) -/

/-- FLR_VF (R408). -/
def execFlrVf (n : Nat) (s : State) : Outcome State Fault Refusal :=
  if hostUp s && s.host.vfEnable && decide (1 ≤ n) && decide (n < 64) then .next (resetPart (clearFunctions s [n]) n) else .next s

/-- FLR_PF (R408): every function loses its configuration space, and VF Enable is cleared with it. -/
def execFlrPf (s : State) : Outcome State Fault Refusal :=
  if !hostUp s then .next s
  else
    let s := modHost (clearFunctions s (List.range 64)) fun h =>
      { h with vfEnable := false, aspmL12 := false, linkDowns := h.linkDowns + 1 }
    .next (resetParts s (List.range 64))

/-- VF_ENABLE_CLEAR (R408). -/
def execVfEnableClear (s : State) : Outcome State Fault Refusal :=
  if !hostUp s || !s.host.vfEnable then .next s
  else .next (disableVfs s)

/-- Tier 4 requests in flight end as failed when the host link is lost (R226, R417). -/
def failHostReqs (s : State) : State :=
  (s.mem.reqs.filter fun e => e.2.tier == 4 && e.2.phase == .queued).foldl (fun s e => afterReq (failReq s e.1) e.2.core) s

/-- Writes and firmware that wait on back-invalidates go on: the host holds no line any more. -/
def freeBiWaits (s : State) : State :=
  firmwareGoesOn (freeBiWrites (modHost s fun h => { h with snoop := [], biLines := [] }))

/-- HDM accesses that wait at their banks are gone with the link. -/
def dropHdm (s : State) : State := modMem s fun m => { m with reqs := m.reqs.filter fun e => e.2.dest != .host }

/-- The configuration space of every function, the HDM decoders, HDM accesses and the SPDM connection as a lost link leaves them. -/
def loseConfig (s : State) : State :=
  let s := dropHdm s
  let s := modHost s fun h => { h with
    up := false, ideIo := false, ideCm := 0, speed := 0, width := 0, committed := [], decoderErr := [], snoop := [], biLines := [],
    vfEnable := false, cfgReady := false, aspmL12 := false, msixOn := [], msixMask := [] }
  modSec s fun x => { x with spdm := { Spdm.reset with idePrograms := x.spdm.idePrograms, keyGen := x.spdm.keyGen } }

/-- The host link is lost (R408, R417): every partition is reset. -/
def linkDown (s : State) : State :=
  let s := emit (loseConfig s) .hostLinkDown
  let s := modHost s fun h => { h with linkDowns := h.linkDowns + 1 }
  resetParts (freeBiWaits (failHostReqs s)) (List.range 64)

/-- DL_DOWN (R408, R442). -/
def execDlDown (s : State) : Outcome State Fault Refusal :=
  if s.host.up && running s then .next (linkDown s) else .next s

/-- IDE_FAIL (R416): in a stream that is active. -/
def execIdeFail (s : State) : Outcome State Fault Refusal :=
  if s.host.up && running s && (s.host.ideIo || s.host.ideCm != 0) then
    .next (linkDown (modHost s fun h => { h with ideFails := h.ideFails + 1 }))
  else .next s

/-! ### The link comes up (R406, R436) -/

/-- Whether the module is ready for the link: firmware runs, or the boot ROM in recovery. -/
def linkReady (s : State) : Bool :=
  running s && !s.pwr.inHold && !s.pwr.perst && (decide (3 ≤ s.pwr.stage) || s.pwr.service == 3)

/-- PERST_DEASSERT (R436): the link may train; configuration requests are answered, with retry status until the functions are
ready. -/
def execPerstDeassert (s : State) : Outcome State Fault Refusal :=
  if s.pwr.off || !s.pwr.perst then .next s
  else
    let s := modPwr s fun p => { p with perst := false }
    if linkReady s then .next (modHost s fun h => { h with cfgReady := true }) else .next (emit s .retryStatus)

/-- HOST_LINK_UP (R406): at a speed code and a width that the module trains to (Table 17.1). -/
def execHostLinkUp (speed width : Nat) (s : State) : Outcome State Fault Refusal :=
  if s.host.up || !linkReady s || !(1 ≤ speed && decide (speed ≤ 4)) || !(width == 4 || width == 8 || width == 16) then .next s
  else
    let s := modHost s fun h => { h with up := true, speed := speed, width := width, cfgReady := true }
    .next (modPwr s fun p => if p.stage = 3 then { p with stage := 4 } else p)

end Machine
end Sys2Proof
end

