-- ==== Sys2Proof/Machine/Sync.lean ====
section
/-! DEFINITION. Synchronisation: FENCE (R145, R94 rule 3), BAR (R146), START (R147), CG (R148), and EPOCH ENTER and LEAVE
(R149, R338). -/

namespace Sys2Proof
namespace Machine

open Host

/-! ### FENCE -/

def rowFence : Row :=
  { cls := 4, maj := 0, sub := always, regs := regs4 .none .none .none .none, cores := true, ctl := true, ext := false,
    legal := fun w => bits (iImm w) 31 4 == 0 && bits (iImm w) 3 2 != 0 }

/-- The scope of a fence: CORE acts as MODULE on a control thread. -/
def fenceScope (a : Agent) (w : Word) : Nat :=
  match a with
  | .thread _ _ => bits (iImm w) 1 0
  | .ctl _ => max 1 (bits (iImm w) 1 0)

def execFence (a : Agent) (w : Word) (s : State) : Outcome State Fault Refusal :=
  runInstr rowFence a w (fun _ s =>
    let scope := fenceScope a w
    let kind := bits (iImm w) 3 2
    match fenceOut s a scope kind with
    | [] => .done s
    | l => .park s (if scope = 2 || l.any fun r => r.tier == 3 then 4 else 3) (.fence scope kind s.serial)) s

/-! ### BAR -/

def rowBar : Row :=
  { cls := 4, maj := 1, sub := always, regs := regs4 .none .s .none .none, cores := true, ctl := true, ext := false,
    legal := fun w => bits (iImm w) 31 5 == 0 }

/-- An arrival at a barrier: the last one releases every other and empties the barrier. -/
def barArrive (s : State) (n b count : Nat) (a : Agent) : IRes :=
  let bar := tget Barrier.reset (getCtx s n).barriers b
  if bar.arrived.isEmpty || bar.count = count then
    if bar.arrived.length + 1 < count then
      .park (modCtx s n fun x => { x with barriers := tput x.barriers b { count := count, arrived := bar.arrived ++ [a] } })
        6 (.barrier b)
    else
      let s := modCtx s n fun x => { x with barriers := tdel x.barriers b }
      .done (bar.arrived.foldl (fun s x => wakeAgent s x (some 0)) s)
  else descFault

def execBar (a : Agent) (w : Word) (s : State) : Outcome State Fault Refusal :=
  runInstr rowBar a w (fun n s =>
    if (threadOf s a).woken.isSome then .done s
    else
      let count := (sOf s a (iSrc1 w)).toNat
      if count = 0 then .done s else barArrive s n (bits (iImm w) 4 0) count a) s

/-! ### START -/

def rowStart : Row :=
  { cls := 4, maj := 2, sub := always, regs := regs4 .s .s .s .none, cores := true, ctl := true, ext := false,
    legal := fun w => bits (iImm w) 31 8 == 0 }

/-- Tokens that a block may have pending (R35). -/
def tokenMax : Nat := 255

/-- Tokens that wait at the bridge edge for a block (R28). -/
def edgeTokens (s : State) (c b : Nat) : Nat :=
  s.clk.edge.foldl (fun t e => match e with | .tokens k j n => if k = c && j = b then t + n else t | _ => t) 0

/-- Sends tokens to a block of a core: all of them, or none. For a die whose PLL is stopped they wait at the edge, those for one
block together. -/
def sendTokens (s : State) (c b n : Nat) : Nat × State :=
  let w := edgeTokens s c b
  if tokenMax < (getBlk (getCore s c) b).tokens + w + n then (rcBusy, s)
  else if n = 0 then (rcOk, s)
  else if dieStopped s c then
    let s := modClk s fun k => { k with edge := k.edge.filter fun e => e != .tokens c b w }
    (rcOk, holdAtEdge s c (.tokens c b (w + n)))
  else (rcOk, addTokens s c b n)

def execStart (a : Agent) (w : Word) (s : State) : Outcome State Fault Refusal :=
  runInstr rowStart a w (fun n s =>
    let c := (sOf s a (iSrc1 w)).toNat
    let b := (sOf s a (iSrc2 w)).toNat
    if !(getCtx s n).coreset.contains c then descFault
    else match blockDesc (getCore s c) b with
      | none => descFault
      | some d =>
        if !d.ops.any fun o => o.kind == 3 then descFault
        else
          let (rc, s) := sendTokens s c b (bits (iImm w) 7 0)
          doneRc s a w rc) s

/-! ### CG -/

def rowCg : Row :=
  { cls := 4, maj := 3, sub := always, regs := regs4 .s .none .none .none, cores := true, ctl := true, ext := false,
    legal := fun w => bits (iImm w) 26 0 == 0 }

/-- Whether a block loaded on the agent's core declares the group (R148). -/
def cgDeclared (s : State) (a : Agent) (g : Nat) : Bool :=
  match a with
  | .thread c _ => declared (getCore s c) 2 g
  | .ctl _ => false

/-- Whether a RESHARD of the group waits at its fence. -/
def cgAtFence (s : State) (a : Agent) (g : Nat) : Bool :=
  s.hub.reshards.any fun e => e.2.phase == .fence && e.2.cg.cg == g && sameSide e.2.cg.agent a

/-- The park cause of a thread that waits for a group, as the group stands now (R148). -/
def groupCause (s : State) (a : Agent) (g : Nat) : Nat :=
  if cgAtFence s a g then 5 else if 0 < (cgOf s a g).peerOut then 4 else 3

/-- Claims a group of an agent: its code becomes the last status (R132). -/
def claimCg (s : State) (a : Agent) (g : Nat) : State :=
  match a with
  | .thread c _ => touchCore (modCore s c fun x => { x with cgs := cgClaim x.cgs g }) c
  | .ctl n => modCtx s n fun x => { x with ctl := { x.ctl with cgs := cgClaim x.ctl.cgs g } }

def execCg (a : Agent) (w : Word) (s : State) : Outcome State Fault Refusal :=
  runInstr rowCg a w (fun _ s =>
    let g := bits (iImm w) 31 28
    let v := cgOf s a g
    if !bit (iImm w) 27 then doneRc s a w v.last
    else if cgDeclared s a g then descFault
    else if cgReady v then doneRc (claimCg s a g) a w v.code
    else .park s (groupCause s a g) (.group g)) s

/-! ### EPOCH -/

def rowEpoch (leave : Bool) : Row :=
  { cls := 4, maj := 4, sub := fun w => bit (iImm w) 31 == leave, regs := regs4 .s .s .s .none, cores := true, ctl := true,
    ext := false, legal := fun w => bits (iImm w) 30 16 == 0 }

/-- The model, epoch and layer that an EPOCH names, if they pass the checks of R338. -/
def epochArgs (s : State) (a : Agent) (n : Nat) (w : Word) : Option (Nat × Model × Nat × Layer) :=
  match modelByHandle s (getCtx s n).part (sOf s a (iSrc1 w)).toNat with
  | none => none
  | some (ix, m) =>
    let e := (sOf s a (iSrc2 w)).toNat
    if attachedTo m n && decide (e ≤ m.epoch) then (m.layers[bits (iImm w) 15 0]?).map fun l => (ix, m, e, l) else none

/-- The descriptor fault of EPOCH is a context fault (R338). -/
def epochFault : IRes := .fault fcDescriptor 0 true

/-- An ENTER that returns: firmware enters the record in its journal (R400); at layer 0 it counts in USE and, with OK, in STARTED (R335,
R338). -/
def entered (s : State) (n ix e layer : Nat) (ok : Bool) : State :=
  let s := journal s (controlCoreOf n) 10 ix true
  if layer = 0 then
    let s := modModel s ix fun m =>
      let m := { m with use := m.use + 1, lastUse := now s }
      if ok then addStarted m n e else m
    syncModel s ix
  else s

def execEpochEnter (a : Agent) (w : Word) (s : State) : Outcome State Fault Refusal :=
  runInstr (rowEpoch false) a w (fun n s =>
    match epochArgs s a n w with
    | none => epochFault
    | some (ix, m, e, l) =>
      let layer := bits (iImm w) 15 0
      if l.epoch < e then .park s 6 (.epoch (handleOf ix m) layer e)
      else if l.epoch = e && !(m.installing && layer == m.installed) then doneRc (entered s n ix e layer true) a w rcOk
      else doneRc (entered s n ix e layer false) a w rcStaleEpoch) s

/-- A LEAVE is entered in the journal (R400) and counted, unless it would exceed the context's ENTERs (R338). -/
def leftLayer (s : State) (n ix e layer : Nat) : State :=
  let s := journal s (controlCoreOf n) 10 ix true
  match tfind s.models ix with
  | none => s
  | some m =>
    if startedOf m n e ≤ passedOf m n e layer then modPart s m.part fun p => { p with mdlEpochErrors := p.mdlEpochErrors + 1 }
    else setModel s ix (addPassed m n e layer)

def execEpochLeave (a : Agent) (w : Word) (s : State) : Outcome State Fault Refusal :=
  runInstr (rowEpoch true) a w (fun n s =>
    match epochArgs s a n w with
    | none => epochFault
    | some (ix, _, e, _) => doneRc (leftLayer s n ix e (bits (iImm w) 15 0)) a w rcOk) s

end Machine
end Sys2Proof
end

