-- ==== Sys2Proof/Machine/Tick.lean ====
section
/-! DEFINITION. What a tick of the 48 MHz clock does while no command waits (log 3): the local tick (R23), cycle and tick
counters (R52, R53, R365, R368, Table 14.5), the message bound's bucket (R371), and the marks of starvation (R56) and Nap (R439). -/

namespace Sys2Proof
namespace Machine

/-! ### Cycles of a die (R52, R53) -/

/-- Quarter megahertz at which an active die runs: 275 is 1/16 of 1,100 MHz (R18). -/
def quarterMhz (c : Clock) (d : DieClk) : Nat := max 2200 (4 * d.freq - 275 * c.lowered)

/-- The cause of the thread parked longest, ties to the lowest thread (R52 rule 3). A thread in CG counts under what its group
waits for now (R148). -/
def parkedCause (s : State) (c : Nat) (x : Core) : Option Nat :=
  let ps := x.threads.filterMap fun e => match e.2.st with
    | .parked _ (.group g) since => some (since, groupCause s (.thread c e.1) g)
    | .parked k _ since => some (since, k)
    | _ => none
  (minBy Prod.fst ps).map Prod.snd

/-- Which counter the cycles of core `c` go to: none is BUSY (R52). A core without a context that a HELD one is to have back counts
as pre-empted. -/
def cycleCode (s : State) (c : Nat) (x : Core) : Option Nat :=
  let stopped := match x.owner with
    | none => s.ctxs.any fun e => e.2.state == ctxHeld && e.2.coreset.contains c
    | some n => (getCtx s n).saving || (getCtx s n).restoring
  if stopped then some 7
  else if x.threads.any fun e => e.2.st == .runnable && !e.2.held then none
  else match parkedCause s c x with
    | some c => some c
    | none =>
      match x.prog with
      | none => some 0
      | some p => if (List.range p.blocks.length).any fun b => !(getBlk x b).retired then some 1 else some 0

/-- Whether all threads are parked under cause 1 or 2 while a block waits to bind (R56). -/
def starving (x : Core) : Bool :=
  (x.blocks.any fun b => b.2.readySince.isSome) && (List.range 16).all fun t =>
    match (getThread x t).st with | .parked c _ _ => c == 1 || c == 2 | _ => false

/-- A core over some cycles of its die's clock. -/
def coreCycles (s : State) (n c : Nat) (x : Core) : Core :=
  let x := match cycleCode s c x with
    | none => { x with busy := x.busy + n }
    | some k => { x with idle := tput x.idle k (tget 0 x.idle k + n) }
  { x with
    idleRun := if coreCanFire x then 0 else x.idleRun + n
    starvedSince := if starving x then (match x.starvedSince with | none => some (now s) | some t => some t) else none }

/-- An active die whose PLL is stopped counts the tick (R53). -/
def pllOffTick (s : State) (k : Nat) : State :=
  let d := getDie s k
  if d.state == 2 && !d.pllOn then
    modClk s fun c => { c with pllOffTicks := tput c.pllOffTicks d.logical (tget 0 c.pllOffTicks d.logical + 1) }
  else s

/-- The core-ticks of an active die: those of each context that holds cores of it, for the energy split (Table 15.3). -/
def heldTick (s : State) (k : Nat) : State :=
  let mine := coresOfDie s k
  let owners := (s.cores.filter fun e => mine.contains e.1).filterMap fun e => e.2.owner
  modClk s fun c => { c with
    heldOn := owners.foldl (fun t n => tput t (4096 * k + n) (tget 0 t (4096 * k + n) + 1)) c.heldOn
    dieTicks := tput c.dieTicks k (tget 0 c.dieTicks k + 1) }

/-- An active die over one tick: its cores' cycles, or a tick of its stopped PLL. -/
def dieTick (s : State) (k : Nat) : State :=
  let d := getDie s k
  let s := if d.state == 2 then heldTick s k else s
  if d.state != 2 then s
  else if d.pllOn then
    let q := d.cycleRem + quarterMhz s.clk d
    let s := (coresOfDie s k).foldl (fun s' c => modCore s' c (coreCycles s (q / 192) c)) s
    let idle := if dieHasWork s k then 0 else d.idleTicks + 1
    modDie s k fun d => { d with cycleRem := q % 192, idleTicks := idle }
  else pllOffTick s k

/-! ### Ticks of contexts and partitions -/

/-- Whether a thread of a context is parked on a marked endpoint: a teacher's for credit, a student's for a packet (Table 14.5). A
thread that a pre-emption holds counts under code 7 instead (R42, R52). -/
def waitsMarked (s : State) (n : Nat) (x : Ctx) : Bool :=
  (x.dst.role == 1 || x.dst.role == 2) && x.state == ctxLive && !ctxStops x &&
  s.cores.any fun e => e.2.owner == some n && e.2.threads.any fun t => !t.2.held &&
    match t.2.st with
    | .parked _ (.credit ep) _ => x.dst.role == 1 && bit x.dst.epMask ep
    | .parked _ (.packet ep) _ => x.dst.role == 2 && bit x.dst.epMask ep
    | _ => false

/-- A context over one tick (R365, R368). -/
def ctxTick (s : State) (n : Nat) (x : Ctx) : Ctx :=
  let held := (heldByCtx s n).length
  let off := x.state == ctxHeld || x.saving || x.restoring
  { x with
    heldQ := x.heldQ + held
    acct := { x.acct with
      heldCoreTicks := x.acct.heldCoreTicks + held, preemptTicks := x.acct.preemptTicks + b2n off }
    dst := { x.dst with waitTicks := x.dst.waitTicks + b2n (waitsMarked s n x) } }

/-- A partition over one tick: core-ticks held, and its bucket of 32 messages (R371). -/
def partTick (s : State) (p : Nat) (x : Part) : Part :=
  let r := x.refill + irqRate s p
  let x := { x with heldQ := x.heldQ + heldByPart s p }
  if 32 ≤ x.tokens then { x with refill := 0 }
  else if 48000000 ≤ r then { x with tokens := x.tokens + 1, refill := r - 48000000 }
  else { x with refill := r }

/-! ### Nap (R439) -/

/-- Whether every compute-die PLL is stopped. -/
def allStopped (s : State) : Bool := s.clk.dies.all fun e => !e.2.pllOn

/-- Whether no request, in-stack operation, collective or Churn is in flight. -/
def quiet (s : State) : Bool :=
  s.mem.reqs.isEmpty && s.upd.ops.isEmpty && s.upd.contribs.isEmpty && s.upd.snapshots.isEmpty && s.hub.colls.isEmpty &&
  s.hub.reshards.isEmpty

/-- Whether the module stays in Nap: no die has work, and no request is for a stack in self-refresh. -/
def napStays (s : State) : Bool :=
  s.pwr.state == 2 && allStopped s && quiet (modMem s fun m => { m with reqs := [] }) &&
  s.mem.reqs.all fun e => !(tierOf e.2.pa == 1 && bankAsleep s (stackOf e.2.pa * 512))

/-- Since when every PLL has been stopped; Nap ends when work arrives. -/
def napTick (s : State) : State :=
  modPwr s fun p => { p with
    state := if napStays s then 2 else 0
    napSince := if allStopped s then (match p.napSince with | none => some (now s) | some t => some t) else none }

/-! ### One tick -/

/-- The restarts of control cores end: what their journals hold incomplete is carried out as far as the host has answered, no effect a
second time (R401), and their control threads go on (R399). -/
def endRestarts (s : State) : State :=
  let cores := s.recov.restarting
  let s := firmwareGoesOn (modRec s fun r => { r with restarting := [] })
  cores.foldl (fun s cc => if coreStops s cc then s else onControls s cc wakeControl) s

/-- The speed test of logical die 0 ends 2 s after its start, and the contexts that it pre-empted are restored (R438). -/
def endSpeedTest (s : State) : State :=
  match s.pwr.speedTest with
  | none => s
  | some (t, l) =>
    if now s < t + 96000000 then s
    else
      let s := modPwr s fun p => { p with speedTest := none, speedTested := true }
      (l.filter fun n => (getCtx s n).state == ctxHeld).foldl bringBack s

/-- One tick of the 48 MHz clock. In Off there is none; in FATAL and Hold only the always-on domain has one (R21, Table 1.7), and every
compute-die PLL is stopped. -/
def idleTick (s : State) : State :=
  if s.pwr.off then s
  else
    let s := modClk s fun c => { c with tick := c.tick + 1 }
    if s.recov.fatal || s.pwr.inHold then (s.clk.dies.map Prod.fst).foldl pllOffTick s
    else
      let s := endSpeedTest (pumpBells (endRestarts s))
      let s := (s.clk.dies.map Prod.fst).foldl dieTick s
      let s := { s with ctxs := tmap (ctxTick s) s.ctxs, parts := tmap (partTick s) s.parts }
      holdStep (napTick s)

end Machine
end Sys2Proof
end

