-- ==== Sys2Proof/Machine/Bringup.lean ====
section
/-! DEFINITION. Input power, insertion and removal (R424, R425, R431, R432), bring-up (R433 to R438), and the warm reset with what
survives it (R443, R444). -/

namespace Sys2Proof
namespace Machine

open Host

/-! ### Off and power-on (R431, R432, Table 18.7) -/

/-- What the carrier flash holds beside the carrier record: both copies of the protection record, and the firmware slots. -/
def flashOf (s : State) : Sec :=
  { Sec.reset with
    prot := s.sec.prot, protSig := s.sec.protSig, protOther := s.sec.protOther, protOtherSig := s.sec.protOtherSig
    fwSlots := s.sec.fwSlots, activeSlot := s.sec.activeSlot }

/-- What lasts without power: the carrier flash, that is the carrier record, the protection record and the firmware slots; the
contacts and the input; and the model's own fields. -/
def powerOff (s : State) : State :=
  { State.reset with
    pending := s.pending, fresh := s.fresh, serial := s.serial, out := s.out
    sec := flashOf s
    pwr := { Power.reset with
      mated := s.pwr.mated, vinMv := s.pwr.vinMv, pwrgd := false, converting := false, off := true
      copyA := s.pwr.copyA, copyB := s.pwr.copyB, sigA := s.pwr.sigA, sigB := s.pwr.sigB, currentB := s.pwr.currentB } }

/-- The module loses its input or its mating: its links are gone (R432, R417). -/
def goOff (s : State) : State :=
  if s.pwr.off then s
  else
    let s := if s.host.up then emit s .hostLinkDown else s
    powerOff ((s.ports.filter fun e => isUp s e.1).foldl (fun s e => emit s (.portDown e.1)) s)

/-- Whether the input lies in 46 to 58 V. -/
def vinGood (mv : Nat) : Bool := decide (46000 ≤ mv) && decide (mv ≤ 58000)

/-- MATED_N_FALL (R431). -/
def execMatedNFall (vinMv : Nat) (s : State) : Outcome State Fault Refusal :=
  if s.pwr.mated then .next s
  else .next (modPwr s fun p => { p with mated := true, vinMv := vinMv, converting := vinGood vinMv })

/-- MATED_N_RISE (R432). -/
def execMatedNRise (s : State) : Outcome State Fault Refusal :=
  if !s.pwr.mated then .next s
  else .next (modPwr (goOff s) fun p => { p with mated := false, converting := false })

/-- A new life of the module: SLOT is sampled and INCARNATION drawn (R272, R427), from all 32-bit values or from those other than
one. -/
def newLifeOf (s : State) (slot : Nat) (other : Option Nat) : State :=
  let d := (Config.drawn s.fresh).toNat
  let inc := match other with | none => d % 2 ^ 32 | some o => (o + 1 + d % (2 ^ 32 - 1)) % 2 ^ 32
  { s with fresh := s.fresh + 1, peers := { s.peers with self := slot % 8, incarnation := inc } }

/-- POWER_GOOD (R431): power-on reset is released, the tick starts from 0. -/
def execPowerGood (slot : Nat) (s : State) : Outcome State Fault Refusal :=
  if !s.pwr.off || !s.pwr.mated || !s.pwr.converting then .next s
  else .next (newLifeOf (modPwr s fun p => { p with off := false, pwrgd := true }) slot none)

/-! ### The input (R424) -/

/-- The conversion stages are turned off. -/
def stopConversion (s : State) : State := modPwr s fun p => { p with converting := false, pwrgd := false }

/-- INPUT_OUT_OF_RANGE (R424, Table 18.1). Before PWRGD the hot-swap controller stops converting (R431). -/
def execInputOutOfRange (mv : Nat) (s : State) : Outcome State Fault Refusal :=
  if s.pwr.off || vinGood mv then
    .next (if s.pwr.off && s.pwr.mated && !vinGood mv then modPwr s fun p => { p with vinMv := mv, converting := false } else s)
  else if mv < 36000 then .next (modPwr (goOff s) fun p => { p with vinMv := mv })
  else
    let s := settleAlert (modPwr s fun p => { p with
      vinMv := mv, uvOv := true
      excursionSince := match p.excursionSince with | none => some (now s) | some t => some t })
    if mv < 42000 || 60000 ≤ mv then .next (stopConversion (enterFatal s)) else .next s

/-- INPUT_EXCURSION_TIMEOUT (R424): beyond 1 ms. -/
def execInputExcursionTimeout (s : State) : Outcome State Fault Refusal :=
  match s.pwr.excursionSince with
  | none => .next s
  | some t => if running s && decide (t + 48000 < now s) then .next (enterFatal s) else .next s

/-- INPUT_COLLAPSE (R424): below 36 V. Before PWRGD the hot-swap controller stops converting (R431). -/
def execInputCollapse (s : State) : Outcome State Fault Refusal :=
  if s.pwr.off then .next (if s.pwr.mated then modPwr s fun p => { p with vinMv := 0, converting := false } else s) else .next (modPwr (goOff s) fun p => { p with vinMv := 0 })

/-- INPUT_RESTORED (R431, R424). -/
def execInputRestored (mv : Nat) (s : State) : Outcome State Fault Refusal :=
  if !vinGood mv || !s.pwr.mated then .next s
  else .next (modPwr s fun p => { p with
    vinMv := mv, excursionSince := none, converting := if p.off then true else p.converting })

/-! ### Recovery (R435) -/

/-- The module enters recovery: only the boot ROM runs. -/
def enterRecovery (s : State) (code : Nat) : State := modPwr s fun p => { p with service := 3, bootCode := code }

/-- Whether bring-up stands at a stage. -/
def atStage (s : State) (k : Nat) : Bool := running s && !s.pwr.inHold && s.pwr.service == 0 && s.pwr.stage == k

/-! ### Records, identity, firmware (R434, R451) -/

/-- Which copy is used: the valid one with the higher SEQ, A of equals; B when only it is valid. -/
def pickB (p : Power) : Bool :=
  p.checkB == .valid && (p.checkA != .valid || decide (p.copyA.seq < p.copyB.seq))

/-- Dies as the record names them before any is brought up. -/
def namedDies (c : Carrier) (old : Tbl DieClk) : Tbl DieClk :=
  (List.range 9).map fun k =>
    let d := tget DieClk.reset old k
    (k, { DieClk.reset with keepWarm := d.keepWarm, holdoff := d.holdoff, state := if bit c.dieFailed.toNat k then 3 else 0 })

/-- The lane maps of the ports show the spares that the repair map names, until a port trains (R13, R261, Table 10.14). -/
def loadLaneMaps (s : State) : State :=
  let c := carrier s
  (List.range 8).foldl (fun s k => modPort s k fun p => { p with spare := tget 0 c.peerSpare k }) s

/-- RECORD_VERIFY (R434). -/
def execRecordVerify (copyA copyB : CopyCheck) (s : State) : Outcome State Fault Refusal :=
  if !atStage s 0 then .next s
  else
    let s := modPwr s fun p => { p with checkA := copyA, checkB := copyB }
    if copyA != .valid && copyB != .valid then .next (enterRecovery s 1)
    else
      let s := modPwr s fun p => { p with currentB := pickB p, stage := 1 }
      let s := loadLaneMaps (modRec s fun r => { r with failedCores := [] })
      .next (modClk s fun c => { c with dies := namedDies (carrier s) c.dies })

/-- Whether the identity key that a PUF response gives matches ID_DIGEST of the carrier record (R434, R446). -/
def identityMatches (puf : List Byte) : Bool :=
  shake256 (publicKey (Config.pufCorrect puf Config.pufHelper) ctxId) == fit 64 Config.idDigest

/-- The copy of the protection record that is used: the valid one with the higher CFG_SEQ (R453). -/
def pickProt (c : Sec) (current other : CopyCheck) : Sec :=
  if other == .valid && (current != .valid || decide (c.prot.cfgSeq < c.protOther.cfgSeq)) then
    { c with prot := c.protOther, protSig := c.protOtherSig, protOther := c.prot, protOtherSig := c.protSig }
  else c

/-- IDENTITY_CHECK (R434, R446, R453): the keys are regenerated and the identity key checked; then both copies of the protection record
are verified. With no valid copy of it the model enters recovery as after a failed check (DESIGN CHOICE, log 150). -/
def execIdentityCheck (read : IdentityRead) (s : State) : Outcome State Fault Refusal :=
  if !atStage s 1 then .next s
  else if identityMatches read.puf && (read.current == .valid || read.other == .valid) then
    let s := modSec s fun c => { pickProt c read.current read.other with
      puf := Config.pufCorrect read.puf Config.pufHelper, idDigest := fit 64 Config.idDigest }
    .next (modPwr s fun p => { p with stage := 2, idOk := true })
  else .next (enterRecovery s 2)

/-- The image that bring-up loads: of the active slot if accepted, else of the other one if accepted (R451). -/
def bootImage (s : State) : Option FwImage :=
  let ok (k : Nat) : Option FwImage := match tfind s.sec.fwSlots k with
    | none => none
    | some i => if imageResult s i = fwOk then some i else none
  match ok s.sec.activeSlot with
  | some i => some i
  | none => ok (otherSlot s)

/-- FIRMWARE_BOOT (R451). -/
def execFirmwareBoot (s : State) : Outcome State Fault Refusal :=
  if !atStage s 2 then .next s
  else match bootImage s with
    | none => .next (enterRecovery s 3)
    | some i =>
      let s := modSec s fun x => { x with fwRunning := some i }
      let s := modPwr s fun p => { p with stage := 3 }
      .next (if s.pwr.perst then s else modHost s fun h => { h with cfgReady := true })

/-! ### Units in service (R434, R437, R438) -/

/-- Active dies of the repair map in ascending order. -/
def activeDies (s : State) : List Nat := (List.range 9).filter fun k => bit (carrier s).dieActive.toNat k

/-- Logical dies in service, with their physical dies. -/
def servingDies (s : State) : List (Nat × Nat) :=
  (List.range 8).filterMap fun l => (physDie s l).map fun k => (l, k)

/-- Logical dies that were lost in service and still wait for a spare. -/
def goneDies (s : State) : List Nat := s.recov.lostDies.filter fun l => thas s.recov.diePhys l

/-- The logical order of the dies (R14): those in service keep their index; the other active dies that are not lost take the
indices that are left, in ascending order. -/
def dieOrder (s : State) : List (Nat × Nat) :=
  let held := servingDies s
  let ls := (List.range 8).filter fun l => !(held.any fun e => e.1 == l) && !(goneDies s).contains l
  let ks := (activeDies s).filter fun k => !(held.any fun e => e.2 == k) && (getDie s k).state != 3
  held ++ ls.zip ks

/-- Logical stacks in service before full service. -/
def servingStacks (s : State) : Nat := if s.pwr.service = 1 then 4 else 0

/-- The physical stacks of the logical stacks that are not in service, in ascending order (R207). -/
def stackOrder (s : State) : List (Nat × Nat) :=
  let held := (List.range (servingStacks s)).map (physStack s)
  ((List.range 16).drop (servingStacks s)).zip
    ((List.range 18).filter fun k => bit (carrier s).stackActive.toNat k && !held.contains k)

/-- Logical cores of a logical die that no active core holds. -/
def missingCores (s : State) (l k : Nat) : List Nat :=
  ((List.range 128).drop (activeCoresOf s k).length).map fun i => 128 * l + i

/-- The logical order of a repair map (R14, R207): logical indices that no unit holds are lost. Units in service keep their indices
until the next bring-up. -/
def assignUnits (s : State) : State :=
  let order := dieOrder s
  let serving (l : Nat) : Bool := (servingDies s).any fun e => e.1 == l
  let cores := (s.recov.lostCores.filter fun c => serving (c / 128)) ++
    (order.filter fun e => !serving e.1).flatMap fun e => missingCores s e.1 e.2
  let placed := stackOrder s
  let s := modRec s fun r => { r with
    lostDies := goneDies s ++ (List.range 8).filter fun l => !(order.any fun e => e.1 == l) && !(goneDies s).contains l
    lostStacks := (r.lostStacks.filter fun k => k < servingStacks s) ++
      ((List.range 16).drop (servingStacks s)).filter fun k => !(placed.any fun e => e.1 == k)
    lostCores := cores, corePhys := r.corePhys.filter fun e => serving (e.1 / 128)
    stackPhys := placed.foldl (fun t e => tput t e.1 e.2) (r.stackPhys.filter fun e => decide (e.1 < servingStacks s)) }
  let s := { s with cores := tmap (fun c x => { x with lost := cores.contains c }) s.cores }
  cores.foldl (fun s c => modCore s c fun x => { x with lost := true }) s

/-- A die is brought up at a clock under a logical index. -/
def bringDie (s : State) (freq : Nat) (e : Nat × Nat) : State :=
  modDie s e.2 fun d => { d with state := 2, logical := e.1, pllOn := true, freq := freq, idleTicks := 0, starting := false }

/-- Whether a record names too few good units for its logical map: DEGRADED from the start (R436). -/
def recordShort (c : Carrier) : Bool :=
  let ones (n v : Nat) := ((List.range n).filter (bit v)).length
  decide (ones 9 c.dieActive.toNat < 8) || decide (ones 18 c.stackActive.toNat < 16) ||
  (List.range 9).any fun k => bit c.dieActive.toNat k && decide (ones 136 (tget 0 c.coreMap k).toNat < 128)

/-- What the record shows of spares left: DEGRADED, and SPARE_DIE of CD8 (Table 16.7). -/
def noteRecord (s : State) : State :=
  let c := carrier s
  let s := if recordShort c then setDegraded s else s
  modRec s fun r => { r with spareDie := if bit c.dieFailed.toNat 8 then 3 else if bit c.dieActive.toNat 8 then 2 else r.spareDie }

/-- EARLY_SERVICE (R437): logical die 0 at 550 MHz and stacks 0 to 3; the other active dies are in self-test. -/
def execEarlyService (s : State) : Outcome State Fault Refusal :=
  if !(atStage s 3 || atStage s 4) || (activeDies s).isEmpty then .next s
  else
    let s := assignUnits s
    let s := (activeDies s).foldl (fun s k => modDie s k fun d => { d with state := 1 }) s
    let s := ((dieOrder s).take 1).foldl (fun s e => bringDie s 550 e) s
    .next (recomputeEnt (noteRecord (modPwr s fun p => { p with service := 1, stage := 5 })))

/-- A unit fails its test: its event, class, kind and number in the log. -/
def failLog : Unit1 → Nat × LogUnit
  | .die k => (0x0A, { cls := 4, kind := 2, unit := k })
  | .core d c => (0x08, { cls := 2, kind := 1, unit := 136 * d + c })
  | .stack k => (0x0C, { cls := 3, kind := 3, unit := k })
  | .bridgeLane _ _ => (0x05, { cls := 1, kind := 0, unit := 0 })
  | .peerLane p k => (0x05, { cls := 1, kind := 5, unit := 32 * p + k })

/-- The lowest unit in neither set of a map. -/
def lowestSpare (n failed active : Nat) : Option Nat := (List.range n).find? fun k => !bit failed k && !bit active k

/-- The lowest spare peer lane takes a failed lane's stripe; a spare that fails is a spare no more. -/
def dropLane (sp : BitVec 18) (k : Nat) : BitVec 18 := if bit sp.toNat k then putBit sp k false else sp &&& ~~~(lowLanes sp 1)

/-- The lowest core of a die that is mapped out and is not one that failed, each as 136 × die + core (R15). -/
def goodCore (bad : List Nat) (c : Carrier) (d : Nat) : Option Nat :=
  (List.range 136).find? fun i => !bit (tget 0 c.coreMap d).toNat i && !bad.contains (136 * d + i)

/-- The repair map with a unit failed and a spare of its level and group in its place (R15, R434); `bad` are the cores that failed. -/
def repairMap (bad : List Nat) (c : Carrier) : Unit1 → Carrier
  | .die k =>
    let was := bit c.dieActive.toNat k
    let c := { c with dieFailed := putBit c.dieFailed k true, dieActive := putBit c.dieActive k false }
    match was, lowestSpare 9 c.dieFailed.toNat c.dieActive.toNat with
    | true, some sp => { c with dieActive := putBit c.dieActive sp true }
    | _, _ => c
  | .stack k =>
    let was := bit c.stackActive.toNat k
    let c := { c with stackFailed := putBit c.stackFailed k true, stackActive := putBit c.stackActive k false }
    match was, lowestSpare 18 c.stackFailed.toNat c.stackActive.toNat with
    | true, some sp => { c with stackActive := putBit c.stackActive sp true }
    | _, _ => c
  | .core d k =>
    let m := tget 0 c.coreMap d
    if !bit m.toNat k then c
    else
      let sp := goodCore bad c d
      let m := putBit m k false
      { c with coreMap := tput c.coreMap d (match sp with | some i => putBit m i true | none => m) }
  | .bridgeLane g l =>
    let e := tget (false, 0xF) c.bridgeMap g
    { c with bridgeMap := tput c.bridgeMap g (if e.2 = 0xF then (e.1, l) else (true, e.2)) }
  | .peerLane p k =>
    { c with peerBad := tput c.peerBad p (putBit (tget 0 c.peerBad p) k true)
             peerSpare := tput c.peerSpare p (dropLane (tget 0 c.peerSpare p) k) }

/-- Whether a failed unit found no spare. -/
def noSpare (bad : List Nat) (c : Carrier) : Unit1 → Bool
  | .die k => bit c.dieActive.toNat k && (lowestSpare 9 c.dieFailed.toNat c.dieActive.toNat).isNone
  | .stack k => bit c.stackActive.toNat k && (lowestSpare 18 c.stackFailed.toNat c.stackActive.toNat).isNone
  | .core d k => bit (tget 0 c.coreMap d).toNat k && (goodCore bad c d).isNone
  | _ => false

/-- The cores among units that failed. -/
def failedCoresOf (l : List Unit1) : List Nat := l.filterMap fun u => match u with | .core d c => some (136 * d + c) | _ => none

/-- Whether the record already names a unit failed: such a unit is never tested again (R434). -/
def namedFailed (bad : List Nat) (c : Carrier) : Unit1 → Bool
  | .die k => bit c.dieFailed.toNat k
  | .stack k => bit c.stackFailed.toNat k
  | .core d k => bad.contains (136 * d + k)
  | .bridgeLane g l => (tget (false, 0xF) c.bridgeMap g).2 == l
  | .peerLane p k => bit (tget 0 c.peerBad p).toNat k

/-- Failed units that were tested are marked, counted, logged and replaced, and the new map is recorded. -/
def failUnits (s : State) (l : List Unit1) : State :=
  let l := l.filter fun u => !namedFailed s.recov.failedCores (carrier s) u
  let s := l.foldl (fun s u => logEvent s (failLog u).1 (failLog u).2 0 none 0) s
  let s := modPwr s fun p => { p with failedUnits := min 0xFFFF (p.failedUnits + l.length) }
  let s := modRec s fun r => { r with failedCores := r.failedCores ++ failedCoresOf l }
  let bad := s.recov.failedCores
  let (c, short) := l.foldl (fun (a : Carrier × Bool) u => (repairMap bad a.1 u, a.2 || noSpare bad a.1 u)) (carrier s, false)
  let s := if l.isEmpty then s else loadLaneMaps (saveCarrier s fun _ => c)
  let s := if short then setDegraded s else s
  let spare := (lowestSpare 9 (carrier s).dieFailed.toNat (carrier s).dieActive.toNat).isSome
  let used := l.any fun u => match u with | .die k => k != 8 | _ => false
  let s := modRec s fun r => { r with spareDie := if spare then 0 else if used then 2 else if r.spareDie = 0 then 3 else r.spareDie }
  modClk s fun k => { k with dies := tmap (fun i d => if bit (carrier s).dieFailed.toNat i then { d with state := 3, pllOn := false, logical := 0xF } else d) k.dies }

/-- UNIT_SELF_TEST_DONE (R434): of logical die 0 before early service; of everything else after it, when the units in service keep
their indices (R14). -/
def execUnitSelfTestDone (failed : List Unit1) (s : State) : Outcome State Fault Refusal :=
  if atStage s 3 || atStage s 4 then .next (failUnits s failed)
  else if running s && s.pwr.service == 1 && !s.pwr.selfTested then
    let frozen := freezeStacks ((servingDies s).foldl (fun s e => freezeCores s e.1) s)
    let s := assignUnits (failUnits frozen failed)
    .next (modPwr s fun p => { p with selfTested := true })
  else .next s

/-- Contexts that hold cores of logical die 0, LIVE. -/
def onDie0 (s : State) : List Nat := ctxsWhere s fun x => x.state == ctxLive && x.coreset.any fun c => decide (c < 128)

/-- SPEED_TEST (R438): its contexts are pre-empted and stay HELD for the 2 s of the test, which ends at a tick (`endSpeedTest`, log
111); it waits for a LOADP in progress (Table 6.5). -/
def execSpeedTest (s : State) : Outcome State Fault Refusal :=
  let l := onDie0 s
  if !running s || s.pwr.service != 1 || !s.pwr.selfTested || s.pwr.speedTested || s.pwr.speedTest.isSome ||
      (l.any fun n => (getCtx s n).loadp.isSome) then .next s
  else
    let s := l.foldl (fun s n => saveAll (preempt s n) n) s
    .next (modPwr s fun p => { p with speedTest := some (now s, l) })

/-- Peer ports with ENABLE 1 leave DISABLED (R438, R441). -/
def enablePorts (s : State) : State :=
  (List.range 8).foldl (fun s k =>
    if (getPort s k).enable && (getPort s k).state == ptDisabled then portMoves s k ptDetect else s) s

/-- FULL_SERVICE (R438). -/
def execFullService (s : State) : Outcome State Fault Refusal :=
  if !running s || s.pwr.service != 1 || !s.pwr.selfTested || !s.pwr.speedTested then .next s
  else
    let s := (dieOrder s).foldl (fun s e => bringDie s 1100 e) s
    let s := modPwr s fun p => { p with service := 2, stage := 6 }
    .next (coresFreed (recomputeEnt (enablePorts s)))

/-! ### The warm reset (R443, R444) -/

/-- Partition settings marked D; counters stay. -/
def warmPart (x : Part) : Part :=
  { Part.reset with
    irqDeferred := x.irqDeferred, energyMj := x.energyMj, resets := x.resets, cmdCompleted := x.cmdCompleted
    rqAccepted := x.rqAccepted, rqEnded := x.rqEnded, rqEvictions := x.rqEvictions, mdlLoads := x.mdlLoads
    mdlEvictions := x.mdlEvictions, mdlReplaces := x.mdlReplaces, mdlEpochErrors := x.mdlEpochErrors
    dlMoved := x.dlMoved, dlEnded := x.dlEnded }

/-- Port settings marked D; counters stay. -/
def warmPort (p : Port) : Port :=
  { quietPort p with
    enable := true, replayMax := 4, wC1 := 8, wC2 := 4, wC3 := 1, laneLimit := 4096, bad := 0, spare := 0
    viaPartner := false, wiringErr := false, farPeer := 0, farPort := 0, rxNext := 0, txNext := 0 }

/-- Table 18.7, column Warm, of what is not work: settings marked D, security, power, recovery. The table has no row for FW_STAGE_PA,
FW_BYTES, BODY_PA and SIG_PA, which return to their reset values (DESIGN CHOICE, log 144). -/
def warmSettings (s : State) : State :=
  { s with
    parts := tmap (fun _ x => warmPart x) s.parts
    ports := tmap (fun _ p => warmPort p) s.ports
    quantumUs := 1000
    mem := { s.mem with hintGroups := 0, hintRefused := false, lateT2 := 4800, lateT3 := 24000, lateT4 := 96000 }
    clk := { s.clk with
      throttling := false, issueWithheld := 0, sustainedW := 3200, lowered := 0, aboveSamples := 0, relaxSamples := 0, hot := false
      dies := [], edge := [], stallEnable := true, stallLimitUs := 10000 }
    recov := { s.recov with
      fatal := false, degraded := false, spareDie := 0, logIrqEn := false, logIrqVec := 0, lostDies := [], lostStacks := []
      lostChannels := [], lostCores := [], stackSpares := [], corePhys := [], stackPhys := [], diePhys := [], bridgeSwaps := []
      failedCores := [], rerouted := [], restarting := [], journals := [], journalCopies := [] }
    sec := { flashOf s with
      fwIgnored := s.sec.fwIgnored, badSigs := s.sec.badSigs, applied := s.sec.applied, expired := s.sec.expired }
    pwr := { s.pwr with
      pwrgd := true, converting := true, inHold := false, holdAsked := false, state := 0, service := 0, napEn := true
      pin := 0, napAfterUs := 1000
      napSince := none, stage := 0, bootCode := 0, failedUnits := 0, warmResets := s.pwr.warmResets + 1, selfTested := false
      speedTested := false, speedTest := none, idOk := false } }

/-- The module is reset and begins bring-up again (R443); out of FATAL only while the input is good (R425). -/
def warmReset (s : State) (slot : Nat) : State :=
  if s.pwr.off || (s.recov.fatal && !vinGood s.pwr.vinMv) then s
  else
    let s := if s.host.up then emit s .hostLinkDown else s
    let s := loseConfig (stopAll s)
    settleAlert (newLifeOf (loadLaneMaps (warmSettings s)) slot (some s.peers.incarnation))

/-- WARM (R443): a PF write of 1 to PWR.CTL.WARM. -/
def execWarm (slot : Nat) (s : State) : Outcome State Fault Refusal :=
  if hostUp s then .next (warmReset s slot) else .next s

end Machine
end Sys2Proof
end

