-- ==== Sys2Proof/Machine/Change.lean ====
section
/-! DEFINITION. Change records (R454 to R459): their form, their signatures, their windows and their application. -/

namespace Sys2Proof
namespace Machine

open Host

/-! ### Slots -/

/-- States of Table 19.8. -/
def csEmpty : Nat := 0
def csPending : Nat := 1
def csSigned1 : Nat := 2
def csApplying : Nat := 3
def csApplied : Nat := 4
def csExpired : Nat := 5
def csRejected : Nat := 6

/-- Results of Table 19.10. -/
def crBadFormat : Nat := 1
def crWrongModule : Nat := 2
def crStale : Nat := 3
def crCheck : Nat := 4

def getSlot (s : State) (i : Nat) : CrSlot := tget CrSlot.reset s.sec.slots i
def setCr (s : State) (i : Nat) (x : CrSlot) : State := modSec s fun c => { c with slots := tput c.slots i x }

/-- A slot ends in a state with a result. -/
def endSlot (s : State) (i state result : Nat) : State := setCr s i { getSlot s i with state := state, result := result }

/-- A slot whose window has passed. -/
def expireSlot (s : State) (i : Nat) : State :=
  modSec (endSlot s i csExpired 0) fun x => { x with expired := x.expired + 1 }

/-- A signature that counts for nothing. -/
def badSig (s : State) : State := modSec s fun x => { x with badSigs := x.badSigs + 1 }

/-! ### The body (Tables 19.6, 19.7) -/

/-- Word `i` of a body; the payload starts at word 32. -/
def bodyWord (b : List Byte) (i : Nat) : Nat := leNat (slice b (8 * i) 8)
def payWord (b : List Byte) (i : Nat) : Nat := bodyWord b (32 + i)

def bodyKind (b : List Byte) : Nat := bits (bodyWord b 0) 55 52
def bodyIndex (b : List Byte) : Nat := bits (bodyWord b 0) 51 46
def bodyGrains (b : List Byte) : Nat := bits (bodyWord b 0) 7 0

/-- Payload grains of a KIND; none is reserved. -/
def kindGrains (k : Nat) : Option Nat := match k with | 1 => some 1 | 2 => some 3 | 3 => some 1 | 4 => some 1 | _ => none

/-- Whether the bytes from `off` on are 0. -/
def zeroFrom (b : List Byte) (off : Nat) : Bool := (b.drop off).all fun x => x == 0

/-- Whether words of a payload have no bit outside a mask. -/
def wordsIn (b : List Byte) (ws : List Nat) (mask : Nat) : Bool := ws.all fun i => payWord b i &&& mask == payWord b i

/-- Bits [47:21]. -/
def pageMask : Nat := 0x0000FFFFFFE00000

/-- The payload of each KIND is formed as Table 19.7 says. -/
def payloadOk (b : List Byte) : Bool :=
  match bodyKind b with
  | 1 =>
    wordsIn b [0] (0xC000000000000000 + 0xFFF00000000 + 0x1FFF0000 + 0xFFF) &&
    decide (bits (payWord b 0) 43 32 ≤ 2048) && decide (bits (payWord b 0) 28 16 ≤ 4096) &&
    wordsIn b ((List.range 8).map fun w => 1 + 2 * w) (0x8000000000000000 + pageMask) &&
    wordsIn b ((List.range 8).map fun w => 2 + 2 * w) pageMask && zeroFrom b (256 + 8 * 17)
  | 2 =>
    wordsIn b ((List.range 16).map fun r => 64 + 2 * r) (0xFFC0000000000000 + pageMask) &&
    wordsIn b ((List.range 16).map fun r => 65 + 2 * r) pageMask
  | 3 =>
    wordsIn b [0] (2 ^ 33 - 1) && decide (48000000 ≤ payWord b 1) && decide (payWord b 1 ≤ 4147200000000) &&
    zeroFrom b (256 + 16)
  | _ => zeroFrom b (256 + 128)

/-- The form of a body, its length as its header says (R457). -/
def bodyOk (b : List Byte) : Bool :=
  bits (bodyWord b 0) 63 56 == 1 && kindGrains (bodyKind b) == some (bodyGrains b) && bits (bodyWord b 0) 45 8 == 0 &&
  (bodyKind b == 1 || bodyIndex b == 0) && ((slice b 80 176).all fun x => x == 0) && payloadOk b

/-- The partition entry that a PARTITION record gives. -/
def newEntry (b : List Byte) : PartEntry :=
  let w0 := payWord b 0
  { enabled := bit w0 63, privOk := bit w0 62, vecCount := bits w0 43 32, ctxCount := bits w0 28 16, ctxFirst := bits w0 11 0
    windows := (List.range 8).filterMap fun w =>
      if bit (payWord b (1 + 2 * w)) 63 then
        some (w, { first := bits (payWord b (1 + 2 * w)) 47 21, last := bits (payWord b (2 + 2 * w)) 47 21 })
      else none }

/-- The rules that a LINK_RULES record gives. -/
def newRules (b : List Byte) : Tbl LinkRule :=
  (List.range 16).filterMap fun r =>
    let a := payWord b (64 + 2 * r)
    if bit a 63 then
      some (r, { write := bit a 62, peers := BitVec.ofNat 8 (bits a 61 54), first := bits a 47 21,
                 last := bits (payWord b (65 + 2 * r)) 47 21 })
    else none

/-- The settings that result from a body. -/
def newSettings (p : Protection) (b : List Byte) : Protection :=
  let p := { p with cfgSeq := p.cfgSeq + 1 }
  match bodyKind b with
  | 1 => { p with parts := tput p.parts (bodyIndex b) (newEntry b) }
  | 2 => { p with
      peerKeys := (List.range 8).map fun k => (k, slice b (256 + 64 * k) 64)
      rules := newRules b }
  | 3 => { p with cosign := bit (payWord b 0) 32, minFw := bits (payWord b 0) 31 0, window := payWord b 1 }
  | _ => { p with operatorKey := slice b 256 64, custodianKey := slice b 320 64, enrolled := true }

/-! ### SUBMIT (R457) -/

/-- Whether a write of a PF register of the security block is taken: not in recovery (R460). -/
def secUp (s : State) : Bool := hostUp s && !inRecovery s

/-- The body at BODY_PA: its header says its length; none lies outside the windows of partition 0. One that reads poisoned is taken as
none (DESIGN CHOICE, log 158). -/
def readBody (s : State) (pa : Nat) : Option (List Byte) × State :=
  if !inWindows s 0 pa 256 then (none, s)
  else
    let (hd, bad, s) := fwFetch s pa 256
    let n := bits (bodyWord hd 0) 7 0
    if bad || !inWindows s 0 pa (256 + 256 * n) then (none, s)
    else
      let (bs, bad, s) := fwFetch s (pa + 256) (256 * n)
      (if bad then none else some (hd ++ bs), s)

/-- What a SUBMIT makes of its slot, of the body read. -/
def submitted (s : State) (x : CrSlot) (body : Option (List Byte)) : CrSlot :=
  let x := { CrSlot.reset with bodyPa := x.bodyPa, sigPa := x.sigPa, submitTick := now s, window := s.sec.prot.window }
  match body with
  | none => { x with state := csRejected, result := crBadFormat }
  | some b =>
    let x := { x with body := b, digest := leNat (shake256 b) }
    if !bodyOk b then { x with state := csRejected, result := crBadFormat }
    else if slice b 16 64 != s.sec.idDigest then { x with state := csRejected, result := crWrongModule }
    else { x with state := csPending }

/-- CR_SUBMIT (R457): of a slot that is EMPTY, APPLIED, EXPIRED or REJECTED. -/
def execCrSubmit (i : Nat) (s : State) : Outcome State Fault Refusal :=
  let x := getSlot s i
  if !secUp s || 4 ≤ i || x.state = csPending || x.state = csSigned1 || x.state = csApplying then .next s
  else
    let (body, s) := readBody s x.bodyPa
    .next (setCr s i (submitted s x body))

/-! ### SIGN (R454, R456) -/

/-- The keys whose signatures count for a slot: the enrolled ones, or those that a KEYS record names to an unenrolled module. -/
def roleKeys (p : Protection) (b : List Byte) : Option (List Byte × List Byte) :=
  if p.enrolled then some (p.operatorKey, p.custodianKey)
  else if bodyKind b = 4 then some (slice b 256 64, slice b 320 64) else none

/-- The signature at SIG_PA, when it lies in a window of partition 0; one that reads poisoned is none. -/
def sigOf (s : State) (x : CrSlot) : Option (List Byte) × State :=
  if !inWindows s 0 x.sigPa sigBytes then (none, s)
  else
    let (bs, bad, s) := fwFetch s x.sigPa sigBytes
    (if bad then none else some bs, s)

/-- The role that signed: 0 operator, 1 custodian. -/
def signerOf (s : State) (x : CrSlot) (sig : List Byte) : Option Nat :=
  match roleKeys s.sec.prot x.body with
  | none => none
  | some (o, c) =>
    let d := leBytes 64 x.digest
    if Config.slhVerify o ctxCr d sig then some 0
    else if Config.slhVerify c ctxCr d sig then some 1 else none

/-- Whether both signatures of a slot verify under the keys that count now: a record takes effect only then (R454). -/
def signedNow (s : State) (x : CrSlot) : Bool :=
  match roleKeys s.sec.prot x.body with
  | none => false
  | some (o, c) =>
    Config.slhVerify o ctxCr (leBytes 64 x.digest) x.opSig && Config.slhVerify c ctxCr (leBytes 64 x.digest) x.cuSig

/-- A valid signature of a role. -/
def addSign (s : State) (i : Nat) (x : CrSlot) (role : Nat) (sig : List Byte) : State :=
  let x := if role = 0 then { x with operator := true, opSig := sig } else { x with custodian := true, cuSig := sig }
  if x.operator && x.custodian then
    modSec (setCr s i { x with state := csApplying, order := s.sec.nextOrder }) fun c => { c with nextOrder := c.nextOrder + 1 }
  else setCr s i { x with state := csSigned1, firstTick := now s, window := s.sec.prot.window }

/-- Whether the window of a slot has passed (Table 19.8). -/
def windowPassed (s : State) (x : CrSlot) : Bool :=
  (x.state == csPending && decide (x.submitTick + x.window ≤ now s)) ||
  (x.state == csSigned1 && decide (x.firstTick + x.window < now s))

/-- CR_SIGN (R456): a signature that does not verify, or comes again from its role, counts in BAD_SIGS in every state of the slot; a new
one counts for a slot that is PENDING or SIGNED1 only. -/
def execCrSign (i : Nat) (s : State) : Outcome State Fault Refusal :=
  let x := getSlot s i
  if !secUp s || 4 ≤ i then .next s
  else if windowPassed s x then .next (expireSlot s i)
  else
    let (sig, s) := sigOf s x
    match sig.bind fun sig => (signerOf s x sig).map fun r => (r, sig) with
    | none => .next (badSig s)
    | some (r, sig) =>
      if (r = 0 && x.operator) || (r = 1 && x.custodian) then .next (badSig s)
      else if x.state = csPending || x.state = csSigned1 then .next (addSign s i x r sig) else .next s

/-- CR_CLEAR (R456): except while APPLYING. -/
def execCrClear (i : Nat) (s : State) : Outcome State Fault Refusal :=
  let x := getSlot s i
  if !secUp s || 4 ≤ i || x.state = csApplying then .next s
  else .next (setCr s i { CrSlot.reset with bodyPa := x.bodyPa, sigPa := x.sigPa })

/-- CR_WINDOW_EXPIRY (R456). -/
def execCrWindowExpiry (i : Nat) (s : State) : Outcome State Fault Refusal :=
  if running s && windowPassed s (getSlot s i) then .next (expireSlot s i) else .next s

/-! ### Application (R355, R458) -/

/-- The pages of a run that lie in no window of a list. -/
def pagesOutside (ws : List Window) (lo hi : Nat) : List (Nat × Nat) :=
  ws.foldl (fun runs w => runs.flatMap fun r =>
    (if r.1 < w.first then [(r.1, min r.2 (w.first - 1))] else []) ++
    (if w.last < r.2 then [(max r.1 (w.last + 1), r.2)] else [])) (if lo ≤ hi then [(lo, hi)] else [])

/-- Whether two entries' context ranges meet. -/
def ctxsMeet (a b : PartEntry) : Bool := overlap a.ctxFirst a.ctxCount b.ctxFirst b.ctxCount

def windowsMeet (a b : Window) : Bool := decide (a.first ≤ b.last) && decide (b.first ≤ a.last)

/-- Whether a window lies in tiers 1 and 2, or in the host window (R355). -/
def windowOk (w : Window) : Bool :=
  decide (w.first ≤ w.last) &&
  (decide ((w.last + 1) * pageBytes ≤ tier2End) || (decide (hostBase ≤ w.first * pageBytes) && decide ((w.last + 1) * pageBytes ≤ paEnd)))

/-- Whether no two elements of a list meet. -/
def noneMeet {α : Type} (f : α → α → Bool) : List α → Bool
  | [] => true
  | x :: xs => (xs.all fun y => !f x y) && noneMeet f xs

/-- The partition table meets R355. -/
def tableOk (p : Protection) : Bool :=
  let on := (p.parts.filter fun e => e.2.enabled).map Prod.snd
  let ws := p.parts.flatMap fun e => e.2.windows.map Prod.snd
  noneMeet ctxsMeet on && noneMeet windowsMeet ws && (ws.all windowOk) && on.all fun e => decide (e.ctxFirst + e.ctxCount ≤ 4096)

/-- Every export rule lies wholly within the tier 1 and tier 2 windows of one enabled partition (R458). -/
def rulesOk (p : Protection) : Bool :=
  p.rules.all fun r => decide (r.2.first ≤ r.2.last) && decide ((r.2.last + 1) * pageBytes ≤ tier2End) &&
    p.parts.any fun e => e.2.enabled && (pagesOutside (e.2.windows.map Prod.snd) r.2.first r.2.last).isEmpty

/-- Whether a new entry takes contexts or windows from an enabled partition, or disables it. -/
def removes (old e : PartEntry) : Bool :=
  old.enabled && (!e.enabled ||
    (decide (0 < old.ctxCount) &&
      (decide (old.ctxFirst < e.ctxFirst) || decide (e.ctxFirst + e.ctxCount < old.ctxFirst + old.ctxCount))) ||
    old.windows.any fun w => !(pagesOutside (e.windows.map Prod.snd) w.2.first w.2.last).isEmpty)

/-- The record is written and in effect (R458 step 4). An activation that waited begins when no record is applying. -/
def applySlot (s : State) (i : Nat) (x : CrSlot) : State :=
  let s := modSec (saveProt s (newSettings s.sec.prot x.body)) fun c => { c with applied := c.applied + 1 }
  endSlot s i csApplied 0

/-- An activation that waited for records begins when none is applying. -/
def goOnActivate (s : State) : State := if s.sec.fwMode = 1 && !applying s then startActivate s else s

/-- The APPLYING slot whose turn it is. -/
def turnOf (s : State) : Option Nat :=
  (minBy (fun e : Nat × CrSlot => e.2.order) (s.sec.slots.filter fun e => e.2.state == csApplying)).map Prod.fst

/-- One application goes on: checks, reset, write (R458). A record whose signatures do not both verify under the keys enrolled by now
takes no effect (R454): it ends with CHECK (DESIGN CHOICE, log 149). -/
def stepApply (s : State) (i : Nat) (x : CrSlot) : State :=
  let p := newSettings s.sec.prot x.body
  let k := bodyIndex x.body
  let isPart := bodyKind x.body == 1
  if bodyWord x.body 1 != s.sec.prot.cfgSeq then endSlot s i csRejected crStale
  else if !signedNow s x || !tableOk p || !rulesOk p || (bodyKind x.body = 4 && p.operatorKey == p.custodianKey) then endSlot s i csRejected crCheck
  else if isPart && (getPart s k).resetting then setCr s i { x with awaitReset := true }
  else if isPart && !x.awaitReset && removes (partEntry s k) (newEntry x.body) then
    setCr (resetPart s k) i { x with awaitReset := true }
  else applySlot s i x

/-- The application of a slot whose turn it is goes on. -/
def applyTurn (s : State) (i : Nat) : State := goOnActivate (stepApply s i (getSlot s i))

/-- CR_APPLY (R458). -/
def execCrApply (i : Nat) (s : State) : Outcome State Fault Refusal :=
  if !running s || turnOf s != some i then .next s else .next (applyTurn s i)

/-- RESET_SCRUB_DONE: the last steps of R375, once every context of the partition is ENDED, and no line of its windows waits on a
back-invalidate (R414). A change of the partition that waited for
the reset takes effect when it completes (R355). -/
def execResetScrubDone (part : Nat) (s : State) : Outcome State Fault Refusal :=
  if !(getPart s part).resetting || s.ctxs.any (fun e => e.2.part == part && e.2.state == ctxEnding) then .next s
  else
    let s := snoopWindows s part
    if windowsWait s part then .next s else
    let s := finishReset s part
    match turnOf s with
    | some i => if (getSlot s i).awaitReset && bodyIndex (getSlot s i).body == part then .next (applyTurn s i) else .next s
    | none => .next s

end Machine
end Sys2Proof
end

