-- ==== Sys2Proof/Machine/Control.lean ====
section
/-! DEFINITION. Control and scalar instructions: SALU to DWR (R156 to R160), FLOW (R161), RDSYS (R162), CTRL (R163, R77, R95,
R364), the notify slot (R422), and words with a reserved MAJOR or SUB (R130). -/

namespace Sys2Proof
namespace Machine

open Host

/-! ### SALU and SCMP -/

/-- The extension word of an instruction (R89); a control thread's lies in its code, in its address space. -/
def extWord (s : State) (a : Agent) (n : Nat) (w : Word) : Except (Nat × Nat) Word × State :=
  match a with
  | .thread c _ => (.ok (codeWord (getCore s c) (iImm w)), s)
  | .ctl _ =>
    let va := (getCtx s n).ctl.codeVa + 8 * iImm w
    match translate s n va false with
    | .error e => (.error (e, va), s)
    | .ok pa =>
      let (d, t, s) := readGrain s pa
      if t.poison then (.error (fcPoison, va), s) else (.ok (w64 (leNat (slice d (pa % 256) 8))), s)

/-- The result of SALU. -/
def saluFn (fn : Nat) (x b : Word) : Word :=
  match fn with
  | 0 => x + b
  | 1 => x - b
  | 2 => x * b
  | 3 => x &&& b
  | 4 => x ||| b
  | 5 => x ^^^ b
  | 6 => x <<< (b.toNat % 64)
  | 7 => x >>> (b.toNat % 64)
  | 8 => x.sshiftRight (b.toNat % 64)
  | 9 => if x.toNat ≤ b.toNat then x else b
  | _ => if x.toNat ≤ b.toNat then b else x

def rowSalu : Row :=
  { cls := 7, maj := 0, sub := always,
    regs := fun w => { dst := .s, src1 := .s, src2 := if iExt w || bit (iImm w) 25 then .none else .s, src3 := .none },
    cores := true, ctl := true, ext := true, legal := fun w => iExt w || decide (bits (iImm w) 31 26 ≤ 0xA) }

def execSalu (a : Agent) (w : Word) (s : State) : Outcome State Fault Refusal :=
  runInstr rowSalu a w (fun n s =>
    let x := sOf s a (iSrc1 w)
    if iExt w then
      match extWord s a n w with
      | (.error e, _) => .fault e.1 e.2 true
      | (.ok b, s) => .done (putS s a (iDst w) (x + b))
    else
      let b := if bit (iImm w) 25 then imm25 w else sOf s a (iSrc2 w)
      .done (putS s a (iDst w) (saluFn (bits (iImm w) 31 26) x b))) s

/-- The condition of SCMP. -/
def scmpCc (cc : Nat) (x b : Word) : Bool :=
  match cc with
  | 0 => x == b
  | 1 => x != b
  | 2 => decide (x.toInt < b.toInt)
  | 3 => decide (x.toInt ≤ b.toInt)
  | 4 => decide (x.toNat < b.toNat)
  | _ => decide (x.toNat ≤ b.toNat)

def rowScmp : Row :=
  { cls := 7, maj := 1, sub := always,
    regs := fun w => { dst := .p, src1 := .s, src2 := if bit (iImm w) 28 then .none else .s, src3 := .none },
    cores := true, ctl := true, ext := false,
    legal := fun w => decide (bits (iImm w) 31 29 ≤ 5) && bits (iImm w) 27 25 == 0 }

def execScmp (a : Agent) (w : Word) (s : State) : Outcome State Fault Refusal :=
  runInstr rowScmp a w (fun _ s =>
    let b := if bit (iImm w) 28 then imm25 w else sOf s a (iSrc2 w)
    .done (modThread s a fun t => setP t (iDst w) (scmpCc (bits (iImm w) 31 29) (sOf s a (iSrc1 w)) b))) s

/-! ### BR -/

def rowBr : Row :=
  { cls := 7, maj := 2, sub := always,
    regs := fun w => { dst := .none, src1 := if bit (iImm w) 31 then .s else .none, src2 := .none, src3 := .none },
    cores := true, ctl := true, ext := false, legal := fun w => bits (iImm w) 30 16 == 0 }

def execBr (a : Agent) (w : Word) (s : State) : Outcome State Fault Refusal :=
  runInstr rowBr a w (fun _ s =>
    .jump s (if bit (iImm w) 31 then fld (sOf s a (iSrc1 w)) 15 0 else bits (iImm w) 15 0)) s

/-! ### SMEM (R159) -/

/-- The address of SMEM, bits [2:0] ignored. -/
def smemAddr (s : State) (a : Agent) (w : Word) : Nat :=
  (sOf s a (iSrc1 w) + BitVec.ofInt 64 (sext 21 (iImm w))).toNat / 8 * 8

def winNotify : Nat := 0xFFFFFE020000

/-- The words of the commit window and of the lists firmware keeps for requests, on a load (R305, R422). -/
def windowLoad (s : State) (n va : Nat) : Option (Except Nat Word) :=
  if winNotify ≤ va && va < winNotify + 256 then some (.ok 0)
  else match windowGrain s n (va / 256 * 256) with
    | some g => some (.ok (w64 (leNat (slice g (va % 256) 8))))
    | none => if inWindow va then some (.error fcTranslation) else none

/-- A commit command answers: RESULT and VALUE go into the slot, W0 as stored (R305, R306). -/
def slotResult (n id va : Nat) (w0 : Word) (r : CommitRes) : IRes :=
  match r with
  | .fault c => .fault c va true
  | .done res v s => .done (modReq (storeW0 s n id w0) id fun r => { r with result := res, value := v })

/-- A command to the dispatch slot answers. -/
def dispatchResult (n va : Nat) (w0 : Word) (r : CommitRes) : IRes :=
  match r with
  | .fault c => .fault c va true
  | .done res v s => .done (modCtx (storeW0 s n dispatchKey w0) n fun x => { x with dispResult := res, dispValue := v })

/-- A store to W0 of the notify slot requests one message (R422). -/
def notifyStore (s : State) (n va : Nat) (v : Word) : IRes :=
  if va = winNotify then
    let part := (getCtx s n).part
    if fld v 63 11 != 0 || (partEntry s part).vecCount ≤ fld v 10 0 then .fault fcDescriptor 0 true
    else .done (msixRequest s part (fld v 10 0) false)
  else if va = winNotify + 8 then .done s
  else .fault fcProtection va true

/-- A store to a word of a request slot. -/
def slotStore (s : State) (n va : Nat) (v : Word) : IRes :=
  let id := (va - winSlots) / 256
  match windowGrain s n (va / 256 * 256) with
  | none => .fault fcTranslation va true
  | some _ =>
    match va % 256 / 8 with
    | 0 => slotResult n id va v (commitCommand s n id v (tget 0 (getCtx s n).windowW1 id))
    | 1 => .done (storeW1 s n id v)
    | _ => .fault fcProtection va true

/-- A store into the commit window or the lists; none elsewhere. -/
def windowStore (s : State) (n va : Nat) (v : Word) : Option IRes :=
  if winNotify ≤ va && va < winNotify + 256 then some (notifyStore s n va v)
  else if winSlots ≤ va && va < winEnd then some (slotStore s n va v)
  else if winDispatch ≤ va && va < winDispatch + 256 then
    some (if va = winDispatch then dispatchResult n va v (commitDispatch s n v)
      else if va = winDispatch + 8 then .done (storeW1 s n dispatchKey v) else .fault fcProtection va true)
  else match windowGrain s n (va / 256 * 256) with
    | some _ => some (.fault fcProtection va true)
    | none => none

def rowSmemLoad : Row :=
  { cls := 7, maj := 3, sub := fun w => !bit (iImm w) 31, regs := regs4 .s .s .none .none, cores := true, ctl := true,
    ext := false, legal := fun w => bits (iImm w) 30 21 == 0 }

def rowSmemStore : Row :=
  { cls := 7, maj := 3, sub := fun w => bit (iImm w) 31, regs := regs4 .none .s .s .none, cores := true, ctl := true,
    ext := false, legal := fun w => bits (iImm w) 30 21 == 0 }

/-- Parks an agent, then goes on with a state in which the wait may end at once. -/
def parkThen (s : State) (a : Agent) (cause : Nat) (w : Park) (f : State → State) : IRes := .stop (f (parkAgent s a cause w))

/-- A load of a control thread: from the window, or by a request for the grain. -/
def ctlLoad (s : State) (a : Agent) (n va : Nat) (w : Word) : IRes :=
  match (threadOf s a).woken with
  | some v => if smemPoison ≤ v then .fault fcPoison va true else .done (putS s a (iDst w) (w64 v))
  | none =>
    match windowLoad s n va with
    | some (.ok v) => .done (putS s a (iDst w) v)
    | some (.error c) => .fault c va true
    | none =>
      match translate s n va false with
      | .error c => .fault c va true
      | .ok pa =>
        parkThen s a (if tierOf pa = 3 then 4 else 3) (.smem s.mem.nextReq) fun s =>
          addReq s (mkReq a none n false (grainBase va) (grainBase pa) [] (mkTag [] 0 0 false) (.scalar (iDst w) (va % 256)) none
            (ctlSource n))

def execSmemLoad (a : Agent) (w : Word) (s : State) : Outcome State Fault Refusal :=
  runInstr rowSmemLoad a w (fun n s =>
    let addr := smemAddr s a w
    match a with
    | .thread c t =>
      let off := addr % spSize
      guarded s (guardSp s c t [(off, 8)] []) fun s =>
        let x := getCore s c
        if spPoisoned x off 8 then .fault fcPoison 0 false
        else .done (putS s a (iDst w) (w64 (leNat (spRead x off 8))))
    | .ctl _ => ctlLoad s a n addr w) s

/-- A store of a control thread: to the window, or as a read-modify-write at the grain's home; it completes when it is accepted
(Table 6.1). -/
def ctlStore (s : State) (a : Agent) (n va : Nat) (v : Word) : IRes :=
  match windowStore s n va v with
  | some r => r
  | none =>
    match translate s n va true with
    | .error c => .fault c va true
    | .ok pa =>
      let data := leBytes 8 v.toNat
      let r := mkReq a none n true (grainBase va) (grainBase pa) data (mkTag data 0 (getCtx s n).part false) (.merge (va % 256) 8)
        none (ctlSource n)
      .done (addReq s { r with entry := (threadOf s a).ip })

def execSmemStore (a : Agent) (w : Word) (s : State) : Outcome State Fault Refusal :=
  runInstr rowSmemStore a w (fun n s =>
    let addr := smemAddr s a w
    let v := sOf s a (iSrc2 w)
    match a with
    | .thread c t =>
      let off := addr % spSize
      if hitsCode (getCore s c) off 8 then .fault fcProtection 0 false
      else guarded s (guardSp s c t [] [(off, 8)]) fun s =>
        .done (modCore s c fun x => spWrite x off (leBytes 8 v.toNat) false)
    | .ctl _ => ctlStore s a n addr v) s

/-- NOTIFY (R422): a store whose address lies in the notify slot. -/
def execNotify (a : Agent) (w : Word) (s : State) : Outcome State Fault Refusal :=
  match a with
  | .thread _ _ => .next s
  | .ctl _ =>
    let va := smemAddr s a w
    if winNotify ≤ va && va < winNotify + 256 then
      runInstr rowSmemStore a w (fun n s => notifyStore s n va (sOf s a (iSrc2 w))) s
    else .next s

/-! ### DWR -/

/-- A descriptor with word `i` replaced. -/
def setDw (d : BitVec 256) (i : Nat) (v : Word) : BitVec 256 :=
  BitVec.ofNat 256 (((List.range 4).map fun k => (if k = i then v else dw d k).toNat <<< (64 * k)).foldl (· + ·) 0)

def rowDwr : Row :=
  { cls := 7, maj := 4, sub := always, regs := regs4 .d .s .none .none, cores := true, ctl := true, ext := false,
    legal := fun w => bits (iImm w) 31 2 == 0 }

def execDwr (a : Agent) (w : Word) (s : State) : Outcome State Fault Refusal :=
  runInstr rowDwr a w (fun _ s =>
    .done (putD s a (iDst w) (setDw (dOf s a (iDst w)) (bits (iImm w) 1 0) (sOf s a (iSrc1 w))))) s

/-! ### FLOW -/

def rowFlow (sub : Nat) (cores ctl : Bool) : Row :=
  { cls := 7, maj := 5, sub := fun w => bits (iImm w) 31 29 == sub, regs := regs4 .none .none .none .none, cores := cores,
    ctl := ctl, ext := false, legal := fun w => bits (iImm w) 28 0 == 0 }

/-- BEND (R41): what waited for the instance's end goes on. -/
def execBend (a : Agent) (w : Word) (s : State) : Outcome State Fault Refusal :=
  runInstr (rowFlow 0 true false) a w (fun n s => onCore a fun c t => .stop (coresStep (endInstance s c t) n)) s

/-- HALT (R161, R360). -/
def execHalt (a : Agent) (w : Word) (s : State) : Outcome State Fault Refusal :=
  runInstr (rowFlow 1 false true) a w (fun n s => .stop (beginTeardown s n (some 0))) s

/-- HELD contexts of the same partition whose pass is below a context's, lowest pass first (R366). -/
def behind (s : State) (n : Nat) : List Nat :=
  let x := getCtx s n
  (s.ctxs.filter fun e => e.2.state == ctxHeld && e.2.part == x.part && decide (e.2.pass < x.pass)).map Prod.fst

/-- YIELD (R161, R366). -/
def execYield (a : Agent) (w : Word) (s : State) : Outcome State Fault Refusal :=
  runInstr (rowFlow 2 true true) a w (fun n s => .done ((behind s n).foldl tryRestore s)) s

def execNop (a : Agent) (w : Word) (s : State) : Outcome State Fault Refusal :=
  runInstr (rowFlow 3 true true) a w (fun _ s => .done s) s

/-! ### RDSYS -/

def rowRdsys (sel : Nat) : Row :=
  { cls := 7, maj := 6, sub := fun w => bits (iImm w) 31 28 == sel,
    regs := fun _ => { dst := .s, src1 := if sel = 2 || sel = 5 then .s else .none, src2 := .none, src3 := .none },
    cores := true, ctl := true, ext := false, legal := fun w => bits (iImm w) 27 0 == 0 }

def execRdsysTick (a : Agent) (w : Word) (s : State) : Outcome State Fault Refusal :=
  runInstr (rowRdsys 0) a w (fun _ s => .done (putS s a (iDst w) (w64 (now s)))) s

/-- The status register is read and cleared; a core reads 0. -/
def execRdsysStatus (a : Agent) (w : Word) (s : State) : Outcome State Fault Refusal :=
  runInstr (rowRdsys 1) a w (fun n s =>
    match a with
    | .thread _ _ => .done (putS s a (iDst w) 0)
    | .ctl _ =>
      let v := (getCtx s n).ctl.status
      .done (putS (modCtx s n fun x => { x with ctl := { x.ctl with status := 0 } }) a (iDst w) v)) s

/-- A counter of Table 2.9 within the core entries, at byte `w` of core `c`. -/
def coreCounter (s : State) (c w : Nat) : Nat :=
  let x := getCore s c
  if w = 0 then x.busy else if w = 0x48 then x.binds else if w = 0x50 then x.parks else tget 0 x.idle ((w - 8) / 8)

/-- A Churn counter, by its place in Table 11.5. -/
def churnCounter (h : Hub) (i : Nat) : Nat :=
  match i with
  | 0 => h.reshardCount
  | 1 => h.commits
  | 2 => h.rollbacks
  | 3 => h.grainsOut
  | 4 => h.grainsIn
  | 5 => h.grainsLocal
  | 6 => h.fenceTicks
  | 7 => h.missingGrains
  | _ => 0

/-- What a 64-bit read of the counters of Tables 2.9, 2.10 and 11.5 returns at a block offset of the counters and accounting block; a
reserved offset reads 0 (R52, R53, R300). -/
def countersRead (s : State) (off : Nat) : Word :=
  if 0x80000 ≤ off && off < 0xA0000 then
    let w := (off - 0x80000) % 0x80
    w64 (if w < 0x58 then coreCounter s ((off - 0x80000) / 0x80) w else 0)
  else if 0xA0000 ≤ off && off < 0xA0080 then
    w64 (if off % 0x10 == 0 then tget 0 s.clk.pllOffTicks ((off - 0xA0000) / 0x10) else 0)
  else if 0xB0000 ≤ off && off < 0xB0100 then w64 (churnCounter s.hub ((off - 0xB0000) / 8))
  else 0

/-- Whether a counter belongs to a context's own cores and dies (R162). -/
def ownsCounter (s : State) (n off : Nat) : Bool :=
  let set := (getCtx s n).coreset
  if 0x80000 ≤ off && off < 0xA0000 then set.contains ((off - 0x80000) / 0x80) && decide ((off - 0x80000) % 0x80 < 0x58)
  else 0xA0000 ≤ off && decide (off < 0xA0080) && off % 0x10 == 0 && set.any fun c => dieOfCore c == (off - 0xA0000) / 0x10

/-- A counter of a context's own cores and dies (R162). -/
def ownCounter (s : State) (n off : Nat) : Option Word := if ownsCounter s n off then some (countersRead s off) else none

/-- The offset that RDSYS takes from s[SRC1]. -/
def rdsysOff (s : State) (a : Agent) (w : Word) : Nat := (sOf s a (iSrc1 w)).toNat / 8 * 8

def execRdsysCounter (a : Agent) (w : Word) (s : State) : Outcome State Fault Refusal :=
  runInstr (rowRdsys 2) a w (fun n s =>
    match ownCounter s n (rdsysOff s a w) with
    | none => .fault fcProtection 0 false
    | some v => .done (putS s a (iDst w) v)) s

def execRdsysContext (a : Agent) (w : Word) (s : State) : Outcome State Fault Refusal :=
  runInstr (rowRdsys 3) a w (fun n s => .done (putS s a (iDst w) (w64 n))) s

def execRdsysPeer (a : Agent) (w : Word) (s : State) : Outcome State Fault Refusal :=
  runInstr (rowRdsys 4) a w (fun _ s => .done (putS s a (iDst w) (w64 s.peers.self))) s

/-- A register of the accounting, shadow and distillation counters of a context's block (Tables 15.6, 7.8, 14.3). -/
def ctxCounter (x : Ctx) (off : Nat) : Option Nat :=
  let k := off / 8
  if off = 0x100 then some x.acct.heldCoreTicks
  else if off = 0x108 then some x.acct.matBusy
  else if off = 0x110 then some x.acct.vecBusy
  else if off = 0x118 then some x.acct.updBusy
  else if off = 0x120 then some x.acct.ctlBusy
  else if off = 0x128 then some x.acct.preemptTicks
  else if 0x130 ≤ off && off < 0x150 then some (tget 0 x.acct.bytesTier (k - 0x26 + 1))
  else if 0x150 ≤ off && off < 0x170 then some (tget 0 x.acct.bytesLink (k - 0x2A))
  else if off = 0x170 then some x.acct.energyMj
  else if off = 0x418 then some x.num.shSampled
  else if off = 0x420 then some x.num.shSkipped
  else if 0x428 ≤ off && off < 0x468 then some (tget 0 x.num.shBins (k - 0x85))
  else if off = 0x488 then some x.dst.packets
  else if off = 0x490 then some x.dst.words
  else if off = 0x498 then some x.dst.poisoned
  else if off = 0x4A0 then some x.dst.truncated
  else if off = 0x4A8 then some x.dst.waitTicks
  else none

def execRdsysCtxRegister (a : Agent) (w : Word) (s : State) : Outcome State Fault Refusal :=
  runInstr (rowRdsys 5) a w (fun n s =>
    match ctxCounter (getCtx s n) (rdsysOff s a w) with
    | none => .fault fcProtection 0 false
    | some v => .done (putS s a (iDst w) (w64 v))) s

/-! ### CTRL -/

def rowCtrl (sub : Nat) (regs : Word → RegUse) (legal : Word → Bool) : Row :=
  { cls := 7, maj := 7, sub := fun w => bits (iImm w) 31 29 == sub, regs := regs, cores := false, ctl := true, ext := false,
    legal := legal }

def rowLoadp : Row := rowCtrl 0 (regs4 .s .s .s .none) fun w => bits (iImm w) 28 11 == 0

def execLoadp (a : Agent) (w : Word) (s : State) : Outcome State Fault Refusal :=
  runInstr rowLoadp a w (fun n s =>
    match (threadOf s a).woken with
    | some 0 => doneRc s a w rcOk
    | some code => .fault code 0 false
    | none =>
      let va := (sOf s a (iSrc1 w)).toNat
      let first := (sOf s a (iSrc2 w)).toNat
      let cores := (List.range (bits (iImm w) 10 0)).map fun i => first + i
      if va % 256 != 0 || !cores.all fun c => (getCtx s n).coreset.contains c then descFault
      else if cores.isEmpty then doneRc s a w rcOk
      else
        let s := cores.foldl (fun s c => startPll (modCore s c fun x => { x with loading := true }) c) s
        .park (modCtx s n fun x => { x with loadp := some { va := va, cores := cores, failed := none } })
          6 .load) s

def rowSumarm : Row := rowCtrl 1 (regs4 .none .s .none .none) fun w => bits (iImm w) 28 0 == 0

/-- The mailbox's (tag, round), if it can be armed with the word (R163). -/
def execSumarm (a : Agent) (w : Word) (s : State) : Outcome State Fault Refusal :=
  runInstr rowSumarm a w (fun n s =>
    let v := sOf s a (iSrc1 w)
    let kind := fld v 63 60
    let round := fld v 59 59
    let tag := fld v 56 53
    let m := tget MailSlot.reset (getCtx s n).mail (mailKey tag round)
    if fld v 58 57 != 0 || fld v 52 32 != 0 || !isSumKind kind || m.armed.isSome then descFault
    else
      let m := { m with armed := some (kind, fld v 31 0) }
      .done (mailSettle (modCtx s n fun x => { x with mail := tput x.mail (mailKey tag round) m }) n tag round)) s

def rowSumget : Row := rowCtrl 2 (regs4 .s .none .s .none) fun w => bits (iImm w) 28 5 == 0

/-- SUMGET: SRC2 names a destination (R163). Where both name one register, the lower value stays (DESIGN CHOICE, log 165). -/
def execSumget (a : Agent) (w : Word) (s : State) : Outcome State Fault Refusal :=
  runInstr rowSumget a w (fun n s =>
    let tag := bits (iImm w) 3 0
    let round := bits (iImm w) 4 4
    let m := tget MailSlot.reset (getCtx s n).mail (mailKey tag round)
    match m.results with
    | [] => .park s 1 (.summary tag round)
    | (v, low) :: rest =>
      let s := modCtx s n fun x => { x with mail := tput x.mail (mailKey tag round) { m with results := rest } }
      .done (putS (putS s a (iDst w) v) a (iSrc2 w) low)) s

def rowCores : Row := rowCtrl 3 (regs4 .s .s .none .none) fun w => bits (iImm w) 28 0 == 0

/-- CORES (R364): firmware enters the request in its journal before it acts (R400). -/
def execCores (a : Agent) (w : Word) (s : State) : Outcome State Fault Refusal :=
  runInstr rowCores a w (fun n s =>
    match (threadOf s a).woken with
    | some k => .done (putS s a (iDst w) (w64 k))
    | none =>
      let count := (sOf s a (iSrc1 w)).toNat
      parkThen s a 6 .coreSet fun s => askCores (journal s (controlCoreOf n) 6 n false) n count) s

/-! ### Reserved codes -/

/-- Majors of a class (Tables 5.1, 6.1). -/
def majors (cls : Nat) : Nat :=
  match cls with
  | 0 => 6 | 1 => 5 | 2 => 6 | 3 => 6 | 4 => 5 | 5 => 3 | 6 => 3 | _ => 8

/-- Whether a word has a reserved MAJOR, SUB, OPN or SEL code (R101, R130, R162). -/
def reservedCode (w : Word) : Bool :=
  let m := iMajor w
  decide (majors (iClass w) ≤ m) ||
  match iClass w, m with
  | 2, 3 => decide (1 < bits (iImm w) 26 25)
  | 2, 5 => bits (iImm w) 31 30 == 3
  | 7, 5 => decide (3 < bits (iImm w) 31 29)
  | 7, 6 => decide (5 < bits (iImm w) 31 28)
  | 7, 7 => decide (3 < bits (iImm w) 31 29)
  | _, _ => false

/-- The row of a word with a reserved code: it is legal nowhere. -/
def rowIllegal (w : Word) : Row :=
  { cls := iClass w, maj := iMajor w, sub := reservedCode, regs := regs4 .none .none .none .none, cores := false, ctl := false,
    legal := fun _ => false, ext := false }

/-- ILLEGAL_INSTRUCTION (R130). -/
def execIllegalInstruction (a : Agent) (w : Word) (s : State) : Outcome State Fault Refusal :=
  runInstr (rowIllegal w) a w (fun _ s => .done s) s

end Machine
end Sys2Proof
end

