-- ==== Sys2Proof/Machine/Tiles.lean ====
section
/-! DEFINITION. Tiles and accumulation groups in a core's scratchpad, as the matrix and vector engines read and write them: packing
(R168), poison by unit (R105, R206), rounding with draws (R102, R175, R184 to R186) and block scales (R173), and the output of
a tile. -/

namespace Sys2Proof
namespace Machine

/-! ### Elements -/

/-- An element as an engine reads it: its bits, its scale byte, and whether a unit it is read from is poisoned. -/
structure Elem where
  raw : Nat
  scale : Nat
  poison : Bool
  deriving DecidableEq, Repr

/-- The bytes that hold element `c` of row `r`: offset and length. -/
def Tile.elemRun (t : Tile) (r c : Nat) : Nat × Nat :=
  let b := c * elemBits t.fmt
  (t.base + r * t.pitch + b / 8, (b % 8 + elemBits t.fmt + 7) / 8)

/-- The scale byte of element `c` of row `r`. -/
def Tile.scaleOff (t : Tile) (r c : Nat) : Nat := t.scale + r * t.scalePitch + c / 32

/-- Element `(r, c)` of a tile. -/
def Tile.elem (x : Core) (t : Tile) (r c : Nat) : Elem :=
  let run := t.elemRun r c
  let blk := isBlockF t.fmt
  { raw := bits (leNat (spRead x run.1 run.2)) ((c * elemBits t.fmt) % 8 + elemBits t.fmt - 1) ((c * elemBits t.fmt) % 8)
    scale := if blk then (readByte x.sp (t.scaleOff r c)).toNat else 0
    poison := spPoisoned x run.1 run.2 || (blk && spPoisoned x (t.scaleOff r c) 1) }

/-- The exact value of an element in a format. -/
def Elem.val (emu : Bool) (f : Nat) (e : Elem) : FVal := decodeV emu f e.raw e.scale

/-- Whether any unit of row `r` is poisoned. -/
def Tile.rowPoison (x : Core) (t : Tile) (r : Nat) : Bool := (t.rowRuns r).any fun u => spPoisoned x u.1 u.2

/-- Whether any unit of the tile is poisoned. -/
def Tile.poison (x : Core) (t : Tile) : Bool := (List.range t.rows).any fun r => t.rowPoison x r

/-- A tile descriptor that the arithmetic mode of the context admits (R86, Table 7.7). -/
def tileFor (emu : Bool) (x : Core) (d : BitVec 256) : Option Tile :=
  match tileOf x d with
  | none => none
  | some t =>
    if emu && !(t.fmt == 1 || t.fmt == 2 || t.fmt == 3 || t.fmt == 4 || t.fmt == 5 || t.fmt == 9 || t.fmt == 0xB)
    then none else some t

/-- Whether two tiles coincide exactly (R121). -/
def sameTile (a b : Tile) : Bool :=
  a.base == b.base && a.pitch == b.pitch && a.fmt == b.fmt && a.rows == b.rows && a.cols == b.cols

/-- An output tile coincides with an input or shares no byte with it (R121). -/
def outClear (o : Tile) (ins : List Tile) : Bool := ins.all fun t => sameTile o t || !runsHit o.runs t.runs

/-! ### Writes by units -/

/-- Whether runs cover a whole unit. -/
def coversUnit (runs : List (Nat × Nat)) (u : Nat) : Bool :=
  (List.range 256).all fun i => runs.any fun r => decide (r.1 ≤ 256 * u + i) && decide (256 * u + i < r.1 + r.2)

/-- The poison mark of a unit that one engine write touches: its own where it is wholly written, else with the old one (R206). -/
def markWrite (runs : List (Nat × Nat)) (bad : List Nat) (t : Tbl Bool) (u : Nat) : Tbl Bool :=
  if bad.contains u || (tget false t u && !coversUnit runs u) then tput t u true else tdel t u

/-- One engine write of runs of bytes; `bad` are the units that take poison from the inputs (R105). -/
def spPut (x : Core) (runs : List (Nat × List Byte)) (bad : List Nat) : Core :=
  let rs := runs.map fun r => (r.1, r.2.length)
  let us := (rs.flatMap fun r => unitsOf r.1 r.2).eraseDups
  { x with sp := runs.foldl (fun m r => writeBytes m r.1 r.2) x.sp, spPoison := us.foldl (markWrite rs bad) x.spPoison }

/-- A row's bytes with its elements replaced; bits beyond the last element stay. -/
def packRow (x : Core) (t : Tile) (r : Nat) (raws : List Nat) : List Byte :=
  let b := elemBits t.fmt
  let off := t.base + r * t.pitch
  let old := leNat (spRead x off t.rowBytes)
  let new := raws.foldr (fun v n => v % 2 ^ b + n <<< b) 0
  leBytes t.rowBytes (new + (old >>> (b * t.cols)) <<< (b * t.cols))

/-- An output element: its bits, and whether its inputs were poisoned. -/
structure OutElem where
  raw : Nat
  poison : Bool
  deriving DecidableEq, Repr

/-- Every element of a computed block of 32 takes its scale from all of the block's inputs (R173), so one poisoned input poisons
them all. -/
def spreadBlocks (row : List OutElem) : List OutElem :=
  row.zipIdx.map fun e => { e.1 with poison := ((row.drop (32 * (e.2 / 32))).take 32).any fun o => o.poison }

/-- Units of a row of an output tile that hold poisoned elements, or scales of them. -/
def badUnits (t : Tile) (r : Nat) (row : List OutElem) : List Nat :=
  row.zipIdx.flatMap fun e =>
    if e.1.poison then
      let run := t.elemRun r e.2
      unitsOf run.1 run.2 ++ (if isBlockF t.fmt then unitsOf (t.scaleOff r e.2) 1 else [])
    else []

/-- Writes an output tile: the rows of elements, and the scales of each row. -/
def writeTile (x : Core) (t : Tile) (rows : List (List OutElem)) (scales : List (List Nat)) : Core :=
  let data := rows.zipIdx.map fun e => (t.base + e.2 * t.pitch, packRow x t e.2 (e.1.map fun o => o.raw))
  let scs := if isBlockF t.fmt then
      scales.zipIdx.map fun e => (t.scale + e.2 * t.scalePitch, e.1.map fun v => BitVec.ofNat 8 v)
    else []
  spPut x (data ++ scs) (rows.zipIdx.flatMap fun e => badUnits t e.2 e.1)

/-! ### Accumulation groups (R81) -/

/-- The area of a group: offset and bytes. -/
def AccGroup.area (g : AccGroup) : Nat × Nat := (g.base, 4 * (g.rows * g.cols))

def getAg (x : Core) (k : Nat) : AccGroup := tget AccGroup.reset x.ag k
def setAg (x : Core) (k : Nat) (g : AccGroup) : Core := { x with ag := tput x.ag k g }

/-- Offset of a partial sum. -/
def AccGroup.off (g : AccGroup) (i j : Nat) : Nat := g.base + 4 * (i * g.cols + j)

/-- The bits of a partial sum. -/
def AccGroup.raw (x : Core) (g : AccGroup) (i j : Nat) : Nat := leNat (spRead x (g.off i j) 4)

/-- Whether the unit of a partial sum is poisoned. -/
def AccGroup.bad (x : Core) (g : AccGroup) (i j : Nat) : Bool := spPoisoned x (g.off i j) 4

/-- Writes partial sums in columns `c0` onward of every row. -/
def writeGroup (x : Core) (g : AccGroup) (c0 : Nat) (rows : List (List OutElem)) : Core :=
  spPut x (rows.zipIdx.map fun e => (g.off e.2 c0, e.1.flatMap fun o => leBytes 4 o.raw))
    (rows.zipIdx.flatMap fun e => e.1.zipIdx.flatMap fun o => if o.1.poison then unitsOf (g.off e.2 (c0 + o.2)) 4 else [])

/-! ### Rounding modes and draws -/

/-- What an instruction rounds with: RND (Table 5.2), SATOUT, the context's seed and mode, the logical core, and the key triple. -/
structure RndCfg where
  rnd : Nat
  sat : Bool
  emu : Bool
  seed : Nat
  core : Nat
  step : Nat
  index : Nat
  stride : Nat
  deriving DecidableEq, Repr

/-- Whether the mode of the context admits a RND code (Table 5.2, Table 7.7). -/
def rndOk (emu : Bool) (rnd : Nat) : Bool := if emu then decide (rnd ≤ 1) else decide (rnd ≤ 5)

/-- The element index of R103. -/
def RndCfg.elemIndex (q : RndCfg) (r c : Nat) : Nat := (q.index + r * q.stride + c) % 2 ^ 64

/-- Takes the next free-mode draw of the lane of a column. -/
def takeFree (seed core c : Nat) (pep : Tbl Nat) : Nat × Tbl Nat :=
  let l := c % 128
  let n := tget 0 pep l
  (freeDraw seed core l n, tput pep l ((n + 1) % 2 ^ 64))

/-- Rounds the value of element `(r, c)` to a format; a value that needs a draw takes one (R186). -/
def roundElem (q : RndCfg) (f r c : Nat) (v : FVal) (pep : Tbl Nat) : (Nat × Bool) × Tbl Nat :=
  match q.rnd with
  | 0 => (roundTo f .ne q.sat v, pep)
  | 1 => (roundTo f .tz q.sat v, pep)
  | 2 => (roundTo f .dn q.sat v, pep)
  | 3 => (roundTo f .up q.sat v, pep)
  | 4 =>
    if needsDraw f v then
      let (u, pep) := takeFree q.seed q.core c pep
      (roundTo f (.st u) q.sat v, pep)
    else (roundTo f (.st 0) q.sat v, pep)
  | _ => (roundTo f (.st (keyedDraw q.seed q.step 15 (q.elemIndex r c))) q.sat v, pep)

/-- An output value: the bits it copies, or a value to round. -/
inductive OutVal where
  | copy (raw : Nat)
  | val (v : FVal)
  deriving DecidableEq, Repr

def OutVal.toVal (f : Nat) : OutVal → FVal
  | .copy raw => decodeV false f raw 127
  | .val v => v

/-- Rounds the elements of a row of an unscaled format, from column `c` on. -/
def roundRow (q : RndCfg) (f r : Nat) : Nat → List OutVal → Tbl Nat → (List Nat × Bool) × Tbl Nat
  | _, [], pep => (([], false), pep)
  | c, .copy raw :: vs, pep =>
    let ((raws, fl), pep) := roundRow q f r (c + 1) vs pep
    ((raw :: raws, fl), pep)
  | c, .val v :: vs, pep =>
    let ((raw, f1), pep) := roundElem q f r c v pep
    let ((raws, f2), pep) := roundRow q f r (c + 1) vs pep
    ((raw :: raws, f1 || f2), pep)

/-- What a row of output becomes: bits, scales, the flag of R104, and the lanes' counters. -/
structure RowOut where
  raws : List Nat
  scales : List Nat
  flag : Bool
  pep : Tbl Nat
  deriving DecidableEq, Repr

/-- One block of 32 values of an FP6 or FP4 output (R173). A block of NaN or infinity reads as NaN; the flag is set for an infinity,
and for a present scale 0xFF over finite values. -/
def roundBlock (q : RndCfg) (f r c : Nat) (present : Option Nat) (vs : List FVal) (pep : Tbl Nat) : RowOut :=
  let sc := blockScaleOf f present vs
  if sc = 0xFF then
    { raws := vs.map fun _ => 0, scales := [sc], pep := pep,
      flag := (vs.any fun v => match v with | .inf _ => true | _ => false) || vs.all FVal.isFin }
  else
    let ((raws, fl), pep) := roundRow q f r c (vs.map fun v => .val (v.scale (127 - (sc : Int)))) pep
    { raws := raws, scales := [sc], flag := fl, pep := pep }

/-- A row of an FP6 or FP4 output, block by block. -/
def roundBlocks (q : RndCfg) (f r : Nat) (present : Nat → Option Nat) : Nat → Nat → List FVal → Tbl Nat → RowOut
  | 0, _, _, pep => { raws := [], scales := [], flag := false, pep := pep }
  | n + 1, b, vs, pep =>
    let o := roundBlock q f r (32 * b) (present b) (vs.take 32) pep
    let o' := roundBlocks q f r present n (b + 1) (vs.drop 32) o.pep
    { raws := o.raws ++ o'.raws, scales := o.scales ++ o'.scales, flag := o.flag || o'.flag, pep := o'.pep }

/-- Rounds a row of output values to a format. -/
def outRow (q : RndCfg) (f r : Nat) (present : Nat → Option Nat) (vs : List OutVal) (pep : Tbl Nat) : RowOut :=
  if isBlockF f then roundBlocks q f r present (vs.length / 32) 0 (vs.map fun v => v.toVal f) pep
  else
    let ((raws, fl), pep) := roundRow q f r 0 vs pep
    { raws := raws, scales := [], flag := fl, pep := pep }

/-- Rounds rows in row-major order. -/
def outRows (q : RndCfg) (f : Nat) (present : Nat → Nat → Option Nat) :
    Nat → List (List OutVal) → Tbl Nat → List (List Nat) × List (List Nat) × Bool × Tbl Nat
  | _, [], pep => ([], [], false, pep)
  | r, vs :: rows, pep =>
    let o := outRow q f r (present r) vs pep
    let (raws, scs, fl, pep) := outRows q f present (r + 1) rows o.pep
    (o.raws :: raws, o.scales :: scs, o.flag || fl, pep)

/-! ### The output of an instruction -/

/-- A computed output element: its value, its inputs' poison, and whether the computation sets the predicate of R104. -/
structure Computed where
  v : OutVal
  poison : Bool
  flag : Bool
  deriving DecidableEq, Repr

/-- Rounds and writes an output tile; answers whether the predicate of R104 is set. -/
def outputTile (x : Core) (q : RndCfg) (t : Tile) (present : Nat → Nat → Option Nat) (rows : List (List Computed)) :
    Core × Bool :=
  let (raws, scs, fl, pep) := outRows q t.fmt present 0 (rows.map fun r => r.map fun e => e.v) x.pepper
  let out := (raws.zip rows).map fun p => (p.1.zip p.2).map fun e => ({ raw := e.1, poison := e.2.poison } : OutElem)
  let out := if isBlockF t.fmt then out.map spreadBlocks else out
  let x := writeTile { x with pepper := pep } t out scs
  (x, fl || rows.any fun r => r.any fun e => e.flag || e.poison)

/-- Rows of a shape from a function of row and column. -/
def gridOf {α : Type} (rows cols : Nat) (f : Nat → Nat → α) : List (List α) :=
  (List.range rows).map fun r => (List.range cols).map fun c => f r c

/-- A key triple's register is 1 to 29 where a keyed draw is used, else 0 (R103). -/
def keyOk (keyed : Bool) (w : Word) : Bool :=
  if keyed then decide (1 ≤ iSrc3 w) && decide (iSrc3 w ≤ 29) else iSrc3 w == 0

/-- The rounding configuration of an instruction of a core's thread. -/
def rndCfg (s : State) (a : Agent) (n c : Nat) (w : Word) (rnd : Nat) (sat : Bool) : RndCfg :=
  let k := iSrc3 w
  let x := getCtx s n
  { rnd := rnd, sat := sat, emu := x.num.s5emu, seed := x.num.seed.toNat, core := c % 1024, step := (sOf s a k).toNat,
    index := (sOf s a (k + 1)).toNat, stride := (sOf s a (k + 2)).toNat }

/-- Writes the predicate of R104 and completes. -/
def doneEpe (s : State) (a : Agent) (epe : Bool) (epsel : Nat) (v : Bool) : IRes :=
  .done (modThread s a fun t => writeEpe epe epsel v t)

end Machine
end Sys2Proof
end

