-- ==== Sys2Proof/Machine/Matrix.lean ====
section
/-! DEFINITION. The matrix engine: MMA, the accumulation groups, attention (R109 to R119, R181, R182), and the shadow check
(R192 to R196). -/

namespace Sys2Proof
namespace Machine

open Host

/-! ### Rate classes (Table 5.3) -/

/-- The rate class of a float format: F4, F8, F16 or F32. -/
def floatClass (f : Nat) : Nat := if isBlockF f then 0 else if f = 4 || f = 5 then 1 else if f = 2 || f = 3 then 2 else 3

/-- Whether two input formats lie in a class. -/
def classFits (cls fa fb : Nat) : Bool :=
  match cls with
  | 4 => (fa == 9 && (fb == 9 || fb == 0xA)) || (fa == 0xA && fb == 9)
  | 5 => fa == 0xA && fb == 0xA
  | _ => isFloat fa && isFloat fb && floatClass fa == cls && floatClass fb == cls

/-- Products in a K-slice. -/
def sliceOf (cls : Nat) : Nat := match cls with | 0 => 16 | 1 => 8 | 2 => 4 | 3 => 1 | 4 => 8 | _ => 16

/-- Whether a class accumulates in INT32. -/
def intClass (cls : Nat) : Bool := cls == 4 || cls == 5

/-! ### Accumulation (R110, R181, R182, Table 7.7) -/

/-- The exact sum of products; a zero sum is −0 only when every product is −0. -/
def exactSum : List FVal → FVal
  | [] => .zero
  | p :: ps => ps.foldl FVal.add p

/-- One level of the pairwise tree of Table 7.7. -/
def pairSums : List FVal → List FVal
  | a :: b :: t => r32 true (a.add b) :: pairSums t
  | l => l

/-- The sum of one group of up to 32 products in S5 emulation mode: rounded products, padded with +0, by a pairwise tree. -/
def groupSum (ps : List FVal) : FVal :=
  let l := ps.map (r32 true) ++ List.replicate (32 - ps.length) FVal.zero
  match pairSums (pairSums (pairSums (pairSums (pairSums l)))) with
  | v :: _ => v
  | [] => .zero

/-- Adds one slice of products to an accumulator, with the scale factor of ATTS. -/
def addSlice (emu : Bool) (scale : Option FVal) (acc : FVal) (ps : List FVal) : FVal :=
  if emu then
    match scale with
    | none => r32 true (acc.add (groupSum ps))
    | some k => r32 true (acc.add (r32 true (k.mul (groupSum ps))))
  else
    match scale with
    | none => r32 false (acc.add (exactSum ps))
    | some k => r32 false (acc.add (k.mul (exactSum ps)))

/-- The accumulator after `n` slices of `w` products each, in ascending K. -/
def accumulate (emu : Bool) (scale : Option FVal) (w : Nat) : Nat → FVal → List FVal → FVal
  | 0, acc, _ => acc
  | n + 1, acc, ps => accumulate emu scale w n (addSlice emu scale acc (ps.take w)) (ps.drop w)

/-- The INT32 accumulator after `n` slices, and whether a slice saturated it. -/
def accumulateInt (w : Nat) : Nat → Int → List Int → Int × Bool
  | 0, acc, _ => (acc, false)
  | n + 1, acc, ps =>
    let a := satInt 0xB (acc + (ps.take w).sum)
    let b := accumulateInt w n a.1 (ps.drop w)
    (b.1, a.2 || b.2)

/-- Products of a row of A and a row of B. -/
def rowProducts (emu : Bool) (x : Core) (ta tb : Tile) (i j : Nat) : List FVal :=
  (List.range ta.cols).map fun k => ((ta.elem x i k).val emu ta.fmt).mul ((tb.elem x j k).val emu tb.fmt)

/-- Integer products of a row of A and a row of B. -/
def rowProductsInt (x : Core) (ta tb : Tile) (i j : Nat) : List Int :=
  (List.range ta.cols).map fun k => decodeI ta.fmt (ta.elem x i k).raw * decodeI tb.fmt (tb.elem x j k).raw

/-- The products that one rounding takes: a K-slice, or a group of 32 in S5 emulation mode. -/
def stride (emu : Bool) (cls : Nat) : Nat := if emu then 32 else sliceOf cls

/-- The new partial sum (i, j) of an MMA, and whether it saturated. -/
def mmaElem (emu : Bool) (x : Core) (cls : Nat) (g : AccGroup) (ta tb : Tile) (i j : Nat) : Nat × Bool :=
  let w := stride emu cls
  let n := cdiv ta.cols w
  if intClass cls then
    let r := accumulateInt w n (decodeI 0xB (g.raw x i j)) (rowProductsInt x ta tb i j)
    (intBits 0xB r.1, r.2)
  else (f32bits (accumulate emu none w n (decodeV emu 1 (g.raw x i j) 0) (rowProducts emu x ta tb i j)), false)

/-! ### The shadow check (R192 to R195) -/

/-- Bytes of a strip of 32 rows of K elements. -/
def stripBytes (f k : Nat) : Nat := 32 * cdiv (k * elemBits f) 8

/-- A block: its row and column, and its rows and columns of elements. -/
structure Block where
  i : Nat
  j : Nat
  rows : Nat
  cols : Nat
  deriving DecidableEq, Repr

/-- The blocks of 32 × 32 elements of an output, row-major. -/
def outBlocks (m n : Nat) : List Block :=
  (List.range (cdiv m 32)).flatMap fun i => (List.range (cdiv n 32)).map fun j =>
    { i := 32 * i, j := 32 * j, rows := min 32 (m - 32 * i), cols := min 32 (n - 32 * j) }

/-- Elements of rows of a tile, widened to FP32 (R172). -/
def strip (x : Core) (t : Tile) (r0 rows : Nat) : List (List (BitVec 32)) :=
  (List.range rows).map fun r => (List.range t.cols).map fun k =>
    let e := t.elem x (r0 + r) k
    BitVec.ofNat 32 (f32bits (widen false t.fmt e.raw e.scale))

/-- The partial sums of a block. -/
def blockSums (x : Core) (g : AccGroup) (b : Block) : List (BitVec 32) :=
  (List.range b.rows).flatMap fun i => (List.range b.cols).map fun j => BitVec.ofNat 32 (g.raw x (b.i + i) (b.j + j))

/-- Whether an input unit of a block is poisoned. -/
def blockPoison (x : Core) (g : AccGroup) (ta tb : Tile) (b : Block) : Bool :=
  ((List.range b.rows).any fun i => ta.rowPoison x (b.i + i)) || ((List.range b.cols).any fun j => tb.rowPoison x (b.j + j)) ||
  ((List.range b.rows).any fun i => (List.range b.cols).any fun j => g.bad x (b.i + i) (b.j + j))

/-- Whether eligible block `e` of a core is sampled (R192). -/
def sampled (num : Num) (core e : Nat) : Bool :=
  pmix num.seed.toNat ((core % 1024) <<< 48 ||| e) % 2 ^ num.shRateExp == 0

/-- Counts one block for the shadow check: `old` is the core as the block's inputs are read, the state has its new sums. -/
def shadowBlock (n c : Nat) (old : Core) (g : AccGroup) (ta tb : Tile) (s : State) (b : Block) : State :=
  let num := (getCtx s n).num
  if blockPoison old g ta tb b then s
  else
    let e := (getCore s c).eligible
    let s := modCore s c fun x => { x with eligible := x.eligible + 1 }
    if !sampled num c e then s
    else if (getCore s c).sample.isSome then
      modCtx s n fun x => { x with num := { x.num with shSkipped := x.num.shSkipped + 1 } }
    else modCore s c fun x => { x with
      sample := some { k := ta.cols, rows := b.rows, cols := b.cols, a := strip old ta b.i b.rows, b := strip old tb b.j b.cols,
                       old := blockSums old g b, new := blockSums x g b } }

/-- The shadow check of an MMA. -/
def shadowMma (n c cls : Nat) (noShadow : Bool) (old : Core) (g : AccGroup) (ta tb : Tile) (s : State) : State :=
  let num := (getCtx s n).num
  if cls ≤ 2 && !noShadow && !num.s5emu && num.shEnable && stripBytes ta.fmt ta.cols ≤ 32768 && stripBytes tb.fmt tb.cols ≤ 32768
  then (outBlocks ta.rows tb.rows).foldl (shadowBlock n c old g ta tb) s
  else s

/-- ⌊|m − r| ÷ ulp(r)⌋ of two finite values (R194). -/
def ulpDist (m r : FVal) : Nat :=
  match FVal.add m r.negate, r with
  | .fin _ d e, .fin _ k f =>
    let u : Int := if k = 0 then -149 else max (f + bitLen k - 1) (-126) - 23
    if d = 0 then 0 else d * pow2i (e - min e u) / pow2i (u - min e u)
  | _, _ => 0

/-- The bin of a distance (Table 7.6). -/
def binOf (d : Nat) : Nat :=
  if d ≤ 1 then d else if d ≤ 3 then 2 else if d ≤ 15 then 3 else if d ≤ 255 then 4 else if d ≤ 65535 then 5 else 6

/-- The bin of one element. -/
def shadowBin (m r : FVal) : Nat :=
  match FVal.cmp m r with
  | some 0 => 0
  | none => if m.isNan && r.isNan then 0 else 7
  | some _ => if m.isFin && r.isFin then binOf (ulpDist m r) else 7

/-- The bin of a sample: the highest of its elements. -/
def sampleBin (p : Sample) : Nat :=
  (List.range p.rows).foldl (fun hi i => (List.range p.cols).foldl (fun hi j =>
    let a := p.a.getD i []
    let b := p.b.getD j []
    let ps := (a.zip b).map fun e => (decodeF 1 e.1.toNat).mul (decodeF 1 e.2.toNat)
    let r := accumulate false none 1 p.k (decodeF 1 (p.old.getD (i * p.cols + j) 0).toNat) ps
    max hi (shadowBin (decodeF 1 (p.new.getD (i * p.cols + j) 0).toNat) r)) hi) 0

/-- SHADOW_RECOMPUTE (R194, R195): an alert waits for a word of summary credit. -/
def execShadowRecompute (core : Nat) (s : State) : Outcome State Fault Refusal :=
  let x := getCore s core
  match x.sample, x.owner with
  | some p, some n =>
    let b := sampleBin p
    let num := (getCtx s n).num
    let alert := num.shAlertEn && decide (num.shAlertBin ≤ b)
    if !coreRuns s core || (alert && x.sumCredit == 0) then .next s
    else
      let s := modCore s core fun x => { x with sample := none }
      let s := modCtx s n fun x => { x with num := { x.num with
        shSampled := x.num.shSampled + 1, shBins := tput x.num.shBins b (tget 0 x.num.shBins b + 1) } }
      .next (if alert then
        sendSummary s core { source := 0, kind := 4, round := 0, tag := num.shAlertTag, poison := false, value := 1 } else s)
  | _, _ => .next s

/-! ### MMA (R112) -/

def rowMma : Row :=
  { cls := 0, maj := 0, sub := always, regs := regs4 .a .d .d .none, cores := true, ctl := false, ext := false,
    legal := fun w => decide (bits (iImm w) 31 29 ≤ 5) && bits (iImm w) 27 0 == 0 }

/-- MMA on checked operands. -/
def mmaRun (s : State) (n c cls k : Nat) (noShadow : Bool) (ta tb : Tile) : State :=
  let x := getCore s c
  let g := getAg x k
  let emu := (getCtx s n).num.s5emu
  let rows := gridOf ta.rows tb.rows fun i j => (i, j, mmaElem emu x cls g ta tb i j)
  let out := rows.map fun r => r.map fun e =>
    ({ raw := e.2.2.1, poison := g.bad x e.1 e.2.1 || ta.rowPoison x e.1 || tb.rowPoison x e.2.1 } : OutElem)
  let sat := rows.any fun r => r.any fun e => e.2.2.2
  let s := setCore s c (setAg (writeGroup x g 0 out) k { g with sat := g.sat || sat })
  shadowMma n c cls noShadow x g ta tb s

def execMma (a : Agent) (w : Word) (s : State) : Outcome State Fault Refusal :=
  runInstr rowMma a w (fun n s => onCore a fun c t =>
    let x := getCore s c
    let emu := (getCtx s n).num.s5emu
    let cls := bits (iImm w) 31 29
    let g := getAg x (iDst w)
    match tileFor emu x (dOf s a (iSrc1 w)), tileFor emu x (dOf s a (iSrc2 w)) with
    | some ta, some tb =>
      if !g.isOpen || g.acc != b2n (intClass cls) || !classFits cls ta.fmt tb.fmt || ta.cols != tb.cols || g.rows != ta.rows ||
          g.cols != tb.rows || runsHit (ta.runs ++ tb.runs) [g.area] then descFault
      else if ta.rows = 0 || tb.rows = 0 || ta.cols = 0 then .done s
      else guarded s (guardSp s c t (g.area :: (ta.runs ++ tb.runs)) [g.area]) fun s =>
        .done (mmaRun s n c cls (iDst w) (bit (iImm w) 28) ta tb)
    | _, _ => descFault) s

/-! ### Accumulation groups (R113 to R115) -/

def rowAgset : Row :=
  { cls := 0, maj := 1, sub := always, regs := regs4 .a .s .none .none, cores := true, ctl := false, ext := false,
    legal := fun w => iImm w == 0 }

/-- The fields that AGSET copies. -/
def agFields (g : AccGroup) (v : Word) : AccGroup :=
  { g with acc := fld v 61 60, rows := fld v 59 48, cols := fld v 47 36, base := fld v 20 0 }

def execAgset (a : Agent) (w : Word) (s : State) : Outcome State Fault Refusal :=
  runInstr rowAgset a w (fun _ s => onCore a fun c _ =>
    let v := sOf s a (iSrc1 w)
    let g := getAg (getCore s c) (iDst w)
    if fld v 63 62 != 0 || fld v 35 21 != 0 || g.isOpen then descFault
    else .done (modCore s c fun x => setAg x (iDst w) (agFields g v))) s

def rowAgopen : Row :=
  { cls := 0, maj := 2, sub := always, regs := regs4 .a .none .none .none, cores := true, ctl := false, ext := false,
    legal := fun w => bits (iImm w) 31 1 == 0 }

/-- Whether a group may open (R81): its values, and its area within the scratchpad and clear of the code. -/
def agAreaOk (x : Core) (g : AccGroup) : Bool :=
  decide (g.acc ≤ 1) && decide (g.rows ≤ 2048) && decide (g.cols ≤ 2048) && g.base % 256 == 0 &&
  (g.rows == 0 || g.cols == 0 || (decide (g.area.1 + g.area.2 ≤ spSize) && !hitsCode x g.area.1 g.area.2))

def execAgopen (a : Agent) (w : Word) (s : State) : Outcome State Fault Refusal :=
  runInstr rowAgopen a w (fun _ s => onCore a fun c t =>
    let x := getCore s c
    let g := getAg x (iDst w)
    let g' := { g with isOpen := true, sat := false }
    if g.isOpen || !agAreaOk x g then descFault
    else if bit (iImm w) 0 && g.area.2 != 0 then
      guarded s (guardSp s c t [] [g.area]) fun s =>
        .done (modCore s c fun x => setAg (spPut x [(g.area.1, zeros g.area.2)] []) (iDst w) g')
    else .done (modCore s c fun x => setAg x (iDst w) g')) s

def rowAgout : Row :=
  { cls := 0, maj := 3, sub := always,
    regs := fun w =>
      { dst := .d, src1 := .a, src2 := if bits (iImm w) 31 30 = 0 then .none else .d,
        src3 := if bits (iImm w) 27 25 = 5 then .s else .none },
    cores := true, ctl := false, ext := false,
    legal := fun w =>
      let m := iImm w
      bits m 31 30 != 3 && bits m 29 28 != 3 && decide (bits m 27 25 ≤ 5) && bits m 18 0 == 0 &&
      (bit m 22 || bits m 21 19 == 0) && keyOk (bits m 27 25 == 5) w }

/-- The shape that a broadcast code gives tile B (Tables 5.5, 5.8). -/
def bcShape (bc rows cols : Nat) : Nat × Nat := if bc = 1 then (1, cols) else if bc = 2 then (rows, 1) else (rows, cols)

/-- The element of a broadcast tile that meets element (i, j). -/
def bcElem (x : Core) (t : Tile) (bc i j : Nat) : Elem := t.elem x (if bc = 1 then 0 else i) (if bc = 2 then 0 else j)

/-- An FP32 result with its flag: an overflow, or a NaN from inputs that were not NaN (R104). -/
def flagged32 (emu : Bool) (v : FVal) (ins : List FVal) : FVal × Bool :=
  (r32 emu v, (roundF 1 .ne false v).2 || (v.isNan && !(ins.any FVal.isNan)))

/-- Element (i, j) of AGOUT before its conversion to the output format. -/
def agoutElem (emu : Bool) (x : Core) (g : AccGroup) (fmt epi bc : Nat) (te : Option Tile) (i j : Nat) : Computed :=
  let raw := g.raw x i j
  let bad := g.bad x i j
  match te with
  | none =>
    if g.acc = 1 then
      if isIntF fmt then { v := .val (.ofInt (decodeI 0xB raw)), poison := bad, flag := false }
      else { v := .val (r32 emu (.ofInt (decodeI 0xB raw))), poison := bad, flag := false }
    else { v := if fmt = 1 && !emu then .copy raw else .val (decodeV emu 1 raw 0), poison := bad, flag := false }
  | some t =>
    let v := if g.acc = 1 then r32 emu (.ofInt (decodeI 0xB raw)) else decodeV emu 1 raw 0
    let e := bcElem x t bc i j
    let y := widen emu t.fmt e.raw e.scale
    let r := flagged32 emu (if epi = 1 then v.add y else v.mul y) [v, y]
    { v := .val r.1, poison := bad || e.poison, flag := r.2 || widenOver t.fmt e.raw e.scale }

/-- AGOUT on checked operands: the state, and the predicate of R104. -/
def agoutRun (s : State) (a : Agent) (n c : Nat) (w : Word) (tout : Tile) (te : Option Tile) : State × Bool :=
  let m := iImm w
  let x := getCore s c
  let k := iSrc1 w
  let g := getAg x k
  let emu := (getCtx s n).num.s5emu
  let q := rndCfg s a n c w (if g.acc = 1 && isIntF tout.fmt then 0 else bits m 27 25) (bit m 24)
  let rows := gridOf tout.rows tout.cols (agoutElem emu x g tout.fmt (bits m 31 30) (bits m 29 28) te)
  let r := outputTile x q tout (fun _ _ => none) rows
  (setCore s c (setAg r.1 k { g with isOpen := bit m 23 }), r.2)

def execAgout (a : Agent) (w : Word) (s : State) : Outcome State Fault Refusal :=
  runInstr rowAgout a w (fun n s => onCore a fun c t =>
    let x := getCore s c
    let m := iImm w
    let emu := (getCtx s n).num.s5emu
    let epi := bits m 31 30
    let g := getAg x (iSrc1 w)
    let te := if epi = 0 then some none else (tileFor emu x (dOf s a (iSrc2 w))).map some
    if !rndOk emu (bits m 27 25) then .fault fcIllegal 0 false
    else match tileFor emu x (dOf s a (iDst w)), te with
      | some tout, some te =>
        let epRuns := match te with | none => [] | some e => e.runs
        let epOk := match te with
          | none => true
          | some e => (e.rows, e.cols) == bcShape (bits m 29 28) g.rows g.cols && !(g.acc == 1 && isIntF tout.fmt)
        if !g.isOpen || tout.rows != g.rows || tout.cols != g.cols || tout.fmt == 0 || tout.fmt == 0xC || !epOk ||
            runsHit tout.runs (g.area :: epRuns) then descFault
        else if g.rows = 0 || g.cols = 0 then
          doneEpe (modCore s c fun x => setAg x (iSrc1 w) { g with isOpen := bit m 23 }) a (bit m 22) (bits m 21 19) false
        else guarded s (guardSp s c t (g.area :: epRuns) tout.runs) fun s =>
          let r := agoutRun s a n c w tout te
          doneEpe r.1 a (bit m 22) (bits m 21 19) r.2
      | _, _ => descFault) s

/-! ### Attention (R116 to R118) -/

/-- The wider of two float classes. -/
def widerClass (fa fb : Nat) : Nat := max (floatClass fa) (floatClass fb)

def rowAtts : Row :=
  { cls := 0, maj := 4, sub := always, regs := regs4 .a .d .d .s, cores := true, ctl := false, ext := true,
    legal := fun w => iExt w, extLegal := fun e => fld e 16 0 == 0 }

/-- The fields of ATTS (Table 5.6, R117). -/
structure AttsArgs where
  scale : Nat
  col0 : Nat
  causal : Bool
  add : Bool
  qrow : Bool
  qpos : Nat
  kpos : Nat
  deriving DecidableEq, Repr

def attsArgs (e pos : Word) : AttsArgs :=
  { scale := fld e 63 32, col0 := fld e 31 20, causal := wbit e 19, add := wbit e 18, qrow := wbit e 17, qpos := fld pos 31 0,
    kpos := fld pos 63 32 }

/-- Score (i, j). -/
def attsElem (emu : Bool) (x : Core) (g : AccGroup) (q : AttsArgs) (tq tk : Tile) (i j : Nat) : OutElem :=
  if q.causal && decide (q.qpos + (if q.qrow then i else 0) < q.kpos + j) then { raw := 0xFF800000, poison := false }
  else
    let w := stride emu (widerClass tq.fmt tk.fmt)
    let acc := if q.add then decodeV emu 1 (g.raw x i (q.col0 + j)) 0 else FVal.zero
    { raw := f32bits (accumulate emu (some (decodeV emu 1 q.scale 0)) w (cdiv tq.cols w) acc (rowProducts emu x tq tk i j))
      poison := tq.rowPoison x i || tk.rowPoison x j || (q.add && g.bad x i (q.col0 + j)) }

/-- ATTS (R116, R117). That a group that is not open is a descriptor fault is the model's choice (log 131): Table 5.12 does not
list it. -/
def execAtts (a : Agent) (w : Word) (s : State) : Outcome State Fault Refusal :=
  runInstr rowAtts a w (fun n s => onCore a fun c t =>
    let x := getCore s c
    let emu := (getCtx s n).num.s5emu
    let e := codeWord x (iImm w)
    let q := attsArgs e (sOf s a (iSrc3 w))
    let g := getAg x (iDst w)
    match tileFor emu x (dOf s a (iSrc1 w)), tileFor emu x (dOf s a (iSrc2 w)) with
      | some tq, some tk =>
        if !isFloat tq.fmt || !isFloat tk.fmt || !g.isOpen || g.acc != 0 || tq.cols != tk.cols || tq.rows != g.rows ||
            (tk.rows != 0 && decide (g.cols < q.col0 + tk.rows)) || runsHit (tq.runs ++ tk.runs) [g.area] then descFault
        else if tq.rows = 0 || tk.rows = 0 || tq.cols = 0 then .done s
        else guarded s (guardSp s c t (g.area :: (tq.runs ++ tk.runs)) [g.area]) fun s =>
          .done (modCore s c fun x => writeGroup x g q.col0 (gridOf tq.rows tk.rows (attsElem emu x g q tq tk)))
      | _, _ => descFault) s

def rowAttv : Row :=
  { cls := 0, maj := 5, sub := always,
    regs := fun w => { dst := .a, src1 := .d, src2 := .d, src3 := if bit (iImm w) 0 then .d else .none },
    cores := true, ctl := false, ext := false, legal := fun w => bits (iImm w) 31 1 == 0 }

/-- Partial sum (i, j) after ATTV. -/
def attvElem (emu : Bool) (x : Core) (g : AccGroup) (tp tv : Tile) (tf : Option Tile) (i j : Nat) : OutElem :=
  let w := stride emu (widerClass tp.fmt tv.fmt)
  let old := decodeV emu 1 (g.raw x i j) 0
  let acc := match tf with
    | none => old
    | some t => r32 emu (old.mul ((t.elem x i 0).val emu t.fmt))
  let ps := (List.range tp.cols).map fun k => ((tp.elem x i k).val emu tp.fmt).mul ((tv.elem x k j).val emu tv.fmt)
  { raw := f32bits (accumulate emu none w (cdiv tp.cols w) acc ps)
    poison := g.bad x i j || tp.rowPoison x i || ((List.range tv.rows).any fun k => (tv.elem x k j).poison) ||
      (match tf with | none => false | some t => (t.elem x i 0).poison) }

/-- ATTV (R116, R118). That a group that is not open, and a factor tile in another format than FP32, are descriptor faults is the
model's choice (log 131): Table 5.12 lists neither. -/
def execAttv (a : Agent) (w : Word) (s : State) : Outcome State Fault Refusal :=
  runInstr rowAttv a w (fun n s => onCore a fun c t =>
    let x := getCore s c
    let emu := (getCtx s n).num.s5emu
    let g := getAg x (iDst w)
    let tf := if bit (iImm w) 0 then (tileFor emu x (dOf s a (iSrc3 w))).map some else some none
    match tileFor emu x (dOf s a (iSrc1 w)), tileFor emu x (dOf s a (iSrc2 w)), tf with
    | some tp, some tv, some tf =>
      let fRuns := match tf with | none => [] | some f => f.runs
      let fOk := match tf with | none => true | some f => f.fmt == 1 && f.rows == tp.rows && f.cols == 1
      if !isFloat tp.fmt || !isFloat tv.fmt || !g.isOpen || g.acc != 0 || tp.cols != tv.rows || g.rows != tp.rows ||
          g.cols != tv.cols || !fOk || runsHit (tp.runs ++ tv.runs ++ fRuns) [g.area] then descFault
      else if tp.rows = 0 || tp.cols = 0 || tv.cols = 0 then .done s
      else guarded s (guardSp s c t (g.area :: (tp.runs ++ tv.runs ++ fRuns)) [g.area]) fun s =>
        .done (modCore s c fun x => writeGroup x g 0 (gridOf g.rows g.cols (attvElem emu x g tp tv tf)))
    | _, _, _ => descFault) s

end Machine
end Sys2Proof
end

