-- ==== Sys2Proof/Machine/Ordered.lean ====
section
/-! DEFINITION. The ordered flits of the peer links: QUEUE flits and control messages, delivered in ESEQ order per source and class
(R271), and the commands that bring them. -/

namespace Sys2Proof
namespace Machine

open Host

/-- What an ordered flit does once its turn has come; other commands are no ordered flits. -/
def deliver (c : Instr) (s : State) : State :=
  match c with
  | .queueFlit f => takeQueueFlit f s
  | .absent _ peer incarnation joinEpoch => takeAbsent peer incarnation joinEpoch s
  | .arrive m => takeArrive m.val s
  | .abort _ group attempt step => takeAbort group attempt step s
  | .gflagMessage src group attempt step flag aborted => takeGflagMessage src.val group attempt step flag aborted s
  | .relaydrain dst => takeRelaydrain dst.val s
  | .qcredit src sendCore sendEp recvCore recvEp words => takeQcredit src.val sendCore sendEp recvCore recvEp words s
  | .qconfig src core ep word part answer => takeQconfig src.val core ep word part answer s
  | .qclose src core ep peerCore peerEp words => takeQclose src.val core ep peerCore peerEp words s
  | .routes mask => takeRoutes mask.val s
  | _ => s

/-- The ESEQ that a source and class is to deliver next. -/
def eseqWanted (s : State) (src cls : Nat) : Nat := tget 0 s.peers.eseqRx (4 * src + cls)

/-- The flit of that ESEQ is taken. -/
def eseqTaken (s : State) (src cls : Nat) : State :=
  modPeers s fun p => { p with eseqRx := tput p.eseqRx (4 * src + cls) ((eseqWanted s src cls + 1) % 4096) }

/-- Delivers the flits of a source and class that came ahead of their turn and are next now. -/
def deliverEarly : Nat → Nat → Nat → State → State
  | 0, _, _, s => s
  | fuel + 1, src, cls, s =>
    match s.peers.early.find? fun e => e.1 == src && e.2.1 == cls && e.2.2.1 == eseqWanted s src cls with
    | none => s
    | some e =>
      let s := modPeers s fun p => { p with early := p.early.filter fun x => x != e }
      deliverEarly fuel src cls (deliver e.2.2.2 (eseqTaken s src cls))

/-- An ordered flit of a present source (R271, R274): in its turn it is delivered, and those that waited for it after it; ahead of its
turn it is held; one delivered before is discarded. Half of the ESEQ numbers count as past (DESIGN CHOICE, log 125). -/
def ordered (src cls eseq : Nat) (c : Instr) (s : State) : State :=
  let ahead := (eseq + 4096 - eseqWanted s src cls) % 4096
  if !peerPresent s src || 2048 ≤ ahead then s
  else if ahead = 0 then
    deliverEarly s.peers.early.length src cls (deliver c (eseqTaken s src cls))
  else if s.peers.early.any fun e => e.1 == src && e.2.1 == cls && e.2.2.1 == eseq then s
  else modPeers s fun p => { p with early := p.early ++ [(src, cls, eseq, c)] }

/-! ### The commands -/

/-- QUEUE_FLIT (R69, R71, R271). -/
def execQueueFlit (f : QueueFlit) (s : State) : Outcome State Fault Refusal := .next (ordered f.src f.cls f.eseq (.queueFlit f) s)

/-- ABSENT (R273). -/
def execAbsent (src : InOrder Nat) (peer incarnation joinEpoch : Nat) (s : State) : Outcome State Fault Refusal :=
  .next (ordered src.val 0 src.eseq (.absent src peer incarnation joinEpoch) s)

/-- ARRIVE (R275). -/
def execArrive (m : InOrder ArriveMsg) (s : State) : Outcome State Fault Refusal :=
  .next (ordered m.val.src 0 m.eseq (.arrive m) s)

/-- ABORT (R284). -/
def execAbort (src : InOrder Nat) (group attempt step : Nat) (s : State) : Outcome State Fault Refusal :=
  .next (ordered src.val 0 src.eseq (.abort src group attempt step) s)

/-- GFLAG_MESSAGE (R282). -/
def execGflagMessage (src : InOrder Nat) (group attempt step : Nat) (flag aborted : Bool) (s : State) :
    Outcome State Fault Refusal :=
  .next (ordered src.val 0 src.eseq (.gflagMessage src group attempt step flag aborted) s)

/-- RELAYDRAIN (R271), from the partner. -/
def execRelaydrain (dst : InOrder Nat) (s : State) : Outcome State Fault Refusal :=
  .next (ordered (partnerOf s) 0 dst.eseq (.relaydrain dst) s)

/-- QCREDIT (R64). -/
def execQcredit (src : InOrder Nat) (sendCore sendEp recvCore recvEp words : Nat) (s : State) : Outcome State Fault Refusal :=
  .next (ordered src.val 0 src.eseq (.qcredit src sendCore sendEp recvCore recvEp words) s)

/-- QCONFIG (R461). -/
def execQconfig (src : InOrder Nat) (core ep : Nat) (word : Word) (part : Nat) (answer : Bool) (s : State) :
    Outcome State Fault Refusal :=
  .next (ordered src.val 0 src.eseq (.qconfig src core ep word part answer) s)

/-- QCLOSE (R461). -/
def execQclose (src : InOrder Nat) (core ep peerCore peerEp words : Nat) (s : State) : Outcome State Fault Refusal :=
  .next (ordered src.val 0 src.eseq (.qclose src core ep peerCore peerEp words) s)

/-- ROUTES (R270), from the partner. -/
def execRoutes (mask : InOrder (BitVec 8)) (s : State) : Outcome State Fault Refusal :=
  .next (ordered (partnerOf s) 0 mask.eseq (.routes mask) s)

end Machine
end Sys2Proof
end

