-- ==== Sys2Proof/Machine/PowerStates.lean ====
section
/-! DEFINITION. Nap and Hold (R439 to R442) and the management bus (R428, Table 18.3). -/

namespace Sys2Proof
namespace Machine

open Host

/-! ### Nap (R439) -/

/-- NAP_ENTRY (R439). -/
def execNapEntry (s : State) : Outcome State Fault Refusal :=
  match s.pwr.napSince with
  | none => .next s
  | some t =>
    if running s && !s.pwr.inHold && s.pwr.napEn && allStopped s && quiet s &&
        decide (t + usTicks * s.pwr.napAfterUs ≤ now s) then
      .next (modPwr s fun p => { p with state := 2 })
    else .next s

/-! ### Registers of power and recovery -/

/-- STATE of PWR.STATE (Table 18.9): Nap; Idle while every core is gated and some die's PLL runs; else Run. -/
def powerState (s : State) : Nat :=
  if napStays s then 2
  else if !allStopped s && (List.range 1024).all (fun c =>
      s.recov.lostCores.contains c || !(pllRuns s c) || (getCore s c).gated) then 1 else 0

/-- PWR.STATE (Table 18.9). -/
def pwrStateReg (s : State) : Nat :=
  let p := s.pwr
  powerState s <<< 29 + p.service <<< 26 + b2n p.uvOv <<< 25 + b2n p.thermal <<< 24 + b2n p.holdRefused <<< 23

/-- REC.STATUS (Table 16.7). -/
def recStatusReg (s : State) : Nat :=
  let r := s.recov
  b2n r.fatal <<< 31 + b2n r.degraded <<< 30 + r.spareDie <<< 28 + (8 - r.lostDies.length) <<< 24 +
    (16 - r.lostStacks.length) <<< 11 + (1024 - 128 * r.lostDies.length - r.lostCores.length)

/-! ### Hold (R440, R441) -/

/-- HOLD (R440): through PWR.CTL.HOLD. -/
def execHold (s : State) : Outcome State Fault Refusal := if hostUp s then .next (requestHold s) else .next s

/-- A wake (R441): clocks and DRAM go on, JOIN_EPOCH rises, the ports are enabled; doorbells that waited are taken. -/
def leaveHold (s : State) : State :=
  if !s.pwr.inHold || !running s then s
  else
    let s := emit (modPwr s fun p => { p with inHold := false }) (.l12 false)
    let s := rejoin s
    pumpBells (enablePorts s)

/-- HOLD_EXIT (R441). -/
def execHoldExit (s : State) : Outcome State Fault Refusal := .next (leaveHold s)

/-! ### The management bus (R428) -/

/-- A transaction of the bus: the responder answers in every state but Off. -/
def onSmb (s : State) (f : State → State) : Outcome State Fault Refusal := if s.pwr.off then .next s else .next (f s)

/-- The module's 7-bit address on the bus. -/
def smbAddress (s : State) : Nat := 0x40 + s.peers.self

/-- The address byte of a transaction: a write, or a read. -/
def smbAddr (s : State) (read : Bool) : Byte := BitVec.ofNat 8 (2 * smbAddress s + b2n read)

/-- One bit of the packet error code's CRC-8, of polynomial 0x07 (SMBus 3.x). -/
def pecBit (c : Nat) : Nat := if 128 ≤ c then (2 * c ^^^ 0x07) % 256 else 2 * c

/-- The packet error code of the bytes of a transaction, its addresses with them (R428; SMBus 3.x, log 151). -/
def pecOf (bs : List Byte) : Byte :=
  BitVec.ofNat 8 (bs.foldl (fun c b => pecBit (pecBit (pecBit (pecBit (pecBit (pecBit (pecBit (pecBit (c ^^^ b.toNat))))))))) 0)

/-- A read of a command: the bytes, a block with its count before them, and the packet error code. -/
def smbAnswer (s : State) (code : Byte) (block : Bool) (bs : List Byte) : Out :=
  let sent := (if block then [BitVec.ofNat 8 bs.length] else []) ++ bs
  .smb (sent ++ [pecOf ([smbAddr s false, code, smbAddr s true] ++ sent)])

/-- Whether the packet error code of a write, when it carries one, is right. -/
def pecRight (s : State) (code : Byte) (bs : List Byte) (pec : Option Byte) : Bool :=
  match pec with
  | none => true
  | some p => p == pecOf ([smbAddr s false, code] ++ bs)

/-- A write of a command takes effect and is acknowledged; one whose packet error code is wrong is NAKed. -/
def smbTake (s : State) (code : Byte) (bs : List Byte) (pec : Option Byte) (f : State → State) : State :=
  if pecRight s code bs pec then emit (f s) .smbAck else emit s (.smbNak code)

/-- Every condition that is set is reported: both alert lines are released. -/
def reportAll (s : State) : State := settleAlert (modPwr s fun p => { p with reported := alertConds s })

/-- SMB_STATUS (Table 18.3). -/
def execSmbStatus (s : State) : Outcome State Fault Refusal :=
  onSmb s fun s => emit (reportAll s) (smbAnswer s 0x01 true (leBytes 4 (pwrStateReg s) ++ leBytes 4 (recStatusReg s)))

def execSmbPower (s : State) : Outcome State Fault Refusal := onSmb s fun s => emit s (smbAnswer s 0x02 true (leBytes 4 s.clk.inPower))

def execSmbVoltage (s : State) : Outcome State Fault Refusal := onSmb s fun s => emit s (smbAnswer s 0x03 true (leBytes 4 s.pwr.inMv))

def execSmbTemp (s : State) : Outcome State Fault Refusal := onSmb s fun s => emit s (smbAnswer s 0x04 false (leBytes 1 s.pwr.tempMax))

def execSmbBoot (s : State) : Outcome State Fault Refusal := onSmb s fun s => emit s (smbAnswer s 0x05 true (leBytes 4 (bootReg s.pwr)))

/-- A written SUSTAINED_W within the limits of Table 1.10. -/
def capOf (v : Nat) : Nat := min 3200 (max 1000 v)

/-- SMB_CAP (Table 18.3): a read, or a write of a word. -/
def execSmbCap (value : Option (SmbWrite 16)) (s : State) : Outcome State Fault Refusal :=
  onSmb s fun s => match value with
    | none => emit s (smbAnswer s 0x10 false (leBytes 2 s.clk.sustainedW))
    | some v => smbTake s 0x10 (leBytes 2 v.val.toNat) v.pec fun s => modClk s fun c => { c with sustainedW := capOf v.val.toNat }

/-- SMB_WAKE (R441): a write with any value whose packet error code, when it carries one, is right (log 151). -/
def execSmbWake (s : State) : Outcome State Fault Refusal := onSmb s fun s => emit (leaveHold s) .smbAck

/-- SMB_HOLD (R440): 0xA5 requests Hold; other values are ignored. -/
def execSmbHold (value : SmbWrite 8) (s : State) : Outcome State Fault Refusal :=
  onSmb s fun s => smbTake s 0x21 [value.val] value.pec fun s => if value.val = 0xA5 then requestHold s else s

/-- SMB_WARM (R443): 0x5A starts a warm reset; other values are ignored. -/
def execSmbWarm (value : SmbWrite 8) (slot : Nat) (s : State) : Outcome State Fault Refusal :=
  onSmb s fun s => smbTake s 0x22 [value.val] value.pec fun s => if value.val = 0x5A then warmReset s slot else s

/-- The answer at the alert response address (0x0C): the module's address, and the packet error code. -/
def alertAnswer (s : State) : List Byte := [smbAddr s false, pecOf [0x19, smbAddr s false]]

/-- SMB_ALERT_RESPONSE (R428): a module that asserts the alert answers with its address and releases the lines. -/
def execSmbAlertResponse (s : State) : Outcome State Fault Refusal :=
  onSmb s fun s => if s.pwr.alert then emit (reportAll s) (.smb (alertAnswer s)) else s

/-- Command codes of Table 18.3. -/
def smbCodes : List Byte := [0x01, 0x02, 0x03, 0x04, 0x05, 0x10, 0x20, 0x21, 0x22]

/-- SMB_NAK (R428): of a code that Table 18.3 does not list. -/
def execSmbNak (code : Byte) (s : State) : Outcome State Fault Refusal :=
  onSmb s fun s => if smbCodes.contains code then s else emit s (.smbNak code)

end Machine
end Sys2Proof
end

