-- ==== Sys2Proof/Machine/Registers.lean ====
section
/-! DEFINITION. REGISTER_WRITE (R6, R7, R409): a host write to PF BAR0 or to a VF BAR0. Fields whose write is a row of its own
(doorbells, W1S bits, ENABLE of a port, HINT_CTL, DIE_CLK) are written by that row's command and ignore this one. -/

namespace Sys2Proof
namespace Machine

open Host

/-- A write within one aligned 8-byte unit of a block: its offset, and the low and high 32 bits where they are written. -/
structure RegWr where
  unit : Nat
  lo : Option Nat
  hi : Option Nat
  deriving DecidableEq, Repr

/-- The write of `width` bytes at an offset (R409): aligned, of 32 or 64 bits; anything else is ignored. -/
def regWr (off width : Nat) (v : Nat) : Option RegWr :=
  if width = 8 && off % 8 = 0 then some { unit := off, lo := some (v % 2 ^ 32), hi := some (v / 2 ^ 32 % 2 ^ 32) }
  else if width = 4 && off % 8 = 0 then some { unit := off, lo := some (v % 2 ^ 32), hi := none }
  else if width = 4 && off % 8 = 4 then some { unit := off - 4, lo := none, hi := some (v % 2 ^ 32) }
  else none

/-- A 64-bit register after the write: a half that is not written keeps its bits. -/
def RegWr.merge (w : RegWr) (old : Nat) : Nat := w.lo.getD (old % 2 ^ 32) + 2 ^ 32 * w.hi.getD (old / 2 ^ 32)

/-- The write as it stands in a block that begins at `base`. -/
def RegWr.within (w : RegWr) (base : Nat) : RegWr := { w with unit := w.unit - base }

/-- Acts on a 32-bit half where it is written. -/
def onHalf (h : Option Nat) (s : State) (f : Nat → State) : State := match h with | none => s | some v => f v

/-- A W1C bit. -/
def w1c (old : Bool) (v k : Nat) : Bool := old && !bit v k

/-- An address field whose bits below `2 ^ n` must be 0 (R6): a write that sets one leaves it unchanged. -/
def alignedOr (n old v : Nat) : Nat := if v % 2 ^ n = 0 then v else old

/-- A vector field with EN in [31] (Tables 15.5, 17.6): a vector at or above VEC_COUNT is stored with EN 0. -/
def vecField (s : State) (p v : Nat) : Bool × Nat :=
  (bit v 31 && decide (v % 2048 < (partEntry s p).vecCount), v % 2048)

/-! ### Global, power, security, error, ports, counters -/

/-- Tables 8.9 and 15.7. -/
def globalWrite (w : RegWr) (s : State) : State :=
  match w.unit with
  | 0x808 => onHalf w.lo s fun v => modMem s fun m => { m with lateT2 := max 960 v }
  | 0x810 => onHalf w.lo s fun v => modMem s fun m => { m with lateT3 := max 960 v }
  | 0x818 => onHalf w.lo s fun v => modMem s fun m => { m with lateT4 := max 960 v }
  | 0x900 => onHalf w.lo s fun v => { s with quantumUs := min 100000 (max 100 v) }
  | _ => s

/-- Tables 1.10, 1.11 and 18.8 to 18.10. -/
def powerWrite (w : RegWr) (s : State) : State :=
  match w.unit with
  | 0x020 => onHalf w.hi s fun v => modClk s fun c => { c with sustainedW := capOf (v % 4096) }
  | 0x030 => onHalf w.lo s fun v => modClk s fun c => { c with failA := w1c c.failA v 2, failB := w1c c.failB v 3 }
  | 0x200 =>
    let s := onHalf w.lo s fun v => settleAlert (modPwr s fun p => { p with
      uvOv := w1c p.uvOv v 25, thermal := w1c p.thermal v 24, holdRefused := w1c p.holdRefused v 23 })
    onHalf w.hi s fun v => modPwr s fun p => { p with napEn := bit v 29 }
  | 0x208 =>
    let s := onHalf w.lo s fun v => modPwr s fun p => { p with pin := v % 65536 }
    onHalf w.hi s fun v => modPwr s fun p => { p with napAfterUs := max 10 v }
  | _ => s

/-- Table 19.10; in recovery only the staging registers respond (R460). -/
def securityWrite (w : RegWr) (s : State) : State :=
  match w.unit with
  | 0x020 => modSec s fun x => { x with stagePa := alignedOr 8 x.stagePa (w.merge x.stagePa) }
  | 0x028 => onHalf w.lo s fun v => modSec s fun x => { x with fwBytes := v }
  | u =>
    if !secUp s || decide (u < 0x100) || decide (0x300 ≤ u) then s
    else
      let i := (u - 0x100) / 0x80
      let x := getSlot s i
      match (u - 0x100) % 0x80 with
      | 0x00 => setCr s i { x with bodyPa := alignedOr 8 x.bodyPa (w.merge x.bodyPa) }
      | 0x08 => setCr s i { x with sigPa := alignedOr 8 x.sigPa (w.merge x.sigPa) }
      | _ => s

/-- RESTART of a context (Table 16.10). -/
def restartWrite (w : RegWr) (x : Ctx) : Ctx :=
  let v := w.merge (x.restartVa + 2 ^ 63 * b2n x.restartEn)
  { x with restartEn := bit v 63, restartVa := alignedOr 3 x.restartVa (v % 2 ^ 48) }

/-- Tables 16.6 and 16.10. -/
def errorWrite (w : RegWr) (s : State) : State :=
  match w.unit with
  | 0x10 => modRec s fun r => { r with logRead := min r.logWritten (w.merge r.logRead) }
  | 0x20 => onHalf w.lo s fun v => modRec s fun r => { r with logIrqEn := bit v 31, logIrqVec := v % 2048 }
  | u =>
    if decide (0x20000 ≤ u) && u % 0x20 = 0 then modCtx s ((u - 0x20000) / 0x20) (restartWrite w) else s

/-- CTL of a port (Table 10.13), but for ENABLE and RETRAIN. -/
def portCtlWrite (v : Nat) (p : Port) : Port :=
  { p with replayMax := max 1 (bits v 29 27), wC1 := bits v 23 16, wC2 := bits v 15 8, wC3 := bits v 7 0 }

/-- Table 10.11. -/
def portsWrite (w : RegWr) (s : State) : State :=
  let p := w.unit / 0x1000
  if 8 ≤ p then s
  else match w.unit % 0x1000 with
  | 0x000 =>
    let s := onHalf w.lo s fun v => modPort s p fun q => { q with wiringErr := w1c q.wiringErr v 17 }
    onHalf w.hi s fun v => modPort s p (portCtlWrite v)
  | 0x010 => onHalf w.lo s fun v => modPort s p fun q => { q with laneLimit := v }
  | _ => s

/-- Table 2.10. -/
def countersWrite (w : RegWr) (s : State) : State :=
  match w.unit with
  | 0xA0100 => onHalf w.lo s fun v => modClk s fun c => { c with stallEnable := bit v 31, stallLimitUs := v % 2 ^ 24 }
  | _ => s

/-! ### PART, CTX -/

/-- STATUS of a partition (Table 15.5). -/
def partStatusWrite (v : Nat) (x : Part) : Part :=
  { x with resetDone := w1c x.resetDone v 30, createRefused := w1c x.createRefused v 29 }

/-- Table 15.5: through its mirror a VF clears the W1C bits only (R378). -/
def partWrite (pf : Bool) (p : Nat) (w : RegWr) (s : State) : State :=
  match w.unit with
  | 0x000 => onHalf w.hi s fun v => modPart s p (partStatusWrite v)
  | 0x008 => if !pf then s else onHalf w.lo s fun v => modPart s p fun x => { x with share := v % 65536 }
  | 0x010 =>
    if !pf then s
    else onHalf w.hi s fun v => modPart s p fun x => { x with evtEn := (vecField s p v).1, evtVec := (vecField s p v).2 }
  | _ => s

/-- SHADOW_CTL (Table 7.10). -/
def shadowWrite (v : Nat) (n : Num) : Num :=
  { n with shEnable := bit v 31, shAlertBin := bits v 30 28, shAlertEn := bit v 27, shAlertTag := bits v 26 23,
           shRateExp := bits v 19 16 }

/-- Tables 7.8, 14.3, 14.5 and 15.6: NUM_CTL, PEPPER_SEED and ROLE read back as written and have no effect (R202). -/
def ctxWrite (n : Nat) (w : RegWr) (s : State) : State :=
  match w.unit with
  | 0x010 => onHalf w.lo s fun v => modCtx s n fun x => { x with share := v % 65536 }
  | 0x400 => onHalf w.lo s fun v => modCtx s n fun x => { x with num := { x.num with s5emuReg := bit v 31 } }
  | 0x408 => modCtx s n fun x => { x with num := { x.num with seedReg := w64 (w.merge x.num.seedReg.toNat) } }
  | 0x410 => onHalf w.lo s fun v => modCtx s n fun x => { x with num := shadowWrite v x.num }
  | 0x480 =>
    let s := onHalf w.lo s fun v =>
      if bits v 31 30 = 3 then s else modCtx s n fun x => { x with dst := { x.dst with roleReg := bits v 31 30 } }
    onHalf w.hi s fun v => modCtx s n fun x => { x with dst := { x.dst with epMask := v } }
  | _ => s

/-! ### RQ, MDL, CMD -/

def rqRefuse (s : State) (p : Nat) : State := modPart s p fun x => { x with rqCfgRefused := true }
def mdlRefuse (s : State) (p : Nat) : State := modPart s p fun x => { x with mdlCfgRefused := true }
def cmdRefuse (s : State) (p : Nat) : State := modPart s p fun x => { x with cmdCfgRefused := true }

/-- MAX_ACTIVE of all partitions together (R303). -/
def maxActiveSum (s : State) : Nat := (List.range 64).foldl (fun n p => n + (getPart s p).rqMaxActive) 0

/-- Whether a table of slots lies within the partition's memory windows (R301, R326): a write that would place it elsewhere is ignored
and sets CFG_REFUSED, as one of a region is (R344; DESIGN CHOICE, log 127). BASE 0 names no table yet. -/
def slotTableOk (s : State) (p base slots : Nat) : Bool := slots == 0 || base == 0 || inWindows s p base (256 * slots)

/-- Table 12.9 and R325. -/
def rqWrite (p : Nat) (w : RegWr) (s : State) : State :=
  let x := getPart s p
  match w.unit with
  | 0x000 =>
    let v := w.merge x.rqBase
    if activeReqs s p != 0 || v % 256 != 0 || !slotTableOk s p v x.rqSlots then rqRefuse s p
    else modPart s p fun x => { x with rqBase := v }
  | 0x008 =>
    let s := onHalf w.lo s fun v =>
      if activeReqs s p != 0 || decide (65536 < v) || !slotTableOk s p x.rqBase v then rqRefuse s p else modPart s p fun x => { x with rqSlots := v }
    onHalf w.hi s fun v =>
      if 65536 < maxActiveSum s - x.rqMaxActive + v then rqRefuse s p else modPart s p fun x => { x with rqMaxActive := v }
  | 0x020 => onHalf w.lo s fun v => modPart s p fun x => { x with
      rqCfgRefused := w1c x.rqCfgRefused v 31, rqBadDoorbell := w1c x.rqBadDoorbell v 30 }
  | _ => s

/-- Whether a model of the partition is LOADING, RESIDENT or REPLACING (R344). -/
def hasModel (s : State) (p : Nat) : Bool := s.models.any fun e => e.2.part == p && mdlAlive e.2

/-- Whether a model region lies in the partition's windows; an empty one does. -/
def regionOk (s : State) (p base size : Nat) : Bool := decide (size = 0) || inWindows s p base size

/-- A region size, rounded down to whole pages (R344). -/
def regionSize (v : Nat) : Nat := v / pageBytes * pageBytes

/-- A write that R344 allows only without a live model. -/
def mdlConfig (s : State) (p : Nat) (ok : Bool) (f : Part → Part) : State :=
  if hasModel s p || !ok then mdlRefuse s p else modPart s p f

/-- Table 13.6 and R344. -/
def mdlWrite (p : Nat) (w : RegWr) (s : State) : State :=
  let x := getPart s p
  match w.unit with
  | 0x000 => mdlConfig s p (w.merge x.mdlBase % 256 == 0 && slotTableOk s p (w.merge x.mdlBase) x.mdlSlots) fun x => { x with mdlBase := w.merge x.mdlBase }
  | 0x008 => onHalf w.lo s fun v => mdlConfig s p (decide (v ≤ 256) && slotTableOk s p x.mdlBase v) fun x => { x with mdlSlots := v }
  | 0x018 => onHalf w.lo s fun v => modPart s p fun x => { x with
      mdlCfgRefused := w1c x.mdlCfgRefused v 31, mdlBadDoorbell := w1c x.mdlBadDoorbell v 30 }
  | 0x020 => mdlConfig s p (regionOk s p (w.merge x.t1Base) x.t1Size) fun x => { x with t1Base := w.merge x.t1Base }
  | 0x028 =>
    let n := regionSize (w.merge x.t1Size)
    mdlConfig s p (regionOk s p x.t1Base n) fun x => { x with t1Size := n }
  | 0x030 => mdlConfig s p (regionOk s p (w.merge x.t2Base) x.t2Size) fun x => { x with t2Base := w.merge x.t2Base }
  | 0x038 =>
    let n := regionSize (w.merge x.t2Size)
    mdlConfig s p (regionOk s p x.t2Base n) fun x => { x with t2Size := n }
  | _ => s

/-- Whether a command ring lies within the partition's windows. -/
def cmdRingOk (s : State) (p base order : Nat) : Bool := inWindows s p base (256 * cmdSlots order)

/-- A write of BASE (Table 17.6). -/
def cmdBaseWrite (s : State) (p v : Nat) : State :=
  let x := getPart s p
  if v % 256 != 0 || x.cmdHead != x.cmdTail || (v != 0 && !cmdRingOk s p v x.cmdOrder) then cmdRefuse s p
  else modPart s p fun x => { x with cmdBase := v }

/-- A write of ORDER (Table 17.6). -/
def cmdOrderWrite (s : State) (p v : Nat) : State :=
  let x := getPart s p
  if decide (8 < v) || x.cmdHead != x.cmdTail || (x.cmdBase != 0 && !cmdRingOk s p x.cmdBase v) then cmdRefuse s p
  else modPart s p fun x => { x with cmdOrder := v }

/-- A write of TAIL (R419): the doorbell of the command ring. -/
def cmdTailWrite (s : State) (p v : Nat) : State :=
  let x := getPart s p
  if !accepting s p then s
  else if decide (cmdSlots x.cmdOrder < (v + 2 ^ 32 - x.cmdHead) % 2 ^ 32) || x.cmdBase == 0 ||
      !cmdRingOk s p x.cmdBase x.cmdOrder then modPart s p fun x => { x with cmdBadDoorbell := true }
  else modPart s p fun x => { x with cmdTail := v }

/-- Table 17.6. -/
def cmdWrite (p : Nat) (w : RegWr) (s : State) : State :=
  match w.unit with
  | 0x000 => cmdBaseWrite s p (w.merge (getPart s p).cmdBase)
  | 0x008 => onHalf w.lo s fun v => cmdOrderWrite s p (v % 16)
  | 0x010 => onHalf w.lo s fun v => cmdTailWrite s p v
  | 0x018 =>
    let s := onHalf w.lo s fun v => modPart s p fun x => { x with
      cmdCfgRefused := w1c x.cmdCfgRefused v 31, cmdBadDoorbell := w1c x.cmdBadDoorbell v 30 }
    onHalf w.hi s fun v => modPart s p fun x => { x with cplEn := (vecField s p v).1, cplVec := (vecField s p v).2 }
  | _ => s

/-! ### MSI-X tables -/

/-- A table entry after a write at its offset 0 (address) or 8 (data, vector control). -/
def msixEntryWrite (w : RegWr) (e : MsixEntry) : MsixEntry :=
  if w.unit % 16 = 0 then { e with addr := w64 (w.merge e.addr.toNat) }
  else { e with data := (w.lo.map (BitVec.ofNat 32)).getD e.data, masked := (w.hi.map fun v => bit v 0).getD e.masked }

/-- R410: every entry accepts writes. A message that its unmasking lets wait for a token is counted. -/
def msixTableWrite (p : Nat) (w : RegWr) (s : State) : State :=
  let v := w.unit / 16
  noteDeferred (modPart s p fun x =>
    { x with vectors := tput x.vectors v (msixEntryWrite w (tget MsixEntry.reset x.vectors v)) }) p

/-! ### BAR0 -/

/-- Blocks that respond in recovery as at any other time (R435). -/
def pfBasicWrite (w : RegWr) (s : State) : State :=
  if w.unit < 0x10000 then globalWrite w s
  else if w.unit < 0x20000 then powerWrite (w.within 0x10000) s
  else if w.unit < 0x40000 then securityWrite (w.within 0x20000) s
  else if w.unit < 0x80000 then errorWrite (w.within 0x40000) s
  else s

/-- The remaining blocks of Table 17.3. -/
def pfFullWrite (w : RegWr) (s : State) : State :=
  let p := w.unit / 0x1000 % 64
  let r := { w with unit := w.unit % 0x1000 }
  if w.unit < 0x80000 then s
  else if w.unit < 0x100000 then portsWrite (w.within 0x80000) s
  else if w.unit < 0x140000 then partWrite true p r s
  else if w.unit < 0x200000 then s
  else if w.unit < 0x1000000 then countersWrite (w.within 0x200000) s
  else if w.unit < 0x2000000 then ctxWrite (w.unit / 0x1000 % 4096) r s
  else if w.unit < 0x2040000 then rqWrite p r s
  else if w.unit < 0x2080000 then s
  else if w.unit < 0x20C0000 then mdlWrite p r s
  else if w.unit < 0x2100000 then s
  else if w.unit < 0x2140000 then cmdWrite p r s
  else if w.unit < 0x3000000 then s
  else if w.unit < 0x3008000 then msixTableWrite 0 (w.within 0x3000000) s
  else s

/-- BAR0 of VF n (Table 17.4). -/
def vfWrite (n : Nat) (w : RegWr) (s : State) : State :=
  let r := { w with unit := w.unit % 0x1000 }
  match w.unit / 0x1000 with
  | 0x00 => partWrite false n r s
  | 0x10 => rqWrite n r s
  | 0x11 => mdlWrite n r s
  | 0x12 => cmdWrite n r s
  | u => if decide (0x80 ≤ u) && decide (u < 0x88) then msixTableWrite n (w.within 0x80000) s else s

/-- A write that the module takes: in recovery there is the PF alone (R435), and a VF answers while it is enabled. -/
def takeWrite (func : Nat) (w : RegWr) (s : State) : State :=
  if func = 0 then if s.pwr.service = 3 then pfBasicWrite w s else pfFullWrite w (pfBasicWrite w s)
  else if func < 64 && s.host.vfEnable && s.pwr.service != 3 then vfWrite func w s
  else s

/-- A write to the configuration space of function n, 32 bits at a time, once the functions are ready (R436). -/
def takeConfig (n : Nat) (w : RegWr) (s : State) : State :=
  if !s.host.cfgReady then s
  else
    let s := onHalf w.lo s fun v => configWrite n w.unit v s
    onHalf w.hi s fun v => configWrite n (w.unit + 4) v s

/-- REGISTER_WRITE (R6, R409). -/
def execRegisterWrite (func off width : Nat) (value : Word) (s : State) : Outcome State Fault Refusal :=
  match regWr off width value.toNat with
  | none => .next s
  | some w => if !hostUp s then .next s else if func < 64 then .next (takeWrite func w s) else .next (takeConfig (func - 64) w s)

end Machine
end Sys2Proof
end

