-- ==== Sys2Proof/Machine/Serving.lean ====
section
/-! DEFINITION. The commands of the commit window as rows of their own (R305 to R321): what a control thread's store to W0 of a
request slot or of the dispatch slot does, apart from the store instruction itself. -/

namespace Sys2Proof
namespace Machine

open Host

/-- The word at a control thread's instruction pointer, for a fault record. -/
def ctlWord (s : State) (n : Nat) : Word :=
  let x := getCtx s n
  let va := x.ctl.codeVa + 8 * x.ctl.thr.ip
  match translate s n va false with
  | .error _ => 0
  | .ok pa => w64 (leNat (fwRead s pa 8))

/-- What the row of a command of the commit window leaves: the slot's result, or the fault of the store. -/
def servingEnd (s : State) (n : Nat) (r : IRes) : State :=
  let t := (getCtx s n).ctl.thr
  match r with
  | .done s' => s'
  | .fault c va _ => ctxFault s n (faultOf s (.ctl n) c va (ctlWord s n) t.ip t.block)
  | _ => s

/-- W1 of a context's request slot as the command stores it, where the slot is the context's. -/
def withW1 (s : State) (n req : Nat) (w1 : Option Word) : State :=
  match w1, getReq s req with
  | some v, some r => if r.ctx = some n then storeW1 s n req v else s
  | _, _ => s

/-- A command of a request slot, W1 stored first where the row gives it: it has an effect when the context's control thread may
issue and W0 carries the row's OP. -/
def serving (op n req : Nat) (w0 : Word) (w1 : Option Word) (s : State) : Outcome State Fault Refusal :=
  if canIssue s (.ctl n) n && fld w0 63 60 == op then
    let s := withW1 s n req w1
    .next (servingEnd s n (slotResult n req (winSlots + 256 * req) w0 (commitCommand s n req w0 (tget 0 (getCtx s n).windowW1 req))))
  else .next s

def execBind (ctx req : Nat) (w0 : Word) (s : State) : Outcome State Fault Refusal := serving 1 ctx req w0 none s
def execEmit (ctx req : Nat) (w0 w1 : Word) (s : State) : Outcome State Fault Refusal := serving 2 ctx req w0 (some w1) s
def execDraft (ctx req : Nat) (w0 w1 : Word) (s : State) : Outcome State Fault Refusal := serving 3 ctx req w0 (some w1) s
def execAccept (ctx req : Nat) (w0 : Word) (s : State) : Outcome State Fault Refusal := serving 4 ctx req w0 none s
def execRollback (ctx req : Nat) (w0 : Word) (s : State) : Outcome State Fault Refusal := serving 5 ctx req w0 none s
def execPrefilled (ctx req : Nat) (w0 : Word) (s : State) : Outcome State Fault Refusal := serving 6 ctx req w0 none s
def execUnbind (ctx req : Nat) (w0 : Word) (s : State) : Outcome State Fault Refusal := serving 7 ctx req w0 none s
def execFail (ctx req : Nat) (w0 w1 : Word) (s : State) : Outcome State Fault Refusal := serving 8 ctx req w0 (some w1) s

/-- FETCH (R309). -/
def execFetch (ctx : Nat) (w0 : Word) (s : State) : Outcome State Fault Refusal :=
  if canIssue s (.ctl ctx) ctx && fld w0 63 60 == 9 then
    .next (servingEnd s ctx (dispatchResult ctx winDispatch w0 (commitDispatch s ctx w0)))
  else .next s

end Machine
end Sys2Proof
end

