-- ==== Sys2Proof/Machine/Sessions.lean ====
section
/-! DEFINITION. Reduction sessions: UPDACC and UPDCLOSE (R155, R237, R241), and the contributions on their way: arrival, the
reorder pool, refusals, and the session's completion (R238 to R241). -/

namespace Sys2Proof
namespace Machine

open Host

/-- Contributions that a stack's reorder pool holds (Table 9.1). -/
def poolSize : Nat := 16384

/-- The virtual address of grain `g` of a session's buffer. -/
def sessVa (x : Session) (g : Nat) : Nat := descBase x.buffer + 256 * g

/-- Contributions held in the reorder pool of a stack. -/
def poolUsed (s : State) (k : Nat) : Nat :=
  (s.upd.sessions.map fun e =>
    (e.2.pool.filter fun h => stackOfVa s e.2.ctx (sessVa e.2 h.1) == k).length).foldl (· + ·) 0

def setSession (s : State) (id : Nat) (x : Session) : State :=
  modUpd s fun u => { u with sessions := tput u.sessions id x }

/-- The grain of a session is poisoned (R241). -/
def markGrain (x : Session) (g : Nat) : Session := { x with poisonedGrains := insertAsc g x.poisonedGrains }

/-- Grains that the buffer cache of a stack holds (Table 9.1). -/
def cacheSize : Nat := 16384

/-- Grains held open in the buffer cache of a stack (R232). -/
def cacheUsed (s : State) (k : Nat) : Nat :=
  (s.upd.sessions.map fun e => (e.2.cached.filter fun g => stackOfVa s e.2.ctx (sessVa e.2 g) == k).length).foldl (· + ·) 0

/-- A grain enters the buffer cache at its first contribution, which reads it, while there is room (that one without room is read
and written at each add is the model's choice, log 133). -/
def cacheGrain (s : State) (x : Session) (g : Nat) : State × Session :=
  if cacheUsed s (stackOfVa s x.ctx (sessVa x g)) < cacheSize then
    (chargeTier s x.ctx 1 256, { x with cached := insertAsc g x.cached })
  else (s, x)

/-- A grain leaves the buffer cache, which writes it. -/
def uncacheGrain (s : State) (x : Session) (g : Nat) : State × Session :=
  if x.cached.contains g then (chargeTier s x.ctx 1 256, { x with cached := x.cached.filter fun k => k != g }) else (s, x)

/-- A grain of a buffer is poisoned where it lies. -/
def poisonGrain (s : State) (n va : Nat) : State :=
  match translate s n va true with
  | .error _ => s
  | .ok pa => putGrain s pa (grainAt s pa) { tagAt s pa with poison := true }

/-- `buf ← round(buf + c)` element by element (R238); poison goes with it. A grain that the buffer cache holds costs near memory
nothing here. -/
def addGrain (s : State) (n va : Nat) (cached : Bool) (data : List Byte) (poison : Bool) : State :=
  match translate s n va true with
  | .error _ => s
  | .ok pa =>
    if unitLost s pa then s
    else
      let s := if cached then s else chargeTier s n 1 512
      let emu := (getCtx s n).num.s5emu
      let (old, t, s) := readGrain s pa
      let sum := ((unpackBits 32 64 old).zip (unpackBits 32 64 data)).map fun p =>
        f32bits (uadd emu (decodeV emu 1 p.1 127) (decodeV emu 1 p.2 127))
      let bs := packBits 32 256 sum
      writeGrain s pa bs (mkTag bs 1 (getCtx s n).part (t.poison || poison))

/-- Whether a grain of a buffer reads poisoned. -/
def grainBad (s : State) (n va : Nat) : Bool :=
  match translate s n va false with
  | .error _ => true
  | .ok pa => unitLost s pa || (tagAt s pa).poison

/-- Adds a contribution in its turn, and those held for the tags that follow (R238). -/
def addInTurn (s : State) (id g : Nat) (data : List Byte) (poison : Bool) : Nat → State
  | 0 => s
  | fuel + 1 =>
    match tfind s.upd.sessions id with
    | none => s
    | some x =>
      let next := tget 0 x.next g
      let s := addGrain s x.ctx (sessVa x g) (x.cached.contains g) data poison
      let s := if poison then setLatch s x.ctx x.step else s
      let x := if poison || grainBad s x.ctx (sessVa x g) then markGrain x g else x
      let x := { x with next := tput x.next g (next + 1) }
      let (s, x) := if next + 1 = x.ntags then uncacheGrain s x g else (s, x)
      match x.pool.find? fun h => h.1 == g && h.2.1 == next + 1 with
      | none => setSession s id x
      | some h =>
        let x := { x with pool := x.pool.filter fun k => !(k.1 == g && k.2.1 == next + 1) }
        addInTurn (setSession s id x) id g h.2.2.1 h.2.2.2 fuel

/-- UPDCLOSEs whose core has no earlier contribution on its way count (R241). -/
def countCloses (s : State) (id : Nat) : State :=
  match tfind s.upd.sessions id with
  | none => s
  | some x =>
    let waits (e : Agent × Nat) : Bool :=
      match coreOf e.1 with
      | none => false
      | some c => s.upd.contribs.any fun k => k.2.sess == id && k.2.core == c && decide (k.2.order < e.2)
    let counted := x.closing.filter fun e => !waits e
    let s := setSession s id { x with closing := x.closing.filter waits, closes := x.closes + counted.length }
    if counted.isEmpty then s else queueFreed s

/-- A complete session that no contribution refers to is forgotten. -/
def forgetSession (s : State) (id : Nat) : State :=
  match tfind s.upd.sessions id with
  | none => s
  | some x =>
    if x.complete && !(s.upd.contribs.any fun e => e.2.sess == id) then modUpd s fun u => { u with sessions := tdel u.sessions id }
    else s

/-- A contribution leaves its slot with a code. -/
def endContrib (s : State) (id : Nat) (k : Contrib) (code : Nat) : State :=
  let s := modUpd s fun u => { u with contribs := tdel u.contribs id }
  let s := groupEnds s k.cg k.ctx code
  forgetSession (pumpSlots (countCloses s k.sess) k.core) k.sess

/-- A contribution that the engine accepts: a duplicate poisons its grain and sets the latch of the step (R242), one in turn is added,
one ahead is held (R238). -/
def acceptContrib (s : State) (k : Contrib) (x : Session) (poison : Bool) : State :=
  let next := tget 0 x.next k.grain
  let n := x.ctx
  let va := sessVa x k.grain
  let first := next == 0 && !x.pool.any fun h => h.1 == k.grain
  let (s, x) := if first then cacheGrain s x k.grain else (s, x)
  if k.tag < next || x.pool.any (fun h => h.1 == k.grain && h.2.1 == k.tag) then
    setLatch (poisonGrain (setSession s k.sess (markGrain x k.grain)) n va) n x.step
  else if k.tag = next then addInTurn (setSession s k.sess x) k.sess k.grain k.data poison (x.pool.length + 1)
  else
    let x := if poison then markGrain x k.grain else x
    setSession s k.sess { x with pool := x.pool ++ [(k.grain, k.tag, k.data, poison)] }

/-- CONTRIBUTION_ARRIVE (R237 to R239, R241): added, held, refused, or discarded after the session's completion. -/
def execContributionArrive (req : Nat) (corrupt : Bool) (s : State) : Outcome State Fault Refusal :=
  match tfind s.upd.contribs req with
  | none => .next s
  | some k =>
    match k.phase, tfind s.upd.sessions k.sess with
    | .inFlight, some x =>
      let s := if corrupt then checkFailed s (paOf s k.ctx k.va false) else s
      let poison := k.poison || corrupt
      if x.complete then .next (endContrib (setLatch s k.ctx x.step) req k rcPoisoned)
      else if k.tag != tget 0 x.next k.grain && poolSize ≤ poolUsed s (stackOfVa s k.ctx k.va) then
        .next (modUpd s fun u => { u with contribs := tput u.contribs req { k with phase := .refused (now s) } })
      else .next (endContrib (acceptContrib s k x poison) req k (if poison then rcPoisoned else rcOk))
    | _, _ => .next s

/-- CONTRIBUTION_RESEND (R239). -/
def execContributionResend (req : Nat) (s : State) : Outcome State Fault Refusal :=
  match tfind s.upd.contribs req with
  | none => .next s
  | some k =>
    match k.phase with
    | .refused _ => .next (modUpd s fun u => { u with contribs := tput u.contribs req { k with phase := .inFlight } })
    | _ => .next s

/-! ### UPDACC (R155, R237) -/

def rowUpdacc : Row :=
  { cls := 6, maj := 1, sub := always, regs := regs4 .none .d .d .s, cores := true, ctl := false, ext := false,
    legal := cgRequired }

/-- The grains of a tile: tile row, column of 64 elements, and the grain of the buffer (R155). -/
def accGrains (t : Tile) (b : Tensor) (base : Nat) : List (Nat × Nat × Nat) :=
  (List.range t.rows).flatMap fun i => (List.range (t.cols / 64)).map fun j => (i, j, (base + i * b.d0 + 64 * j) / 64)

/-- The checks of R85 and R237 on an UPDACC that its session has no part in: they hold for a buffer of no elements too (R257). -/
def accFieldsOk (t : Tile) (b : Tensor) (base : Nat) : Bool :=
  t.fmt == 1 && b.id != 0 && t.cols % 64 == 0 && base % 64 == 0

/-- The checks of R237 on an UPDACC of a session. -/
def accOk (t : Tile) (b : Tensor) (x : Session) (base tag : Nat) : Bool :=
  decide (tag < x.ntags) && (t.rows == 0 || t.cols == 0 || decide (base + (t.rows - 1) * b.d0 + t.cols ≤ b.elems))

/-- Whether a thread has contributions that wait for a slot. -/
def contribWait (s : State) (c t : Nat) : Bool :=
  s.upd.contribs.any fun e => e.2.core == c && e.2.thr == t && e.2.phase == .waitSlot

/-- The contributions of a tile enter the core's slots in order; the thread parks while some have none (R49). -/
def sendContribs (s : State) (c t n sess g tag : Nat) (x : Session) (tile : Tile) (gs : List (Nat × Nat × Nat)) : IRes :=
  let s := issueCg s (.thread c t) g gs.length
  let s := gs.foldl (fun s e =>
    let s := bump s
    let off := tile.base + e.1 * tile.pitch + 256 * e.2.1
    let k : Contrib :=
      { core := c, thr := t, ctx := n, sess := sess, va := sessVa x e.2.2, grain := e.2.2, tag := tag,
        data := spRead (getCore s c) off 256, poison := spPoisoned (getCore s c) off 256, cg := { agent := .thread c t, cg := g },
        order := s.serial, phase := .waitSlot }
    modUpd s fun u => { u with contribs := tput u.contribs u.nextContrib k, nextContrib := u.nextContrib + 1 }) s
  let s := pumpSlots s c
  if contribWait s c t then .park s 3 .slot else .done s

/-- The TENSOR_ID of a session's buffer, as its OPEN named it. -/
def sessTensor (x : Session) : Nat := fld (dw x.buffer 3) 63 48

/-- The first UPDACC of a session raises the open-reduction count of its buffer (R236, R152). -/
def countSession (s : State) (n id : Nat) (x : Session) : State :=
  if x.counted then s else modReductions (setSession s id { x with counted := true }) n (sessTensor x) true

/-- UPDACC (R155): a contribution of each grain that the tile covers goes to its session. -/
def execUpdacc (a : Agent) (w : Word) (s : State) : Outcome State Fault Refusal :=
  runInstr rowUpdacc a w (fun n s => onCore a fun c t => afterSlot a (fun s =>
    let v := sOf s a (iSrc3 w)
    let base := fld v 47 0
    let tag := fld v 63 48
    if (getCtx s n).dst.role = 1 then .fault fcProtection 0 false
    else match tileFor (getCtx s n).num.s5emu (getCore s c) (dOf s a (iSrc1 w)), tensorOf (dOf s a (iSrc2 w)) with
      | some tile, some b =>
        if !accFieldsOk tile b base then descFault
        else if b.elems = 0 then .done (emptyCg s a (some (bits (iImm w) 31 28)))
        else match sessionOn s n b.base with
        | none => descFault
        | some (id, x) =>
          let gs := accGrains tile b base
          if !accOk tile b x base tag then descFault
          else if gs.isEmpty then .done (emptyCg s a (some (bits (iImm w) 31 28)))
          else match firstFault s n true (gs.map fun e => sessVa x e.2.2) with
            | some (code, va) => .fault code va false
            | none =>
              if reshardOf s n b.id then .park s 5 (.layoutFence b.id)
              else if reshardOf s n (sessTensor x) then .park s 5 (.layoutFence (sessTensor x))
              else guarded s (guardSp s c t tile.runs []) fun s =>
                sendContribs (countSession s n id x) c t n id (bits (iImm w) 31 28) tag x tile gs
      | _, _ => descFault) s) s

/-! ### UPDCLOSE (R155, R241) -/

def rowUpdclose : Row :=
  { cls := 6, maj := 2, sub := always, regs := regs4 .none .d .s .none, cores := true, ctl := true, ext := false,
    legal := cgRequired }

/-- UPDCLOSE (R155, R241). On a buffer without a session it is a descriptor fault, as one of a differing step is (DESIGN CHOICE,
log 170). -/
def execUpdclose (a : Agent) (w : Word) (s : State) : Outcome State Fault Refusal :=
  runInstr rowUpdclose a w (fun n s =>
    let g := bits (iImm w) 31 28
    if (getCtx s n).dst.role = 1 then .fault fcProtection 0 false
    else match tensorOf (dOf s a (iSrc1 w)) with
      | none => descFault
      | some b =>
        if b.id = 0 then descFault
        else if b.elems = 0 then .done (emptyCg s a (some g))
        else match sessionOn s n b.base with
          | none => descFault
          | some (id, x) =>
            if x.step != (sOf s a (iSrc2 w)).toNat % 2 ^ 32 then descFault
            else if opQueueFull s (stackOfVa s n b.base) then .park s 3 (.updQueue (stackOfVa s n b.base))
            else
              let s := bump (issueCg s a g 1)
              .done (countCloses (setSession s id { x with
                closing := x.closing ++ [(a, s.serial)], closers := x.closers ++ [{ agent := a, cg := g }] }) id)) s

/-! ### SESSION_COMPLETE (R241) -/

/-- Grains that received a contribution. -/
def touchedGrains (x : Session) : List Nat :=
  let a := x.next.map Prod.fst ++ x.pool.map (fun h => h.1) ++ x.poisonedGrains
  a.foldl (fun l g => insertAsc g l) []

/-- The held contributions of a grain in ascending tag order. -/
def heldOf (x : Session) (g : Nat) : List (Nat × Nat × List Byte × Bool) :=
  (x.pool.filter fun h => h.1 == g).foldl (fun acc e =>
    (acc.takeWhile fun y => y.2.1 ≤ e.2.1) ++ e :: acc.dropWhile fun y => y.2.1 ≤ e.2.1) []

/-- What completion does to one grain; whether it is poisoned. -/
def closeGrain (s : State) (x : Session) (g : Nat) : Bool × State :=
  let held := heldOf x g
  let va := sessVa x g
  let s := held.foldl (fun s h => addGrain s x.ctx va (x.cached.contains g) h.2.2.1 h.2.2.2) s
  let s := (uncacheGrain s x g).1
  let bad := x.poisonedGrains.contains g || tget 0 x.next g + held.length < x.ntags || grainBad s x.ctx va
  (bad, if bad then poisonGrain s x.ctx va else s)

/-- Every grain of a session. -/
def closeGrains (s : State) (x : Session) : List Nat → Bool × State
  | [] => (false, s)
  | g :: gs =>
    let (b, s) := closeGrain s x g
    let (b', s) := closeGrains s x gs
    (b || b', s)

def execSessionComplete (sess : Nat) (s : State) : Outcome State Fault Refusal :=
  match tfind s.upd.sessions sess with
  | none => .next s
  | some x =>
    if x.complete || x.closes < x.contrib then .next s
    else
      let (bad, s) := closeGrains s x (touchedGrains x)
      let s := setSession s sess { x with complete := true, pool := [], cached := [], closing := [], closers := [] }
      let s := if bad then setLatch s x.ctx x.step else s
      let s := if x.counted then modReductions s x.ctx (sessTensor x) false else s
      let s := x.closers.foldl (fun s r => groupEnds s r x.ctx (if bad then rcPoisoned else rcOk)) s
      .next (forgetSession s sess)

end Machine
end Sys2Proof
end

