-- ==== Sys2Proof/Machine/Spdm.lean ====
section
/-! DEFINITION. The DOE mailbox: discovery and the SPDM responder of R448 to R450, and IDE_KM (R416). -/

namespace Sys2Proof
namespace Machine

open Host

def modSpdm (s : State) (f : Spdm → Spdm) : State := modSec s fun x => { x with spdm := f x.spdm }

/-! ### Error codes of SPDM 1.3 (log 19) -/

def erInvalid : Nat := 0x01
def erUnexpected : Nat := 0x04
def erDecrypt : Nat := 0x06
def erUnsupported : Nat := 0x07
def erSessions : Nat := 0x0A
def erLarge : Nat := 0x0F
def erNotReady : Nat := 0x42

def refuseSpdm (s : State) (code : Nat) : State := emit s (.spdmError code)

/-- A request reaches the responder: the link is up. -/
def onSpdm (s : State) (f : State → State) : Outcome State Fault Refusal := if hostUp s then .next (f s) else .next s

/-- A request that needs algorithms negotiated. -/
def negotiated (s : State) (k : Nat) (f : State → State) : State :=
  if s.sec.spdm.negotiated < k then refuseSpdm s erUnexpected else f s

/-- A request of secured sessions: in recovery there are none (R450). -/
def secured (s : State) (f : State → State) : State := if inRecovery s then refuseSpdm s erUnsupported else f s

/-- Whether the identity key is at hand (R450). -/
def hasIdentity (s : State) : Bool := s.pwr.idOk

/-- A response longer than one DOE object waits to be fetched in chunks (R448). -/
def sendLarge (s : State) (bs : List Byte) : State :=
  refuseSpdm (modSpdm s fun p => { p with largeResp := some bs, largeHandle := (p.largeHandle + 1) % 256, largeSeq := 0 }) erLarge

/-- A response signed with the identity key. -/
def sendSigned (s : State) (bs : List Byte) : State :=
  sendLarge { s with fresh := s.fresh + 1 } (bs ++ signAs s.sec.puf ctxId s.fresh bs)

/-! ### Discovery -/

/-- DOE_DISCOVERY (R448, R450): protocols 0 Discovery, 1 CMA/SPDM, 2 secured CMA/SPDM; past the last one, none. -/
def execDoeDiscovery (index : Nat) (s : State) : Outcome State Fault Refusal :=
  let n := if inRecovery s then 2 else 3
  onSpdm s fun s => emit s (if index < n then .doe index ((index + 1) % n) else .doe 0xFF 0)

/-! ### Requests -/

/-- GET_VERSION: version 1.3; negotiation begins again. -/
def execGetVersion (s : State) : Outcome State Fault Refusal :=
  onSpdm s fun s => emit (modSpdm s fun p => { p with negotiated := 1, keyed := false }) (.spdm 0x04 [0x13])

/-- The flags of CAPABILITIES (SPDM 1.3, log 19): certificates; challenge and signed measurements while the identity key is at hand,
measurements without it; encryption, authentication, key exchange, heartbeat and key update outside recovery; chunks. -/
def capFlags (s : State) : Nat :=
  2 ^ 1 + b2n (hasIdentity s) * 2 ^ 2 + (if hasIdentity s then 2 ^ 4 else 2 ^ 3) +
  (if inRecovery s then 0 else 2 ^ 6 + 2 ^ 7 + 2 ^ 9 + 2 ^ 13 + 2 ^ 14) + 2 ^ 17

def execGetCapabilities (s : State) : Outcome State Fault Refusal :=
  onSpdm s fun s => negotiated s 1 fun s =>
    emit (modSpdm s fun p => { p with negotiated := max 2 p.negotiated }) (.spdm 0x61 (leBytes 4 (capFlags s)))

/-- NEGOTIATE_ALGORITHMS: what is offered and supported is selected (Table 19.2). -/
def execNegotiateAlgorithms (extAsym hash dhe aead : Bool) (s : State) : Outcome State Fault Refusal :=
  onSpdm s fun s => negotiated s 2 fun s =>
    emit (modSpdm s fun p => { p with negotiated := if extAsym && hash then 3 else 2, keyed := dhe && aead })
      (.spdm 0x63 [BitVec.ofNat 8 (b2n extAsym + 2 * b2n hash + 4 * b2n dhe + 8 * b2n aead)])

/-- GET_DIGESTS: the digest of slot 0's chain. -/
def execGetDigests (s : State) : Outcome State Fault Refusal :=
  onSpdm s fun s => negotiated s 3 fun s => emit s (.spdm 0x01 (sha3512 Config.certChain))

/-- GET_CERTIFICATE: slot 0 only. -/
def execGetCertificate (slot offset length : Nat) (s : State) : Outcome State Fault Refusal :=
  onSpdm s fun s => negotiated s 3 fun s =>
    if slot != 0 then refuseSpdm s erInvalid else emit s (.spdm 0x02 (slice Config.certChain offset length))

/-- CHALLENGE (R450): the response names the chain and the requester's nonce, and is signed. -/
def execChallenge (slot : Nat) (nonce : List Byte) (s : State) : Outcome State Fault Refusal :=
  onSpdm s fun s =>
    if !hasIdentity s then refuseSpdm s erUnsupported
    else negotiated s 3 fun s =>
      if slot != 0 then refuseSpdm s erInvalid else sendSigned s (sha3512 Config.certChain ++ nonce)

/-- Whether a firmware activation or a change-record application is in progress (R449). -/
def changing (s : State) : Bool := s.sec.fwMode != 0 || s.sec.slots.any fun e => e.2.state == 3

/-- The answer to a measurement index: 0 the count, 0xFF every block. -/
def measurement (s : State) (index : Nat) : Option (List Byte) :=
  let n := blockCount s
  if index = 0 then some [BitVec.ofNat 8 n]
  else if index = 0xFF then some ((List.range n).flatMap fun k => measureBlock s (k + 1))
  else if index ≤ n then some (measureBlock s index) else none

/-- GET_MEASUREMENTS (R449, R450). -/
def execGetMeasurements (index : Nat) (signed : Bool) (nonce : List Byte) (s : State) : Outcome State Fault Refusal :=
  onSpdm s fun s =>
    if changing s then refuseSpdm s erNotReady
    else if signed && !hasIdentity s then refuseSpdm s erUnsupported
    else negotiated s 3 fun s =>
      match measurement s index with
      | none => refuseSpdm s erInvalid
      | some bs => if signed then sendSigned s (bs ++ nonce) else emit s (.spdm 0x60 bs)

/-! ### Secure sessions -/

/-- KEY_EXCHANGE: one session at a time (log 19). The keys are those that the requester's share and this module's give. -/
def execKeyExchange (slot : Nat) (k : KeyShare) (s : State) : Outcome State Fault Refusal :=
  onSpdm s fun s => secured s fun s => negotiated s 3 fun s =>
    if slot != 0 then refuseSpdm s erInvalid
    else if !s.sec.spdm.keyed then refuseSpdm s erUnexpected
    else if s.sec.spdm.session != 0 then refuseSpdm s erSessions
    else
      let n := s.fresh
      sendSigned (modSpdm { s with fresh := n + 1 } fun p => { p with session := 1, keys := Config.dheKeys n k.share })
        (sha3512 Config.certChain ++ k.nonce ++ Config.dheShare n)

/-- FINISH: its authentication code must be that of the session's keys. -/
def execFinish (mac : List Byte) (s : State) : Outcome State Fault Refusal :=
  onSpdm s fun s => secured s fun s =>
    if s.sec.spdm.session != 1 then refuseSpdm s erUnexpected
    else if mac == Config.finishMac s.sec.spdm.keys then emit (modSpdm s fun p => { p with session := 2 }) (.spdm 0x65 [])
    else refuseSpdm (modSpdm s fun p => { p with session := 0, keys := [] }) erDecrypt

/-- A request inside an established session. -/
def inSession (s : State) (f : State → State) : State :=
  secured s fun s => if s.sec.spdm.session != 2 then refuseSpdm s erUnexpected else f s

def execKeyUpdate (s : State) : Outcome State Fault Refusal :=
  onSpdm s fun s => inSession s fun s => emit (modSpdm s fun p => { p with keyGen := p.keyGen + 1 }) (.spdm 0x69 [])

def execHeartbeat (s : State) : Outcome State Fault Refusal := onSpdm s fun s => inSession s fun s => emit s (.spdm 0x68 [])

def execEndSession (s : State) : Outcome State Fault Refusal :=
  onSpdm s fun s => inSession s fun s => emit (modSpdm s fun p => { p with session := 0, keys := [] }) (.spdm 0x6C [])

/-! ### Chunks -/

/-- What NEGOTIATE_ALGORITHMS offers: an extended asymmetric algorithm, TPM_ALG_SHA3_512, secp384r1, AES-256-GCM (SPDM 1.3, log 19). -/
def offered (bs : List Byte) : Instr :=
  let n (i : Nat) : Nat := (bs.getD i 0).toNat
  let from_ := 32 + 4 * (n 28 + n 29)
  let has (kind k : Nat) : Bool := (List.range (n 2)).any fun i => n (from_ + 4 * i) == kind && bit (leNat (slice bs (from_ + 4 * i + 2) 2)) k
  .negotiateAlgorithms (decide (0 < n 28)) (bit (n 12) 5) (has 2 4) (has 3 1)

/-- The request that the bytes of a message are: version, code and two parameters, then what the code has (SPDM 1.3, log 19). -/
def requestOf (bs : List Byte) : Instr :=
  let n (i : Nat) : Nat := (bs.getD i 0).toNat
  match n 1 with
  | 0x81 => .getDigests
  | 0x82 => .getCertificate (n 2 % 16) (leNat (slice bs 4 2)) (leNat (slice bs 6 2))
  | 0x83 => .challenge (n 2 % 16) (fit 32 (slice bs 4 32))
  | 0x84 => .getVersion
  | 0xE0 => .getMeasurements (n 3) (bit (n 2) 0) (fit 32 (slice bs 4 32))
  | 0xE1 => .getCapabilities
  | 0xE3 => offered bs
  | 0xE4 => .keyExchange (n 3 % 16) { nonce := fit 32 (slice bs 8 32), share := fit 96 (slice bs 40 96) }
  | 0xE5 => .finish (bs.drop 4)
  | 0xE8 => .heartbeat
  | 0xE9 => .keyUpdate
  | 0xEC => .endSession
  | c => .unsupportedRequest c

/-- What the responder does with a request; vendor-defined ones and chunks fit one DOE object, and a chunked one is refused (log 19). -/
def runRequest (c : Instr) (s : State) : State :=
  let o := match c with
    | .getDigests => execGetDigests s
    | .getCertificate slot off len => execGetCertificate slot off len s
    | .challenge slot nonce => execChallenge slot nonce s
    | .getVersion => execGetVersion s
    | .getMeasurements index signed nonce => execGetMeasurements index signed nonce s
    | .getCapabilities => execGetCapabilities s
    | .negotiateAlgorithms a h d e => execNegotiateAlgorithms a h d e s
    | .keyExchange slot k => execKeyExchange slot k s
    | .finish mac => execFinish mac s
    | .heartbeat => execHeartbeat s
    | .keyUpdate => execKeyUpdate s
    | .endSession => execEndSession s
    | _ => .next (refuseSpdm s erUnsupported)
  match o with
  | .next t => t
  | _ => s

/-- CHUNK_SEND: chunks of one large request come in order; each is acknowledged, and after the last the request is carried out. -/
def execChunkSend (handle seq : Nat) (last : Bool) (data : List Byte) (s : State) : Outcome State Fault Refusal :=
  onSpdm s fun s =>
    let p := s.sec.spdm
    if seq != 0 && (handle != p.chunkHandle || seq != p.chunkSeq) then refuseSpdm s erInvalid
    else
      let buf := if seq = 0 then data else p.chunkBuf ++ data
      let s := emit (modSpdm s fun p => { p with
        chunkHandle := handle, chunkSeq := if last then 0 else seq + 1, chunkBuf := if last then [] else buf }) (.spdm 0x05 [])
      if last then runRequest (requestOf buf) s else s

/-- CHUNK_GET: the next chunk of the large response. -/
def execChunkGet (handle seq : Nat) (s : State) : Outcome State Fault Refusal :=
  onSpdm s fun s =>
    let p := s.sec.spdm
    match p.largeResp with
    | none => refuseSpdm s erUnexpected
    | some bs =>
      if handle != p.largeHandle || seq != p.largeSeq then refuseSpdm s erInvalid
      else
        let n := Config.chunkBytes + 1
        let left := bs.drop n
        emit (modSpdm s fun p => { p with
          largeResp := if left.isEmpty then none else some left, largeSeq := p.largeSeq + 1 }) (.spdm 0x06 (bs.take n))

/-! ### Vendor-defined requests -/

/-- IDE_KM (R416): in a session, keys are programmed and the streams are active, CXL.cachemem in the mode that the host selects; or
keys are refreshed. -/
def execIdeKm (k : IdeKm) (s : State) : Outcome State Fault Refusal :=
  onSpdm s fun s => inSession s fun s =>
    let s := modSpdm s fun p => { p with idePrograms := p.idePrograms + 1 }
    match k with
    | .program mode => emit (modHost s fun h => { h with ideIo := true, ideCm := mode }) (.spdm 0x7E [])
    | .refresh => emit s (.spdm 0x7E [])

/-- RECOVERY_INFO (R450). -/
def execRecoveryInfo (s : State) : Outcome State Fault Refusal :=
  onSpdm s fun s => if inRecovery s then emit s (.spdm 0x7E (recoveryBytes s)) else refuseSpdm s erUnsupported

/-- UNSUPPORTED_REQUEST (R448). -/
def execUnsupportedRequest (_code : Nat) (s : State) : Outcome State Fault Refusal :=
  onSpdm s fun s => refuseSpdm s erUnsupported

end Machine
end Sys2Proof
end

