-- ==== Sys2Proof/Machine/Vector.lean ====
section
/-! DEFINITION. The vector engine: element-wise functions (R121 to R123, R180), conversion (R124, R178, R179), reductions (R125, R126),
compares (R127) and Pepper draws (R128). -/

namespace Sys2Proof
namespace Machine

open Host

/-! ### Element-wise functions (Table 5.7) -/

/-- Functions of A alone. -/
def unaryFn (fn : Nat) : Bool := (decide (6 ≤ fn) && decide (fn ≤ 0xE)) || fn == 0x13
/-- VFMA and VSEL. -/
def usesC (fn : Nat) : Bool := fn == 3 || fn == 0xF
/-- Functions that have an integer form (R122). -/
def intFn (fn : Nat) : Bool := fn == 0 || fn == 1 || fn == 2 || (decide (4 ≤ fn) && decide (fn ≤ 7))

/-- A float function, before its rounding to FP32. -/
def floatFn (fn : Nat) (a b c : FVal) : FVal :=
  match fn with
  | 0x0 => a.add b
  | 0x1 => a.add b.negate
  | 0x2 => a.mul b
  | 0x3 => (a.mul b).add c
  | 0x4 => FVal.max a b
  | 0x5 => FVal.min a b
  | 0x6 => a.abs
  | 0x7 => a.negate
  | 0x8 => fone.div a
  | 0x9 => a.sqrt
  | 0xA => a.rsqrt
  | 0xB => a.exp
  | 0xC => a.log
  | 0xD => a.tanh
  | _ => a.sig

/-- An integer function, exactly. -/
def intFnOf (fn : Nat) (a b : Int) : Int :=
  match fn with
  | 0 => a + b
  | 1 => a - b
  | 2 => a * b
  | 4 => max a b
  | 5 => min a b
  | 6 => (a.natAbs : Int)
  | _ => -a

/-- A bitwise function on patterns of `w` bits; `logical` for untyped bytes. -/
def bitFn (fn w : Nat) (logical : Bool) (a b : Nat) : Nat :=
  let k := b % w
  match fn with
  | 0x10 => a &&& b
  | 0x11 => (a ||| b) % 2 ^ w
  | 0x12 => (a ^^^ b) % 2 ^ w
  | 0x13 => 2 ^ w - 1 - a
  | 0x14 => (a <<< k) % 2 ^ w
  | _ => if logical then a >>> k else ((sext w a >>> k) % (2 ^ w : Int)).toNat

/-- The tiles of an element-wise function; none where the operand is a scalar or unused. -/
structure VTiles where
  a : Tile
  b : Option Tile
  c : Option Tile
  deriving DecidableEq, Repr

/-- Input tiles in order. -/
def VTiles.list (t : VTiles) : List Tile := t.a :: (t.b.toList ++ t.c.toList)

/-- What an element-wise instruction is: FN, BC, the scalar of BC 0b11, the output format, and the mode of the context. -/
structure VArgs where
  fn : Nat
  bc : Nat
  scalar : Nat
  fmt : Nat
  emu : Bool
  deriving DecidableEq, Repr

/-- Whether the function runs in integers: it has that form, and every tile is an integer one. -/
def VArgs.ints (q : VArgs) (t : VTiles) : Bool := intFn q.fn && isIntF q.fmt && t.list.all fun u => isIntF u.fmt

/-- B's element that meets (i, j), if B is a tile. -/
def VTiles.bElem (x : Core) (q : VArgs) (t : VTiles) (i j : Nat) : Option (Nat × Elem) :=
  t.b.map fun u => (u.fmt, bcElem x u q.bc i j)

/-- B's value, widened: a tile's element, or the FP32 scalar; and whether widening overflowed. -/
def bWide (q : VArgs) (b : Option (Nat × Elem)) : FVal × Bool :=
  match b with
  | some (f, e) => (widen q.emu f e.raw e.scale, widenOver f e.raw e.scale)
  | none => (decodeV q.emu 1 (q.scalar % 2 ^ 32) 0, false)

/-- VSEL of one side: an FP32 pattern is copied to an FP32 output, another value widened (R180). -/
def selVal (q : VArgs) (f raw : Nat) (v : FVal) : OutVal := if f = 1 && q.fmt = 1 && !q.emu then .copy raw else .val v

/-- Element (i, j) of a float function. -/
def vfnFloat (x : Core) (q : VArgs) (t : VTiles) (i j : Nat) : OutVal × Bool :=
  let ea := t.a.elem x i j
  let a := widen q.emu t.a.fmt ea.raw ea.scale
  let oa := widenOver t.a.fmt ea.raw ea.scale
  let eb := t.bElem x q i j
  let b := if unaryFn q.fn then (FVal.zero, false) else bWide q eb
  match q.fn, t.c with
  | 0xF, some u =>
    let bf := match eb with | some (f, e) => (f, e.raw) | none => (1, q.scalar % 2 ^ 32)
    (if (u.elem x i j).raw != 0 then selVal q t.a.fmt ea.raw a else selVal q bf.1 bf.2 b.1, oa || b.2)
  | _, some u =>
    let ec := u.elem x i j
    let c := widen q.emu u.fmt ec.raw ec.scale
    let r := flagged32 q.emu (floatFn q.fn a b.1 c) [a, b.1, c]
    (.val r.1, r.2 || oa || b.2 || widenOver u.fmt ec.raw ec.scale)
  | _, none =>
    let r := flagged32 q.emu (floatFn q.fn a b.1 .zero) (if unaryFn q.fn then [a] else [a, b.1])
    (.val r.1, r.2 || oa || b.2)

/-- Element (i, j) of an integer function. -/
def vfnInt (x : Core) (q : VArgs) (t : VTiles) (i j : Nat) : OutVal × Bool :=
  let a := decodeI t.a.fmt (t.a.elem x i j).raw
  let b := match t.bElem x q i j with
    | some (f, e) => decodeI f e.raw
    | none => decodeI 0xB q.scalar
  let r1 := satInt 0xB (intFnOf q.fn a b)
  let r2 := satInt q.fmt r1.1
  (.copy (intBits q.fmt r2.1), r1.2 || r2.2)

/-- Element (i, j) of a bitwise function. -/
def vfnBit (x : Core) (q : VArgs) (t : VTiles) (i j : Nat) : OutVal × Bool :=
  let b := match t.bElem x q i j with
    | some (_, e) => e.raw
    | none => q.scalar % 2 ^ 32
  (.copy (bitFn q.fn (elemBits q.fmt) (q.fmt == 0) (t.a.elem x i j).raw b), false)

/-- Whether an input that element (i, j) reads is poisoned. -/
def vfnPoison (x : Core) (q : VArgs) (t : VTiles) (i j : Nat) : Bool :=
  (t.a.elem x i j).poison || (match t.bElem x q i j with | some (_, e) => e.poison | none => false) ||
  (match t.c with | some u => (u.elem x i j).poison | none => false)

/-- Element (i, j) of an element-wise function. -/
def vfnElem (x : Core) (q : VArgs) (t : VTiles) (i j : Nat) : Computed :=
  let r := if 0x10 ≤ q.fn then vfnBit x q t i j else if q.ints t then vfnInt x q t i j else vfnFloat x q t i j
  { v := r.1, poison := vfnPoison x q t i j, flag := r.2 }

def rowVfn : Row :=
  { cls := 1, maj := 0, sub := always,
    regs := fun w =>
      let fn := bits (iImm w) 31 26
      { dst := .d, src1 := .d, src2 := if unaryFn fn then .none else if bits (iImm w) 21 20 = 3 then .s else .d,
        src3 := if usesC fn then .d else if bits (iImm w) 25 23 = 5 then .s else .none },
    cores := true, ctl := false, ext := false,
    legal := fun w =>
      let m := iImm w
      let fn := bits m 31 26
      decide (fn ≤ 0x15) && decide (bits m 25 23 ≤ 5) && bits m 15 0 == 0 && (bit m 19 || bits m 18 16 == 0) &&
      (!unaryFn fn || bits m 21 20 == 0) && (if usesC fn then bits m 25 23 != 5 else keyOk (bits m 25 23 == 5) w) }

/-- The checks of R121 and R122 on the shapes and formats. That a condition tile of VSEL in another format than Table 5.7 admits
is a descriptor fault is the model's choice (log 131). -/
def vfnOk (q : VArgs) (t : VTiles) (o : Tile) : Bool :=
  t.a.rows == o.rows && t.a.cols == o.cols &&
  (match t.c with | none => true | some u => u.rows == o.rows && u.cols == o.cols && (q.fn != 0xF || u.fmt == 9 || u.fmt == 0)) &&
  (match t.b with | none => true | some u => (u.rows, u.cols) == bcShape q.bc o.rows o.cols) &&
  (if 0x10 ≤ q.fn then (isIntF o.fmt || o.fmt == 0) && t.list.all fun u => u.fmt == o.fmt else o.fmt != 0 && o.fmt != 0xC) &&
  outClear o t.list

/-- Runs of a list of tiles. -/
def tileRuns (l : List Tile) : List (Nat × Nat) := l.flatMap Tile.runs

/-- An output tile of an instruction of a core, with the predicate of R104. -/
def putTile (s : State) (c : Nat) (q : RndCfg) (o : Tile) (present : Nat → Nat → Option Nat) (rows : List (List Computed)) :
    State × Bool :=
  let r := outputTile (getCore s c) q o present rows
  (setCore s c r.1, r.2)

def execVfn (a : Agent) (w : Word) (s : State) : Outcome State Fault Refusal :=
  runInstr rowVfn a w (fun n s => onCore a fun c thr =>
    let x := getCore s c
    let m := iImm w
    let fn := bits m 31 26
    let emu := (getCtx s n).num.s5emu
    let tb := if unaryFn fn || bits m 21 20 == 3 then some none else (tileFor emu x (dOf s a (iSrc2 w))).map some
    let tc := if usesC fn then (tileFor emu x (dOf s a (iSrc3 w))).map some else some none
    if !rndOk emu (bits m 25 23) then .fault fcIllegal 0 false
    else match tileFor emu x (dOf s a (iDst w)), tileFor emu x (dOf s a (iSrc1 w)), tb, tc with
      | some o, some ta, some tb, some tc =>
        let q : VArgs := { fn := fn, bc := bits m 21 20, scalar := (sOf s a (iSrc2 w)).toNat, fmt := o.fmt, emu := emu }
        let t : VTiles := { a := ta, b := tb, c := tc }
        if !vfnOk q t o then descFault
        else if o.rows = 0 || o.cols = 0 then doneEpe s a (bit m 19) (bits m 18 16) false
        else guarded s (guardSp s c thr (tileRuns t.list) o.runs) fun s =>
          let r := putTile s c (rndCfg s a n c w (bits m 25 23) (bit m 22)) o (fun _ _ => none)
            (gridOf o.rows o.cols (vfnElem (getCore s c) q t))
          doneEpe r.1 a (bit m 19) (bits m 18 16) r.2
      | _, _, _, _ => descFault) s

/-! ### Conversion (R124) -/

def rowCvt : Row :=
  { cls := 1, maj := 1, sub := always,
    regs := fun w => { dst := .d, src1 := .d, src2 := .none, src3 := if bits (iImm w) 23 21 = 5 then .s else .none },
    cores := true, ctl := false, ext := false,
    legal := fun w =>
      let m := iImm w
      decide (bits m 31 28 ≤ 0xC) && decide (bits m 27 24 ≤ 0xC) && decide (bits m 23 21 ≤ 5) && bits m 13 0 == 0 &&
      (bit m 19 || bits m 18 16 == 0) && (if isBlockF (bits m 31 28) then decide (bits m 15 14 ≤ 1) else bits m 15 14 == 0) &&
      keyOk (bits m 23 21 == 5) w }

/-- The scale present for a block of the output tile, under SCALEMODE 0b01. -/
def presentScale (x : Core) (o : Tile) (use : Bool) (r b : Nat) : Option Nat :=
  if use then some (readByte x.sp (o.scaleOff r (32 * b))).toNat else none

/-- Element (i, j) of a conversion between two formats; a present scale of the output is an input too. A value of a block format that
FP32 does not hold becomes infinity (R172), also with SATOUT 1 or RND toward zero (DEDUCED, log 163). -/
def cvtElem (emu : Bool) (x : Core) (t o : Tile) (use : Bool) (i j : Nat) : Computed :=
  let e := t.elem x i j
  { v := .val (if o.fmt = 1 && isBlockF t.fmt then widen emu t.fmt e.raw e.scale else e.val emu t.fmt), poison := e.poison || (use && spPoisoned x (o.scaleOff i j) 1),
    flag := o.fmt == 1 && widenOver t.fmt e.raw e.scale }

/-- A conversion to the same format: the bits and the scales as they are. -/
def cvtCopy (x : Core) (t o : Tile) : Core × Bool :=
  let rows := gridOf t.rows t.cols fun i j => let e := t.elem x i j; ({ raw := e.raw, poison := e.poison } : OutElem)
  let scs := gridOf t.rows (t.cols / 32) fun i b => (t.elem x i (32 * b)).scale
  (writeTile x o rows scs, rows.any fun r => r.any fun e => e.poison)

/-- CVT (R124). That tiles of different shapes are a descriptor fault is the model's choice (log 131): neither R124 nor Table 5.12
gives an outcome. -/
def execCvt (a : Agent) (w : Word) (s : State) : Outcome State Fault Refusal :=
  runInstr rowCvt a w (fun n s => onCore a fun c t =>
    let x := getCore s c
    let m := iImm w
    let emu := (getCtx s n).num.s5emu
    let df := bits m 31 28
    let sf := bits m 27 24
    let use := bits m 15 14 == 1 && df != sf
    if !rndOk emu (bits m 23 21) then .fault fcIllegal 0 false
    else match tileFor emu x (dOf s a (iDst w)), tileFor emu x (dOf s a (iSrc1 w)) with
      | some o, some ta =>
        if df == 0 || df == 0xC || sf == 0 || sf == 0xC || o.fmt != df || ta.fmt != sf || ta.rows != o.rows || ta.cols != o.cols ||
            !outClear o [ta] then descFault
        else if o.rows = 0 || o.cols = 0 then doneEpe s a (bit m 19) (bits m 18 16) false
        else guarded s (guardSp s c t (ta.runs ++ (if use then o.runs else [])) o.runs) fun s =>
          let x := getCore s c
          let r := if df = sf then let p := cvtCopy x ta o; (setCore s c p.1, p.2)
            else putTile s c (rndCfg s a n c w (bits m 23 21) (bit m 20)) o (presentScale x o use)
              (gridOf o.rows o.cols (cvtElem emu x ta o use))
          doneEpe r.1 a (bit m 19) (bits m 18 16) r.2
      | _, _ => descFault) s

/-! ### Reductions (R125) -/

/-- Combines values in list order. -/
def foldOpt {α : Type} (comb : α → α → α) : List α → Option α
  | [] => none
  | v :: vs => some (vs.foldl comb v)

/-- Combines two values that may be empty. -/
def combOpt {α : Type} (comb : α → α → α) : Option α → Option α → Option α
  | none, b => b
  | a, none => a
  | some a, some b => some (comb a b)

/-- One level of the binary tree: lane 2i with lane 2i + 1. -/
def treeLevel {α : Type} (comb : α → α → α) : List (Option α) → List (Option α)
  | a :: b :: t => combOpt comb a b :: treeLevel comb t
  | l => l

/-- Combines the elements of lanes: 128 lanes and a binary tree, or in S5 emulation mode 64 lanes in ascending order. -/
def reduceLanes {α : Type} (emu : Bool) (comb : α → α → α) (cells : List (Nat × α)) : Option α :=
  let lanes := if emu then 64 else 128
  let vals := (List.range lanes).map fun l => foldOpt comb ((cells.filter fun e => e.1 % lanes == l).map fun e => e.2)
  if emu then vals.foldl (combOpt comb) none
  else
    let f := treeLevel comb
    match f (f (f (f (f (f (f vals)))))) with
    | v :: _ => v
    | [] => none

/-- Reduces a tile's items along rows, along columns, or whole. -/
def reduceDir {α : Type} (emu : Bool) (comb : α → α → α) (rows cols dir : Nat) (item : Nat → Nat → α) : List (List (Option α)) :=
  match dir with
  | 0 => (List.range rows).map fun r => [reduceLanes emu comb ((List.range cols).map fun c => (c, item r c))]
  | 1 => [(List.range cols).map fun c => foldOpt comb ((List.range rows).map fun r => item r c)]
  | _ => [[reduceLanes emu comb ((List.range rows).flatMap fun r => (List.range cols).map fun c => (c, item r c))]]

/-- Encodes the results of a reduction: bits and flag. -/
def encodeRed {α : Type} (enc : α → Nat × Bool) (l : List (List (Option α))) : List (List (Nat × Bool)) :=
  l.map fun r => r.map fun v => match v with | none => (0, false) | some a => enc a

/-- A float combination with its flag. -/
def flagComb (emu : Bool) (f : FVal → FVal → FVal) (a b : FVal × Bool) : FVal × Bool :=
  let r := flagged32 emu (f a.1 b.1) [a.1, b.1]
  (r.1, r.2 || a.2 || b.2)

/-- A widened element with its flag. -/
def redItem (emu : Bool) (x : Core) (t : Tile) (r c : Nat) : FVal × Bool :=
  let e := t.elem x r c
  (widen emu t.fmt e.raw e.scale, widenOver t.fmt e.raw e.scale)

/-- Whether `a` counts above `b` for ARGMAX: a NaN counts above every number. -/
def argAbove (a b : FVal) : Bool :=
  match FVal.cmp a b with
  | some c => decide (0 < c)
  | none => a.isNan && !b.isNan

/-- The larger of two (value, index) pairs, the lower index of equal ones. -/
def argComb (a b : FVal × Nat) : FVal × Nat :=
  if argAbove b.1 a.1 || (!argAbove a.1 b.1 && decide (b.2 < a.2)) then b else a

/-- Set bits of a pattern. -/
def popCount (w v : Nat) : Nat := ((List.range w).filter fun i => bit v i).length

/-- Whether an element compares unequal to zero. -/
def nonZeroElem (emu : Bool) (f : Nat) (e : Elem) : Bool :=
  match e.val emu f with
  | .fin _ m _ => m != 0
  | _ => true

/-- The results of a reduction of widened elements whose combination sets no flag itself: bits, and whether an element that the
result combines widened to an infinity (R172). -/
def reduceFlagged {α : Type} (emu : Bool) (x : Core) (t : Tile) (dir : Nat) (enc : α → Nat) (comb : α → α → α)
    (item : Nat → Nat → α) : List (List (Nat × Bool)) :=
  encodeRed (fun v => (enc v.1, v.2)) (reduceDir emu (fun a b : α × Bool => (comb a.1 b.1, a.2 || b.2)) t.rows t.cols dir
    fun r c => (item r c, (redItem emu x t r c).2))

/-- The results of a reduction: bits and flag (Table 5.10). -/
def reduceTile (emu : Bool) (x : Core) (t : Tile) (op dir : Nat) : List (List (Nat × Bool)) :=
  let raw (r c : Nat) : Nat := (t.elem x r c).raw
  let fl (comb : FVal → FVal → FVal) (item : Nat → Nat → FVal × Bool) : List (List (Nat × Bool)) :=
    encodeRed (fun v => (f32bits v.1, v.2)) (reduceDir emu (flagComb emu comb) t.rows t.cols dir item)
  let nat (comb : Nat → Nat → Nat) (item : Nat → Nat → Nat) : List (List (Nat × Bool)) :=
    encodeRed (fun v => (v, false)) (reduceDir emu comb t.rows t.cols dir item)
  match op with
  | 0x0 =>
    if isIntF t.fmt then
      encodeRed (fun v => (intBits 0xB v.1, v.2)) (reduceDir emu
        (fun a b : Int × Bool => let r := satInt 0xB (a.1 + b.1); (r.1, r.2 || a.2 || b.2)) t.rows t.cols dir
        fun r c => (decodeI t.fmt (raw r c), false))
    else fl FVal.add (redItem emu x t)
  | 0x1 => fl FVal.add fun r c =>
      let v := redItem emu x t r c
      let q := flagged32 emu (v.1.mul v.1) [v.1]
      (q.1, q.2 || v.2)
  | 0x2 => fl FVal.max (redItem emu x t)
  | 0x3 => fl FVal.min (redItem emu x t)
  | 0x4 => fl FVal.max fun r c => let v := redItem emu x t r c; (v.1.abs, v.2)
  | 0x5 => reduceFlagged emu x t dir (fun v => v.2 % 2 ^ 32) argComb fun r c =>
      ((redItem emu x t r c).1, if dir = 0 then c else if dir = 1 then r else r * t.cols + c)
  | 0x6 => reduceFlagged emu x t dir id max fun r c => b2n (nonZeroElem emu t.fmt (t.elem x r c))
  | 0x7 => reduceFlagged emu x t dir id min fun r c => b2n (nonZeroElem emu t.fmt (t.elem x r c))
  | 0x8 => nat (fun a b => a &&& b) raw
  | 0x9 => nat (fun a b => a ||| b) raw
  | 0xA => nat (fun a b => a ^^^ b) raw
  | _ => nat (fun a b => a + b) fun r c => popCount (elemBits t.fmt) (raw r c)

/-- Whether an input of each result is poisoned. -/
def reducePoison (x : Core) (t : Tile) (dir : Nat) : List (List Bool) :=
  (reduceDir false or t.rows t.cols dir fun r c => (t.elem x r c).poison).map fun r => r.map fun v => v.getD false

/-- The output format of a reduction (Table 5.10). -/
def redFmt (op f : Nat) : Nat :=
  match op with
  | 0x0 => if isIntF f then 0xB else 1
  | 0x5 => 0xB
  | 0x6 => 9
  | 0x7 => 9
  | 0x8 => f
  | 0x9 => f
  | 0xA => f
  | 0xB => 0xB
  | _ => 1

/-- The summary KIND of a reduction (Tables 4.13, 5.10). -/
def redKind (op : Nat) : Option Nat :=
  match op with
  | 0x0 => some 1
  | 0x1 => some 1
  | 0x2 => some 2
  | 0x3 => some 3
  | 0x4 => some 2
  | 0x6 => some 5
  | 0x7 => some 6
  | 0x9 => some 7
  | 0xB => some 4
  | _ => none

def rowVred : Row :=
  { cls := 1, maj := 2, sub := always,
    regs := fun w => { dst := if bit (iImm w) 19 then .none else .d, src1 := .d, src2 := .none, src3 := .none },
    cores := true, ctl := false, ext := false,
    legal := fun w =>
      let m := iImm w
      decide (bits m 31 28 ≤ 0xB) && bits m 27 26 != 3 && bits m 14 0 == 0 && (bit m 18 || bits m 17 15 == 0) &&
      (!bit m 19 || bit m 25) && (!bit m 25 || (bits m 27 26 == 2 && (redKind (bits m 31 28)).isSome)) }

/-- The shape of a reduction's output (R125). -/
def redShape (dir rows cols : Nat) : Nat × Nat := if dir = 0 then (rows, 1) else if dir = 1 then (1, cols) else (1, 1)

/-- Sends the contribution of a reduction (R126). -/
def redSummary (s : State) (c : Nat) (m : Nat) (poison : Bool) (value : Nat) : State :=
  match redKind (bits m 31 28) with
  | none => s
  | some k => sendSummary s c
      { source := 0, kind := k, round := bits m 20 20, tag := bits m 24 21, poison := poison, value := w64 value }

/-- VRED on checked operands. -/
def vredRun (s : State) (c : Nat) (emu : Bool) (m : Nat) (ta : Tile) (o : Option Tile) : State × Bool :=
  let x := getCore s c
  let op := bits m 31 28
  let res := reduceTile emu x ta op (bits m 27 26)
  let bad := ta.poison x
  let flag := bad || res.any fun r => r.any fun e => e.2
  let s := match o with
    | none => s
    | some o => setCore s c (writeTile x o ((res.zip (reducePoison x ta (bits m 27 26))).map fun p =>
        (p.1.zip p.2).map fun e => { raw := e.1.1, poison := e.2 }) [])
  if bit m 25 then
    let v := ((res.headD []).headD (0, false)).1
    (redSummary s c m bad (if op = 0 && isIntF ta.fmt then f32bits (.ofInt (decodeI 0xB v)) else v), flag)
  else (s, flag)

def execVred (a : Agent) (w : Word) (s : State) : Outcome State Fault Refusal :=
  runInstr rowVred a w (fun n s => onCore a fun c t =>
    let x := getCore s c
    let m := iImm w
    let op := bits m 31 28
    let emu := (getCtx s n).num.s5emu
    let o := if bit m 19 then some none else (tileFor emu x (dOf s a (iDst w))).map some
    if bit m 25 && x.sumCredit == 0 then .park s 2 .sumCredit
    else match tileFor emu x (dOf s a (iSrc1 w)), o with
      | some ta, some o =>
        let oOk := match o with
          | none => true
          | some o => o.fmt == redFmt op ta.fmt && (o.rows, o.cols) == redShape (bits m 27 26) ta.rows ta.cols && outClear o [ta]
        if !oOk || ((op == 8 || op == 9 || op == 0xA) && !(isIntF ta.fmt || ta.fmt == 0)) then descFault
        else if ta.rows = 0 || ta.cols = 0 then
          doneEpe (if bit m 25 then redSummary s c m false (emptySummary ((redKind op).getD 0)) else s) a (bit m 18)
            (bits m 17 15) false
        else guarded s (guardSp s c t ta.runs (match o with | none => [] | some o => o.runs)) fun s =>
          let r := vredRun s c emu m ta o
          doneEpe r.1 a (bit m 18) (bits m 17 15) r.2
      | _, _ => descFault) s

/-! ### Compare (R127) -/

def rowVcmp : Row :=
  { cls := 1, maj := 3, sub := always,
    regs := fun w => { dst := .d, src1 := .d, src2 := if bits (iImm w) 28 27 = 3 then .s else .d, src3 := .none },
    cores := true, ctl := false, ext := false,
    legal := fun w =>
      let m := iImm w
      bits m 31 29 != 7 && bits m 22 0 == 0 && (bit m 26 || bits m 25 23 == 0) }

/-- A condition on two values. -/
def condHolds (cc : Nat) (a b : FVal) : Bool :=
  match FVal.cmp a b with
  | none => cc == 1 || cc == 6
  | some k =>
    match cc with
    | 0 => k == 0
    | 1 => k != 0
    | 2 => decide (k < 0)
    | 3 => decide (k ≤ 0)
    | 4 => decide (0 < k)
    | 5 => decide (0 ≤ k)
    | _ => false

/-- Mask element (i, j) of a compare. -/
def vcmpElem (emu : Bool) (x : Core) (cc bc scalar : Nat) (ta : Tile) (tb : Option Tile) (i j : Nat) : OutElem :=
  let ea := ta.elem x i j
  let ints := isIntF ta.fmt && (match tb with | none => true | some u => isIntF u.fmt)
  let val (f : Nat) (e : Elem) : FVal := if ints then .ofInt (decodeI f e.raw) else widen emu f e.raw e.scale
  let b := match tb with
    | some u => let e := bcElem x u bc i j; (val u.fmt e, e.poison)
    | none => (if ints then .ofInt (decodeI 0xB scalar) else decodeV emu 1 (scalar % 2 ^ 32) 0, false)
  { raw := b2n (condHolds cc (val ta.fmt ea) b.1), poison := ea.poison || b.2 }

def execVcmp (a : Agent) (w : Word) (s : State) : Outcome State Fault Refusal :=
  runInstr rowVcmp a w (fun n s => onCore a fun c t =>
    let x := getCore s c
    let m := iImm w
    let emu := (getCtx s n).num.s5emu
    let bc := bits m 28 27
    let tb := if bc = 3 then some none else (tileFor emu x (dOf s a (iSrc2 w))).map some
    match tileFor emu x (dOf s a (iDst w)), tileFor emu x (dOf s a (iSrc1 w)), tb with
    | some o, some ta, some tb =>
      let ins := ta :: tb.toList
      let bOk := match tb with | none => true | some u => (u.rows, u.cols) == bcShape bc o.rows o.cols
      if ta.rows != o.rows || ta.cols != o.cols || !bOk || !(o.fmt == 9 || o.fmt == 0) || !outClear o ins then descFault
      else if o.rows = 0 || o.cols = 0 then doneEpe s a (bit m 26) (bits m 25 23) false
      else guarded s (guardSp s c t (tileRuns ins) o.runs) fun s =>
        let x := getCore s c
        let rows := gridOf o.rows o.cols (vcmpElem emu x (bits m 31 29) bc (sOf s a (iSrc2 w)).toNat ta tb)
        doneEpe (setCore s c (writeTile x o rows [])) a (bit m 26) (bits m 25 23)
          (rows.any fun r => r.any fun e => e.raw == 1)
    | _, _, _ => descFault) s

/-! ### Pepper draws (R128) -/

def rowPep : Row :=
  { cls := 1, maj := 4, sub := always,
    regs := fun w =>
      { dst := .d, src1 := if bits (iImm w) 31 30 = 2 then .s else .none, src2 := .none,
        src3 := if bit (iImm w) 29 then .s else .none },
    cores := true, ctl := false, ext := false,
    legal := fun w => bits (iImm w) 31 30 != 3 && bits (iImm w) 24 0 == 0 && keyOk (bit (iImm w) 29) w }

/-- The element that a draw gives: the draw, UNIF, or BERN of probability p. -/
def pepElem (kind p u : Nat) : Nat :=
  let unif : FVal := .fin false (u >>> 8) (-24)
  match kind with
  | 0 => u
  | 1 => f32bits unif
  | _ => b2n (FVal.cmp unif (decodeF 1 p) == some (-1))

/-- Free-mode draws of a row from column `c` on. -/
def freeRow (seed core : Nat) : Nat → Nat → Tbl Nat → List Nat × Tbl Nat
  | 0, _, pep => ([], pep)
  | k + 1, c, pep =>
    let (u, pep) := takeFree seed core c pep
    let (us, pep) := freeRow seed core k (c + 1) pep
    (u :: us, pep)

/-- Free-mode draws of rows in row-major order. -/
def freeRows (seed core cols : Nat) : Nat → Tbl Nat → List (List Nat) × Tbl Nat
  | 0, pep => ([], pep)
  | k + 1, pep =>
    let (us, pep) := freeRow seed core cols 0 pep
    let (rs, pep) := freeRows seed core cols k pep
    (us :: rs, pep)

/-- The draws of a tile, and the lanes' counters after them. -/
def drawTile (q : RndCfg) (keyed : Bool) (purpose rows cols : Nat) (pep : Tbl Nat) : List (List Nat) × Tbl Nat :=
  if keyed then (gridOf rows cols fun r c => keyedDraw q.seed q.step purpose (q.elemIndex r c), pep)
  else freeRows q.seed q.core cols rows pep

def execPep (a : Agent) (w : Word) (s : State) : Outcome State Fault Refusal :=
  runInstr rowPep a w (fun n s => onCore a fun c t =>
    let x := getCore s c
    let m := iImm w
    let kind := bits m 31 30
    let emu := (getCtx s n).num.s5emu
    if emu then .fault fcIllegal 0 false
    else match tileFor emu x (dOf s a (iDst w)) with
      | none => descFault
      | some o =>
        if o.fmt != (if kind = 0 then 0xB else if kind = 1 then 1 else 9) then descFault
        else if o.rows = 0 || o.cols = 0 then .done s
        else guarded s (guardSp s c t [] o.runs) fun s =>
          let x := getCore s c
          let r := drawTile (rndCfg s a n c w 0 false) (bit m 29) (bits m 28 25) o.rows o.cols x.pepper
          let p := (sOf s a (iSrc1 w)).toNat % 2 ^ 32
          let rows := r.1.map fun us => us.map fun u => ({ raw := pepElem kind p u, poison := false } : OutElem)
          .done (setCore s c (writeTile { x with pepper := r.2 } o rows []))) s

end Machine
end Sys2Proof
end

