-- ==== Sys2Proof/Machine/Dispatch.lean ====
section
/-! DEFINITION. What each command does: one arm per row of spec/opcode_table.json, each a call of the command's meaning. -/

namespace Sys2Proof
namespace Machine

def exec (i : Instr) (s : State) : Host.Outcome State Fault Refusal :=
  match i with
  | .govStep powerMw => Sys2Proof.Machine.execGovStep powerMw s
  | .thermalSense maxC => Sys2Proof.Machine.execThermalSense maxC s
  | .monitorCollect inputUj domains => Sys2Proof.Machine.execMonitorCollect inputUj domains s
  | .oscFail oscB => Sys2Proof.Machine.execOscFail oscB s
  | .pllStop die => Sys2Proof.Machine.execPllStop die s
  | .pllStable die => Sys2Proof.Machine.execPllStable die s
  | .coreClockGate core => Sys2Proof.Machine.execCoreClockGate core s
  | .tickLoRead => Sys2Proof.Machine.execTickLoRead s
  | .govStatusRead => Sys2Proof.Machine.execGovStatusRead s
  | .keepWarmWrite die value => Sys2Proof.Machine.execKeepWarmWrite die value s
  | .blockBind core => Sys2Proof.Machine.execBlockBind core s
  | .grainResponse req corrupt => Sys2Proof.Machine.execGrainResponse req corrupt s
  | .writeAck req => Sys2Proof.Machine.execWriteAck req s
  | .bankServe bank => Sys2Proof.Machine.execBankServe bank s
  | .starvationFault core => Sys2Proof.Machine.execStarvationFault core s
  | .queueWordLand core ep => Sys2Proof.Machine.execQueueWordLand core ep s
  | .creditArrive core ep => Sys2Proof.Machine.execCreditArrive core ep s
  | .summaryArrive ctx core => Sys2Proof.Machine.execSummaryArrive ctx core s
  | .loadProceed ctx core => Sys2Proof.Machine.execLoadProceed ctx core s
  | .mma a w => Sys2Proof.Machine.execMma a w s
  | .agset a w => Sys2Proof.Machine.execAgset a w s
  | .agopen a w => Sys2Proof.Machine.execAgopen a w s
  | .agout a w => Sys2Proof.Machine.execAgout a w s
  | .atts a w => Sys2Proof.Machine.execAtts a w s
  | .attv a w => Sys2Proof.Machine.execAttv a w s
  | .vfn a w => Sys2Proof.Machine.execVfn a w s
  | .cvt a w => Sys2Proof.Machine.execCvt a w s
  | .vred a w => Sys2Proof.Machine.execVred a w s
  | .vcmp a w => Sys2Proof.Machine.execVcmp a w s
  | .pep a w => Sys2Proof.Machine.execPep a w s
  | .shadowRecompute core => Sys2Proof.Machine.execShadowRecompute core s
  | .ldt a w => Sys2Proof.Machine.execLdt a w s
  | .stt a w => Sys2Proof.Machine.execStt a w s
  | .movt a w => Sys2Proof.Machine.execMovt a w s
  | .pfsArm a w => Sys2Proof.Machine.execPfsArm a w s
  | .pfsStop a w => Sys2Proof.Machine.execPfsStop a w s
  | .prefetchEntryStart sched => Sys2Proof.Machine.execPrefetchEntryStart sched s
  | .gatePoll sched => Sys2Proof.Machine.execGatePoll sched s
  | .rcfg a w => Sys2Proof.Machine.execRcfg a w s
  | .ringCommit a w => Sys2Proof.Machine.execRingCommit a w s
  | .ringRelease a w => Sys2Proof.Machine.execRingRelease a w s
  | .ringSwap a w => Sys2Proof.Machine.execRingSwap a w s
  | .qcfg a w => Sys2Proof.Machine.execQcfg a w s
  | .qsend a w => Sys2Proof.Machine.execQsend a w s
  | .qrecv a w => Sys2Proof.Machine.execQrecv a w s
  | .qheld a w => Sys2Proof.Machine.execQheld a w s
  | .qrel a w => Sys2Proof.Machine.execQrel a w s
  | .qsum a w => Sys2Proof.Machine.execQsum a w s
  | .fence a w => Sys2Proof.Machine.execFence a w s
  | .bar a w => Sys2Proof.Machine.execBar a w s
  | .start a w => Sys2Proof.Machine.execStart a w s
  | .cg a w => Sys2Proof.Machine.execCg a w s
  | .epochEnter a w => Sys2Proof.Machine.execEpochEnter a w s
  | .epochLeave a w => Sys2Proof.Machine.execEpochLeave a w s
  | .coll a w => Sys2Proof.Machine.execColl a w s
  | .gflag a w => Sys2Proof.Machine.execGflag a w s
  | .reshard a w => Sys2Proof.Machine.execReshard a w s
  | .updopOpen a w => Sys2Proof.Machine.execUpdopOpen a w s
  | .updopNorm a w => Sys2Proof.Machine.execUpdopNorm a w s
  | .updopStep a w => Sys2Proof.Machine.execUpdopStep a w s
  | .updopRegen a w => Sys2Proof.Machine.execUpdopRegen a w s
  | .updopFlush a w => Sys2Proof.Machine.execUpdopFlush a w s
  | .updopKvgather a w => Sys2Proof.Machine.execUpdopKvgather a w s
  | .updOpStart op => Sys2Proof.Machine.execUpdOpStart op s
  | .updacc a w => Sys2Proof.Machine.execUpdacc a w s
  | .updclose a w => Sys2Proof.Machine.execUpdclose a w s
  | .contributionArrive req corrupt => Sys2Proof.Machine.execContributionArrive req corrupt s
  | .contributionResend req => Sys2Proof.Machine.execContributionResend req s
  | .sessionComplete sess => Sys2Proof.Machine.execSessionComplete sess s
  | .snapshotComplete snap => Sys2Proof.Machine.execSnapshotComplete snap s
  | .salu a w => Sys2Proof.Machine.execSalu a w s
  | .scmp a w => Sys2Proof.Machine.execScmp a w s
  | .br a w => Sys2Proof.Machine.execBr a w s
  | .smemLoad a w => Sys2Proof.Machine.execSmemLoad a w s
  | .smemStore a w => Sys2Proof.Machine.execSmemStore a w s
  | .notify a w => Sys2Proof.Machine.execNotify a w s
  | .dwr a w => Sys2Proof.Machine.execDwr a w s
  | .bend a w => Sys2Proof.Machine.execBend a w s
  | .halt a w => Sys2Proof.Machine.execHalt a w s
  | .yield a w => Sys2Proof.Machine.execYield a w s
  | .nop a w => Sys2Proof.Machine.execNop a w s
  | .rdsysTick a w => Sys2Proof.Machine.execRdsysTick a w s
  | .rdsysStatus a w => Sys2Proof.Machine.execRdsysStatus a w s
  | .rdsysCounter a w => Sys2Proof.Machine.execRdsysCounter a w s
  | .rdsysContext a w => Sys2Proof.Machine.execRdsysContext a w s
  | .rdsysPeer a w => Sys2Proof.Machine.execRdsysPeer a w s
  | .rdsysCtxRegister a w => Sys2Proof.Machine.execRdsysCtxRegister a w s
  | .loadp a w => Sys2Proof.Machine.execLoadp a w s
  | .sumarm a w => Sys2Proof.Machine.execSumarm a w s
  | .sumget a w => Sys2Proof.Machine.execSumget a w s
  | .cores a w => Sys2Proof.Machine.execCores a w s
  | .tierLate req => Sys2Proof.Machine.execTierLate req s
  | .memUncorrectable pa => Sys2Proof.Machine.execMemUncorrectable pa s
  | .refetchDone pa => Sys2Proof.Machine.execRefetchDone pa s
  | .patrolScrub pa corrected => Sys2Proof.Machine.execPatrolScrub pa corrected s
  | .hintCtlWrite value => Sys2Proof.Machine.execHintCtlWrite value s
  | .portEnable port on => Sys2Proof.Machine.execPortEnable port on s
  | .portRetrain port => Sys2Proof.Machine.execPortRetrain port s
  | .signalDetect port lanes => Sys2Proof.Machine.execSignalDetect port lanes s
  | .trainComplete port pass best8 => Sys2Proof.Machine.execTrainComplete port pass best8 s
  | .retrainComplete port ok pass best8 => Sys2Proof.Machine.execRetrainComplete port ok pass best8 s
  | .portDownTimeout port => Sys2Proof.Machine.execPortDownTimeout port s
  | .laneErrorInterval port counts => Sys2Proof.Machine.execLaneErrorInterval port counts s
  | .laneSignalLoss port lane => Sys2Proof.Machine.execLaneSignalLoss port lane s
  | .laneSwap port lane => Sys2Proof.Machine.execLaneSwap port lane s
  | .fecGroupReceive port g => Sys2Proof.Machine.execFecGroupReceive port g s
  | .queueFlit f => Sys2Proof.Machine.execQueueFlit f s
  | .memreq src txn pa isWrite => Sys2Proof.Machine.execMemreq src txn pa isWrite s
  | .memdata src txn data format part poison => Sys2Proof.Machine.execMemdata src txn data format part poison s
  | .memack src txn code => Sys2Proof.Machine.execMemack src txn code s
  | .coldata d => Sys2Proof.Machine.execColdata d s
  | .reservedFlit port => Sys2Proof.Machine.execReservedFlit port s
  | .hello h => Sys2Proof.Machine.execHello h s
  | .absent src peer incarnation joinEpoch => Sys2Proof.Machine.execAbsent src peer incarnation joinEpoch s
  | .arrive m => Sys2Proof.Machine.execArrive m s
  | .abort src group attempt step => Sys2Proof.Machine.execAbort src group attempt step s
  | .gflagMessage src group attempt step flag aborted => Sys2Proof.Machine.execGflagMessage src group attempt step flag aborted s
  | .relaydrain dst => Sys2Proof.Machine.execRelaydrain dst s
  | .qcredit src sendCore sendEp recvCore recvEp words => Sys2Proof.Machine.execQcredit src sendCore sendEp recvCore recvEp words s
  | .qconfig src core ep word part answer => Sys2Proof.Machine.execQconfig src core ep word part answer s
  | .qclose src core ep peerCore peerEp words => Sys2Proof.Machine.execQclose src core ep peerCore peerEp words s
  | .routes mask => Sys2Proof.Machine.execRoutes mask s
  | .peerWaitLimit ctx step => Sys2Proof.Machine.execPeerWaitLimit ctx step s
  | .rejoin => Sys2Proof.Machine.execRejoin s
  | .reshardFencePass id => Sys2Proof.Machine.execReshardFencePass id s
  | .commitComplete id => Sys2Proof.Machine.execCommitComplete id s
  | .submit part slot => Sys2Proof.Machine.execSubmit part slot s
  | .cancel part slot => Sys2Proof.Machine.execCancel part slot s
  | .kick part slot => Sys2Proof.Machine.execKick part slot s
  | .pfxRelease part handle => Sys2Proof.Machine.execPfxRelease part handle s
  | .ringPoll req => Sys2Proof.Machine.execRingPoll req s
  | .bind ctx req w0 => Sys2Proof.Machine.execBind ctx req w0 s
  | .emit ctx req w0 w1 => Sys2Proof.Machine.execEmit ctx req w0 w1 s
  | .draft ctx req w0 w1 => Sys2Proof.Machine.execDraft ctx req w0 w1 s
  | .accept ctx req w0 => Sys2Proof.Machine.execAccept ctx req w0 s
  | .rollback ctx req w0 => Sys2Proof.Machine.execRollback ctx req w0 s
  | .prefilled ctx req w0 => Sys2Proof.Machine.execPrefilled ctx req w0 s
  | .unbind ctx req w0 => Sys2Proof.Machine.execUnbind ctx req w0 s
  | .fail ctx req w0 w1 => Sys2Proof.Machine.execFail ctx req w0 w1 s
  | .fetch ctx w0 => Sys2Proof.Machine.execFetch ctx w0 s
  | .deadlineMonitor req => Sys2Proof.Machine.execDeadlineMonitor req s
  | .load part slot => Sys2Proof.Machine.execLoad part slot s
  | .unload part slot => Sys2Proof.Machine.execUnload part slot s
  | .replace part slot => Sys2Proof.Machine.execReplace part slot s
  | .attach part slot ctx serve => Sys2Proof.Machine.execAttach part slot ctx serve s
  | .detach part slot ctx => Sys2Proof.Machine.execDetach part slot ctx s
  | .layerLoaded model => Sys2Proof.Machine.execLayerLoaded model s
  | .sourceReadFail f => Sys2Proof.Machine.execSourceReadFail f s
  | .layerStaged model => Sys2Proof.Machine.execLayerStaged model s
  | .layerInstall model => Sys2Proof.Machine.execLayerInstall model s
  | .layerInstalled model => Sys2Proof.Machine.execLayerInstalled model s
  | .replaceRetry model => Sys2Proof.Machine.execReplaceRetry model s
  | .useDecay => Sys2Proof.Machine.execUseDecay s
  | .cmdNop part => Sys2Proof.Machine.execCmdNop part s
  | .create part => Sys2Proof.Machine.execCreate part s
  | .run part => Sys2Proof.Machine.execRun part s
  | .destroy part => Sys2Proof.Machine.execDestroy part s
  | .map part => Sys2Proof.Machine.execMap part s
  | .unmap part => Sys2Proof.Machine.execUnmap part s
  | .post part => Sys2Proof.Machine.execPost part s
  | .teardownComplete ctx => Sys2Proof.Machine.execTeardownComplete ctx s
  | .teardownRead part => Sys2Proof.Machine.execTeardownRead part s
  | .quantumBoundary => Sys2Proof.Machine.execQuantumBoundary s
  | .contextSaved ctx => Sys2Proof.Machine.execContextSaved ctx s
  | .contextRestored ctx => Sys2Proof.Machine.execContextRestored ctx s
  | .msixSend part vec => Sys2Proof.Machine.execMsixSend part vec s
  | .partitionReset part => Sys2Proof.Machine.execPartitionReset part s
  | .resetScrubDone part => Sys2Proof.Machine.execResetScrubDone part s
  | .coreLost core => Sys2Proof.Machine.execCoreLost core s
  | .spareCoreReady core pass => Sys2Proof.Machine.execSpareCoreReady core pass s
  | .dieLost die => Sys2Proof.Machine.execDieLost die s
  | .spareDieReady pass => Sys2Proof.Machine.execSpareDieReady pass s
  | .stackLost stack => Sys2Proof.Machine.execStackLost stack s
  | .spareStackReady stack pass => Sys2Proof.Machine.execSpareStackReady stack pass s
  | .channelLost chan => Sys2Proof.Machine.execChannelLost chan s
  | .hubPathFault u => Sys2Proof.Machine.execHubPathFault u s
  | .sramUncorrectable place => Sys2Proof.Machine.execSramUncorrectable place s
  | .watchdogExpiry cc => Sys2Proof.Machine.execWatchdogExpiry cc s
  | .hdmRead pa => Sys2Proof.Machine.execHdmRead pa s
  | .hdmWrite pa data => Sys2Proof.Machine.execHdmWrite pa data s
  | .backInvalidate line => Sys2Proof.Machine.execBackInvalidate line s
  | .hostSnoop addr => Sys2Proof.Machine.execHostSnoop addr s
  | .tier4Completion req ok poison => Sys2Proof.Machine.execTier4Completion req ok poison s
  | .decoderCommit dec ways => Sys2Proof.Machine.execDecoderCommit dec ways s
  | .flrVf n => Sys2Proof.Machine.execFlrVf n s
  | .flrPf => Sys2Proof.Machine.execFlrPf s
  | .vfEnableClear => Sys2Proof.Machine.execVfEnableClear s
  | .dlDown => Sys2Proof.Machine.execDlDown s
  | .ideFail => Sys2Proof.Machine.execIdeFail s
  | .perstDeassert => Sys2Proof.Machine.execPerstDeassert s
  | .doeDiscovery index => Sys2Proof.Machine.execDoeDiscovery index s
  | .getVersion => Sys2Proof.Machine.execGetVersion s
  | .getCapabilities => Sys2Proof.Machine.execGetCapabilities s
  | .negotiateAlgorithms extAsym hash dhe aead => Sys2Proof.Machine.execNegotiateAlgorithms extAsym hash dhe aead s
  | .getDigests => Sys2Proof.Machine.execGetDigests s
  | .getCertificate slot offset length => Sys2Proof.Machine.execGetCertificate slot offset length s
  | .challenge slot nonce => Sys2Proof.Machine.execChallenge slot nonce s
  | .getMeasurements index signed nonce => Sys2Proof.Machine.execGetMeasurements index signed nonce s
  | .keyExchange slot nonce => Sys2Proof.Machine.execKeyExchange slot nonce s
  | .finish macOk => Sys2Proof.Machine.execFinish macOk s
  | .keyUpdate => Sys2Proof.Machine.execKeyUpdate s
  | .heartbeat => Sys2Proof.Machine.execHeartbeat s
  | .endSession => Sys2Proof.Machine.execEndSession s
  | .chunkSend handle seq last data => Sys2Proof.Machine.execChunkSend handle seq last data s
  | .chunkGet handle seq => Sys2Proof.Machine.execChunkGet handle seq s
  | .ideKm program => Sys2Proof.Machine.execIdeKm program s
  | .recoveryInfo => Sys2Proof.Machine.execRecoveryInfo s
  | .unsupportedRequest code => Sys2Proof.Machine.execUnsupportedRequest code s
  | .matedNFall vinMv => Sys2Proof.Machine.execMatedNFall vinMv s
  | .matedNRise => Sys2Proof.Machine.execMatedNRise s
  | .powerGood slot => Sys2Proof.Machine.execPowerGood slot s
  | .inputOutOfRange mv => Sys2Proof.Machine.execInputOutOfRange mv s
  | .inputExcursionTimeout => Sys2Proof.Machine.execInputExcursionTimeout s
  | .inputCollapse => Sys2Proof.Machine.execInputCollapse s
  | .recordVerify copyA copyB => Sys2Proof.Machine.execRecordVerify copyA copyB s
  | .identityCheck ok => Sys2Proof.Machine.execIdentityCheck ok s
  | .firmwareBoot => Sys2Proof.Machine.execFirmwareBoot s
  | .earlyService => Sys2Proof.Machine.execEarlyService s
  | .unitSelfTestDone failed => Sys2Proof.Machine.execUnitSelfTestDone failed s
  | .speedTest => Sys2Proof.Machine.execSpeedTest s
  | .fullService => Sys2Proof.Machine.execFullService s
  | .napEntry => Sys2Proof.Machine.execNapEntry s
  | .hold => Sys2Proof.Machine.execHold s
  | .holdExit => Sys2Proof.Machine.execHoldExit s
  | .warm slot => Sys2Proof.Machine.execWarm slot s
  | .smbStatus => Sys2Proof.Machine.execSmbStatus s
  | .smbPower => Sys2Proof.Machine.execSmbPower s
  | .smbVoltage => Sys2Proof.Machine.execSmbVoltage s
  | .smbTemp => Sys2Proof.Machine.execSmbTemp s
  | .smbBoot => Sys2Proof.Machine.execSmbBoot s
  | .smbCap value => Sys2Proof.Machine.execSmbCap value s
  | .smbWake => Sys2Proof.Machine.execSmbWake s
  | .smbHold value => Sys2Proof.Machine.execSmbHold value s
  | .smbWarm value slot => Sys2Proof.Machine.execSmbWarm value slot s
  | .smbAlertResponse => Sys2Proof.Machine.execSmbAlertResponse s
  | .fwVerify => Sys2Proof.Machine.execFwVerify s
  | .fwVerifyDone => Sys2Proof.Machine.execFwVerifyDone s
  | .fwActivate => Sys2Proof.Machine.execFwActivate s
  | .fwCoreSwitch selfCheckOk => Sys2Proof.Machine.execFwCoreSwitch selfCheckOk s
  | .crSubmit slot => Sys2Proof.Machine.execCrSubmit slot s
  | .crSign slot => Sys2Proof.Machine.execCrSign slot s
  | .crClear slot => Sys2Proof.Machine.execCrClear slot s
  | .crWindowExpiry slot => Sys2Proof.Machine.execCrWindowExpiry slot s
  | .crApply slot => Sys2Proof.Machine.execCrApply slot s
  | .registerWrite func off width value => Sys2Proof.Machine.execRegisterWrite func off width value s
  | .inputRestored mv => Sys2Proof.Machine.execInputRestored mv s
  | .bridgeLaneSwap group lane => Sys2Proof.Machine.execBridgeLaneSwap group lane s
  | .illegalInstruction a w => Sys2Proof.Machine.execIllegalInstruction a w s
  | .reservedCommand part => Sys2Proof.Machine.execReservedCommand part s
  | .doorbellReservedOp models part value => Sys2Proof.Machine.execDoorbellReservedOp models part value s
  | .smbNak code => Sys2Proof.Machine.execSmbNak code s
  | .hostLinkUp speed width => Sys2Proof.Machine.execHostLinkUp speed width s

end Machine
end Sys2Proof
end

