-- ==== Sys2Proof/Machine/ReadRegs.lean ====
section
/-! DEFINITION. What the host reads (R405, R407, R409, R410, R423, R460): every register of BAR0 and the configuration space of the
functions. The table has no row for these reads: they change nothing, and are an observation of the state. A read that does
change something is a row of its own and answers what is read here (TICK_LO_READ, GOV_STATUS_READ, TEARDOWN_READ). A reserved
offset reads 0. -/

namespace Sys2Proof
namespace Machine

/-- Two 32-bit registers of one aligned unit of 8 bytes. -/
def two (lo hi : Nat) : Nat := lo % 2 ^ 32 + 2 ^ 32 * (hi % 2 ^ 32)

/-! ### Blocks that respond in recovery too (R435) -/

/-- HOST.LINK_STATUS (Table 17.5). -/
def linkStatusReg (h : HostSide) : Nat :=
  b2n h.up <<< 31 + b2n h.ideIo <<< 30 + h.ideCm <<< 28 + h.speed <<< 24 + h.width <<< 19

/-- The global block (Tables 8.9, 8.10, 15.7 and 17.5). -/
def globalReg (s : State) (u : Nat) : Nat :=
  let m := s.mem
  let h := s.host
  match u with
  | 0x800 => b2n m.hintRefused <<< 31 + m.hintGroups
  | 0x808 => m.lateT2
  | 0x810 => m.lateT3
  | 0x818 => m.lateT4
  | 0x820 => m.nmCe
  | 0x828 => m.nmUe
  | 0x830 => m.capCe
  | 0x838 => m.capUe
  | 0x840 => m.mirrorFailovers
  | 0x848 => m.refetches
  | 0x850 => m.tierFailed
  | 0x900 => s.quantumUs
  | 0x908 => s.preemptions
  | 0xA00 => linkStatusReg h
  | 0xA08 => h.hdmDenied
  | 0xA10 => h.bisnp
  | 0xA18 => h.sfEvictions
  | 0xA20 => h.ideFails
  | 0xA28 => h.linkDowns
  | _ => 0

/-- The power and clock block (Tables 1.8 to 1.12 and 18.8 to 18.11). -/
def powerReg (s : State) (u : Nat) : Nat :=
  let c := s.clk
  let p := s.pwr
  match u with
  | 0x000 => c.tick
  | 0x008 => c.hiLatch
  | 0x010 => c.inPower
  | 0x018 => c.inEnergy
  | 0x020 => two (govStatus c) c.sustainedW
  | 0x030 => b2n c.failB <<< 3 + b2n c.failA <<< 2 + (if c.oscB then 2 else 1)
  | 0x200 => two (pwrStateReg s) (b2n p.napEn <<< 29)
  | 0x208 => two p.pin p.napAfterUs
  | 0x210 => two p.inMv p.tempMax
  | 0x218 => two (bootReg p) (carrier s).seq
  | 0x220 => p.warmResets
  | 0x228 => p.holds
  | _ => if 0x100 ≤ u && u < 0x190 && u % 0x10 == 0 then dieClkReg c (getDie s ((u - 0x100) / 0x10)) else 0

/-- SEC.FW_STATUS (Table 19.10). -/
def fwStatusReg (x : Sec) : Nat := x.fwState <<< 28 + x.fwResult <<< 24 + b2n x.prot.cosign <<< 23 + x.fwIgnored

/-- CR[i].STATE (Table 19.10). -/
def crStateReg (x : CrSlot) : Nat := x.state <<< 28 + x.result <<< 24 + b2n x.operator <<< 1 + b2n x.custodian

/-- A change record slot (Table 19.10), at its place. -/
def crReg (x : CrSlot) (u : Nat) : Nat :=
  match u with
  | 0x00 => x.bodyPa
  | 0x08 => x.sigPa
  | 0x10 => two 0 (crStateReg x)
  | 0x18 => x.firstTick
  | _ => if 0x40 ≤ u then x.digest / 2 ^ (8 * (u - 0x40)) % 2 ^ 64 else 0

/-- The security block (Table 19.10); in recovery only the firmware registers respond (R460), STATUS with its bit RECOVERY not
among them. -/
def securityReg (s : State) (u : Nat) : Nat :=
  let x := s.sec
  match u with
  | 0x020 => x.stagePa
  | 0x028 => x.fwBytes
  | 0x030 => fwStatusReg x
  | _ =>
    if inRecovery s then 0
    else match u with
    | 0x000 => b2n x.prot.enrolled <<< 31
    | 0x008 => x.prot.cfgSeq
    | 0x010 => x.prot.window
    | 0x018 => two x.prot.minFw (match x.fwRunning with | some i => i.fwVersion | none => 0)
    | 0x038 => x.badSigs
    | 0x040 => x.applied
    | 0x048 => x.expired
    | _ => if 0x100 ≤ u && u < 0x300 then crReg (getSlot s ((u - 0x100) / 0x80)) (u % 0x80) else 0

/-- W1 and W3 of a log entry (Table 16.8). -/
def logReg (e : LogEntry) (k : Nat) : Nat :=
  match k with
  | 0 => e.tick
  | 1 => e.event <<< 56 + e.cls <<< 52 + e.unitKind <<< 48 + e.unitNo <<< 32 + e.part <<< 26 + b2n e.ctxValid <<< 12 + e.ctx
  | 2 => e.detail
  | _ => e.seq <<< 32 + e.count

/-- REC.CTX of a context (Table 16.10). -/
def restartReg (x : Ctx) (k : Nat) : Nat :=
  match k with
  | 0 => b2n x.restartEn <<< 63 + x.restartVa
  | 1 => x.restarts
  | 2 => x.lastRestart
  | _ => 0

/-- The error and recovery block (Tables 16.6 to 16.10). -/
def errorReg (s : State) (u : Nat) : Nat :=
  let r := s.recov
  match u with
  | 0x00 => recStatusReg s
  | 0x08 => r.logWritten
  | 0x10 => r.logRead
  | 0x18 => r.logLost
  | 0x20 => b2n r.logIrqEn <<< 31 + r.logIrqVec
  | 0x28 => r.checkFails
  | 0x30 => r.sramCe
  | 0x38 => r.sramUe
  | 0x70 => r.ctlRestarts
  | 0x78 => r.journalReplayed
  | 0x80 => r.ctxRestarts
  | _ =>
    if 0x40 ≤ u && u < 0x70 then tget 0 r.faults ((u - 0x40) / 8)
    else if 0x1000 ≤ u && u < 0x11000 then
      match tfind r.log ((u - 0x1000) / 0x20) with
      | some e => logReg e (u / 8 % 4)
      | none => 0
    else if 0x20000 ≤ u && u < 0x40000 then restartReg (getCtx s ((u - 0x20000) / 0x20)) (u / 8 % 4)
    else 0

/-! ### The other blocks of the PF -/

/-- PORT[p].STATUS (Table 10.12). -/
def portStatusReg (p : Port) : Nat :=
  p.state <<< 29 + p.lanes <<< 24 + p.farPeer <<< 21 + p.farPort <<< 18 + b2n p.wiringErr <<< 17 + b2n p.viaPartner <<< 16

/-- PORT[p].CTL (Table 10.13). -/
def portCtlReg (p : Port) : Nat := b2n p.enable <<< 31 + p.replayMax <<< 27 + p.wC1 <<< 16 + p.wC2 <<< 8 + p.wC3

/-- A peer port (Tables 10.11 to 10.14). -/
def portReg (p : Port) (u : Nat) : Nat :=
  match u with
  | 0x000 => two (portStatusReg p) (portCtlReg p)
  | 0x008 => p.bad.toNat <<< 36 + p.spare.toNat <<< 18 + p.active.toNat
  | 0x010 => p.laneLimit
  | 0x018 => p.flitsTx
  | 0x020 => p.flitsRx
  | 0x028 => p.fecCorrected
  | 0x030 => p.fecUncorr
  | 0x038 => p.checkFail
  | 0x040 => p.replays
  | 0x048 => p.poisonDelivered
  | 0x050 => p.laneSwaps
  | 0x058 => p.retrains
  | 0x060 => p.protoErr
  | 0x068 => p.relayed
  | _ => 0

/-- The membership block (Table 10.15). -/
def peersReg (p : Peers) (u : Nat) : Nat :=
  match u with
  | 0x000 => p.present.toNat <<< 24 + p.absent.toNat <<< 16 + p.relay.toNat <<< 8 + p.self <<< 4
  | 0x008 => two p.incarnation p.joinEpoch
  | 0x018 => p.absentEvents
  | 0x020 => p.aborts
  | _ => 0

/-- A window of a partition (Table 15.5). -/
def windowReg (w : Option Window) (last : Bool) : Nat :=
  match w with
  | none => 0
  | some w => if last then w.last <<< 21 else 1 <<< 63 + w.first <<< 21

/-- The oldest teardown entry (Table 15.5). -/
def teardownReg (x : Part) : Nat := match x.teardown with | [] => 0 | (n, r) :: _ => 2 ^ 31 + r <<< 16 + n

/-- Contexts of a partition in CREATED, LIVE or HELD. -/
def partCtxs (s : State) (p : Nat) : Nat :=
  (ctxsWhere s fun x => x.part == p && (x.state == ctxCreated || x.state == ctxLive || x.state == ctxHeld)).length

/-- A partition (Table 15.5), the same through its mirror (R378). -/
def partReg (s : State) (p u : Nat) : Nat :=
  let x := getPart s p
  let e := partEntry s p
  match u with
  | 0x000 =>
    two (b2n (partEnabled s p) <<< 30 + b2n e.privOk <<< 29)
      (b2n x.resetting <<< 31 + b2n x.resetDone <<< 30 + b2n x.createRefused <<< 29 + partCtxs s p <<< 13 + heldByPart s p)
  | 0x008 => two x.share (e.ctxCount <<< 16 + e.ctxFirst)
  | 0x010 => two e.vecCount (b2n x.evtEn <<< 31 + x.evtVec)
  | 0x018 => two (teardownReg x) (irqRate s p)
  | 0x020 => x.irqDeferred
  | 0x028 => x.pass
  | 0x030 => x.energyMj
  | 0x038 => x.resets
  | _ => if 0x40 ≤ u && u < 0xC0 then windowReg (tfind e.windows ((u - 0x40) / 0x10)) (u % 0x10 == 8) else 0

/-- The KV counters, and the energy balances (Tables 12.10 and 15.7). -/
def balanceReg (s : State) (u : Nat) : Nat :=
  let r := s.rollout
  match u with
  | 0xC0000 => r.setsAllocated
  | 0xC0008 => r.cowCopies
  | 0xC0010 => r.evictions
  | 0xC0018 => r.selfEvictions
  | 0xC0020 => r.bindStallTicks
  | 0xC0028 => r.handlesRefused
  | 0xD0000 => s.clk.overheadMj
  | 0xD0008 => s.clk.retiredMj
  | 0xA0100 => b2n s.clk.stallEnable <<< 31 + s.clk.stallLimitUs
  | u => (countersRead s u).toNat

/-- SHADOW_CTL (Table 7.10). -/
def shadowReg (n : Num) : Nat :=
  b2n n.shEnable <<< 31 + n.shAlertBin <<< 28 + b2n n.shAlertEn <<< 27 + n.shAlertTag <<< 23 + n.shRateExp <<< 16

/-- CORESET of a context, 64 bits at a time. -/
def coresetReg (x : Ctx) (k : Nat) : Nat :=
  ((List.range 64).filter fun i => x.coreset.contains (64 * k + i)).foldl (fun v i => v + 1 <<< i) 0

/-- A context (Tables 7.8 to 7.10, 14.3, 14.5 and 15.6). -/
def ctxReg (x : Ctx) (u : Nat) : Nat :=
  match u with
  | 0x000 => x.state <<< 28 + x.part <<< 16
  | 0x008 => b2n x.priv <<< 63 + x.colgroup <<< 32
  | 0x010 => x.share
  | 0x018 => x.savePa
  | 0x020 => x.saveGrains
  | 0x028 => x.pass
  | 0x400 => b2n x.num.s5emuReg <<< 31
  | 0x408 => x.num.seedReg.toNat
  | 0x410 => shadowReg x.num
  | 0x480 => two (x.dst.roleReg <<< 30) x.dst.epMask
  | u =>
    if 0x40 ≤ u && u < 0x60 then leNat (((faultWords x.fault).drop (u - 0x40)).take 8)
    else if 0x80 ≤ u && u < 0x100 then coresetReg x ((u - 0x80) / 8)
    else (ctxCounter x u).getD 0

/-- RQ of a partition (Table 12.9); DOORBELL and PREFIX_RELEASE read 0. -/
def rqReg (s : State) (p u : Nat) : Nat :=
  let x := getPart s p
  match u with
  | 0x000 => x.rqBase
  | 0x008 => two x.rqSlots x.rqMaxActive
  | 0x020 => b2n x.rqCfgRefused <<< 31 + b2n x.rqBadDoorbell <<< 30 + activeReqs s p
  | 0x028 => x.rqAccepted
  | 0x030 => x.rqEnded
  | 0x038 => x.rqEvictions
  | 0x040 => (s.rollout.handles.filter fun e => e.2.part == p).length
  | _ => 0

/-- MDL of a partition (Table 13.6); DOORBELL reads 0. A resident state is LOADING, RESIDENT or REPLACING (R328). -/
def mdlReg (s : State) (p u : Nat) : Nat :=
  let x := getPart s p
  match u with
  | 0x000 => x.mdlBase
  | 0x008 => x.mdlSlots
  | 0x018 => b2n x.mdlCfgRefused <<< 31 + b2n x.mdlBadDoorbell <<< 30 +
      (s.models.filter fun e => e.2.part == p && mdlAlive e.2).length
  | 0x020 => x.t1Base
  | 0x028 => x.t1Size
  | 0x030 => x.t2Base
  | 0x038 => x.t2Size
  | 0x040 => x.mdlLoads
  | 0x048 => x.mdlEvictions
  | 0x050 => x.mdlReplaces
  | 0x058 => x.mdlEpochErrors
  | 0x060 => x.dlMoved
  | 0x068 => x.dlEnded
  | _ => 0

/-- CMD of a partition (Table 17.6). -/
def cmdReg (x : Part) (u : Nat) : Nat :=
  match u with
  | 0x000 => x.cmdBase
  | 0x008 => x.cmdOrder
  | 0x010 => two x.cmdTail x.cmdHead
  | 0x018 => two (b2n x.cmdCfgRefused <<< 31 + b2n x.cmdBadDoorbell <<< 30) (b2n x.cplEn <<< 31 + x.cplVec)
  | 0x020 => x.cmdCompleted
  | _ => 0

/-- A function's MSI-X table (R410): message address; message data and vector control. -/
def msixReg (x : Part) (u : Nat) : Nat :=
  let e := tget MsixEntry.reset x.vectors (u / 16)
  if u % 16 = 0 then e.addr.toNat else two e.data.toNat (b2n e.masked)

/-- 64 pending bits of a function. -/
def pbaReg (x : Part) (u : Nat) : Nat :=
  ((List.range 64).filter fun i => decide (0 < tget 0 x.pba (8 * u + i))).foldl (fun v i => v + 1 <<< i) 0

/-! ### BAR0 -/

/-- The unit of 8 bytes at an offset of PF BAR0 (Table 17.3); in recovery only the first four blocks respond (R435). -/
def pfReg (s : State) (u : Nat) : Option Nat :=
  let p := u / 0x1000 % 64
  let r := u % 0x1000
  if u < 0x10000 then some (globalReg s u)
  else if u < 0x20000 then some (powerReg s (u - 0x10000))
  else if u < 0x40000 then some (securityReg s (u - 0x20000))
  else if u < 0x80000 then some (errorReg s (u - 0x40000))
  else if inRecovery s then none
  else if u < 0x88000 then some (portReg (getPort s ((u - 0x80000) / 0x1000)) r)
  else if u < 0x89000 then some (peersReg s.peers r)
  else if u < 0x100000 then some 0
  else if u < 0x140000 then some (partReg s p r)
  else if u < 0x200000 then some 0
  else if u < 0x300000 then some (balanceReg s (u - 0x200000))
  else if u < 0x1000000 then some 0
  else if u < 0x2000000 then some (ctxReg (getCtx s (u / 0x1000 % 4096)) r)
  else if u < 0x2040000 then some (rqReg s p r)
  else if u < 0x2080000 then some 0
  else if u < 0x20C0000 then some (mdlReg s p r)
  else if u < 0x2100000 then some 0
  else if u < 0x2140000 then some (cmdReg (getPart s p) r)
  else if u < 0x3000000 then some 0
  else if u < 0x3008000 then some (msixReg (getPart s 0) (u - 0x3000000))
  else if u < 0x3008100 then some (pbaReg (getPart s 0) (u - 0x3008000))
  else some 0

/-- The unit of 8 bytes at an offset of the BAR0 of VF n (Table 17.4), which shows partition n alone. -/
def vfReg (s : State) (n u : Nat) : Nat :=
  let r := u % 0x1000
  if u < 0x1000 then partReg s n r
  else if u < 0x10000 then 0
  else if u < 0x11000 then rqReg s n r
  else if u < 0x12000 then mdlReg s n r
  else if u < 0x13000 then cmdReg (getPart s n) r
  else if u < 0x80000 then 0
  else if u < 0x88000 then msixReg (getPart s n) (u - 0x80000)
  else if u < 0x88100 then pbaReg (getPart s n) (u - 0x88000)
  else 0

/-- The unit of 8 bytes at an offset of a function's BAR0, where the function responds. -/
def barUnit (s : State) (func u : Nat) : Option Nat :=
  if !hostUp s then none
  else if func = 0 then pfReg s u
  else if decide (func < 64) && s.host.vfEnable && !inRecovery s then some (vfReg s func u)
  else none

/-- A read of `n` bytes at an offset (R409): the addressed bytes, of whatever size. -/
def barRead (s : State) (func off n : Nat) : Option (List Byte) :=
  (List.range n).mapM fun i => (barUnit s func ((off + i) / 8 * 8)).map fun v => BitVec.ofNat 8 (v / 2 ^ (8 * ((off + i) % 8)))

/-! ### Configuration space (log 162) -/

/-- Bytes of a function's one BAR, which is 64-bit and non-prefetchable (R407). -/
def barBytes (n : Nat) : Nat := if n = 0 then 2 ^ 26 else 2 ^ 20

/-- The 32 bits at an offset of a function's configuration space: its identity (R407), MSI-X (R410), SR-IOV (R407) and ASPM L1.2
(R440). No bit stands there for a feature that Table 17.1 does not support (R405). -/
def configReg (s : State) (n off : Nat) : Nat :=
  match off with
  | 0x00 => Config.vendorId.toNat + (if n = 0 then 0x5707 else 0x5717) <<< 16
  | 0x08 => 0x120000 <<< 8
  | 0x10 => if n = 0 then 0x4 else 0
  | 0xB0 => b2n (tget false s.host.msixOn n) <<< 31 + b2n (tget false s.host.msixMask n) <<< 30 + 2047 <<< 16
  | 0x168 => if n = 0 then b2n s.host.vfEnable else 0
  | 0x16C => if n = 0 then 63 <<< 16 + 63 else 0
  | 0x174 => if n = 0 then 1 <<< 16 + 1 else 0
  | 0x178 => if n = 0 then 0x5717 <<< 16 else 0
  | 0x184 => if n = 0 then 0x4 else 0
  | 0x208 => if n = 0 then b2n s.host.aspmL12 <<< 2 else 0
  | _ => 0

/-- A read of configuration space: answered once the functions are ready (R436), by the PF, and by a VF that is enabled. -/
def configRead (s : State) (n off : Nat) : Option Nat :=
  if hostUp s && s.host.cfgReady && (n == 0 || (decide (n < 64) && s.host.vfEnable)) then some (configReg s n off) else none

end Machine
end Sys2Proof
end

