-- ==== Sys2Proof/Safety.lean ====
section
/-! DEFINITION. The terms that claims use: the canonical form of a state's memory, legal settings, when an instruction
issues, and what it leaves as it goes on. -/

namespace Sys2Proof
namespace Machine

/-- Tiers 1, 2 and 4 and the scratchpad of every core are in canonical form. -/
def State.memWf (s : State) : Prop :=
  Memory.wf s.mem.cells = true ∧ ∀ e ∈ s.cores, Memory.wf e.2.sp = true

/-- The settings that the module keeps within bounds whatever is written: SUSTAINED_W (Table 1.10), the LATE limits and GROUPS
(Tables 8.9, 8.10), QUANTUM_US (Table 15.7), NAP_AFTER_US (Table 18.8), REPLAY_MAX (Table 10.13), and the sum of MAX_ACTIVE
(R303). -/
structure State.Legal (s : State) : Prop where
  cap : 1000 ≤ s.clk.sustainedW ∧ s.clk.sustainedW ≤ 3200
  late : 960 ≤ s.mem.lateT2 ∧ 960 ≤ s.mem.lateT3 ∧ 960 ≤ s.mem.lateT4
  groups : s.mem.hintGroups ≤ 2
  quantum : 100 ≤ s.quantumUs ∧ s.quantumUs ≤ 100000
  nap : 10 ≤ s.pwr.napAfterUs
  replay : ∀ p, 1 ≤ (getPort s p).replayMax ∧ (getPort s p).replayMax ≤ 7
  reserved : maxActiveSum s ≤ 65536

/-- The agent's context is `n`, and the word at hand issues as one of the row: the agent may issue, its code word was fetched
without a fault, the word is the row's and legal, its predicate selects it, and the agent admits it (R88 to R90, R99). -/
abbrev Issues (row : Row) (s : State) (a : Agent) (n : Nat) (w : Word) : Prop :=
  ctxOf s a = some n ∧ canIssue s a n = true ∧ iClass w = row.cls ∧ iMajor w = row.maj ∧ row.sub w = true ∧
  fetchFault s a = none ∧ legalFor row s a w = true ∧ selected (threadOf s a) w = true ∧ admits row s a w = true

/-- The word at hand reaches the checks of the row: as `Issues`, but whether it is legal and selected is open. -/
abbrev Reaches (row : Row) (s : State) (a : Agent) (n : Nat) (w : Word) : Prop :=
  ctxOf s a = some n ∧ canIssue s a n = true ∧ iClass w = row.cls ∧ iMajor w = row.maj ∧ row.sub w = true ∧
  fetchFault s a = none

/-- What a context fault of an instruction leaves (R100). -/
def faultEnd (s : State) (a : Agent) (n code : Nat) (w : Word) : State :=
  ctxFault s n (faultOf s a code 0 w (threadOf s a).ip (threadOf s a).block)

/-- The state `t` that an instruction of `a` leaves, gone on to the next instruction of its thread. -/
def thenNext (s t : State) (a : Agent) (n : Nat) : State := advance t a n ((threadOf s a).ip + 1)

/-- A command `op` of the commit window reaches request `r` of context `n`, and nothing decides before the command itself: the
request is live, not evicted, not cancelled (R305 to R308). -/
abbrev Commits (s : State) (n req op : Nat) (w0 : Word) (r : Request) : Prop :=
  canIssue s (.ctl n) n = true ∧ fld w0 63 60 = op ∧ fld w0 57 56 = 0 ∧ getReq s req = some r ∧ r.ctx = some n ∧
  rqLive r = true ∧ r.state ≠ rqEvicted ∧ r.cancelPending = false

/-- The state with the command in the context's control core's journal (R400). -/
def journaled (s : State) (n req : Nat) : State := journal s (controlCoreOf n) 3 req true

/-- The request's slot answers with a result and a value, its W0 as stored (R305, R306). -/
def answered (s : State) (n req : Nat) (w0 : Word) (res val : Nat) : State :=
  modReq (storeW0 s n req w0) req fun r => { r with result := res, value := val }

/-- What a BIND that asks for more tokens finds for its request, bound: a last page set of its own, then room (R311, R315). -/
def bindGrown (s : State) (n req ix pool : Nat) (w0 : Word) (r : Request) (m : Model) : Grown :=
  match cowLast (setReq (journaled s n req) req { r with bound := true, boundEpoch := bindEpochOf s ix m }) req pool 65537 with
  | .room t => growLoop t req pool (fld w0 55 52) (fld w0 51 48) (bindEpochOf s ix m) (r.kvLen + fld w0 47 32) 66000
  | g => g

/-- The dispatch slot answers likewise (R309). -/
def dispatched (s : State) (n : Nat) (w0 : Word) (res val : Nat) : State :=
  modCtx (storeW0 s n dispatchKey w0) n fun x => { x with dispResult := res, dispValue := val }

/-- Firmware takes a doorbell of the partition as it arrives, and `t` is the state with the partition's turn taken (R373, R418). -/
abbrev AtOnce (s t : State) (p : Nat) (c : Instr) : Prop := accepting s p = true ∧ bellAtOnce s p c = true ∧ t = takeTurn s p

/-- An ordered flit of a source and class comes in its turn from a present source, and `u` is the state with its ESEQ taken (R271). -/
abbrev InTurn (s u : State) (src cls eseq : Nat) : Prop :=
  peerPresent s src = true ∧ eseq = eseqWanted s src cls ∧ u = eseqTaken s src cls

/-- The state `t` that a flit in its turn leaves, followed by those that came early and are next now (R271). -/
def withEarly (s t : State) (src cls : Nat) : State := deliverEarly s.peers.early.length src cls t

/-- The state with the command at HEAD read and in the journal, the turn taken (R373). -/
def commandLogged (s : State) (p : Nat) : State :=
  journal (takeTurn (fetchEntry s p).2 p) 0 7 (cmdSubject (fetchEntry s p).2 p) false

/-- The command ring of a partition has an entry at HEAD that firmware takes, readable, with an OP and its other fields 0 (R419,
R420). -/
abbrev Commanded (s : State) (p op : Nat) : Prop :=
  cmdReady s p = true ∧ (fetchEntry s p).1 = false ∧ cmdWord s p 0 / 2 ^ 56 = op ∧ cmdFieldsOk (commandLogged s p) p op = true

end Machine

open Machine

/-- The row, agent and word of an instruction's command; NOTIFY, which shares its word with SMEM_STORE, apart. -/
def Instr.rowOf : Instr → Option (Row × Agent × Word)
  | .mma a w => some (rowMma, a, w)
  | .agset a w => some (rowAgset, a, w)
  | .agopen a w => some (rowAgopen, a, w)
  | .agout a w => some (rowAgout, a, w)
  | .atts a w => some (rowAtts, a, w)
  | .attv a w => some (rowAttv, a, w)
  | .vfn a w => some (rowVfn, a, w)
  | .cvt a w => some (rowCvt, a, w)
  | .vred a w => some (rowVred, a, w)
  | .vcmp a w => some (rowVcmp, a, w)
  | .pep a w => some (rowPep, a, w)
  | .ldt a w => some (rowLdt, a, w)
  | .stt a w => some (rowStt, a, w)
  | .movt a w => some (rowMovt, a, w)
  | .pfsArm a w => some (rowPfs 0, a, w)
  | .pfsStop a w => some (rowPfs 1, a, w)
  | .rcfg a w => some (rowRcfg, a, w)
  | .ringCommit a w => some (rowRing 0, a, w)
  | .ringRelease a w => some (rowRing 1, a, w)
  | .ringSwap a w => some (rowRing 2, a, w)
  | .qcfg a w => some (rowQcfg, a, w)
  | .qsend a w => some (rowQsend, a, w)
  | .qrecv a w => some (rowQrecv, a, w)
  | .qheld a w => some (rowQheld, a, w)
  | .qrel a w => some (rowQrel, a, w)
  | .qsum a w => some (rowQsum, a, w)
  | .fence a w => some (rowFence, a, w)
  | .bar a w => some (rowBar, a, w)
  | .start a w => some (rowStart, a, w)
  | .cg a w => some (rowCg, a, w)
  | .epochEnter a w => some (rowEpoch false, a, w)
  | .epochLeave a w => some (rowEpoch true, a, w)
  | .coll a w => some (rowColl, a, w)
  | .gflag a w => some (rowGflag, a, w)
  | .reshard a w => some (rowReshard, a, w)
  | .updopOpen a w => some (rowUpdop, a, w)
  | .updopNorm a w => some (rowUpdop, a, w)
  | .updopStep a w => some (rowUpdop, a, w)
  | .updopRegen a w => some (rowUpdop, a, w)
  | .updopFlush a w => some (rowUpdop, a, w)
  | .updopKvgather a w => some (rowUpdop, a, w)
  | .updacc a w => some (rowUpdacc, a, w)
  | .updclose a w => some (rowUpdclose, a, w)
  | .salu a w => some (rowSalu, a, w)
  | .scmp a w => some (rowScmp, a, w)
  | .br a w => some (rowBr, a, w)
  | .smemLoad a w => some (rowSmemLoad, a, w)
  | .smemStore a w => some (rowSmemStore, a, w)
  | .dwr a w => some (rowDwr, a, w)
  | .bend a w => some (rowFlow 0 true false, a, w)
  | .halt a w => some (rowFlow 1 false true, a, w)
  | .yield a w => some (rowFlow 2 true true, a, w)
  | .nop a w => some (rowFlow 3 true true, a, w)
  | .rdsysTick a w => some (rowRdsys 0, a, w)
  | .rdsysStatus a w => some (rowRdsys 1, a, w)
  | .rdsysCounter a w => some (rowRdsys 2, a, w)
  | .rdsysContext a w => some (rowRdsys 3, a, w)
  | .rdsysPeer a w => some (rowRdsys 4, a, w)
  | .rdsysCtxRegister a w => some (rowRdsys 5, a, w)
  | .loadp a w => some (rowLoadp, a, w)
  | .sumarm a w => some (rowSumarm, a, w)
  | .sumget a w => some (rowSumget, a, w)
  | .cores a w => some (rowCores, a, w)
  | .illegalInstruction a w => some (rowIllegal w, a, w)
  | _ => none

end Sys2Proof
end

