-- ==== Sys2Proof/Certificates/Slice0/Obligations.lean ====
section
/-! DEFINITION. The statements for the provers. -/

open Sys2Proof Sys2Proof.Machine

/-! ### The queue and the clock -/

/-- A step with a command in front runs it on the state with the queue's rest. -/
def Obligations.StepRunsFront : Prop :=
  ∀ (s : State) (c : Instr) (rest : List Instr), step { s with pending := c :: rest } = exec c { s with pending := rest }

/-- A step on an empty queue is one tick of the 48 MHz clock while the always-on domain runs, and nothing in Off (R23; the model's
choice, log 3). A tick alone writes no memory: only doorbells that wait, a Hold request that was accepted, a write of the module's own that waits
for a back-invalidate response, or a speed test that ends, let it do more. -/
def Obligations.IdleStepTicks : Prop :=
  (∀ s : State, s.pending = [] → s.pwr.off = false →
    ∃ t, step s = .next t ∧ t.clk.tick = s.clk.tick + 1 ∧ t.pending = []) ∧
  (∀ s : State, s.pending = [] → s.pwr.off = false → bellCount s = 0 → s.pwr.holdAsked = false → s.host.fwWaits = [] →
    s.pwr.speedTest = none →
    ∃ t, step s = .next t ∧ t.mem.cells = s.mem.cells ∧ t.mem.tags = s.mem.tags ∧ t.rollout = s.rollout ∧ t.models = s.models) ∧
  (∀ s : State, s.pending = [] → s.pwr.off = true → step s = .next s)

/-! ### Instructions: whether they issue (R88 to R90, R99) -/

/-- R90, with R88, R89 and R130: an instruction that its predicate does not select only takes its issue slot; the checks of R88 are
made all the same; one that is selected is checked for its agent and its extension word too. -/
def Obligations.IssueRules : Prop :=
  (∀ (i : Instr) (row : Row) (a : Agent) (w : Word) (s : State) (n : Nat), i.rowOf = some (row, a, w) → Reaches row s a n w →
    legalFor row s a w = true → selected (threadOf s a) w = false → exec i s = .next (thenNext s s a n)) ∧
  (∀ (i : Instr) (row : Row) (a : Agent) (w : Word) (s : State) (n : Nat), i.rowOf = some (row, a, w) → Reaches row s a n w →
    legalFor row s a w = false → exec i s = .next (faultEnd s a n 0x01 w)) ∧
  (∀ (i : Instr) (row : Row) (a : Agent) (w : Word) (s : State) (n : Nat), i.rowOf = some (row, a, w) → Reaches row s a n w →
    legalFor row s a w = true → selected (threadOf s a) w = true → admits row s a w = false →
    exec i s = .next (faultEnd s a n 0x01 w))

/-- R42, R357: an instruction of an agent that may not issue has no effect (the model's choice for an unmet precondition, log
1). -/
def Obligations.NoIssueNoEffect : Prop :=
  ∀ (i : Instr) (row : Row) (a : Agent) (w : Word) (s : State), i.rowOf = some (row, a, w) →
    (∀ n, ctxOf s a = some n → canIssue s a n = false) → exec i s = .next s

/-! ### Scalar instructions (R156 to R163) -/

/-- R156: SALU writes FN of its operands to s[DST]; with EXT, the sum with the extension word. -/
def Obligations.SaluRule : Prop :=
  (∀ (s : State) (a : Agent) (n : Nat) (w : Word), Issues rowSalu s a n w → iExt w = false →
    exec (.salu a w) s = .next (thenNext s (putS s a (iDst w) (saluFn (bits (iImm w) 31 26) (sOf s a (iSrc1 w))
      (if bit (iImm w) 25 then imm25 w else sOf s a (iSrc2 w)))) a n)) ∧
  (∀ (s : State) (c t n : Nat) (w : Word), Issues rowSalu s (.thread c t) n w → iExt w = true →
    exec (.salu (.thread c t) w) s = .next (thenNext s (putS s (.thread c t) (iDst w)
      (sOf s (.thread c t) (iSrc1 w) + codeWord (getCore s c) (iImm w))) (.thread c t) n)) ∧
  (∀ (s s' : State) (m n : Nat) (w b : Word), Issues rowSalu s (.ctl m) n w → iExt w = true →
    extWord s (.ctl m) n w = (.ok b, s') →
    exec (.salu (.ctl m) w) s = .next (thenNext s (putS s' (.ctl m) (iDst w) (sOf s (.ctl m) (iSrc1 w) + b)) (.ctl m) n)) ∧
  (∀ (s : State) (a : Agent) (n : Nat) (w : Word), Reaches rowSalu s a n w → iExt w = false → 0xA < bits (iImm w) 31 26 →
    exec (.salu a w) s = .next (faultEnd s a n 0x01 w)) ∧
  (∀ x b : Word, saluFn 0 x b = x + b ∧ saluFn 1 x b = x - b ∧ saluFn 2 x b = x * b ∧ saluFn 3 x b = x &&& b ∧
    saluFn 4 x b = x ||| b ∧ saluFn 5 x b = x ^^^ b ∧ saluFn 6 x b = x <<< (b.toNat % 64) ∧ saluFn 7 x b = x >>> (b.toNat % 64) ∧
    saluFn 8 x b = x.sshiftRight (b.toNat % 64) ∧ (saluFn 9 x b).toNat = min x.toNat b.toNat ∧
    (saluFn 0xA x b).toNat = max x.toNat b.toNat) ∧
  (∀ w : Word, (imm25 w).toInt = if iImm w % 2 ^ 25 < 2 ^ 24 then ((iImm w % 2 ^ 25 : Nat) : Int)
    else ((iImm w % 2 ^ 25 : Nat) : Int) - 2 ^ 25) ∧
  (∀ (s : State) (a : Agent), sOf s a 0 = 0)

/-- R157: SCMP writes the comparison CC of its operands to p[DST]; a reserved CC, a reserved bit or EXT is an illegal
instruction. -/
def Obligations.ScmpRule : Prop :=
  (∀ (s : State) (a : Agent) (n : Nat) (w : Word), Issues rowScmp s a n w →
    exec (.scmp a w) s = .next (thenNext s (modThread s a fun t => setP t (iDst w) (scmpCc (bits (iImm w) 31 29)
      (sOf s a (iSrc1 w)) (if bit (iImm w) 28 then imm25 w else sOf s a (iSrc2 w)))) a n)) ∧
  (∀ x b : Word, scmpCc 0 x b = decide (x = b) ∧ scmpCc 1 x b = decide (x ≠ b) ∧ scmpCc 2 x b = decide (x.toInt < b.toInt) ∧
    scmpCc 3 x b = decide (x.toInt ≤ b.toInt) ∧ scmpCc 4 x b = decide (x.toNat < b.toNat) ∧
    scmpCc 5 x b = decide (x.toNat ≤ b.toNat)) ∧
  (∀ w : Word, (imm25 w).toInt = if iImm w % 2 ^ 25 < 2 ^ 24 then ((iImm w % 2 ^ 25 : Nat) : Int)
    else ((iImm w % 2 ^ 25 : Nat) : Int) - 2 ^ 25) ∧
  (∀ (s : State) (a : Agent) (n : Nat) (w : Word), Reaches rowScmp s a n w →
    (5 < bits (iImm w) 31 29 ∨ bits (iImm w) 27 25 ≠ 0 ∨ iExt w = true) → exec (.scmp a w) s = .next (faultEnd s a n 0x01 w))

/-- R160: DWR writes s[SRC1] into one word of a descriptor, whatever the words then hold. -/
def Obligations.DwrRule : Prop :=
  (∀ (s : State) (a : Agent) (n : Nat) (w : Word), Issues rowDwr s a n w →
    exec (.dwr a w) s = .next (thenNext s (putD s a (iDst w) (setDw (dOf s a (iDst w)) (bits (iImm w) 1 0)
      (sOf s a (iSrc1 w)))) a n)) ∧
  (∀ (d : BitVec 256) (k j : Nat) (v : Word), k < 4 → j < 4 → dw (setDw d k v) j = if j = k then v else dw d j) ∧
  (∀ (s : State) (a : Agent) (n : Nat) (w : Word), Reaches rowDwr s a n w → bits (iImm w) 31 2 ≠ 0 →
    exec (.dwr a w) s = .next (faultEnd s a n 0x01 w))

/-- R158, R161, R162, R99: what BR, NOP and the RDSYS selectors leave, whole; RDSYS of a counter or register that is not the
context's own is fault 0x04: a context fault on a core; on a control thread it goes to the status register. -/
def Obligations.ScalarResults : Prop :=
  (∀ (s : State) (a : Agent) (n : Nat) (w : Word), Issues rowBr s a n w →
    exec (.br a w) s = .next (advance s a n
      (if bit (iImm w) 31 then (sOf s a (iSrc1 w)).toNat % 65536 else iImm w % 65536))) ∧
  (∀ (s : State) (a : Agent) (n : Nat) (w : Word), Issues (rowFlow 3 true true) s a n w →
    exec (.nop a w) s = .next (thenNext s s a n)) ∧
  (∀ (s : State) (a : Agent) (n : Nat) (w : Word), Issues (rowRdsys 0) s a n w →
    exec (.rdsysTick a w) s = .next (thenNext s (putS s a (iDst w) (w64 s.clk.tick)) a n)) ∧
  (∀ (s : State) (c t n : Nat) (w : Word), Issues (rowRdsys 1) s (.thread c t) n w →
    exec (.rdsysStatus (.thread c t) w) s = .next (thenNext s (putS s (.thread c t) (iDst w) 0) (.thread c t) n)) ∧
  (∀ (s : State) (m n : Nat) (w : Word), Issues (rowRdsys 1) s (.ctl m) n w →
    exec (.rdsysStatus (.ctl m) w) s = .next (thenNext s (putS
      (modCtx s n fun x => { x with ctl := { x.ctl with status := 0 } }) (.ctl m) (iDst w) (getCtx s n).ctl.status) (.ctl m) n)) ∧
  (∀ (s : State) (a : Agent) (n : Nat) (w v : Word), Issues (rowRdsys 2) s a n w → ownCounter s n (rdsysOff s a w) = some v →
    exec (.rdsysCounter a w) s = .next (thenNext s (putS s a (iDst w) v) a n)) ∧
  (∀ (s : State) (a : Agent) (n : Nat) (w : Word), Issues (rowRdsys 3) s a n w →
    exec (.rdsysContext a w) s = .next (thenNext s (putS s a (iDst w) (w64 n)) a n)) ∧
  (∀ (s : State) (a : Agent) (n : Nat) (w : Word), Issues (rowRdsys 4) s a n w →
    exec (.rdsysPeer a w) s = .next (thenNext s (putS s a (iDst w) (w64 s.peers.self)) a n)) ∧
  (∀ (s : State) (a : Agent) (n v : Nat) (w : Word), Issues (rowRdsys 5) s a n w →
    ctxCounter (getCtx s n) (rdsysOff s a w) = some v →
    exec (.rdsysCtxRegister a w) s = .next (thenNext s (putS s a (iDst w) (w64 v)) a n)) ∧
  (∀ (s : State) (c t n : Nat) (w : Word), Issues (rowRdsys 2) s (.thread c t) n w →
    ownCounter s n (rdsysOff s (.thread c t) w) = none →
    exec (.rdsysCounter (.thread c t) w) s = .next (ctxFault s n (faultOf s (.thread c t) 0x04 0 w
      (threadOf s (.thread c t)).ip (threadOf s (.thread c t)).block))) ∧
  (∀ (s : State) (m n : Nat) (w : Word), Issues (rowRdsys 5) s (.ctl m) n w →
    ctxCounter (getCtx s n) (rdsysOff s (.ctl m) w) = none →
    exec (.rdsysCtxRegister (.ctl m) w) s = .next (thenNext s (modCtx s n fun x =>
      { x with ctl := { x.ctl with status := w64 (0x04 + ((threadOf s (.ctl m)).ip % 65536) <<< 16) } }) (.ctl m) n))

/-- R159, R422: SMEM on a core reads or writes one 8-byte word of the scratchpad. -/
def Obligations.SmemResults : Prop :=
  (∀ (s s' : State) (c t n : Nat) (w : Word), Issues rowSmemLoad s (.thread c t) n w →
    guardSp s c t [(smemAddr s (.thread c t) w % spSize, 8)] [] = .ok s' →
    spPoisoned (getCore s' c) (smemAddr s (.thread c t) w % spSize) 8 = false →
    exec (.smemLoad (.thread c t) w) s = .next (thenNext s (putS s' (.thread c t) (iDst w)
      (w64 (leNat (spRead (getCore s' c) (smemAddr s (.thread c t) w % spSize) 8)))) (.thread c t) n)) ∧
  (∀ (s : State) (m n : Nat) (w v : Word), Issues rowSmemLoad s (.ctl m) n w → (threadOf s (.ctl m)).woken = none →
    windowLoad s n (smemAddr s (.ctl m) w) = some (.ok v) →
    exec (.smemLoad (.ctl m) w) s = .next (thenNext s (putS s (.ctl m) (iDst w) v) (.ctl m) n)) ∧
  (∀ (s : State) (m n v : Nat) (w : Word), Issues rowSmemLoad s (.ctl m) n w → (threadOf s (.ctl m)).woken = some v →
    v < smemPoison → exec (.smemLoad (.ctl m) w) s = .next (thenNext s (putS s (.ctl m) (iDst w) (w64 v)) (.ctl m) n)) ∧
  (∀ (s s' : State) (c t n : Nat) (w : Word), Issues rowSmemStore s (.thread c t) n w →
    hitsCode (getCore s c) (smemAddr s (.thread c t) w % spSize) 8 = false →
    guardSp s c t [] [(smemAddr s (.thread c t) w % spSize, 8)] = .ok s' →
    exec (.smemStore (.thread c t) w) s = .next (thenNext s (modCore s' c fun x =>
      spWrite x (smemAddr s (.thread c t) w % spSize) (leBytes 8 (sOf s (.thread c t) (iSrc2 w)).toNat) false) (.thread c t) n)) ∧
  (∀ (s : State) (m n pa : Nat) (w : Word), Issues rowSmemStore s (.ctl m) n w →
    windowStore s n (smemAddr s (.ctl m) w) (sOf s (.ctl m) (iSrc2 w)) = none →
    translate s n (smemAddr s (.ctl m) w) true = .ok pa →
    ∃ r : MReq, r.isWrite = true ∧ r.pa = grainBase pa ∧ r.dest = .merge (smemAddr s (.ctl m) w % 256) 8 ∧
      r.data = leBytes 8 (sOf s (.ctl m) (iSrc2 w)).toNat ∧
      exec (.smemStore (.ctl m) w) s = .next (thenNext s (addReq s r) (.ctl m) n)) ∧
  (∀ (s : State) (m n : Nat) (w : Word), Issues rowSmemStore s (.ctl m) n w → smemAddr s (.ctl m) w = winNotify →
    fld (sOf s (.ctl m) (iSrc2 w)) 63 11 = 0 →
    fld (sOf s (.ctl m) (iSrc2 w)) 10 0 < (partEntry s (getCtx s n).part).vecCount →
    exec (.notify (.ctl m) w) s = .next (thenNext s
      (msixRequest s (getCtx s n).part (fld (sOf s (.ctl m) (iSrc2 w)) 10 0) false) (.ctl m) n))

/-- R41, R161: BEND ends the instance; HALT tears the context down with reason 0 (R360); YIELD restores what stands behind.
R163, R77, R95, R364: SUMARM arms a mailbox; SUMGET takes its oldest result; LOADP of cores of the context starts the load, and
completes OK once woken; CORES asks for cores and completes with the count granted. -/
def Obligations.FlowAndControl : Prop :=
  (∀ (s : State) (c t n : Nat) (w : Word), Issues (rowFlow 0 true false) s (.thread c t) n w →
    exec (.bend (.thread c t) w) s = .next (coresStep (endInstance s c t) n)) ∧
  (∀ (s : State) (m n : Nat) (w : Word), Issues (rowFlow 1 false true) s (.ctl m) n w →
    exec (.halt (.ctl m) w) s = .next (beginTeardown s n (some 0))) ∧
  (∀ (s : State) (a : Agent) (n : Nat) (w : Word), Issues (rowFlow 2 true true) s a n w →
    exec (.yield a w) s = .next (thenNext s ((behind s n).foldl tryRestore s) a n)) ∧
  (∀ (s : State) (a : Agent) (n : Nat) (w : Word), ctxOf s a = some n → canIssue s a n = true → fetchFault s a = none → reservedCode w = true →
    exec (.illegalInstruction a w) s =
      .next (ctxFault s n (faultOf s a 0x01 0 w (threadOf s a).ip (threadOf s a).block))) ∧
  (∀ (s : State) (m n : Nat) (w : Word), Issues rowSumarm s (.ctl m) n w →
    fld (sOf s (.ctl m) (iSrc1 w)) 58 57 = 0 → fld (sOf s (.ctl m) (iSrc1 w)) 52 32 = 0 →
    isSumKind (fld (sOf s (.ctl m) (iSrc1 w)) 63 60) = true →
    (tget MailSlot.reset (getCtx s n).mail (mailKey (fld (sOf s (.ctl m) (iSrc1 w)) 56 53)
      (fld (sOf s (.ctl m) (iSrc1 w)) 59 59))).armed = none →
    exec (.sumarm (.ctl m) w) s = .next (thenNext s (mailSettle (modCtx s n fun x => { x with
      mail := tput x.mail (mailKey (fld (sOf s (.ctl m) (iSrc1 w)) 56 53) (fld (sOf s (.ctl m) (iSrc1 w)) 59 59))
        { tget MailSlot.reset (getCtx s n).mail (mailKey (fld (sOf s (.ctl m) (iSrc1 w)) 56 53)
            (fld (sOf s (.ctl m) (iSrc1 w)) 59 59)) with
          armed := some (fld (sOf s (.ctl m) (iSrc1 w)) 63 60, fld (sOf s (.ctl m) (iSrc1 w)) 31 0) } })
      n (fld (sOf s (.ctl m) (iSrc1 w)) 56 53) (fld (sOf s (.ctl m) (iSrc1 w)) 59 59)) (.ctl m) n)) ∧
  (∀ (s : State) (m n : Nat) (w v low : Word) (rest : List (Word × Word)), Issues rowSumget s (.ctl m) n w →
    (tget MailSlot.reset (getCtx s n).mail (mailKey (bits (iImm w) 3 0) (bits (iImm w) 4 4))).results = (v, low) :: rest →
    exec (.sumget (.ctl m) w) s = .next (thenNext s (putS (putS (modCtx s n fun x => { x with
      mail := tput x.mail (mailKey (bits (iImm w) 3 0) (bits (iImm w) 4 4))
        { tget MailSlot.reset (getCtx s n).mail (mailKey (bits (iImm w) 3 0) (bits (iImm w) 4 4)) with results := rest } })
      (.ctl m) (iDst w) v) (.ctl m) (iSrc2 w) low) (.ctl m) n)) ∧
  (∀ (s : State) (m n : Nat) (w : Word), Issues rowLoadp s (.ctl m) n w → (threadOf s (.ctl m)).woken = some 0 →
    exec (.loadp (.ctl m) w) s = .next (thenNext s (putS s (.ctl m) (iDst w) 0) (.ctl m) n)) ∧
  (∀ (s : State) (m n c : Nat) (w : Word), Issues rowLoadp s (.ctl m) n w → (threadOf s (.ctl m)).woken = none →
    (sOf s (.ctl m) (iSrc1 w)).toNat % 256 = 0 → bits (iImm w) 10 0 = 1 → (sOf s (.ctl m) (iSrc2 w)).toNat = c →
    c ∈ (getCtx s n).coreset →
    ∃ t, exec (.loadp (.ctl m) w) s = .next t ∧ (getCore t c).loading = true ∧
      (getCtx t n).loadp = some { va := (sOf s (.ctl m) (iSrc1 w)).toNat, cores := [c], failed := none }) ∧
  (∀ (s : State) (m n k : Nat) (w : Word), Issues rowCores s (.ctl m) n w → (threadOf s (.ctl m)).woken = some k →
    exec (.cores (.ctl m) w) s = .next (thenNext s (putS s (.ctl m) (iDst w) (w64 k)) (.ctl m) n)) ∧
  (∀ (s : State) (m n : Nat) (w : Word), Issues rowCores s (.ctl m) n w → (threadOf s (.ctl m)).woken = none →
    exec (.cores (.ctl m) w) s = .next (askCores (journal (parkAgent s (.ctl m) 6 .coreSet) (controlCoreOf n) 6 n false) n
      (sOf s (.ctl m) (iSrc1 w)).toNat))

/-! ### The matrix engine (R81, R112 to R119, R194) -/

/-- R113: AGSET copies the fields of s[SRC1] into a group that is not open, without a check of their range. -/
def Obligations.AgsetRule : Prop :=
  (∀ (s : State) (c t n : Nat) (w v : Word), Issues rowAgset s (.thread c t) n w → sOf s (.thread c t) (iSrc1 w) = v →
    fld v 63 62 = 0 → fld v 35 21 = 0 → (getAg (getCore s c) (iDst w)).isOpen = false →
    exec (.agset (.thread c t) w) s = .next (thenNext s (modCore s c fun x => setAg x (iDst w)
      { getAg (getCore s c) (iDst w) with acc := fld v 61 60, rows := fld v 59 48, cols := fld v 47 36, base := fld v 20 0 })
      (.thread c t) n)) ∧
  (∀ (s : State) (c t n : Nat) (w v : Word), Issues rowAgset s (.thread c t) n w → sOf s (.thread c t) (iSrc1 w) = v →
    (fld v 63 62 ≠ 0 ∨ fld v 35 21 ≠ 0 ∨ (getAg (getCore s c) (iDst w)).isOpen = true) →
    exec (.agset (.thread c t) w) s = .next (faultEnd s (.thread c t) n 0x02 w)) ∧
  (∀ (s : State) (c t n : Nat) (w : Word), Reaches rowAgset s (.thread c t) n w → iImm w ≠ 0 →
    exec (.agset (.thread c t) w) s = .next (faultEnd s (.thread c t) n 0x01 w))

/-- R81, R114, R115: AGOPEN opens a closed group and clears SAT, with zeros where it is told to; AGOUT writes the group to its
output tile and closes it unless KEEP is set. -/
def Obligations.GroupResults : Prop :=
  (∀ (s : State) (c t n : Nat) (w : Word), Issues rowAgopen s (.thread c t) n w →
    (getAg (getCore s c) (iDst w)).isOpen = false → agAreaOk (getCore s c) (getAg (getCore s c) (iDst w)) = true →
    bit (iImm w) 0 = false →
    exec (.agopen (.thread c t) w) s = .next (thenNext s (modCore s c fun x => setAg x (iDst w)
      { getAg (getCore s c) (iDst w) with isOpen := true, sat := false }) (.thread c t) n)) ∧
  (∀ (s s' : State) (c t n : Nat) (w : Word), Issues rowAgopen s (.thread c t) n w →
    (getAg (getCore s c) (iDst w)).isOpen = false → agAreaOk (getCore s c) (getAg (getCore s c) (iDst w)) = true →
    bit (iImm w) 0 = true → (getAg (getCore s c) (iDst w)).area.2 ≠ 0 →
    guardSp s c t [] [(getAg (getCore s c) (iDst w)).area] = .ok s' →
    exec (.agopen (.thread c t) w) s = .next (thenNext s (modCore s' c fun x =>
      setAg (spPut x [((getAg (getCore s c) (iDst w)).base, zeros (getAg (getCore s c) (iDst w)).area.2)] []) (iDst w)
        { getAg (getCore s c) (iDst w) with isOpen := true, sat := false }) (.thread c t) n)) ∧
  (∀ (s s' : State) (c t n : Nat) (w : Word) (o : Tile) (g : AccGroup), Issues rowAgout s (.thread c t) n w →
    getAg (getCore s c) (iSrc1 w) = g → bits (iImm w) 31 30 = 0 →
    rndOk (getCtx s n).num.s5emu (bits (iImm w) 27 25) = true →
    tileFor (getCtx s n).num.s5emu (getCore s c) (dOf s (.thread c t) (iDst w)) = some o →
    g.isOpen = true → o.rows = g.rows → o.cols = g.cols → o.fmt ≠ 0 → o.fmt ≠ 0xC → 0 < g.rows → 0 < g.cols →
    runsHit o.runs [g.area] = false → guardSp s c t [g.area] o.runs = .ok s' →
    exec (.agout (.thread c t) w) s = .next (thenNext s (modThread (agoutRun s' (.thread c t) n c w o none).1 (.thread c t)
      (writeEpe (bit (iImm w) 22) (bits (iImm w) 21 19) (agoutRun s' (.thread c t) n c w o none).2)) (.thread c t) n)) ∧
  (∀ (s s' : State) (c t n : Nat) (w : Word) (o e : Tile) (g : AccGroup), Issues rowAgout s (.thread c t) n w →
    getAg (getCore s c) (iSrc1 w) = g → bits (iImm w) 31 30 ≠ 0 →
    rndOk (getCtx s n).num.s5emu (bits (iImm w) 27 25) = true →
    tileFor (getCtx s n).num.s5emu (getCore s c) (dOf s (.thread c t) (iDst w)) = some o →
    tileFor (getCtx s n).num.s5emu (getCore s c) (dOf s (.thread c t) (iSrc2 w)) = some e →
    (e.rows, e.cols) = bcShape (bits (iImm w) 29 28) g.rows g.cols → (g.acc = 1 → isIntF o.fmt = false) →
    g.isOpen = true → o.rows = g.rows → o.cols = g.cols → o.fmt ≠ 0 → o.fmt ≠ 0xC → 0 < g.rows → 0 < g.cols →
    runsHit o.runs (g.area :: e.runs) = false → guardSp s c t (g.area :: e.runs) o.runs = .ok s' →
    exec (.agout (.thread c t) w) s = .next (thenNext s (modThread (agoutRun s' (.thread c t) n c w o (some e)).1 (.thread c t)
      (writeEpe (bit (iImm w) 22) (bits (iImm w) 21 19) (agoutRun s' (.thread c t) n c w o (some e)).2)) (.thread c t) n))

/-- R112, R116 to R118: what MMA, ATTS and ATTV write, whole: every partial sum of the group's rows and columns that they give a
new value. R112, R119: the matrix engine stops with a descriptor fault (0x02) on a group that is not open, and on a class that
the formats do not fit. -/
def Obligations.MatrixResults : Prop :=
  (∀ (s s' : State) (c t n : Nat) (w : Word) (ta tb : Tile) (g : AccGroup), Issues rowMma s (.thread c t) n w →
    getAg (getCore s c) (iDst w) = g →
    tileFor (getCtx s n).num.s5emu (getCore s c) (dOf s (.thread c t) (iSrc1 w)) = some ta →
    tileFor (getCtx s n).num.s5emu (getCore s c) (dOf s (.thread c t) (iSrc2 w)) = some tb →
    g.isOpen = true → g.acc = b2n (intClass (bits (iImm w) 31 29)) → classFits (bits (iImm w) 31 29) ta.fmt tb.fmt = true →
    ta.cols = tb.cols → g.rows = ta.rows → g.cols = tb.rows → 0 < ta.rows → 0 < tb.rows → 0 < ta.cols →
    runsHit (ta.runs ++ tb.runs) [g.area] = false → guardSp s c t (g.area :: (ta.runs ++ tb.runs)) [g.area] = .ok s' →
    exec (.mma (.thread c t) w) s = .next (thenNext s (mmaRun s' n c (bits (iImm w) 31 29) (iDst w) (bit (iImm w) 28) ta tb)
      (.thread c t) n)) ∧
  (∀ (s s' : State) (c t n : Nat) (w e pos : Word) (q : AttsArgs) (tq tk : Tile) (g : AccGroup),
    Issues rowAtts s (.thread c t) n w →
    getAg (getCore s c) (iDst w) = g → codeWord (getCore s c) (iImm w) = e → sOf s (.thread c t) (iSrc3 w) = pos →
    fld e 16 0 = 0 → attsArgs e pos = q →
    tileFor (getCtx s n).num.s5emu (getCore s c) (dOf s (.thread c t) (iSrc1 w)) = some tq →
    tileFor (getCtx s n).num.s5emu (getCore s c) (dOf s (.thread c t) (iSrc2 w)) = some tk →
    isFloat tq.fmt = true → isFloat tk.fmt = true → g.isOpen = true → g.acc = 0 → tq.cols = tk.cols → tq.rows = g.rows →
    q.col0 + tk.rows ≤ g.cols → 0 < tq.rows → 0 < tk.rows → 0 < tq.cols →
    runsHit (tq.runs ++ tk.runs) [g.area] = false → guardSp s c t (g.area :: (tq.runs ++ tk.runs)) [g.area] = .ok s' →
    exec (.atts (.thread c t) w) s = .next (thenNext s (modCore s' c fun x => writeGroup x g q.col0
      (gridOf tq.rows tk.rows (attsElem (getCtx s n).num.s5emu x g q tq tk))) (.thread c t) n)) ∧
  (∀ (s s' : State) (c t n : Nat) (w : Word) (tp tv : Tile) (g : AccGroup), Issues rowAttv s (.thread c t) n w →
    getAg (getCore s c) (iDst w) = g → bit (iImm w) 0 = false →
    tileFor (getCtx s n).num.s5emu (getCore s c) (dOf s (.thread c t) (iSrc1 w)) = some tp →
    tileFor (getCtx s n).num.s5emu (getCore s c) (dOf s (.thread c t) (iSrc2 w)) = some tv →
    isFloat tp.fmt = true → isFloat tv.fmt = true → g.isOpen = true → g.acc = 0 → tp.cols = tv.rows → g.rows = tp.rows →
    g.cols = tv.cols → 0 < tp.rows → 0 < tp.cols → 0 < tv.cols →
    runsHit (tp.runs ++ tv.runs) [g.area] = false → guardSp s c t (g.area :: (tp.runs ++ tv.runs)) [g.area] = .ok s' →
    exec (.attv (.thread c t) w) s = .next (thenNext s (modCore s' c fun x => writeGroup x g 0
      (gridOf g.rows g.cols (attvElem (getCtx s n).num.s5emu x g tp tv none))) (.thread c t) n)) ∧
  (∀ (s s' : State) (c t n : Nat) (w : Word) (tp tv tf : Tile) (g : AccGroup), Issues rowAttv s (.thread c t) n w →
    getAg (getCore s c) (iDst w) = g → bit (iImm w) 0 = true →
    tileFor (getCtx s n).num.s5emu (getCore s c) (dOf s (.thread c t) (iSrc1 w)) = some tp →
    tileFor (getCtx s n).num.s5emu (getCore s c) (dOf s (.thread c t) (iSrc2 w)) = some tv →
    tileFor (getCtx s n).num.s5emu (getCore s c) (dOf s (.thread c t) (iSrc3 w)) = some tf →
    tf.fmt = 1 → tf.rows = tp.rows → tf.cols = 1 →
    isFloat tp.fmt = true → isFloat tv.fmt = true → g.isOpen = true → g.acc = 0 → tp.cols = tv.rows → g.rows = tp.rows →
    g.cols = tv.cols → 0 < tp.rows → 0 < tp.cols → 0 < tv.cols →
    runsHit (tp.runs ++ tv.runs ++ tf.runs) [g.area] = false →
    guardSp s c t (g.area :: (tp.runs ++ tv.runs ++ tf.runs)) [g.area] = .ok s' →
    exec (.attv (.thread c t) w) s = .next (thenNext s (modCore s' c fun x => writeGroup x g 0
      (gridOf g.rows g.cols (attvElem (getCtx s n).num.s5emu x g tp tv (some tf)))) (.thread c t) n)) ∧
  (∀ (s : State) (c t n : Nat) (w : Word) (ta tb : Tile), Issues rowMma s (.thread c t) n w →
    tileFor (getCtx s n).num.s5emu (getCore s c) (dOf s (.thread c t) (iSrc1 w)) = some ta →
    tileFor (getCtx s n).num.s5emu (getCore s c) (dOf s (.thread c t) (iSrc2 w)) = some tb →
    (getAg (getCore s c) (iDst w)).isOpen = false ∨ classFits (bits (iImm w) 31 29) ta.fmt tb.fmt = false ∨ ta.cols ≠ tb.cols →
    exec (.mma (.thread c t) w) s = .next (ctxFault s n (faultOf s (.thread c t) 0x02 0 w
      (threadOf s (.thread c t)).ip (threadOf s (.thread c t)).block)))

/-- R194, R195: a recomputation takes the sample, counts it in its bin, and sends the alert where the bin asks for it and a word
of summary credit is free. R194: a value equal to the recomputed one falls into bin 0, two numbers into the bin of their
distance, and a number and a NaN into bin 7. -/
def Obligations.ShadowBlocks : Prop :=
  (∀ (s : State) (c n : Nat) (p : Sample), (getCore s c).sample = some p → (getCore s c).owner = some n →
    coreRuns s c = true → ((getCtx s n).num.shAlertEn = false ∨ sampleBin p < (getCtx s n).num.shAlertBin) →
    exec (.shadowRecompute c) s = .next (modCtx (modCore s c fun x => { x with sample := none }) n fun x => { x with num :=
      { x.num with shSampled := x.num.shSampled + 1
                   shBins := tput x.num.shBins (sampleBin p) (tget 0 x.num.shBins (sampleBin p) + 1) } })) ∧
  (∀ (s : State) (c n : Nat) (p : Sample), (getCore s c).sample = some p → (getCore s c).owner = some n →
    coreRuns s c = true → (getCtx s n).num.shAlertEn = true → (getCtx s n).num.shAlertBin ≤ sampleBin p →
    0 < (getCore s c).sumCredit →
    exec (.shadowRecompute c) s = .next (sendSummary (modCtx (modCore s c fun x => { x with sample := none }) n fun x =>
      { x with num := { x.num with shSampled := x.num.shSampled + 1
                                   shBins := tput x.num.shBins (sampleBin p) (tget 0 x.num.shBins (sampleBin p) + 1) } }) c
      { source := 0, kind := 4, round := 0, tag := (getCtx s n).num.shAlertTag, poison := false, value := 1 })) ∧
  (∀ m r : FVal, FVal.cmp m r = some 0 → shadowBin m r = 0) ∧
  (∀ m r : FVal, m.isNan = true → r.isNan = true → shadowBin m r = 0) ∧
  (∀ m r : FVal, m.isNan = true → r.isNan = false → shadowBin m r = 7) ∧
  (∀ m r : FVal, shadowBin m r ≤ 7) ∧
  (∀ d e : Nat, d ≤ e → binOf d ≤ binOf e)

/-! ### The vector engine (R120 to R128) -/

/-- R121 to R128: what the vector instructions write, whole, with the predicate of R104. R112, R121: a shape with a size of 0
writes nothing: MMA, ATTS, ATTV, PEP and a tile function complete at once, the vector instructions with their predicate false.
-/
def Obligations.VectorResults : Prop :=
  (∀ (s s' : State) (c t n : Nat) (w : Word) (o ta : Tile) (tb tc : Option Tile) (q : VArgs) (r : State × Bool),
    Issues rowVfn s (.thread c t) n w →
    rndOk (getCtx s n).num.s5emu (bits (iImm w) 25 23) = true →
    tileFor (getCtx s n).num.s5emu (getCore s c) (dOf s (.thread c t) (iDst w)) = some o →
    tileFor (getCtx s n).num.s5emu (getCore s c) (dOf s (.thread c t) (iSrc1 w)) = some ta →
    (if unaryFn (bits (iImm w) 31 26) || bits (iImm w) 21 20 == 3 then some none
      else (tileFor (getCtx s n).num.s5emu (getCore s c) (dOf s (.thread c t) (iSrc2 w))).map some) = some tb →
    (if usesC (bits (iImm w) 31 26) then
      (tileFor (getCtx s n).num.s5emu (getCore s c) (dOf s (.thread c t) (iSrc3 w))).map some else some none) = some tc →
    ({ fn := bits (iImm w) 31 26, bc := bits (iImm w) 21 20, scalar := (sOf s (.thread c t) (iSrc2 w)).toNat, fmt := o.fmt,
       emu := (getCtx s n).num.s5emu } : VArgs) = q →
    vfnOk q { a := ta, b := tb, c := tc } o = true → 0 < o.rows → 0 < o.cols →
    guardSp s c t (tileRuns (VTiles.list { a := ta, b := tb, c := tc })) o.runs = .ok s' →
    putTile s' c (rndCfg s' (.thread c t) n c w (bits (iImm w) 25 23) (bit (iImm w) 22)) o (fun _ _ => none)
      (gridOf o.rows o.cols (vfnElem (getCore s' c) q { a := ta, b := tb, c := tc })) = r →
    exec (.vfn (.thread c t) w) s = .next (thenNext s (modThread r.1 (.thread c t)
      (writeEpe (bit (iImm w) 19) (bits (iImm w) 18 16) r.2)) (.thread c t) n)) ∧
  (∀ (s s' : State) (c t n : Nat) (w : Word) (o ta : Tile) (use : Bool) (r : State × Bool),
    Issues rowCvt s (.thread c t) n w →
    rndOk (getCtx s n).num.s5emu (bits (iImm w) 23 21) = true →
    tileFor (getCtx s n).num.s5emu (getCore s c) (dOf s (.thread c t) (iDst w)) = some o →
    tileFor (getCtx s n).num.s5emu (getCore s c) (dOf s (.thread c t) (iSrc1 w)) = some ta →
    o.fmt = bits (iImm w) 31 28 → ta.fmt = bits (iImm w) 27 24 → o.fmt ≠ 0 → o.fmt ≠ 0xC → ta.fmt ≠ 0 → ta.fmt ≠ 0xC →
    ta.rows = o.rows → ta.cols = o.cols → outClear o [ta] = true → 0 < o.rows → 0 < o.cols →
    (bits (iImm w) 15 14 == 1 && o.fmt != ta.fmt) = use → guardSp s c t (ta.runs ++ (if use then o.runs else [])) o.runs = .ok s' →
    (if o.fmt = ta.fmt then (setCore s' c (cvtCopy (getCore s' c) ta o).1, (cvtCopy (getCore s' c) ta o).2)
      else putTile s' c (rndCfg s' (.thread c t) n c w (bits (iImm w) 23 21) (bit (iImm w) 20)) o (presentScale (getCore s' c) o use)
        (gridOf o.rows o.cols (cvtElem (getCtx s n).num.s5emu (getCore s' c) ta o use))) = r →
    exec (.cvt (.thread c t) w) s = .next (thenNext s (modThread r.1 (.thread c t)
      (writeEpe (bit (iImm w) 19) (bits (iImm w) 18 16) r.2)) (.thread c t) n)) ∧
  (∀ (s s' : State) (c t n : Nat) (w : Word) (o : Option Tile) (ta : Tile) (r : State × Bool), Issues rowVred s (.thread c t) n w →
    (bit (iImm w) 25 = true → 0 < (getCore s c).sumCredit) →
    (if bit (iImm w) 19 then some none
      else (tileFor (getCtx s n).num.s5emu (getCore s c) (dOf s (.thread c t) (iDst w))).map some) = some o →
    tileFor (getCtx s n).num.s5emu (getCore s c) (dOf s (.thread c t) (iSrc1 w)) = some ta →
    (∀ u, o = some u → u.fmt = redFmt (bits (iImm w) 31 28) ta.fmt ∧
      (u.rows, u.cols) = redShape (bits (iImm w) 27 26) ta.rows ta.cols ∧ outClear u [ta] = true) →
    (8 ≤ bits (iImm w) 31 28 → bits (iImm w) 31 28 ≤ 0xA → isIntF ta.fmt = true ∨ ta.fmt = 0) →
    0 < ta.rows → 0 < ta.cols → guardSp s c t ta.runs (match o with | none => [] | some u => u.runs) = .ok s' →
    vredRun s' c (getCtx s n).num.s5emu (iImm w) ta o = r →
    exec (.vred (.thread c t) w) s = .next (thenNext s (modThread r.1 (.thread c t)
      (writeEpe (bit (iImm w) 18) (bits (iImm w) 17 15) r.2)) (.thread c t) n)) ∧
  (∀ (s s' : State) (c t n : Nat) (w : Word) (o ta : Tile) (tb : Option Tile) (rows : List (List OutElem)),
    Issues rowVcmp s (.thread c t) n w →
    tileFor (getCtx s n).num.s5emu (getCore s c) (dOf s (.thread c t) (iDst w)) = some o →
    tileFor (getCtx s n).num.s5emu (getCore s c) (dOf s (.thread c t) (iSrc1 w)) = some ta →
    (if bits (iImm w) 28 27 = 3 then some none
      else (tileFor (getCtx s n).num.s5emu (getCore s c) (dOf s (.thread c t) (iSrc2 w))).map some) = some tb →
    ta.rows = o.rows → ta.cols = o.cols → (∀ u, tb = some u → (u.rows, u.cols) = bcShape (bits (iImm w) 28 27) o.rows o.cols) →
    (o.fmt = 9 ∨ o.fmt = 0) → outClear o (ta :: tb.toList) = true → 0 < o.rows → 0 < o.cols →
    guardSp s c t (tileRuns (ta :: tb.toList)) o.runs = .ok s' →
    gridOf o.rows o.cols (vcmpElem (getCtx s n).num.s5emu (getCore s' c) (bits (iImm w) 31 29) (bits (iImm w) 28 27)
      (sOf s' (.thread c t) (iSrc2 w)).toNat ta tb) = rows →
    exec (.vcmp (.thread c t) w) s = .next (thenNext s (modThread (setCore s' c (writeTile (getCore s' c) o rows [])) (.thread c t)
      (writeEpe (bit (iImm w) 26) (bits (iImm w) 25 23) (rows.any fun r => r.any fun e => e.raw == 1))) (.thread c t) n)) ∧
  (∀ (s s' : State) (c t n : Nat) (w : Word) (o : Tile) (r : List (List Nat) × Tbl Nat), Issues rowPep s (.thread c t) n w →
    (getCtx s n).num.s5emu = false → tileFor false (getCore s c) (dOf s (.thread c t) (iDst w)) = some o →
    o.fmt = (if bits (iImm w) 31 30 = 0 then 0xB else if bits (iImm w) 31 30 = 1 then 1 else 9) →
    0 < o.rows → 0 < o.cols → guardSp s c t [] o.runs = .ok s' →
    drawTile (rndCfg s' (.thread c t) n c w 0 false) (bit (iImm w) 29) (bits (iImm w) 28 25) o.rows o.cols (getCore s' c).pepper = r →
    exec (.pep (.thread c t) w) s = .next (thenNext s (setCore s' c (writeTile { getCore s' c with pepper := r.2 } o
      (r.1.map fun us => us.map fun u =>
        { raw := pepElem (bits (iImm w) 31 30) ((sOf s' (.thread c t) (iSrc1 w)).toNat % 2 ^ 32) u, poison := false }) []))
      (.thread c t) n)) ∧
  (∀ (s : State) (c t n : Nat) (w : Word) (ta tb : Tile) (g : AccGroup), Issues rowMma s (.thread c t) n w →
    getAg (getCore s c) (iDst w) = g →
    tileFor (getCtx s n).num.s5emu (getCore s c) (dOf s (.thread c t) (iSrc1 w)) = some ta →
    tileFor (getCtx s n).num.s5emu (getCore s c) (dOf s (.thread c t) (iSrc2 w)) = some tb →
    g.isOpen = true → g.acc = b2n (intClass (bits (iImm w) 31 29)) → classFits (bits (iImm w) 31 29) ta.fmt tb.fmt = true →
    ta.cols = tb.cols → g.rows = ta.rows → g.cols = tb.rows → (ta.rows = 0 ∨ tb.rows = 0 ∨ ta.cols = 0) →
    runsHit (ta.runs ++ tb.runs) [g.area] = false →
    exec (.mma (.thread c t) w) s = .next (thenNext s s (.thread c t) n)) ∧
  (∀ (s : State) (c t n : Nat) (w : Word) (o : Tile), Issues rowPep s (.thread c t) n w →
    (getCtx s n).num.s5emu = false → tileFor false (getCore s c) (dOf s (.thread c t) (iDst w)) = some o →
    o.fmt = (if bits (iImm w) 31 30 = 0 then 0xB else if bits (iImm w) 31 30 = 1 then 1 else 9) →
    (o.rows = 0 ∨ o.cols = 0) → exec (.pep (.thread c t) w) s = .next (thenNext s s (.thread c t) n)) ∧
  (∀ (s : State) (c t n : Nat) (w : Word) (o ta : Tile), Issues rowCvt s (.thread c t) n w →
    rndOk (getCtx s n).num.s5emu (bits (iImm w) 23 21) = true →
    tileFor (getCtx s n).num.s5emu (getCore s c) (dOf s (.thread c t) (iDst w)) = some o →
    tileFor (getCtx s n).num.s5emu (getCore s c) (dOf s (.thread c t) (iSrc1 w)) = some ta →
    o.fmt = bits (iImm w) 31 28 → ta.fmt = bits (iImm w) 27 24 → o.fmt ≠ 0 → o.fmt ≠ 0xC → ta.fmt ≠ 0 → ta.fmt ≠ 0xC →
    ta.rows = o.rows → ta.cols = o.cols → outClear o [ta] = true → (o.rows = 0 ∨ o.cols = 0) →
    exec (.cvt (.thread c t) w) s = .next (thenNext s (modThread s (.thread c t)
      (writeEpe (bit (iImm w) 19) (bits (iImm w) 18 16) false)) (.thread c t) n)) ∧
  (∀ (s : State) (c t n : Nat) (w : Word) (q : AttsArgs) (tq tk : Tile) (g : AccGroup), Issues rowAtts s (.thread c t) n w →
    getAg (getCore s c) (iDst w) = g → fld (codeWord (getCore s c) (iImm w)) 16 0 = 0 →
    attsArgs (codeWord (getCore s c) (iImm w)) (sOf s (.thread c t) (iSrc3 w)) = q →
    tileFor (getCtx s n).num.s5emu (getCore s c) (dOf s (.thread c t) (iSrc1 w)) = some tq →
    tileFor (getCtx s n).num.s5emu (getCore s c) (dOf s (.thread c t) (iSrc2 w)) = some tk →
    isFloat tq.fmt = true → isFloat tk.fmt = true → g.isOpen = true → g.acc = 0 → tq.cols = tk.cols → tq.rows = g.rows →
    (tk.rows ≠ 0 → q.col0 + tk.rows ≤ g.cols) → (tq.rows = 0 ∨ tk.rows = 0 ∨ tq.cols = 0) →
    runsHit (tq.runs ++ tk.runs) [g.area] = false →
    exec (.atts (.thread c t) w) s = .next (thenNext s s (.thread c t) n)) ∧
  (∀ (s : State) (c t n : Nat) (w : Word) (tp tv : Tile) (g : AccGroup), Issues rowAttv s (.thread c t) n w →
    getAg (getCore s c) (iDst w) = g → bit (iImm w) 0 = false →
    tileFor (getCtx s n).num.s5emu (getCore s c) (dOf s (.thread c t) (iSrc1 w)) = some tp →
    tileFor (getCtx s n).num.s5emu (getCore s c) (dOf s (.thread c t) (iSrc2 w)) = some tv →
    isFloat tp.fmt = true → isFloat tv.fmt = true → g.isOpen = true → g.acc = 0 → tp.cols = tv.rows → g.rows = tp.rows →
    g.cols = tv.cols → (tp.rows = 0 ∨ tp.cols = 0 ∨ tv.cols = 0) → runsHit (tp.runs ++ tv.runs) [g.area] = false →
    exec (.attv (.thread c t) w) s = .next (thenNext s s (.thread c t) n)) ∧
  (∀ (s : State) (c t n : Nat) (w : Word) (tp tv tf : Tile) (g : AccGroup), Issues rowAttv s (.thread c t) n w →
    getAg (getCore s c) (iDst w) = g → bit (iImm w) 0 = true →
    tileFor (getCtx s n).num.s5emu (getCore s c) (dOf s (.thread c t) (iSrc1 w)) = some tp →
    tileFor (getCtx s n).num.s5emu (getCore s c) (dOf s (.thread c t) (iSrc2 w)) = some tv →
    tileFor (getCtx s n).num.s5emu (getCore s c) (dOf s (.thread c t) (iSrc3 w)) = some tf →
    tf.fmt = 1 → tf.rows = tp.rows → tf.cols = 1 →
    isFloat tp.fmt = true → isFloat tv.fmt = true → g.isOpen = true → g.acc = 0 → tp.cols = tv.rows → g.rows = tp.rows →
    g.cols = tv.cols → (tp.rows = 0 ∨ tp.cols = 0 ∨ tv.cols = 0) → runsHit (tp.runs ++ tv.runs ++ tf.runs) [g.area] = false →
    exec (.attv (.thread c t) w) s = .next (thenNext s s (.thread c t) n)) ∧
  (∀ (s : State) (c t n : Nat) (w : Word) (o ta : Tile) (tb tc : Option Tile), Issues rowVfn s (.thread c t) n w →
    rndOk (getCtx s n).num.s5emu (bits (iImm w) 25 23) = true →
    tileFor (getCtx s n).num.s5emu (getCore s c) (dOf s (.thread c t) (iDst w)) = some o →
    tileFor (getCtx s n).num.s5emu (getCore s c) (dOf s (.thread c t) (iSrc1 w)) = some ta →
    (if unaryFn (bits (iImm w) 31 26) || bits (iImm w) 21 20 == 3 then some none
      else (tileFor (getCtx s n).num.s5emu (getCore s c) (dOf s (.thread c t) (iSrc2 w))).map some) = some tb →
    (if usesC (bits (iImm w) 31 26) then
      (tileFor (getCtx s n).num.s5emu (getCore s c) (dOf s (.thread c t) (iSrc3 w))).map some else some none) = some tc →
    vfnOk { fn := bits (iImm w) 31 26, bc := bits (iImm w) 21 20, scalar := (sOf s (.thread c t) (iSrc2 w)).toNat, fmt := o.fmt,
            emu := (getCtx s n).num.s5emu } { a := ta, b := tb, c := tc } o = true → (o.rows = 0 ∨ o.cols = 0) →
    exec (.vfn (.thread c t) w) s = .next (thenNext s (modThread s (.thread c t)
      (writeEpe (bit (iImm w) 19) (bits (iImm w) 18 16) false)) (.thread c t) n)) ∧
  (∀ (s : State) (c t n : Nat) (w : Word) (o : Option Tile) (ta : Tile), Issues rowVred s (.thread c t) n w →
    (bit (iImm w) 25 = true → 0 < (getCore s c).sumCredit) →
    (if bit (iImm w) 19 then some none
      else (tileFor (getCtx s n).num.s5emu (getCore s c) (dOf s (.thread c t) (iDst w))).map some) = some o →
    tileFor (getCtx s n).num.s5emu (getCore s c) (dOf s (.thread c t) (iSrc1 w)) = some ta →
    (∀ u, o = some u → u.fmt = redFmt (bits (iImm w) 31 28) ta.fmt ∧
      (u.rows, u.cols) = redShape (bits (iImm w) 27 26) ta.rows ta.cols ∧ outClear u [ta] = true) →
    (8 ≤ bits (iImm w) 31 28 → bits (iImm w) 31 28 ≤ 0xA → isIntF ta.fmt = true ∨ ta.fmt = 0) →
    (ta.rows = 0 ∨ ta.cols = 0) →
    exec (.vred (.thread c t) w) s = .next (thenNext s (modThread
      (if bit (iImm w) 25 then redSummary s c (iImm w) false (emptySummary ((redKind (bits (iImm w) 31 28)).getD 0)) else s)
      (.thread c t) (writeEpe (bit (iImm w) 18) (bits (iImm w) 17 15) false)) (.thread c t) n)) ∧
  (∀ (s : State) (c t n : Nat) (w : Word) (o ta : Tile) (tb : Option Tile), Issues rowVcmp s (.thread c t) n w →
    tileFor (getCtx s n).num.s5emu (getCore s c) (dOf s (.thread c t) (iDst w)) = some o →
    tileFor (getCtx s n).num.s5emu (getCore s c) (dOf s (.thread c t) (iSrc1 w)) = some ta →
    (if bits (iImm w) 28 27 = 3 then some none
      else (tileFor (getCtx s n).num.s5emu (getCore s c) (dOf s (.thread c t) (iSrc2 w))).map some) = some tb →
    ta.rows = o.rows → ta.cols = o.cols → (∀ u, tb = some u → (u.rows, u.cols) = bcShape (bits (iImm w) 28 27) o.rows o.cols) →
    (o.fmt = 9 ∨ o.fmt = 0) → outClear o (ta :: tb.toList) = true → (o.rows = 0 ∨ o.cols = 0) →
    exec (.vcmp (.thread c t) w) s = .next (thenNext s (modThread s (.thread c t)
      (writeEpe (bit (iImm w) 26) (bits (iImm w) 25 23) false)) (.thread c t) n))

/-! ### Movement and rings (R131 to R139) -/

/-- R49, R97, R133 to R136: LDT, STT and MOVT issue one request for every grain, counted in their completion group, and complete
once every request has its slot; an access of size 0 counts as one completed request. R137, R220 to R222: PFS arms a schedule or
stops one; a gate poll keeps the word read; an entry that may start is started on the hub or on its core. -/
def Obligations.MovementResults : Prop :=
  (∀ (s s' r : State) (c t n : Nat) (w : Word) (tile : Tile) (m : Tensor), Issues rowLdt s (.thread c t) n w →
    (threadOf s (.thread c t)).woken = none → tileOf (getCore s c) (dOf s (.thread c t) (iDst w)) = some tile →
    tensorOf (dOf s (.thread c t) (iSrc1 w)) = some m → partFits tile m (sOf s (.thread c t) (iSrc2 w)) false = true →
    0 < tile.rows → 0 < tile.cols → 0 < m.grains →
    ldtFault s n ((accessGrains tile m (sOf s (.thread c t) (iSrc2 w))).map fun e => e.1) = none →
    guardSp s c t [] tile.runs = .ok s' → issueReqs s' (.thread c t) c (cgField w) (ldtReqs s' (.thread c t) n c w tile m) = .done r →
    exec (.ldt (.thread c t) w) s = .next (thenNext s r (.thread c t) n)) ∧
  (∀ (s s' r : State) (c t n : Nat) (w : Word) (tile : Tile) (m : Tensor), Issues rowStt s (.thread c t) n w →
    (threadOf s (.thread c t)).woken = none → tileOf (getCore s c) (dOf s (.thread c t) (iSrc1 w)) = some tile →
    tensorOf (dOf s (.thread c t) (iDst w)) = some m → partFits tile m (sOf s (.thread c t) (iSrc2 w)) true = true →
    0 < tile.rows → 0 < tile.cols → 0 < m.grains →
    sttFault s n ((accessGrains tile m (sOf s (.thread c t) (iSrc2 w))).map fun e => e.1) = none →
    guardSp s c t tile.runs [] = .ok s' → issueReqs s' (.thread c t) c (cgField w)
      ((accessGrains tile m (sOf s' (.thread c t) (iSrc2 w))).map (sttReq s' (.thread c t) n c w tile m)) = .done r →
    exec (.stt (.thread c t) w) s = .next (thenNext s r (.thread c t) n)) ∧
  (∀ (s : State) (a : Agent) (n : Nat) (w : Word) (src dst : Tensor), Issues rowMovt s a n w →
    tensorOf (dOf s a (iSrc1 w)) = some src → tensorOf (dOf s a (iDst w)) = some dst → src.fmt = dst.fmt →
    src.layout = dst.layout → src.grains = dst.grains → 0 < src.grains → tensorBad s n src false = none →
    tensorBad s n dst true = none →
    exec (.movt a w) s = .next (thenNext s ((movtReqs (match cgField w with | none => s | some g => issueCg s a g src.grains) a n
      (cgField w) src dst).foldl addReq (match cgField w with | none => s | some g => issueCg s a g src.grains)) a n)) ∧
  (∀ (s : State) (c t n v : Nat) (w : Word), Issues rowLdt s (.thread c t) n w →
    (threadOf s (.thread c t)).woken = some v →
    exec (.ldt (.thread c t) w) s = .next (thenNext s s (.thread c t) n)) ∧
  (∀ (s : State) (c t n v : Nat) (w : Word), Issues rowStt s (.thread c t) n w →
    (threadOf s (.thread c t)).woken = some v →
    exec (.stt (.thread c t) w) s = .next (thenNext s s (.thread c t) n)) ∧
  (∀ (s : State) (c t n : Nat) (w : Word) (tile : Tile) (m : Tensor), Issues rowLdt s (.thread c t) n w →
    (threadOf s (.thread c t)).woken = none → tileOf (getCore s c) (dOf s (.thread c t) (iDst w)) = some tile →
    tensorOf (dOf s (.thread c t) (iSrc1 w)) = some m → partFits tile m (sOf s (.thread c t) (iSrc2 w)) false = true →
    (tile.rows = 0 ∨ tile.cols = 0 ∨ m.grains = 0) →
    exec (.ldt (.thread c t) w) s = .next (thenNext s (emptyCg s (.thread c t) (cgField w)) (.thread c t) n)) ∧
  (∀ (s : State) (c t n : Nat) (w : Word) (tile : Tile) (m : Tensor), Issues rowStt s (.thread c t) n w →
    (threadOf s (.thread c t)).woken = none → tileOf (getCore s c) (dOf s (.thread c t) (iSrc1 w)) = some tile →
    tensorOf (dOf s (.thread c t) (iDst w)) = some m → partFits tile m (sOf s (.thread c t) (iSrc2 w)) true = true →
    (tile.rows = 0 ∨ tile.cols = 0 ∨ m.grains = 0) →
    exec (.stt (.thread c t) w) s = .next (thenNext s (emptyCg s (.thread c t) (cgField w)) (.thread c t) n)) ∧
  (∀ (s : State) (a : Agent) (n : Nat) (w : Word) (src dst : Tensor), Issues rowMovt s a n w →
    tensorOf (dOf s a (iSrc1 w)) = some src → tensorOf (dOf s a (iDst w)) = some dst → src.fmt = dst.fmt →
    src.layout = dst.layout → src.grains = dst.grains → src.grains = 0 →
    exec (.movt a w) s = .next (thenNext s (emptyCg s a (cgField w)) a n)) ∧
  (∀ (s : State) (a : Agent) (n : Nat) (w : Word) (src dst : Tensor), Issues rowMovt s a n w →
    tensorOf (dOf s a (iSrc1 w)) = some src → tensorOf (dOf s a (iDst w)) = some dst →
    (src.fmt ≠ dst.fmt ∨ src.layout ≠ dst.layout ∨ src.grains ≠ dst.grains) →
    ∀ c t, a = .thread c t → exec (.movt a w) s = .next (ctxFault s n (faultOf s a 0x02 0 w (threadOf s a).ip (threadOf s a).block))) ∧
  (∀ (s : State) (a : Agent) (n : Nat) (w : Word) (k : Sched), Issues (rowPfs 0) s a n w →
    schedOf a n w (threadOf s a).ip (threadOf s a).block (dOf s a (iSrc1 w)) = k → pfsDescOk a (dOf s a (iSrc1 w)) = true →
    schedsOf s a < schedLimit a → k.length ≠ 0 → cgField w = none →
    exec (.pfsArm a w) s = .next (thenNext s { s with scheds := tput s.scheds s.nextSched k, nextSched := s.nextSched + 1 } a n)) ∧
  (∀ (s : State) (a : Agent) (n : Nat) (w : Word), Issues (rowPfs 0) s a n w →
    pfsDescOk a (dOf s a (iSrc1 w)) = true → schedsOf s a < schedLimit a →
    (schedOf a n w (threadOf s a).ip (threadOf s a).block (dOf s a (iSrc1 w))).length = 0 →
    exec (.pfsArm a w) s = .next (thenNext s (emptyCg s a (cgField w)) a n)) ∧
  (∀ (s : State) (a : Agent) (n id : Nat) (w : Word) (k : Sched), Issues (rowPfs 1) s a n w →
    pfsDescOk a (dOf s a (iSrc1 w)) = true → cgField w = none →
    (s.scheds.find? fun e => schedIs e.2 (schedOf a n w 0 0 (dOf s a (iSrc1 w)))) = some (id, k) →
    exec (.pfsStop a w) s = .next (thenNext s (schedCheck { s with scheds := tput s.scheds id { k with stopped := true } } id) a n)) ∧
  (∀ (s : State) (a : Agent) (n : Nat) (w : Word), Issues (rowPfs 1) s a n w →
    pfsDescOk a (dOf s a (iSrc1 w)) = true →
    (s.scheds.find? fun e => schedIs e.2 (schedOf a n w 0 0 (dOf s a (iSrc1 w)))) = none →
    exec (.pfsStop a w) s = .next (thenNext s (emptyCg s a (cgField w)) a n)) ∧
  (∀ (s s' : State) (id pa : Nat) (d : Sched) (bs : List Byte) (tag : GrainTag), tfind s.scheds id = some d → d.gateVa ≠ 0 →
    d.stopped = false → d.started < d.length → schedRuns s d = true → reshardHolds s d.ctx d.gateVa = false →
    windowGrain s d.ctx (d.gateVa / 256 * 256) = none →
    translate s d.ctx d.gateVa false = .ok pa → engineRead s d.ctx (d.gateVa / 256 * 256) = (bs, tag, s') → tag.poison = false →
    exec (.gatePoll id) s =
      .next { s' with scheds := tput s'.scheds id { d with gateSeen := leNat (slice bs (d.gateVa % 256) 8) } }) ∧
  (∀ (s s' : State) (id src dst k gate : Nat) (d : Sched), tfind s.scheds id = some d → d.target = 1 → d.stopped = false →
    d.started < d.length → d.inFlight.length ≤ d.lead → schedRuns s d = true →
    reshardHolds s d.ctx (d.list + 32 * d.started) = false → readEntry s d = (.ok (src, dst, k, gate), s') → (d.gateVa = 0 ∨ gate ≤ d.gateSeen) →
    firstBad s' d.ctx src false k = none → firstBad s' d.ctx dst true k = none →
    exec (.prefetchEntryStart id) s = .next (startHubEntry s' id d src dst k)) ∧
  (∀ (s s' : State) (id c t key off sz src dst k gate : Nat) (d : Sched), tfind s.scheds id = some d → d.target = 0 →
    d.owner = .thread c t → d.stopped = false → d.started < d.length → d.inFlight.length ≤ d.lead → schedRuns s d = true →
    reshardHolds s d.ctx (d.list + 32 * d.started) = false → (entrySlot s d).isSome = true → readEntry s d = (.ok (src, dst, k, gate), s') → (d.gateVa = 0 ∨ gate ≤ d.gateSeen) →
    firstBad s' d.ctx src false k = none → entrySlot s' d = some (key, off, sz) →
    exec (.prefetchEntryStart id) s = .next (startCoreEntry s' id c d key off src k))

/-- R138, R139, R216 to R219: RCFG installs a ring; COMMIT fills the slots its thread has written, RELEASE empties the oldest it
holds, SWAP changes the front half. -/
def Obligations.RingResults : Prop :=
  (∀ (s : State) (c t n : Nat) (w : Word), Issues rowRcfg s (.thread c t) n w →
    ringOk s c (bits (iImm w) 5 0) (dOf s (.thread c t) (iSrc1 w)) = true →
    (∀ r, tfind (getCore s c).rings (bits (iImm w) 5 0) = some r → anyClaimed r = false) →
    exec (.rcfg (.thread c t) w) s = .next (thenNext s (putS (installRing s c (bits (iImm w) 5 0)
      (dOf s (.thread c t) (iSrc1 w))) (.thread c t) (iDst w) 0) (.thread c t) n)) ∧
  (∀ (s : State) (c t n : Nat) (w : Word) (r : Ring), Issues (rowRing 0) s (.thread c t) n w →
    tfind (getCore s c).rings (bits (iImm w) 29 24) = some r →
    exec (.ringCommit (.thread c t) w) s = .next (thenNext s (putS (wakeRings (touchCore (modCore s c fun x => { x with
      rings := tput x.rings (bits (iImm w) 29 24) (commitSlots r t (bits (iImm w) 23 16)) }) c) c) (.thread c t) (iDst w) 0)
      (.thread c t) n)) ∧
  (∀ (s : State) (c t n ix : Nat) (w : Word) (r : Ring) (l : List Nat), Issues (rowRing 1) s (.thread c t) n w →
    tfind (getCore s c).rings (bits (iImm w) 29 24) = some r → bits (iImm w) 23 16 ≠ 0 →
    (heldSlots r t).take (bits (iImm w) 23 16) = ix :: l →
    exec (.ringRelease (.thread c t) w) s = .next (thenNext s (putS (wakeRings (touchCore (modCore s c fun x => { x with
      rings := tput x.rings (bits (iImm w) 29 24) ((ix :: l).foldl releaseSlot r) }) c) c) (.thread c t) (iDst w) 0)
      (.thread c t) n)) ∧
  (∀ (s : State) (c t n : Nat) (w : Word) (r : Ring), Issues (rowRing 1) s (.thread c t) n w →
    tfind (getCore s c).rings (bits (iImm w) 29 24) = some r → bits (iImm w) 23 16 ≠ 0 → heldSlots r t = [] →
    exec (.ringRelease (.thread c t) w) s = .next (thenNext s (putS s (.thread c t) (iDst w) (w64 rcNoneHeld)) (.thread c t) n)) ∧
  (∀ (s : State) (c t n : Nat) (w : Word) (r : Ring), Issues (rowRing 2) s (.thread c t) n w →
    tfind (getCore s c).rings (bits (iImm w) 29 24) = some r → r.mode ≠ 0 → backOutstanding s c r = false →
    exec (.ringSwap (.thread c t) w) s = .next (thenNext s (putS (modCore s c fun x => { x with
      rings := tput x.rings (bits (iImm w) 29 24) { r with front := 1 - r.front, swapped := true } }) (.thread c t) (iDst w) 0)
      (.thread c t) n))

/-! ### Queues (R140 to R144, R60 to R71) -/

/-- R140, R61: QCFG of a core of the context with a word that its checks pass: word 0 closes the end; a word for an end on this
module opens the pair once both ends fit; one for a peer's end sends its QCONFIG and completes when it has left and no QCONFIG is held. R141 to
R144: a send with enough credit sends its words and completes OK, on a closed end CLOSED; a receive takes the oldest packet
nobody has claimed; QHELD and QREL name the packets a thread holds; QSUM sends its contribution while a word of credit is free.
-/
def Obligations.QueueResults : Prop :=
  (∀ (s : State) (m n c : Nat) (w v : Word), Issues rowQcfg s (.ctl m) n w → (threadOf s (.ctl m)).woken = none →
    (sOf s (.ctl m) (iSrc1 w)).toNat = c → sOf s (.ctl m) (iSrc2 w) = v → (getCtx s n).coreset.contains c = true →
    qcfgOk s c (bits (iImm w) 4 0) v = true → cfgDir v = 0 →
    exec (.qcfg (.ctl m) w) s = .next (thenNext s (putS (qcfgWrite s c (bits (iImm w) 4 0) v) (.ctl m) (iDst w) 0) (.ctl m) n)) ∧
  (∀ (s : State) (m n c : Nat) (w v : Word), Issues rowQcfg s (.ctl m) n w → (threadOf s (.ctl m)).woken = none →
    (sOf s (.ctl m) (iSrc1 w)).toNat = c → sOf s (.ctl m) (iSrc2 w) = v → (getCtx s n).coreset.contains c = true →
    qcfgOk s c (bits (iImm w) 4 0) v = true → cfgDir v ≠ 0 → cfgRemote v = false →
    exec (.qcfg (.ctl m) w) s = .next (thenNext s (putS (tryOpen (qcfgWrite s c (bits (iImm w) 4 0) v) c (bits (iImm w) 4 0))
      (.ctl m) (iDst w) 0) (.ctl m) n)) ∧
  (∀ (s : State) (m n c : Nat) (w v : Word), Issues rowQcfg s (.ctl m) n w → (threadOf s (.ctl m)).woken = none →
    (sOf s (.ctl m) (iSrc1 w)).toNat = c → sOf s (.ctl m) (iSrc2 w) = v → (getCtx s n).coreset.contains c = true →
    qcfgOk s c (bits (iImm w) 4 0) v = true → cfgDir v ≠ 0 → cfgRemote v = true → heldPartner s c (bits (iImm w) 4 0) v = none →
    qconfigWaits (sendQconfig (qcfgWrite s c (bits (iImm w) 4 0) v) c (bits (iImm w) 4 0) false) c (bits (iImm w) 4 0) = false →
    exec (.qcfg (.ctl m) w) s = .next (thenNext s (putS (sendQconfig (qcfgWrite s c (bits (iImm w) 4 0) v) c (bits (iImm w) 4 0)
      false) (.ctl m) (iDst w) 0) (.ctl m) n)) ∧
  (∀ (s u : State) (m n c : Nat) (w v : Word), Issues rowQcfg s (.ctl m) n w → (threadOf s (.ctl m)).woken = none →
    (sOf s (.ctl m) (iSrc1 w)).toNat = c → sOf s (.ctl m) (iSrc2 w) = v → (getCtx s n).coreset.contains c = true →
    qcfgOk s c (bits (iImm w) 4 0) v = true → cfgDir v ≠ 0 → cfgRemote v = true → heldPartner s c (bits (iImm w) 4 0) v = none →
    sendQconfig (qcfgWrite s c (bits (iImm w) 4 0) v) c (bits (iImm w) 4 0) false = u →
    qconfigWaits u c (bits (iImm w) 4 0) = true →
    exec (.qcfg (.ctl m) w) s = .next (parkAgent u (.ctl m) 4 (.qconfigOut c (bits (iImm w) 4 0)))) ∧
  (∀ (s : State) (m n : Nat) (w : Word), Issues rowQcfg s (.ctl m) n w → (threadOf s (.ctl m)).woken = some 0 →
    exec (.qcfg (.ctl m) w) s = .next (thenNext s (putS s (.ctl m) (iDst w) 0) (.ctl m) n)) ∧
  (∀ (s : State) (m n c : Nat) (w v : Word) (h : HeldCfg), Issues rowQcfg s (.ctl m) n w → (threadOf s (.ctl m)).woken = none →
    (sOf s (.ctl m) (iSrc1 w)).toNat = c → sOf s (.ctl m) (iSrc2 w) = v → (getCtx s n).coreset.contains c = true →
    qcfgOk s c (bits (iImm w) 4 0) v = true → cfgDir v ≠ 0 → cfgRemote v = true →
    heldPartner s c (bits (iImm w) 4 0) v = some h →
    exec (.qcfg (.ctl m) w) s = .next (parkAgent (openEndAt (sendQconfig (qcfgWrite s c (bits (iImm w) 4 0) v) c
      (bits (iImm w) 4 0) false) c (bits (iImm w) 4 0) h.word none) (.ctl m) 4 (.qconfig c (bits (iImm w) 4 0)))) ∧
  (∀ (s s' r : State) (c t n ep k : Nat) (w : Word), Issues rowQsend s (.thread c t) n w →
    (threadOf s (.thread c t)).woken = none → (threadOf s (.thread c t)).sent = 0 → iSrc1 w = ep → qsendCount s (.thread c t) w = k →
    cfgDir (getEp (getCore s c) ep).cfg = 2 → k ≤ cfgMaxWords (getEp (getCore s c) ep).cfg → k ≠ 0 →
    (sOf s (.thread c t) (iSrc2 w)).toNat / 64 * 64 + 64 * k ≤ spSize →
    guardSp s c t [((sOf s (.thread c t) (iSrc2 w)).toNat / 64 * 64, 64 * k)] [] = .ok s' →
    qsendRun s' (.thread c t) n c t ep ((sOf s (.thread c t) (iSrc2 w)).toNat / 64 * 64) k w = .done r →
    exec (.qsend (.thread c t) w) s = .next (thenNext s r (.thread c t) n)) ∧
  (∀ (s s' : State) (c t n ep k : Nat) (w : Word), Issues rowQsend s (.thread c t) n w →
    (threadOf s (.thread c t)).woken = none → (threadOf s (.thread c t)).sent = 0 → iSrc1 w = ep → qsendCount s (.thread c t) w = k →
    cfgDir (getEp (getCore s c) ep).cfg = 2 → k ≤ cfgMaxWords (getEp (getCore s c) ep).cfg → k ≠ 0 →
    (sOf s (.thread c t) (iSrc2 w)).toNat / 64 * 64 + 64 * k ≤ spSize →
    guardSp s c t [((sOf s (.thread c t) (iSrc2 w)).toNat / 64 * 64, 64 * k)] [] = .ok s' →
    (getEp (getCore s' c) ep).closed = true →
    exec (.qsend (.thread c t) w) s = .next (thenNext s (putS s' (.thread c t) (iDst w) (w64 rcClosed)) (.thread c t) n)) ∧
  (∀ (s : State) (c t n : Nat) (w : Word) (p : Packet) (l : List Packet), Issues rowQrecv s (.thread c t) n w →
    (threadOf s (.thread c t)).woken = none → cfgDir (getEp (getCore s c) (iSrc1 w)).cfg = 1 →
    declared (getCore s c) 0 (iSrc1 w) = false → unclaimed (getEp (getCore s c) (iSrc1 w)) = p :: l →
    exec (.qrecv (.thread c t) w) s = .next (thenNext s (putS (touchCore (modCore s c fun x => claimPackets x (iSrc1 w) t 1) c)
      (.thread c t) (iDst w) (recvResult (getEp (getCore s c) (iSrc1 w)) p)) (.thread c t) n)) ∧
  (∀ (s : State) (c t n : Nat) (w : Word), Issues rowQrecv s (.thread c t) n w →
    (threadOf s (.thread c t)).woken = none → cfgDir (getEp (getCore s c) (iSrc1 w)).cfg = 1 →
    declared (getCore s c) 0 (iSrc1 w) = false → unclaimed (getEp (getCore s c) (iSrc1 w)) = [] →
    (getEp (getCore s c) (iSrc1 w)).closed = false →
    exec (.qrecv (.thread c t) w) s = .next (parkAgent s (.thread c t) 1 (.packet (iSrc1 w)))) ∧
  (∀ (s : State) (c t n : Nat) (w : Word), Issues rowQheld s (.thread c t) n w →
    exec (.qheld (.thread c t) w) s = .next (thenNext s (putS s (.thread c t) (iDst w)
      (match (heldPackets (getCore s c) t (iSrc1 w))[bits (iImm w) 3 0]? with
        | some p => recvResult (getEp (getCore s c) (iSrc1 w)) p
        | none => recvNone rcNoneHeld)) (.thread c t) n)) ∧
  (∀ (s : State) (c t n : Nat) (w : Word) (p : Packet) (l : List Packet), Issues rowQrel s (.thread c t) n w →
    heldPackets (getCore s c) t (iSrc1 w) = p :: l →
    exec (.qrel (.thread c t) w) s = .next (thenNext s (putS (dropHeld (releasePacket s c (iSrc1 w) p.num) (.thread c t)
      (iSrc1 w) p.num) (.thread c t) (iDst w) 0) (.thread c t) n)) ∧
  (∀ (s : State) (c t n : Nat) (w : Word), Issues rowQrel s (.thread c t) n w → heldPackets (getCore s c) t (iSrc1 w) = [] →
    exec (.qrel (.thread c t) w) s = .next (thenNext s (putS s (.thread c t) (iDst w) (w64 rcNoneHeld)) (.thread c t) n)) ∧
  (∀ (s : State) (c t n : Nat) (w : Word), Issues rowQsum s (.thread c t) n w → isSumKind (bits (iImm w) 31 28) = true →
    0 < (getCore s c).sumCredit →
    exec (.qsum (.thread c t) w) s = .next (thenNext s (sendSummary s c (qsumContribution s (.thread c t) w)) (.thread c t) n)) ∧
  (∀ (s : State) (c t n : Nat) (w : Word), Issues rowQsum s (.thread c t) n w → isSumKind (bits (iImm w) 31 28) = true →
    (getCore s c).sumCredit = 0 →
    exec (.qsum (.thread c t) w) s = .next (parkAgent s (.thread c t) 2 .sumCredit))

/-! ### Synchronisation (R145 to R149) -/

/-- R145 to R148: FENCE completes when nothing earlier of its scope is outstanding, and parks else; the last arrival of BAR
releases the others, an earlier one parks; START adds its tokens, at the bridge edge of a stopped die (R28), or answers BUSY; CG claims a finished group. -/
def Obligations.SyncResults : Prop :=
  (∀ (s : State) (a : Agent) (n : Nat) (w : Word), Issues rowFence s a n w → fenceOut s a (fenceScope a w) (bits (iImm w) 3 2) = [] →
    exec (.fence a w) s = .next (thenNext s s a n)) ∧
  (∀ (s : State) (a : Agent) (n : Nat) (w : Word) (b : Barrier), Issues rowBar s a n w → (threadOf s a).woken = none →
    tget Barrier.reset (getCtx s n).barriers (bits (iImm w) 4 0) = b → (b.arrived = [] ∨ b.count = (sOf s a (iSrc1 w)).toNat) →
    0 < (sOf s a (iSrc1 w)).toNat → (sOf s a (iSrc1 w)).toNat ≤ b.arrived.length + 1 →
    exec (.bar a w) s = .next (thenNext s (b.arrived.foldl (fun s x => wakeAgent s x (some 0))
      (modCtx s n fun x => { x with barriers := tdel x.barriers (bits (iImm w) 4 0) })) a n)) ∧
  (∀ (s : State) (a : Agent) (n : Nat) (w : Word) (b : Barrier), Issues rowBar s a n w → (threadOf s a).woken = none →
    tget Barrier.reset (getCtx s n).barriers (bits (iImm w) 4 0) = b → (b.arrived = [] ∨ b.count = (sOf s a (iSrc1 w)).toNat) →
    b.arrived.length + 1 < (sOf s a (iSrc1 w)).toNat →
    exec (.bar a w) s = .next (parkAgent (modCtx s n fun x =>
      { x with barriers := tput x.barriers (bits (iImm w) 4 0) ⟨(sOf s a (iSrc1 w)).toNat, b.arrived ++ [a]⟩ }) a 6
      (.barrier (bits (iImm w) 4 0)))) ∧
  (∀ (s : State) (a : Agent) (n : Nat) (w : Word), Issues rowBar s a n w → (threadOf s a).woken.isSome = true →
    exec (.bar a w) s = .next (thenNext s s a n)) ∧
  (∀ (s : State) (a : Agent) (n c b : Nat) (w : Word) (d : BlockDesc), Issues rowStart s a n w →
    (sOf s a (iSrc1 w)).toNat = c → (sOf s a (iSrc2 w)).toNat = b → (getCtx s n).coreset.contains c = true →
    blockDesc (getCore s c) b = some d → (d.ops.any fun o => o.kind == 3) = true →
    exec (.start a w) s = .next (thenNext s (putS (sendTokens s c b (bits (iImm w) 7 0)).2 a (iDst w)
      (w64 (sendTokens s c b (bits (iImm w) 7 0)).1)) a n)) ∧
  (∀ (s : State) (c b k : Nat), k ≠ 0 → (getBlk (getCore s c) b).tokens + edgeTokens s c b + k ≤ 255 → dieStopped s c = false →
    (sendTokens s c b k).1 = 0 ∧ (getBlk (getCore (sendTokens s c b k).2 c) b).tokens = (getBlk (getCore s c) b).tokens + k) ∧
  (∀ (s : State) (c b k : Nat), k ≠ 0 → (getBlk (getCore s c) b).tokens + edgeTokens s c b + k ≤ 255 → dieStopped s c = true →
    (sendTokens s c b k).1 = 0 ∧ (EdgeItem.tokens c b (edgeTokens s c b + k)) ∈ (sendTokens s c b k).2.clk.edge ∧
    (getBlk (getCore (sendTokens s c b k).2 c) b).tokens = (getBlk (getCore s c) b).tokens) ∧
  (∀ (s : State) (c b k : Nat), 255 < (getBlk (getCore s c) b).tokens + edgeTokens s c b + k → sendTokens s c b k = (rcBusy, s)) ∧
  (∀ (s : State) (a : Agent) (n : Nat) (w : Word), Issues rowCg s a n w → bit (iImm w) 27 = true →
    cgDeclared s a (bits (iImm w) 31 28) = false → cgReady (cgOf s a (bits (iImm w) 31 28)) = true →
    exec (.cg a w) s = .next (thenNext s (putS (claimCg s a (bits (iImm w) 31 28)) a (iDst w)
      (w64 (cgOf s a (bits (iImm w) 31 28)).code)) a n)) ∧
  (∀ (s : State) (a : Agent) (n : Nat) (w : Word), Issues rowCg s a n w → bit (iImm w) 27 = false →
    exec (.cg a w) s = .next (thenNext s (putS s a (iDst w) (w64 (cgOf s a (bits (iImm w) 31 28)).last)) a n))

/-- R149, R338: ENTER of a layer that holds the epoch counts and completes OK, of one that holds a later one, or that a replacement
is being installed over (R340), STALE_EPOCH, and of one that does not hold it yet parks; LEAVE is counted unless it would exceed the context's ENTERs. -/
def Obligations.EpochResults : Prop :=
  (∀ (s : State) (a : Agent) (n ix e : Nat) (w : Word) (m : Model) (l : Layer), Issues (rowEpoch false) s a n w →
    epochArgs s a n w = some (ix, m, e, l) → l.epoch = e → (m.installing && bits (iImm w) 15 0 == m.installed) = false →
    exec (.epochEnter a w) s = .next (thenNext s (putS (entered s n ix e (bits (iImm w) 15 0) true) a (iDst w) 0) a n)) ∧
  (∀ (s : State) (a : Agent) (n ix e : Nat) (w : Word) (m : Model) (l : Layer), Issues (rowEpoch false) s a n w →
    epochArgs s a n w = some (ix, m, e, l) →
    (e < l.epoch ∨ (l.epoch = e ∧ (m.installing && bits (iImm w) 15 0 == m.installed) = true)) →
    exec (.epochEnter a w) s = .next (thenNext s (putS (entered s n ix e (bits (iImm w) 15 0) false) a (iDst w)
      (w64 rcStaleEpoch)) a n)) ∧
  (∀ (s : State) (a : Agent) (n ix e : Nat) (w : Word) (m : Model) (l : Layer), Issues (rowEpoch false) s a n w →
    epochArgs s a n w = some (ix, m, e, l) → l.epoch < e →
    exec (.epochEnter a w) s = .next (parkAgent s a 6 (.epoch (handleOf ix m) (bits (iImm w) 15 0) e))) ∧
  (∀ (s : State) (a : Agent) (n ix e : Nat) (w : Word) (m : Model) (l : Layer), Issues (rowEpoch true) s a n w →
    epochArgs s a n w = some (ix, m, e, l) →
    exec (.epochLeave a w) s = .next (thenNext s (putS (leftLayer s n ix e (bits (iImm w) 15 0)) a (iDst w) 0) a n)) ∧
  (∀ (s : State) (n ix e layer : Nat) (m : Model), tfind s.models ix = some m → startedOf m n e ≤ passedOf m n e layer →
    leftLayer s n ix e layer = modPart (journal s (controlCoreOf n) 10 ix true) m.part fun p =>
      { p with mdlEpochErrors := p.mdlEpochErrors + 1 })

/-! ### Collectives (R150 to R155, R275 to R293) -/

/-- R150 to R153: a COLL that its checks pass and that no re-shard stops is issued; one whose tensor is being re-sharded parks;
a GFLAG of an aborted step returns its flag set and ABORTED; a RESHARD whose checks pass enters the hub, counted in its group, and
completes once its fence is open, waiting there until then; one of an aborted step completes its group with ABORTED. -/
def Obligations.CollectiveInstructions : Prop :=
  (∀ (s : State) (a : Agent) (n : Nat) (w : Word) (d : ColDesc) (t u : Tensor), Issues rowColl s a n w →
    colDescOf s.peers.self (dOf s a (iSrc3 w)) = some d → tensorOf (dOf s a (iSrc1 w)) = some t →
    tensorOf (dOf s a (iDst w)) = some u → collOk d t u (getCtx s n).colgroup = true →
    collDouble s n (attemptOf s (getCtx s n).colgroup) d = false → tensorBad s n t false = none → tensorBad s n u true = none →
    usesWhey d t = false → (d.op ≤ 1 → reshardOf s n t.id = false ∧ reshardOf s n u.id = false) →
    exec (.coll a w) s = .next (thenNext s (collIssue s a n (bits (iImm w) 31 28) (dOf s a (iSrc3 w)) (dOf s a (iSrc1 w))
      (dOf s a (iDst w)) d t u) a n)) ∧
  (∀ (s : State) (a : Agent) (n : Nat) (w : Word) (d : ColDesc) (t u : Tensor), Issues rowColl s a n w →
    colDescOf s.peers.self (dOf s a (iSrc3 w)) = some d → tensorOf (dOf s a (iSrc1 w)) = some t →
    tensorOf (dOf s a (iDst w)) = some u → collOk d t u (getCtx s n).colgroup = true →
    collDouble s n (attemptOf s (getCtx s n).colgroup) d = false → tensorBad s n t false = none → tensorBad s n u true = none →
    usesWhey d t = false → d.op ≤ 1 → reshardOf s n t.id = true →
    exec (.coll a w) s = .next (parkAgent s a 5 (.layoutFence t.id))) ∧
  (∀ (s : State) (a : Agent) (n v : Nat) (w : Word), Issues rowGflag s a n w → (threadOf s a).woken = some v →
    exec (.gflag a w) s = .next (thenNext s (putS s a (iDst w) (w64 v)) a n)) ∧
  (∀ (s : State) (a : Agent) (n : Nat) (w : Word) (d : ColDesc), Issues rowGflag s a n w → (threadOf s a).woken = none →
    colDescOf s.peers.self (dOf s a (iSrc3 w)) = some d → (getCtx s n).colgroup ≠ 0 →
    s.hub.flagged.contains (n, attemptOf s (getCtx s n).colgroup, d.step) = false →
    stepAborted (clearLatch s n d.step) (getCtx s n).colgroup (attemptOf s (getCtx s n).colgroup) d.step = true →
    exec (.gflag a w) s = .next (thenNext s (putS (gflagAtOnce (modHub (clearLatch s n d.step) fun h =>
      { h with flagged := h.flagged ++ [(n, attemptOf s (getCtx s n).colgroup, d.step)] })
      { ctx := n, agent := a, dst := iDst w, group := (getCtx s n).colgroup, attempt := attemptOf s (getCtx s n).colgroup,
        step := d.step, members := d.members, flag := wbit (sOf s a (iSrc1 w)) 0 || latchTaken s n d.step, sent := false,
        deadline := now s + d.limit, order := (clearLatch s n d.step).serial + 1 }) a (iDst w) (w64 (1 + rcAborted <<< 8))) a n)) ∧
  (∀ (s s' : State) (a : Agent) (n check : Nat) (w : Word) (d : ColDesc) (t : Tensor) (m : MapRec), Issues rowReshard s a n w →
    (threadOf s a).woken = none → colDescOf s.peers.self (dOf s a (iSrc3 w)) = some d → tensorOf (dOf s a (iSrc1 w)) = some t →
    (getCtx s n).dst.role ≠ 1 → reshardOk d t (getCtx s n).colgroup = true →
    readMapRec s n (sOf s a (iSrc2 w)).toNat d t = (.ok (m, check), s') →
    reshardTooLate s' n (getCtx s n).colgroup (attemptOf s' (getCtx s n).colgroup) d.step = true →
    exec (.reshard a w) s = .next (thenNext s (reshardVoid s' a (bits (iImm w) 31 28)) a n)) ∧
  (∀ (s s' u : State) (a : Agent) (n check id : Nat) (w : Word) (d : ColDesc) (t : Tensor) (m : MapRec) (r : Reshard),
    Issues rowReshard s a n w →
    (threadOf s a).woken = none → colDescOf s.peers.self (dOf s a (iSrc3 w)) = some d → tensorOf (dOf s a (iSrc1 w)) = some t →
    (getCtx s n).dst.role ≠ 1 → reshardOk d t (getCtx s n).colgroup = true →
    readMapRec s n (sOf s a (iSrc2 w)).toNat d t = (.ok (m, check), s') →
    reshardTooLate s' n (getCtx s n).colgroup (attemptOf s' (getCtx s n).colgroup) d.step = false →
    reshardEnter s' a n (bits (iImm w) 31 28) (dOf s a (iSrc3 w)) (dOf s a (iSrc1 w)) m check = (id, u) →
    tfind u.hub.reshards id = some r → fenceOpen u r = true →
    exec (.reshard a w) s = .next (thenNext s (hubSettle (reshardPass u id)) a n) ∧ r.phase = .fence ∧
      r.cg = { agent := a, cg := bits (iImm w) 31 28 }) ∧
  (∀ (s s' u : State) (a : Agent) (n check id : Nat) (w : Word) (d : ColDesc) (t : Tensor) (m : MapRec) (r : Reshard),
    Issues rowReshard s a n w →
    (threadOf s a).woken = none → colDescOf s.peers.self (dOf s a (iSrc3 w)) = some d → tensorOf (dOf s a (iSrc1 w)) = some t →
    (getCtx s n).dst.role ≠ 1 → reshardOk d t (getCtx s n).colgroup = true →
    readMapRec s n (sOf s a (iSrc2 w)).toNat d t = (.ok (m, check), s') →
    reshardTooLate s' n (getCtx s n).colgroup (attemptOf s' (getCtx s n).colgroup) d.step = false →
    reshardEnter s' a n (bits (iImm w) 31 28) (dOf s a (iSrc3 w)) (dOf s a (iSrc1 w)) m check = (id, u) →
    tfind u.hub.reshards id = some r → fenceOpen u r = false →
    exec (.reshard a w) s = .next (parkAgent u a 5 (.reshard id))) ∧
  (∀ (s : State) (a : Agent) (n : Nat) (w : Word), Issues rowReshard s a n w → (threadOf s a).woken.isSome = true →
    exec (.reshard a w) s = .next (thenNext s s a n))

/-! ### Updates (R155, R234 to R256) -/

/-- R155, R235: each UPDOP, on the descriptor that names its operation, counts a request of its group and puts the operation in
the queue, where it starts at once unless something blocks it; one of a tensor without elements counts as done at once; with the
64 entries of its stack taken the thread parks (Table 9.1). R235: an operation that nothing blocks leaves the queue and runs;
one that something blocks stays. R235: an operation that an earlier one of its context on one of its objects precedes is
blocked. R253: what an open snapshot has left is copied, its bank is marked valid with its step, and it is closed. Where a
command's condition is not met the state stays as it is (the model's choice, log 1). -/
def Obligations.UpdateOperations : Prop :=
  (∀ (s q r : State) (a : Agent) (n op : Nat) (i : Instr) (w : Word) (d : UpdDesc) (t : Tensor) (o : UpdOp),
    (i, op) ∈ [(Instr.updopOpen a w, 0), (.updopNorm a w, 1), (.updopStep a w, 2), (.updopRegen a w, 3), (.updopFlush a w, 4),
      (.updopKvgather a w, 5)] →
    Issues rowUpdop s a n w → updDescOf (dOf s a (iSrc3 w)) = some d → tensorOf (dOf s a (iSrc1 w)) = some t → d.op = op →
    ((getCtx s n).dst.role ≠ 1 ∨ op = 5) → updTensorOk op t = true → (op = 0 → openFieldsOk t = true) → t.elems ≠ 0 →
    opQueueFull s (stackOfVa s n t.base) = false →
    bump (issueCg s a (bits (iImm w) 31 28) 1) = q →
    o = { ctx := n, agent := a, desc := dOf s a (iSrc3 w), tensor := dOf s a (iSrc1 w),
          step := (sOf q a (iSrc2 w)).toNat % 2 ^ 32, cg := bits (iImm w) 31 28, insn := w, ip := (threadOf q a).ip,
          block := (threadOf q a).block, order := q.serial } →
    startUpd (modUpd q fun u => { u with ops := tput u.ops q.upd.nextOp o, nextOp := q.upd.nextOp + 1 }) q.upd.nextOp = r →
    (getCtx r n).state = ctxLive → exec i s = .next (thenNext s r a n)) ∧
  (∀ (s : State) (a : Agent) (n op : Nat) (i : Instr) (w : Word) (d : UpdDesc) (t : Tensor),
    (i, op) ∈ [(Instr.updopOpen a w, 0), (.updopNorm a w, 1), (.updopStep a w, 2), (.updopRegen a w, 3), (.updopFlush a w, 4),
      (.updopKvgather a w, 5)] →
    Issues rowUpdop s a n w → updDescOf (dOf s a (iSrc3 w)) = some d → tensorOf (dOf s a (iSrc1 w)) = some t → d.op = op →
    ((getCtx s n).dst.role ≠ 1 ∨ op = 5) → updTensorOk op t = true → (op = 0 → openFieldsOk t = true) →
    (t.elems = 0 → exec i s = .next (thenNext s (emptyCg s a (some (bits (iImm w) 31 28))) a n)) ∧
    (t.elems ≠ 0 → opQueueFull s (stackOfVa s n t.base) = true →
      exec i s = .next (parkAgent s a 3 (.updQueue (stackOfVa s n t.base))))) ∧
  (∀ (s : State) (id : Nat) (o : UpdOp) (d : UpdDesc) (t : Tensor), tfind s.upd.ops id = some o → opBlocked s o = false →
    updDescOf o.desc = some d → tensorOf o.tensor = some t →
    exec (.updOpStart id) s = .next (endUpd (modUpd s fun u => { u with ops := tdel u.ops id }) o d t)) ∧
  (∀ (s : State) (id : Nat) (o : UpdOp), tfind s.upd.ops id = some o → opBlocked s o = true →
    exec (.updOpStart id) s = .next s) ∧
  (∀ (s s' : State) (o : UpdOp) (d : UpdDesc) (t : Tensor) (rc : Nat), runUpd (queueFreed s) o d t = (.ok rc, s') →
    endUpd s o d t = groupEnds s' { agent := o.agent, cg := o.cg } o.ctx (updCode s.mem.tierFailed s' rc)) ∧
  (∀ (s : State) (id b : Nat) (o e : UpdOp), (id, e) ∈ s.upd.ops → e.ctx = o.ctx → e.order < o.order → b ∈ opObjects s e →
    b ∈ opObjects s o → opBlocked s o = true) ∧
  (∀ (s : State) (id : Nat) (x : Snapshot), tfind s.upd.snapshots id = some x →
    ∃ t, exec (.snapshotComplete id) s = .next t ∧ tfind t.upd.snapshots id = none ∧ t.upd.ops = s.upd.ops ∧
      t.upd.sessions = s.upd.sessions ∧ t = modUpd (engineMerge (mirrorValid (copySnapshot s id) x.ctx x.mirrorVa x.bank true)
        { agent := .ctl x.ctx, cg := 0 } x.ctx x.mirrorVa (8 + 4 * x.bank) (leBytes 4 x.step)) fun u =>
          { u with snapshots := tdel u.snapshots id })

/-- R237, R238, R241: UPDACC sends a contribution for every grain of its tile; UPDCLOSE enters its close; a contribution in turn
is added, one ahead is held, one that finds the reorder pool full is refused and can be sent again; the session that has its
closes is completed. Where a command's condition is not met the state stays as it is (the model's choice, log 1). -/
def Obligations.SessionResults : Prop :=
  (∀ (s s' r : State) (c t n id : Nat) (w v : Word) (tile : Tile) (b : Tensor) (x : Session) (gs : List (Nat × Nat × Nat)),
    Issues rowUpdacc s (.thread c t) n w → (threadOf s (.thread c t)).woken = none → sOf s (.thread c t) (iSrc3 w) = v →
    (getCtx s n).dst.role ≠ 1 →
    tileFor (getCtx s n).num.s5emu (getCore s c) (dOf s (.thread c t) (iSrc1 w)) = some tile →
    tensorOf (dOf s (.thread c t) (iSrc2 w)) = some b → accFieldsOk tile b (fld v 47 0) = true → b.elems ≠ 0 →
    sessionOn s n b.base = some (id, x) → accOk tile b x (fld v 47 0) (fld v 63 48) = true → accGrains tile b (fld v 47 0) = gs → gs ≠ [] →
    firstFault s n true (gs.map fun e => sessVa x e.2.2) = none → reshardOf s n b.id = false →
    reshardOf s n (sessTensor x) = false → guardSp s c t tile.runs [] = .ok s' →
    sendContribs (countSession s' n id x) c t n id (bits (iImm w) 31 28) (fld v 63 48) x tile gs = .done r →
    exec (.updacc (.thread c t) w) s = .next (thenNext s r (.thread c t) n)) ∧
  (∀ (s q : State) (a : Agent) (n id : Nat) (w : Word) (b : Tensor) (x : Session), Issues rowUpdclose s a n w →
    (getCtx s n).dst.role ≠ 1 → tensorOf (dOf s a (iSrc1 w)) = some b → b.id ≠ 0 → b.elems ≠ 0 →
    opQueueFull s (stackOfVa s n b.base) = false → sessionOn s n b.base = some (id, x) →
    x.step = (sOf s a (iSrc2 w)).toNat % 2 ^ 32 → bump (issueCg s a (bits (iImm w) 31 28) 1) = q →
    exec (.updclose a w) s = .next (thenNext s (countCloses (setSession q id
      { x with closing := x.closing ++ [(a, q.serial)],
               closers := x.closers ++ [{ agent := a, cg := bits (iImm w) 31 28 }] }) id) a n)) ∧
  (∀ (s : State) (req : Nat) (k : Contrib) (x : Session), tfind s.upd.contribs req = some k → k.phase = .inFlight →
    tfind s.upd.sessions k.sess = some x → x.complete = false → k.tag = tget 0 x.next k.grain →
    exec (.contributionArrive req false) s = .next (endContrib (acceptContrib s k x k.poison) req k
      (if k.poison then rcPoisoned else 0))) ∧
  (∀ (s : State) (req : Nat) (k : Contrib) (x : Session), tfind s.upd.contribs req = some k → k.phase = .inFlight →
    tfind s.upd.sessions k.sess = some x → x.complete = false → k.tag ≠ tget 0 x.next k.grain →
    poolSize ≤ poolUsed s (stackOfVa s k.ctx k.va) →
    exec (.contributionArrive req false) s = .next (modUpd s fun u =>
      { u with contribs := tput u.contribs req { k with phase := .refused s.clk.tick } })) ∧
  (∀ (s : State) (req : Nat) (k : Contrib) (x : Session), tfind s.upd.contribs req = some k → k.phase = .inFlight →
    tfind s.upd.sessions k.sess = some x → x.complete = false → tget 0 x.next k.grain < k.tag →
    poolUsed s (stackOfVa s k.ctx k.va) < poolSize → (x.pool.any fun h => h.1 == k.grain && h.2.1 == k.tag) = false →
    exec (.contributionArrive req false) s = .next (endContrib (acceptContrib s k x k.poison) req k
      (if k.poison then rcPoisoned else 0)) ∧
    ∃ y, tfind (acceptContrib s k x k.poison).upd.sessions k.sess = some y ∧
      (k.grain, k.tag, k.data, k.poison) ∈ y.pool ∧ y.next = x.next) ∧
  (∀ (s : State) (req tick : Nat) (k : Contrib), tfind s.upd.contribs req = some k → k.phase = .refused tick →
    exec (.contributionResend req) s = .next (modUpd s fun u =>
      { u with contribs := tput u.contribs req { k with phase := .inFlight } })) ∧
  (∀ (s : State) (id : Nat) (x : Session), tfind s.upd.sessions id = some x → x.complete = false → x.contrib ≤ x.closes →
    ∃ t, exec (.sessionComplete id) s = .next t ∧ ∀ y, tfind t.upd.sessions id = some y → y.complete = true) ∧
  (∀ (s : State) (id : Nat) (x : Session), tfind s.upd.sessions id = some x → x.closes < x.contrib →
    exec (.sessionComplete id) s = .next s)

/-! ### Firing (R29, R35 to R41, R56, R77, R79) -/

/-- R79: at binding a thread's registers hold 0, but for s1, s2 and s3. -/
def Obligations.BindingRegisters : Prop :=
  ∀ (s : State) (c b t since : Nat) (d : BlockDesc), coreRuns s c = true → (getCore s c).loading = false →
    minBy (fun e => e.2) (bindable (getCore s c)) = some (b, since) → freeThread (getCore s c) = some t →
    blockDesc (getCore s c) b = some d →
    ∃ u, exec (.blockBind c) s = .next u ∧
      getS (getThread (getCore u c) t) 1 = w64 (c % 1024) ∧ getS (getThread (getCore u c) t) 2 = w64 b ∧
      getS (getThread (getCore u c) t) 3 = w64 ((getBlk (getCore s c) b).total + 1) ∧
      (∀ r, r ≠ 1 → r ≠ 2 → r ≠ 3 → getS (getThread (getCore u c) t) r = 0) ∧
      (∀ r, getP (getThread (getCore u c) t) r = false) ∧
      (getThread (getCore u c) t).st = .runnable ∧ (getThread (getCore u c) t).ip = d.entry ∧
      (getThread (getCore u c) t).block = b ∧ u.mem = s.mem ∧ u.ctxs = s.ctxs ∧ (∀ k, k ≠ c → getCore u k = getCore s k)

/-- R77: a core whose threads have ended takes the image of a LOADP: one that its check passes is installed, with the code at
scratchpad 0, the data at its base, and nothing else there; one that fails leaves the core without a program. The last core of
the load wakes the control thread. R29, R56: a core idle for four cycles is gated; one whose 16 threads have waited for data or
credit for the stall limit while a block is ready faults its context with code 0x08. R62, R64, R95: the oldest word in flight
lands, returned credit reaches its send end, and the oldest contribution of a core is counted, at a core that runs; at a stopped
die they wait at the edge (R28). Where a command's condition is not met the state stays as it is (the model's choice, log 1). -/
def Obligations.FiringEvents : Prop :=
  (∀ (s s' : State) (n c : Nat) (j : LoadJob) (im : Image), (getCtx s n).loadp = some j → j.cores = [c] → j.failed = none →
    (getCore s c).owner = some n → (getCore s c).loading = true → boundThreads (getCore s c) = [] → coreRuns s c = true →
    imageHeld s n j.va = false → readProgram s n c j.va = (.ok im, s') →
    exec (.loadProceed n c) s = .next (wakeAgent (modCtx (installImage s' c im) n fun x => { x with loadp := none }) (.ctl n)
      (some 0))) ∧
  (∀ (s s' : State) (n c e : Nat) (j : LoadJob), (getCtx s n).loadp = some j → j.cores = [c] → j.failed = none →
    (getCore s c).owner = some n → (getCore s c).loading = true → boundThreads (getCore s c) = [] → coreRuns s c = true →
    imageHeld s n j.va = false → readProgram s n c j.va = (.error e, s') →
    exec (.loadProceed n c) s = .next (wakeAgent (modCtx (rejectImage s' c) n fun x => { x with loadp := none }) (.ctl n)
      (some e))) ∧
  (∀ (s : State) (c : Nat) (im : Image), (getCore (installImage s c im) c).prog = some im.prog ∧
    (getCore (installImage s c im) c).sp = writeBytes (writeBytes [] 0 im.code) im.dataBase im.data ∧
    (getCore (installImage s c im) c).loading = false) ∧
  (∀ (s : State) (c : Nat), (getCore (rejectImage s c) c).prog = none ∧ (getCore (rejectImage s c) c).loading = false) ∧
  (∀ (s : State) (c : Nat), 4 ≤ (getCore s c).idleRun → coreCanFire (getCore s c) = false → (getCore s c).gated = false →
    exec (.coreClockGate c) s = .next (modCore s c fun x => { x with gated := true })) ∧
  (∀ (s : State) (c n t : Nat), (getCore s c).owner = some n → (getCore s c).starvedSince = some t → s.clk.stallEnable = true →
    0 < s.clk.stallLimitUs → starved (getCore s c) = true → coreRuns s c = true → t + s.clk.stallLimitUs * 48 ≤ s.clk.tick →
    exec (.starvationFault c) s = .next (ctxFault s n
      { FaultRec.reset with code := fcStarvation, core := c, tick := s.clk.tick })) ∧
  (∀ (s : State) (c n t : Nat), (getCore s c).owner = some n → (getCore s c).starvedSince = some t →
    s.clk.tick < t + s.clk.stallLimitUs * 48 → exec (.starvationFault c) s = .next s) ∧
  (∀ (s : State) (c ep : Nat), (getEp (getCore s c) ep).inFlight ≠ [] → coreRuns s c = true →
    exec (.queueWordLand c ep) s = .next (landNext s c ep)) ∧
  (∀ (s : State) (c ep : Nat), (getEp (getCore s c) ep).inFlight ≠ [] → coreRuns s c = false → dieStopped s c = true →
    exec (.queueWordLand c ep) s = .next (holdAtEdge s c (.word c ep))) ∧
  (∀ (s : State) (c ep : Nat), (getEp (getCore s c) ep).creditFlight ≠ 0 → (getEp (getCore s c) ep).isOpen = true →
    coreRuns s c = true →
    ∃ t, exec (.creditArrive c ep) s = .next t ∧ t.mem = s.mem ∧ (getEp (getCore t c) ep).creditFlight = 0 ∧
      (getEp (getCore t c) ep).credits = (getEp (getCore s c) ep).credits + (getEp (getCore s c) ep).creditFlight) ∧
  (∀ (s : State) (n c k : Nat) (m : Contribution) (l : List Contribution), coreKeyOf s n c = some k →
    (getCore s k).sumFlight = m :: l →
    ∃ t, exec (.summaryArrive n c) s = .next t ∧ (getCore t k).sumCredit = (getCore s k).sumCredit + 1 ∧
      (getCore t k).sumFlight = l ∧ t.mem = s.mem)

/-! ### The always-on domain (R7, R18 to R31, R369, R370, R430) -/

/-- R17, R18: the 10 µs average of input power stays within 3,600 W whatever the load asks for; with it above SUSTAINED_W for 8 ms,
the governor takes a step down; at most 95 % of it for ten samples lets it take a step up, of the clock
only while every sensor reads 95 °C or less (R430); any other sample leaves the steps. R430, R388: above 100 °C the clock goes down a step and THERMAL is
set; above 115 °C the module enters FATAL; at 95 °C or below the heat no longer keeps the clock down. R22, R388: the loss of the
oscillator in use switches to the other one; the loss of both is FATAL. R27, R28: the PLL of an active die stops after its
hold-off without work, and starts again with what waited at its edge. Where a command's condition is not met the state stays as
it is (the model's choice, log 1). -/
def Obligations.GovernorAndHeat : Prop :=
  (∀ (s : State) (p q : Nat), s.pwr.off = false → min p 3600000 = q → 1000 * s.clk.sustainedW < q → 799 ≤ s.clk.aboveSamples →
    canLower s = true →
    ∃ t, exec (.govStep p) s = .next t ∧ t.clk.lowered = s.clk.lowered + 1 ∧ t.clk.throttling = true ∧ t.clk.inPower = q ∧
      t.mem = s.mem ∧ t.cores = s.cores) ∧
  (∀ (s : State) (p q : Nat), s.pwr.off = false → min p 3600000 = q → 1000 * s.clk.sustainedW < q → 799 ≤ s.clk.aboveSamples →
    canLower s = false →
    ∃ t, exec (.govStep p) s = .next t ∧ t.clk.lowered = s.clk.lowered ∧ t.clk.issueWithheld = min 15 (s.clk.issueWithheld + 1) ∧
      t.clk.throttling = true) ∧
  (∀ (s : State) (p q : Nat), s.pwr.off = false → min p 3600000 = q → 1000 * s.clk.sustainedW < q → s.clk.aboveSamples < 799 →
    ∃ t, exec (.govStep p) s = .next t ∧ t.clk.lowered = s.clk.lowered ∧ t.clk.issueWithheld = s.clk.issueWithheld ∧
      t.clk.aboveSamples = s.clk.aboveSamples + 1) ∧
  (∀ (s : State) (p q : Nat), s.pwr.off = false → min p 3600000 = q → q * 20 ≤ 1000 * s.clk.sustainedW * 19 →
    9 ≤ s.clk.relaxSamples → 0 < s.clk.issueWithheld →
    ∃ t, exec (.govStep p) s = .next t ∧ t.clk.issueWithheld = s.clk.issueWithheld - 1 ∧ t.clk.lowered = s.clk.lowered) ∧
  (∀ (s : State) (p q : Nat), s.pwr.off = false → min p 3600000 = q → q * 20 ≤ 1000 * s.clk.sustainedW * 19 →
    9 ≤ s.clk.relaxSamples → s.clk.issueWithheld = 0 → s.clk.hot = false → s.pwr.tempMax ≤ 95 →
    ∃ t, exec (.govStep p) s = .next t ∧ t.clk.lowered = s.clk.lowered - 1 ∧ (s.clk.lowered ≤ 1 → t.clk.throttling = false)) ∧
  (∀ (s t : State) (p : Nat), s.pwr.off = false → exec (.govStep p) s = .next t → t.clk.inPower ≤ 3600000) ∧
  (∀ (s : State) (k : Nat), s.pwr.off = false → s.recov.fatal = false → 100 < k → k ≤ 115 →
    ∃ t, exec (.thermalSense k) s = .next t ∧ t.clk.lowered = (if canLower s then s.clk.lowered + 1 else s.clk.lowered) ∧
      t.clk.hot = true ∧ t.pwr.thermal = true ∧ t.recov.fatal = false) ∧
  (∀ (s : State) (k : Nat), s.pwr.off = false → s.recov.fatal = false → 115 < k →
    ∃ t, exec (.thermalSense k) s = .next t ∧ t.recov.fatal = true) ∧
  (∀ (s : State) (k : Nat), s.pwr.off = false → s.recov.fatal = false → k ≤ 95 →
    ∃ t, exec (.thermalSense k) s = .next t ∧ t.clk.hot = false ∧ t.clk.lowered = s.clk.lowered ∧ t.pwr.tempMax = k) ∧
  (∀ (s : State), s.pwr.off = false → s.clk.oscB = false → s.clk.failB = false →
    ∃ t, exec (.oscFail false) s = .next t ∧ t.clk.oscB = true ∧ t.clk.failA = true ∧ t.clk.tick = s.clk.tick ∧
      t.mem = s.mem) ∧
  (∀ (s : State) (b : Bool), s.pwr.off = false → (if b then s.clk.failA else s.clk.failB) = true →
    ∃ t, exec (.oscFail b) s = .next t ∧ t.recov.fatal = true) ∧
  (∀ (s : State) (k : Nat), running s = true → (getDie s k).state = 2 → (getDie s k).pllOn = true → dieHasWork s k = false →
    48 * (getDie s k).holdoff ≤ (getDie s k).idleTicks →
    ∃ t, exec (.pllStop k) s = .next t ∧ (getDie t k).pllOn = false ∧ t.cores = s.cores ∧ t.mem = s.mem) ∧
  (∀ (s : State) (k : Nat), (getDie s k).idleTicks < 48 * (getDie s k).holdoff → exec (.pllStop k) s = .next s) ∧
  (∀ (s : State) (k : Nat), running s = true → s.pwr.inHold = false → (getDie s k).state = 2 →
    (getDie s k).pllOn = false → (getDie s k).starting = true → s.clk.edge.filter (edgeOf s (coresOfDie s k)) = [] →
    ∃ t, exec (.pllStable k) s = .next t ∧ (getDie t k).pllOn = true ∧ (getDie t k).starting = false ∧
      t.cores = s.cores ∧ t.mem = s.mem)

/-- R7, R31, Tables 1.9 and 1.12: a read of TICK_LO latches the upper half; a read of GOV_STATUS clears THROTTLE_EVENTS;
KEEP_WARM and the hold-off are stored, and of a die that is not active they start nothing. R20, R370: a collection of
an interval of 10 µs adds the module's input energy, within what R17 lets the input give; IN_ENERGY is its whole millijoules. -/
def Obligations.ClockRegisters : Prop :=
  (∀ (s : State), hostUp s = true →
    ∃ t, exec .tickLoRead s = .next t ∧ t.clk.hiLatch = s.clk.tick / 2 ^ 32 % 2 ^ 32 ∧
      t.out = s.out ++ [.regValue (s.clk.tick % 2 ^ 32)] ∧ t.clk.tick = s.clk.tick) ∧
  (∀ (s : State), hostUp s = true →
    ∃ t, exec .govStatusRead s = .next t ∧ t.clk.throttleEvents = 0 ∧ t.out = s.out ++ [.regValue (govStatus s.clk)]) ∧
  (∀ (s : State) (k : Nat) (v : Word32), hostUp s = true → k < 9 →
    ∃ t, exec (.keepWarmWrite k v) s = .next t ∧ (getDie t k).keepWarm = v.getLsbD 30 ∧
      (getDie t k).holdoff = v.toNat / 2 ^ 12 % 2 ^ 12) ∧
  (∀ (s : State) (k : Nat) (v : Word32), hostUp s = true → k < 9 → (getDie s k).state ≠ 2 →
    ∃ t, exec (.keepWarmWrite k v) s = .next t ∧ (getDie t k).pllOn = (getDie s k).pllOn ∧
      (getDie t k).starting = (getDie s k).starting) ∧
  (∀ (s : State) (uj : Nat) (ds : List DomainReading), s.pwr.off = false →
    ∃ t, exec (.monitorCollect uj ds) s = .next t ∧ t.clk.inputUj = s.clk.inputUj + min uj 36000 ∧
      t.clk.inEnergy = (s.clk.inputUj + min uj 36000) / 1000 ∧ t.mem = s.mem ∧ t.cores = s.cores)

/-! ### The memory tiers (R49, R50, R209 to R212, R226 to R230, R414, R415, R462) -/

/-- R49, R135, R381, R462: a response that is whole lands and ends its request with its code; one that was corrupted arrives
poisoned; an acknowledgement ends its write; for an ending context either is discarded; for a core of a stopped die it waits at
the bridge edge (R28). R50: a bank serves the request accepted first, of equals the one of the lowest source: a read takes the
grain as it lies, a write is performed, or waits while the host may hold one of its lines (R414). R439: a stack in self-refresh
serves nothing. -/
def Obligations.BankResults : Prop :=
  (∀ (s : State) (id c : Nat) (r : MReq), getMReq s id = some r → r.isWrite = false → r.phase = .served →
    (getCtx s r.ctx).state = ctxLive → r.core = some c → dieStopped s c = false → r.tag.check = crc32c r.data →
    exec (.grainResponse id false) s = .next (afterReq (endReq s id r.code r.data r.tag) r.core)) ∧
  (∀ (s : State) (id c : Nat) (r : MReq), getMReq s id = some r → r.isWrite = false → r.phase = .served →
    (getCtx s r.ctx).state = ctxLive → r.core = some c → dieStopped s c = false →
    ∃ bs s', remoteGrain s = (bs, s') ∧ exec (.grainResponse id true) s = .next (afterReq (endReq (checkFailed s' r.pa) id r.code bs
      { r.tag with check := crc32c bs, poison := true }) r.core)) ∧
  (∀ (s : State) (id c : Nat) (r : MReq), getMReq s id = some r → r.isWrite = false → r.phase = .served →
    (getCtx s r.ctx).state = ctxLive → r.core = some c → dieStopped s c = true →
    exec (.grainResponse id false) s = .next (holdAtEdge s c (.grain id false))) ∧
  (∀ (s : State) (id : Nat) (r : MReq), getMReq s id = some r → r.isWrite = false → r.phase = .served →
    (getCtx s r.ctx).state = ctxLive → r.core = none → r.tag.check = crc32c r.data →
    exec (.grainResponse id false) s = .next (afterReq (endReq s id r.code r.data r.tag) none)) ∧
  (∀ (s : State) (id : Nat) (r : MReq), getMReq s id = some r → r.isWrite = true → r.phase = .served →
    (getCtx s r.ctx).state = ctxLive → (∀ c, r.core = some c → dieStopped s c = false) →
    exec (.writeAck id) s = .next (afterReq (endReq s id r.code [] r.tag) r.core)) ∧
  (∀ (s : State) (id c : Nat) (r : MReq), getMReq s id = some r → r.isWrite = true → r.phase = .served →
    (getCtx s r.ctx).state = ctxLive → r.core = some c → dieStopped s c = true →
    exec (.writeAck id) s = .next (holdAtEdge s c (.grain id false))) ∧
  (∀ (s : State) (id : Nat) (r : MReq), getMReq s id = some r → r.isWrite = true → r.phase = .served →
    (getCtx s r.ctx).state = ctxEnding → exec (.writeAck id) s = .next (discardReq s id r)) ∧
  (∀ (s : State) (bank id : Nat) (r : MReq), s.pwr.inHold = false → bankAsleep s bank = false → nextAtBank s bank = some (id, r) →
    fromOutside r = true → exec (.bankServe bank) s = .next (serveOutside (modMem s fun m => { m with reqs := tdel m.reqs id }) r)) ∧
  (∀ (s : State) (bank : Nat), bankAsleep s bank = true → exec (.bankServe bank) s = .next s) ∧
  (∀ (s : State) (bank id : Nat) (r : MReq), s.pwr.inHold = false → bankAsleep s bank = false → nextAtBank s bank = some (id, r) → fromOutside r = false →
    r.isWrite = false → servePa s r.pa = r.pa → unitLost s r.pa = false →
    exec (.bankServe bank) s = .next (setMReq s id { r with phase := .served, data := grainAt s r.pa, tag := tagAt s r.pa })) ∧
  (∀ (s : State) (bank id q : Nat) (r : MReq), s.pwr.inHold = false → bankAsleep s bank = false → nextAtBank s bank = some (id, r) → fromOutside r = false →
    r.isWrite = false → servePa s r.pa = q → q ≠ r.pa → unitLost s q = false →
    exec (.bankServe bank) s = .next (setMReq (modMem s fun m => { m with mirrorFailovers := m.mirrorFailovers + 1 }) id
      { r with phase := .served, data := grainAt s q, tag := tagAt s q })) ∧
  (∀ (s : State) (bank id : Nat) (r : MReq), s.pwr.inHold = false → bankAsleep s bank = false → nextAtBank s bank = some (id, r) → fromOutside r = false →
    r.isWrite = true → unitLost s r.pa = false → heldLines s r.pa = [] → biWaits s r.pa = false →
    exec (.bankServe bank) s = .next (setMReq (performWrite s r) id { mergedReq s r with phase := .served })) ∧
  (∀ (s : State) (bank id : Nat) (r : MReq), s.pwr.inHold = false → bankAsleep s bank = false → nextAtBank s bank = some (id, r) → fromOutside r = false →
    r.isWrite = true → unitLost s r.pa = false → heldLines s r.pa ≠ [] →
    ∃ t, exec (.bankServe bank) s = .next t ∧ t.mem.cells = s.mem.cells ∧ getMReq t id = some { r with phase := .waitBi } ∧
      t.out = s.out ++ (heldLines s r.pa).map Out.biSnoop ∧ t.host.bisnp = s.host.bisnp + (heldLines s r.pa).length) ∧
  (∀ (s : State) (bank id : Nat) (r : MReq), nextAtBank s bank = some (id, r) →
    r.phase = .queued ∧ bankOf s.mem.hintGroups r.pa = bank ∧ mustWait s r = false ∧
    (∀ k q, (k, q) ∈ s.mem.reqs → q.phase = .queued → (q.tier = 1 ∨ q.tier = 2) → bankOf s.mem.hintGroups q.pa = bank →
      mustWait s q = false → r.stamp ≤ q.stamp ∧ (q.stamp = r.stamp → r.source ≤ q.source)))

/-- R226: a request beyond the limit of its tier fails; one within it does not. R415, R414: the completion of a read of host
memory brings what lies there; that of a write performs it; a failed one fails the request. The host's answer for
a line ends its wait; a write that waited for its last line is performed. Where a command's condition is not met the state stays as it is (the model's choice, log 1). -/
def Obligations.TierResults : Prop :=
  (∀ (s : State) (id : Nat) (r : MReq), getMReq s id = some r → 2 ≤ r.tier → unanswered s id r = true →
    r.stamp + r.limit < s.clk.tick → exec (.tierLate id) s = .next (afterReq (failReq s id) r.core)) ∧
  (∀ (s : State) (id : Nat) (r : MReq), getMReq s id = some r → s.clk.tick ≤ r.stamp + r.limit → exec (.tierLate id) s = .next s) ∧
  (∀ (s : State) (id : Nat) (r : MReq), getMReq s id = some r → r.tier = 1 → exec (.tierLate id) s = .next s) ∧
  (∀ (s : State) (id : Nat) (p : Bool) (r : MReq), getMReq s id = some r → r.tier = 4 → r.phase = .queued → mustWait s r = false →
    r.isWrite = false →
    exec (.tier4Completion id true p) s = .next (setMReq s id { r with phase := .served, data := grainAt s r.pa
                                                                       tag := mkTag (grainAt s r.pa) 0 (getCtx s r.ctx).part p })) ∧
  (∀ (s : State) (id : Nat) (p : Bool) (r : MReq), getMReq s id = some r → r.tier = 4 → r.phase = .queued → mustWait s r = false →
    r.isWrite = true → exec (.tier4Completion id true p) s = .next (setMReq (performWrite s r) id { r with phase := .served })) ∧
  (∀ (s : State) (id : Nat) (p : Bool) (r : MReq), getMReq s id = some r → r.tier = 4 → r.phase = .queued → mustWait s r = false →
    exec (.tier4Completion id false p) s = .next (afterReq (failReq s id) r.core)) ∧
  (∀ (s : State) (line : Nat), (s.mem.reqs.filter fun e => e.2.phase == .waitBi) = [] → s.host.fwWaits = [] →
    exec (.backInvalidate line) s = .next (modHost s fun h => { h with biLines := h.biLines.filter fun l => l != line })) ∧
  (∀ (s u : State) (line id : Nat) (r : MReq), (modHost s fun h => { h with biLines := h.biLines.filter fun l => l != line }) = u →
    (u.mem.reqs.filter fun e => e.2.phase == .waitBi && !biWaits u e.2.pa) = [(id, r)] → (∀ p t o, r.dest ≠ .peer p t o) →
    s.host.fwWaits = [] →
    exec (.backInvalidate line) s = .next (setMReq (performWrite u r) id { mergedReq u r with phase := .served })) ∧
  (∀ (s : State) (a : Nat), hostUp s = true → exec (.hostSnoop a) s = .next (emit s (.snoopInvalid a)))

/-- R210, R228 to R230: an uncorrectable error of an unmirrored grain poisons it where it lies and is logged; a mirrored grain
is restored from its mirror; a grain read again from its source is written and counted; a corrected grain is counted. R212,
Table 8.10: GROUPS changes only while no context maps a page of the capacity tier; else the write is refused and says so; 3 is
no value. R209: the hash of the capacity tier keeps channels within the 64, and the banks of near memory within 512 of each
stack. Where a command's condition is not met the state stays as it is (the model's choice, log 1). -/
def Obligations.DramResults : Prop :=
  (∀ (s : State) (pa : Nat), (tierOf pa = 1 ∨ tierOf pa = 2) → unitLost s pa = false → otherCopy s (grainBase pa) = none →
    modelGrain s (grainBase pa) = none →
    ∃ t, exec (.memUncorrectable pa) s = .next t ∧ (tfind t.mem.tags (pa / 256)) = some { tagAt s pa with poison := true } ∧
      (tierOf pa = 1 → t.mem.nmUe = s.mem.nmUe + 1) ∧ (tierOf pa = 2 → t.mem.capUe = s.mem.capUe + 1) ∧ t.cores = s.cores) ∧
  (∀ (s : State) (pa m : Nat), (tierOf pa = 1 ∨ tierOf pa = 2) → unitLost s pa = false → mirrorOf s (grainBase pa) = some m →
    unitLost s m = false →
    ∃ t, exec (.memUncorrectable pa) s = .next t ∧ tfind t.mem.tags (pa / 256) = some (tagAt s m) ∧
      t.mem.mirrorFailovers = s.mem.mirrorFailovers + 1 ∧ t.mem.nmUe = s.mem.nmUe) ∧
  (∀ (s : State) (pa m : Nat), (tierOf pa = 1 ∨ tierOf pa = 2) → unitLost s pa = false → mirrorOf s (grainBase pa) = none →
    primaryOf s (grainBase pa) = some m → unitLost s m = false →
    ∃ t, exec (.memUncorrectable pa) s = .next t ∧ tfind t.mem.tags (pa / 256) = some (tagAt s m) ∧
      t.mem.mirrorFailovers = s.mem.mirrorFailovers ∧ t.mem.nmUe = s.mem.nmUe ∧ t.mem.capUe = s.mem.capUe) ∧
  (∀ (s : State) (pa : Nat), s.mem.refetching.contains (grainBase pa) = true → modelGrain s (grainBase pa) = none →
    exec (.refetchDone pa) s = .next (modMem s fun x => { x with refetching := x.refetching.filter fun g => g != grainBase pa })) ∧
  (∀ (s : State) (pa : Nat) (e : Nat × Model × Layer × Nat), s.mem.refetching.contains (grainBase pa) = true →
    modelGrain s (grainBase pa) = some e →
    ∃ t, exec (.refetchDone pa) s = .next t ∧ t.mem.refetches = s.mem.refetches + 1 ∧
      t.mem.refetching.contains (grainBase pa) = false ∧ t.cores = s.cores ∧ t.ctxs = s.ctxs ∧ t = refetchTile (modMem s fun x =>
        { x with refetching := x.refetching.filter fun g => g != grainBase pa }) (grainBase pa)) ∧
  (∀ (s : State) (pa : Nat), s.mem.refetching.contains (grainBase pa) = false → exec (.refetchDone pa) s = .next s) ∧
  (∀ (s : State) (pa : Nat), unitLost s pa = false → tierOf pa = 1 →
    exec (.patrolScrub pa true) s = .next (modMem s fun m => { m with nmCe := m.nmCe + 1 })) ∧
  (∀ (s : State) (pa : Nat), unitLost s pa = false → tierOf pa = 2 →
    exec (.patrolScrub pa true) s = .next (modMem s fun m => { m with capCe := m.capCe + 1 })) ∧
  (∀ (s : State) (pa : Nat), exec (.patrolScrub pa false) s = .next s) ∧
  (∀ (s : State) (v : Word32), v.toNat % 4 ≠ 3 → v.toNat % 4 ≠ s.mem.hintGroups → capacityMapped s = false →
    ∃ t, exec (.hintCtlWrite v) s = .next t ∧ t.mem.hintGroups = v.toNat % 4 ∧ t.mem.cells = s.mem.cells) ∧
  (∀ (s : State) (v : Word32), v.toNat % 4 ≠ 3 → v.toNat % 4 ≠ s.mem.hintGroups → capacityMapped s = true →
    ∃ t, exec (.hintCtlWrite v) s = .next t ∧ t.mem.hintGroups = s.mem.hintGroups ∧ t.mem.hintRefused = true) ∧
  (∀ (s : State) (v : Word32), v.toNat % 4 = 3 →
    ∃ t, exec (.hintCtlWrite v) s = .next t ∧ t.mem.hintGroups = s.mem.hintGroups) ∧
  (∀ (g pa : Nat), g ≤ 2 → tierOf pa = 2 → (channelOf g pa).1 < 64 ∧ bankOf g pa = 8192 + (channelOf g pa).1) ∧
  (∀ (g pa : Nat), tierOf pa = 1 → bankOf g pa / 512 = pa / 2 ^ 36 ∧ bankOf g pa < 8192)

/-! ### Peer ports and links (R261 to R268) -/

/-- R261: the states of a port, as its commands change them. R262: a lane over the error limit, or without signal, is bad; with
no spare the port retrains; a swap moves the stripe to the lowest spare. Where a command's condition is not met the state stays
as it is (the model's choice, log 1). -/
def Obligations.PortResults : Prop :=
  (∀ (s : State) (k : Nat), (getPort s k).state = ptDisabled → s.pwr.service = 2 →
    ∃ t, exec (.portEnable k true) s = .next t ∧ (getPort t k).state = ptDetect ∧ (getPort t k).enable = true ∧ t.mem = s.mem) ∧
  (∀ (s : State) (k : Nat), (getPort s k).state = ptDisabled → s.pwr.service ≠ 3 →
    ∃ t, exec (.portEnable k false) s = .next t ∧ (getPort t k).state = ptDisabled ∧ (getPort t k).enable = false) ∧
  (∀ (s : State) (k : Nat), (getPort s k).state = ptDown →
    ∃ t, exec (.portRetrain k) s = .next t ∧ (getPort t k).state = ptDetect) ∧
  (∀ (s : State) (k : Nat) (l : BitVec 18), (getPort s k).state = ptDetect → 8 ≤ laneCount l →
    ∃ t, exec (.signalDetect k l) s = .next t ∧ (getPort t k).state = ptTrain ∧ (getPort t k).enteredAt = s.clk.tick) ∧
  (∀ (s : State) (k : Nat) (l : BitVec 18), laneCount l < 8 → exec (.signalDetect k l) s = .next s) ∧
  (∀ (s : State) (k : Nat) (p b : BitVec 18), (getPort s k).state = ptTrain → laneTestOk s k p b = true →
    8 ≤ laneCount (usableLanes s k p) →
    ∃ t, exec (.trainComplete k p b) s = .next t ∧ (getPort t k).state = ptExchange ∧
      (getPort t k).lanes = (if 16 ≤ laneCount (usableLanes s k p) then 16 else 8) ∧ (getPort t k).txNext = 0 ∧
      (getPort t k).rxNext = 0 ∧
      ∃ h, Out.hello h ∈ t.out ∧ h.port = k ∧ h.farPort = k ∧ h.peer = s.peers.self ∧ h.incarnation = s.peers.incarnation ∧
        h.joinEpoch = s.peers.joinEpoch) ∧
  (∀ (s : State) (k : Nat) (p b : BitVec 18), (getPort s k).state = ptTrain → laneTestOk s k p b = true →
    laneCount (usableLanes s k p) < 8 → exec (.trainComplete k p b) s = .next (portDown s k)) ∧
  (∀ (s : State) (k : Nat) (p b : BitVec 18), (getPort s k).state = ptRetrain →
    laneTestOk s k (retrainLanes s k p) b = true → 8 ≤ laneCount (usableLanes s k (retrainLanes s k p)) →
    exec (.retrainComplete k true p b) s = .next (resume (portUp (setLanes s k (retrainLanes s k p) b) k) k)) ∧
  (∀ (s : State) (k : Nat) (p b : BitVec 18), (getPort s k).state = ptRetrain → laneTestOk s k (retrainLanes s k p) b = true →
    exec (.retrainComplete k false p b) s = .next (portDown s k)) ∧
  (∀ (s : State) (k : Nat), (getPort s k).state = ptDown → (getPort s k).enteredAt + 4800000 ≤ s.clk.tick →
    ∃ t, exec (.portDownTimeout k) s = .next t ∧ (getPort t k).state = ptDetect) ∧
  (∀ (s : State) (k : Nat), s.clk.tick < (getPort s k).enteredAt + 4800000 → exec (.portDownTimeout k) s = .next s) ∧
  (∀ (s : State) (k : Nat) (n : List Nat), (getPort s k).state = ptActive → (getPort s k).laneLimit < n.getD 0 0 →
    bit (getPort s k).active.toNat 0 = true → bit (getPort s k).bad.toNat 0 = false → (∀ j, 1 ≤ j → n.getD j 0 ≤ (getPort s k).laneLimit) →
    exec (.laneErrorInterval k n) s = .next (nextSwap (laneBad s k 0) k)) ∧
  (∀ (s : State) (k : Nat) (n : List Nat), (getPort s k).state = ptActive → (∀ j, n.getD j 0 ≤ (getPort s k).laneLimit) →
    exec (.laneErrorInterval k n) s = .next (nextSwap s k)) ∧
  (∀ (s : State) (k l : Nat), (getPort s k).state = ptActive → bit (getPort s k).active.toNat l = true →
    exec (.laneSignalLoss k l) s = .next (nextSwap (laneBad s k l) k)) ∧
  (∀ (s : State) (k l : Nat), (getPort s k).state = ptActive → (getPort s k).swapLane = some l → lowLanes (getPort s k).spare 1 = 0 →
    exec (.laneSwap k l) s = .next (portRetrain s k)) ∧
  (∀ (s : State) (k l : Nat), (getPort s k).state = ptActive → (getPort s k).swapLane = some l → lowLanes (getPort s k).spare 1 ≠ 0 →
    ∃ t, exec (.laneSwap k l) s = .next t ∧ (getPort t k).laneSwaps = (getPort s k).laneSwaps + 1) ∧
  (∀ (s : State) (k : Nat), isActive s k = true →
    ∃ t, exec (.reservedFlit k) s = .next t ∧ (getPort t k).protoErr = (getPort s k).protoErr + 1 ∧
      (getPort t k).state = ptRetrain ∧ (getPort t k).retrains = (getPort s k).retrains + 1)

/-- R264, R268: a group that does not decode is counted and asked for again, or, carrying the flit that the receiver waits for,
retrains the port after REPLAY_MAX; one that
decodes counts its corrections, and its flits and link word are taken. R263, R264: a flit in order whose check matches is
accepted; one whose check does not is asked for again, and after REPLAY_MAX tries is delivered poisoned; a reserved type is a
protocol error. -/
def Obligations.LinkResults : Prop :=
  (∀ (s : State) (k : Nat) (g : FecGroup), (getPort s k).state = ptActive → g.decodes = false →
    (carriesNext (getPort s k) g && decide ((getPort s k).replayMax ≤ (getPort s k).fecTries)) = false →
    ∃ t, exec (.fecGroupReceive k g) s = .next t ∧ (getPort t k).fecUncorr = (getPort s k).fecUncorr + 1 ∧
      (getPort t k).state = ptActive ∧ (getPort t k).rxNext = (getPort s k).rxNext ∧ t.mem = s.mem ∧
      t.out = s.out ++ [.fecGroup k [none, none, none, none]
        { ack := ((getPort s k).rxNext + 4095) % 4096, nak := true, swapLane := noLane, cr := [0, 0, 0, 0] }]) ∧
  (∀ (s : State) (k : Nat) (g : FecGroup), (getPort s k).state = ptActive → g.decodes = false →
    carriesNext (getPort s k) g = true → (getPort s k).replayMax ≤ (getPort s k).fecTries →
    exec (.fecGroupReceive k g) s = .next (portRetrain (setPort s k { getPort s k with
      fecUncorr := (getPort s k).fecUncorr + 1, fecTries := (getPort s k).fecTries + 1 }) k)) ∧
  (∀ (s s' : State) (k : Nat) (g : FecGroup) (nak : Bool), (getPort s k).state = ptActive → g.decodes = true →
    takeFlits (setPort s k { getPort s k with
      fecCorrected := (getPort s k).fecCorrected + g.corrected
      fecTries := if carriesNext (getPort s k) g then 0 else (getPort s k).fecTries }) k (g.flits.take 4) = (s', nak) →
    ∃ t, exec (.fecGroupReceive k g) s = .next (sendLinkWord t k nak noLane (freedOf (getPort s k).rxNext (getPort t k).rxNext g.flits)) ∧
      t = takeLinkWord s' k g.link) ∧
  (∀ (s : State) (k : Nat) (f : Flit), f.ftype ≠ 0 → f.ftype < 7 → f.lseq = (getPort s k).rxNext → f.check = crc32c f.body →
    takeFlit s k f = .taken (acceptFlit s k f)) ∧
  (∀ (s : State) (k : Nat) (f : Flit), f.ftype ≠ 0 → f.ftype < 7 → f.lseq = (getPort s k).rxNext → f.check ≠ crc32c f.body →
    (getPort s k).rxTries < (getPort s k).replayMax →
    ∃ t, takeFlit s k f = .nak t ∧ (getPort t k).checkFail = (getPort s k).checkFail + 1 ∧
      (getPort t k).rxNext = (getPort s k).rxNext ∧ (getPort t k).rxTries = (getPort s k).rxTries + 1) ∧
  (∀ (s : State) (k : Nat) (f : Flit), f.ftype ≠ 0 → f.ftype < 7 → f.lseq = (getPort s k).rxNext → f.check ≠ crc32c f.body →
    (getPort s k).replayMax ≤ (getPort s k).rxTries →
    ∃ t, takeFlit s k f = .taken (acceptFlit t k { f with poison := true, check := crc32c f.body }) ∧
      (getPort t k).poisonDelivered = (getPort s k).poisonDelivered + 1 ∧ (getPort t k).checkFail = (getPort s k).checkFail + 1 ∧
      t.recov.checkFails = s.recov.checkFails + 1) ∧
  (∀ (s : State) (k : Nat) (f : Flit), 7 ≤ f.ftype → f.lseq = (getPort s k).rxNext →
    ∃ t, takeFlit s k f = .nak t ∧ (getPort t k).protoErr = (getPort s k).protoErr + 1) ∧
  (∀ (s : State) (k : Nat) (f : Flit), f.lseq ≠ (getPort s k).rxNext → takeFlit s k f = .taken s)

/-! ### Messages of peers (R69, R203, R263, R270 to R285, R461) -/

/-- R203, R263, R271: a peer's read of an exported grain is answered with it, its write waits for the data, and one that the
access rules do not export is refused with TIER_FAILED; the data performs the write, which is acknowledged once no
back-invalidate holds it (R414), or serves this module's read; an acknowledgement ends its write. -/
def Obligations.PeerMemory : Prop :=
  (∀ (s : State) (p txn pa off len : Nat), peerPresent s p = true → peerServed s p pa false = true → bankBusy s pa = false →
    servePa s (grainBase pa) = grainBase pa →
    exec (.memreq p txn ⟨pa, off, len⟩ false) s =
      .next (sendBulk s p (.memdata p txn (grainAt s (grainBase pa)) (tagAt s (grainBase pa))))) ∧
  (∀ (s : State) (p txn pa off len : Nat), peerPresent s p = true → peerServed s p pa false = true → bankBusy s pa = true →
    exec (.memreq p txn ⟨pa, off, len⟩ false) s =
      .next (queueAtBank s (peerSource s p) (grainBase pa) false [] (mkTag [] 0 0 false) (.peer p txn 0))) ∧
  (∀ (s : State) (p txn pa off len : Nat), peerPresent s p = true → peerServed s p pa true = true →
    exec (.memreq p txn ⟨pa, off, len⟩ true) s =
      .next (modPeers (bump s) fun q => { q with writesIn := q.writesIn ++
        [{ src := p, txn := txn, pa := grainBase pa, off := off, len := len, stamp := s.clk.tick, order := s.serial + 1 }] })) ∧
  (∀ (s : State) (p txn pa off len : Nat) (w : Bool), peerPresent s p = true → exported s p pa w = false →
    exec (.memreq p txn ⟨pa, off, len⟩ w) s = .next (sendBulk s p (.memack p txn rcTierFailed))) ∧
  (∀ (s u v : State) (p txn f q : Nat) (d : List Byte) (bad : Bool) (w : PeerWrite), peerPresent s p = true →
    (s.peers.writesIn.find? fun x => x.src == p && x.txn == txn) = some w → bankBusy s w.pa = false → unitLost s w.pa = false →
    modPeers s (fun x => { x with writesIn := dropFirst (fun y => y == w) x.writesIn }) = u →
    mergeAs (checkHome u w.pa w.off ((fit 256 d).take w.len).length) w.pa w.off ((fit 256 d).take w.len)
      (mkTag (fit 256 d) f q bad) = v →
    (biWaits v w.pa = false → exec (.memdata p txn d f q bad) s = .next (sendBulk v p (.memack p txn rcOk))) ∧
    (biWaits v w.pa = true → exec (.memdata p txn d f q bad) s = .next (addOutside v (outsideReq v.clk.tick v.serial
      (peerSource v p) w.pa true [] (mkTag (fit 256 d) f q bad) (.peer p txn w.off) .waitBi)))) ∧
  (∀ (s u : State) (p txn f q : Nat) (d : List Byte) (bad : Bool) (w : PeerWrite), peerPresent s p = true →
    (s.peers.writesIn.find? fun x => x.src == p && x.txn == txn) = some w → bankBusy s w.pa = true →
    modPeers s (fun x => { x with writesIn := dropFirst (fun y => y == w) x.writesIn }) = u →
    exec (.memdata p txn d f q bad) s = .next (addOutside u (outsideReq w.stamp w.order (peerSource u p) w.pa true
      ((fit 256 d).take w.len) (mkTag (fit 256 d) f q bad) (.peer p txn w.off) .queued))) ∧
  (∀ (s : State) (p txn f q id : Nat) (d : List Byte) (bad : Bool) (r : MReq), peerPresent s p = true →
    (s.peers.writesIn.find? fun w => w.src == p && w.txn == txn) = none → openTxn s p txn = some (id, r) → r.isWrite = false →
    ∃ t, exec (.memdata p txn d f q bad) s = .next t ∧ getMReq t id =
      some { r with phase := .served, data := fit 256 d, tag := mkTag (fit 256 d) f q bad } ∧ t.mem.cells = s.mem.cells) ∧
  (∀ (s : State) (p txn id : Nat) (r : MReq), peerPresent s p = true → openTxn s p txn = some (id, r) → r.isWrite = true →
    (∀ c, r.core = some c → dieStopped s c = false) →
    exec (.memack p txn rcOk) s =
      .next (afterReq (endReq (setMReq s id { r with phase := .served }) id r.code [] r.tag) r.core)) ∧
  (∀ (s : State) (p txn id code : Nat) (r : MReq), peerPresent s p = true → openTxn s p txn = some (id, r) → code ≠ rcOk →
    exec (.memack p txn code) s = .next (afterReq (failReq s id) r.core))

/-- R271: an ordered flit in its turn is delivered, and what came early and is next now after it; one ahead of its turn is held;
one delivered before is discarded. R69, R64, R461: a QUEUE flit joins the words in flight to its end; a QCREDIT returns its words;
a QCONFIG is held for its end; a QCLOSE closes an open end; for a core of a stopped die it waits at the bridge edge (R28). Where a command's condition is not met the state stays as it is (the
model's choice, log 1). -/
def Obligations.QueueMessages : Prop :=
  (∀ (s u : State) (i : Instr) (src cls eseq : Nat) (f : QueueFlit) (m : ArriveMsg) (w : Word) (k : BitVec 8) (b1 b2 : Bool)
      (n1 n2 n3 n4 n5 : Nat), InTurn s u src cls eseq →
    (i, src, cls, eseq) ∈ [(Instr.queueFlit f, f.src, f.cls, f.eseq), (.absent ⟨src, eseq⟩ n1 n2 n3, src, 0, eseq),
      (.arrive ⟨m, eseq⟩, m.src, 0, eseq), (.abort ⟨src, eseq⟩ n1 n2 n3, src, 0, eseq),
      (.gflagMessage ⟨src, eseq⟩ n1 n2 n3 b1 b2, src, 0, eseq), (.relaydrain ⟨n1, eseq⟩, partnerOf s, 0, eseq),
      (.qcredit ⟨src, eseq⟩ n1 n2 n3 n4 n5, src, 0, eseq), (.qconfig ⟨src, eseq⟩ n1 n2 w n3 b1, src, 0, eseq),
      (.qclose ⟨src, eseq⟩ n1 n2 n3 n4 n5, src, 0, eseq), (.routes ⟨k, eseq⟩, partnerOf s, 0, eseq)] →
    exec i s = .next (withEarly s (deliver i u) src cls)) ∧
  (∀ (s : State) (src cls eseq : Nat) (i : Instr), peerPresent s src = true →
    0 < (eseq + 4096 - eseqWanted s src cls) % 4096 → (eseq + 4096 - eseqWanted s src cls) % 4096 < 2048 →
    (s.peers.early.any fun e => e.1 == src && e.2.1 == cls && e.2.2.1 == eseq) = false →
    ordered src cls eseq i s = modPeers s fun p => { p with early := p.early ++ [(src, cls, eseq, i)] }) ∧
  (∀ (s : State) (src cls eseq : Nat) (i : Instr), 2048 ≤ (eseq + 4096 - eseqWanted s src cls) % 4096 →
    ordered src cls eseq i s = s) ∧
  (∀ (s u : State) (f : QueueFlit) (c : Nat), InTurn s u f.src f.cls f.eseq → flitEnd u f = some c →
    exec (.queueFlit f) s = .next (withEarly s (modCore u c fun x => setEp x f.ep
      { getEp x f.ep with inFlight := (getEp x f.ep).inFlight ++ flitWords f }) f.src f.cls)) ∧
  (∀ (s : State) (f : QueueFlit), peerPresent s f.src = true → 2048 ≤ (f.eseq + 4096 - eseqWanted s f.src f.cls) % 4096 →
    exec (.queueFlit f) s = .next s) ∧
  (∀ (s u : State) (p c e rc re k n eseq : Nat), InTurn s u p 0 eseq → remoteEnd u p rc re c e = some k →
    cfgDir (getEp (getCore u k) e).cfg = 2 → (getEp (getCore u k) e).isOpen = true → coreRuns u k = true →
    exec (.qcredit ⟨p, eseq⟩ c e rc re n) s = .next (withEarly s (takeCredits (modCore u k fun x => setEp x e
      { getEp x e with creditFlight := (getEp x e).creditFlight + n }) k e) p 0)) ∧
  (∀ (s u : State) (p c e part eseq : Nat) (w : Word) (ans : Bool), InTurn s u p 0 eseq →
    (if ans then remoteEnd else configEnd) u p c e (cfgCore w) (cfgEp w) = none → dieStopped u (cfgCore w) = false →
    exec (.qconfig ⟨p, eseq⟩ c e w part ans) s = .next (withEarly s (modCore u (cfgCore w) fun x => setEp x (cfgEp w)
      { getEp x (cfgEp w) with heldCfg := some { peer := p, core := c, ep := e, word := w, part := part, due := false } }) p 0)) ∧
  (∀ (s u : State) (p c e pc pe n k eseq : Nat), InTurn s u p 0 eseq → (getEp (getCore u k) pe).heldCfg = none →
    remoteEnd u p c e pc pe = some k → qcfgWaiter u k pe = none → (getEp (getCore u k) pe).isOpen = true → dieStopped u k = false →
    exec (.qclose ⟨p, eseq⟩ c e pc pe n) s = .next (withEarly s (farClosed u k pe n) p 0)) ∧
  (∀ (s u : State) (p c e pc pe n k eseq : Nat), InTurn s u p 0 eseq → remoteEnd u p c e pc pe = some k → dieStopped u k = true →
    exec (.qclose ⟨p, eseq⟩ c e pc pe n) s = .next (withEarly s (holdAtEdge u k (.close k p c e pc pe n)) p 0))

/-- R272 to R274, R270, R271, R447: in EXCHANGE a HELLO that names the far port brings the far nonce, and the signed HELLO goes out;
one with a signature that proves its identity brings the port up; a wrong one puts it down with WIRING_ERR; ABSENT of a present peer's life declares it absent; ROUTES are kept; RELAYDRAIN ends a relay;
REJOIN raises JOIN_EPOCH and greets every active port. Where a command's condition is not met the state stays as it is (the
model's choice, log 1). -/
def Obligations.Membership : Prop :=
  (∀ (s u v : State) (h : HelloMsg), (getPort s h.port).state = ptExchange →
    (modPort s h.port fun p => { p with farPeer := h.peer, farPort := h.farPort, farNonce := h.ident.nonce }) = u →
    (if (getPort s h.port).farNonce.isEmpty then sendHello u h.port else u) = v →
    (h.peer = farOf u.peers.self h.port → h.farPort = h.port → h.ident.sig = [] → exec (.hello h) s = .next v) ∧
    (h.peer = farOf u.peers.self h.port → h.farPort = h.port → h.ident.sig ≠ [] → identityOk v h = true →
      exec (.hello h) s =
        .next (relink (sendRoutes (acceptHello (portUp v h.port) h.peer h.incarnation h.joinEpoch)))) ∧
    (h.peer = farOf u.peers.self h.port → h.farPort = h.port → h.ident.sig ≠ [] → identityOk v h = false →
      exec (.hello h) s = .next (portDown (modPort v h.port fun p => { p with wiringErr := true }) h.port)) ∧
    (h.peer ≠ farOf u.peers.self h.port ∨ h.farPort ≠ h.port →
      exec (.hello h) s = .next (portDown (modPort u h.port fun p => { p with wiringErr := true }) h.port))) ∧
  (∀ (s : State) (h : HelloMsg), ((tget [] s.sec.prot.peerKeys h.peer).any fun b => b != 0) = true →
    tget [] s.sec.prot.peerKeys h.peer ≠ h.ident.key → identityOk s h = false) ∧
  (∀ (s u : State) (src p inc je j eseq : Nat), InTurn s u src 0 eseq → p ≠ u.peers.self → tfind u.peers.lives p = some (inc, j) →
    peerPresent u p = true → j ≤ je →
    exec (.absent ⟨src, eseq⟩ p inc je) s = .next (withEarly s (relink (declareAbsent u p)) src 0)) ∧
  (∀ (s u : State) (src p inc je i j eseq : Nat), InTurn s u src 0 eseq → p ≠ u.peers.self →
    tfind u.peers.lives p = some (i, j) → (inc ≠ i ∨ je < j) → exec (.absent ⟨src, eseq⟩ p inc je) s = .next (withEarly s u src 0)) ∧
  (∀ (s u : State) (m : BitVec 8) (eseq : Nat), InTurn s u (partnerOf s) 0 eseq →
    exec (.routes ⟨m, eseq⟩) s = .next (withEarly s (relink (settleDrain (modPeers u fun p => { p with
      partnerRoutes := m, drainDue := p.drainDue ||| (setBit m p.self false &&& (~~~p.partnerRoutes ||| p.relayedFor)) })))
      (partnerOf s) 0)) ∧
  (∀ (s u : State) (d eseq : Nat), InTurn s u (partnerOf s) 0 eseq →
    exec (.relaydrain ⟨d, eseq⟩) s =
      .next (withEarly s (relink (modPeers u fun p => { p with draining := setBit p.draining d false })) (partnerOf s) 0)) ∧
  (∀ (s : State), s.pwr.service ≠ 3 →
    ∃ t, exec .rejoin s = .next t ∧ t.peers.joinEpoch = s.peers.joinEpoch + 1 ∧ t.mem = s.mem ∧ t.cores = s.cores ∧
    ∀ p, p < 8 → isActive s p = true → ∃ h : HelloMsg, h.port = p ∧ h.joinEpoch = s.peers.joinEpoch + 1 ∧
      (Out.hello h ∈ t.out ∨ ∃ q ∈ (getPort t p).txWait, q.msg = .hello h)) ∧
  (∀ s : State, s.pwr.service = 3 → exec .rejoin s = .next s)

/-- R271, R275 to R285, R292, R293: in its turn, an ARRIVE of work that is not open yet is kept; COLDATA under a FLOW that is
not open is dropped; an ABORT is counted; a GFLAG message is kept once; an expired limit aborts the step; a re-shard whose fence
is open passes it; a committing one is committed, a rolled-back one counted. Where a command's condition is not met the state
stays as it is (the model's choice, log 1). -/
def Obligations.CollectiveEvents : Prop :=
  (∀ (s u : State) (m : ArriveMsg) (eseq : Nat), InTurn s u m.src 0 eseq → oldAttempt u m.group m.attempt = false →
    (u.hub.colls.find? fun e => !e.2.waiting && matchesWork m e.2.group e.2.attempt e.2.desc) = none →
    (u.hub.reshards.find? fun e => e.2.phase != .fence && matchesWork m e.2.group e.2.attempt e.2.desc) = none →
    stepAborted u m.group m.attempt m.step = false →
    exec (.arrive ⟨m, eseq⟩) s =
      .next (withEarly s (modHub u fun h => { h with earlyArrives := h.earlyArrives ++ [m] }) m.src 0)) ∧
  (∀ (s u : State) (m : ArriveMsg) (id eseq : Nat) (c : Coll), InTurn s u m.src 0 eseq → oldAttempt u m.group m.attempt = false →
    (u.hub.colls.find? fun e => !e.2.waiting && matchesWork m e.2.group e.2.attempt e.2.desc) = some (id, c) →
    exec (.arrive ⟨m, eseq⟩) s = .next (withEarly s (hubSettle (collArrived u id m)) m.src 0)) ∧
  (∀ (s : State) (d x : ColData) (id : Nat) (c : Coll), peerPresent s d.src = true →
    (s.hub.colls.find? fun e => !e.2.waiting && e.2.flow == d.flow) = some (id, c) → { d with data := fit 256 d.data } = x →
    exec (.coldata d) s = .next (hubSettle (collData s id c x))) ∧
  (∀ (s : State) (d x : ColData) (id : Nat) (r : Reshard), peerPresent s d.src = true →
    (s.hub.colls.find? fun e => !e.2.waiting && e.2.flow == d.flow) = none →
    (s.hub.reshards.find? fun e => e.2.phase != .fence && e.2.flow == d.flow) = some (id, r) → { d with data := fit 256 d.data } = x →
    exec (.coldata d) s = .next (hubSettle (reshardData s id r x))) ∧
  (∀ (s : State) (d : ColData), peerPresent s d.src = true → (s.hub.colls.find? fun e => !e.2.waiting && e.2.flow == d.flow) = none →
    (s.hub.reshards.find? fun e => e.2.phase != .fence && e.2.flow == d.flow) = none → exec (.coldata d) s = .next s) ∧
  (∀ (s u : State) (src g a st eseq : Nat), InTurn s u src 0 eseq → oldAttempt u g a = false → ctxOfGroup u g = none →
    exec (.abort ⟨src, eseq⟩ g a st) s = .next (withEarly s (modHub (modPeers u fun p => { p with aborts := p.aborts + 1 }) fun h =>
      { h with aborted := (g, a, st) :: h.aborted }) src 0)) ∧
  (∀ (s u : State) (src g a st n eseq : Nat), InTurn s u src 0 eseq → oldAttempt u g a = false → ctxOfGroup u g = some n →
    exec (.abort ⟨src, eseq⟩ g a st) s =
      .next (withEarly s (hubSettle (endStep (modPeers u fun p => { p with aborts := p.aborts + 1 }) n a st)) src 0)) ∧
  (∀ (s u : State) (src g a st eseq : Nat) (f ab : Bool), InTurn s u src 0 eseq → oldAttempt u g a = false →
    u.hub.gflagMsgs.contains { src := src, group := g, attempt := a, step := st, flag := f, aborted := ab } = false →
    exec (.gflagMessage ⟨src, eseq⟩ g a st f ab) s = .next (withEarly s (hubSettle (modHub u fun h => { h with gflagMsgs :=
      h.gflagMsgs ++ [⟨src, g, a, st, f, ab⟩] })) src 0)) ∧
  (∀ (s : State) (n st : Nat), expired s n st = [] → exec (.peerWaitLimit n st) s = .next s) ∧
  (∀ (s : State) (n st a : Nat) (ms : List Nat) (l : List (Nat × List Nat)), expired s n st = (a, ms) :: l →
    stepAborted s (getCtx s n).colgroup a st = false →
    ∃ missing : List Nat, (∀ p, p ∈ missing ↔ ∃ e ∈ (a, ms) :: l, e.1 = a ∧ p ∈ e.2) ∧
      exec (.peerWaitLimit n st) s = .next (hubSettle (relink (missing.foldl declareAbsent
        (endStep (sendAbort s n (stepMembers s n a st) a st) n a st))))) ∧
  (∀ (s : State) (id : Nat) (r : Reshard), tfind s.hub.reshards id = some r → r.phase = .fence → fenceOpen s r = true →
    stepAborted s r.group r.attempt (fld (dw r.desc 1) 63 32) = false →
    exec (.reshardFencePass id) s = .next (hubSettle (reshardPass s id))) ∧
  (∀ (s : State) (id : Nat) (r : Reshard), tfind s.hub.reshards id = some r → r.phase = .fence → fenceOpen s r = false →
    exec (.reshardFencePass id) s = .next s) ∧
  (∀ (s : State) (id : Nat) (r : Reshard) (t : Tensor), tfind s.hub.reshards id = some r → r.phase = .committing →
    tensorOf r.tensor = some t → exec (.commitComplete id) s = .next (hubSettle (dropReshard (commitReshard s r t) id))) ∧
  (∀ (s : State) (id : Nat) (r : Reshard), tfind s.hub.reshards id = some r → r.phase = .rolledBack →
    exec (.commitComplete id) s =
      .next (hubSettle (dropReshard (modHub s fun h => { h with rollbacks := h.rollbacks + 1 }) id)))

/-! ### The rollout window (R299 to R329) -/

/-- R301, R303, R316, R317, R320, R342, R343: what the request doorbells, the handle's release, the ring poll and the deadline
do; a bad slot or a reserved operation sets BAD_DOORBELL. R373, R418: a doorbell is taken as it arrives while no work is pending
at firmware, and else waits for its turn. Where a command's condition is not met the state stays as it is (the model's choice,
log 1). -/
def Obligations.RequestDoorbells : Prop :=
  (∀ (s t : State) (p slot : Nat), AtOnce s t p (.submit p slot) → ((getPart t p).rqSlots ≤ slot ∨ (reqBySlot t p slot).isSome = true ∨
      inWindows t p ((getPart t p).rqBase + 256 * slot) 256 = false) →
    exec (.submit p slot) s = .next (modPart t p fun x => { x with rqBadDoorbell := true })) ∧
  (∀ (s t u : State) (p slot : Nat) (bs : List Byte) (r : Request) (m : Nat × Model), AtOnce s t p (.submit p slot) →
    slot < (getPart t p).rqSlots → reqBySlot t p slot = none →
    inWindows t p ((getPart t p).rqBase + 256 * slot) 256 = true →
    fwFetch (journal t 0 1 (p * 65536 + slot) true) ((getPart t p).rqBase + 256 * slot) 256 = (bs, false, u) →
    r = readRequest u p slot bs → recordOk u r (recWord bs) = true →
    activeReqs u p < (getPart t p).rqMaxActive → liveReqs u < 65536 → modelByHandle u p r.model = some m → r.pfxIn = 0 →
    r.promptTokens ≠ 0 →
    exec (.submit p slot) s = .next (syncReq (setReq (modPart u p fun x => { x with rqAccepted := x.rqAccepted + 1 })
      (freeReqId u) r) (freeReqId u)) ∧ r.state = rqQueued ∧ r.acceptTick = now s ∧ r.tokensOut = 0) ∧
  (∀ (s t : State) (p slot id : Nat) (r : Request), AtOnce s t p (.cancel p slot) → slot < (getPart t p).rqSlots →
    reqBySlot t p slot = some (id, r) → getReq t id = some r → r.bound = false → r.heldEntry = none →
    ∃ cc, exec (.cancel p slot) s = .next (endRequest (setReq (journal t cc 2 id true) id
      { r with drafts := [], kvLen := r.kvLen - r.drafts.length }) id 2)) ∧
  (∀ (s t : State) (p slot id : Nat) (r : Request), AtOnce s t p (.cancel p slot) → slot < (getPart t p).rqSlots →
    reqBySlot t p slot = some (id, r) → getReq t id = some r → r.bound = true →
    ∃ cc, exec (.cancel p slot) s = .next (syncReq (modReq (setReq (journal t cc 2 id true) id
      { r with drafts := [], kvLen := r.kvLen - r.drafts.length }) id fun r =>
        { r with cancelPending := true, state := rqCancelling }) id)) ∧
  (∀ (s t : State) (p slot id : Nat) (r : Request), AtOnce s t p (.kick p slot) → slot < (getPart t p).rqSlots →
    reqBySlot t p slot = some (id, r) →
    ∃ cc, exec (.kick p slot) s = .next (publishHeld (journal t cc 2 id true) id)) ∧
  (∀ (s t : State) (p slot : Nat) (i : Instr), AtOnce s t p i → (getPart t p).rqSlots ≤ slot →
    i ∈ [Instr.cancel p slot, .kick p slot] → exec i s = .next (modPart t p fun x => { x with rqBadDoorbell := true })) ∧
  (∀ (s t : State) (p ix : Nat) (w : Word) (h : Handle), AtOnce s t p (.pfxRelease p w) → handleByWord t p w = some (ix, h) →
    tfind t.rollout.handles ix = some h →
    exec (.pfxRelease p w) s = .next (refSets (modRo (journal t 0 9 ix true) fun ro =>
      { ro with handles := tdel ro.handles ix }) h.sets false)) ∧
  (∀ (s t : State) (p : Nat) (w : Word), AtOnce s t p (.pfxRelease p w) → handleByWord t p w = none → exec (.pfxRelease p w) s = .next t) ∧
  (∀ (s : State) (p slot n : Nat) (w : Word) (b : Bool) (i : Instr), accepting s p = true → bellAtOnce s p i = false →
    i ∈ [Instr.submit p slot, .cancel p slot, .kick p slot, .pfxRelease p w, .load p slot, .unload p slot, .replace p slot,
      .attach p slot n b, .detach p slot n, .doorbellReservedOp b p w] →
    exec i s = .next (pumpBells (modPart s p fun x => { x with bells := x.bells ++ [(i, x.cmdTail)] }))) ∧
  (∀ (s : State) (req : Nat) (r : Request), getReq s req = some r → r.heldEntry.isSome = true → coreStops s (homeCore r.ctx) = false →
    exec (.ringPoll req) s = .next (publishHeld s req)) ∧
  (∀ (s : State) (req : Nat) (r : Request), getReq s req = some r → rqLive r = true → r.deadlineTicks ≠ 0 →
    r.acceptTick + r.deadlineTicks ≤ now s → r.pastDeadline = false → r.fallenBack = false → r.bound = false → r.state ≠ rqRingWait →
    s.pwr.inHold = false → coreStops s (homeCore r.ctx) = false →
    exec (.deadlineMonitor req) s = .next (
      let u := setReq s req { r with pastDeadline := true }
      if r.dlPolicy = 1 then moveRequest u req else if r.dlPolicy = 2 then endRequest u req 3 else u)) ∧
  (∀ (s t : State) (p : Nat) (w : Word), AtOnce s t p (.doorbellReservedOp false p w) → (fld w 63 60 = 0 ∨ 3 < fld w 63 60) →
    exec (.doorbellReservedOp false p w) s = .next (modPart t p fun x => { x with rqBadDoorbell := true })) ∧
  (∀ (s t : State) (p : Nat) (w : Word), AtOnce s t p (.doorbellReservedOp true p w) → (fld w 63 60 = 0 ∨ 5 < fld w 63 60) →
    exec (.doorbellReservedOp true p w) s = .next (modPart t p fun x => { x with mdlBadDoorbell := true }))

/-- R305 to R309, R313 to R316, R319 to R322: what the commands of the commit window leave in the slot's request, with the
result and the value they answer; an EMIT whose entry does not fit holds it and ends the binding in RING_WAIT. -/
def Obligations.CommitResults : Prop :=
  (∀ (s : State) (n req ix pool : Nat) (w0 : Word) (r : Request) (m pm : Model), Commits s n req 1 w0 r → fld w0 47 32 = 0 →
    r.state ≠ rqRingWait → r.kvLen ≤ r.capacity → r.sets.length ≤ 256 → poolModel s r = some (pool, pm) →
    modelByHandle s r.part r.model = some (ix, m) →
    exec (.bind n req w0) s = .next (answered (syncReq (setReq (journaled s n req) req
      { r with bound := true, boundEpoch := bindEpochOf s ix m }) req) n req w0 resOk r.capacity)) ∧
  (∀ (s : State) (n req ix pool : Nat) (w0 : Word) (r : Request) (m pm : Model) (grown : Grown), Commits s n req 1 w0 r →
    0 < fld w0 47 32 → (1 ≤ fld w0 55 52 ∧ fld w0 55 52 ≤ 8) → (1 ≤ fld w0 51 48 ∧ fld w0 51 48 ≤ 8) → r.state ≠ rqRingWait →
    r.sets.length + setsNeeded r.capacity (r.kvLen + fld w0 47 32) 300 ≤ 256 → poolModel s r = some (pool, pm) →
    modelByHandle s r.part r.model = some (ix, m) →
    bindGrown s n req ix pool w0 r m = grown →
    exec (.bind n req w0) s = .next (match grown with
      | .room u => answered (syncReq u req) n req w0 resOk ((getReq u req).elim 0 fun r => r.capacity)
      | .none u => answered (endBinding (evictReq u req true) req) n req w0 resEvicted 0
      | .full => answered (journaled s n req) n req w0 resRefused 0)) ∧
  (∀ (s u : State) (n req : Nat) (w0 w1 : Word) (r q : Request), Commits s n req 2 w0 r → r.bound = true → r.drafts = [] →
    wbit w0 58 = false → u = rereadRing (journaled (storeW1 s n req w1) n req) req → getReq u req = some q →
    ringFits q 0 = true → r.heldEntry = none →
    exec (.emit n req w0 w1) s = .next (answered (
      let t := publishToken (modReq u req fun r => { r with
        kvLen := r.kvLen + 1, published := r.published ++ [fld w0 31 0] }) req
        { token := fld w0 31 0, logprob := BitVec.ofNat 32 (fld w1 31 0), ends := wbit w0 59, poison := false,
          epoch := r.boundEpoch, late := deadlinePassed s r, fallback := r.fallenBack } r.kvLen
      if wbit w0 59 = true ∨ r.maxNew ≤ r.tokensOut + 1 then endRequest t req 1 else endBinding t req) n req w0 resOk (r.tokensOut + 1))) ∧
  (∀ (s u : State) (n req : Nat) (w0 w1 : Word) (r q : Request), Commits s n req 2 w0 r → r.bound = true → r.drafts = [] →
    wbit w0 58 = false → u = rereadRing (journaled (storeW1 s n req w1) n req) req → getReq u req = some q →
    ringFits q 0 = false → r.heldEntry = none →
    exec (.emit n req w0 w1) s = .next (answered (endBinding (setReq u req { q with
      kvLen := r.kvLen + 1, published := r.published ++ [fld w0 31 0], state := rqRingWait, heldEntry := some
        ({ token := fld w0 31 0, logprob := BitVec.ofNat 32 (fld w1 31 0), ends := wbit w0 59, poison := false,
           epoch := r.boundEpoch, late := deadlinePassed s r, fallback := r.fallenBack }, r.kvLen) }) req) n req w0 resHeld r.tokensOut)) ∧
  (∀ (s : State) (n req : Nat) (w0 w1 : Word) (r : Request), Commits s n req 2 w0 r → r.bound = true →
    (r.drafts ≠ [] ∨ r.heldEntry.isSome = true) →
    exec (.emit n req w0 w1) s =
      .next (answered (journaled (storeW1 s n req w1) n req) n req w0 resRefused r.tokensOut)) ∧
  (∀ (s u : State) (n req : Nat) (w0 w1 : Word) (r q : Request), Commits s n req 3 w0 r → r.bound = true →
    u = rereadRing (journaled (storeW1 s n req w1) n req) req → getReq u req = some q →
    ringFits q r.drafts.length = true → q.heldEntry = none → r.drafts.length < r.specMax →
    r.drafts.length < r.maxNew - r.tokensOut →
    exec (.draft n req w0 w1) s = .next (answered (
      let d : Draft := ⟨fld w0 31 0, BitVec.ofNat 32 (fld w1 31 0), wbit w0 59, wbit w0 58, r.boundEpoch, deadlinePassed s r,
        r.fallenBack⟩
      syncReq (modReq u req fun x => { x with drafts := x.drafts ++ [d], kvLen := x.kvLen + 1 }) req) n req w0 resOk r.tokensOut)) ∧
  (∀ (s u : State) (n req : Nat) (w0 : Word) (r : Request), Commits s n req 4 w0 r → r.bound = true →
    u = acceptLoop (rereadRing (journaled s n req) req) req (min (fld w0 47 32) r.drafts.length) →
    exec (.accept n req w0) s = .next (answered (syncReq u req) n req w0 resOk ((getReq u req).elim 0 fun r => r.tokensOut))) ∧
  (∀ (s : State) (n req k : Nat) (w0 : Word) (r : Request), Commits s n req 5 w0 r → r.bound = true →
    k = min (fld w0 47 32) r.drafts.length →
    exec (.rollback n req w0) s = .next (answered (syncReq (setReq (journaled s n req) req { r with
      drafts := r.drafts.take (r.drafts.length - k), kvLen := r.kvLen - k }) req) n req w0 resOk r.tokensOut)) ∧
  (∀ (s : State) (n req : Nat) (w0 : Word) (r : Request), Commits s n req 6 w0 r → r.bound = true → r.state = rqPrefill →
    r.pfxLen = 0 → r.heldEntry = none → 0 < r.maxNew →
    exec (.prefilled n req w0) s = .next (answered (endBinding (setReq (journaled s n req) req { r with
      kvLen := r.pfxTokens + r.replayLen, state := rqDecode }) req) n req w0 resOk r.tokensOut)) ∧
  (∀ (s : State) (n req : Nat) (w0 : Word) (r : Request), Commits s n req 7 w0 r → r.bound = true →
    exec (.unbind n req w0) s = .next (answered (endBinding (journaled s n req) req) n req w0 resOk r.tokensOut)) ∧
  (∀ (s : State) (n req : Nat) (w0 w1 : Word) (r : Request), Commits s n req 8 w0 r → r.bound = true →
    (fld w1 31 0 = 4 ∨ fld w1 31 0 = 5) →
    exec (.fail n req w0 w1) s = .next (answered (endRequest (journaled (storeW1 s n req w1) n req) req (fld w1 31 0))
      n req w0 resOk r.tokensOut)) ∧
  (∀ (s : State) (n req op : Nat) (w0 : Word) (r : Request) (i : Instr), Commits s n req op w0 r → r.bound = false →
    (i, op) ∈ [(Instr.accept n req w0, 4), (.rollback n req w0, 5), (.prefilled n req w0, 6), (.unbind n req w0, 7)] →
    exec i s = .next (answered (journaled s n req) n req w0 resNotBound 0)) ∧
  (∀ (s : State) (n : Nat) (w0 : Word), canIssue s (.ctl n) n = true → fld w0 63 60 = 9 → fld w0 57 56 = 0 → nextReady s n = none →
    exec (.fetch n w0) s = .next (dispatched (journal s (controlCoreOf n) 3 0x10000 true) n w0 resEmpty 0)) ∧
  (∀ (s u : State) (n id ix : Nat) (w0 : Word) (r : Request) (m : Model), canIssue s (.ctl n) n = true → fld w0 63 60 = 9 →
    fld w0 57 56 = 0 → nextReady s n = some id → getReq s id = some r →
    regainPrefix (journal s (controlCoreOf n) 3 0x10000 true) r = some u → modelByHandle u r.part r.model = some (ix, m) →
    exec (.fetch n w0) s = .next (
      let q : Request := { r with
        state := rqPrefill, ctx := some n, sets := r.pfxSets, capacity := setsCapacity u r.pfxSets, kvLen := r.pfxTokens,
        replayLen := r.promptTokens + r.published.length, pagesVa := Config.pagesVa id, replayVa := Config.replayVa id }
      let t := syncModel (setModel (setReq u id q) ix { m with use := m.use + 1, lastUse := now u }) ix
      dispatched (syncReq t id) n w0 resOk id))

/-! ### Models, command rings and contexts (R330 to R389, R419 to R423) -/

/-- R327, R328, R330, R331, R336, R339: what LOAD, UNLOAD, REPLACE, ATTACH and DETACH do; on a slot in the wrong state, beyond
SLOTS or outside the partition's windows they set BAD_DOORBELL. A REPLACE of a model that is LOADING waits for the end of the
load (log 126). Where a command's condition is not met the state stays as it is (the model's choice, log 1). -/
def Obligations.ModelDoorbells : Prop :=
  (∀ (s t u v x : State) (p slot ix g : Nat) (w : Nat → Word) (bad : Bool) (ls : List Layer), AtOnce s t p (.load p slot) →
    slotInTable t p slot = true → modelBySlot t p slot = none →
    modelRecord (journal t 0 4 (p * 256 + slot) true) p slot = (w, bad, u) → takeIndex u p = some (ix, g, v) →
    recordImage v p w bad (fld (w 1) 47 0) = (some ls, x) →
    exec (.load p slot) s = .next (loadChecked x ix (readModel p slot g w ls))) ∧
  (∀ (s t u v x : State) (p slot ix g : Nat) (w : Nat → Word) (bad : Bool), AtOnce s t p (.load p slot) →
    slotInTable t p slot = true → modelBySlot t p slot = none →
    modelRecord (journal t 0 4 (p * 256 + slot) true) p slot = (w, bad, u) → takeIndex u p = some (ix, g, v) →
    recordImage v p w bad (fld (w 1) 47 0) = (none, x) →
    exec (.load p slot) s = .next (refuseModel x ix (readModel p slot g w []) 3)) ∧
  (∀ (s t u : State) (p slot : Nat) (w : Nat → Word) (bad : Bool), AtOnce s t p (.load p slot) →
    slotInTable t p slot = true → modelBySlot t p slot = none →
    modelRecord (journal t 0 4 (p * 256 + slot) true) p slot = (w, bad, u) → takeIndex u p = none →
    exec (.load p slot) s = .next (refuseSlot u p slot 4)) ∧
  (∀ (s : State) (p src : Nat) (w : Nat → Word) (bad : Bool), (bad = true ∨ modelRecordOk s p w = false) →
    recordImage s p w bad src = (none, s)) ∧
  (∀ (s u : State) (p ix g : Nat), takeIndex s p = some (ix, g, u) →
    tfind s.models ix = none ∧ (getPart u p).mdlLoads = (getPart s p).mdlLoads + 1) ∧
  (∀ (s u : State) (ix : Nat) (m a : Model), m.kind = 0 → allocEvict s ix m 257 = (u, some a) → a.part = m.part →
    loadChecked s ix m = syncModel (setModel u ix { a with
      state := if a.layers.isEmpty then mdlResident else mdlLoading, epoch := 1, installed := 0,
      kvElems := Config.kvRowElems (handleOf ix a), poolVa := Config.kvPoolVa (handleOf ix a) }) ix) ∧
  (∀ (s u : State) (ix : Nat) (m : Model), m.kind = 0 → allocEvict s ix m 257 = (u, none) →
    loadChecked s ix m = refuseModel u ix m 4) ∧
  (∀ (s t : State) (p slot ix : Nat) (m : Model), AtOnce s t p (.load p slot) → slotInTable t p slot = true →
    modelBySlot t p slot = some (ix, m) → exec (.load p slot) s = .next (badModelDoorbell t p)) ∧
  (∀ (s t : State) (p slot ix : Nat) (m : Model), AtOnce s t p (.unload p slot) → slotInTable t p slot = true →
    modelBySlot t p slot = some (ix, m) → namedByLive t p (handleOf ix m) = false → usedAsBase t p (handleOf ix m) = false →
    exec (.unload p slot) s = .next (endModel (journal t 0 5 ix true) ix 1)) ∧
  (∀ (s t : State) (p slot ix : Nat) (m : Model), AtOnce s t p (.unload p slot) → slotInTable t p slot = true →
    modelBySlot t p slot = some (ix, m) → (namedByLive t p (handleOf ix m) = true ∨ usedAsBase t p (handleOf ix m) = true) →
    exec (.unload p slot) s = .next (badModelDoorbell (journal t 0 5 ix true) p)) ∧
  (∀ (s t u x : State) (p slot ix : Nat) (w : Nat → Word) (bad : Bool) (m : Model) (ls : List Layer),
    AtOnce s t p (.replace p slot) → slotInTable t p slot = true →
    modelBySlot t p slot = some (ix, m) → m.kind = 0 → m.state = mdlResident → m.replStatus ≠ 1 → m.replaceDue = false →
    modelRecord (journal t 0 5 ix true) p slot = (w, bad, u) →
    recordImage u p w bad (fld (w 4) 47 0) = (some ls, x) → sameShape ls m.layers = true → m.layers ≠ [] →
    exec (.replace p slot) s = .next (syncModel (setModel x ix { m with
      replSrcPa := fld (w 4) 47 0, epoch := m.epoch + 1, installed := 0, staged := 0, stagedAt := [],
      failures := [], retried := false, replStatus := 1, state := mdlReplacing, installing := false }) ix)) ∧
  (∀ (s t u x : State) (p slot ix : Nat) (w : Nat → Word) (bad : Bool) (m : Model), AtOnce s t p (.replace p slot) →
    slotInTable t p slot = true → modelBySlot t p slot = some (ix, m) → m.kind = 0 → m.state ≠ mdlLoading → m.replStatus ≠ 1 →
    m.replaceDue = false → modelRecord (journal t 0 5 ix true) p slot = (w, bad, u) →
    recordImage u p w bad (fld (w 4) 47 0) = (none, x) → exec (.replace p slot) s = .next (endModel x ix 3)) ∧
  (∀ (s t u x : State) (p slot ix : Nat) (w : Nat → Word) (bad : Bool) (m : Model) (ls : List Layer),
    AtOnce s t p (.replace p slot) → slotInTable t p slot = true → modelBySlot t p slot = some (ix, m) → m.kind = 0 →
    m.state ≠ mdlLoading → m.replStatus ≠ 1 → m.replaceDue = false → modelRecord (journal t 0 5 ix true) p slot = (w, bad, u) →
    recordImage u p w bad (fld (w 4) 47 0) = (some ls, x) → sameShape ls m.layers = false →
    exec (.replace p slot) s = .next (syncModel (setModel x ix { m with replStatus := 3 }) ix)) ∧
  (∀ (s t : State) (p slot ix : Nat) (m : Model), AtOnce s t p (.replace p slot) → slotInTable t p slot = true →
    modelBySlot t p slot = some (ix, m) → m.kind = 0 → m.state = mdlLoading → m.replStatus ≠ 1 → m.replaceDue = false →
    exec (.replace p slot) s = .next (setModel (journal t 0 5 ix true) ix { m with replaceDue := true })) ∧
  (∀ (s t : State) (p slot ix n : Nat) (serve : Bool) (m : Model), AtOnce s t p (.attach p slot n serve) → slotInTable t p slot = true →
    modelBySlot t p slot = some (ix, m) → inCtxRange t p n = true → (m.kind = 0 ∧ m.shared = true ∨ n = m.owner) →
    ctxActive (getCtx t n) = true → m.kind = 0 →
    exec (.attach p slot n serve) s = .next (attachOne (journal t 0 5 ix true) ix n serve (!m.shared))) ∧
  (∀ (s t : State) (p slot ix n : Nat) (serve : Bool) (m : Model), AtOnce s t p (.attach p slot n serve) → slotInTable t p slot = true →
    modelBySlot t p slot = some (ix, m) → inCtxRange t p n = false →
    exec (.attach p slot n serve) s = .next (badModelDoorbell (journal t 0 5 ix true) p)) ∧
  (∀ (s t : State) (p slot ix n : Nat) (m : Model), AtOnce s t p (.detach p slot n) → slotInTable t p slot = true →
    modelBySlot t p slot = some (ix, m) → exec (.detach p slot n) s = .next (detachOne (journal t 0 5 ix true) ix n)) ∧
  (∀ (s t : State) (p slot n : Nat) (serve : Bool) (i : Instr), AtOnce s t p i → slotInTable t p slot = false →
    i ∈ [Instr.load p slot, .unload p slot, .replace p slot, .attach p slot n serve, .detach p slot n] →
    exec i s = .next (badModelDoorbell t p))

/-- R330, R339, R341: a loaded layer is installed with the model's EPOCH, and the last makes the model RESIDENT; a layer is
staged where it fits, installed once older steps have passed it; the third failed read in a row of one grain ends a load,
and stalls a replacement; USE is halved every 48,000,000 ticks (R335). Where a command's condition is not met the state stays as it is (the model's choice, log 1). -/
def Obligations.ModelEvents : Prop :=
  (∀ (s : State) (ix : Nat) (m : Model) (l : Layer), tfind s.models ix = some m → m.state = mdlLoading →
    m.replaceDue = false → m.layers[m.installed]? = some l →
    exec (.layerLoaded ix) s = .next (
      let q : Model := { m with
        layers := lset m.layers m.installed { l with epoch := m.epoch }, installed := m.installed + 1, failures := [],
        state := if m.installed + 1 = m.layers.length then mdlResident else mdlLoading }
      wakeEnters (syncModel (setModel (copyLayer s m m.srcPa l) ix q) ix) (handleOf ix m) m.installed)) ∧
  (∀ (s : State) (ix pl : Nat) (m : Model) (l : Layer), tfind s.models ix = some m → m.state = mdlReplacing → m.replStatus = 1 →
    m.layers[m.staged]? = some l → stagePlace m l = some pl →
    ∃ t, exec (.layerStaged ix) s = .next t ∧ tfind t.models ix = some { m with
      staged := m.staged + 1, stagedAt := m.stagedAt ++ [(m.staged, pl)], failures := [] } ∧ t.ctxs = s.ctxs ∧ t.cores = s.cores) ∧
  (∀ (s : State) (ix pl : Nat) (m : Model) (l : Layer) (e : Nat × Nat), tfind s.models ix = some m → m.state = mdlReplacing →
    m.layers[m.installed]? = some l → m.installing = false → olderPassed m m.installed = true →
    (m.stagedAt.find? fun e => e.1 == m.installed) = some (e.1, pl) →
    ∃ t, exec (.layerInstall ix) s = .next t ∧ tfind t.models ix = some { m with installing := true } ∧ t.ctxs = s.ctxs) ∧
  (∀ (s : State) (ix : Nat) (m : Model) (l : Layer), tfind s.models ix = some m → m.layers[m.installed]? = some l →
    olderPassed m m.installed = false → exec (.layerInstall ix) s = .next s) ∧
  (∀ (s : State) (ix : Nat) (m : Model) (l : Layer), tfind s.models ix = some m → m.state = mdlReplacing → m.installing = true →
    m.layers[m.installed]? = some l → m.installed + 1 < m.layers.length →
    exec (.layerInstalled ix) s = .next (wakeEnters (syncModel (setModel s ix { m with
      layers := lset m.layers m.installed { l with epoch := m.epoch }, installed := m.installed + 1, installing := false,
      stagedAt := m.stagedAt.filter (fun e => e.1 != m.installed) }) ix) (handleOf ix m) m.installed)) ∧
  (∀ (s : State) (f : SourceFail) (m : Model), tfind s.models f.model = some m → reading m = true → m.retried = false →
    tget 0 m.failures f.grain < 2 →
    exec (.sourceReadFail f) s = .next (countFailed (setModel s f.model { m with
      failures := tput m.failures f.grain (tget 0 m.failures f.grain + 1) }))) ∧
  (∀ (s : State) (f : SourceFail) (m : Model), tfind s.models f.model = some m → m.state = mdlReplacing →
    (m.replStatus = 1 ∧ 2 ≤ tget 0 m.failures f.grain ∨ m.retried = true) →
    exec (.sourceReadFail f) s = .next (syncModel (setModel (countFailed s) f.model { m with
      failures := [], retried := false, replStatus := 4 }) f.model)) ∧
  (∀ (s : State) (f : SourceFail) (m : Model), tfind s.models f.model = some m → m.state = mdlLoading → m.retried = false →
    2 ≤ tget 0 m.failures f.grain →
    (∀ e ∈ s.rollout.requests, rqLive e.2 = true → e.2.part = m.part → e.2.model ≠ handleOf f.model m) →
    exec (.sourceReadFail f) s = .next (endModel (countFailed s) f.model 5)) ∧
  (∀ (s : State) (f : SourceFail) (m : Model), tfind s.models f.model = some m → reading m = false →
    exec (.sourceReadFail f) s = .next s) ∧
  (∀ (s : State) (ix : Nat) (m : Model), tfind s.models ix = some m → m.state = mdlReplacing → m.replStatus = 4 →
    exec (.replaceRetry ix) s = .next (setModel s ix { m with retried := true })) ∧
  (∀ (s : State), s.rollout.decayAt + 48000000 ≤ s.clk.tick → ∃ u, u = modRo s (fun ro => { ro with decayAt := s.clk.tick }) ∧
    exec .useDecay s = .next (syncModels { u with models := tmap (fun _ m => { m with use := m.use / 2 }) u.models })) ∧
  (∀ (s : State), s.clk.tick < s.rollout.decayAt + 48000000 → exec .useDecay s = .next s)

/-- R357, R358, R360, R420, R421: what the commands of the ring do, with the result they complete with. A CREATE at HEAD of a
partition that is disabled or resetting is refused where it stands (the model's choice, log 148). HEAD advances once the
completion is performed at HOST scope: at once while no line may be held (R414). -/
def Obligations.RingCommands : Prop :=
  (∀ (s : State) (p : Nat), Commanded s p 0 → exec (.cmdNop p) s = .next (pumpBells (cmdComplete (commandLogged s p) p crOk 0))) ∧
  (∀ (s : State) (p n : Nat), Commanded s p 1 → bits (cmdWord s p 6) 31 30 ≠ 3 → cmdWord s p 4 % 2 ^ 31 = 0 →
    n = cmdWord s p 1 % 4096 → ctxInRange s p n = true →
    createOk (commandLogged s p) p n (bit (cmdWord s p 1) 12) (bits (cmdWord s p 1) 47 32) (cmdWord s p 2) (cmdWord s p 3) = true →
    exec (.create p) s = .next (pumpBells (cmdComplete (
      let u := modCtx (retireEnergy (commandLogged s p) n) n fun x => createdCtx x p (bit (cmdWord s p 1) 12)
        (bits (cmdWord s p 1) 47 32) (bits (cmdWord s p 1) 31 16) (cmdWord s p 2) (cmdWord s p 3) (cmdWord s p 4) (cmdWord s p 5)
        (bits (cmdWord s p 6) 31 30)
      recomputeEnt (modCtx u n fun x => { x with pass := startPass u n })) p crOk 0))) ∧
  (∀ (s : State) (p n : Nat), Commanded s p 1 → bits (cmdWord s p 6) 31 30 ≠ 3 → cmdWord s p 4 % 2 ^ 31 = 0 →
    n = cmdWord s p 1 % 4096 → ctxInRange s p n = false →
    exec (.create p) s = .next (pumpBells (cmdComplete (modPart (commandLogged s p) p fun x => { x with createRefused := true }) p
      crNoWindow 0))) ∧
  (∀ (s : State) (p n : Nat), Commanded s p 2 → cmdWord s p 2 % 8 = 0 → cmdWord s p 2 < 2 ^ 48 → n = cmdCtx s p →
    ctxInRange s p n = true → (getCtx s n).state = ctxCreated →
    exec (.run p) s = .next (pumpBells (cmdComplete (modCtx (commandLogged s p) n fun x => { x with
      state := ctxLive
      ctl := { Control.reset with codeVa := cmdWord s p 2, thr := { Thread.reset with st := .runnable } } }) p crOk 0))) ∧
  (∀ (s : State) (p n : Nat), Commanded s p 3 → n = cmdCtx s p → ctxInRange s p n = true →
    (getCtx s n).state ≠ ctxFree → (getCtx s n).state ≠ ctxEnded → (getCtx s n).state ≠ ctxCreated →
    exec (.destroy p) s = .next (pumpBells (modPart (beginTeardown (commandLogged s p) n (some 0xF0)) p fun x =>
      { x with destroyWait := some n }))) ∧
  (∀ (s : State) (p n : Nat), Commanded s p 3 → n = cmdCtx s p → ctxInRange s p n = true → (getCtx s n).state = ctxCreated →
    exec (.destroy p) s = .next (pumpBells (cmdComplete (beginTeardown (commandLogged s p) n (some 0xF0)) p crOk 0)) ∧
    (getCtx (beginTeardown (commandLogged s p) n (some 0xF0)) n).state = ctxEnded) ∧
  (∀ (s : State) (p : Nat), createBarred s p = true →
    exec (.create p) s = .next (modPart (fetchEntry s p).2 p fun x => { x with createRefused := true })) ∧
  (∀ (s : State) (p n : Nat), Commanded s p 3 → n = cmdCtx s p → ctxInRange s p n = true → (getCtx s n).state = ctxFree →
    exec (.destroy p) s = .next (pumpBells (cmdComplete (commandLogged s p) p crRefused 0))) ∧
  (∀ (s : State) (p n : Nat), Commanded s p 4 → n = cmdCtx s p → ctxInRange s p n = true → ctxActive (getCtx s n) = true →
    cmdWord s p 2 % mapPage (cmdWord s p 4) = 0 → cmdWord s p 2 < 2 ^ 48 → cmdWord s p 3 % mapPage (cmdWord s p 4) = 0 →
    cmdWord s p 3 < 2 ^ 48 → (bit (cmdWord s p 4) 34 = false → bits (cmdWord s p 4) 37 35 = 0) →
    mapFault s p n (cmdWord s p 2) (cmdWord s p 3) (cmdWord s p 4) = none → cmdWord s p 4 % 2 ^ 32 ≠ 0 →
    exec (.map p) s = .next (pumpBells (cmdComplete (
      let m : Mapping := ⟨cmdWord s p 2, cmdWord s p 3, cmdWord s p 4 % 2 ^ 32 * mapPage (cmdWord s p 4), bit (cmdWord s p 4) 33, false⟩
      modCtx (commandLogged s p) n fun x => { x with maps := x.maps ++ [m] }) p crOk 0))) ∧
  (∀ (s : State) (p n r i : Nat), Commanded s p 4 → n = cmdCtx s p → ctxInRange s p n = true → ctxActive (getCtx s n) = true →
    cmdWord s p 2 % mapPage (cmdWord s p 4) = 0 → cmdWord s p 2 < 2 ^ 48 → cmdWord s p 3 % mapPage (cmdWord s p 4) = 0 →
    cmdWord s p 3 < 2 ^ 48 → (bit (cmdWord s p 4) 34 = false → bits (cmdWord s p 4) 37 35 = 0) →
    mapFault s p n (cmdWord s p 2) (cmdWord s p 3) (cmdWord s p 4) = some (r, i) →
    exec (.map p) s = .next (pumpBells (cmdComplete (commandLogged s p) p r i))) ∧
  (∀ (s : State) (p n : Nat), Commanded s p 5 → n = cmdCtx s p → ctxInRange s p n = true → ctxActive (getCtx s n) = true →
    cmdWord s p 2 % mapPage (cmdWord s p 4) = 0 → cmdWord s p 2 < 2 ^ 48 →
    exec (.unmap p) s = .next (pumpBells (cmdComplete (
      let f := mapOutside (cmdWord s p 2) (cmdWord s p 2 + cmdWord s p 4 % 2 ^ 32 * mapPage (cmdWord s p 4))
      modCtx (commandLogged s p) n fun x => { x with maps := x.maps.flatMap f }) p crOk 0))) ∧
  (∀ (s : State) (p n : Nat), Commanded s p 6 → n = cmdCtx s p → ctxInRange s p n = true → ctxActive (getCtx s n) = true →
    1 ≤ bits (cmdWord s p 4) 63 60 → bits (cmdWord s p 4) 63 60 ≤ 7 →
    exec (.post p) s = .next (pumpBells (cmdComplete (mailAdd (commandLogged s p) n
      { source := postSource, kind := bits (cmdWord s p 4) 63 60, round := bits (cmdWord s p 4) 59 59,
        tag := bits (cmdWord s p 4) 56 53, poison := false, value := w64 (cmdWord s p 2) }) p crOk 0))) ∧
  (∀ (s : State) (p op : Nat), cmdReady s p = true → (fetchEntry s p).1 = false → cmdWord s p 0 / 2 ^ 56 = op → 6 < op →
    exec (.reservedCommand p) s = .next (pumpBells (cmdComplete (commandLogged s p) p crBadArg 0))) ∧
  (∀ (s : State) (p op : Nat) (i : Instr), cmdReady s p = true → (fetchEntry s p).1 = false → cmdWord s p 0 / 2 ^ 56 = op →
    cmdFieldsOk (commandLogged s p) p op = false → (i, op) ∈ [(Instr.cmdNop p, 0), (.create p, 1), (.run p, 2), (.destroy p, 3),
      (.map p, 4), (.unmap p, 5), (.post p, 6)] →
    exec i s = .next (pumpBells (cmdComplete (commandLogged s p) p crBadArg 0))) ∧
  (∀ (s : State) (p res det : Nat), (getPart (cmdComplete s p res det) p).cmdCompleted = (getPart s p).cmdCompleted + 1) ∧
  (∀ (s : State) (p res det : Nat), coreStops s 0 = false → s.host.fwWaits = [] → s.host.snoop = [] → s.host.biLines = [] →
    (getPart (cmdComplete s p res det) p).cmdHead = ((getPart s p).cmdHead + 1) % 2 ^ 32)

/-- R360, R362, R366, R367, R371, R375: a teardown completes when no request of its cores is out; a TEARDOWN read takes the
oldest entry; a save and a restore complete; a message is sent for one token; a partition reset begins, and ends with the scrub, once no line
of its windows waits on a back-invalidate; a change record that waited for it takes effect then (R355). A quantum boundary comes
SCHED.QUANTUM_US after the last one (R365).
Where a command's condition is not met the state stays as it is (the model's choice, log 1). -/
def Obligations.ContextEvents : Prop :=
  (∀ (s : State) (n : Nat), (getCtx s n).state = ctxEnding → coreReqsOut s n = false →
    exec (.teardownComplete n) s = .next (coresFreed (endDestroy (endTeardown s n) (getCtx s n).part n))) ∧
  (∀ (s : State) (n : Nat), coreReqsOut s n = true → exec (.teardownComplete n) s = .next s) ∧
  (∀ (s : State) (p n r : Nat) (l : List (Nat × Nat)), hostUp s = true → s.pwr.service ≠ 3 → (getPart s p).teardown = (n, r) :: l →
    exec (.teardownRead p) s = .next (emit (modPart s p fun x => { x with teardown := l }) (.regValue (2 ^ 31 + r <<< 16 + n)))) ∧
  (∀ (s : State) (p : Nat), hostUp s = true → s.pwr.service ≠ 3 → (getPart s p).teardown = [] →
    exec (.teardownRead p) s = .next (emit s (.regValue 0))) ∧
  (∀ (s : State), s.recov.fatal = false → s.pwr.off = false → s.pwr.inHold = false → s.pwr.holdAsked = false →
    quantumOver s = true →
    ∃ u, u = recomputeEnt (advancePasses { s with quantumAt := s.clk.tick }) ∧
      exec .quantumBoundary s = .next (coresFreed ((ctxsWhere u fun x => x.state == ctxHeld).foldl tryRestore u))) ∧
  (∀ s : State, s.clk.tick < s.quantumAt + usTicks * s.quantumUs → exec .quantumBoundary s = .next s) ∧
  (∀ (s : State) (n : Nat), (getCtx s n).state = ctxLive → (getCtx s n).saving = true → (getCtx s n).loadp = none →
    exec (.contextSaved n) s = .next (coresFreed (saveAll s n))) ∧
  (∀ (s : State) (n : Nat), (getCtx (saveAll s n) n).state = ctxHeld ∧ (getCtx (saveAll s n) n).saving = false) ∧
  (∀ (s : State) (n : Nat), (getCtx s n).state = ctxHeld → (getCtx s n).restoring = true → hasCores s n = true →
    exec (.contextRestored n) s = .next (coresStep (restoreCtx s n) n)) ∧
  (∀ (s : State) (p v : Nat), msixReady s p v = true → msixNext s = some p →
    ∃ t, exec (.msixSend p v) s = .next (emit t (.msix p v)) ∧ (getPart t p).tokens = (getPart s p).tokens - 1 ∧
      tget 0 (getPart t p).pba v = tget 0 (getPart s p).pba v - 1) ∧
  (∀ (s : State) (p : Nat), hostUp s = true → s.pwr.service ≠ 3 → p < 64 → (getPart s p).resetting = false →
    ∃ t, exec (.partitionReset p) s = .next t ∧ (getPart t p).resetting = true ∧ (getPart t p).cmdHead = 0 ∧
      (getPart t p).cmdTail = 0) ∧
  (∀ (s : State) (p : Nat), hostUp s = true → p < 64 → (getPart s p).resetting = true →
    exec (.partitionReset p) s = .next s) ∧
  (∀ (s u : State) (p : Nat), (getPart s p).resetting = true → (∀ e ∈ s.ctxs, e.2.part = p → e.2.state ≠ ctxEnding) →
    snoopWindows s p = u → windowsWait u p = false → turnOf s = none →
    exec (.resetScrubDone p) s = .next (modPart (scrubWindows u p) p fun x =>
      { x with pass := lowestPass u, resetting := false, resetDone := true, resets := x.resets + 1 })) ∧
  (∀ (s u : State) (p : Nat), (getPart s p).resetting = true → (∀ e ∈ s.ctxs, e.2.part = p → e.2.state ≠ ctxEnding) →
    snoopWindows s p = u → windowsWait u p = true → exec (.resetScrubDone p) s = .next u) ∧
  (∀ (s u : State) (p i : Nat), (getPart s p).resetting = true → (∀ e ∈ s.ctxs, e.2.part = p → e.2.state ≠ ctxEnding) →
    snoopWindows s p = u → windowsWait u p = false → turnOf (finishReset u p) = some i →
    (getSlot (finishReset u p) i).awaitReset = true → bodyIndex (getSlot (finishReset u p) i).body = p →
    exec (.resetScrubDone p) s = .next (applyTurn (finishReset u p) i))

/-! ### Lost units (R383, R388 to R401) -/

/-- R389, R390, R392, R394, R395, R399: a unit in service that fails is logged, fenced and counted as lost; a unit that is lost
already, or no unit, has no effect; a FATAL module takes no such event. R389, R391, R392: a spare that passes its test takes the
lost index and is recorded; one that fails is not used. Where a command's condition is not met the state stays as it is (the
model's choice, log 1). -/
def Obligations.UnitLoss : Prop :=
  (∀ (s : State) (c : Nat), running s = true → coreInService s c = true →
    exec (.coreLost c) s = .next (loseCore s c)) ∧
  (∀ (s : State) (c : Nat), (getCore (fenceCore s c) c).lost = true ∧ (getCore (fenceCore s c) c).owner = none ∧
    (getCore (fenceCore s c) c).threads = [] ∧ (getCore (fenceCore s c) c).sp = []) ∧
  (∀ (s : State) (d k : Nat), running s = true → physDie s d = some k → exec (.dieLost d) s = .next (loseDie s d k)) ∧
  (∀ (s : State) (k : Nat), running s = true → k < 16 → s.recov.lostStacks.contains k = false →
    exec (.stackLost k) s = .next (loseStack s k)) ∧
  (∀ (s : State) (ch : Nat), running s = true → ch < 64 → s.recov.lostChannels.contains ch = false →
    ∃ t u, exec (.channelLost ch) s = .next t ∧ t = setDegraded u ∧ t.recov.degraded = true) ∧
  (∀ (s : State) (g : Nat), running s = true → g < 4096 → (s.recov.rerouted.any fun e => e.1 == HubUnit.bridgeGroup g) = false →
    ∃ t, exec (.hubPathFault (.bridgeGroup g)) s = .next t ∧ t.recov.rerouted = s.recov.rerouted ++ [(.bridgeGroup g, 1, s.clk.tick)] ∧
      t.cores = s.cores ∧ t.mem = s.mem) ∧
  (∀ (s : State) (g l : Nat), running s = true → g < 4096 → l < 12 → thas s.recov.bridgeSwaps g = false →
    tfind (carrier s).bridgeMap g = none →
    ∃ t, exec (.bridgeLaneSwap g l) s = .next t ∧ tget 0 t.recov.bridgeSwaps g = l ∧ t.cores = s.cores ∧ t.mem = s.mem) ∧
  (∀ (s : State) (cc : Nat), running s = true → cc < 16 → s.recov.restarting.contains cc = false →
    ∃ t, exec (.watchdogExpiry cc) s = .next t ∧ t.recov.restarting = s.recov.restarting ++ [cc] ∧
      t.recov.ctlRestarts = s.recov.ctlRestarts + 1 ∧ t.cores = s.cores ∧ coreStops t cc = true ∧
      t.recov.journalReplayed = s.recov.journalReplayed + (openEntries s cc).length) ∧
  (∀ (s : State) (cc : Nat), running s = true → cc < 16 → s.recov.restarting.contains cc = true →
    exec (.watchdogExpiry cc) s = .next (enterFatal s)) ∧
  (∀ (s : State) (h : Nat), running s = true → h < 4 → exec (.hubPathFault (.die h)) s = .next (enterFatal s)) ∧
  (∀ (s : State) (u : HubUnit), running s = true → hubUnitOk u = true → hubRecovers s u = true →
    exec (.hubPathFault u) s = .next (enterFatal s)) ∧
  (∀ (s : State) (pl : SramPlace), running s = true →
    exec (.sramUncorrectable pl) s = .next (
      let u := modRec s fun r => { r with sramUe := r.sramUe + 1 }
      sramEffect (logEvent u 0x02 (sramUnit u pl) 0 none 0) pl)) ∧
  (∀ (s : State), running s = true → (enterFatal s).recov.fatal = true ∧ (enterFatal s).ctxs = [] ∧ (enterFatal s).host.up = false) ∧
  (∀ (s : State) (i : Instr) (c d k ch : Nat) (u : HubUnit) (g l cc : Nat) (pl : SramPlace), running s = false →
    i ∈ [Instr.coreLost c, .dieLost d, .stackLost k, .channelLost ch, .hubPathFault u, .bridgeLaneSwap g l, .watchdogExpiry cc,
      .sramUncorrectable pl] → exec i s = .next s) ∧
  (∀ (s : State) (c k phys : Nat), running s = true → s.recov.lostCores.contains c = true → physDie s (c / 128) = some k →
    spareCore s (c / 128) = some phys →
    ∃ t, exec (.spareCoreReady c false) s = .next t ∧ t.recov.failedCores = s.recov.failedCores ++ [phys] ∧
      t.cores = s.cores ∧ t.recov.lostCores = s.recov.lostCores) ∧
  (∀ (s : State) (c k phys : Nat), running s = true → s.recov.lostCores.contains c = true → physDie s (c / 128) = some k →
    spareCore s (c / 128) = some phys →
    ∃ u, exec (.spareCoreReady c true) s = .next (coresFreed u) ∧ tget 0 u.recov.corePhys c = phys ∧
      (getCore u c).lost = false ∧ u.recov.lostCores = s.recov.lostCores.filter fun x => x != c) ∧
  (∀ (s : State) (k die : Nat) (d : DieClk) (rest : List Nat), running s = true → s.recov.spareDie = 1 →
    (s.clk.dies.find? fun e => e.2.state == 1 && !bit (carrier s).dieActive.toNat e.1) = some (k, d) → s.recov.lostDies = die :: rest →
    ∃ u, exec (.spareDieReady true) s = .next (coresFreed (recomputeEnt u)) ∧ u.recov.spareDie = 2 ∧ u.recov.lostDies = rest ∧
      (getDie u k).state = 2 ∧ (getDie u k).logical = die ∧ (getDie u k).pllOn = !s.pwr.inHold) ∧
  (∀ (s : State) (k die : Nat) (d : DieClk) (rest : List Nat), running s = true → s.recov.spareDie = 1 →
    (s.clk.dies.find? fun e => e.2.state == 1 && !bit (carrier s).dieActive.toNat e.1) = some (k, d) → s.recov.lostDies = die :: rest →
    ∃ u, exec (.spareDieReady false) s = .next (setDegraded u) ∧ u.recov.spareDie = 3 ∧ u.recov.lostDies = s.recov.lostDies ∧
      (getDie u k).state = 3) ∧
  (∀ (s : State) (k sp : Nat), running s = true → s.recov.stackSpares.contains k = true →
    ((List.range 18).find? fun i => !bit (carrier s).stackFailed.toNat i && !bit (carrier s).stackActive.toNat i) = some sp →
    exec (.spareStackReady k true) s = .next (placeStack s k sp)) ∧
  (∀ (s : State) (k sp : Nat), running s = true → s.recov.stackSpares.contains k = true →
    ((List.range 18).find? fun i => !bit (carrier s).stackFailed.toNat i && !bit (carrier s).stackActive.toNat i) = some sp →
    ∃ u, exec (.spareStackReady k false) s = .next (askStack (saveCarrier u fun c => { c with
      stackFailed := putBit c.stackFailed sp true }) k) ∧ u.recov.stackSpares = s.recov.stackSpares.filter fun x => x != k)

/-! ### The host link and the management bus (R403 to R418, R448 to R450) -/

/-- R411 to R413: an HDM access that no decoder covers lies outside every window; a write is merged into its grain and
completes; a read answers the line; outside every window a read answers zeros, a write is dropped, and both are counted. Where
requests wait at the bank, the access takes its place in that queue under source number 1,048 (R50). -/
def Obligations.HdmAccess : Prop :=
  (∀ (s : State) (pa : Nat), hostUp s = true → tier2End ≤ pa →
    exec (.hdmRead pa) s = .next (emit (modHost s fun h => { h with hdmDenied := h.hdmDenied + 1 })
      (.hdmData (pa / 64 * 64) (zeros 64) false))) ∧
  (∀ (s : State) (pa : Nat) (bs : List Byte), hostUp s = true → tier2End ≤ pa →
    exec (.hdmWrite pa bs) s = .next (emit (modHost s fun h => { h with hdmDenied := h.hdmDenied + 1 }) (.hdmDone (pa / 64 * 64)))) ∧
  (∀ (s : State) (pa d : Nat), decoderOf pa = some d → hostUp s = true → tget false s.host.committed d = true →
    bankBusy s pa = false → partOfPa s (pa / 64 * 64) = none →
    exec (.hdmRead pa) s = .next (emit (modHost s fun h => { h with hdmDenied := h.hdmDenied + 1 })
      (.hdmData (pa / 64 * 64) (zeros 64) false))) ∧
  (∀ (s u : State) (pa d p : Nat) (data : List Byte) (g : GrainTag), decoderOf pa = some d → hostUp s = true →
    tget false s.host.committed d = true → bankBusy s pa = false → partOfPa s (pa / 64 * 64) = some p →
    (getPart s p).resetting = false → unitLost s (servePa s (pa / 64 * 64)) = false → readGrain s (grainBase (pa / 64 * 64)) = (data, g, u) →
    exec (.hdmRead pa) s = .next (emit (trackLine u (pa / 64 * 64 / 64)) (.hdmData (pa / 64 * 64)
      (slice data (pa / 64 * 64 % 256) 64) g.poison))) ∧
  (∀ (s : State) (pa d p : Nat) (bs : List Byte), decoderOf pa = some d → hostUp s = true →
    tget false s.host.committed d = true → bankBusy s pa = false → partOfPa s (pa / 64 * 64) = some p →
    (getPart s p).resetting = false → unitLost s (pa / 64 * 64) = false →
    exec (.hdmWrite pa bs) s = .next (emit (mergeLine s p (pa / 64 * 64) bs) (.hdmDone (pa / 64 * 64)))) ∧
  (∀ (s : State) (pa d : Nat), decoderOf pa = some d → hostUp s = true → tget false s.host.committed d = true →
    bankBusy s pa = true →
    exec (.hdmRead pa) s = .next (queueAtBank s 1048 pa false [] (mkTag [] 0 0 false) .host)) ∧
  (∀ (s : State) (pa d : Nat) (bs : List Byte), decoderOf pa = some d → hostUp s = true → tget false s.host.committed d = true →
    bankBusy s pa = true →
    exec (.hdmWrite pa bs) s = .next (queueAtBank s 1048 pa true bs (mkTag [] 0 0 false) .host)) ∧
  (∀ (s : State) (pa d : Nat) (bs : List Byte), decoderOf pa = some d → hostUp s = true → tget false s.host.committed d = true →
    bankBusy s pa = false → partOfPa s (pa / 64 * 64) = none →
    exec (.hdmWrite pa bs) s = .next (emit (modHost s fun h => { h with hdmDenied := h.hdmDenied + 1 }) (.hdmDone (pa / 64 * 64)))) ∧
  (∀ (s : State) (d : Nat), hostUp s = true → d < 2 →
    exec (.decoderCommit d 1) s = .next (modHost s fun h => { h with
      committed := tput h.committed d true, decoderErr := tput h.decoderErr d false })) ∧
  (∀ (s : State) (d w : Nat), hostUp s = true → d < 2 → w ≠ 1 →
    exec (.decoderCommit d w) s = .next (emit (modHost s fun h => { h with decoderErr := tput h.decoderErr d true })
      (.decoderError d)))

/-- R406, R408, R416, R417: a function-level reset or a lost link resets partitions; the link comes up at a speed and a width
that the module trains to. Where a command's condition is not met the state stays as it is (the model's choice, log 1). -/
def Obligations.HostResets : Prop :=
  (∀ (s : State) (n : Nat), hostUp s = true → s.host.vfEnable = true → 1 ≤ n → n < 64 →
    exec (.flrVf n) s = .next (resetPart (clearFunctions s [n]) n)) ∧
  (∀ (s : State), hostUp s = true → exec .flrPf s = .next (resetParts (modHost (clearFunctions s (List.range 64)) fun h =>
    { h with vfEnable := false, aspmL12 := false, linkDowns := h.linkDowns + 1 }) (List.range 64))) ∧
  (∀ (s : State), hostUp s = true → s.host.vfEnable = true → exec .vfEnableClear s =
    .next (resetParts (modHost (clearFunctions s ((List.range 64).drop 1)) fun h => { h with vfEnable := false })
      ((List.range 64).drop 1))) ∧
  (∀ (s : State) (f : Nat) (l : List Nat), f ∈ l → tget false (clearFunctions s l).host.msixOn f = false) ∧
  (∀ (s : State), s.host.up = true → running s = true → exec .dlDown s = .next (linkDown s)) ∧
  (∀ (s : State), s.host.up = true → running s = true → (s.host.ideIo = true ∨ s.host.ideCm ≠ 0) →
    exec .ideFail s = .next (linkDown (modHost s fun h => { h with ideFails := h.ideFails + 1 }))) ∧
  (∀ (s : State), s.host.ideIo = false → s.host.ideCm = 0 → exec .ideFail s = .next s) ∧
  (∀ (s : State), (loseConfig s).host.up = false ∧ (loseConfig s).host.committed = [] ∧ (loseConfig s).host.vfEnable = false ∧
    (loseConfig s).host.snoop = [] ∧ (loseConfig s).host.biLines = [] ∧ (loseConfig s).host.msixOn = [] ∧ (loseConfig s).parts = s.parts ∧ (loseConfig s).mem.cells = s.mem.cells ∧
    (loseConfig s).mem.reqs = s.mem.reqs.filter fun e => e.2.dest != .host) ∧
  (∀ (s : State), s.pwr.off = false → s.pwr.perst = true → running s = true → s.pwr.inHold = false → 3 ≤ s.pwr.stage →
    exec .perstDeassert s = .next (modHost (modPwr s fun p => { p with perst := false }) fun h => { h with cfgReady := true })) ∧
  (∀ (s : State), s.pwr.off = false → s.pwr.perst = true → s.pwr.stage < 3 → s.pwr.service ≠ 3 →
    exec .perstDeassert s = .next (emit (modPwr s fun p => { p with perst := false }) .retryStatus)) ∧
  (∀ (s : State) (v w : Nat), s.host.up = false → linkReady s = true → 1 ≤ v → v ≤ 4 → (w = 4 ∨ w = 8 ∨ w = 16) →
    ∃ t, exec (.hostLinkUp v w) s = .next t ∧ t.host.up = true ∧ t.host.speed = v ∧ t.host.width = w ∧ t.cores = s.cores ∧
      t.mem = s.mem)

/-- R448 to R450, R416: the responder's answers, request by request. The codes and the order of requests are the model's choice
(log 19). -/
def Obligations.SpdmResults : Prop :=
  (∀ (s : State) (i : Nat), hostUp s = true → inRecovery s = false →
    exec (.doeDiscovery i) s = .next (emit s (if i < 3 then .doe i ((i + 1) % 3) else .doe 0xFF 0))) ∧
  (∀ (s : State) (i : Nat), hostUp s = true → inRecovery s = true →
    exec (.doeDiscovery i) s = .next (emit s (if i < 2 then .doe i ((i + 1) % 2) else .doe 0xFF 0))) ∧
  (∀ (s : State), hostUp s = true → exec .getVersion s = .next (emit (modSpdm s fun p =>
    { p with negotiated := 1, keyed := false }) (.spdm 0x04 [0x13]))) ∧
  (∀ (s : State), hostUp s = true → 1 ≤ s.sec.spdm.negotiated → exec .getCapabilities s = .next (emit (modSpdm s fun p =>
    { p with negotiated := max 2 p.negotiated }) (.spdm 0x61 (leBytes 4 (capFlags s))))) ∧
  (∀ (s : State) (a h d e : Bool), hostUp s = true → 2 ≤ s.sec.spdm.negotiated →
    ∃ t r, exec (.negotiateAlgorithms a h d e) s = .next (emit t (.spdm 0x63 r)) ∧
      t.sec.spdm.negotiated = (if a && h then 3 else 2) ∧ t.sec.spdm.keyed = (d && e)) ∧
  (∀ (s : State), hostUp s = true → 3 ≤ s.sec.spdm.negotiated →
    exec .getDigests s = .next (emit s (.spdm 0x01 (sha3512 Config.certChain)))) ∧
  (∀ (s : State) (o l : Nat), hostUp s = true → 3 ≤ s.sec.spdm.negotiated →
    exec (.getCertificate 0 o l) s = .next (emit s (.spdm 0x02 (slice Config.certChain o l)))) ∧
  (∀ (s : State) (b : List Byte), hostUp s = true → hasIdentity s = true → 3 ≤ s.sec.spdm.negotiated →
    exec (.challenge 0 b) s = .next (sendSigned s (sha3512 Config.certChain ++ b))) ∧
  (∀ (s : State) (b : List Byte), hostUp s = true → hasIdentity s = false →
    exec (.challenge 0 b) s = .next (emit s (.spdmError erUnsupported))) ∧
  (∀ (s : State) (i : Nat) (b m : List Byte), hostUp s = true → changing s = false → 3 ≤ s.sec.spdm.negotiated →
    measurement s i = some m → exec (.getMeasurements i false b) s = .next (emit s (.spdm 0x60 m))) ∧
  (∀ (s : State) (i : Nat) (g : Bool) (b : List Byte), hostUp s = true → changing s = true →
    exec (.getMeasurements i g b) s = .next (emit s (.spdmError erNotReady))) ∧
  (∀ (s : State) (b : KeyShare), hostUp s = true → inRecovery s = false → 3 ≤ s.sec.spdm.negotiated → s.sec.spdm.keyed = true →
    s.sec.spdm.session = 0 →
    exec (.keyExchange 0 b) s = .next (sendSigned (modSpdm { s with fresh := s.fresh + 1 } fun p =>
      { p with session := 1, keys := Config.dheKeys s.fresh b.share })
      (sha3512 Config.certChain ++ b.nonce ++ Config.dheShare s.fresh))) ∧
  (∀ (s : State), hostUp s = true → inRecovery s = false → s.sec.spdm.session = 1 →
    exec (.finish (Config.finishMac s.sec.spdm.keys)) s = .next (emit (modSpdm s fun p => { p with session := 2 }) (.spdm 0x65 []))) ∧
  (∀ (s : State) (m : List Byte), hostUp s = true → inRecovery s = false → s.sec.spdm.session = 1 →
    m ≠ Config.finishMac s.sec.spdm.keys →
    exec (.finish m) s = .next (emit (modSpdm s fun p => { p with session := 0, keys := [] }) (.spdmError erDecrypt))) ∧
  (∀ (s : State), hostUp s = true → inRecovery s = false → s.sec.spdm.session = 2 →
    exec .keyUpdate s = .next (emit (modSpdm s fun p => { p with keyGen := p.keyGen + 1 }) (.spdm 0x69 [])) ∧
    exec .heartbeat s = .next (emit s (.spdm 0x68 [])) ∧
    exec .endSession s = .next (emit (modSpdm s fun p => { p with session := 0, keys := [] }) (.spdm 0x6C []))) ∧
  (∀ (s : State) (k : IdeKm), hostUp s = true → inRecovery s = false → s.sec.spdm.session = 2 →
    ∃ t, exec (.ideKm k) s = .next (emit t (.spdm 0x7E [])) ∧ t.sec.spdm.idePrograms = s.sec.spdm.idePrograms + 1 ∧
      (∀ mode, k = .program mode → t.host.ideIo = true ∧ t.host.ideCm = mode) ∧ (k = .refresh → t.host = s.host)) ∧
  (∀ (s : State) (h q : Nat) (d : List Byte), hostUp s = true →
    (q = 0 ∨ h = s.sec.spdm.chunkHandle ∧ q = s.sec.spdm.chunkSeq) →
    ∃ t, exec (.chunkSend h q false d) s = .next (emit t (.spdm 0x05 [])) ∧ t.sec.spdm.chunkHandle = h ∧
      t.sec.spdm.chunkSeq = q + 1 ∧ t.sec.spdm.chunkBuf = (if q = 0 then d else s.sec.spdm.chunkBuf ++ d)) ∧
  (∀ (s : State) (h q : Nat) (d b : List Byte), hostUp s = true →
    (q = 0 ∨ h = s.sec.spdm.chunkHandle ∧ q = s.sec.spdm.chunkSeq) → (if q = 0 then d else s.sec.spdm.chunkBuf ++ d) = b →
    exec (.chunkSend h q true d) s = .next (runRequest (requestOf b) (emit (modSpdm s fun p =>
      { p with chunkHandle := h, chunkSeq := 0, chunkBuf := [] }) (.spdm 0x05 [])))) ∧
  (∀ (s : State) (b : List Byte), hostUp s = true → s.sec.spdm.largeResp = some b →
    ∃ t, exec (.chunkGet s.sec.spdm.largeHandle s.sec.spdm.largeSeq) s =
      .next (emit t (.spdm 0x06 (b.take (Config.chunkBytes + 1)))) ∧ t.sec.spdm.largeSeq = s.sec.spdm.largeSeq + 1) ∧
  (∀ (s : State), hostUp s = true → inRecovery s = true → exec .recoveryInfo s = .next (emit s (.spdm 0x7E (recoveryBytes s)))) ∧
  (∀ (s : State) (c : Nat), hostUp s = true → exec (.unsupportedRequest c) s = .next (emit s (.spdmError erUnsupported))) ∧
  (∀ (s : State) (b : KeyShare), hostUp s = true → inRecovery s = true →
    exec (.keyExchange 0 b) s = .next (emit s (.spdmError erUnsupported)) ∧ exec .heartbeat s = .next (emit s (.spdmError erUnsupported)))

/-- R428: what the management bus answers, and that it answers in every state but Off; every answer of a command ends with its
packet error code, and a write whose code is wrong is not acknowledged and does nothing; another command code is not
acknowledged. Where a command's condition is not met the state stays as it is (the model's choice, log 1). -/
def Obligations.SmbResults : Prop :=
  (∀ (s : State), s.pwr.off = false →
    ∃ u, exec .smbStatus s = .next (emit u (smbAnswer s 0x01 true (leBytes 4 (pwrStateReg s) ++ leBytes 4 (recStatusReg s)))) ∧
      u.pwr.alert = false) ∧
  (∀ (s : State), s.pwr.off = false → exec .smbPower s = .next (emit s (smbAnswer s 0x02 true (leBytes 4 s.clk.inPower))) ∧
    exec .smbVoltage s = .next (emit s (smbAnswer s 0x03 true (leBytes 4 s.pwr.inMv))) ∧
    exec .smbTemp s = .next (emit s (smbAnswer s 0x04 false (leBytes 1 s.pwr.tempMax))) ∧
    exec .smbBoot s = .next (emit s (smbAnswer s 0x05 true (leBytes 4 (bootReg s.pwr)))) ∧
    exec (.smbCap none) s = .next (emit s (smbAnswer s 0x10 false (leBytes 2 s.clk.sustainedW)))) ∧
  (∀ (s : State) (v : SmbWrite 16), s.pwr.off = false → pecRight s 0x10 (leBytes 2 v.val.toNat) v.pec = true →
    exec (.smbCap (some v)) s =
      .next (emit (modClk s fun c => { c with sustainedW := min 3200 (max 1000 v.val.toNat) }) .smbAck)) ∧
  (∀ (s : State), s.pwr.off = false → exec .smbWake s = .next (emit (leaveHold s) .smbAck)) ∧
  (∀ (s : State) (v : SmbWrite 8), s.pwr.off = false → pecRight s 0x21 [v.val] v.pec = true →
    exec (.smbHold v) s = .next (emit (if v.val = 0xA5 then requestHold s else s) .smbAck)) ∧
  (∀ (s : State) (v : SmbWrite 8) (k : Nat), s.pwr.off = false → pecRight s 0x22 [v.val] v.pec = true →
    exec (.smbWarm v k) s = .next (emit (if v.val = 0x5A then warmReset s k else s) .smbAck)) ∧
  (∀ (s : State) (v : SmbWrite 8) (u : SmbWrite 16) (k : Nat), s.pwr.off = false →
    (pecRight s 0x21 [v.val] v.pec = false → exec (.smbHold v) s = .next (emit s (.smbNak 0x21))) ∧
    (pecRight s 0x22 [v.val] v.pec = false → exec (.smbWarm v k) s = .next (emit s (.smbNak 0x22))) ∧
    (pecRight s 0x10 (leBytes 2 u.val.toNat) u.pec = false → exec (.smbCap (some u)) s = .next (emit s (.smbNak 0x10)))) ∧
  (∀ (s : State) (code : Byte) (bs : List Byte), pecRight s code bs none = true ∧
    pecRight s code bs (some (pecOf ([smbAddr s false, code] ++ bs))) = true) ∧
  (∀ (s : State), s.pwr.off = false → s.pwr.alert = true →
    ∃ u, exec .smbAlertResponse s = .next (emit u (.smb (alertAnswer s))) ∧ u.pwr.alert = false) ∧
  (∀ (s : State), s.pwr.alert = false → exec .smbAlertResponse s = .next s) ∧
  (∀ (s : State) (c : Byte), s.pwr.off = false → c ∉ smbCodes → exec (.smbNak c) s = .next (emit s (.smbNak c))) ∧
  (∀ (s : State), s.pwr.off = true → exec .smbStatus s = .next s ∧ exec .smbWake s = .next s)

/-! ### Power, bring-up, resets (R424, R425, R431 to R443) -/

/-- R424, R425, R431, R432: contacts, conversion and the input. Beyond 42 V or 60 V the conversion stages stop and the module is
FATAL; below 36 V it is off; before PWRGD an input out of range stops the conversion; in Off only what flash and the contacts hold is left. Where a command's condition is not met the state
stays as it is (the model's choice, log 1). -/
def Obligations.PowerInput : Prop :=
  (∀ (s : State) (mv : Nat), s.pwr.mated = false →
    exec (.matedNFall mv) s = .next (modPwr s fun p => { p with mated := true, vinMv := mv, converting := vinGood mv })) ∧
  (∀ (s : State), s.pwr.mated = true →
    exec .matedNRise s = .next (modPwr (goOff s) fun p => { p with mated := false, converting := false })) ∧
  (∀ (s : State) (k : Nat), s.pwr.off = true → s.pwr.mated = true → s.pwr.converting = true →
    ∃ t, exec (.powerGood k) s = .next t ∧ t.pwr.off = false ∧ t.pwr.pwrgd = true ∧ t.peers.self = k % 8 ∧
      t.peers.incarnation = (Config.drawn s.fresh).toNat % 2 ^ 32 ∧ t.cores = s.cores ∧ t.mem = s.mem) ∧
  (∀ (s : State) (mv : Nat), s.pwr.off = false → vinGood mv = false → 42000 ≤ mv → mv < 60000 →
    ∃ t, exec (.inputOutOfRange mv) s = .next t ∧ t.pwr.uvOv = true ∧ t.pwr.vinMv = mv ∧ t.recov = s.recov ∧ t.mem = s.mem ∧
      t.cores = s.cores) ∧
  (∀ (s : State) (mv : Nat), s.pwr.off = false → s.recov.fatal = false → 36000 ≤ mv → (mv < 42000 ∨ 60000 ≤ mv) →
    ∃ t, exec (.inputOutOfRange mv) s = .next t ∧ t.recov.fatal = true ∧ t.pwr.converting = false ∧ t.ctxs = []) ∧
  (∀ (s : State) (mv : Nat), s.pwr.off = false → mv < 36000 →
    exec (.inputOutOfRange mv) s = .next (modPwr (goOff s) fun p => { p with vinMv := mv })) ∧
  (∀ (s : State) (t : Nat), s.pwr.excursionSince = some t → running s = true → t + 48000 < s.clk.tick →
    exec .inputExcursionTimeout s = .next (enterFatal s)) ∧
  (∀ (s : State) (t : Nat), s.pwr.excursionSince = some t → s.clk.tick ≤ t + 48000 → exec .inputExcursionTimeout s = .next s) ∧
  (∀ (s : State), s.pwr.off = false → exec .inputCollapse s = .next (modPwr (goOff s) fun p => { p with vinMv := 0 })) ∧
  (∀ (s : State) (mv : Nat), s.pwr.off = true → s.pwr.mated = true → vinGood mv = false →
    exec (.inputOutOfRange mv) s = .next (modPwr s fun p => { p with vinMv := mv, converting := false }) ∧
    exec .inputCollapse s = .next (modPwr s fun p => { p with vinMv := 0, converting := false })) ∧
  (∀ (s : State) (mv : Nat), 46000 ≤ mv → mv ≤ 58000 → s.pwr.mated = true → exec (.inputRestored mv) s = .next (modPwr s fun p =>
    { p with vinMv := mv, excursionSince := none, converting := if p.off then true else p.converting })) ∧
  (∀ (s : State), s.pwr.off = false → (goOff s).pwr.off = true ∧ (goOff s).ctxs = [] ∧ (goOff s).mem = Mem.reset ∧ (goOff s).cores = [] ∧
    (goOff s).sec.prot = s.sec.prot ∧ (goOff s).sec.fwSlots = s.sec.fwSlots ∧ (goOff s).pwr.copyA = s.pwr.copyA ∧
    (goOff s).pwr.copyB = s.pwr.copyB ∧ (goOff s).pending = s.pending)

/-- R434 to R438: bring-up, stage by stage; a copy of the record that does not verify, an identity that does not match, or no
image that is accepted, leaves the module in recovery with its code. R438: the contexts on logical die 0 are HELD from the start
of the speed test, which ends 96,000,000 ticks later (log 111). Where a command's condition is not met the state stays as
it is (the model's choice, log 1). -/
def Obligations.BringupResults : Prop :=
  (∀ (s : State) (a b : CopyCheck), atStage s 0 = true → (a = .valid ∨ b = .valid) →
    ∃ t, exec (.recordVerify a b) s = .next t ∧ t.pwr.stage = 1 ∧ t.pwr.service = s.pwr.service ∧
      t.pwr.currentB = pickB (modPwr s fun p => { p with checkA := a, checkB := b }).pwr ∧ t.mem = s.mem ∧ t.cores = s.cores) ∧
  (∀ (s : State) (a b : CopyCheck), atStage s 0 = true → a ≠ .valid → b ≠ .valid →
    ∃ t, exec (.recordVerify a b) s = .next t ∧ t.pwr.service = 3 ∧ t.pwr.bootCode = 1) ∧
  (∀ (s : State) (r : IdentityRead), atStage s 1 = true → (r.current = .valid ∨ r.other = .valid) →
    ∃ t, exec (.identityCheck r) s = .next t ∧
      (identityMatches r.puf = true → t.pwr.stage = 2 ∧ t.pwr.idOk = true ∧ t.sec.idDigest = fit 64 Config.idDigest ∧
        t.sec.puf = Config.pufCorrect r.puf Config.pufHelper ∧ t.sec.prot = (pickProt s.sec r.current r.other).prot) ∧
      (identityMatches r.puf = false → t.pwr.service = 3 ∧ t.pwr.bootCode = 2 ∧ t.pwr.stage = 1)) ∧
  (∀ (s : State) (r : IdentityRead), atStage s 1 = true → r.current ≠ .valid → r.other ≠ .valid →
    ∃ t, exec (.identityCheck r) s = .next t ∧ t.pwr.service = 3 ∧ t.pwr.bootCode = 2 ∧ t.pwr.stage = 1) ∧
  (∀ (c : Sec), ((pickProt c .valid .valid).prot = if c.prot.cfgSeq < c.protOther.cfgSeq then c.protOther else c.prot) ∧
    ∀ k, k ≠ .valid → (pickProt c .valid k).prot = c.prot ∧ (pickProt c k .valid).prot = c.protOther) ∧
  (∀ (s : State) (i : FwImage), atStage s 2 = true → bootImage s = some i →
    ∃ t, exec .firmwareBoot s = .next t ∧ t.pwr.stage = 3 ∧ t.sec.fwRunning = some i ∧ (s.pwr.perst = false → t.host.cfgReady = true)) ∧
  (∀ (s : State), atStage s 2 = true → bootImage s = none →
    ∃ t, exec .firmwareBoot s = .next t ∧ t.pwr.service = 3 ∧ t.pwr.bootCode = 3) ∧
  (∀ (s : State), (atStage s 3 = true ∨ atStage s 4 = true) → activeDies s ≠ [] →
    ∃ t, exec .earlyService s = .next t ∧ t.pwr.service = 1 ∧ t.pwr.stage = 5) ∧
  (∀ (s : State) (l : List Unit1), (atStage s 3 = true ∨ atStage s 4 = true) →
    exec (.unitSelfTestDone l) s = .next (failUnits s l)) ∧
  (∀ (s : State) (l : List Unit1), running s = true → s.pwr.service = 1 → s.pwr.selfTested = false →
    exec (.unitSelfTestDone l) s = .next (modPwr (assignUnits (failUnits (freezeStacks
      ((servingDies s).foldl (fun s e => freezeCores s e.1) s)) l)) fun p => { p with selfTested := true })) ∧
  (∀ (s : State), running s = true → s.pwr.service = 1 → s.pwr.selfTested = true → s.pwr.speedTested = false →
    s.pwr.speedTest = none → (∀ n ∈ onDie0 s, (getCtx s n).loadp = none) →
    ∃ t, exec .speedTest s = .next t ∧ t.pwr.speedTest = some (s.clk.tick, onDie0 s) ∧ t.pwr.speedTested = false ∧
      ∀ n ∈ onDie0 s, (getCtx t n).state = ctxHeld) ∧
  (∀ (s : State) (t0 : Nat) (l : List Nat), s.pwr.speedTest = some (t0, l) →
    (s.clk.tick < t0 + 96000000 → endSpeedTest s = s) ∧
    (t0 + 96000000 ≤ s.clk.tick → (endSpeedTest s).pwr.speedTested = true ∧ (endSpeedTest s).pwr.speedTest = none)) ∧
  (∀ (s : State), running s = true → s.pwr.service = 1 → s.pwr.selfTested = true → s.pwr.speedTested = true →
    ∃ u, exec .fullService s = .next (coresFreed (recomputeEnt (enablePorts u))) ∧ u.pwr.service = 2 ∧ u.pwr.stage = 6) ∧
  (∀ (s : State) (a b : CopyCheck), atStage s 0 = false → exec (.recordVerify a b) s = .next s)

/-- R439 to R443: Nap, Hold and the warm reset. Hold is refused while it may not be entered; else the threads of the LIVE
contexts stop, and once nothing that it waits for goes on the module saves them and treats every peer as absent. The wake takes
the doorbells that waited. Where a command's condition is not met the state stays as it is (the model's choice, log 1). -/
def Obligations.LowPower : Prop :=
  (∀ (s : State) (t : Nat), s.pwr.napSince = some t → running s = true → s.pwr.inHold = false →
    s.pwr.napEn = true → allStopped s = true → quiet s = true → t + usTicks * s.pwr.napAfterUs ≤ s.clk.tick →
    exec .napEntry s = .next (modPwr s fun p => { p with state := 2 })) ∧
  (∀ (s : State) (b : Nat), bit s.pwr.pin (b / 512) = true → bankAsleep s b = false) ∧
  (∀ (s : State) (b : Nat), s.pwr.state = 2 → b < 8192 → bit s.pwr.pin (b / 512) = false → bankAsleep s b = true) ∧
  (∀ (s : State), s.pwr.napEn = false → exec .napEntry s = .next s) ∧
  (∀ (s : State), hostUp s = true → s.pwr.holdAsked = false → s.host.aspmL12 = false →
    ∃ t, exec .hold s = .next t ∧ t.pwr.holdRefused = true ∧ t.pwr.inHold = false ∧ t.ctxs = s.ctxs ∧ t.mem = s.mem) ∧
  (∀ (s t : State), hostUp s = true → s.pwr.holdAsked = false → holdBlocked s = false →
    t = (liveCtxs s).foldl beginSave (modPwr s fun p => { p with holdAsked := true }) →
    (holdWaits t = true → exec .hold s = .next t) ∧ (holdWaits t = false → exec .hold s = .next (holdStep t))) ∧
  (∀ (s : State), s.pwr.holdAsked = true → exec .hold s = .next s) ∧
  (∀ (s : State), s.pwr.holdAsked = true → holdWaits s = false → holdStep s = enterHold s) ∧
  (∀ (s : State), (enterHold s).pwr.inHold = true ∧ ∀ e ∈ (enterHold s).clk.dies, e.2.pllOn = false) ∧
  (∀ (s : State), s.pwr.inHold = true → running s = true →
    ∃ t, exec .holdExit s = .next (pumpBells t) ∧ t.pwr.inHold = false ∧ t.peers.joinEpoch = s.peers.joinEpoch + 1 ∧
      t.ctxs = s.ctxs ∧ t.mem = s.mem) ∧
  (∀ (s : State), s.pwr.inHold = false → exec .holdExit s = .next s) ∧
  (∀ (s : State) (k : Nat), hostUp s = true →
    ∃ t, exec (.warm k) s = .next t ∧ t.pwr.service = 0 ∧ t.pwr.stage = 0 ∧ t.pwr.warmResets = s.pwr.warmResets + 1 ∧
      t.ctxs = [] ∧ t.mem.cells = [] ∧ t.peers.self = k % 8 ∧ t.sec.prot = s.sec.prot ∧ t.clk.tick = s.clk.tick)

/-- R425: a module in FATAL leaves it only by Off, or by a warm reset that starts while the input lies in 46 to 58 V, which
restarts the conversion. -/
def Obligations.FatalLeaves : Prop :=
  ∀ (i : Instr) (s t : State), s.recov.fatal = true → exec i s = .next t → t.recov.fatal = false →
    t.pwr.off = true ∨ (∃ v k, i = .smbWarm v k ∧ v.val = 0x5A ∧ 46000 ≤ s.pwr.vinMv ∧ s.pwr.vinMv ≤ 58000 ∧ t.pwr.converting = true ∧
      t.pwr.stage = 0 ∧ t.pwr.service = 0)

/-! ### Security and registers (R6, R7, R409, R451 to R459) -/

/-- R451, R452: VERIFY copies the staged image into the slot that is not active; its check gives VERIFIED or a result; ACTIVATE
of a verified image that is still admitted, with the running image's TABLE_VERSION, switches control core by control core, each of
which pauses once its journal holds no incomplete entry and goes on with the new image (two commands to a core: the model's
choice, log 152), of another one marks its slot active; FW_CTL while BUSY is counted. Where a command's condition is not met the state stays as it is (the model's choice, log
1). -/
def Obligations.FirmwareResults : Prop :=
  (∀ (s u : State) (bs : List Byte), hostUp s = true → s.sec.fwState ≠ fsBusy → stageOk s s.sec.stagePa s.sec.fwBytes = true →
    fwFetch s s.sec.stagePa s.sec.fwBytes = (bs, false, u) →
    exec .fwVerify s = .next (modSec u fun x => { x with
      fwState := fsBusy, fwSlots := tput x.fwSlots (otherSlot u) (readImg bs) })) ∧
  (∀ (s u : State) (bs : List Byte), hostUp s = true → s.sec.fwState ≠ fsBusy → stageOk s s.sec.stagePa s.sec.fwBytes = true →
    fwFetch s s.sec.stagePa s.sec.fwBytes = (bs, true, u) → exec .fwVerify s = .next (fwEnd u fsIdle fwBadSig)) ∧
  (∀ (s : State), hostUp s = true → s.sec.fwState ≠ fsBusy → stageOk s s.sec.stagePa s.sec.fwBytes = false →
    exec .fwVerify s = .next (fwEnd s fsIdle fwRefused)) ∧
  (∀ (s : State), hostUp s = true → s.sec.fwState = fsBusy →
    exec .fwVerify s = .next (modSec s fun x => { x with fwIgnored := satInc 16 x.fwIgnored }) ∧
    exec .fwActivate s = .next (modSec s fun x => { x with fwIgnored := satInc 16 x.fwIgnored })) ∧
  (∀ (s : State), running s = true → s.sec.fwState = fsBusy → s.sec.fwMode = 0 →
    exec .fwVerifyDone s = .next (fwEnd s (if imageResult s (stagedImage s) = fwOk then fsVerified else fsIdle)
      (imageResult s (stagedImage s)))) ∧
  (∀ (s : State), hostUp s = true → s.sec.fwState = fsVerified → applying s = true →
    exec .fwActivate s = .next (modSec s fun x => { x with fwState := fsBusy, fwMode := 1 })) ∧
  (∀ (s : State), hostUp s = true → s.sec.fwState = fsVerified → applying s = false → stillAdmitted s (stagedImage s) = false →
    exec .fwActivate s = .next (fwEnd s fsIdle fwRefused)) ∧
  (∀ (s : State), hostUp s = true → s.sec.fwState = fsVerified → applying s = false →
    stillAdmitted s (stagedImage s) = true → inRecovery s = false → runningTable s = some (stagedImage s).tableVersion →
    exec .fwActivate s = .next (modSec s fun x => { x with fwState := fsBusy, fwMode := 2, fwStep := 0, switched := [] })) ∧
  (∀ (s : State), hostUp s = true → s.sec.fwState = fsVerified → applying s = false →
    stillAdmitted s (stagedImage s) = true → (inRecovery s = true ∨ runningTable s ≠ some (stagedImage s).tableVersion) →
    exec .fwActivate s = .next (fwEnd (modSec s fun x => { x with activeSlot := otherSlot s }) fsActive fwOk)) ∧
  (∀ (s : State) (i : FwImage), s.sec.prot.cosign = true → imageResult s i ≠ fwOk → stillAdmitted s i = false) ∧
  (∀ (s : State) (ok : Bool), running s = true → s.sec.fwMode = 2 → s.sec.fwPaused = false → openEntries s s.sec.fwStep = [] →
    ∃ t, exec (.fwCoreSwitch ok) s = .next t ∧ coreStops t s.sec.fwStep = true ∧ t.sec.fwStep = s.sec.fwStep ∧ t.mem = s.mem ∧
      ∀ n, controlCoreOf n = s.sec.fwStep → (getCtx t n).ctl.thr.st ≠ .runnable) ∧
  (∀ (s : State) (ok : Bool), s.sec.fwMode = 2 → s.sec.fwPaused = false → openEntries s s.sec.fwStep ≠ [] →
    exec (.fwCoreSwitch ok) s = .next s) ∧
  (∀ (s : State), running s = true → s.sec.fwMode = 2 → s.sec.fwPaused = true → s.sec.fwStep < 15 →
    exec (.fwCoreSwitch true) s = .next (modSec (resumeCore s) fun x => { x with
      fwStep := s.sec.fwStep + 1, switched := x.switched ++ [s.sec.fwStep] })) ∧
  (∀ (s : State), running s = true → s.sec.fwMode = 2 → s.sec.fwPaused = true → s.sec.fwStep = 15 →
    exec (.fwCoreSwitch true) s = .next (finishSwitch (modSec (resumeCore s) fun x => { x with
      fwStep := 16, switched := x.switched ++ [15] }))) ∧
  (∀ (s : State), running s = true → s.sec.fwMode = 2 → s.sec.fwPaused = true → s.sec.fwStep = 0 →
    exec (.fwCoreSwitch false) s = .next (fwEnd (resumeCore s) fsIdle fwSelfCheck)) ∧
  (∀ (s : State) (b : Bool), s.sec.fwMode ≠ 2 → exec (.fwCoreSwitch b) s = .next s)

/-- R454 to R459: a change record is submitted, signed by two roles, applied in the order of second signatures or ended with its
result, its settings written to the copy of the protection record that is not in use; one no longer signed under the enrolled
keys takes no effect (with which result it ends is the model's choice, log 149); CLEAR empties its slot; its window passes. Where a command's condition is not met the state stays as it is (the model's
choice, log 1). -/
def Obligations.ChangeRecordResults : Prop :=
  (∀ (s : State) (i : Nat), secUp s = true → i < 4 → ((getSlot s i).state = csEmpty ∨ csApplied ≤ (getSlot s i).state) →
    ∀ (b : Option (List Byte)) (u : State), readBody s (getSlot s i).bodyPa = (b, u) →
    exec (.crSubmit i) s = .next (setCr u i (submitted u (getSlot s i) b))) ∧
  (∀ (s : State) (x : CrSlot), (submitted s x none).state = csRejected ∧ (submitted s x none).result = crBadFormat) ∧
  (∀ (s : State) (x : CrSlot) (b : List Byte), bodyOk b = true → slice b 16 64 = s.sec.idDigest →
    (submitted s x (some b)).state = csPending ∧ (submitted s x (some b)).body = b ∧
    (submitted s x (some b)).digest = leNat (shake256 b) ∧ (submitted s x (some b)).submitTick = s.clk.tick ∧
    (submitted s x (some b)).operator = false ∧ (submitted s x (some b)).custodian = false) ∧
  (∀ (s u : State) (i : Nat) (sig : Option (List Byte)), secUp s = true → i < 4 → windowPassed s (getSlot s i) = false →
    sigOf s (getSlot s i) = (sig, u) → (∀ b, sig = some b → signerOf u (getSlot s i) b = none) →
    exec (.crSign i) s = .next (modSec u fun x => { x with badSigs := x.badSigs + 1 })) ∧
  (∀ (s u : State) (i : Nat) (b : List Byte), secUp s = true → i < 4 → windowPassed s (getSlot s i) = false →
    sigOf s (getSlot s i) = (some b, u) →
    exec (.crSign i) s = .next (match signerOf u (getSlot s i) b with
      | none => modSec u fun x => { x with badSigs := x.badSigs + 1 }
      | some r =>
        if (r = 0 ∧ (getSlot s i).operator = true) ∨ (r = 1 ∧ (getSlot s i).custodian = true)
        then modSec u fun x => { x with badSigs := x.badSigs + 1 }
        else if (getSlot s i).state = csPending ∨ (getSlot s i).state = csSigned1 then addSign u i (getSlot s i) r b else u)) ∧
  (∀ (s : State) (i r : Nat) (x : CrSlot) (b : List Byte), r < 2 → (x.operator || r == 0) = true → (x.custodian || r == 1) = true →
    (getSlot (addSign s i x r b) i).state = csApplying ∧ (getSlot (addSign s i x r b) i).order = s.sec.nextOrder ∧
    (r = 0 → (getSlot (addSign s i x r b) i).opSig = b) ∧ (r = 1 → (getSlot (addSign s i x r b) i).cuSig = b)) ∧
  (∀ (s : State) (i : Nat), secUp s = true → i < 4 → (getSlot s i).state ≠ csApplying →
    exec (.crClear i) s = .next (setCr s i { CrSlot.reset with bodyPa := (getSlot s i).bodyPa, sigPa := (getSlot s i).sigPa })) ∧
  (∀ (s : State) (i : Nat), running s = true → windowPassed s (getSlot s i) = true →
    ∃ t, exec (.crWindowExpiry i) s = .next t ∧ (getSlot t i).state = csExpired ∧ t.sec.expired = s.sec.expired + 1) ∧
  (∀ (s : State) (i : Nat), running s = true → turnOf s = some i → bodyWord (getSlot s i).body 1 ≠ s.sec.prot.cfgSeq →
    exec (.crApply i) s = .next (goOnActivate (endSlot s i csRejected crStale))) ∧
  (∀ (s : State) (i : Nat), running s = true → turnOf s = some i → bodyWord (getSlot s i).body 1 = s.sec.prot.cfgSeq →
    tableOk (newSettings s.sec.prot (getSlot s i).body) = true → rulesOk (newSettings s.sec.prot (getSlot s i).body) = true →
    bodyKind (getSlot s i).body = 3 →
    ∃ u, exec (.crApply i) s = .next (goOnActivate u) ∧
      (signedNow s (getSlot s i) = true → (getSlot u i).state = csApplied ∧ u.sec.prot.cfgSeq = s.sec.prot.cfgSeq + 1 ∧
        u.sec.prot.minFw = bits (payWord (getSlot s i).body 0) 31 0 ∧ u.sec.prot.window = payWord (getSlot s i).body 1 ∧
        u.sec.prot.parts = s.sec.prot.parts ∧ u.sec.protOther = s.sec.prot ∧ u.sec.protOtherSig = s.sec.protSig) ∧
      (signedNow s (getSlot s i) = false → (getSlot u i).state = csRejected ∧ u.sec.prot = s.sec.prot)) ∧
  (∀ (s : State) (i : Nat), running s = true → turnOf s = some i → bodyWord (getSlot s i).body 1 = s.sec.prot.cfgSeq →
    signedNow s (getSlot s i) = false → exec (.crApply i) s = .next (goOnActivate (endSlot s i csRejected crCheck))) ∧
  (∀ (s : State) (i : Nat), turnOf s ≠ some i → exec (.crApply i) s = .next s)

/-- R6, R405, R407, R409, R410, R436, Tables 1.9, 1.10, 8.9, 15.5, 15.7, 17.6: an aligned write of 32 or 64 bits stores the field within its limits; a write
of another width or place, or that no link carries, is ignored. Where a command's condition is not met the state stays as it is
(the model's choice, log 1). -/
def Obligations.RegisterWriteResults : Prop :=
  (∀ (s : State) (v : Word), hostUp s = true → s.pwr.service ≠ 3 →
    exec (.registerWrite 0 0x10024 4 v) s = .next (modClk s fun c => { c with
      sustainedW := min 3200 (max 1000 (v.toNat % 4096)) })) ∧
  (∀ (s : State) (v : Word), hostUp s = true → s.pwr.service ≠ 3 →
    exec (.registerWrite 0 0x808 4 v) s = .next (modMem s fun m => { m with lateT2 := max 960 (v.toNat % 2 ^ 32) })) ∧
  (∀ (s : State) (v : Word), hostUp s = true → s.pwr.service ≠ 3 →
    exec (.registerWrite 0 0x900 4 v) s = .next { s with quantumUs := min 100000 (max 100 (v.toNat % 2 ^ 32)) }) ∧
  (∀ (s : State) (p : Nat) (v : Word), hostUp s = true → s.pwr.service ≠ 3 → p < 64 →
    exec (.registerWrite 0 (0x100008 + 0x1000 * p) 4 v) s = .next (modPart s p fun x => { x with share := v.toNat % 65536 })) ∧
  (∀ (s : State) (n : Nat) (v : Word), 0 < n → exec (.registerWrite n 0x008 4 v) s = .next s) ∧
  (∀ (s : State) (p : Nat) (v : Word), accepting s p = true → p < 64 → (getPart s p).cmdBase ≠ 0 →
    (v.toNat % 2 ^ 32 + 2 ^ 32 - (getPart s p).cmdHead) % 2 ^ 32 ≤ cmdSlots (getPart s p).cmdOrder →
    cmdRingOk s p (getPart s p).cmdBase (getPart s p).cmdOrder = true →
    exec (.registerWrite 0 (0x2100010 + 0x1000 * p) 4 v) s = .next (modPart s p fun x => { x with cmdTail := v.toNat % 2 ^ 32 })) ∧
  (∀ (s : State) (f o w : Nat) (v : Word), w ≠ 4 → w ≠ 8 → exec (.registerWrite f o w v) s = .next s) ∧
  (∀ (s : State) (f o w : Nat) (v : Word), o % w ≠ 0 → exec (.registerWrite f o w v) s = .next s) ∧
  (∀ (s : State) (f o w : Nat) (v : Word), hostUp s = false → exec (.registerWrite f o w v) s = .next s) ∧
  (∀ (s t : State) (f o w : Nat) (v : Word), f < 64 → exec (.registerWrite f o w v) s = .next t →
    t.mem.cells = s.mem.cells ∧ t.mem.tags = s.mem.tags ∧ t.cores = s.cores ∧ t.models = s.models ∧ t.rollout = s.rollout ∧
    t.host = s.host) ∧
  (∀ (s : State) (v : Word), hostUp s = true → s.host.cfgReady = true → s.pwr.service ≠ 3 → v.toNat % 2 = 1 →
    exec (.registerWrite 64 0x168 4 v) s = .next (modHost s fun h => { h with vfEnable := true })) ∧
  (∀ (s : State) (n : Nat) (v : Word), hostUp s = true → s.host.cfgReady = true → (n = 0 ∨ s.host.vfEnable = true) →
    exec (.registerWrite (64 + n) 0xB0 4 v) s = .next (modHost s fun h => { h with
      msixOn := tput h.msixOn n (v.getLsbD 31), msixMask := tput h.msixMask n (v.getLsbD 30) })) ∧
  (∀ (s : State) (n o w : Nat) (v : Word), s.host.cfgReady = false → exec (.registerWrite (64 + n) o w v) s = .next s) ∧
  (∀ (s : State) (f o n : Nat), hostUp s = false → 0 < n → barRead s f o n = none) ∧
  (∀ (s : State), hostUp s = true → s.pwr.service ≠ 3 →
    barRead s 0 0x10024 4 = some (leBytes 4 s.clk.sustainedW) ∧ barRead s 0 0x10028 4 = some (leBytes 4 (s.clk.inPower % 2 ^ 32))) ∧
  (∀ (s : State) (f o i k : Nat) (bs : List Byte), barRead s f o (i + k) = some bs → 0 < k →
    barRead s f (o + i) k = some (bs.drop i)) ∧
  (∀ (s : State), hostUp s = true → s.host.cfgReady = true →
    configRead s 0 0x08 = some 0x12000000 ∧ configRead s 0 0x16C = some (63 <<< 16 + 63) ∧
    configRead s 0 0x168 = some (if s.host.vfEnable then 1 else 0))

/-! ### Reset, invariants and frames -/

/-- The module right after reset: nothing waits, every register as the reset column gives it, every memory listed in canonical
form, and every setting within its limits (R8; the values the spec does not give, log 7). -/
def Obligations.ResetHolds : Prop :=
  State.reset.pending = [] ∧ State.reset.memWf ∧ State.reset.Legal ∧ State.reset.clk.tick = 0 ∧ State.reset.quantumUs = 1000 ∧
  State.reset.clk.sustainedW = 3200 ∧ State.reset.mem.lateT2 = 4800 ∧ State.reset.mem.lateT3 = 24000 ∧
  State.reset.mem.lateT4 = 96000 ∧ State.reset.recov.fatal = false ∧
  (∀ n, (getCtx State.reset n).state = ctxFree) ∧ (∀ p, (getPort State.reset p).replayMax = 4) ∧
  (∀ c, (getCore State.reset c).owner = none) ∧ (∀ a, readByte State.reset.mem.cells a = 0)

/-- Every step keeps the memories of the module and of its cores in canonical form. -/
def Obligations.MemoryCanonicalKept : Prop :=
  ∀ s t : State, s.memWf → step s = .next t → t.memWf

/-- Every step keeps the settings within the limits that their registers give them (Tables 1.10, 8.9, 8.10, 10.13, 15.7, 18.8;
R303). -/
def Obligations.LegalKept : Prop :=
  ∀ s t : State, s.Legal → step s = .next t → t.Legal

/-- What a computing instruction of a core leaves as it was, where its context lives on: all of memory and its requests, every
other core, every other thread of its core, the scalar registers and descriptors other than DST, and every partition and port.
-/
def Obligations.FrameCompute : Prop :=
  ∀ (i : Instr) (row : Row) (s t : State) (c k n : Nat) (w : Word), Issues row s (.thread c k) n w →
    (i, row) ∈ [(Instr.agset (.thread c k) w, rowAgset), (.agopen (.thread c k) w, rowAgopen), (.agout (.thread c k) w, rowAgout),
      (.mma (.thread c k) w, rowMma), (.atts (.thread c k) w, rowAtts), (.attv (.thread c k) w, rowAttv),
      (.vfn (.thread c k) w, rowVfn), (.cvt (.thread c k) w, rowCvt), (.vred (.thread c k) w, rowVred),
      (.vcmp (.thread c k) w, rowVcmp), (.pep (.thread c k) w, rowPep), (.dwr (.thread c k) w, rowDwr),
      (.salu (.thread c k) w, rowSalu), (.scmp (.thread c k) w, rowScmp), (.br (.thread c k) w, rowBr),
      (.nop (.thread c k) w, rowFlow 3 true true), (.rdsysTick (.thread c k) w, rowRdsys 0),
      (.rdsysStatus (.thread c k) w, rowRdsys 1), (.rdsysContext (.thread c k) w, rowRdsys 3),
      (.rdsysPeer (.thread c k) w, rowRdsys 4), (.smemLoad (.thread c k) w, rowSmemLoad)] →
    exec i s = .next t → (getCtx t n).state = ctxLive →
    t.mem = s.mem ∧ (∀ d, d ≠ c → getCore t d = getCore s d) ∧
    (∀ j, j ≠ k → getThread (getCore t c) j = getThread (getCore s c) j) ∧
    (∀ r, r ≠ iDst w → sOf t (.thread c k) r = sOf s (.thread c k) r) ∧
    (∀ r, r ≠ iDst w → dOf t (.thread c k) r = dOf s (.thread c k) r) ∧
    t.parts = s.parts ∧ t.ports = s.ports ∧ t.models = s.models ∧ t.rollout = s.rollout ∧ t.hub = s.hub ∧ t.upd = s.upd

/-- Scratchpad bytes outside what an instruction stores: an SMEM store's eight bytes; the rows of the output tile of VFN, VCMP
and PEP, with their scales. -/
def Obligations.FrameScratchpad : Prop :=
  (∀ (s t : State) (c k n : Nat) (w : Word), s.memWf → Issues rowSmemStore s (.thread c k) n w →
    exec (.smemStore (.thread c k) w) s = .next t → (getCtx t n).state = ctxLive →
    t.mem = s.mem ∧ (∀ d, d ≠ c → getCore t d = getCore s d) ∧
    ∀ off, (off < smemAddr s (.thread c k) w % spSize ∨ smemAddr s (.thread c k) w % spSize + 8 ≤ off) →
      readByte (getCore t c).sp off = readByte (getCore s c).sp off) ∧
  (∀ (i : Instr) (row : Row) (s t : State) (c k n : Nat) (w : Word) (o : Tile), s.memWf → Issues row s (.thread c k) n w →
    (i, row) ∈ [(Instr.vfn (.thread c k) w, rowVfn), (.vcmp (.thread c k) w, rowVcmp), (.pep (.thread c k) w, rowPep)] →
    tileFor (getCtx s n).num.s5emu (getCore s c) (dOf s (.thread c k) (iDst w)) = some o →
    exec i s = .next t → (getCtx t n).state = ctxLive →
    ∀ off, (∀ r ∈ o.runs, off < r.1 ∨ r.1 + r.2 ≤ off) → readByte (getCore t c).sp off = readByte (getCore s c).sp off)

/-- R373, R386, R418: firmware takes pending work of the partitions in rotation: of those with work pending, the first after the one
served last; within a partition the commands that stood in the ring before a doorbell go first. While the control core that takes
them restarts, or a Hold request is under way (R440), doorbells and commands wait. -/
def Obligations.FirmwareTurns : Prop :=
  (∀ (s : State) (p : Nat) (w : Option Instr), nextTurn s = some (p, w) →
    ∃ i, i < 64 ∧ p = (s.host.turn + 1 + i) % 64 ∧ firstWork s p = some w ∧
      ∀ j, j < i → firstWork s ((s.host.turn + 1 + j) % 64) = none) ∧
  (∀ (s : State), nextTurn s = none → ∀ p, p < 64 → firstWork s p = none) ∧
  (∀ (s : State) (p k : Nat) (c : Instr) (l : List (Instr × Nat)), accepting s p = true → (getPart s p).destroyWait = none →
    completing s p = false → coreStops s 0 = false → coreStops s (bellCore s c) = false →
    (getPart s p).bells = (c, k) :: l →
    firstWork s p = some (if commandsBefore (getPart s p) k = true then none else some c)) ∧
  (∀ (s : State) (p : Nat) (c : Instr), firmwareBusy s = true → pumpBells s = s ∧ cmdReady s p = false ∧ bellAtOnce s p c = false) ∧
  (∀ (s : State) (p k : Nat) (c : Instr) (l : List (Instr × Nat)), (getPart s p).bells = (c, k) :: l →
    commandsBefore (getPart s p) k = false → coreStops s (bellCore s c) = true → firstWork s p = none)
end

