-- ==== Sys2Proof/Laws/State.lean ====
section
/-! SUPPORT. One lemma per field of State and per update of the state: what the update makes of the field. -/

namespace Sys2Proof
namespace Machine

/-! ### setCore -/

@[simp] theorem setCore_pending (s : State) (c : Nat) (x : Core) : (setCore s c x).pending = s.pending := rfl
@[simp] theorem setCore_fresh (s : State) (c : Nat) (x : Core) : (setCore s c x).fresh = s.fresh := rfl
@[simp] theorem setCore_serial (s : State) (c : Nat) (x : Core) : (setCore s c x).serial = s.serial := rfl
@[simp] theorem setCore_out (s : State) (c : Nat) (x : Core) : (setCore s c x).out = s.out := rfl
@[simp] theorem setCore_clk (s : State) (c : Nat) (x : Core) : (setCore s c x).clk = s.clk := rfl
@[simp] theorem setCore_mem (s : State) (c : Nat) (x : Core) : (setCore s c x).mem = s.mem := rfl
@[simp] theorem setCore_cores (s : State) (c : Nat) (x : Core) : (setCore s c x).cores = tput s.cores c x := rfl
@[simp] theorem setCore_ctxs (s : State) (c : Nat) (x : Core) : (setCore s c x).ctxs = s.ctxs := rfl
@[simp] theorem setCore_scheds (s : State) (c : Nat) (x : Core) : (setCore s c x).scheds = s.scheds := rfl
@[simp] theorem setCore_nextSched (s : State) (c : Nat) (x : Core) : (setCore s c x).nextSched = s.nextSched := rfl
@[simp] theorem setCore_parts (s : State) (c : Nat) (x : Core) : (setCore s c x).parts = s.parts := rfl
@[simp] theorem setCore_quantumUs (s : State) (c : Nat) (x : Core) : (setCore s c x).quantumUs = s.quantumUs := rfl
@[simp] theorem setCore_preemptions (s : State) (c : Nat) (x : Core) : (setCore s c x).preemptions = s.preemptions := rfl
@[simp] theorem setCore_hub (s : State) (c : Nat) (x : Core) : (setCore s c x).hub = s.hub := rfl
@[simp] theorem setCore_upd (s : State) (c : Nat) (x : Core) : (setCore s c x).upd = s.upd := rfl
@[simp] theorem setCore_ports (s : State) (c : Nat) (x : Core) : (setCore s c x).ports = s.ports := rfl
@[simp] theorem setCore_peers (s : State) (c : Nat) (x : Core) : (setCore s c x).peers = s.peers := rfl
@[simp] theorem setCore_rollout (s : State) (c : Nat) (x : Core) : (setCore s c x).rollout = s.rollout := rfl
@[simp] theorem setCore_models (s : State) (c : Nat) (x : Core) : (setCore s c x).models = s.models := rfl
@[simp] theorem setCore_modelGens (s : State) (c : Nat) (x : Core) : (setCore s c x).modelGens = s.modelGens := rfl
@[simp] theorem setCore_recov (s : State) (c : Nat) (x : Core) : (setCore s c x).recov = s.recov := rfl
@[simp] theorem setCore_host (s : State) (c : Nat) (x : Core) : (setCore s c x).host = s.host := rfl
@[simp] theorem setCore_pwr (s : State) (c : Nat) (x : Core) : (setCore s c x).pwr = s.pwr := rfl
@[simp] theorem setCore_sec (s : State) (c : Nat) (x : Core) : (setCore s c x).sec = s.sec := rfl

/-! ### modCore -/

@[simp] theorem modCore_pending (s : State) (c : Nat) (f : Core → Core) : (modCore s c f).pending = s.pending := rfl
@[simp] theorem modCore_fresh (s : State) (c : Nat) (f : Core → Core) : (modCore s c f).fresh = s.fresh := rfl
@[simp] theorem modCore_serial (s : State) (c : Nat) (f : Core → Core) : (modCore s c f).serial = s.serial := rfl
@[simp] theorem modCore_out (s : State) (c : Nat) (f : Core → Core) : (modCore s c f).out = s.out := rfl
@[simp] theorem modCore_clk (s : State) (c : Nat) (f : Core → Core) : (modCore s c f).clk = s.clk := rfl
@[simp] theorem modCore_mem (s : State) (c : Nat) (f : Core → Core) : (modCore s c f).mem = s.mem := rfl
@[simp] theorem modCore_cores (s : State) (c : Nat) (f : Core → Core) : (modCore s c f).cores = tput s.cores c (f (getCore s c)) := rfl
@[simp] theorem modCore_ctxs (s : State) (c : Nat) (f : Core → Core) : (modCore s c f).ctxs = s.ctxs := rfl
@[simp] theorem modCore_scheds (s : State) (c : Nat) (f : Core → Core) : (modCore s c f).scheds = s.scheds := rfl
@[simp] theorem modCore_nextSched (s : State) (c : Nat) (f : Core → Core) : (modCore s c f).nextSched = s.nextSched := rfl
@[simp] theorem modCore_parts (s : State) (c : Nat) (f : Core → Core) : (modCore s c f).parts = s.parts := rfl
@[simp] theorem modCore_quantumUs (s : State) (c : Nat) (f : Core → Core) : (modCore s c f).quantumUs = s.quantumUs := rfl
@[simp] theorem modCore_preemptions (s : State) (c : Nat) (f : Core → Core) : (modCore s c f).preemptions = s.preemptions := rfl
@[simp] theorem modCore_hub (s : State) (c : Nat) (f : Core → Core) : (modCore s c f).hub = s.hub := rfl
@[simp] theorem modCore_upd (s : State) (c : Nat) (f : Core → Core) : (modCore s c f).upd = s.upd := rfl
@[simp] theorem modCore_ports (s : State) (c : Nat) (f : Core → Core) : (modCore s c f).ports = s.ports := rfl
@[simp] theorem modCore_peers (s : State) (c : Nat) (f : Core → Core) : (modCore s c f).peers = s.peers := rfl
@[simp] theorem modCore_rollout (s : State) (c : Nat) (f : Core → Core) : (modCore s c f).rollout = s.rollout := rfl
@[simp] theorem modCore_models (s : State) (c : Nat) (f : Core → Core) : (modCore s c f).models = s.models := rfl
@[simp] theorem modCore_modelGens (s : State) (c : Nat) (f : Core → Core) : (modCore s c f).modelGens = s.modelGens := rfl
@[simp] theorem modCore_recov (s : State) (c : Nat) (f : Core → Core) : (modCore s c f).recov = s.recov := rfl
@[simp] theorem modCore_host (s : State) (c : Nat) (f : Core → Core) : (modCore s c f).host = s.host := rfl
@[simp] theorem modCore_pwr (s : State) (c : Nat) (f : Core → Core) : (modCore s c f).pwr = s.pwr := rfl
@[simp] theorem modCore_sec (s : State) (c : Nat) (f : Core → Core) : (modCore s c f).sec = s.sec := rfl

/-! ### setCtx -/

@[simp] theorem setCtx_pending (s : State) (n : Nat) (x : Ctx) : (setCtx s n x).pending = s.pending := rfl
@[simp] theorem setCtx_fresh (s : State) (n : Nat) (x : Ctx) : (setCtx s n x).fresh = s.fresh := rfl
@[simp] theorem setCtx_serial (s : State) (n : Nat) (x : Ctx) : (setCtx s n x).serial = s.serial := rfl
@[simp] theorem setCtx_out (s : State) (n : Nat) (x : Ctx) : (setCtx s n x).out = s.out := rfl
@[simp] theorem setCtx_clk (s : State) (n : Nat) (x : Ctx) : (setCtx s n x).clk = s.clk := rfl
@[simp] theorem setCtx_mem (s : State) (n : Nat) (x : Ctx) : (setCtx s n x).mem = s.mem := rfl
@[simp] theorem setCtx_cores (s : State) (n : Nat) (x : Ctx) : (setCtx s n x).cores = s.cores := rfl
@[simp] theorem setCtx_ctxs (s : State) (n : Nat) (x : Ctx) : (setCtx s n x).ctxs = tput s.ctxs n x := rfl
@[simp] theorem setCtx_scheds (s : State) (n : Nat) (x : Ctx) : (setCtx s n x).scheds = s.scheds := rfl
@[simp] theorem setCtx_nextSched (s : State) (n : Nat) (x : Ctx) : (setCtx s n x).nextSched = s.nextSched := rfl
@[simp] theorem setCtx_parts (s : State) (n : Nat) (x : Ctx) : (setCtx s n x).parts = s.parts := rfl
@[simp] theorem setCtx_quantumUs (s : State) (n : Nat) (x : Ctx) : (setCtx s n x).quantumUs = s.quantumUs := rfl
@[simp] theorem setCtx_preemptions (s : State) (n : Nat) (x : Ctx) : (setCtx s n x).preemptions = s.preemptions := rfl
@[simp] theorem setCtx_hub (s : State) (n : Nat) (x : Ctx) : (setCtx s n x).hub = s.hub := rfl
@[simp] theorem setCtx_upd (s : State) (n : Nat) (x : Ctx) : (setCtx s n x).upd = s.upd := rfl
@[simp] theorem setCtx_ports (s : State) (n : Nat) (x : Ctx) : (setCtx s n x).ports = s.ports := rfl
@[simp] theorem setCtx_peers (s : State) (n : Nat) (x : Ctx) : (setCtx s n x).peers = s.peers := rfl
@[simp] theorem setCtx_rollout (s : State) (n : Nat) (x : Ctx) : (setCtx s n x).rollout = s.rollout := rfl
@[simp] theorem setCtx_models (s : State) (n : Nat) (x : Ctx) : (setCtx s n x).models = s.models := rfl
@[simp] theorem setCtx_modelGens (s : State) (n : Nat) (x : Ctx) : (setCtx s n x).modelGens = s.modelGens := rfl
@[simp] theorem setCtx_recov (s : State) (n : Nat) (x : Ctx) : (setCtx s n x).recov = s.recov := rfl
@[simp] theorem setCtx_host (s : State) (n : Nat) (x : Ctx) : (setCtx s n x).host = s.host := rfl
@[simp] theorem setCtx_pwr (s : State) (n : Nat) (x : Ctx) : (setCtx s n x).pwr = s.pwr := rfl
@[simp] theorem setCtx_sec (s : State) (n : Nat) (x : Ctx) : (setCtx s n x).sec = s.sec := rfl

/-! ### modCtx -/

@[simp] theorem modCtx_pending (s : State) (n : Nat) (f : Ctx → Ctx) : (modCtx s n f).pending = s.pending := rfl
@[simp] theorem modCtx_fresh (s : State) (n : Nat) (f : Ctx → Ctx) : (modCtx s n f).fresh = s.fresh := rfl
@[simp] theorem modCtx_serial (s : State) (n : Nat) (f : Ctx → Ctx) : (modCtx s n f).serial = s.serial := rfl
@[simp] theorem modCtx_out (s : State) (n : Nat) (f : Ctx → Ctx) : (modCtx s n f).out = s.out := rfl
@[simp] theorem modCtx_clk (s : State) (n : Nat) (f : Ctx → Ctx) : (modCtx s n f).clk = s.clk := rfl
@[simp] theorem modCtx_mem (s : State) (n : Nat) (f : Ctx → Ctx) : (modCtx s n f).mem = s.mem := rfl
@[simp] theorem modCtx_cores (s : State) (n : Nat) (f : Ctx → Ctx) : (modCtx s n f).cores = s.cores := rfl
@[simp] theorem modCtx_ctxs (s : State) (n : Nat) (f : Ctx → Ctx) : (modCtx s n f).ctxs = tput s.ctxs n (f (getCtx s n)) := rfl
@[simp] theorem modCtx_scheds (s : State) (n : Nat) (f : Ctx → Ctx) : (modCtx s n f).scheds = s.scheds := rfl
@[simp] theorem modCtx_nextSched (s : State) (n : Nat) (f : Ctx → Ctx) : (modCtx s n f).nextSched = s.nextSched := rfl
@[simp] theorem modCtx_parts (s : State) (n : Nat) (f : Ctx → Ctx) : (modCtx s n f).parts = s.parts := rfl
@[simp] theorem modCtx_quantumUs (s : State) (n : Nat) (f : Ctx → Ctx) : (modCtx s n f).quantumUs = s.quantumUs := rfl
@[simp] theorem modCtx_preemptions (s : State) (n : Nat) (f : Ctx → Ctx) : (modCtx s n f).preemptions = s.preemptions := rfl
@[simp] theorem modCtx_hub (s : State) (n : Nat) (f : Ctx → Ctx) : (modCtx s n f).hub = s.hub := rfl
@[simp] theorem modCtx_upd (s : State) (n : Nat) (f : Ctx → Ctx) : (modCtx s n f).upd = s.upd := rfl
@[simp] theorem modCtx_ports (s : State) (n : Nat) (f : Ctx → Ctx) : (modCtx s n f).ports = s.ports := rfl
@[simp] theorem modCtx_peers (s : State) (n : Nat) (f : Ctx → Ctx) : (modCtx s n f).peers = s.peers := rfl
@[simp] theorem modCtx_rollout (s : State) (n : Nat) (f : Ctx → Ctx) : (modCtx s n f).rollout = s.rollout := rfl
@[simp] theorem modCtx_models (s : State) (n : Nat) (f : Ctx → Ctx) : (modCtx s n f).models = s.models := rfl
@[simp] theorem modCtx_modelGens (s : State) (n : Nat) (f : Ctx → Ctx) : (modCtx s n f).modelGens = s.modelGens := rfl
@[simp] theorem modCtx_recov (s : State) (n : Nat) (f : Ctx → Ctx) : (modCtx s n f).recov = s.recov := rfl
@[simp] theorem modCtx_host (s : State) (n : Nat) (f : Ctx → Ctx) : (modCtx s n f).host = s.host := rfl
@[simp] theorem modCtx_pwr (s : State) (n : Nat) (f : Ctx → Ctx) : (modCtx s n f).pwr = s.pwr := rfl
@[simp] theorem modCtx_sec (s : State) (n : Nat) (f : Ctx → Ctx) : (modCtx s n f).sec = s.sec := rfl

/-! ### setPart -/

@[simp] theorem setPart_pending (s : State) (p : Nat) (x : Part) : (setPart s p x).pending = s.pending := rfl
@[simp] theorem setPart_fresh (s : State) (p : Nat) (x : Part) : (setPart s p x).fresh = s.fresh := rfl
@[simp] theorem setPart_serial (s : State) (p : Nat) (x : Part) : (setPart s p x).serial = s.serial := rfl
@[simp] theorem setPart_out (s : State) (p : Nat) (x : Part) : (setPart s p x).out = s.out := rfl
@[simp] theorem setPart_clk (s : State) (p : Nat) (x : Part) : (setPart s p x).clk = s.clk := rfl
@[simp] theorem setPart_mem (s : State) (p : Nat) (x : Part) : (setPart s p x).mem = s.mem := rfl
@[simp] theorem setPart_cores (s : State) (p : Nat) (x : Part) : (setPart s p x).cores = s.cores := rfl
@[simp] theorem setPart_ctxs (s : State) (p : Nat) (x : Part) : (setPart s p x).ctxs = s.ctxs := rfl
@[simp] theorem setPart_scheds (s : State) (p : Nat) (x : Part) : (setPart s p x).scheds = s.scheds := rfl
@[simp] theorem setPart_nextSched (s : State) (p : Nat) (x : Part) : (setPart s p x).nextSched = s.nextSched := rfl
@[simp] theorem setPart_parts (s : State) (p : Nat) (x : Part) : (setPart s p x).parts = tput s.parts p x := rfl
@[simp] theorem setPart_quantumUs (s : State) (p : Nat) (x : Part) : (setPart s p x).quantumUs = s.quantumUs := rfl
@[simp] theorem setPart_preemptions (s : State) (p : Nat) (x : Part) : (setPart s p x).preemptions = s.preemptions := rfl
@[simp] theorem setPart_hub (s : State) (p : Nat) (x : Part) : (setPart s p x).hub = s.hub := rfl
@[simp] theorem setPart_upd (s : State) (p : Nat) (x : Part) : (setPart s p x).upd = s.upd := rfl
@[simp] theorem setPart_ports (s : State) (p : Nat) (x : Part) : (setPart s p x).ports = s.ports := rfl
@[simp] theorem setPart_peers (s : State) (p : Nat) (x : Part) : (setPart s p x).peers = s.peers := rfl
@[simp] theorem setPart_rollout (s : State) (p : Nat) (x : Part) : (setPart s p x).rollout = s.rollout := rfl
@[simp] theorem setPart_models (s : State) (p : Nat) (x : Part) : (setPart s p x).models = s.models := rfl
@[simp] theorem setPart_modelGens (s : State) (p : Nat) (x : Part) : (setPart s p x).modelGens = s.modelGens := rfl
@[simp] theorem setPart_recov (s : State) (p : Nat) (x : Part) : (setPart s p x).recov = s.recov := rfl
@[simp] theorem setPart_host (s : State) (p : Nat) (x : Part) : (setPart s p x).host = s.host := rfl
@[simp] theorem setPart_pwr (s : State) (p : Nat) (x : Part) : (setPart s p x).pwr = s.pwr := rfl
@[simp] theorem setPart_sec (s : State) (p : Nat) (x : Part) : (setPart s p x).sec = s.sec := rfl

/-! ### modPart -/

@[simp] theorem modPart_pending (s : State) (p : Nat) (f : Part → Part) : (modPart s p f).pending = s.pending := rfl
@[simp] theorem modPart_fresh (s : State) (p : Nat) (f : Part → Part) : (modPart s p f).fresh = s.fresh := rfl
@[simp] theorem modPart_serial (s : State) (p : Nat) (f : Part → Part) : (modPart s p f).serial = s.serial := rfl
@[simp] theorem modPart_out (s : State) (p : Nat) (f : Part → Part) : (modPart s p f).out = s.out := rfl
@[simp] theorem modPart_clk (s : State) (p : Nat) (f : Part → Part) : (modPart s p f).clk = s.clk := rfl
@[simp] theorem modPart_mem (s : State) (p : Nat) (f : Part → Part) : (modPart s p f).mem = s.mem := rfl
@[simp] theorem modPart_cores (s : State) (p : Nat) (f : Part → Part) : (modPart s p f).cores = s.cores := rfl
@[simp] theorem modPart_ctxs (s : State) (p : Nat) (f : Part → Part) : (modPart s p f).ctxs = s.ctxs := rfl
@[simp] theorem modPart_scheds (s : State) (p : Nat) (f : Part → Part) : (modPart s p f).scheds = s.scheds := rfl
@[simp] theorem modPart_nextSched (s : State) (p : Nat) (f : Part → Part) : (modPart s p f).nextSched = s.nextSched := rfl
@[simp] theorem modPart_parts (s : State) (p : Nat) (f : Part → Part) : (modPart s p f).parts = tput s.parts p (f (getPart s p)) := rfl
@[simp] theorem modPart_quantumUs (s : State) (p : Nat) (f : Part → Part) : (modPart s p f).quantumUs = s.quantumUs := rfl
@[simp] theorem modPart_preemptions (s : State) (p : Nat) (f : Part → Part) : (modPart s p f).preemptions = s.preemptions := rfl
@[simp] theorem modPart_hub (s : State) (p : Nat) (f : Part → Part) : (modPart s p f).hub = s.hub := rfl
@[simp] theorem modPart_upd (s : State) (p : Nat) (f : Part → Part) : (modPart s p f).upd = s.upd := rfl
@[simp] theorem modPart_ports (s : State) (p : Nat) (f : Part → Part) : (modPart s p f).ports = s.ports := rfl
@[simp] theorem modPart_peers (s : State) (p : Nat) (f : Part → Part) : (modPart s p f).peers = s.peers := rfl
@[simp] theorem modPart_rollout (s : State) (p : Nat) (f : Part → Part) : (modPart s p f).rollout = s.rollout := rfl
@[simp] theorem modPart_models (s : State) (p : Nat) (f : Part → Part) : (modPart s p f).models = s.models := rfl
@[simp] theorem modPart_modelGens (s : State) (p : Nat) (f : Part → Part) : (modPart s p f).modelGens = s.modelGens := rfl
@[simp] theorem modPart_recov (s : State) (p : Nat) (f : Part → Part) : (modPart s p f).recov = s.recov := rfl
@[simp] theorem modPart_host (s : State) (p : Nat) (f : Part → Part) : (modPart s p f).host = s.host := rfl
@[simp] theorem modPart_pwr (s : State) (p : Nat) (f : Part → Part) : (modPart s p f).pwr = s.pwr := rfl
@[simp] theorem modPart_sec (s : State) (p : Nat) (f : Part → Part) : (modPart s p f).sec = s.sec := rfl

/-! ### setPort -/

@[simp] theorem setPort_pending (s : State) (p : Nat) (x : Port) : (setPort s p x).pending = s.pending := rfl
@[simp] theorem setPort_fresh (s : State) (p : Nat) (x : Port) : (setPort s p x).fresh = s.fresh := rfl
@[simp] theorem setPort_serial (s : State) (p : Nat) (x : Port) : (setPort s p x).serial = s.serial := rfl
@[simp] theorem setPort_out (s : State) (p : Nat) (x : Port) : (setPort s p x).out = s.out := rfl
@[simp] theorem setPort_clk (s : State) (p : Nat) (x : Port) : (setPort s p x).clk = s.clk := rfl
@[simp] theorem setPort_mem (s : State) (p : Nat) (x : Port) : (setPort s p x).mem = s.mem := rfl
@[simp] theorem setPort_cores (s : State) (p : Nat) (x : Port) : (setPort s p x).cores = s.cores := rfl
@[simp] theorem setPort_ctxs (s : State) (p : Nat) (x : Port) : (setPort s p x).ctxs = s.ctxs := rfl
@[simp] theorem setPort_scheds (s : State) (p : Nat) (x : Port) : (setPort s p x).scheds = s.scheds := rfl
@[simp] theorem setPort_nextSched (s : State) (p : Nat) (x : Port) : (setPort s p x).nextSched = s.nextSched := rfl
@[simp] theorem setPort_parts (s : State) (p : Nat) (x : Port) : (setPort s p x).parts = s.parts := rfl
@[simp] theorem setPort_quantumUs (s : State) (p : Nat) (x : Port) : (setPort s p x).quantumUs = s.quantumUs := rfl
@[simp] theorem setPort_preemptions (s : State) (p : Nat) (x : Port) : (setPort s p x).preemptions = s.preemptions := rfl
@[simp] theorem setPort_hub (s : State) (p : Nat) (x : Port) : (setPort s p x).hub = s.hub := rfl
@[simp] theorem setPort_upd (s : State) (p : Nat) (x : Port) : (setPort s p x).upd = s.upd := rfl
@[simp] theorem setPort_ports (s : State) (p : Nat) (x : Port) : (setPort s p x).ports = tput s.ports p x := rfl
@[simp] theorem setPort_peers (s : State) (p : Nat) (x : Port) : (setPort s p x).peers = s.peers := rfl
@[simp] theorem setPort_rollout (s : State) (p : Nat) (x : Port) : (setPort s p x).rollout = s.rollout := rfl
@[simp] theorem setPort_models (s : State) (p : Nat) (x : Port) : (setPort s p x).models = s.models := rfl
@[simp] theorem setPort_modelGens (s : State) (p : Nat) (x : Port) : (setPort s p x).modelGens = s.modelGens := rfl
@[simp] theorem setPort_recov (s : State) (p : Nat) (x : Port) : (setPort s p x).recov = s.recov := rfl
@[simp] theorem setPort_host (s : State) (p : Nat) (x : Port) : (setPort s p x).host = s.host := rfl
@[simp] theorem setPort_pwr (s : State) (p : Nat) (x : Port) : (setPort s p x).pwr = s.pwr := rfl
@[simp] theorem setPort_sec (s : State) (p : Nat) (x : Port) : (setPort s p x).sec = s.sec := rfl

/-! ### modPort -/

@[simp] theorem modPort_pending (s : State) (p : Nat) (f : Port → Port) : (modPort s p f).pending = s.pending := rfl
@[simp] theorem modPort_fresh (s : State) (p : Nat) (f : Port → Port) : (modPort s p f).fresh = s.fresh := rfl
@[simp] theorem modPort_serial (s : State) (p : Nat) (f : Port → Port) : (modPort s p f).serial = s.serial := rfl
@[simp] theorem modPort_out (s : State) (p : Nat) (f : Port → Port) : (modPort s p f).out = s.out := rfl
@[simp] theorem modPort_clk (s : State) (p : Nat) (f : Port → Port) : (modPort s p f).clk = s.clk := rfl
@[simp] theorem modPort_mem (s : State) (p : Nat) (f : Port → Port) : (modPort s p f).mem = s.mem := rfl
@[simp] theorem modPort_cores (s : State) (p : Nat) (f : Port → Port) : (modPort s p f).cores = s.cores := rfl
@[simp] theorem modPort_ctxs (s : State) (p : Nat) (f : Port → Port) : (modPort s p f).ctxs = s.ctxs := rfl
@[simp] theorem modPort_scheds (s : State) (p : Nat) (f : Port → Port) : (modPort s p f).scheds = s.scheds := rfl
@[simp] theorem modPort_nextSched (s : State) (p : Nat) (f : Port → Port) : (modPort s p f).nextSched = s.nextSched := rfl
@[simp] theorem modPort_parts (s : State) (p : Nat) (f : Port → Port) : (modPort s p f).parts = s.parts := rfl
@[simp] theorem modPort_quantumUs (s : State) (p : Nat) (f : Port → Port) : (modPort s p f).quantumUs = s.quantumUs := rfl
@[simp] theorem modPort_preemptions (s : State) (p : Nat) (f : Port → Port) : (modPort s p f).preemptions = s.preemptions := rfl
@[simp] theorem modPort_hub (s : State) (p : Nat) (f : Port → Port) : (modPort s p f).hub = s.hub := rfl
@[simp] theorem modPort_upd (s : State) (p : Nat) (f : Port → Port) : (modPort s p f).upd = s.upd := rfl
@[simp] theorem modPort_ports (s : State) (p : Nat) (f : Port → Port) : (modPort s p f).ports = tput s.ports p (f (getPort s p)) := rfl
@[simp] theorem modPort_peers (s : State) (p : Nat) (f : Port → Port) : (modPort s p f).peers = s.peers := rfl
@[simp] theorem modPort_rollout (s : State) (p : Nat) (f : Port → Port) : (modPort s p f).rollout = s.rollout := rfl
@[simp] theorem modPort_models (s : State) (p : Nat) (f : Port → Port) : (modPort s p f).models = s.models := rfl
@[simp] theorem modPort_modelGens (s : State) (p : Nat) (f : Port → Port) : (modPort s p f).modelGens = s.modelGens := rfl
@[simp] theorem modPort_recov (s : State) (p : Nat) (f : Port → Port) : (modPort s p f).recov = s.recov := rfl
@[simp] theorem modPort_host (s : State) (p : Nat) (f : Port → Port) : (modPort s p f).host = s.host := rfl
@[simp] theorem modPort_pwr (s : State) (p : Nat) (f : Port → Port) : (modPort s p f).pwr = s.pwr := rfl
@[simp] theorem modPort_sec (s : State) (p : Nat) (f : Port → Port) : (modPort s p f).sec = s.sec := rfl

/-! ### modClk -/

@[simp] theorem modClk_pending (s : State) (f : Clock → Clock) : (modClk s f).pending = s.pending := rfl
@[simp] theorem modClk_fresh (s : State) (f : Clock → Clock) : (modClk s f).fresh = s.fresh := rfl
@[simp] theorem modClk_serial (s : State) (f : Clock → Clock) : (modClk s f).serial = s.serial := rfl
@[simp] theorem modClk_out (s : State) (f : Clock → Clock) : (modClk s f).out = s.out := rfl
@[simp] theorem modClk_clk (s : State) (f : Clock → Clock) : (modClk s f).clk = f s.clk := rfl
@[simp] theorem modClk_mem (s : State) (f : Clock → Clock) : (modClk s f).mem = s.mem := rfl
@[simp] theorem modClk_cores (s : State) (f : Clock → Clock) : (modClk s f).cores = s.cores := rfl
@[simp] theorem modClk_ctxs (s : State) (f : Clock → Clock) : (modClk s f).ctxs = s.ctxs := rfl
@[simp] theorem modClk_scheds (s : State) (f : Clock → Clock) : (modClk s f).scheds = s.scheds := rfl
@[simp] theorem modClk_nextSched (s : State) (f : Clock → Clock) : (modClk s f).nextSched = s.nextSched := rfl
@[simp] theorem modClk_parts (s : State) (f : Clock → Clock) : (modClk s f).parts = s.parts := rfl
@[simp] theorem modClk_quantumUs (s : State) (f : Clock → Clock) : (modClk s f).quantumUs = s.quantumUs := rfl
@[simp] theorem modClk_preemptions (s : State) (f : Clock → Clock) : (modClk s f).preemptions = s.preemptions := rfl
@[simp] theorem modClk_hub (s : State) (f : Clock → Clock) : (modClk s f).hub = s.hub := rfl
@[simp] theorem modClk_upd (s : State) (f : Clock → Clock) : (modClk s f).upd = s.upd := rfl
@[simp] theorem modClk_ports (s : State) (f : Clock → Clock) : (modClk s f).ports = s.ports := rfl
@[simp] theorem modClk_peers (s : State) (f : Clock → Clock) : (modClk s f).peers = s.peers := rfl
@[simp] theorem modClk_rollout (s : State) (f : Clock → Clock) : (modClk s f).rollout = s.rollout := rfl
@[simp] theorem modClk_models (s : State) (f : Clock → Clock) : (modClk s f).models = s.models := rfl
@[simp] theorem modClk_modelGens (s : State) (f : Clock → Clock) : (modClk s f).modelGens = s.modelGens := rfl
@[simp] theorem modClk_recov (s : State) (f : Clock → Clock) : (modClk s f).recov = s.recov := rfl
@[simp] theorem modClk_host (s : State) (f : Clock → Clock) : (modClk s f).host = s.host := rfl
@[simp] theorem modClk_pwr (s : State) (f : Clock → Clock) : (modClk s f).pwr = s.pwr := rfl
@[simp] theorem modClk_sec (s : State) (f : Clock → Clock) : (modClk s f).sec = s.sec := rfl

/-! ### modMem -/

@[simp] theorem modMem_pending (s : State) (f : Mem → Mem) : (modMem s f).pending = s.pending := rfl
@[simp] theorem modMem_fresh (s : State) (f : Mem → Mem) : (modMem s f).fresh = s.fresh := rfl
@[simp] theorem modMem_serial (s : State) (f : Mem → Mem) : (modMem s f).serial = s.serial := rfl
@[simp] theorem modMem_out (s : State) (f : Mem → Mem) : (modMem s f).out = s.out := rfl
@[simp] theorem modMem_clk (s : State) (f : Mem → Mem) : (modMem s f).clk = s.clk := rfl
@[simp] theorem modMem_mem (s : State) (f : Mem → Mem) : (modMem s f).mem = f s.mem := rfl
@[simp] theorem modMem_cores (s : State) (f : Mem → Mem) : (modMem s f).cores = s.cores := rfl
@[simp] theorem modMem_ctxs (s : State) (f : Mem → Mem) : (modMem s f).ctxs = s.ctxs := rfl
@[simp] theorem modMem_scheds (s : State) (f : Mem → Mem) : (modMem s f).scheds = s.scheds := rfl
@[simp] theorem modMem_nextSched (s : State) (f : Mem → Mem) : (modMem s f).nextSched = s.nextSched := rfl
@[simp] theorem modMem_parts (s : State) (f : Mem → Mem) : (modMem s f).parts = s.parts := rfl
@[simp] theorem modMem_quantumUs (s : State) (f : Mem → Mem) : (modMem s f).quantumUs = s.quantumUs := rfl
@[simp] theorem modMem_preemptions (s : State) (f : Mem → Mem) : (modMem s f).preemptions = s.preemptions := rfl
@[simp] theorem modMem_hub (s : State) (f : Mem → Mem) : (modMem s f).hub = s.hub := rfl
@[simp] theorem modMem_upd (s : State) (f : Mem → Mem) : (modMem s f).upd = s.upd := rfl
@[simp] theorem modMem_ports (s : State) (f : Mem → Mem) : (modMem s f).ports = s.ports := rfl
@[simp] theorem modMem_peers (s : State) (f : Mem → Mem) : (modMem s f).peers = s.peers := rfl
@[simp] theorem modMem_rollout (s : State) (f : Mem → Mem) : (modMem s f).rollout = s.rollout := rfl
@[simp] theorem modMem_models (s : State) (f : Mem → Mem) : (modMem s f).models = s.models := rfl
@[simp] theorem modMem_modelGens (s : State) (f : Mem → Mem) : (modMem s f).modelGens = s.modelGens := rfl
@[simp] theorem modMem_recov (s : State) (f : Mem → Mem) : (modMem s f).recov = s.recov := rfl
@[simp] theorem modMem_host (s : State) (f : Mem → Mem) : (modMem s f).host = s.host := rfl
@[simp] theorem modMem_pwr (s : State) (f : Mem → Mem) : (modMem s f).pwr = s.pwr := rfl
@[simp] theorem modMem_sec (s : State) (f : Mem → Mem) : (modMem s f).sec = s.sec := rfl

/-! ### modHub -/

@[simp] theorem modHub_pending (s : State) (f : Hub → Hub) : (modHub s f).pending = s.pending := rfl
@[simp] theorem modHub_fresh (s : State) (f : Hub → Hub) : (modHub s f).fresh = s.fresh := rfl
@[simp] theorem modHub_serial (s : State) (f : Hub → Hub) : (modHub s f).serial = s.serial := rfl
@[simp] theorem modHub_out (s : State) (f : Hub → Hub) : (modHub s f).out = s.out := rfl
@[simp] theorem modHub_clk (s : State) (f : Hub → Hub) : (modHub s f).clk = s.clk := rfl
@[simp] theorem modHub_mem (s : State) (f : Hub → Hub) : (modHub s f).mem = s.mem := rfl
@[simp] theorem modHub_cores (s : State) (f : Hub → Hub) : (modHub s f).cores = s.cores := rfl
@[simp] theorem modHub_ctxs (s : State) (f : Hub → Hub) : (modHub s f).ctxs = s.ctxs := rfl
@[simp] theorem modHub_scheds (s : State) (f : Hub → Hub) : (modHub s f).scheds = s.scheds := rfl
@[simp] theorem modHub_nextSched (s : State) (f : Hub → Hub) : (modHub s f).nextSched = s.nextSched := rfl
@[simp] theorem modHub_parts (s : State) (f : Hub → Hub) : (modHub s f).parts = s.parts := rfl
@[simp] theorem modHub_quantumUs (s : State) (f : Hub → Hub) : (modHub s f).quantumUs = s.quantumUs := rfl
@[simp] theorem modHub_preemptions (s : State) (f : Hub → Hub) : (modHub s f).preemptions = s.preemptions := rfl
@[simp] theorem modHub_hub (s : State) (f : Hub → Hub) : (modHub s f).hub = f s.hub := rfl
@[simp] theorem modHub_upd (s : State) (f : Hub → Hub) : (modHub s f).upd = s.upd := rfl
@[simp] theorem modHub_ports (s : State) (f : Hub → Hub) : (modHub s f).ports = s.ports := rfl
@[simp] theorem modHub_peers (s : State) (f : Hub → Hub) : (modHub s f).peers = s.peers := rfl
@[simp] theorem modHub_rollout (s : State) (f : Hub → Hub) : (modHub s f).rollout = s.rollout := rfl
@[simp] theorem modHub_models (s : State) (f : Hub → Hub) : (modHub s f).models = s.models := rfl
@[simp] theorem modHub_modelGens (s : State) (f : Hub → Hub) : (modHub s f).modelGens = s.modelGens := rfl
@[simp] theorem modHub_recov (s : State) (f : Hub → Hub) : (modHub s f).recov = s.recov := rfl
@[simp] theorem modHub_host (s : State) (f : Hub → Hub) : (modHub s f).host = s.host := rfl
@[simp] theorem modHub_pwr (s : State) (f : Hub → Hub) : (modHub s f).pwr = s.pwr := rfl
@[simp] theorem modHub_sec (s : State) (f : Hub → Hub) : (modHub s f).sec = s.sec := rfl

/-! ### modUpd -/

@[simp] theorem modUpd_pending (s : State) (f : Upd → Upd) : (modUpd s f).pending = s.pending := rfl
@[simp] theorem modUpd_fresh (s : State) (f : Upd → Upd) : (modUpd s f).fresh = s.fresh := rfl
@[simp] theorem modUpd_serial (s : State) (f : Upd → Upd) : (modUpd s f).serial = s.serial := rfl
@[simp] theorem modUpd_out (s : State) (f : Upd → Upd) : (modUpd s f).out = s.out := rfl
@[simp] theorem modUpd_clk (s : State) (f : Upd → Upd) : (modUpd s f).clk = s.clk := rfl
@[simp] theorem modUpd_mem (s : State) (f : Upd → Upd) : (modUpd s f).mem = s.mem := rfl
@[simp] theorem modUpd_cores (s : State) (f : Upd → Upd) : (modUpd s f).cores = s.cores := rfl
@[simp] theorem modUpd_ctxs (s : State) (f : Upd → Upd) : (modUpd s f).ctxs = s.ctxs := rfl
@[simp] theorem modUpd_scheds (s : State) (f : Upd → Upd) : (modUpd s f).scheds = s.scheds := rfl
@[simp] theorem modUpd_nextSched (s : State) (f : Upd → Upd) : (modUpd s f).nextSched = s.nextSched := rfl
@[simp] theorem modUpd_parts (s : State) (f : Upd → Upd) : (modUpd s f).parts = s.parts := rfl
@[simp] theorem modUpd_quantumUs (s : State) (f : Upd → Upd) : (modUpd s f).quantumUs = s.quantumUs := rfl
@[simp] theorem modUpd_preemptions (s : State) (f : Upd → Upd) : (modUpd s f).preemptions = s.preemptions := rfl
@[simp] theorem modUpd_hub (s : State) (f : Upd → Upd) : (modUpd s f).hub = s.hub := rfl
@[simp] theorem modUpd_upd (s : State) (f : Upd → Upd) : (modUpd s f).upd = f s.upd := rfl
@[simp] theorem modUpd_ports (s : State) (f : Upd → Upd) : (modUpd s f).ports = s.ports := rfl
@[simp] theorem modUpd_peers (s : State) (f : Upd → Upd) : (modUpd s f).peers = s.peers := rfl
@[simp] theorem modUpd_rollout (s : State) (f : Upd → Upd) : (modUpd s f).rollout = s.rollout := rfl
@[simp] theorem modUpd_models (s : State) (f : Upd → Upd) : (modUpd s f).models = s.models := rfl
@[simp] theorem modUpd_modelGens (s : State) (f : Upd → Upd) : (modUpd s f).modelGens = s.modelGens := rfl
@[simp] theorem modUpd_recov (s : State) (f : Upd → Upd) : (modUpd s f).recov = s.recov := rfl
@[simp] theorem modUpd_host (s : State) (f : Upd → Upd) : (modUpd s f).host = s.host := rfl
@[simp] theorem modUpd_pwr (s : State) (f : Upd → Upd) : (modUpd s f).pwr = s.pwr := rfl
@[simp] theorem modUpd_sec (s : State) (f : Upd → Upd) : (modUpd s f).sec = s.sec := rfl

/-! ### modPeers -/

@[simp] theorem modPeers_pending (s : State) (f : Peers → Peers) : (modPeers s f).pending = s.pending := rfl
@[simp] theorem modPeers_fresh (s : State) (f : Peers → Peers) : (modPeers s f).fresh = s.fresh := rfl
@[simp] theorem modPeers_serial (s : State) (f : Peers → Peers) : (modPeers s f).serial = s.serial := rfl
@[simp] theorem modPeers_out (s : State) (f : Peers → Peers) : (modPeers s f).out = s.out := rfl
@[simp] theorem modPeers_clk (s : State) (f : Peers → Peers) : (modPeers s f).clk = s.clk := rfl
@[simp] theorem modPeers_mem (s : State) (f : Peers → Peers) : (modPeers s f).mem = s.mem := rfl
@[simp] theorem modPeers_cores (s : State) (f : Peers → Peers) : (modPeers s f).cores = s.cores := rfl
@[simp] theorem modPeers_ctxs (s : State) (f : Peers → Peers) : (modPeers s f).ctxs = s.ctxs := rfl
@[simp] theorem modPeers_scheds (s : State) (f : Peers → Peers) : (modPeers s f).scheds = s.scheds := rfl
@[simp] theorem modPeers_nextSched (s : State) (f : Peers → Peers) : (modPeers s f).nextSched = s.nextSched := rfl
@[simp] theorem modPeers_parts (s : State) (f : Peers → Peers) : (modPeers s f).parts = s.parts := rfl
@[simp] theorem modPeers_quantumUs (s : State) (f : Peers → Peers) : (modPeers s f).quantumUs = s.quantumUs := rfl
@[simp] theorem modPeers_preemptions (s : State) (f : Peers → Peers) : (modPeers s f).preemptions = s.preemptions := rfl
@[simp] theorem modPeers_hub (s : State) (f : Peers → Peers) : (modPeers s f).hub = s.hub := rfl
@[simp] theorem modPeers_upd (s : State) (f : Peers → Peers) : (modPeers s f).upd = s.upd := rfl
@[simp] theorem modPeers_ports (s : State) (f : Peers → Peers) : (modPeers s f).ports = s.ports := rfl
@[simp] theorem modPeers_peers (s : State) (f : Peers → Peers) : (modPeers s f).peers = f s.peers := rfl
@[simp] theorem modPeers_rollout (s : State) (f : Peers → Peers) : (modPeers s f).rollout = s.rollout := rfl
@[simp] theorem modPeers_models (s : State) (f : Peers → Peers) : (modPeers s f).models = s.models := rfl
@[simp] theorem modPeers_modelGens (s : State) (f : Peers → Peers) : (modPeers s f).modelGens = s.modelGens := rfl
@[simp] theorem modPeers_recov (s : State) (f : Peers → Peers) : (modPeers s f).recov = s.recov := rfl
@[simp] theorem modPeers_host (s : State) (f : Peers → Peers) : (modPeers s f).host = s.host := rfl
@[simp] theorem modPeers_pwr (s : State) (f : Peers → Peers) : (modPeers s f).pwr = s.pwr := rfl
@[simp] theorem modPeers_sec (s : State) (f : Peers → Peers) : (modPeers s f).sec = s.sec := rfl

/-! ### modRo -/

@[simp] theorem modRo_pending (s : State) (f : Rollout → Rollout) : (modRo s f).pending = s.pending := rfl
@[simp] theorem modRo_fresh (s : State) (f : Rollout → Rollout) : (modRo s f).fresh = s.fresh := rfl
@[simp] theorem modRo_serial (s : State) (f : Rollout → Rollout) : (modRo s f).serial = s.serial := rfl
@[simp] theorem modRo_out (s : State) (f : Rollout → Rollout) : (modRo s f).out = s.out := rfl
@[simp] theorem modRo_clk (s : State) (f : Rollout → Rollout) : (modRo s f).clk = s.clk := rfl
@[simp] theorem modRo_mem (s : State) (f : Rollout → Rollout) : (modRo s f).mem = s.mem := rfl
@[simp] theorem modRo_cores (s : State) (f : Rollout → Rollout) : (modRo s f).cores = s.cores := rfl
@[simp] theorem modRo_ctxs (s : State) (f : Rollout → Rollout) : (modRo s f).ctxs = s.ctxs := rfl
@[simp] theorem modRo_scheds (s : State) (f : Rollout → Rollout) : (modRo s f).scheds = s.scheds := rfl
@[simp] theorem modRo_nextSched (s : State) (f : Rollout → Rollout) : (modRo s f).nextSched = s.nextSched := rfl
@[simp] theorem modRo_parts (s : State) (f : Rollout → Rollout) : (modRo s f).parts = s.parts := rfl
@[simp] theorem modRo_quantumUs (s : State) (f : Rollout → Rollout) : (modRo s f).quantumUs = s.quantumUs := rfl
@[simp] theorem modRo_preemptions (s : State) (f : Rollout → Rollout) : (modRo s f).preemptions = s.preemptions := rfl
@[simp] theorem modRo_hub (s : State) (f : Rollout → Rollout) : (modRo s f).hub = s.hub := rfl
@[simp] theorem modRo_upd (s : State) (f : Rollout → Rollout) : (modRo s f).upd = s.upd := rfl
@[simp] theorem modRo_ports (s : State) (f : Rollout → Rollout) : (modRo s f).ports = s.ports := rfl
@[simp] theorem modRo_peers (s : State) (f : Rollout → Rollout) : (modRo s f).peers = s.peers := rfl
@[simp] theorem modRo_rollout (s : State) (f : Rollout → Rollout) : (modRo s f).rollout = f s.rollout := rfl
@[simp] theorem modRo_models (s : State) (f : Rollout → Rollout) : (modRo s f).models = s.models := rfl
@[simp] theorem modRo_modelGens (s : State) (f : Rollout → Rollout) : (modRo s f).modelGens = s.modelGens := rfl
@[simp] theorem modRo_recov (s : State) (f : Rollout → Rollout) : (modRo s f).recov = s.recov := rfl
@[simp] theorem modRo_host (s : State) (f : Rollout → Rollout) : (modRo s f).host = s.host := rfl
@[simp] theorem modRo_pwr (s : State) (f : Rollout → Rollout) : (modRo s f).pwr = s.pwr := rfl
@[simp] theorem modRo_sec (s : State) (f : Rollout → Rollout) : (modRo s f).sec = s.sec := rfl

/-! ### modRec -/

@[simp] theorem modRec_pending (s : State) (f : Rec → Rec) : (modRec s f).pending = s.pending := rfl
@[simp] theorem modRec_fresh (s : State) (f : Rec → Rec) : (modRec s f).fresh = s.fresh := rfl
@[simp] theorem modRec_serial (s : State) (f : Rec → Rec) : (modRec s f).serial = s.serial := rfl
@[simp] theorem modRec_out (s : State) (f : Rec → Rec) : (modRec s f).out = s.out := rfl
@[simp] theorem modRec_clk (s : State) (f : Rec → Rec) : (modRec s f).clk = s.clk := rfl
@[simp] theorem modRec_mem (s : State) (f : Rec → Rec) : (modRec s f).mem = s.mem := rfl
@[simp] theorem modRec_cores (s : State) (f : Rec → Rec) : (modRec s f).cores = s.cores := rfl
@[simp] theorem modRec_ctxs (s : State) (f : Rec → Rec) : (modRec s f).ctxs = s.ctxs := rfl
@[simp] theorem modRec_scheds (s : State) (f : Rec → Rec) : (modRec s f).scheds = s.scheds := rfl
@[simp] theorem modRec_nextSched (s : State) (f : Rec → Rec) : (modRec s f).nextSched = s.nextSched := rfl
@[simp] theorem modRec_parts (s : State) (f : Rec → Rec) : (modRec s f).parts = s.parts := rfl
@[simp] theorem modRec_quantumUs (s : State) (f : Rec → Rec) : (modRec s f).quantumUs = s.quantumUs := rfl
@[simp] theorem modRec_preemptions (s : State) (f : Rec → Rec) : (modRec s f).preemptions = s.preemptions := rfl
@[simp] theorem modRec_hub (s : State) (f : Rec → Rec) : (modRec s f).hub = s.hub := rfl
@[simp] theorem modRec_upd (s : State) (f : Rec → Rec) : (modRec s f).upd = s.upd := rfl
@[simp] theorem modRec_ports (s : State) (f : Rec → Rec) : (modRec s f).ports = s.ports := rfl
@[simp] theorem modRec_peers (s : State) (f : Rec → Rec) : (modRec s f).peers = s.peers := rfl
@[simp] theorem modRec_rollout (s : State) (f : Rec → Rec) : (modRec s f).rollout = s.rollout := rfl
@[simp] theorem modRec_models (s : State) (f : Rec → Rec) : (modRec s f).models = s.models := rfl
@[simp] theorem modRec_modelGens (s : State) (f : Rec → Rec) : (modRec s f).modelGens = s.modelGens := rfl
@[simp] theorem modRec_recov (s : State) (f : Rec → Rec) : (modRec s f).recov = f s.recov := rfl
@[simp] theorem modRec_host (s : State) (f : Rec → Rec) : (modRec s f).host = s.host := rfl
@[simp] theorem modRec_pwr (s : State) (f : Rec → Rec) : (modRec s f).pwr = s.pwr := rfl
@[simp] theorem modRec_sec (s : State) (f : Rec → Rec) : (modRec s f).sec = s.sec := rfl

/-! ### modHost -/

@[simp] theorem modHost_pending (s : State) (f : HostSide → HostSide) : (modHost s f).pending = s.pending := rfl
@[simp] theorem modHost_fresh (s : State) (f : HostSide → HostSide) : (modHost s f).fresh = s.fresh := rfl
@[simp] theorem modHost_serial (s : State) (f : HostSide → HostSide) : (modHost s f).serial = s.serial := rfl
@[simp] theorem modHost_out (s : State) (f : HostSide → HostSide) : (modHost s f).out = s.out := rfl
@[simp] theorem modHost_clk (s : State) (f : HostSide → HostSide) : (modHost s f).clk = s.clk := rfl
@[simp] theorem modHost_mem (s : State) (f : HostSide → HostSide) : (modHost s f).mem = s.mem := rfl
@[simp] theorem modHost_cores (s : State) (f : HostSide → HostSide) : (modHost s f).cores = s.cores := rfl
@[simp] theorem modHost_ctxs (s : State) (f : HostSide → HostSide) : (modHost s f).ctxs = s.ctxs := rfl
@[simp] theorem modHost_scheds (s : State) (f : HostSide → HostSide) : (modHost s f).scheds = s.scheds := rfl
@[simp] theorem modHost_nextSched (s : State) (f : HostSide → HostSide) : (modHost s f).nextSched = s.nextSched := rfl
@[simp] theorem modHost_parts (s : State) (f : HostSide → HostSide) : (modHost s f).parts = s.parts := rfl
@[simp] theorem modHost_quantumUs (s : State) (f : HostSide → HostSide) : (modHost s f).quantumUs = s.quantumUs := rfl
@[simp] theorem modHost_preemptions (s : State) (f : HostSide → HostSide) : (modHost s f).preemptions = s.preemptions := rfl
@[simp] theorem modHost_hub (s : State) (f : HostSide → HostSide) : (modHost s f).hub = s.hub := rfl
@[simp] theorem modHost_upd (s : State) (f : HostSide → HostSide) : (modHost s f).upd = s.upd := rfl
@[simp] theorem modHost_ports (s : State) (f : HostSide → HostSide) : (modHost s f).ports = s.ports := rfl
@[simp] theorem modHost_peers (s : State) (f : HostSide → HostSide) : (modHost s f).peers = s.peers := rfl
@[simp] theorem modHost_rollout (s : State) (f : HostSide → HostSide) : (modHost s f).rollout = s.rollout := rfl
@[simp] theorem modHost_models (s : State) (f : HostSide → HostSide) : (modHost s f).models = s.models := rfl
@[simp] theorem modHost_modelGens (s : State) (f : HostSide → HostSide) : (modHost s f).modelGens = s.modelGens := rfl
@[simp] theorem modHost_recov (s : State) (f : HostSide → HostSide) : (modHost s f).recov = s.recov := rfl
@[simp] theorem modHost_host (s : State) (f : HostSide → HostSide) : (modHost s f).host = f s.host := rfl
@[simp] theorem modHost_pwr (s : State) (f : HostSide → HostSide) : (modHost s f).pwr = s.pwr := rfl
@[simp] theorem modHost_sec (s : State) (f : HostSide → HostSide) : (modHost s f).sec = s.sec := rfl

/-! ### modPwr -/

@[simp] theorem modPwr_pending (s : State) (f : Power → Power) : (modPwr s f).pending = s.pending := rfl
@[simp] theorem modPwr_fresh (s : State) (f : Power → Power) : (modPwr s f).fresh = s.fresh := rfl
@[simp] theorem modPwr_serial (s : State) (f : Power → Power) : (modPwr s f).serial = s.serial := rfl
@[simp] theorem modPwr_out (s : State) (f : Power → Power) : (modPwr s f).out = s.out := rfl
@[simp] theorem modPwr_clk (s : State) (f : Power → Power) : (modPwr s f).clk = s.clk := rfl
@[simp] theorem modPwr_mem (s : State) (f : Power → Power) : (modPwr s f).mem = s.mem := rfl
@[simp] theorem modPwr_cores (s : State) (f : Power → Power) : (modPwr s f).cores = s.cores := rfl
@[simp] theorem modPwr_ctxs (s : State) (f : Power → Power) : (modPwr s f).ctxs = s.ctxs := rfl
@[simp] theorem modPwr_scheds (s : State) (f : Power → Power) : (modPwr s f).scheds = s.scheds := rfl
@[simp] theorem modPwr_nextSched (s : State) (f : Power → Power) : (modPwr s f).nextSched = s.nextSched := rfl
@[simp] theorem modPwr_parts (s : State) (f : Power → Power) : (modPwr s f).parts = s.parts := rfl
@[simp] theorem modPwr_quantumUs (s : State) (f : Power → Power) : (modPwr s f).quantumUs = s.quantumUs := rfl
@[simp] theorem modPwr_preemptions (s : State) (f : Power → Power) : (modPwr s f).preemptions = s.preemptions := rfl
@[simp] theorem modPwr_hub (s : State) (f : Power → Power) : (modPwr s f).hub = s.hub := rfl
@[simp] theorem modPwr_upd (s : State) (f : Power → Power) : (modPwr s f).upd = s.upd := rfl
@[simp] theorem modPwr_ports (s : State) (f : Power → Power) : (modPwr s f).ports = s.ports := rfl
@[simp] theorem modPwr_peers (s : State) (f : Power → Power) : (modPwr s f).peers = s.peers := rfl
@[simp] theorem modPwr_rollout (s : State) (f : Power → Power) : (modPwr s f).rollout = s.rollout := rfl
@[simp] theorem modPwr_models (s : State) (f : Power → Power) : (modPwr s f).models = s.models := rfl
@[simp] theorem modPwr_modelGens (s : State) (f : Power → Power) : (modPwr s f).modelGens = s.modelGens := rfl
@[simp] theorem modPwr_recov (s : State) (f : Power → Power) : (modPwr s f).recov = s.recov := rfl
@[simp] theorem modPwr_host (s : State) (f : Power → Power) : (modPwr s f).host = s.host := rfl
@[simp] theorem modPwr_pwr (s : State) (f : Power → Power) : (modPwr s f).pwr = f s.pwr := rfl
@[simp] theorem modPwr_sec (s : State) (f : Power → Power) : (modPwr s f).sec = s.sec := rfl

/-! ### modSec -/

@[simp] theorem modSec_pending (s : State) (f : Sec → Sec) : (modSec s f).pending = s.pending := rfl
@[simp] theorem modSec_fresh (s : State) (f : Sec → Sec) : (modSec s f).fresh = s.fresh := rfl
@[simp] theorem modSec_serial (s : State) (f : Sec → Sec) : (modSec s f).serial = s.serial := rfl
@[simp] theorem modSec_out (s : State) (f : Sec → Sec) : (modSec s f).out = s.out := rfl
@[simp] theorem modSec_clk (s : State) (f : Sec → Sec) : (modSec s f).clk = s.clk := rfl
@[simp] theorem modSec_mem (s : State) (f : Sec → Sec) : (modSec s f).mem = s.mem := rfl
@[simp] theorem modSec_cores (s : State) (f : Sec → Sec) : (modSec s f).cores = s.cores := rfl
@[simp] theorem modSec_ctxs (s : State) (f : Sec → Sec) : (modSec s f).ctxs = s.ctxs := rfl
@[simp] theorem modSec_scheds (s : State) (f : Sec → Sec) : (modSec s f).scheds = s.scheds := rfl
@[simp] theorem modSec_nextSched (s : State) (f : Sec → Sec) : (modSec s f).nextSched = s.nextSched := rfl
@[simp] theorem modSec_parts (s : State) (f : Sec → Sec) : (modSec s f).parts = s.parts := rfl
@[simp] theorem modSec_quantumUs (s : State) (f : Sec → Sec) : (modSec s f).quantumUs = s.quantumUs := rfl
@[simp] theorem modSec_preemptions (s : State) (f : Sec → Sec) : (modSec s f).preemptions = s.preemptions := rfl
@[simp] theorem modSec_hub (s : State) (f : Sec → Sec) : (modSec s f).hub = s.hub := rfl
@[simp] theorem modSec_upd (s : State) (f : Sec → Sec) : (modSec s f).upd = s.upd := rfl
@[simp] theorem modSec_ports (s : State) (f : Sec → Sec) : (modSec s f).ports = s.ports := rfl
@[simp] theorem modSec_peers (s : State) (f : Sec → Sec) : (modSec s f).peers = s.peers := rfl
@[simp] theorem modSec_rollout (s : State) (f : Sec → Sec) : (modSec s f).rollout = s.rollout := rfl
@[simp] theorem modSec_models (s : State) (f : Sec → Sec) : (modSec s f).models = s.models := rfl
@[simp] theorem modSec_modelGens (s : State) (f : Sec → Sec) : (modSec s f).modelGens = s.modelGens := rfl
@[simp] theorem modSec_recov (s : State) (f : Sec → Sec) : (modSec s f).recov = s.recov := rfl
@[simp] theorem modSec_host (s : State) (f : Sec → Sec) : (modSec s f).host = s.host := rfl
@[simp] theorem modSec_pwr (s : State) (f : Sec → Sec) : (modSec s f).pwr = s.pwr := rfl
@[simp] theorem modSec_sec (s : State) (f : Sec → Sec) : (modSec s f).sec = f s.sec := rfl

/-! ### emit -/

@[simp] theorem emit_pending (s : State) (o : Out) : (Machine.emit s o).pending = s.pending := rfl
@[simp] theorem emit_fresh (s : State) (o : Out) : (Machine.emit s o).fresh = s.fresh := rfl
@[simp] theorem emit_serial (s : State) (o : Out) : (Machine.emit s o).serial = s.serial := rfl
@[simp] theorem emit_out (s : State) (o : Out) : (Machine.emit s o).out = s.out ++ [o] := rfl
@[simp] theorem emit_clk (s : State) (o : Out) : (Machine.emit s o).clk = s.clk := rfl
@[simp] theorem emit_mem (s : State) (o : Out) : (Machine.emit s o).mem = s.mem := rfl
@[simp] theorem emit_cores (s : State) (o : Out) : (Machine.emit s o).cores = s.cores := rfl
@[simp] theorem emit_ctxs (s : State) (o : Out) : (Machine.emit s o).ctxs = s.ctxs := rfl
@[simp] theorem emit_scheds (s : State) (o : Out) : (Machine.emit s o).scheds = s.scheds := rfl
@[simp] theorem emit_nextSched (s : State) (o : Out) : (Machine.emit s o).nextSched = s.nextSched := rfl
@[simp] theorem emit_parts (s : State) (o : Out) : (Machine.emit s o).parts = s.parts := rfl
@[simp] theorem emit_quantumUs (s : State) (o : Out) : (Machine.emit s o).quantumUs = s.quantumUs := rfl
@[simp] theorem emit_preemptions (s : State) (o : Out) : (Machine.emit s o).preemptions = s.preemptions := rfl
@[simp] theorem emit_hub (s : State) (o : Out) : (Machine.emit s o).hub = s.hub := rfl
@[simp] theorem emit_upd (s : State) (o : Out) : (Machine.emit s o).upd = s.upd := rfl
@[simp] theorem emit_ports (s : State) (o : Out) : (Machine.emit s o).ports = s.ports := rfl
@[simp] theorem emit_peers (s : State) (o : Out) : (Machine.emit s o).peers = s.peers := rfl
@[simp] theorem emit_rollout (s : State) (o : Out) : (Machine.emit s o).rollout = s.rollout := rfl
@[simp] theorem emit_models (s : State) (o : Out) : (Machine.emit s o).models = s.models := rfl
@[simp] theorem emit_modelGens (s : State) (o : Out) : (Machine.emit s o).modelGens = s.modelGens := rfl
@[simp] theorem emit_recov (s : State) (o : Out) : (Machine.emit s o).recov = s.recov := rfl
@[simp] theorem emit_host (s : State) (o : Out) : (Machine.emit s o).host = s.host := rfl
@[simp] theorem emit_pwr (s : State) (o : Out) : (Machine.emit s o).pwr = s.pwr := rfl
@[simp] theorem emit_sec (s : State) (o : Out) : (Machine.emit s o).sec = s.sec := rfl

/-! ### bump -/

@[simp] theorem bump_pending (s : State) : (bump s).pending = s.pending := rfl
@[simp] theorem bump_fresh (s : State) : (bump s).fresh = s.fresh := rfl
@[simp] theorem bump_serial (s : State) : (bump s).serial = s.serial + 1 := rfl
@[simp] theorem bump_out (s : State) : (bump s).out = s.out := rfl
@[simp] theorem bump_clk (s : State) : (bump s).clk = s.clk := rfl
@[simp] theorem bump_mem (s : State) : (bump s).mem = s.mem := rfl
@[simp] theorem bump_cores (s : State) : (bump s).cores = s.cores := rfl
@[simp] theorem bump_ctxs (s : State) : (bump s).ctxs = s.ctxs := rfl
@[simp] theorem bump_scheds (s : State) : (bump s).scheds = s.scheds := rfl
@[simp] theorem bump_nextSched (s : State) : (bump s).nextSched = s.nextSched := rfl
@[simp] theorem bump_parts (s : State) : (bump s).parts = s.parts := rfl
@[simp] theorem bump_quantumUs (s : State) : (bump s).quantumUs = s.quantumUs := rfl
@[simp] theorem bump_preemptions (s : State) : (bump s).preemptions = s.preemptions := rfl
@[simp] theorem bump_hub (s : State) : (bump s).hub = s.hub := rfl
@[simp] theorem bump_upd (s : State) : (bump s).upd = s.upd := rfl
@[simp] theorem bump_ports (s : State) : (bump s).ports = s.ports := rfl
@[simp] theorem bump_peers (s : State) : (bump s).peers = s.peers := rfl
@[simp] theorem bump_rollout (s : State) : (bump s).rollout = s.rollout := rfl
@[simp] theorem bump_models (s : State) : (bump s).models = s.models := rfl
@[simp] theorem bump_modelGens (s : State) : (bump s).modelGens = s.modelGens := rfl
@[simp] theorem bump_recov (s : State) : (bump s).recov = s.recov := rfl
@[simp] theorem bump_host (s : State) : (bump s).host = s.host := rfl
@[simp] theorem bump_pwr (s : State) : (bump s).pwr = s.pwr := rfl
@[simp] theorem bump_sec (s : State) : (bump s).sec = s.sec := rfl

/-! ### A die's clock -/

@[simp] theorem modDie_pending (s : State) (k : Nat) (f : DieClk → DieClk) : (modDie s k f).pending = s.pending := rfl
@[simp] theorem modDie_fresh (s : State) (k : Nat) (f : DieClk → DieClk) : (modDie s k f).fresh = s.fresh := rfl
@[simp] theorem modDie_serial (s : State) (k : Nat) (f : DieClk → DieClk) : (modDie s k f).serial = s.serial := rfl
@[simp] theorem modDie_out (s : State) (k : Nat) (f : DieClk → DieClk) : (modDie s k f).out = s.out := rfl
@[simp] theorem modDie_mem (s : State) (k : Nat) (f : DieClk → DieClk) : (modDie s k f).mem = s.mem := rfl
@[simp] theorem modDie_cores (s : State) (k : Nat) (f : DieClk → DieClk) : (modDie s k f).cores = s.cores := rfl
@[simp] theorem modDie_ctxs (s : State) (k : Nat) (f : DieClk → DieClk) : (modDie s k f).ctxs = s.ctxs := rfl
@[simp] theorem modDie_scheds (s : State) (k : Nat) (f : DieClk → DieClk) : (modDie s k f).scheds = s.scheds := rfl
@[simp] theorem modDie_nextSched (s : State) (k : Nat) (f : DieClk → DieClk) : (modDie s k f).nextSched = s.nextSched := rfl
@[simp] theorem modDie_parts (s : State) (k : Nat) (f : DieClk → DieClk) : (modDie s k f).parts = s.parts := rfl
@[simp] theorem modDie_quantumUs (s : State) (k : Nat) (f : DieClk → DieClk) : (modDie s k f).quantumUs = s.quantumUs := rfl
@[simp] theorem modDie_preemptions (s : State) (k : Nat) (f : DieClk → DieClk) : (modDie s k f).preemptions = s.preemptions := rfl
@[simp] theorem modDie_hub (s : State) (k : Nat) (f : DieClk → DieClk) : (modDie s k f).hub = s.hub := rfl
@[simp] theorem modDie_upd (s : State) (k : Nat) (f : DieClk → DieClk) : (modDie s k f).upd = s.upd := rfl
@[simp] theorem modDie_ports (s : State) (k : Nat) (f : DieClk → DieClk) : (modDie s k f).ports = s.ports := rfl
@[simp] theorem modDie_peers (s : State) (k : Nat) (f : DieClk → DieClk) : (modDie s k f).peers = s.peers := rfl
@[simp] theorem modDie_rollout (s : State) (k : Nat) (f : DieClk → DieClk) : (modDie s k f).rollout = s.rollout := rfl
@[simp] theorem modDie_models (s : State) (k : Nat) (f : DieClk → DieClk) : (modDie s k f).models = s.models := rfl
@[simp] theorem modDie_modelGens (s : State) (k : Nat) (f : DieClk → DieClk) : (modDie s k f).modelGens = s.modelGens := rfl
@[simp] theorem modDie_recov (s : State) (k : Nat) (f : DieClk → DieClk) : (modDie s k f).recov = s.recov := rfl
@[simp] theorem modDie_host (s : State) (k : Nat) (f : DieClk → DieClk) : (modDie s k f).host = s.host := rfl
@[simp] theorem modDie_pwr (s : State) (k : Nat) (f : DieClk → DieClk) : (modDie s k f).pwr = s.pwr := rfl
@[simp] theorem modDie_sec (s : State) (k : Nat) (f : DieClk → DieClk) : (modDie s k f).sec = s.sec := rfl

@[simp] theorem modDie_dies (s : State) (k : Nat) (f : DieClk → DieClk) :
    (modDie s k f).clk.dies = tput s.clk.dies k (f (getDie s k)) := rfl

end Machine
end Sys2Proof
end

