-- ==== Sys2Proof/Laws/Tables.lean ====
section
/-! SUPPORT. Tables by index and the state's own tables: a read after a write. -/

namespace Sys2Proof
namespace Machine

/-! ### Tables -/

@[simp] theorem tget_tput_same {α : Type} (d : α) (t : Tbl α) (k : Nat) (v : α) : tget d (tput t k v) k = v := by
  induction t with
  | nil => simp [tput, tget]
  | cons e t ih =>
    obtain ⟨i, u⟩ := e
    simp only [tput]
    split
    · simp [tget]
    · split
      · simp [tget]
      · simp [tget, *]

theorem tget_tput_ne {α : Type} (d : α) (t : Tbl α) (k j : Nat) (v : α) (h : k ≠ j) :
    tget d (tput t k v) j = tget d t j := by
  induction t with
  | nil => simp [tput, tget, h]
  | cons e t ih =>
    obtain ⟨i, u⟩ := e
    simp only [tput]
    split
    · simp [tget, h]
    · split
      · rename_i hi
        subst hi
        simp [tget, h]
      · simp [tget, ih]

theorem tget_tput {α : Type} (d : α) (t : Tbl α) (k j : Nat) (v : α) :
    tget d (tput t k v) j = if k = j then v else tget d t j := by
  split
  · rename_i h; subst h; simp
  · exact tget_tput_ne d t k j v ‹_›

@[simp] theorem tfind_tput_same {α : Type} (t : Tbl α) (k : Nat) (v : α) : tfind (tput t k v) k = some v := by
  induction t with
  | nil => simp [tput, tfind]
  | cons e t ih =>
    obtain ⟨i, u⟩ := e
    simp only [tput]
    split
    · simp [tfind]
    · split
      · simp [tfind]
      · simp [tfind, *]

theorem tfind_tput_ne {α : Type} (t : Tbl α) (k j : Nat) (v : α) (h : k ≠ j) : tfind (tput t k v) j = tfind t j := by
  induction t with
  | nil => simp [tput, tfind, h]
  | cons e t ih =>
    obtain ⟨i, u⟩ := e
    simp only [tput]
    split
    · simp [tfind, h]
    · split
      · rename_i hi
        subst hi
        simp [tfind, h]
      · simp [tfind, ih]

@[simp] theorem tfind_tdel_same {α : Type} (t : Tbl α) (k : Nat) : tfind (tdel t k) k = none := by
  induction t with
  | nil => simp [tdel, tfind]
  | cons e t ih =>
    obtain ⟨i, u⟩ := e
    simp only [tdel]
    split
    · exact ih
    · simp [tfind, *]

/-- What holds of every entry of a table holds after an entry with it is set. -/
theorem all_tput {α : Type} (p : Nat × α → Prop) (t : Tbl α) (k : Nat) (v : α) (h : ∀ e ∈ t, p e) (hv : p (k, v)) :
    ∀ e ∈ tput t k v, p e := by
  induction t with
  | nil => simp [tput, hv]
  | cons e t ih =>
    obtain ⟨i, u⟩ := e
    simp only [List.mem_cons, forall_eq_or_imp] at h
    simp only [tput]
    split
    · simp only [List.mem_cons, forall_eq_or_imp]; exact ⟨hv, h.1, h.2⟩
    · split
      · simp only [List.mem_cons, forall_eq_or_imp]; exact ⟨hv, h.2⟩
      · simp only [List.mem_cons, forall_eq_or_imp]; exact ⟨h.1, ih h.2⟩

/-- What holds of every entry and of the default holds of what a table gives. -/
theorem tget_all {α : Type} (p : α → Prop) (d : α) (t : Tbl α) (k : Nat) (h : ∀ e ∈ t, p e.2) (hd : p d) : p (tget d t k) := by
  induction t with
  | nil => exact hd
  | cons e t ih =>
    obtain ⟨i, u⟩ := e
    simp only [List.mem_cons, forall_eq_or_imp] at h
    simp only [tget]
    split
    · exact h.1
    · exact ih h.2

/-! ### The state's tables -/

@[simp] theorem getCore_setCore (s : State) (c : Nat) (x : Core) : getCore (setCore s c x) c = x := by simp [getCore, setCore]
@[simp] theorem getCore_modCore (s : State) (c : Nat) (f : Core → Core) : getCore (modCore s c f) c = f (getCore s c) := by
  simp [modCore]
theorem getCore_modCore_ne (s : State) (c d : Nat) (f : Core → Core) (h : c ≠ d) : getCore (modCore s c f) d = getCore s d := by
  simp [getCore, tget_tput_ne _ _ _ _ _ h]
@[simp] theorem getCtx_setCtx (s : State) (n : Nat) (x : Ctx) : getCtx (setCtx s n x) n = x := by simp [getCtx, setCtx]
@[simp] theorem getCtx_modCtx (s : State) (n : Nat) (f : Ctx → Ctx) : getCtx (modCtx s n f) n = f (getCtx s n) := by
  simp [modCtx]
theorem getCtx_modCtx_ne (s : State) (n m : Nat) (f : Ctx → Ctx) (h : n ≠ m) : getCtx (modCtx s n f) m = getCtx s m := by
  simp [getCtx, tget_tput_ne _ _ _ _ _ h]
@[simp] theorem getPart_setPart (s : State) (p : Nat) (x : Part) : getPart (setPart s p x) p = x := by simp [getPart, setPart]
@[simp] theorem getPart_modPart (s : State) (p : Nat) (f : Part → Part) : getPart (modPart s p f) p = f (getPart s p) := by
  simp [modPart]
theorem getPart_modPart_ne (s : State) (p q : Nat) (f : Part → Part) (h : p ≠ q) : getPart (modPart s p f) q = getPart s q := by
  simp [getPart, tget_tput_ne _ _ _ _ _ h]
@[simp] theorem getPort_setPort (s : State) (p : Nat) (x : Port) : getPort (setPort s p x) p = x := by simp [getPort, setPort]
@[simp] theorem getPort_modPort (s : State) (p : Nat) (f : Port → Port) : getPort (modPort s p f) p = f (getPort s p) := by
  simp [modPort]
theorem getPort_modPort_ne (s : State) (p q : Nat) (f : Port → Port) (h : p ≠ q) : getPort (modPort s p f) q = getPort s q := by
  simp [getPort, tget_tput_ne _ _ _ _ _ h]
@[simp] theorem getDie_modDie (s : State) (k : Nat) (f : DieClk → DieClk) : getDie (modDie s k f) k = f (getDie s k) := by
  simp [getDie]

/-- A table that an update leaves alone reads as before. -/
@[simp] theorem getCtx_modCore (s : State) (c n : Nat) (f : Core → Core) : getCtx (modCore s c f) n = getCtx s n := rfl
@[simp] theorem getCore_modCtx (s : State) (c n : Nat) (f : Ctx → Ctx) : getCore (modCtx s n f) c = getCore s c := rfl
@[simp] theorem getPart_modCtx (s : State) (p n : Nat) (f : Ctx → Ctx) : getPart (modCtx s n f) p = getPart s p := rfl
@[simp] theorem getCtx_modPart (s : State) (p n : Nat) (f : Part → Part) : getCtx (modPart s p f) n = getCtx s n := rfl
@[simp] theorem getCore_modPart (s : State) (p c : Nat) (f : Part → Part) : getCore (modPart s p f) c = getCore s c := rfl
@[simp] theorem getPart_modCore (s : State) (p c : Nat) (f : Core → Core) : getPart (modCore s c f) p = getPart s p := rfl

/-! ### Thread registers (R78) -/

@[simp] theorem getS_setS_same (t : Thread) (r : Nat) (v : Word) (h : r ≠ 0) : getS (setS t r v) r = v := by
  simp [getS, setS, h]
@[simp] theorem getS_zero (t : Thread) : getS t 0 = 0 := by simp [getS]
theorem getS_setS_ne (t : Thread) (r q : Nat) (v : Word) (h : r ≠ q) : getS (setS t r v) q = getS t q := by
  unfold setS
  split
  · rfl
  · simp [getS, tget_tput_ne _ _ _ _ _ h]
@[simp] theorem getP_setP_same (t : Thread) (r : Nat) (v : Bool) : getP (setP t r v) r = v := by simp [getP, setP]
theorem getP_setP_ne (t : Thread) (r q : Nat) (v : Bool) (h : r ≠ q) : getP (setP t r v) q = getP t q := by
  simp [getP, setP, tget_tput_ne _ _ _ _ _ h]

@[simp] theorem threadOf_modThread (s : State) (a : Agent) (f : Thread → Thread) :
    threadOf (modThread s a f) a = f (threadOf s a) := by
  cases a <;> simp [threadOf, modThread, setThread, getThread]

end Machine
end Sys2Proof
end

