-- ==== Sys2Proof/Laws/Memory.lean ====
section
/-! SUPPORT. Memory: every operation keeps the canonical form, a read after a write gives what was written, and a write
leaves every other address alone. -/

namespace Sys2Proof
namespace Machine

/-! ### The canonical form -/

theorem cellsWf_weaken {lo hi : Nat} {m : List Host.Cell} (h : lo ≤ hi) (w : cellsWf (some hi) m = true) :
    cellsWf (some lo) m = true := by
  cases m with
  | nil => rfl
  | cons e t =>
    simp only [cellsWf, Bool.and_eq_true, decide_eq_true_eq] at w ⊢
    exact ⟨⟨by omega, w.1.2⟩, w.2⟩

theorem cellsWf_some {lo : Nat} {m : List Host.Cell} (w : cellsWf (some lo) m = true) : cellsWf none m = true := by
  cases m with
  | nil => rfl
  | cons e t =>
    simp only [cellsWf, Bool.and_eq_true, decide_eq_true_eq] at w ⊢
    exact ⟨⟨trivial, w.1.2⟩, w.2⟩

/-- Below its first address, a canonical memory reads as zero. -/
theorem readByte_below {lo a : Nat} {m : List Host.Cell} (w : cellsWf (some lo) m = true) (h : a ≤ lo) : readByte m a = 0 := by
  induction m generalizing lo with
  | nil => rfl
  | cons e t ih =>
    simp only [cellsWf, Bool.and_eq_true, decide_eq_true_eq] at w
    simp only [readByte]
    rw [if_neg (by omega)]
    exact ih w.2 (by omega)

theorem aboveLow (lo : Option Nat) (a : Nat) :
    (∀ l, lo = some l → l < a) → (match lo with | none => true | some l => decide (l < a)) = true := by
  cases lo with
  | none => exact fun _ => rfl
  | some l => intro h; simpa using h l rfl

theorem cellsWf_writeByte {lo : Option Nat} {m : List Host.Cell} (a : Nat) (b : Byte) (w : cellsWf lo m = true)
    (h : ∀ l, lo = some l → l < a) : cellsWf lo (writeByte m a b) = true := by
  induction m generalizing lo with
  | nil =>
    simp only [writeByte]
    split
    · rfl
    · simp only [cellsWf, Bool.and_eq_true]
      exact ⟨⟨aboveLow lo a h, by simpa⟩, trivial⟩
  | cons e t ih =>
    obtain ⟨i, v⟩ := e
    simp only [writeByte]
    have w' := w
    simp only [cellsWf, Bool.and_eq_true] at w
    have low := aboveLow lo a h
    split
    · rename_i hai
      split
      · exact w'
      · simp only [cellsWf, Bool.and_eq_true]
        exact ⟨⟨low, by simpa⟩, ⟨by simpa using hai, w.1.2⟩, w.2⟩
    · split
      · rename_i hia
        subst hia
        split
        · cases lo with
          | none => exact cellsWf_some w.2
          | some l => exact cellsWf_weaken (Nat.le_of_lt (h l rfl)) w.2
        · simp only [cellsWf, Bool.and_eq_true]
          exact ⟨⟨low, by simpa⟩, w.2⟩
      · simp only [cellsWf, Bool.and_eq_true]
        refine ⟨w.1, ih w.2 ?_⟩
        rintro l ⟨⟩
        omega

/-- Writing a byte keeps the canonical form. -/
theorem writeByte_wf (m : List Host.Cell) (a : Nat) (b : Byte) (w : Memory.wf m = true) : Memory.wf (writeByte m a b) = true :=
  cellsWf_writeByte a b w (by simp)

/-- Writing bytes keeps the canonical form. -/
theorem writeBytes_wf (bs : List Byte) (m : List Host.Cell) (a : Nat) (w : Memory.wf m = true) :
    Memory.wf (writeBytes m a bs) = true := by
  induction bs generalizing m a with
  | nil => exact w
  | cons b bs ih => exact ih _ _ (writeByte_wf m a b w)

theorem cellsWf_filter (p : Host.Cell → Bool) {lo : Option Nat} {m : List Host.Cell} (w : cellsWf lo m = true) :
    cellsWf lo (m.filter p) = true := by
  induction m generalizing lo with
  | nil => exact w
  | cons e t ih =>
    simp only [cellsWf, Bool.and_eq_true] at w
    simp only [List.filter]
    split
    · simp only [cellsWf, Bool.and_eq_true]; exact ⟨w.1, ih w.2⟩
    · have t' := ih w.2
      cases lo with
      | none => exact cellsWf_some t'
      | some l => exact cellsWf_weaken (Nat.le_of_lt (by simpa using w.1.1)) t'

/-- Erasing a run keeps the canonical form. -/
theorem eraseBytes_wf (m : List Host.Cell) (a n : Nat) (w : Memory.wf m = true) : Memory.wf (eraseBytes m a n) = true :=
  cellsWf_filter _ w

/-! ### Reads after writes -/

theorem readByte_cellsWf_write {lo : Option Nat} {m : List Host.Cell} (a c : Nat) (b : Byte) (w : cellsWf lo m = true) :
    readByte (writeByte m a b) c = if c = a then b else readByte m c := by
  induction m generalizing lo with
  | nil =>
    simp only [writeByte]
    split
    · rename_i hb; simp [readByte, hb]
    · simp only [readByte, eq_comm]
  | cons e t ih =>
    obtain ⟨i, v⟩ := e
    simp only [cellsWf, Bool.and_eq_true] at w
    simp only [writeByte]
    split
    · rename_i hai
      by_cases hc : c = a
      · subst hc
        by_cases hb : b = 0
        · subst hb
          simp only [if_true, readByte]
          rw [if_neg (by omega)]
          exact readByte_below w.2 (by omega)
        · rw [if_neg hb, if_pos rfl]; simp [readByte]
      · have ha : ¬ a = c := fun h => hc h.symm
        rw [if_neg hc]
        split
        · rfl
        · simp [readByte, ha]
    · split
      · rename_i hia
        subst hia
        by_cases hc : c = i
        · subst hc
          by_cases hb : b = 0
          · subst hb; simp only [if_true]; exact readByte_below w.2 (Nat.le_refl _)
          · rw [if_neg hb, if_pos rfl]; simp [readByte]
        · have ha : ¬ i = c := fun h => hc h.symm
          rw [if_neg hc]
          split
          · simp [readByte, ha]
          · simp [readByte, ha]
      · rename_i hai hia
        simp only [readByte, ih w.2]
        by_cases hc : c = a
        · subst hc; simp [hia]
        · simp [hc]

/-- A byte reads as what was written to it, and every other byte as before. -/
theorem readByte_writeByte (m : List Host.Cell) (a c : Nat) (b : Byte) (w : Memory.wf m = true) :
    readByte (writeByte m a b) c = if c = a then b else readByte m c := readByte_cellsWf_write a c b w

/-- A write of bytes leaves every address outside its run alone. -/
theorem readByte_writeBytes_out (bs : List Byte) (m : List Host.Cell) (a c : Nat) (w : Memory.wf m = true)
    (h : c < a ∨ a + bs.length ≤ c) : readByte (writeBytes m a bs) c = readByte m c := by
  induction bs generalizing m a with
  | nil => rfl
  | cons b bs ih =>
    simp only [List.length_cons] at h
    simp only [writeBytes]
    rw [ih _ _ (writeByte_wf m a b w) (by omega), readByte_writeByte m a c b w, if_neg (by omega)]

/-- A write of bytes: each byte of the run reads as written. -/
theorem readByte_writeBytes_in (bs : List Byte) (m : List Host.Cell) (a i : Nat) (w : Memory.wf m = true) (h : i < bs.length) :
    readByte (writeBytes m a bs) (a + i) = bs[i] := by
  induction bs generalizing m a i with
  | nil => simp at h
  | cons b bs ih =>
    simp only [writeBytes]
    cases i with
    | zero =>
      rw [readByte_writeBytes_out bs _ _ _ (writeByte_wf m a b w) (by omega), readByte_writeByte m a _ b w]
      simp
    | succ i =>
      simp only [List.length_cons] at h
      have := ih (writeByte m a b) (a + 1) i (writeByte_wf m a b w) (by omega)
      simpa [Nat.add_assoc, Nat.add_comm 1] using this

/-- What was written reads back. -/
theorem readBytes_writeBytes (bs : List Byte) (m : List Host.Cell) (a : Nat) (w : Memory.wf m = true) :
    readBytes (writeBytes m a bs) a bs.length = bs := by
  apply List.ext_getElem
  · simp [readBytes]
  · intro i h1 h2
    simp only [readBytes, List.getElem_map, List.getElem_range]
    exact readByte_writeBytes_in bs m a i w h2

/-! ### The state's memory -/

/-- A state that lists the same tiers and cores is in canonical form. -/
theorem memWf_of_eq {s t : State} (h : s.memWf) (hm : t.mem.cells = s.mem.cells) (hc : t.cores = s.cores) : t.memWf := by
  refine ⟨hm ▸ h.1, ?_⟩
  rw [hc]
  exact h.2

/-- A core that is changed keeps the form when its scratchpad does. -/
theorem memWf_modCore {s : State} (h : s.memWf) (c : Nat) (f : Core → Core)
    (hf : ∀ x : Core, Memory.wf x.sp = true → Memory.wf (f x).sp = true) : (modCore s c f).memWf := by
  refine ⟨h.1, ?_⟩
  simp only [modCore_cores]
  refine all_tput (fun e : Nat × Core => Memory.wf e.2.sp = true) _ _ _ h.2 (hf _ ?_)
  exact tget_all (fun x : Core => Memory.wf x.sp = true) Core.reset s.cores c h.2 rfl

/-- A write into a scratchpad keeps its form. -/
theorem spWrite_wf (x : Core) (off : Nat) (bs : List Byte) (p : Bool) (h : Memory.wf x.sp = true) :
    Memory.wf (spWrite x off bs p).sp = true := writeBytes_wf bs x.sp off h

@[simp] theorem emit_fold_mem (ls : List Nat) (s : State) : (ls.foldl (fun s l => Machine.emit s (.biSnoop l)) s).mem = s.mem := by
  induction ls generalizing s with
  | nil => rfl
  | cons l ls ih => simp only [List.foldl_cons]; rw [ih]; rfl

@[simp] theorem emit_fold_cores (ls : List Nat) (s : State) :
    (ls.foldl (fun s l => Machine.emit s (.biSnoop l)) s).cores = s.cores := by
  induction ls generalizing s with
  | nil => rfl
  | cons l ls ih => simp only [List.foldl_cons]; rw [ih]; rfl

@[simp] theorem invalidateGrain_mem (s : State) (pa : Nat) : (invalidateGrain s pa).mem = s.mem := by simp [invalidateGrain, snoopLines]
@[simp] theorem invalidateGrain_cores (s : State) (pa : Nat) : (invalidateGrain s pa).cores = s.cores := by simp [invalidateGrain, snoopLines]
@[simp] theorem invalidateRun_mem (s : State) (pa n : Nat) : (invalidateRun s pa n).mem = s.mem := by simp [invalidateRun, snoopLines]
@[simp] theorem invalidateRun_cores (s : State) (pa n : Nat) : (invalidateRun s pa n).cores = s.cores := by simp [invalidateRun, snoopLines]

theorem storeGrain_wf (s : State) (pa : Nat) (data : List Byte) (tag : GrainTag) (h : s.memWf) : (storeGrain s pa data tag).memWf :=
  ⟨writeBytes_wf _ _ _ h.1, h.2⟩

theorem putGrain_wf (s : State) (pa : Nat) (data : List Byte) (tag : GrainTag) (h : s.memWf) : (putGrain s pa data tag).memWf :=
  storeGrain_wf _ pa data tag (memWf_of_eq h (by simp) (by simp))

theorem putServed_wf (s : State) (pa : Nat) (data : List Byte) (tag : GrainTag) (h : s.memWf) : (putServed s pa data tag).memWf := by
  unfold putServed
  split
  · exact memWf_of_eq h rfl rfl
  · exact putGrain_wf _ _ _ _ h

theorem writeGrain_wf (s : State) (pa : Nat) (data : List Byte) (tag : GrainTag) (h : s.memWf) : (writeGrain s pa data tag).memWf := by
  unfold writeGrain
  split
  · exact putServed_wf _ _ _ _ h
  · exact putServed_wf _ _ _ _ (putServed_wf _ _ _ _ h)

theorem mergeAs_wf (s : State) (pa off : Nat) (bs : List Byte) (t : GrainTag) (h : s.memWf) : (mergeAs s pa off bs t).memWf := by
  unfold mergeAs
  dsimp only
  split
  · exact memWf_of_eq (writeGrain_wf s pa _ _ h) rfl rfl
  · exact writeGrain_wf s pa _ _ h

theorem mergeGrain_wf (s : State) (pa off : Nat) (bs : List Byte) (p : Bool) (h : s.memWf) : (mergeGrain s pa off bs p).memWf :=
  mergeAs_wf _ _ _ _ _ h

@[simp] theorem emitHostWrite_mem (s : State) (r pa : Nat) (bs : List Byte) (p : Bool) : (emitHostWrite s r pa bs p).mem = s.mem := by
  unfold emitHostWrite
  dsimp only
  split <;> rfl

@[simp] theorem emitHostWrite_cores (s : State) (r pa : Nat) (bs : List Byte) (p : Bool) : (emitHostWrite s r pa bs p).cores = s.cores := by
  unfold emitHostWrite
  dsimp only
  split <;> rfl

theorem fwWriteTags_wf (n : Nat) (s : State) (pa : Nat) (bs : List Byte) (h : s.memWf) : (fwWriteTags s pa bs n).memWf := by
  induction n generalizing s pa bs with
  | zero => exact h
  | succ n ih =>
    cases bs with
    | nil => exact h
    | cons b bs => exact ih _ _ _ (mergeGrain_wf _ _ _ _ _ h)

theorem fwWrite_wf (s : State) (pa : Nat) (bs : List Byte) (h : s.memWf) : (fwWrite s pa bs).memWf := by
  unfold fwWrite
  split
  · have w : ({ s with mem := { s.mem with cells := writeBytes s.mem.cells pa bs } } : State).memWf :=
      ⟨writeBytes_wf bs s.mem.cells pa h.1, h.2⟩
    exact memWf_of_eq w (by simp) (by simp)
  · exact fwWriteTags_wf _ _ _ _ h

theorem scrubRange_wf (s : State) (pa n : Nat) (h : s.memWf) : (scrubRange s pa n).memWf := by
  refine ⟨?_, ?_⟩
  · simpa [scrubRange] using eraseBytes_wf s.mem.cells pa n h.1
  · simpa [scrubRange] using h.2

end Machine
end Sys2Proof
end

