-- ==== Sys2Proof/Laws/Issue.lean ====
section
/-! SUPPORT. What an instruction's row can do: the outcomes of `runInstr` by what its body answers. -/

namespace Sys2Proof
namespace Machine

open Host

/-- A row always answers a next state. -/
theorem runInstr_next (row : Row) (a : Agent) (w : Word) (body : Nat → State → IRes) (s : State) :
    ∃ t, runInstr row a w body s = .next t := by
  unfold runInstr
  split
  · exact ⟨s, rfl⟩
  · split
    · exact ⟨_, rfl⟩
    · exact ⟨s, rfl⟩

/-- What a row answers: the state as it was, or what issuing the instruction leaves. -/
theorem runInstr_spec {row : Row} {a : Agent} {w : Word} {body : Nat → State → IRes} {s t : State}
    (h : runInstr row a w body s = .next t) :
    t = s ∨ ∃ n, ctxOf s a = some n ∧ canIssue s a n = true ∧ t = issue row a n w (body n) s := by
  unfold runInstr at h
  split at h
  · exact .inl (Outcome.next.inj h).symm
  · rename_i n hn
    split at h
    · rename_i hc
      simp only [Bool.and_eq_true] at hc
      exact .inr ⟨n, hn, hc.1.1.1, (Outcome.next.inj h).symm⟩
    · exact .inl (Outcome.next.inj h).symm

/-- An instruction that issues: its row answers what its body leaves. -/
theorem runInstr_issues {row : Row} {a : Agent} {w : Word} {n : Nat} {s : State} (body : Nat → State → IRes)
    (h : Issues row s a n w) :
    runInstr row a w body s = .next (match body n s with
      | .done t => thenNext s t a n
      | .jump t ip => advance t a n ip
      | .park t cause wait => parkAgent t a cause wait
      | .stop t => t
      | .fault code addr own =>
        if reported a code own then
          thenNext s (modCtx s n fun x => { x with ctl := { x.ctl with status := statusWord code (threadOf s a).ip } }) a n
        else ctxFault s n (faultOf s a code addr w (threadOf s a).ip (threadOf s a).block)) := by
  obtain ⟨h1, h2, h3, h4, h5, h6, h7, h8⟩ := h
  simp only [runInstr, h1, h2, h3, h4, h5, beq_self_eq_true, Bool.and_self, if_true, issue, h6, h7, h8, Bool.not_true,
    Bool.false_eq_true, if_false, thenNext]
  all_goals congr 1

theorem runInstr_done {row : Row} {a : Agent} {w : Word} {n : Nat} {s t : State} {body : Nat → State → IRes}
    (h : Issues row s a n w) (hb : body n s = .done t) : runInstr row a w body s = .next (thenNext s t a n) := by
  rw [runInstr_issues body h, hb]

theorem runInstr_jump {row : Row} {a : Agent} {w : Word} {n ip : Nat} {s t : State} {body : Nat → State → IRes}
    (h : Issues row s a n w) (hb : body n s = .jump t ip) : runInstr row a w body s = .next (advance t a n ip) := by
  rw [runInstr_issues body h, hb]

theorem runInstr_park {row : Row} {a : Agent} {w : Word} {n cause : Nat} {wait : Park} {s t : State} {body : Nat → State → IRes}
    (h : Issues row s a n w) (hb : body n s = .park t cause wait) :
    runInstr row a w body s = .next (parkAgent t a cause wait) := by
  rw [runInstr_issues body h, hb]

theorem runInstr_stop {row : Row} {a : Agent} {w : Word} {n : Nat} {s t : State} {body : Nat → State → IRes}
    (h : Issues row s a n w) (hb : body n s = .stop t) : runInstr row a w body s = .next t := by
  rw [runInstr_issues body h, hb]

theorem runInstr_ctxFault {row : Row} {a : Agent} {w : Word} {n code addr : Nat} {own : Bool} {s : State}
    {body : Nat → State → IRes} (h : Issues row s a n w) (hb : body n s = .fault code addr own)
    (hr : reported a code own = false) :
    runInstr row a w body s = .next (ctxFault s n (faultOf s a code addr w (threadOf s a).ip (threadOf s a).block)) := by
  rw [runInstr_issues body h, hb]
  simp [hr]

/-- A write of a scalar register reads back; s0 stays 0 (R78). -/
theorem sOf_putS (s : State) (a : Agent) (r : Nat) (v : Word) : sOf (putS s a r v) a r = if r = 0 then 0 else v := by
  split
  · rename_i h; subst h; simp [sOf]
  · rename_i h; simp [sOf, putS, h]

theorem sOf_putS_ne (s : State) (a : Agent) (r q : Nat) (v : Word) (h : r ≠ q) : sOf (putS s a r v) a q = sOf s a q := by
  simp [sOf, putS, getS_setS_ne _ _ _ _ h]

end Machine
end Sys2Proof
end

