-- ==== Sys2Proof/WellFormed.lean ====
section
/-! DEFINITION. Which commands are well formed: every operand names a thing the spec gives the module, and data has its
size. -/

namespace Sys2Proof

/-- A thread of a logical core (R32, R42), or the control thread of a context (R72). -/
def Agent.ok : Agent → Bool
  | .thread core thr => decide (core < 1024) && decide (thr < 16)
  | .ctl ctx => decide (ctx < 4096)

/-- A flit whose fields fit Table 10.3. -/
def Flit.ok (f : Flit) : Bool :=
  decide (f.format < 16) && decide (f.part < 64) && decide (f.ftype < 16) && decide (f.cls < 4) && decide (f.src < 8) &&
    decide (f.dst < 8) && decide (f.low < 256) && decide (f.lseq < 4096) && decide (f.body.length = 256)

/-- A group of four flits and a link word (R264, Table 10.4). -/
def FecGroup.ok (g : FecGroup) : Bool :=
  decide (g.flits.length = 4) && g.flits.all Flit.ok && decide (g.link.ack < 4096) && decide (g.link.swapLane < 32) &&
    decide (g.link.cr.length = 4)

/-- A queue flit of 1 to 4 words of 64 bytes (Table 10.5). -/
def QueueFlit.ok (f : QueueFlit) : Bool :=
  decide (f.src < 8) && decide (f.cls < 4) && decide (f.core < 1024) && decide (f.ep < 32) && decide (1 ≤ f.words.length) &&
    decide (f.words.length ≤ 4) && f.words.all fun w => decide (w.length = 64)

/-- A HELLO (Table 10.8). -/
def HelloMsg.ok (h : HelloMsg) : Bool :=
  decide (h.port < 8) && decide (h.peer < 8) && decide (h.farPort < 8) && decide (h.incarnation < 2 ^ 32) &&
    decide (h.joinEpoch < 2 ^ 32) && decide (h.ident.nonce.length = 32)

/-- An ARRIVE (Table 10.8). -/
def ArriveMsg.ok (m : ArriveMsg) : Bool :=
  decide (m.src < 8) && decide (m.group < 65536) && decide (m.attempt < 2 ^ 32) && decide (m.step < 2 ^ 32) &&
    decide (m.colseq < 2 ^ 32) && decide (m.members < 256)

/-- A collective data flit (Table 10.5). -/
def ColData.ok (d : ColData) : Bool :=
  decide (d.src < 8) && decide (d.data.length = 256) && decide (d.format < 16) && decide (d.part < 64)

/-- A place that exists (R383). -/
def SramPlace.ok : SramPlace → Bool
  | .scratchpad core unit => decide (core < 1024) && decide (unit < 8192)
  | .coreState core => decide (core < 1024)
  | .translationCache hub | .hubOther hub => decide (hub < 4)
  | .controlCore cc => decide (cc < 16)
  | .alwaysOn => true

/-- A hub unit that exists (R395). -/
def HubUnit.ok : HubUnit → Bool
  | .bridgeGroup group => decide (group < 4096)
  | .movement hub | .translation hub => decide (hub < 4)
  | .port p => decide (p < 8)
  | .die hub => decide (hub < 4)

/-- A unit that exists (R13). -/
def Unit1.ok : Unit1 → Bool
  | .die k => decide (k < 9)
  | .core k c => decide (k < 9) && decide (c < 136)
  | .stack k => decide (k < 18)
  | .bridgeLane group lane => decide (group < 4096) && decide (lane < 12)
  | .peerLane port lane => decide (port < 8) && decide (lane < 18)

/-- A command whose operands are all in range. -/
def Instr.wf (i : Instr) : Bool :=
  match i with
  | .govStep _ => true
  | .thermalSense maxC => decide (maxC < 256)
  | .monitorCollect _ _ | .oscFail _ => true
  | .pllStop die | .pllStable die => decide (die < 9)
  | .coreClockGate core => decide (core < 1024)
  | .tickLoRead | .govStatusRead => true
  | .keepWarmWrite die _ => decide (die < 9)
  | .blockBind core => decide (core < 1024)
  | .grainResponse _ _ | .writeAck _ => true
  | .bankServe bank => decide (bank < 8256)
  | .starvationFault core => decide (core < 1024)
  | .queueWordLand core ep | .creditArrive core ep => decide (core < 1024) && decide (ep < 32)
  | .summaryArrive ctx core | .loadProceed ctx core => decide (ctx < 4096) && decide (core < 1024)
  | .mma a _ | .agset a _ | .agopen a _ | .agout a _ | .atts a _ | .attv a _ | .vfn a _ | .cvt a _ | .vred a _
  | .vcmp a _ | .pep a _ => a.ok
  | .shadowRecompute core => decide (core < 1024)
  | .ldt a _ | .stt a _ | .movt a _ | .pfsArm a _ | .pfsStop a _ => a.ok
  | .prefetchEntryStart _ | .gatePoll _ => true
  | .rcfg a _ | .ringCommit a _ | .ringRelease a _ | .ringSwap a _ | .qcfg a _ | .qsend a _ | .qrecv a _ | .qheld a _
  | .qrel a _ | .qsum a _ | .fence a _ | .bar a _ | .start a _ | .cg a _ | .epochEnter a _ | .epochLeave a _
  | .coll a _ | .gflag a _ | .reshard a _ | .updopOpen a _ | .updopNorm a _ | .updopStep a _ | .updopRegen a _
  | .updopFlush a _ | .updopKvgather a _ => a.ok
  | .updOpStart _ => true
  | .updacc a _ | .updclose a _ => a.ok
  | .contributionArrive _ _ | .contributionResend _ | .sessionComplete _ | .snapshotComplete _ => true
  | .salu a _ | .scmp a _ | .br a _ | .smemLoad a _ | .smemStore a _ | .notify a _ | .dwr a _ | .bend a _ | .halt a _
  | .yield a _ | .nop a _ | .rdsysTick a _ | .rdsysStatus a _ | .rdsysCounter a _ | .rdsysContext a _ | .rdsysPeer a _
  | .rdsysCtxRegister a _ | .loadp a _ | .sumarm a _ | .sumget a _ | .cores a _ => a.ok
  | .tierLate _ => true
  | .memUncorrectable pa | .refetchDone pa | .patrolScrub pa _ => decide (pa < 2 ^ 48)
  | .hintCtlWrite _ => true
  | .portEnable port _ | .portRetrain port | .signalDetect port _ | .trainComplete port _ _
  | .retrainComplete port _ _ _ | .portDownTimeout port => decide (port < 8)
  | .laneErrorInterval port counts => decide (port < 8) && decide (counts.length ≤ 18)
  | .laneSignalLoss port lane | .laneSwap port lane => decide (port < 8) && decide (lane < 18)
  | .fecGroupReceive port g => decide (port < 8) && g.ok
  | .queueFlit f => f.ok
  | .memreq src _ ⟨pa, off, len⟩ _ => decide (src < 8) && decide (pa < 2 ^ 48) && decide (0 < len) && decide (off + len ≤ 256)
  | .memdata src _ data format part _ =>
    decide (src < 8) && decide (data.length = 256) && decide (format < 16) && decide (part < 64)
  | .memack src _ code => decide (src < 8) && decide (code < 8)
  | .coldata d => d.ok
  | .reservedFlit port => decide (port < 8)
  | .hello h => h.ok
  | .absent ⟨src, eseq⟩ peer incarnation joinEpoch =>
    decide (eseq < 4096) && decide (src < 8) && decide (peer < 8) && decide (incarnation < 2 ^ 32) && decide (joinEpoch < 2 ^ 32)
  | .arrive ⟨m, eseq⟩ => decide (eseq < 4096) && m.ok
  | .abort ⟨src, eseq⟩ group attempt step | .gflagMessage ⟨src, eseq⟩ group attempt step _ _ =>
    decide (eseq < 4096) && decide (src < 8) && decide (group < 65536) && decide (attempt < 2 ^ 32) && decide (step < 2 ^ 32)
  | .relaydrain ⟨dst, eseq⟩ => decide (eseq < 4096) && decide (dst < 8)
  | .qcredit ⟨src, eseq⟩ sendCore sendEp recvCore recvEp _ =>
    decide (eseq < 4096) && decide (src < 8) && decide (sendCore < 1024) && decide (sendEp < 32) && decide (recvCore < 1024) && decide (recvEp < 32)
  | .qconfig ⟨src, eseq⟩ core ep _ part _ =>
    decide (eseq < 4096) && decide (src < 8) && decide (core < 1024) && decide (ep < 32) && decide (part < 64)
  | .qclose ⟨src, eseq⟩ core ep peerCore peerEp _ =>
    decide (eseq < 4096) && decide (src < 8) && decide (core < 1024) && decide (ep < 32) && decide (peerCore < 1024) && decide (peerEp < 32)
  | .routes ⟨_, eseq⟩ => decide (eseq < 4096)
  | .peerWaitLimit ctx step => decide (ctx < 4096) && decide (step < 2 ^ 32)
  | .rejoin | .reshardFencePass _ | .commitComplete _ => true
  | .submit part slot | .cancel part slot | .kick part slot => decide (part < 64) && decide (slot < 65536)
  | .pfxRelease part _ => decide (part < 64)
  | .ringPoll req => decide (req < 65536)
  | .bind ctx req _ | .emit ctx req _ _ | .draft ctx req _ _ | .accept ctx req _ | .rollback ctx req _
  | .prefilled ctx req _ | .unbind ctx req _ | .fail ctx req _ _ => decide (ctx < 4096) && decide (req < 65536)
  | .fetch ctx _ => decide (ctx < 4096)
  | .deadlineMonitor req => decide (req < 65536)
  | .load part slot | .unload part slot | .replace part slot => decide (part < 64) && decide (slot < 65536)
  | .attach part slot ctx _ | .detach part slot ctx =>
    decide (part < 64) && decide (slot < 65536) && decide (ctx < 4096)
  | .sourceReadFail f => decide (f.model < 256)
  | .layerLoaded model | .layerStaged model | .layerInstall model | .layerInstalled model
  | .replaceRetry model => decide (model < 256)
  | .useDecay => true
  | .cmdNop part | .create part | .run part | .destroy part | .map part | .unmap part | .post part =>
    decide (part < 64)
  | .teardownComplete ctx => decide (ctx < 4096)
  | .teardownRead part => decide (part < 64)
  | .quantumBoundary => true
  | .contextSaved ctx | .contextRestored ctx => decide (ctx < 4096)
  | .msixSend part vec => decide (part < 64) && decide (vec < 2048)
  | .partitionReset part | .resetScrubDone part => decide (part < 64)
  | .coreLost core | .spareCoreReady core _ => decide (core < 1024)
  | .dieLost die => decide (die < 8)
  | .spareDieReady _ => true
  | .stackLost stack | .spareStackReady stack _ => decide (stack < 16)
  | .channelLost chan => decide (chan < 64)
  | .hubPathFault u => u.ok
  | .sramUncorrectable place => place.ok
  | .watchdogExpiry cc => decide (cc < 16)
  | .hdmRead pa => decide (pa < 2 ^ 48)
  | .hdmWrite pa data => decide (pa < 2 ^ 48) && decide (data.length = 64)
  | .backInvalidate _ => true
  | .hostSnoop addr => decide (addr < 2 ^ 48)
  | .tier4Completion _ _ _ => true
  | .decoderCommit dec _ => decide (dec < 2)
  | .flrVf n => (decide (1 ≤ n) && decide (n < 64))
  | .flrPf | .vfEnableClear | .dlDown | .ideFail | .perstDeassert | .doeDiscovery _ | .getVersion | .getCapabilities
  | .negotiateAlgorithms _ _ _ _ | .getDigests => true
  | .getCertificate slot _ _ => decide (slot < 8)
  | .challenge slot nonce => decide (slot < 8) && decide (nonce.length = 32)
  | .getMeasurements _ _ nonce => decide (nonce.length = 32)
  | .keyExchange slot k => decide (slot < 8) && decide (k.nonce.length = 32) && decide (k.share.length = 96)
  | .finish _ | .keyUpdate | .heartbeat | .endSession | .chunkSend _ _ _ _ | .chunkGet _ _ | .recoveryInfo => true
  | .ideKm k => match k with | .program mode => mode == 1 || mode == 2 | .refresh => true
  | .unsupportedRequest code => decide (code < 256)
  | .matedNFall _ | .matedNRise => true
  | .powerGood slot => decide (slot < 8)
  | .inputOutOfRange _ | .inputExcursionTimeout | .inputCollapse | .recordVerify _ _ | .identityCheck _ | .firmwareBoot
  | .earlyService => true
  | .unitSelfTestDone failed => failed.all Unit1.ok
  | .speedTest | .fullService | .napEntry | .hold | .holdExit => true
  | .warm slot => decide (slot < 8)
  | .smbStatus | .smbPower | .smbVoltage | .smbTemp | .smbBoot | .smbCap _ | .smbWake | .smbHold _ => true
  | .smbWarm _ slot => decide (slot < 8)
  | .smbAlertResponse | .fwVerify | .fwVerifyDone | .fwActivate | .fwCoreSwitch _ => true
  | .crSubmit i | .crSign i | .crClear i | .crWindowExpiry i | .crApply i => decide (i < 4)
  | .registerWrite func off width _ =>
    decide (func < 128) && decide (off < 2 ^ 26) && (decide (width = 4) || decide (width = 8))
  | .inputRestored _ => true
  | .bridgeLaneSwap group lane => decide (group < 4096) && decide (lane < 12)
  | .illegalInstruction a _ => a.ok
  | .reservedCommand part | .doorbellReservedOp _ part _ => decide (part < 64)
  | .smbNak _ => true
  | .hostLinkUp speed width =>
    (decide (1 ≤ speed) && decide (speed ≤ 4)) && (decide (width = 4) || decide (width = 8) || decide (width = 16))

end Sys2Proof
end

