-- ==== Sys2Proof/Tests/Slice0.lean ====
section
/-! SUPPORT. Tests: ill-formed commands are refused; small tests; and, for every obligation with hypotheses, a state and operands
that meet the hypotheses of each of its clauses together. -/

namespace Sys2Proof
namespace Tests

open Machine

/-! ### Small states -/

/-- An instruction word from its fields (Table 4.8). -/
def iw (cls maj dst s1 s2 s3 imm : Nat) : Word :=
  BitVec.ofNat 64 (cls * 2 ^ 61 + maj * 2 ^ 58 + dst * 2 ^ 53 + s1 * 2 ^ 48 + s2 * 2 ^ 43 + s3 * 2 ^ 38 + imm)

/-- The extension bit. -/
def extBit : Word := 0x2000000000#64

/-- Predicated on p0 (which reads 0). -/
def pe0 : Word := 0x1000000000#64

/-- A physical die in service that runs. -/
def die0 : DieClk := { DieClk.reset with pllOn := true, state := 2, logical := 0, freq := 1100 }

/-- The module in full service, the link up, with one die. -/
def s0 : State :=
  { State.reset with
    clk := { Clock.reset with tick := 1000, dies := [(0, die0)] }
    pwr := { Power.reset with service := 2, stage := 6, perst := false }
    host := { HostSide.reset with up := true, committed := [(0, true), (1, true)] } }

/-- A thread that may issue, with these scalar registers. -/
def thr (s : Tbl Word) : Thread := { Thread.reset with st := .runnable, s := s }

/-- Context 5, LIVE, whose control thread has these scalar registers and descriptors. -/
def ctx (s : Tbl Word) (d : Tbl (BitVec 256)) : Ctx :=
  { Ctx.reset with
    state := ctxLive, coreset := [0], saveGrains := 8704, maps := [⟨0, 0, 0x1000000, true, false⟩]
    ctl := { Control.reset with thr := thr s, d := d } }

/-- A core of context 5 whose thread 0 has these scalar registers. -/
def core (s : Tbl Word) (d : Tbl (BitVec 256)) : Core := { Core.reset with owner := some 5, threads := [(0, thr s)], d := d }

/-- Full service with context 5 and its core 0. -/
def on (x : Core) (c : Ctx) : State := { s0 with cores := [(0, x)], ctxs := [(5, c)] }

/-- A thread of core 0 with these registers and descriptors. -/
def onCore0 (s : Tbl Word) (d : Tbl (BitVec 256)) : State := on (core s d) (ctx [] [])

/-- The control thread of context 5 with these registers and descriptors. -/
def onCtl (s : Tbl Word) (d : Tbl (BitVec 256)) : State := on (core [] []) (ctx s d)

abbrev t0 : Agent := .thread 0 0
abbrev c5 : Agent := .ctl 5

/-- A descriptor from its words. -/
def desc (a b c d : Nat) : BitVec 256 := BitVec.ofNat 256 (a + b * 2 ^ 64 + c * 2 ^ 128 + d * 2 ^ 192)

/-- A tile descriptor (Table 4.4), pitch 64 bytes. -/
def tileD (fmt rows cols base : Nat) : BitVec 256 :=
  desc (2 * 2 ^ 60 + fmt * 2 ^ 56 + rows * 2 ^ 44 + cols * 2 ^ 32) (64 * 2 ^ 21 + base) 0 0

/-- A one-dimensional tensor descriptor (Table 4.5). -/
def tensD (fmt layout base n id : Nat) : BitVec 256 :=
  desc (1 * 2 ^ 60 + fmt * 2 ^ 56 + layout * 2 ^ 52 + base) n 0 (id * 2 ^ 48)

/-- What a guard lets through. -/
def okS (d : State) : Guard → State
  | .ok s => s
  | _ => d

/-- What an instruction that completes leaves. -/
def doneS (d : State) : IRes → State
  | .done s => s
  | _ => d

/-- Memory with these bytes at an address, within a grain. -/
def memAt (s : State) (pa : Nat) (bs : List Byte) : State := mergeGrain s (pa / 256 * 256) (pa % 256) bs false

/-- A 64-bit word in memory. -/
def word64 (s : State) (pa v : Nat) : State := memAt s pa (leBytes 8 v)

/-- A program of one block over four words. -/
def prog (ops : List OpDecl) : Program :=
  { codeWords := 4, blocks := [{ entry := 0, insts := 1, rearm := true, length := 4, ops := ops }] }

/-- A core as `core`, with a program. -/
def coreP (s : Tbl Word) (d : Tbl (BitVec 256)) : Core := { core s d with prog := some (prog []) }

/-- An address that translates. -/
def okN : Except Nat Nat → Nat
  | .ok a => a
  | _ => 0


/-- Full service with context 5, whose control thread the wait of its instruction has ended with a value. -/
def woke (k : Nat) (s : Tbl Word) : State :=
  on (core [] []) { ctx s [] with ctl := { Control.reset with thr := { thr s with woken := some k } } }

/-- An accumulation group over an area at 0x10000. -/
def grp (rows cols : Nat) : AccGroup := { AccGroup.reset with rows := rows, cols := cols, base := 0x10000, isOpen := true }

/-- Core 0 with group a2 open and these scalar registers and descriptors. -/
def onGrp (g : AccGroup) (s : Tbl Word) (d : Tbl (BitVec 256)) : State := on { coreP s d with ag := [(2, g)] } (ctx [] [])

/-- An endpoint's configuration word (Table 3.1). -/
def qword (dir exp maxWords base remote peer core ep : Nat) : Word :=
  BitVec.ofNat 64 (dir * 2 ^ 62 + exp * 2 ^ 56 + (maxWords - 1) * 2 ^ 50 + base / 64 * 2 ^ 32 + peer * 2 ^ 29 + remote * 2 ^ 28 +
    core * 2 ^ 18 + ep * 2 ^ 13)

/-- Core 0 with endpoint 1 and this thread 0. -/
def onEp (e : Endpoint) (th : Thread) : State := on { core [] [] with eps := [(1, e)], threads := [(0, th)] } (ctx [] [])

/-- A packet of two words. -/
def pkt (claimed : Option Nat) : Packet :=
  { num := 0, off := 0, words := 2, poison := false, truncated := false, claimed := claimed, released := false }

/-- A sampled block of one element. -/
def samp (new : BitVec 32) : Sample := { k := 1, rows := 1, cols := 1, a := [[0x3F800000#32]], b := [[0x3F800000#32]], old := [0#32], new := [new] }

/-- A ring descriptor of four slots of a grain. -/
def ringD (mode slots : Nat) : BitVec 256 := desc (3 * 2 ^ 60 + mode * 2 ^ 59 + slots * 2 ^ 52 + slots * 2 ^ 39 + 0x20000) 0 0 0

/-- Core 0 with ring 0. -/
def onRing (r : Ring) : State := on { core [] [] with rings := [(0, r)] } (ctx [] [])

/-- A schedule descriptor. -/
def schedD (target gate : Nat) (length : Nat) : BitVec 256 := desc (4 * 2 ^ 60 + target * 2 ^ 59 + 2 ^ 49 + 0x2000) length gate 0

/-- A state with one armed schedule of thread 0. -/
def withSched (s : State) (target gate : Nat) : State :=
  { s with scheds := [(0, schedOf (.thread 0 0) 5 0 0 0 (schedD target gate 1))] }

/-- A schedule entry in memory. -/
def withEntry (s : State) (src dst n gate : Nat) : State :=
  memAt s 0x2000 (leBytes 8 src ++ leBytes 8 dst ++ leBytes 8 n ++ leBytes 8 gate)

/-- A model of partition 0 that holds epoch 2 in its one layer, attached to context 5. -/
def mdl0 : Model :=
  { part := 0, slot := 0, gen := 1, state := 3, endCode := 0, kind := 0, shared := false, copyOk := false, mirrored := false,
    pin := false, kvRefresh := false, tier := 1, base := 0, fallback := 0, owner := 0, srcPa := 0, lastSrc := 0, mapVa := 0,
    poolGrains := 64, stageGrains := 0, replSrcPa := 0, epoch := 2, installed := 1, staged := 0, failures := [], retried := false, replStatus := 0,
    copyHandle := 0, copyOf := false, layers := [⟨0, 1, 1⟩], layerPages := [3], mirrorPages := [], poolPages := [4], stagePages := [],
    stagedAt := [], replaceDue := false, kvElems := 64, poolVa := 0x80000000, installing := false, use := 1, lastUse := 0, started := [], passed := [],
    attached := [(5, true)] }

/-- A state with that model as model 0. -/
def withModel (s : State) (m : Model) : State := { s with models := [(0, m)] }

/-- A descriptor of a collective of this module alone. -/
def colD (op red : Nat) : BitVec 256 := desc (5 * 2 ^ 60 + op * 2 ^ 56 + red * 2 ^ 52 + 2 ^ 32) 0 (48 * 2 ^ 32) 0

/-- Core 0 and context 5 in collective group 2. -/
def onGroup (s : Tbl Word) (d : Tbl (BitVec 256)) : State := on (core s d) { ctx [] [] with colgroup := 2 }

/-- A mapping record that moves nothing. -/
def mapR : MapRec :=
  { oldSplit := 0, oldParts := 1, newSplit := 0, newParts := 1, stageVa := 0, oldOwner := 0, newOwner := 0, grows := 0, gcols := 0,
    missingOk := false, stageGrains := 0 }

/-- A RESHARD of context 5 of tensor 1. -/
def rsh (ph : ReshardPhase) : Reshard :=
  { ctx := 5, group := 2, attempt := 0, desc := colD 5 0, tensor := tensD 1 0 0x40000 64 1, mapRec := mapR, check := 0,
    cg := { agent := .thread 0 0, cg := 1 }, flow := 0, phase := ph, issued := 0, deadline := 100000, order := 0, arrives := [],
    sentTo := [], filled := [], poisoned := false, code := 0 }

/-- A tensor of 64 FP32 elements with TENSOR_ID 1. -/
def buf : BitVec 256 := tensD 1 0 0x40000 64 1

/-- An update descriptor. -/
def updD (op contrib params : Nat) : BitVec 256 := desc (6 * 2 ^ 60 + op * 2 ^ 56 + contrib * 2 ^ 36) params 0 0

/-- An update operation of thread 0. -/
def uop (op order : Nat) : UpdOp :=
  { ctx := 5, agent := .thread 0 0, desc := updD op 2 0, tensor := buf, step := 1, cg := 1, insn := 0, ip := 0, block := 0, order := order }

/-- A session over that tensor. -/
def sess : Session :=
  { ctx := 5, buffer := buf, step := 1, ntags := 2, contrib := 1, closes := 0, closing := [], closers := [], next := [], pool := [],
    poisonedGrains := [], cached := [], counted := false, complete := false }

/-- A contribution to it. -/
def cont (tag : Nat) (ph : ContribPhase) : Contrib :=
  { core := 0, thr := 0, ctx := 5, sess := 0, va := 0x40000, grain := 0, tag := tag, data := zeros 256, poison := false,
    cg := { agent := .thread 0 0, cg := 1 }, order := 0, phase := ph }

/-- A state with these sessions and contributions. -/
def withUpd (s : State) (ss : Tbl Session) (cs : Tbl Contrib) : State :=
  { s with upd := { Upd.reset with sessions := ss, contribs := cs, nextSession := 1, nextContrib := 1 } }

/-- A LOADP of core 0 in progress. -/
def loading (va : Nat) : State :=
  on { core [] [] with loading := true, threads := [] } { ctx [] [] with loadp := some { va := va, cores := [0], failed := none } }

/-- A memory request of thread 0 of core 0. -/
def req (isWrite : Bool) (tier pa : Nat) (ph : Phase) : MReq :=
  { agent := some (.thread 0 0), core := some 0, ctx := 5, isWrite := isWrite, va := pa, pa := pa, tier := tier, data := zeros 256,
    tag := mkTag (zeros 256) 0 0 false, dest := if isWrite then .store else .tile 0 [(0, 0, 256)], cg := none, sched := none, entry := 0,
    stamp := 10, source := 0, limit := 100, order := 0, phase := ph, code := 0 }

/-- Core 0 with that request, numbered 0, in flight. -/
def withReq (r : MReq) : State := { onCore0 [] [] with mem := { Mem.reset with reqs := [(0, r)] } }

/-- Full service with port 2 as given. -/
def withPort (p : Port) : State := { s0 with ports := [(2, p)] }

/-- A port in a state since tick 10. -/
def port (st : Nat) : Port := { Port.reset with state := st, enteredAt := 10, lanes := 16, active := 0xFFFF }

/-- A flit of four words. -/
def flit (ftype lseq : Nat) (ok : Bool) : Flit :=
  { check := if ok then crc32c (zeros 256) else 1, poison := false, format := 0, part := 0, ftype := ftype, cls := 0, src := 1, dst := 0,
    relay := false, eseq := 0, lseq := lseq, route := 0, body := zeros 256 }

/-- A received group of no flits. -/
def fec (decodes : Bool) : FecGroup := { decodes := decodes, corrected := 0, flits := [], link := { ack := 0, nak := false, swapLane := 31, cr := [0, 0, 0, 0] } }

/-- Full service with module 1 present, which may write all of tier 1. -/
def withPeer : State :=
  { onCore0 [] [] with
    peers := { Peers.reset with present := 0x02 }
    sec := { Sec.reset with prot := { Protection.shipped with rules := [(0, { write := true, peers := 0x02, first := 0, last := 1000 })] } } }

/-- The same, with a tier 3 request open as transaction 7. -/
def withTxn (isWrite : Bool) : State :=
  { withPeer with
    peers := { Peers.reset with present := 0x02, txns := [(7, 0)] }
    mem := { Mem.reset with reqs := [(0, req isWrite 3 0x140000001000 .queued)] } }

/-- An endpoint of a remote queue whose far end is endpoint 2 of core 0 of module 1. -/
def farEp (dir : Nat) : Endpoint :=
  { Endpoint.reset with cfg := if dir = 1 then qword 1 4 4 0x40000 1 1 0 2 else qword 2 0 4 0 1 1 0 2, isOpen := true }

/-- The module with module 1 present, and that endpoint as endpoint 1 of core 0. -/
def withFar (dir : Nat) : State := { withPeer with cores := [(0, { core [] [] with eps := [(1, farEp dir)] })] }

/-- A QUEUE flit for it. -/
def qflit (eseq : Nat) : QueueFlit :=
  { src := 1, cls := 0, eseq := eseq, core := 0, ep := 1, words := [zeros 64], poison := false, first := true, last := true, truncated := false }

/-- A HELLO of the module at the far end of port 2. -/
def helloOf (peer : Nat) : HelloMsg :=
  { port := 2, peer := peer, farPort := 2, incarnation := 4, joinEpoch := 1, ident := { key := [], cert := [], nonce := zeros 32, sig := [] } }

/-- The partner present. -/
def withPartner : State := { s0 with peers := { Peers.reset with present := 0x10 } }

/-- An ARRIVE of module 1. -/
def arr (step : Nat) : ArriveMsg :=
  { src := 1, group := 2, attempt := 0, step := step, colseq := 0, op := 0, red := 1, comp := 0, k := 0, members := 3, count := 64,
    check := 0, flow := 1 }

/-- An open ALLRED of modules 0 and 1. -/
def coll0 : Coll :=
  { ctx := 5, group := 2, attempt := 0, desc := desc (5 * 2 ^ 60 + 2 ^ 52 + 3 * 2 ^ 32) 0 (48 * 2 ^ 32) 0, src := tensD 1 0 0x40000 64 1,
    dst := tensD 1 0 0x50000 64 2, cg := { agent := .thread 0 0, cg := 1 }, flow := 0, deadline := 500, waiting := false, order := 0, read := true, inbox := [], arrives := [],
    mine := [], fwd := [], sentTo := [], got := [], landed := [], combined := [], poisoned := false, failed := false }

/-- Module 1 present, context 5 in group 2, and these hubs. -/
def withHub (h : Hub) : State := { withPeer with hub := h, ctxs := [(5, { ctx [] [] with colgroup := 2 })] }

/-- A grain of collective data from module 1. -/
def cdata (flow : Nat) : ColData :=
  { src := 1, flow := flow, grain := 0, data := zeros 256, check := crc32c (zeros 256), format := 0, part := 0, poison := false }

/-- A request of partition 0 served by context 5. -/
def rq0 : Request :=
  { part := 0, slot := 0, model := 256, share := 0, pfxIn := 0, promptPa := 0x300000, maxNew := 8, promptTokens := 4, ringOrder := 4,
    ringPa := 0x400000, deadlineTicks := 0, dlPolicy := 0, specMax := 4, irqEn := false, irqVec := 0, irqEvery := 0, pfxLen := 0,
    user := List.replicate 8 0, state := 3, acceptTick := 10, tokensOut := 0, pfxOut := 0, recomputes := 0, kvLen := 0, capacity := 0,
    sets := [], published := [], tail := 0, readSeen := 0, heldEntry := none, drafts := [], bound := true, boundEpoch := 1, ctx := some 5,
    cancelPending := false, pastDeadline := false, fallenBack := false, moveOnEnd := false, endOnEnd := false, evictOnEnd := false,
    pfxTokens := 0, pfxSets := [], replayLen := 0, pagesVa := 0x90000000, replayVa := 0xA0000000, result := 0, value := 0, endCode := 0,
    endTick := 0 }

/-- Model 0 and that request, numbered 0; partition 0 has a request region of 4 slots. -/
def withRq (r : Request) : State :=
  { withModel (onCore0 [] []) mdl0 with
    rollout := { Rollout.reset with requests := [(0, r)] }, parts := [(0, { Part.reset with rqBase := 0x200000, rqSlots := 4 })] }

/-- A commit command's first word. -/
def cw0 (op rest : Nat) : Word := BitVec.ofNat 64 (op * 2 ^ 60 + rest)

/-- A draft. -/
def dft : Draft := { token := 9, logprob := 0, ends := false, poison := false, epoch := 1, late := false, fallback := false }

/-- No request, and a request record in slot 0. -/
def withRec : State :=
  memAt { withRq rq0 with rollout := Rollout.reset } 0x200000 (leBytes 8 (2 ^ 56 + 256 * 2 ^ 32) ++ leBytes 8 0 ++ leBytes 8 0x300000 ++
    leBytes 8 (8 * 2 ^ 32 + 4) ++ leBytes 8 (4 * 2 ^ 48 + 0x400000))

/-- A prefix handle. -/
def hdl : Handle := { gen := 1, part := 0, model := 256, covered := 4, sets := [] }

/-- Partition 0 with a model region of 4 slots, and a model record in slot 1 whose source image has one layer of a grain. -/
def withMdl : State :=
  memAt (memAt (memAt { withModel (onCore0 [] []) mdl0 with
    parts := [(0, { Part.reset with mdlBase := 0x200000, mdlSlots := 4, t1Base := 0x4000000, t1Size := 0x4000000 })] }
    0x200100 (leBytes 8 (2 ^ 56 + 2 ^ 53) ++ leBytes 8 0x300000 ++ zeros 16 ++ leBytes 8 0x300000))
    0x300000 (leBytes 8 (2 ^ 56 + 1))) 0x300100 (leBytes 8 0x400 ++ leBytes 8 1)

/-- The same, with that model in slot 1, RESIDENT. -/
def withMdl1 (m : Model) : State := { withMdl with models := [(0, m)] }

/-- A shared model in slot 1 of the shape of that image. -/
def mdl1 : Model := { mdl0 with slot := 1, state := 2, shared := true, layers := [⟨0x400, 1, 1⟩], epoch := 1 }

/-- Full service with context 5 as given, and a command at HEAD of partition 0's ring. -/
def withCmd (c : Tbl Ctx) (ws : List Nat) : State :=
  memAt { s0 with ctxs := c, parts := [(0, { Part.reset with cmdBase := 0x500000, cmdOrder := 4, cmdTail := 1 })] } 0x500000
    (ws.flatMap fun w => leBytes 8 w)

/-- Context 5 without cores. -/
def live5 : Tbl Ctx := [(5, { ctx [] [] with coreset := [] })]

/-- Full service, and these registers of the SPDM responder. -/
def withSpdm (p : Spdm) : State := { s0 with sec := { Sec.reset with spdm := p } }

/-- Algorithms negotiated, a secure session allowed. -/
def spdm3 (session : Nat) : Spdm := { Spdm.reset with negotiated := 3, session := session, keyed := true }

/-- The module in recovery, the link up. -/
def recovery : State := { s0 with pwr := { s0.pwr with service := 3, stage := 0, bootCode := 1 } }

/-- A stage of bring-up. -/
def stage (k service : Nat) : State := { s0 with pwr := { s0.pwr with service := service, stage := k } }

/-- The firmware interface as given, with an image of this version in flash slot 1, table version 0 running. -/
def withFw (st mode version : Nat) : State :=
  { s0 with sec := { Sec.reset with
      fwState := st, fwMode := mode, stagePa := 0x600000, fwBytes := 256, fwRunning := some FwImage.shipped
      fwSlots := [(0, FwImage.shipped), (1, { FwImage.shipped with fwVersion := version })] } }

/-- Change record slot 0 as given. -/
def withCr (x : CrSlot) : State := { s0 with sec := { Sec.reset with slots := [(0, x)], idDigest := zeros 64 } }

/-- The body of a SETTINGS record. -/
def body3 (seq : Nat) : List Byte :=
  leBytes 8 (2 ^ 56 + 3 * 2 ^ 52 + 1) ++ leBytes 8 seq ++ zeros 240 ++ leBytes 8 5 ++ leBytes 8 48000000 ++ zeros 240

/-! ### How a witness is shown -/

theorem get_some {α : Type} {o : Option α} (h : o.isSome = true) : o = some (o.get h) := (Option.some_get h).symm

theorem get_some2 {α β : Type} {o : Option (α × β)} (h : o.isSome = true) : o = some ((o.get h).1, (o.get h).2) := get_some h

theorem get_some3 {α β γ : Type} {o : Option (α × β × γ)} (h : o.isSome = true) :
    o = some ((o.get h).1, (o.get h).2.1, (o.get h).2.2) := get_some h

theorem get_some4 {α β γ δ : Type} {o : Option (α × β × γ × δ)} (h : o.isSome = true) :
    o = some ((o.get h).1, (o.get h).2.1, (o.get h).2.2.1, (o.get h).2.2.2) := get_some h

theorem get_some_r {α β : Type} {o : Option (α × β)} {a : α} (h : o.map Prod.fst = some a) :
    o = some (a, (o.get (by cases o <;> simp_all)).2) := by
  cases o with
  | none => cases h
  | some p => cases h; rfl

theorem get_some_l {α β : Type} {o : Option (α × β)} {b : β} (h : o.map Prod.snd = some b) :
    o = some ((o.get (by cases o <;> simp_all)).1, b) := by
  cases o with
  | none => cases h
  | some p => cases h; rfl

theorem pair2 {α β : Type} {e : α × β} : e = (e.1, e.2) := rfl

theorem pair3 {α β γ : Type} {e : α × β × γ} : e = (e.1, e.2.1, e.2.2) := rfl

theorem pair_r {α β : Type} {e : α × β} {a : α} (h : e.1 = a) : e = (a, e.2) := by cases h; rfl

theorem pair_m {α β γ : Type} {e : α × β × γ} {b : β} (h : e.2.1 = b) : e = (e.1, b, e.2.2) := by cases h; rfl

theorem pair_l {α β : Type} {e : α × β} {b : β} (h : e.2 = b) : e = (e.1, b) := by cases h; rfl

/-- What a step leaves. -/
def nextS (d : State) : Host.Outcome State Fault Refusal → State
  | .next s => s
  | _ => d

def isOk : Guard → Bool
  | .ok _ => true
  | _ => false

def isDone : IRes → Bool
  | .done _ => true
  | _ => false

def isNext : Host.Outcome State Fault Refusal → Bool
  | .next _ => true
  | _ => false

theorem ok_state {g : Guard} (h : isOk g = true) : g = .ok (okS s0 g) := by
  cases g with
  | ok s => rfl
  | _ => cases h

theorem ok_val {e : Except Nat Nat} (h : e.isOk = true) : e = .ok (okN e) := by
  cases e with
  | ok a => rfl
  | error a => cases h

theorem done_state {g : IRes} (h : isDone g = true) : g = .done (doneS s0 g) := by
  cases g with
  | done s => rfl
  | _ => cases h

theorem next_state {o : Host.Outcome State Fault Refusal} (h : isNext o = true) : o = .next (nextS s0 o) := by
  cases o with
  | next s => rfl
  | _ => cases h

theorem of_opt {α : Type} {o : Option α} {p : α → Prop} [DecidablePred p] (h : (o.all fun u => decide (p u)) = true) :
    ∀ u, o = some u → p u := by
  intro u hu
  subst hu
  exact of_decide_eq_true h

theorem memWf_of {s : State} (h : (Memory.wf s.mem.cells && s.cores.all fun e => Memory.wf e.2.sp) = true) : s.memWf := by
  simp only [Bool.and_eq_true, List.all_eq_true] at h
  exact h

theorem legal_s0 : s0.Legal :=
  ⟨by decide, by decide, by decide, by decide, by decide, fun _ => (by decide : 1 ≤ Port.reset.replayMax ∧ Port.reset.replayMax ≤ 7), by decide +kernel⟩

/-- A signature that lies in a window of partition 0 is read when no grain of it comes poisoned. -/
theorem sigOf_ok {s : State} {x : CrSlot} (h : inWindows s 0 x.sigPa sigBytes = true) (hb : (fwFetch s x.sigPa sigBytes).2.1 = false) :
    sigOf s x = (some (fwFetch s x.sigPa sigBytes).1, (fwFetch s x.sigPa sigBytes).2.2) := by
  unfold sigOf
  rw [h]
  generalize fwFetch s x.sigPa sigBytes = r at hb ⊢
  obtain ⟨a, b, c⟩ := r
  cases hb
  rfl

/-! ### Ill-formed commands are refused -/

/-- A received group of one flit four times. -/
def group (l : LinkWord) (f : Flit) : FecGroup := { decodes := true, corrected := 0, flits := List.replicate 4 f, link := l }

/-- Whether all are ill-formed. -/
def allRefused (l : List Instr) : Bool := l.all fun i => !i.wf

theorem test_ill_formed_1 :
  allRefused [
    .thermalSense 256, .pllStop 9, .pllStable 9, .coreClockGate 1024, .keepWarmWrite 9 0, .blockBind 1024, .bankServe 8256,
    .starvationFault 1024, .queueWordLand 1024 0, .queueWordLand 0 32, .creditArrive 0 32, .summaryArrive 4096 0, .loadProceed 0 1024,
    .mma (.thread 1024 0) 0, .mma (.thread 0 16) 0, .salu (.ctl 4096) 0, .shadowRecompute 1024, .ldt (.thread 0 16) 0,
    .coll (.ctl 4096) 0, .updacc (.thread 0 16) 0, .illegalInstruction (.ctl 4096) 0] = true := by
  decide +kernel

theorem test_ill_formed_2 :
  allRefused [
    .memUncorrectable (2 ^ 48), .refetchDone (2 ^ 48), .patrolScrub (2 ^ 48) true, .portEnable 8 true, .portRetrain 8,
    .signalDetect 8 0, .trainComplete 8 0 0, .retrainComplete 8 true 0 0, .portDownTimeout 8, .laneErrorInterval 8 [],
    .laneErrorInterval 0 (List.replicate 19 0), .laneSignalLoss 0 18, .laneSwap 8 0, .reservedFlit 8, .memreq 8 0 ⟨0, 0, 256⟩ true,
    .memreq 0 0 ⟨2 ^ 48, 0, 256⟩ true, .memreq 0 0 ⟨0, 256, 1⟩ true, .memreq 0 0 ⟨0, 0, 257⟩ true, .memdata 8 0 (zeros 256) 0 0 false,
    .memdata 0 0 [] 0 0 false, .memdata 0 0 (zeros 256) 16 0 false, .memdata 0 0 (zeros 256) 0 64 false, .memack 8 0 0, .memack 0 0 8,
    .absent ⟨8, 0⟩ 0 0 0, .absent ⟨0, 0⟩ 8 0 0, .absent ⟨0, 0⟩ 0 (2 ^ 32) 0, .absent ⟨0, 0⟩ 0 0 (2 ^ 32)] = true := by
  decide +kernel

theorem test_ill_formed_3 :
  allRefused [
    .abort ⟨8, 0⟩ 0 0 0, .abort ⟨0, 0⟩ 65536 0 0, .gflagMessage ⟨0, 0⟩ 0 (2 ^ 32) 0 true false,
    .gflagMessage ⟨0, 0⟩ 0 0 (2 ^ 32) true false, .relaydrain ⟨8, 0⟩, .qcredit ⟨8, 0⟩ 0 0 0 0 1, .qcredit ⟨0, 0⟩ 1024 0 0 0 1,
    .qcredit ⟨0, 0⟩ 0 32 0 0 1, .qcredit ⟨0, 0⟩ 0 0 1024 0 1, .qcredit ⟨0, 0⟩ 0 0 0 32 1, .qconfig ⟨8, 0⟩ 0 0 0 0 false,
    .qconfig ⟨0, 0⟩ 1024 0 0 0 false, .qconfig ⟨0, 0⟩ 0 32 0 0 false, .qconfig ⟨0, 0⟩ 0 0 0 64 false, .qclose ⟨8, 0⟩ 0 0 0 0 1,
    .routes ⟨0, 4096⟩, .arrive ⟨arr 0, 4096⟩, .abort ⟨0, 4096⟩ 0 0 0, .qclose ⟨0, 0⟩ 1024 0 0 0 1, .qclose ⟨0, 0⟩ 0 32 0 0 1,
    .qclose ⟨0, 0⟩ 0 0 1024 0 1, .qclose ⟨0, 0⟩ 0 0 0 32 1, .peerWaitLimit 4096 0, .peerWaitLimit 0 (2 ^ 32)] = true := by
  decide +kernel

theorem test_ill_formed_4 :
  allRefused [
    .submit 64 0, .submit 0 65536, .cancel 64 0, .kick 0 65536, .pfxRelease 64 0, .ringPoll 65536, .bind 4096 0 0, .bind 0 65536 0,
    .emit 4096 0 0 0, .fail 0 65536 0 0, .fetch 4096 0, .deadlineMonitor 65536, .load 64 0, .unload 0 65536, .attach 64 0 0 true,
    .attach 0 65536 0 true, .detach 0 0 4096, .sourceReadFail ⟨256, 0⟩, .layerLoaded 256, .replaceRetry 256, .create 64,
    .reservedCommand 64, .doorbellReservedOp true 64 0, .teardownComplete 4096, .teardownRead 64, .contextSaved 4096,
    .contextRestored 4096, .msixSend 64 0, .msixSend 0 2048, .partitionReset 64, .resetScrubDone 64] = true := by
  decide +kernel

theorem test_ill_formed_5 :
  allRefused [
    .coreLost 1024, .spareCoreReady 1024 true, .dieLost 8, .stackLost 16, .spareStackReady 16 true, .channelLost 64,
    .hubPathFault (.bridgeGroup 4096), .hubPathFault (.movement 4), .hubPathFault (.translation 4), .hubPathFault (.port 8),
    .hubPathFault (.die 4), .bridgeLaneSwap 4096 0, .bridgeLaneSwap 0 12, .watchdogExpiry 16, .sramUncorrectable (.scratchpad 1024 0),
    .sramUncorrectable (.scratchpad 0 8192), .sramUncorrectable (.coreState 1024), .sramUncorrectable (.hubOther 4),
    .sramUncorrectable (.controlCore 16)] = true := by
  decide +kernel

theorem test_ill_formed_6 :
  allRefused [
    .hdmRead (2 ^ 48), .hdmWrite (2 ^ 48) (zeros 64), .hdmWrite 0 [], .hostSnoop (2 ^ 48), .decoderCommit 2 1, .flrVf 0, .flrVf 64,
    .getCertificate 8 0 0, .challenge 8 (zeros 32), .challenge 0 [], .getMeasurements 0 true [], .keyExchange 8 ⟨zeros 32, zeros 96⟩,
    .keyExchange 0 ⟨[], zeros 96⟩, .keyExchange 0 ⟨zeros 32, []⟩, .ideKm (.program 3), .unsupportedRequest 256, .powerGood 8, .warm 8,
    .smbWarm ⟨0, none⟩ 8, .crSubmit 4, .crSign 4, .crClear 4, .crWindowExpiry 4, .crApply 4, .registerWrite 128 0 4 0,
    .registerWrite 0 (2 ^ 26) 4 0, .registerWrite 0 0 2 0, .hostLinkUp 0 16, .hostLinkUp 5 16, .hostLinkUp 4 1,
    .unitSelfTestDone [.die 9], .unitSelfTestDone [.core 9 0], .unitSelfTestDone [.core 0 136], .unitSelfTestDone [.stack 18],
    .unitSelfTestDone [.bridgeLane 4096 0], .unitSelfTestDone [.bridgeLane 0 12], .unitSelfTestDone [.peerLane 8 0],
    .unitSelfTestDone [.peerLane 0 18]] = true := by
  decide +kernel

theorem test_ill_formed_7 :
  allRefused [
    .queueFlit { qflit 0 with src := 8 }, .queueFlit { qflit 0 with cls := 4 }, .queueFlit { qflit 0 with core := 1024 },
    .queueFlit { qflit 0 with ep := 32 }, .queueFlit { qflit 0 with words := [] },
    .queueFlit { qflit 0 with words := List.replicate 5 (zeros 64) }, .queueFlit { qflit 0 with words := [[]] },
    .hello { helloOf 3 with port := 8 }, .hello { helloOf 3 with ident := ⟨[], [], [], []⟩ }, .hello { helloOf 3 with peer := 8 },
    .hello { helloOf 3 with farPort := 8 }, .hello { helloOf 3 with incarnation := 2 ^ 32 },
    .hello { helloOf 3 with joinEpoch := 2 ^ 32 }, .arrive ⟨{ arr 0 with src := 8 }, 0⟩, .arrive ⟨{ arr 0 with group := 65536 }, 0⟩,
    .arrive ⟨{ arr 0 with attempt := 2 ^ 32 }, 0⟩, .arrive ⟨{ arr 0 with step := 2 ^ 32 }, 0⟩,
    .arrive ⟨{ arr 0 with colseq := 2 ^ 32 }, 0⟩, .arrive ⟨{ arr 0 with members := 256 }, 0⟩, .coldata { cdata 0 with src := 8 },
    .coldata { cdata 0 with data := [] }, .coldata { cdata 0 with format := 16 }, .coldata { cdata 0 with part := 64 }] = true := by
  decide +kernel

theorem test_ill_formed_8 :
  allRefused [
    .fecGroupReceive 8 { fec true with flits := List.replicate 4 (flit 0 0 false) }, .fecGroupReceive 0 (fec true),
    .fecGroupReceive 0 (group { ack := 4096, nak := false, swapLane := 31, cr := [0, 0, 0, 0] } (flit 0 0 false)),
    .fecGroupReceive 0 (group { ack := 0, nak := false, swapLane := 32, cr := [0, 0, 0, 0] } (flit 0 0 false)),
    .fecGroupReceive 0 (group { ack := 0, nak := false, swapLane := 31, cr := [] } (flit 0 0 false)),
    .fecGroupReceive 0 (group (fec true).link { flit 0 0 false with format := 16 }),
    .fecGroupReceive 0 (group (fec true).link { flit 0 0 false with low := 256 }),
    .fecGroupReceive 0 (group (fec true).link { flit 0 0 false with part := 64 }),
    .fecGroupReceive 0 (group (fec true).link { flit 0 0 false with ftype := 16 }),
    .fecGroupReceive 0 (group (fec true).link { flit 0 0 false with cls := 4 }),
    .fecGroupReceive 0 (group (fec true).link { flit 0 0 false with src := 8 }),
    .fecGroupReceive 0 (group (fec true).link { flit 0 0 false with dst := 8 }),
    .fecGroupReceive 0 (group (fec true).link { flit 0 0 false with lseq := 4096 }),
    .fecGroupReceive 0 (group (fec true).link { flit 0 0 false with body := [] })] = true := by
  decide +kernel

/-- And the values at the ends of the ranges are accepted. -/
theorem test_well_formed :
  ([.mma (.thread 1023 15) 0, .halt (.ctl 4095) 0, .pllStop 8, .bankServe 8255, .dieLost 7, .registerWrite 127 (2 ^ 26 - 8) 8 0,
    .hostLinkUp 4 16, .queueFlit (qflit 4095), .fecGroupReceive 7 (group (fec true).link (flit 15 4095 true)), .coldata (cdata 0),
    .hello (helloOf 7), .arrive ⟨arr 0, 4095⟩, .sramUncorrectable (.scratchpad 1023 8191)] : List Instr).all Instr.wf = true := by
  decide +kernel

/-! ### Small tests -/

/-- What a command leaves. -/
def after (i : Instr) (s : State) : State := nextS s0 (exec i s)

/-- R156: a sum wraps modulo 2^64. -/
theorem test_salu_wraps :
    getS (threadOf (after (.salu t0 (iw 7 0 3 1 2 0 0)) (on (coreP [(1, 0xFFFFFFFFFFFFFFFF), (2, 1), (3, 9)] []) (ctx [] []))) t0) 3 = 0 := by
  decide +kernel

/-- R156: the sources are read before the destination is written. -/
theorem test_salu_source_is_destination :
    getS (threadOf (after (.salu t0 (iw 7 0 1 1 1 0 0)) (on (coreP [(1, 5)] []) (ctx [] []))) t0) 1 = 10 := by
  decide +kernel

/-- A CVT of one INT8 element to E4M3. -/
def cvtOf (v : Byte) : State :=
  after (.cvt t0 (iw 1 1 3 1 0 0 0x49000000))
    (on { coreP [] [(1, tileD 9 1 1 0x1000), (3, tileD 4 1 1 0x2000)] with sp := [(0x1000, v)] } (ctx [] []))

/-- Chapter 7: INT8 127 to E4M3 rounds to 128 under round to nearest even. -/
theorem test_cvt_127 : readByte (getCore (cvtOf 127) 0).sp 0x2000 = 0x70 := by decide +kernel

/-- Chapter 7: INT8 96 converts exactly. -/
theorem test_cvt_96 : readByte (getCore (cvtOf 96) 0).sp 0x2000 = 0x6C := by decide +kernel

/-- R99, R100: an illegal instruction of a thread is a context fault with code 0x01, which ends the context (R360). -/
theorem test_illegal :
    (getCtx (nextS s0 (exec (.agset t0 (iw 0 1 2 1 0 0 1)) (onCore0 [] []))) 5).fault.code = 1 ∧
    (getCtx (nextS s0 (exec (.agset t0 (iw 0 1 2 1 0 0 1)) (onCore0 [] []))) 5).state = ctxEnding := by
  decide +kernel

/-- Table 1.8: a read of the low half latches the high half. -/
theorem test_tick_latch :
    (after .tickLoRead { s0 with clk := { s0.clk with tick := 0x500000007 } }).clk.hiLatch = 5 := by
  decide +kernel

/-- R412: a read that no decoder covers returns zeros. -/
theorem test_no_decoder : (after (.hdmRead 0x030000000000) s0).out = s0.out ++ [.hdmData 0x030000000000 (zeros 64) false] := by decide +kernel

/-- A command that waits is taken from the front. -/
theorem test_queue_pops :
    (nextS s0 (step { s0 with pending := [.vfEnableClear, .useDecay] })).pending = [.useDecay] := by
  decide +kernel

/-- The published check value of CRC-32C. -/
theorem test_crc : crc32c [0x31, 0x32, 0x33, 0x34, 0x35, 0x36, 0x37, 0x38, 0x39] = 0xE3069283 := by decide +kernel

/-- The published check value of the code that SMBus takes for packet error checking. -/
theorem test_pec : pecOf [0x31, 0x32, 0x33, 0x34, 0x35, 0x36, 0x37, 0x38, 0x39] = 0xF4 := by decide +kernel

/-! ### The hypotheses of the obligations can be met

For each statement, one theorem: for each of its clauses, a state and operands that meet all of its hypotheses together. -/

section

set_option maxRecDepth 100000
set_option Elab.async false
set_option linter.unusedVariables false

theorem hyps_IdleStepTicks :
  (∃ (s : State), s.pending = [] ∧ s.pwr.off = false) ∧
  (∃ (s : State), s.pending = [] ∧ s.pwr.off = false ∧ bellCount s = 0 ∧ s.pwr.holdAsked = false ∧ s.host.fwWaits = [] ∧ s.pwr.speedTest
    = none) ∧
  (∃ (s : State), s.pending = [] ∧ s.pwr.off = true) :=
  ⟨⟨s0, by decide +kernel⟩, ⟨s0, by decide +kernel⟩, ⟨{ s0 with pwr := { s0.pwr with off := true } }, by decide +kernel⟩⟩

theorem hyps_IssueRules :
  (∃ (i : Instr) (row : Row) (a : Agent) (w : Word) (s : State) (n : Nat), i.rowOf = some (row, a, w) ∧ Reaches row s a n w ∧ legalFor
    row s a w = true ∧ selected (threadOf s a) w = false) ∧
  (∃ (i : Instr) (row : Row) (a : Agent) (w : Word) (s : State) (n : Nat), i.rowOf = some (row, a, w) ∧ Reaches row s a n w ∧ legalFor
    row s a w = false) ∧
  (∃ (i : Instr) (row : Row) (a : Agent) (w : Word) (s : State) (n : Nat), i.rowOf = some (row, a, w) ∧ Reaches row s a n w ∧ legalFor
    row s a w = true ∧ selected (threadOf s a) w = true ∧ admits row s a w = false) :=
  ⟨⟨Instr.salu t0 (iw 7 0 3 1 0 0 0x02000001 ||| pe0), rowSalu, t0, iw 7 0 3 1 0 0 0x02000001 ||| pe0, onCore0 [] [], 5, rfl,
    by decide +kernel⟩, ⟨Instr.salu t0 (iw 7 0 3 1 0 0 0x2C000000), rowSalu, t0, iw 7 0 3 1 0 0 0x2C000000, onCore0 [] [], 5, rfl,
    by decide +kernel⟩, ⟨Instr.mma c5 (iw 0 0 2 1 3 0 0), rowMma, c5, iw 0 0 2 1 3 0 0, onCtl [] [], 5, rfl, by decide +kernel⟩⟩

theorem hyps_NoIssueNoEffect :
  (∃ (i : Instr) (row : Row) (a : Agent) (w : Word) (s : State), i.rowOf = some (row, a, w) ∧ (∀ n, ctxOf s a = some n → canIssue s a n =
    false)) :=
  ⟨Instr.salu t0 (iw 7 0 3 1 0 0 1), rowSalu, t0, iw 7 0 3 1 0 0 1, on { core [] [] with threads := [] } (ctx [] []), rfl, of_opt
    (by decide +kernel)⟩

theorem hyps_SaluRule :
  (∃ (s : State) (a : Agent) (n : Nat) (w : Word), Issues rowSalu s a n w ∧ iExt w = false) ∧
  (∃ (s : State) (c t n : Nat) (w : Word), Issues rowSalu s (.thread c t) n w ∧ iExt w = true) ∧
  (∃ (s s' : State) (m n : Nat) (w b : Word), extWord s (.ctl m) n w = (.ok b, s') ∧ Issues rowSalu s (.ctl m) n w ∧ iExt w = true) ∧
  (∃ (s : State) (a : Agent) (n : Nat) (w : Word), Reaches rowSalu s a n w ∧ iExt w = false ∧ 0xA < bits (iImm w) 31 26) :=
  ⟨⟨onCore0 [(1, 7), (2, 9)] [(3, desc 1 2 3 4)], t0, 5, iw 7 0 3 1 2 0 0x04000000, by decide +kernel⟩, ⟨on (coreP [(1, 7)] []) (ctx []
    []), 0, 0, 5, iw 7 0 3 1 0 0 3 ||| extBit, by decide +kernel⟩, ⟨word64 (onCtl [] []) 8 0x1234, _, 5, 5, iw 7 0 3 1 0 0 1 ||| extBit,
    0x1234, pair_r (by decide +kernel), by decide +kernel⟩, ⟨onCore0 [(1, 7), (2, 9)] [(3, desc 1 2 3 4)], t0, 5, iw 7 0 3 1 2 0
    0x2C000000, by decide +kernel⟩⟩

theorem hyps_ScmpRule :
  (∃ (s : State) (a : Agent) (n : Nat) (w : Word), Issues rowScmp s a n w) ∧
  (∃ (s : State) (a : Agent) (n : Nat) (w : Word), Reaches rowScmp s a n w ∧ (5 < bits (iImm w) 31 29 ∨ bits (iImm w) 27 25 ≠ 0 ∨ iExt w
    = true)) :=
  ⟨⟨onCore0 [(1, 7), (2, 9)] [(3, desc 1 2 3 4)], t0, 5, iw 7 1 3 1 2 0 0x40000000, by decide +kernel⟩, ⟨onCore0 [(1, 7), (2, 9)] [(3,
    desc 1 2 3 4)], t0, 5, iw 7 1 3 1 2 0 0xC0000000, by decide +kernel⟩⟩

theorem hyps_DwrRule :
  (∃ (s : State) (a : Agent) (n : Nat) (w : Word), Issues rowDwr s a n w) ∧
  (∃ (d : BitVec 256) (k j : Nat) (v : Word), k < 4 ∧ j < 4) ∧
  (∃ (s : State) (a : Agent) (n : Nat) (w : Word), Reaches rowDwr s a n w ∧ bits (iImm w) 31 2 ≠ 0) :=
  ⟨⟨onCore0 [(1, 7), (2, 9)] [(3, desc 1 2 3 4)], t0, 5, iw 7 4 3 1 0 0 3, by decide +kernel⟩, ⟨7, 3, 3, 5, by decide +kernel⟩, ⟨onCore0
    [(1, 7), (2, 9)] [(3, desc 1 2 3 4)], t0, 5, iw 7 4 3 1 0 0 4, by decide +kernel⟩⟩

theorem hyps_ScalarResults :
  (∃ (s : State) (a : Agent) (n : Nat) (w : Word), Issues rowBr s a n w) ∧
  (∃ (s : State) (a : Agent) (n : Nat) (w : Word), Issues (rowFlow 3 true true) s a n w) ∧
  (∃ (s : State) (a : Agent) (n : Nat) (w : Word), Issues (rowRdsys 0) s a n w) ∧
  (∃ (s : State) (c t n : Nat) (w : Word), Issues (rowRdsys 1) s (.thread c t) n w) ∧
  (∃ (s : State) (m n : Nat) (w : Word), Issues (rowRdsys 1) s (.ctl m) n w) ∧
  (∃ (s : State) (a : Agent) (n : Nat) (w v : Word), ownCounter s n (rdsysOff s a w) = some v ∧ Issues (rowRdsys 2) s a n w) ∧
  (∃ (s : State) (a : Agent) (n : Nat) (w : Word), Issues (rowRdsys 3) s a n w) ∧
  (∃ (s : State) (a : Agent) (n : Nat) (w : Word), Issues (rowRdsys 4) s a n w) ∧
  (∃ (s : State) (a : Agent) (n v : Nat) (w : Word), ctxCounter (getCtx s n) (rdsysOff s a w) = some v ∧ Issues (rowRdsys 5) s a n w) ∧
  (∃ (s : State) (c t n : Nat) (w : Word), Issues (rowRdsys 2) s (.thread c t) n w ∧ ownCounter s n (rdsysOff s (.thread c t) w) = none) ∧
  (∃ (s : State) (m n : Nat) (w : Word), Issues (rowRdsys 5) s (.ctl m) n w ∧ ctxCounter (getCtx s n) (rdsysOff s (.ctl m) w) = none) :=
  ⟨⟨onCore0 [(1, 2)] [], t0, 5, iw 7 2 0 1 0 0 0x80000000, by decide +kernel⟩, ⟨onCore0 [] [], t0, 5, iw 7 5 0 0 0 0 0x60000000,
    by decide +kernel⟩, ⟨onCtl [] [], c5, 5, iw 7 6 3 0 0 0 0, by decide +kernel⟩, ⟨onCore0 [] [], 0, 0, 5, iw 7 6 3 0 0 0 0x10000000,
    by decide +kernel⟩, ⟨onCtl [] [], 5, 5, iw 7 6 3 0 0 0 0x10000000, by decide +kernel⟩, ⟨onCore0 [(1, 0x80000)] [], t0, 5, iw 7 6 3 1
    0 0 0x20000000, _, get_some (by decide +kernel), by decide +kernel⟩, ⟨onCore0 [] [], t0, 5, iw 7 6 3 0 0 0 0x30000000,
    by decide +kernel⟩, ⟨onCtl [] [], c5, 5, iw 7 6 3 0 0 0 0x40000000, by decide +kernel⟩, ⟨onCtl [(1, 0x120)] [], c5, 5, _, iw 7 6 3 1
    0 0 0x50000000, get_some (by decide +kernel), by decide +kernel⟩, ⟨onCore0 [(1, 8)] [], 0, 0, 5, iw 7 6 3 1 0 0 0x20000000,
    by decide +kernel⟩, ⟨onCtl [(1, 8)] [], 5, 5, iw 7 6 3 1 0 0 0x50000000, by decide +kernel⟩⟩

theorem hyps_SmemResults :
  (∃ (s s' : State) (c t n : Nat) (w : Word), guardSp s c t [(smemAddr s (.thread c t) w % spSize, 8)] [] = .ok s' ∧ Issues rowSmemLoad s
    (.thread c t) n w ∧ spPoisoned (getCore s' c) (smemAddr s (.thread c t) w % spSize) 8 = false) ∧
  (∃ (s : State) (m n : Nat) (w v : Word), Issues rowSmemLoad s (.ctl m) n w ∧ (threadOf s (.ctl m)).woken = none ∧ windowLoad s n
    (smemAddr s (.ctl m) w) = some (.ok v)) ∧
  (∃ (s : State) (m n v : Nat) (w : Word), Issues rowSmemLoad s (.ctl m) n w ∧ (threadOf s (.ctl m)).woken = some v ∧ v < smemPoison) ∧
  (∃ (s s' : State) (c t n : Nat) (w : Word), guardSp s c t [] [(smemAddr s (.thread c t) w % spSize, 8)] = .ok s' ∧ Issues rowSmemStore
    s (.thread c t) n w ∧ hitsCode (getCore s c) (smemAddr s (.thread c t) w % spSize) 8 = false) ∧
  (∃ (s : State) (m n pa : Nat) (w : Word), translate s n (smemAddr s (.ctl m) w) true = .ok pa ∧ Issues rowSmemStore s (.ctl m) n w ∧
    windowStore s n (smemAddr s (.ctl m) w) (sOf s (.ctl m) (iSrc2 w)) = none) ∧
  (∃ (s : State) (m n : Nat) (w : Word), Issues rowSmemStore s (.ctl m) n w ∧ smemAddr s (.ctl m) w = winNotify ∧ fld (sOf s (.ctl m)
    (iSrc2 w)) 63 11 = 0 ∧ fld (sOf s (.ctl m) (iSrc2 w)) 10 0 < (partEntry s (getCtx s n).part).vecCount) :=
  ⟨⟨onCore0 [(1, 0x1FFFF8)] [], _, 0, 0, 5, iw 7 3 3 1 0 0 0, ok_state (by decide +kernel), by decide +kernel⟩, ⟨onCtl [(1,
    0xFFFFFE020000)] [], 5, 5, iw 7 3 3 1 0 0 0, 0, by decide +kernel⟩,
    ⟨{ onCtl [(1, 0x1000)] [] with ctxs := [(5, { ctx [] [] with ctl := { Control.reset with thr := { thr [(1, 0x1000)] with woken := some 9 } } })] },
    5, 5, 9, iw 7 3 3 1 0 0 0, by decide +kernel⟩, ⟨onCore0 [(1, 0x1FFFF8), (2, 77)] [], _, 0, 0, 5, iw 7 3 0 1 2 0 0x80000000, ok_state
    (by decide +kernel), by decide +kernel⟩, ⟨onCtl [(1, 0x1000), (2, 77)] [], 5, 5, _, iw 7 3 0 1 2 0 0x80000000, ok_val
    (by decide +kernel), by decide +kernel⟩, ⟨onCtl [(1, 0xFFFFFE020000), (2, 7)] [], 5, 5, iw 7 3 0 1 2 0 0x80000000,
    by decide +kernel⟩⟩

theorem hyps_FlowAndControl :
  (∃ (s : State) (c t n : Nat) (w : Word), Issues (rowFlow 0 true false) s (.thread c t) n w) ∧
  (∃ (s : State) (m n : Nat) (w : Word), Issues (rowFlow 1 false true) s (.ctl m) n w) ∧
  (∃ (s : State) (a : Agent) (n : Nat) (w : Word), Issues (rowFlow 2 true true) s a n w) ∧
  (∃ (s : State) (a : Agent) (n : Nat) (w : Word), ctxOf s a = some n ∧ canIssue s a n = true ∧ fetchFault s a = none ∧ reservedCode w =
    true) ∧
  (∃ (s : State) (m n : Nat) (w : Word), Issues rowSumarm s (.ctl m) n w ∧ fld (sOf s (.ctl m) (iSrc1 w)) 58 57 = 0 ∧ fld (sOf s (.ctl m)
    (iSrc1 w)) 52 32 = 0 ∧ isSumKind (fld (sOf s (.ctl m) (iSrc1 w)) 63 60) = true ∧ (tget MailSlot.reset (getCtx s n).mail (mailKey (fld
    (sOf s (.ctl m) (iSrc1 w)) 56 53) (fld (sOf s (.ctl m) (iSrc1 w)) 59 59))).armed = none) ∧
  (∃ (s : State) (m n : Nat) (w v low : Word) (rest : List (Word × Word)), Issues rowSumget s (.ctl m) n w ∧ (tget MailSlot.reset (getCtx
    s n).mail (mailKey (bits (iImm w) 3 0) (bits (iImm w) 4 4))).results = (v, low) :: rest) ∧
  (∃ (s : State) (m n : Nat) (w : Word), Issues rowLoadp s (.ctl m) n w ∧ (threadOf s (.ctl m)).woken = some 0) ∧
  (∃ (s : State) (m n c : Nat) (w : Word), Issues rowLoadp s (.ctl m) n w ∧ (threadOf s (.ctl m)).woken = none ∧ (sOf s (.ctl m) (iSrc1
    w)).toNat % 256 = 0 ∧ bits (iImm w) 10 0 = 1 ∧ (sOf s (.ctl m) (iSrc2 w)).toNat = c ∧ c ∈ (getCtx s n).coreset) ∧
  (∃ (s : State) (m n k : Nat) (w : Word), Issues rowCores s (.ctl m) n w ∧ (threadOf s (.ctl m)).woken = some k) ∧
  (∃ (s : State) (m n : Nat) (w : Word), Issues rowCores s (.ctl m) n w ∧ (threadOf s (.ctl m)).woken = none) :=
  ⟨⟨onCore0 [] [], 0, 0, 5, iw 7 5 0 0 0 0 0, by decide +kernel⟩, ⟨onCtl [] [], 5, 5, iw 7 5 0 0 0 0 0x20000000, by decide +kernel⟩,
    ⟨onCore0 [] [], t0, 5, iw 7 5 0 0 0 0 0x40000000, by decide +kernel⟩, ⟨onCore0 [] [], t0, 5, iw 7 5 0 0 0 0 0xE0000000,
    by decide +kernel⟩, ⟨onCtl [(1, 0x1000000000000001)] [], 5, 5, iw 7 7 0 1 0 0 0x20000000, by decide +kernel⟩, ⟨on (core [] [])
    { ctx [] [] with mail := [(mailKey 3 0, { MailSlot.reset with results := [(7, 8)] })] }, 5, 5, iw 7 7 3 0 4 0 0x40000003, 7, 8, [],
    by decide +kernel⟩, ⟨woke 0 [], 5, 5, iw 7 7 3 1 2 0 1, by decide +kernel⟩, ⟨onCtl [(1, 0x1000)] [], 5, 5, 0, iw 7 7 3 1 2 0 1,
    by decide +kernel⟩, ⟨woke 2 [(1, 2)], 5, 5, 2, iw 7 7 3 1 0 0 0x60000000, by decide +kernel⟩, ⟨onCtl [(1, 2)] [], 5, 5, iw 7 7 3 1 0
    0 0x60000000, by decide +kernel⟩⟩

theorem hyps_AgsetRule :
  (∃ (s : State) (c t n : Nat) (w v : Word), sOf s (.thread c t) (iSrc1 w) = v ∧ Issues rowAgset s (.thread c t) n w ∧ fld v 63 62 = 0 ∧
    fld v 35 21 = 0 ∧ (getAg (getCore s c) (iDst w)).isOpen = false) ∧
  (∃ (s : State) (c t n : Nat) (w v : Word), sOf s (.thread c t) (iSrc1 w) = v ∧ Issues rowAgset s (.thread c t) n w ∧ (fld v 63 62 ≠ 0 ∨
    fld v 35 21 ≠ 0 ∨ (getAg (getCore s c) (iDst w)).isOpen = true)) ∧
  (∃ (s : State) (c t n : Nat) (w : Word), Reaches rowAgset s (.thread c t) n w ∧ iImm w ≠ 0) :=
  ⟨⟨onCore0 [(1, 0x0010010000010000)] [], 0, 0, 5, iw 0 1 2 1 0 0 0, _, rfl, by decide +kernel⟩, ⟨onGrp (grp 1 1) [(1,
    0x0010010000010000)] [], 0, 0, 5, iw 0 1 2 1 0 0 0, _, rfl, by decide +kernel⟩, ⟨onCore0 [] [], 0, 0, 5, iw 0 1 2 1 0 0 1,
    by decide +kernel⟩⟩

theorem hyps_GroupResults :
  (∃ (s : State) (c t n : Nat) (w : Word), Issues rowAgopen s (.thread c t) n w ∧ (getAg (getCore s c) (iDst w)).isOpen = false ∧
    agAreaOk (getCore s c) (getAg (getCore s c) (iDst w)) = true ∧ bit (iImm w) 0 = false) ∧
  (∃ (s s' : State) (c t n : Nat) (w : Word), guardSp s c t [] [(getAg (getCore s c) (iDst w)).area] = .ok s' ∧ Issues rowAgopen s
    (.thread c t) n w ∧ (getAg (getCore s c) (iDst w)).isOpen = false ∧ agAreaOk (getCore s c) (getAg (getCore s c) (iDst w)) = true ∧
    bit (iImm w) 0 = true ∧ (getAg (getCore s c) (iDst w)).area.2 ≠ 0) ∧
  (∃ (s s' : State) (c t n : Nat) (w : Word) (o : Tile) (g : AccGroup), getAg (getCore s c) (iSrc1 w) = g ∧ tileFor (getCtx s
    n).num.s5emu (getCore s c) (dOf s (.thread c t) (iDst w)) = some o ∧ guardSp s c t [g.area] o.runs = .ok s' ∧ Issues rowAgout s
    (.thread c t) n w ∧ bits (iImm w) 31 30 = 0 ∧ rndOk (getCtx s n).num.s5emu (bits (iImm w) 27 25) = true ∧ g.isOpen = true ∧ o.rows =
    g.rows ∧ o.cols = g.cols ∧ o.fmt ≠ 0 ∧ o.fmt ≠ 0xC ∧ 0 < g.rows ∧ 0 < g.cols ∧ runsHit o.runs [g.area] = false) ∧
  (∃ (s s' : State) (c t n : Nat) (w : Word) (o e : Tile) (g : AccGroup), getAg (getCore s c) (iSrc1 w) = g ∧ tileFor (getCtx s
    n).num.s5emu (getCore s c) (dOf s (.thread c t) (iDst w)) = some o ∧ tileFor (getCtx s n).num.s5emu (getCore s c) (dOf s (.thread c
    t) (iSrc2 w)) = some e ∧ guardSp s c t (g.area :: e.runs) o.runs = .ok s' ∧ Issues rowAgout s (.thread c t) n w ∧ bits (iImm w) 31 30
    ≠ 0 ∧ rndOk (getCtx s n).num.s5emu (bits (iImm w) 27 25) = true ∧ (e.rows, e.cols) = bcShape (bits (iImm w) 29 28) g.rows g.cols ∧
    (g.acc = 1 → isIntF o.fmt = false) ∧ g.isOpen = true ∧ o.rows = g.rows ∧ o.cols = g.cols ∧ o.fmt ≠ 0 ∧ o.fmt ≠ 0xC ∧ 0 < g.rows ∧ 0 <
    g.cols ∧ runsHit o.runs (g.area :: e.runs) = false) :=
  ⟨⟨onGrp { grp 2 2 with isOpen := false } [] [], 0, 0, 5, iw 0 2 2 0 0 0 0, by decide +kernel⟩, ⟨onGrp { grp 2 2 with isOpen := false }
    [] [], _, 0, 0, 5, iw 0 2 2 0 0 0 1, ok_state (by decide +kernel), by decide +kernel⟩, ⟨onGrp (grp 2 2) [] [(1, tileD 1 2 2 0x1000),
    (3, tileD 1 2 2 0x2000), (4, tileD 1 2 1 0x3000), (6, tileD 1 2 2 0x4000)], _, 0, 0, 5, iw 0 3 1 2 0 0 0, _, _, rfl, get_some
    (by decide +kernel), ok_state (by decide +kernel), by decide +kernel⟩, ⟨onGrp (grp 2 2) [] [(1, tileD 1 2 2 0x1000), (3, tileD 1 2 2
    0x2000), (4, tileD 1 2 1 0x3000), (6, tileD 1 2 2 0x4000)], _, 0, 0, 5, iw 0 3 1 2 3 0 0x40000000, _, _, _, rfl, get_some
    (by decide +kernel), get_some (by decide +kernel), ok_state (by decide +kernel), by decide +kernel⟩⟩

theorem hyps_MatrixResults :
  (∃ (s s' : State) (c t n : Nat) (w : Word) (ta tb : Tile) (g : AccGroup), getAg (getCore s c) (iDst w) = g ∧ tileFor (getCtx s
    n).num.s5emu (getCore s c) (dOf s (.thread c t) (iSrc1 w)) = some ta ∧ tileFor (getCtx s n).num.s5emu (getCore s c) (dOf s (.thread c
    t) (iSrc2 w)) = some tb ∧ guardSp s c t (g.area :: (ta.runs ++ tb.runs)) [g.area] = .ok s' ∧ Issues rowMma s (.thread c t) n w ∧
    g.isOpen = true ∧ g.acc = b2n (intClass (bits (iImm w) 31 29)) ∧ classFits (bits (iImm w) 31 29) ta.fmt tb.fmt = true ∧ ta.cols =
    tb.cols ∧ g.rows = ta.rows ∧ g.cols = tb.rows ∧ 0 < ta.rows ∧ 0 < tb.rows ∧ 0 < ta.cols ∧ runsHit (ta.runs ++ tb.runs) [g.area] =
    false) ∧
  (∃ (s s' : State) (c t n : Nat) (w e pos : Word) (q : AttsArgs) (tq tk : Tile) (g : AccGroup), getAg (getCore s c) (iDst w) = g ∧
    codeWord (getCore s c) (iImm w) = e ∧ sOf s (.thread c t) (iSrc3 w) = pos ∧ attsArgs e pos = q ∧ tileFor (getCtx s n).num.s5emu
    (getCore s c) (dOf s (.thread c t) (iSrc1 w)) = some tq ∧ tileFor (getCtx s n).num.s5emu (getCore s c) (dOf s (.thread c t) (iSrc2
    w)) = some tk ∧ guardSp s c t (g.area :: (tq.runs ++ tk.runs)) [g.area] = .ok s' ∧ Issues rowAtts s (.thread c t) n w ∧ fld e 16 0 =
    0 ∧ isFloat tq.fmt = true ∧ isFloat tk.fmt = true ∧ g.isOpen = true ∧ g.acc = 0 ∧ tq.cols = tk.cols ∧ tq.rows = g.rows ∧ q.col0 +
    tk.rows ≤ g.cols ∧ 0 < tq.rows ∧ 0 < tk.rows ∧ 0 < tq.cols ∧ runsHit (tq.runs ++ tk.runs) [g.area] = false) ∧
  (∃ (s s' : State) (c t n : Nat) (w : Word) (tp tv : Tile) (g : AccGroup), getAg (getCore s c) (iDst w) = g ∧ tileFor (getCtx s
    n).num.s5emu (getCore s c) (dOf s (.thread c t) (iSrc1 w)) = some tp ∧ tileFor (getCtx s n).num.s5emu (getCore s c) (dOf s (.thread c
    t) (iSrc2 w)) = some tv ∧ guardSp s c t (g.area :: (tp.runs ++ tv.runs)) [g.area] = .ok s' ∧ Issues rowAttv s (.thread c t) n w ∧ bit
    (iImm w) 0 = false ∧ isFloat tp.fmt = true ∧ isFloat tv.fmt = true ∧ g.isOpen = true ∧ g.acc = 0 ∧ tp.cols = tv.rows ∧ g.rows =
    tp.rows ∧ g.cols = tv.cols ∧ 0 < tp.rows ∧ 0 < tp.cols ∧ 0 < tv.cols ∧ runsHit (tp.runs ++ tv.runs) [g.area] = false) ∧
  (∃ (s s' : State) (c t n : Nat) (w : Word) (tp tv tf : Tile) (g : AccGroup), getAg (getCore s c) (iDst w) = g ∧ tileFor (getCtx s
    n).num.s5emu (getCore s c) (dOf s (.thread c t) (iSrc1 w)) = some tp ∧ tileFor (getCtx s n).num.s5emu (getCore s c) (dOf s (.thread c
    t) (iSrc2 w)) = some tv ∧ tileFor (getCtx s n).num.s5emu (getCore s c) (dOf s (.thread c t) (iSrc3 w)) = some tf ∧ guardSp s c t
    (g.area :: (tp.runs ++ tv.runs ++ tf.runs)) [g.area] = .ok s' ∧ Issues rowAttv s (.thread c t) n w ∧ bit (iImm w) 0 = true ∧ tf.fmt =
    1 ∧ tf.rows = tp.rows ∧ tf.cols = 1 ∧ isFloat tp.fmt = true ∧ isFloat tv.fmt = true ∧ g.isOpen = true ∧ g.acc = 0 ∧ tp.cols = tv.rows
    ∧ g.rows = tp.rows ∧ g.cols = tv.cols ∧ 0 < tp.rows ∧ 0 < tp.cols ∧ 0 < tv.cols ∧ runsHit (tp.runs ++ tv.runs ++ tf.runs) [g.area] =
    false) ∧
  (∃ (s : State) (c t n : Nat) (w : Word) (ta tb : Tile), tileFor (getCtx s n).num.s5emu (getCore s c) (dOf s (.thread c t) (iSrc1 w)) =
    some ta ∧ tileFor (getCtx s n).num.s5emu (getCore s c) (dOf s (.thread c t) (iSrc2 w)) = some tb ∧ Issues rowMma s (.thread c t) n w
    ∧ ((getAg (getCore s c) (iDst w)).isOpen = false ∨ classFits (bits (iImm w) 31 29) ta.fmt tb.fmt = false ∨ ta.cols ≠ tb.cols)) :=
  ⟨⟨onGrp (grp 2 2) [] [(1, tileD 1 2 2 0x1000), (3, tileD 1 2 2 0x2000), (4, tileD 1 2 1 0x3000), (6, tileD 1 2 2 0x4000)], _, 0, 0, 5,
    iw 0 0 2 1 3 0 0x60000000, _, _, _, rfl, get_some (by decide +kernel), get_some (by decide +kernel), ok_state (by decide +kernel),
    by decide +kernel⟩, ⟨onGrp (grp 2 2) [] [(1, tileD 1 2 2 0x1000), (3, tileD 1 2 2 0x2000), (4, tileD 1 2 1 0x3000), (6, tileD 1 2 2
    0x4000)], _, 0, 0, 5, iw 0 4 2 1 3 7 0 ||| extBit, _, _, _, _, _, _, rfl, rfl, rfl, rfl, get_some (by decide +kernel), get_some
    (by decide +kernel), ok_state (by decide +kernel), by decide +kernel⟩, ⟨onGrp (grp 2 2) [] [(1, tileD 1 2 2 0x1000), (3, tileD 1 2 2
    0x2000), (4, tileD 1 2 1 0x3000), (6, tileD 1 2 2 0x4000)], _, 0, 0, 5, iw 0 5 2 1 3 0 0, _, _, _, rfl, get_some (by decide +kernel),
    get_some (by decide +kernel), ok_state (by decide +kernel), by decide +kernel⟩, ⟨onGrp (grp 2 2) [] [(1, tileD 1 2 2 0x1000), (3,
    tileD 1 2 2 0x2000), (4, tileD 1 2 1 0x3000), (6, tileD 1 2 2 0x4000)], _, 0, 0, 5, iw 0 5 2 1 3 4 1, _, _, _, _, rfl, get_some
    (by decide +kernel), get_some (by decide +kernel), get_some (by decide +kernel), ok_state (by decide +kernel), by decide +kernel⟩,
    ⟨onGrp { grp 2 2 with isOpen := false } [] [(1, tileD 1 2 2 0x1000), (3, tileD 1 2 2 0x2000), (4, tileD 1 2 1 0x3000), (6, tileD 1 2
    2 0x4000)], 0, 0, 5, iw 0 0 2 1 3 0 0, _, _, get_some (by decide +kernel), get_some (by decide +kernel), by decide +kernel⟩⟩

theorem hyps_ShadowBlocks :
  (∃ (s : State) (c n : Nat) (p : Sample), (getCore s c).sample = some p ∧ (getCore s c).owner = some n ∧ coreRuns s c = true ∧ ((getCtx
    s n).num.shAlertEn = false ∨ sampleBin p < (getCtx s n).num.shAlertBin)) ∧
  (∃ (s : State) (c n : Nat) (p : Sample), (getCore s c).sample = some p ∧ (getCore s c).owner = some n ∧ coreRuns s c = true ∧ (getCtx s
    n).num.shAlertEn = true ∧ (getCtx s n).num.shAlertBin ≤ sampleBin p ∧ 0 < (getCore s c).sumCredit) ∧
  (∃ (m r : FVal), FVal.cmp m r = some 0) ∧
  (∃ (m r : FVal), m.isNan = true ∧ r.isNan = true) ∧
  (∃ (m r : FVal), m.isNan = true ∧ r.isNan = false) ∧
  (∃ (d e : Nat), d ≤ e) :=
  ⟨⟨on { core [] [] with sample := some (samp 0x3F800000) } (ctx [] []), 0, 5, _, get_some (by decide +kernel), by decide +kernel⟩, ⟨on
    { core [] [] with sample := some (samp 0x40000000) }
    { ctx [] [] with num := { Num.reset with shEnable := true, shAlertEn := true, shAlertBin := 1 } }, 0, 5, _, get_some
    (by decide +kernel), by decide +kernel⟩, ⟨FVal.inf true, FVal.inf true, by decide +kernel⟩, ⟨FVal.nan, FVal.nan, by decide +kernel⟩,
    ⟨FVal.nan, FVal.inf true, by decide +kernel⟩, ⟨3, 5, by decide +kernel⟩⟩

theorem hyps_VectorResults :
  (∃ (s s' : State) (c t n : Nat) (w : Word) (o ta : Tile) (tb tc : Option Tile) (q : VArgs) (r : State × Bool), tileFor (getCtx s
    n).num.s5emu (getCore s c) (dOf s (.thread c t) (iDst w)) = some o ∧ tileFor (getCtx s n).num.s5emu (getCore s c) (dOf s (.thread c
    t) (iSrc1 w)) = some ta ∧ (if unaryFn (bits (iImm w) 31 26) || bits (iImm w) 21 20 == 3 then some none else (tileFor (getCtx s
    n).num.s5emu (getCore s c) (dOf s (.thread c t) (iSrc2 w))).map some) = some tb ∧ (if usesC (bits (iImm w) 31 26) then (tileFor
    (getCtx s n).num.s5emu (getCore s c) (dOf s (.thread c t) (iSrc3 w))).map some else some none) = some tc ∧
    ({ fn := bits (iImm w) 31 26, bc := bits (iImm w) 21 20, scalar := (sOf s (.thread c t) (iSrc2 w)).toNat, fmt := o.fmt, emu := (getCtx s n).num.s5emu }
    : VArgs) = q ∧ guardSp s c t (tileRuns (VTiles.list { a := ta, b := tb, c := tc })) o.runs = .ok s' ∧ putTile s' c (rndCfg s'
    (.thread c t) n c w (bits (iImm w) 25 23) (bit (iImm w) 22)) o (fun _ _ => none) (gridOf o.rows o.cols (vfnElem (getCore s' c) q
    { a := ta, b := tb, c := tc })) = r ∧ Issues rowVfn s (.thread c t) n w ∧ rndOk (getCtx s n).num.s5emu (bits (iImm w) 25 23) = true ∧
    vfnOk q { a := ta, b := tb, c := tc } o = true ∧ 0 < o.rows ∧ 0 < o.cols) ∧
  (∃ (s s' : State) (c t n : Nat) (w : Word) (o ta : Tile) (use : Bool) (r : State × Bool), tileFor (getCtx s n).num.s5emu (getCore s c)
    (dOf s (.thread c t) (iDst w)) = some o ∧ tileFor (getCtx s n).num.s5emu (getCore s c) (dOf s (.thread c t) (iSrc1 w)) = some ta ∧
    (bits (iImm w) 15 14 == 1 && o.fmt != ta.fmt) = use ∧ guardSp s c t (ta.runs ++ (if use then o.runs else [])) o.runs = .ok s' ∧ (if
    o.fmt = ta.fmt then (setCore s' c (cvtCopy (getCore s' c) ta o).1, (cvtCopy (getCore s' c) ta o).2) else putTile s' c (rndCfg s'
    (.thread c t) n c w (bits (iImm w) 23 21) (bit (iImm w) 20)) o (presentScale (getCore s' c) o use) (gridOf o.rows o.cols (cvtElem
    (getCtx s n).num.s5emu (getCore s' c) ta o use))) = r ∧ Issues rowCvt s (.thread c t) n w ∧ rndOk (getCtx s n).num.s5emu (bits (iImm
    w) 23 21) = true ∧ o.fmt = bits (iImm w) 31 28 ∧ ta.fmt = bits (iImm w) 27 24 ∧ o.fmt ≠ 0 ∧ o.fmt ≠ 0xC ∧ ta.fmt ≠ 0 ∧ ta.fmt ≠ 0xC ∧
    ta.rows = o.rows ∧ ta.cols = o.cols ∧ outClear o [ta] = true ∧ 0 < o.rows ∧ 0 < o.cols) ∧
  (∃ (s s' : State) (c t n : Nat) (w : Word) (o : Option Tile) (ta : Tile) (r : State × Bool), (if bit (iImm w) 19 then some none else
    (tileFor (getCtx s n).num.s5emu (getCore s c) (dOf s (.thread c t) (iDst w))).map some) = some o ∧ tileFor (getCtx s n).num.s5emu
    (getCore s c) (dOf s (.thread c t) (iSrc1 w)) = some ta ∧ guardSp s c t ta.runs (match o with | none => [] | some u => u.runs) = .ok
    s' ∧ vredRun s' c (getCtx s n).num.s5emu (iImm w) ta o = r ∧ (∀ u, o = some u → u.fmt = redFmt (bits (iImm w) 31 28) ta.fmt ∧
    (u.rows, u.cols) = redShape (bits (iImm w) 27 26) ta.rows ta.cols ∧ outClear u [ta] = true) ∧ Issues rowVred s (.thread c t) n w ∧
    (bit (iImm w) 25 = true → 0 < (getCore s c).sumCredit) ∧ (8 ≤ bits (iImm w) 31 28 → bits (iImm w) 31 28 ≤ 0xA → isIntF ta.fmt = true
    ∨ ta.fmt = 0) ∧ 0 < ta.rows ∧ 0 < ta.cols) ∧
  (∃ (s s' : State) (c t n : Nat) (w : Word) (o ta : Tile) (tb : Option Tile) (rows : List (List OutElem)), tileFor (getCtx s
    n).num.s5emu (getCore s c) (dOf s (.thread c t) (iDst w)) = some o ∧ tileFor (getCtx s n).num.s5emu (getCore s c) (dOf s (.thread c
    t) (iSrc1 w)) = some ta ∧ (if bits (iImm w) 28 27 = 3 then some none else (tileFor (getCtx s n).num.s5emu (getCore s c) (dOf s
    (.thread c t) (iSrc2 w))).map some) = some tb ∧ guardSp s c t (tileRuns (ta :: tb.toList)) o.runs = .ok s' ∧ gridOf o.rows o.cols
    (vcmpElem (getCtx s n).num.s5emu (getCore s' c) (bits (iImm w) 31 29) (bits (iImm w) 28 27) (sOf s' (.thread c t) (iSrc2 w)).toNat ta
    tb) = rows ∧ (∀ u, tb = some u → (u.rows, u.cols) = bcShape (bits (iImm w) 28 27) o.rows o.cols) ∧ Issues rowVcmp s (.thread c t) n w
    ∧ ta.rows = o.rows ∧ ta.cols = o.cols ∧ (o.fmt = 9 ∨ o.fmt = 0) ∧ outClear o (ta :: tb.toList) = true ∧ 0 < o.rows ∧ 0 < o.cols) ∧
  (∃ (s s' : State) (c t n : Nat) (w : Word) (o : Tile) (r : List (List Nat) × Tbl Nat), tileFor false (getCore s c) (dOf s (.thread c t)
    (iDst w)) = some o ∧ guardSp s c t [] o.runs = .ok s' ∧ drawTile (rndCfg s' (.thread c t) n c w 0 false) (bit (iImm w) 29) (bits
    (iImm w) 28 25) o.rows o.cols (getCore s' c).pepper = r ∧ Issues rowPep s (.thread c t) n w ∧ (getCtx s n).num.s5emu = false ∧ o.fmt
    = (if bits (iImm w) 31 30 = 0 then 0xB else if bits (iImm w) 31 30 = 1 then 1 else 9) ∧ 0 < o.rows ∧ 0 < o.cols) ∧
  (∃ (s : State) (c t n : Nat) (w : Word) (ta tb : Tile) (g : AccGroup), getAg (getCore s c) (iDst w) = g ∧ tileFor (getCtx s
    n).num.s5emu (getCore s c) (dOf s (.thread c t) (iSrc1 w)) = some ta ∧ tileFor (getCtx s n).num.s5emu (getCore s c) (dOf s (.thread c
    t) (iSrc2 w)) = some tb ∧ Issues rowMma s (.thread c t) n w ∧ g.isOpen = true ∧ g.acc = b2n (intClass (bits (iImm w) 31 29)) ∧
    classFits (bits (iImm w) 31 29) ta.fmt tb.fmt = true ∧ ta.cols = tb.cols ∧ g.rows = ta.rows ∧ g.cols = tb.rows ∧ (ta.rows = 0 ∨
    tb.rows = 0 ∨ ta.cols = 0) ∧ runsHit (ta.runs ++ tb.runs) [g.area] = false) ∧
  (∃ (s : State) (c t n : Nat) (w : Word) (o : Tile), tileFor false (getCore s c) (dOf s (.thread c t) (iDst w)) = some o ∧ Issues rowPep
    s (.thread c t) n w ∧ (getCtx s n).num.s5emu = false ∧ o.fmt = (if bits (iImm w) 31 30 = 0 then 0xB else if bits (iImm w) 31 30 = 1
    then 1 else 9) ∧ (o.rows = 0 ∨ o.cols = 0)) ∧
  (∃ (s : State) (c t n : Nat) (w : Word) (o ta : Tile), tileFor (getCtx s n).num.s5emu (getCore s c) (dOf s (.thread c t) (iDst w)) =
    some o ∧ tileFor (getCtx s n).num.s5emu (getCore s c) (dOf s (.thread c t) (iSrc1 w)) = some ta ∧ Issues rowCvt s (.thread c t) n w ∧
    rndOk (getCtx s n).num.s5emu (bits (iImm w) 23 21) = true ∧ o.fmt = bits (iImm w) 31 28 ∧ ta.fmt = bits (iImm w) 27 24 ∧ o.fmt ≠ 0 ∧
    o.fmt ≠ 0xC ∧ ta.fmt ≠ 0 ∧ ta.fmt ≠ 0xC ∧ ta.rows = o.rows ∧ ta.cols = o.cols ∧ outClear o [ta] = true ∧ (o.rows = 0 ∨ o.cols = 0)) ∧
  (∃ (s : State) (c t n : Nat) (w : Word) (q : AttsArgs) (tq tk : Tile) (g : AccGroup), getAg (getCore s c) (iDst w) = g ∧ attsArgs
    (codeWord (getCore s c) (iImm w)) (sOf s (.thread c t) (iSrc3 w)) = q ∧ tileFor (getCtx s n).num.s5emu (getCore s c) (dOf s (.thread
    c t) (iSrc1 w)) = some tq ∧ tileFor (getCtx s n).num.s5emu (getCore s c) (dOf s (.thread c t) (iSrc2 w)) = some tk ∧ Issues rowAtts s
    (.thread c t) n w ∧ fld (codeWord (getCore s c) (iImm w)) 16 0 = 0 ∧ isFloat tq.fmt = true ∧ isFloat tk.fmt = true ∧ g.isOpen = true
    ∧ g.acc = 0 ∧ tq.cols = tk.cols ∧ tq.rows = g.rows ∧ (tk.rows ≠ 0 → q.col0 + tk.rows ≤ g.cols) ∧ (tq.rows = 0 ∨ tk.rows = 0 ∨ tq.cols
    = 0) ∧ runsHit (tq.runs ++ tk.runs) [g.area] = false) ∧
  (∃ (s : State) (c t n : Nat) (w : Word) (tp tv : Tile) (g : AccGroup), getAg (getCore s c) (iDst w) = g ∧ tileFor (getCtx s
    n).num.s5emu (getCore s c) (dOf s (.thread c t) (iSrc1 w)) = some tp ∧ tileFor (getCtx s n).num.s5emu (getCore s c) (dOf s (.thread c
    t) (iSrc2 w)) = some tv ∧ Issues rowAttv s (.thread c t) n w ∧ bit (iImm w) 0 = false ∧ isFloat tp.fmt = true ∧ isFloat tv.fmt = true
    ∧ g.isOpen = true ∧ g.acc = 0 ∧ tp.cols = tv.rows ∧ g.rows = tp.rows ∧ g.cols = tv.cols ∧ (tp.rows = 0 ∨ tp.cols = 0 ∨ tv.cols = 0) ∧
    runsHit (tp.runs ++ tv.runs) [g.area] = false) ∧
  (∃ (s : State) (c t n : Nat) (w : Word) (tp tv tf : Tile) (g : AccGroup), getAg (getCore s c) (iDst w) = g ∧ tileFor (getCtx s
    n).num.s5emu (getCore s c) (dOf s (.thread c t) (iSrc1 w)) = some tp ∧ tileFor (getCtx s n).num.s5emu (getCore s c) (dOf s (.thread c
    t) (iSrc2 w)) = some tv ∧ tileFor (getCtx s n).num.s5emu (getCore s c) (dOf s (.thread c t) (iSrc3 w)) = some tf ∧ Issues rowAttv s
    (.thread c t) n w ∧ bit (iImm w) 0 = true ∧ tf.fmt = 1 ∧ tf.rows = tp.rows ∧ tf.cols = 1 ∧ isFloat tp.fmt = true ∧ isFloat tv.fmt =
    true ∧ g.isOpen = true ∧ g.acc = 0 ∧ tp.cols = tv.rows ∧ g.rows = tp.rows ∧ g.cols = tv.cols ∧ (tp.rows = 0 ∨ tp.cols = 0 ∨ tv.cols =
    0) ∧ runsHit (tp.runs ++ tv.runs ++ tf.runs) [g.area] = false) ∧
  (∃ (s : State) (c t n : Nat) (w : Word) (o ta : Tile) (tb tc : Option Tile), tileFor (getCtx s n).num.s5emu (getCore s c) (dOf s
    (.thread c t) (iDst w)) = some o ∧ tileFor (getCtx s n).num.s5emu (getCore s c) (dOf s (.thread c t) (iSrc1 w)) = some ta ∧ (if
    unaryFn (bits (iImm w) 31 26) || bits (iImm w) 21 20 == 3 then some none else (tileFor (getCtx s n).num.s5emu (getCore s c) (dOf s
    (.thread c t) (iSrc2 w))).map some) = some tb ∧ (if usesC (bits (iImm w) 31 26) then (tileFor (getCtx s n).num.s5emu (getCore s c)
    (dOf s (.thread c t) (iSrc3 w))).map some else some none) = some tc ∧ Issues rowVfn s (.thread c t) n w ∧ rndOk (getCtx s
    n).num.s5emu (bits (iImm w) 25 23) = true ∧ vfnOk
    { fn := bits (iImm w) 31 26, bc := bits (iImm w) 21 20, scalar := (sOf s (.thread c t) (iSrc2 w)).toNat, fmt := o.fmt, emu := (getCtx s n).num.s5emu }
    { a := ta, b := tb, c := tc } o = true ∧ (o.rows = 0 ∨ o.cols = 0)) ∧
  (∃ (s : State) (c t n : Nat) (w : Word) (o : Option Tile) (ta : Tile), (if bit (iImm w) 19 then some none else (tileFor (getCtx s
    n).num.s5emu (getCore s c) (dOf s (.thread c t) (iDst w))).map some) = some o ∧ tileFor (getCtx s n).num.s5emu (getCore s c) (dOf s
    (.thread c t) (iSrc1 w)) = some ta ∧ (∀ u, o = some u → u.fmt = redFmt (bits (iImm w) 31 28) ta.fmt ∧ (u.rows, u.cols) = redShape
    (bits (iImm w) 27 26) ta.rows ta.cols ∧ outClear u [ta] = true) ∧ Issues rowVred s (.thread c t) n w ∧ (bit (iImm w) 25 = true → 0 <
    (getCore s c).sumCredit) ∧ (8 ≤ bits (iImm w) 31 28 → bits (iImm w) 31 28 ≤ 0xA → isIntF ta.fmt = true ∨ ta.fmt = 0) ∧ (ta.rows = 0 ∨
    ta.cols = 0)) ∧
  (∃ (s : State) (c t n : Nat) (w : Word) (o ta : Tile) (tb : Option Tile), tileFor (getCtx s n).num.s5emu (getCore s c) (dOf s (.thread
    c t) (iDst w)) = some o ∧ tileFor (getCtx s n).num.s5emu (getCore s c) (dOf s (.thread c t) (iSrc1 w)) = some ta ∧ (if bits (iImm w)
    28 27 = 3 then some none else (tileFor (getCtx s n).num.s5emu (getCore s c) (dOf s (.thread c t) (iSrc2 w))).map some) = some tb ∧ (∀
    u, tb = some u → (u.rows, u.cols) = bcShape (bits (iImm w) 28 27) o.rows o.cols) ∧ Issues rowVcmp s (.thread c t) n w ∧ ta.rows =
    o.rows ∧ ta.cols = o.cols ∧ (o.fmt = 9 ∨ o.fmt = 0) ∧ outClear o (ta :: tb.toList) = true ∧ (o.rows = 0 ∨ o.cols = 0)) :=
  ⟨⟨on (coreP [] [(1, tileD 1 2 2 0x1000), (3, tileD 1 2 2 0x2000), (4, tileD 1 2 1 0x3000), (5, tileD 2 2 2 0x4000), (6, tileD 1 2 2
    0x5000), (7, tileD 9 2 2 0x6000), (8, tileD 1 0 2 0x7000), (9, tileD 2 0 2 0x8000)]) (ctx [] []), _, 0, 0, 5, iw 1 0 3 1 6 0 0, _, _,
    _, _, _, _, get_some (by decide +kernel), get_some (by decide +kernel), get_some (by decide +kernel), get_some (by decide +kernel),
    rfl, ok_state (by decide +kernel), rfl, by decide +kernel⟩, ⟨on (coreP [] [(1, tileD 1 2 2 0x1000), (3, tileD 1 2 2 0x2000), (4,
    tileD 1 2 1 0x3000), (5, tileD 2 2 2 0x4000), (6, tileD 1 2 2 0x5000), (7, tileD 9 2 2 0x6000), (8, tileD 1 0 2 0x7000), (9, tileD 2
    0 2 0x8000)]) (ctx [] []), _, 0, 0, 5, iw 1 1 5 1 0 0 0x21000000, _, _, _, _, get_some (by decide +kernel), get_some
    (by decide +kernel), rfl, ok_state (by decide +kernel), rfl, by decide +kernel⟩, ⟨on (coreP [] [(1, tileD 1 2 2 0x1000), (3, tileD 1
    2 2 0x2000), (4, tileD 1 2 1 0x3000), (5, tileD 2 2 2 0x4000), (6, tileD 1 2 2 0x5000), (7, tileD 9 2 2 0x6000), (8, tileD 1 0 2
    0x7000), (9, tileD 2 0 2 0x8000)]) (ctx [] []), _, 0, 0, 5, iw 1 2 4 1 0 0 0, _, _, _, get_some (by decide +kernel), get_some
    (by decide +kernel), ok_state (by decide +kernel), rfl, of_opt (by decide +kernel), by decide +kernel⟩, ⟨on (coreP [] [(1, tileD 1 2
    2 0x1000), (3, tileD 1 2 2 0x2000), (4, tileD 1 2 1 0x3000), (5, tileD 2 2 2 0x4000), (6, tileD 1 2 2 0x5000), (7, tileD 9 2 2
    0x6000), (8, tileD 1 0 2 0x7000), (9, tileD 2 0 2 0x8000)]) (ctx [] []), _, 0, 0, 5, iw 1 3 7 1 6 0 0, _, _, _, _, get_some
    (by decide +kernel), get_some (by decide +kernel), get_some (by decide +kernel), ok_state (by decide +kernel), rfl, of_opt
    (by decide +kernel), by decide +kernel⟩, ⟨on (coreP [] [(1, tileD 1 2 2 0x1000), (3, tileD 1 2 2 0x2000), (4, tileD 1 2 1 0x3000),
    (5, tileD 2 2 2 0x4000), (6, tileD 1 2 2 0x5000), (7, tileD 9 2 2 0x6000), (8, tileD 1 0 2 0x7000), (9, tileD 2 0 2 0x8000)]) (ctx []
    []), _, 0, 0, 5, iw 1 4 3 0 0 0 0x40000000, _, _, get_some (by decide +kernel), ok_state (by decide +kernel), rfl,
    by decide +kernel⟩, ⟨onGrp (grp 0 2) [] [(1, tileD 1 2 2 0x1000), (3, tileD 1 2 2 0x2000), (4, tileD 1 2 1 0x3000), (5, tileD 2 2 2
    0x4000), (6, tileD 1 2 2 0x5000), (7, tileD 9 2 2 0x6000), (8, tileD 1 0 2 0x7000), (9, tileD 2 0 2 0x8000)], 0, 0, 5, iw 0 0 2 8 3 0
    0x60000000, _, _, _, rfl, get_some (by decide +kernel), get_some (by decide +kernel), by decide +kernel⟩, ⟨on (coreP [] [(1, tileD 1
    2 2 0x1000), (3, tileD 1 2 2 0x2000), (4, tileD 1 2 1 0x3000), (5, tileD 2 2 2 0x4000), (6, tileD 1 2 2 0x5000), (7, tileD 9 2 2
    0x6000), (8, tileD 1 0 2 0x7000), (9, tileD 2 0 2 0x8000)]) (ctx [] []), 0, 0, 5, iw 1 4 8 0 0 0 0x40000000, _, get_some
    (by decide +kernel), by decide +kernel⟩, ⟨on (coreP [] [(1, tileD 1 2 2 0x1000), (3, tileD 1 2 2 0x2000), (4, tileD 1 2 1 0x3000),
    (5, tileD 2 2 2 0x4000), (6, tileD 1 2 2 0x5000), (7, tileD 9 2 2 0x6000), (8, tileD 1 0 2 0x7000), (9, tileD 2 0 2 0x8000)]) (ctx []
    []), 0, 0, 5, iw 1 1 9 8 0 0 0x21000000, _, _, get_some (by decide +kernel), get_some (by decide +kernel), by decide +kernel⟩, ⟨onGrp
    (grp 0 2) [] [(1, tileD 1 2 2 0x1000), (3, tileD 1 2 2 0x2000), (8, tileD 1 0 2 0x7000), (9, tileD 9 0 2 0x8000), (10, tileD 1 0 1
    0x9000), (11, tileD 1 2 0 0xA000)], 0, 0, 5, iw 0 4 2 8 3 0 0 ||| extBit, _, _, _, _, rfl, rfl, get_some (by decide +kernel),
    get_some (by decide +kernel), by decide +kernel⟩, ⟨onGrp (grp 0 2) [] [(1, tileD 1 2 2 0x1000), (3, tileD 1 2 2 0x2000), (8, tileD 1
    0 2 0x7000), (9, tileD 9 0 2 0x8000), (10, tileD 1 0 1 0x9000), (11, tileD 1 2 0 0xA000)], 0, 0, 5, iw 0 5 2 8 3 0 0, _, _, _, rfl,
    get_some (by decide +kernel), get_some (by decide +kernel), by decide +kernel⟩, ⟨onGrp (grp 0 2) [] [(1, tileD 1 2 2 0x1000), (3,
    tileD 1 2 2 0x2000), (8, tileD 1 0 2 0x7000), (9, tileD 9 0 2 0x8000), (10, tileD 1 0 1 0x9000), (11, tileD 1 2 0 0xA000)], 0, 0, 5,
    iw 0 5 2 8 3 10 1, _, _, _, _, rfl, get_some (by decide +kernel), get_some (by decide +kernel), get_some (by decide +kernel),
    by decide +kernel⟩, ⟨on (coreP [] [(1, tileD 1 2 2 0x1000), (3, tileD 1 2 2 0x2000), (8, tileD 1 0 2 0x7000), (9, tileD 9 0 2
    0x8000), (10, tileD 1 0 1 0x9000), (11, tileD 1 2 0 0xA000)]) (ctx [] []), 0, 0, 5, iw 1 0 8 8 8 0 0, _, _, _, _, get_some
    (by decide +kernel), get_some (by decide +kernel), get_some (by decide +kernel), get_some (by decide +kernel), by decide +kernel⟩,
    ⟨on (coreP [] [(1, tileD 1 2 2 0x1000), (3, tileD 1 2 2 0x2000), (8, tileD 1 0 2 0x7000), (9, tileD 9 0 2 0x8000), (10, tileD 1 0 1
    0x9000), (11, tileD 1 2 0 0xA000)]) (ctx [] []), 0, 0, 5, iw 1 2 0 8 0 0 0x0A080000, _, _, get_some (by decide +kernel), get_some
    (by decide +kernel), of_opt (by decide +kernel), by decide +kernel⟩, ⟨on (coreP [] [(1, tileD 1 2 2 0x1000), (3, tileD 1 2 2 0x2000),
    (8, tileD 1 0 2 0x7000), (9, tileD 9 0 2 0x8000), (10, tileD 1 0 1 0x9000), (11, tileD 1 2 0 0xA000)]) (ctx [] []), 0, 0, 5, iw 1 3 9
    8 8 0 0, _, _, _, get_some (by decide +kernel), get_some (by decide +kernel), get_some (by decide +kernel), of_opt
    (by decide +kernel), by decide +kernel⟩⟩

theorem hyps_MovementResults :
  (∃ (s s' r : State) (c t n : Nat) (w : Word) (tile : Tile) (m : Tensor), tileOf (getCore s c) (dOf s (.thread c t) (iDst w)) = some
    tile ∧ tensorOf (dOf s (.thread c t) (iSrc1 w)) = some m ∧ guardSp s c t [] tile.runs = .ok s' ∧ issueReqs s' (.thread c t) c
    (cgField w) (ldtReqs s' (.thread c t) n c w tile m) = .done r ∧ Issues rowLdt s (.thread c t) n w ∧ (threadOf s (.thread c t)).woken
    = none ∧ partFits tile m (sOf s (.thread c t) (iSrc2 w)) false = true ∧ 0 < tile.rows ∧ 0 < tile.cols ∧ 0 < m.grains ∧ ldtFault s n
    ((accessGrains tile m (sOf s (.thread c t) (iSrc2 w))).map fun e => e.1) = none) ∧
  (∃ (s s' r : State) (c t n : Nat) (w : Word) (tile : Tile) (m : Tensor), tileOf (getCore s c) (dOf s (.thread c t) (iSrc1 w)) = some
    tile ∧ tensorOf (dOf s (.thread c t) (iDst w)) = some m ∧ guardSp s c t tile.runs [] = .ok s' ∧ issueReqs s' (.thread c t) c (cgField
    w) ((accessGrains tile m (sOf s' (.thread c t) (iSrc2 w))).map (sttReq s' (.thread c t) n c w tile m)) = .done r ∧ Issues rowStt s
    (.thread c t) n w ∧ (threadOf s (.thread c t)).woken = none ∧ partFits tile m (sOf s (.thread c t) (iSrc2 w)) true = true ∧ 0 <
    tile.rows ∧ 0 < tile.cols ∧ 0 < m.grains ∧ sttFault s n ((accessGrains tile m (sOf s (.thread c t) (iSrc2 w))).map fun e => e.1) =
    none) ∧
  (∃ (s : State) (a : Agent) (n : Nat) (w : Word) (src dst : Tensor), tensorOf (dOf s a (iSrc1 w)) = some src ∧ tensorOf (dOf s a (iDst
    w)) = some dst ∧ Issues rowMovt s a n w ∧ src.fmt = dst.fmt ∧ src.layout = dst.layout ∧ src.grains = dst.grains ∧ 0 < src.grains ∧
    tensorBad s n src false = none ∧ tensorBad s n dst true = none) ∧
  (∃ (s : State) (c t n v : Nat) (w : Word), Issues rowLdt s (.thread c t) n w ∧ (threadOf s (.thread c t)).woken = some v) ∧
  (∃ (s : State) (c t n v : Nat) (w : Word), Issues rowStt s (.thread c t) n w ∧ (threadOf s (.thread c t)).woken = some v) ∧
  (∃ (s : State) (c t n : Nat) (w : Word) (tile : Tile) (m : Tensor), tileOf (getCore s c) (dOf s (.thread c t) (iDst w)) = some tile ∧
    tensorOf (dOf s (.thread c t) (iSrc1 w)) = some m ∧ Issues rowLdt s (.thread c t) n w ∧ (threadOf s (.thread c t)).woken = none ∧
    partFits tile m (sOf s (.thread c t) (iSrc2 w)) false = true ∧ (tile.rows = 0 ∨ tile.cols = 0 ∨ m.grains = 0)) ∧
  (∃ (s : State) (c t n : Nat) (w : Word) (tile : Tile) (m : Tensor), tileOf (getCore s c) (dOf s (.thread c t) (iSrc1 w)) = some tile ∧
    tensorOf (dOf s (.thread c t) (iDst w)) = some m ∧ Issues rowStt s (.thread c t) n w ∧ (threadOf s (.thread c t)).woken = none ∧
    partFits tile m (sOf s (.thread c t) (iSrc2 w)) true = true ∧ (tile.rows = 0 ∨ tile.cols = 0 ∨ m.grains = 0)) ∧
  (∃ (s : State) (a : Agent) (n : Nat) (w : Word) (src dst : Tensor), tensorOf (dOf s a (iSrc1 w)) = some src ∧ tensorOf (dOf s a (iDst
    w)) = some dst ∧ Issues rowMovt s a n w ∧ src.fmt = dst.fmt ∧ src.layout = dst.layout ∧ src.grains = dst.grains ∧ src.grains = 0) ∧
  (∃ (s : State) (a : Agent) (n : Nat) (w : Word) (src dst : Tensor) (c t : Nat), tensorOf (dOf s a (iSrc1 w)) = some src ∧ tensorOf (dOf
    s a (iDst w)) = some dst ∧ Issues rowMovt s a n w ∧ (src.fmt ≠ dst.fmt ∨ src.layout ≠ dst.layout ∨ src.grains ≠ dst.grains) ∧ a =
    .thread c t) ∧
  (∃ (s : State) (a : Agent) (n : Nat) (w : Word) (k : Sched), schedOf a n w (threadOf s a).ip (threadOf s a).block (dOf s a (iSrc1 w)) =
    k ∧ Issues (rowPfs 0) s a n w ∧ pfsDescOk a (dOf s a (iSrc1 w)) = true ∧ schedsOf s a < schedLimit a ∧ k.length ≠ 0 ∧ cgField w =
    none) ∧
  (∃ (s : State) (a : Agent) (n : Nat) (w : Word), Issues (rowPfs 0) s a n w ∧ pfsDescOk a (dOf s a (iSrc1 w)) = true ∧ schedsOf s a <
    schedLimit a ∧ (schedOf a n w (threadOf s a).ip (threadOf s a).block (dOf s a (iSrc1 w))).length = 0) ∧
  (∃ (s : State) (a : Agent) (n id : Nat) (w : Word) (k : Sched), Issues (rowPfs 1) s a n w ∧ pfsDescOk a (dOf s a (iSrc1 w)) = true ∧
    cgField w = none ∧ (s.scheds.find? fun e => schedIs e.2 (schedOf a n w 0 0 (dOf s a (iSrc1 w)))) = some (id, k)) ∧
  (∃ (s : State) (a : Agent) (n : Nat) (w : Word), Issues (rowPfs 1) s a n w ∧ pfsDescOk a (dOf s a (iSrc1 w)) = true ∧ (s.scheds.find?
    fun e => schedIs e.2 (schedOf a n w 0 0 (dOf s a (iSrc1 w)))) = none) ∧
  (∃ (s s' : State) (id pa : Nat) (d : Sched) (bs : List Byte) (tag : GrainTag), tfind s.scheds id = some d ∧ translate s d.ctx d.gateVa
    false = .ok pa ∧ engineRead s d.ctx (d.gateVa / 256 * 256) = (bs, tag, s') ∧ d.gateVa ≠ 0 ∧ d.stopped = false ∧ d.started < d.length
    ∧ schedRuns s d = true ∧ reshardHolds s d.ctx d.gateVa = false ∧ windowGrain s d.ctx (d.gateVa / 256 * 256) = none ∧ tag.poison =
    false) ∧
  (∃ (s s' : State) (id src dst k gate : Nat) (d : Sched), tfind s.scheds id = some d ∧ readEntry s d = (.ok (src, dst, k, gate), s') ∧
    d.target = 1 ∧ d.stopped = false ∧ d.started < d.length ∧ d.inFlight.length ≤ d.lead ∧ schedRuns s d = true ∧ reshardHolds s d.ctx
    (d.list + 32 * d.started) = false ∧ (d.gateVa = 0 ∨ gate ≤ d.gateSeen) ∧ firstBad s' d.ctx src false k = none ∧ firstBad s' d.ctx dst
    true k = none) ∧
  (∃ (s s' : State) (id c t key off sz src dst k gate : Nat) (d : Sched), tfind s.scheds id = some d ∧ readEntry s d = (.ok (src, dst, k,
    gate), s') ∧ entrySlot s' d = some (key, off, sz) ∧ d.target = 0 ∧ d.owner = .thread c t ∧ d.stopped = false ∧ d.started < d.length ∧
    d.inFlight.length ≤ d.lead ∧ schedRuns s d = true ∧ reshardHolds s d.ctx (d.list + 32 * d.started) = false ∧ (entrySlot s d).isSome =
    true ∧ (d.gateVa = 0 ∨ gate ≤ d.gateSeen) ∧ firstBad s' d.ctx src false k = none) :=
  ⟨⟨onCore0 [] [(2, tensD 1 0 0x40000 4 0), (3, tileD 1 1 4 0x7000), (4, tensD 1 0 0x50000 4 0), (5, tensD 1 0 0x60000 0 0), (6, tensD 1
    0 0x60000 0 0), (7, schedD 1 0 1), (8, schedD 1 0 0)], _, _, 0, 0, 5, iw 2 0 3 2 0 0 0, _, _, get_some (by decide +kernel), get_some
    (by decide +kernel), ok_state (by decide +kernel), done_state (by decide +kernel), by decide +kernel⟩, ⟨onCore0 [] [(2, tensD 1 0
    0x40000 4 0), (3, tileD 1 1 4 0x7000), (4, tensD 1 0 0x50000 4 0), (5, tensD 1 0 0x60000 0 0), (6, tensD 1 0 0x60000 0 0), (7, schedD
    1 0 1), (8, schedD 1 0 0)], _, _, 0, 0, 5, iw 2 1 2 3 0 0 0, _, _, get_some (by decide +kernel), get_some (by decide +kernel),
    ok_state (by decide +kernel), done_state (by decide +kernel), by decide +kernel⟩, ⟨onCore0 [] [(2, tensD 1 0 0x40000 4 0), (3, tileD
    1 1 4 0x7000), (4, tensD 1 0 0x50000 4 0), (5, tensD 1 0 0x60000 0 0), (6, tensD 1 0 0x60000 0 0), (7, schedD 1 0 1), (8, schedD 1 0
    0)], t0, 5, iw 2 2 4 2 0 0 0, _, _, get_some (by decide +kernel), get_some (by decide +kernel), by decide +kernel⟩, ⟨on
    { core [] [(2, tensD 1 0 0x40000 4 0), (3, tileD 1 1 4 0x7000), (4, tensD 1 0 0x50000 4 0), (5, tensD 1 0 0x60000 0 0), (6, tensD 1 0 0x60000 0 0), (7, schedD 1 0 1), (8, schedD 1 0 0)] with threads := [(0, { thr [] with woken := some 0 })] }
    (ctx [] []), 0, 0, 5, 0, iw 2 0 3 2 0 0 0, by decide +kernel⟩, ⟨on
    { core [] [(2, tensD 1 0 0x40000 4 0), (3, tileD 1 1 4 0x7000), (4, tensD 1 0 0x50000 4 0), (5, tensD 1 0 0x60000 0 0), (6, tensD 1 0 0x60000 0 0), (7, schedD 1 0 1), (8, schedD 1 0 0)] with threads := [(0, { thr [] with woken := some 0 })] }
    (ctx [] []), 0, 0, 5, 0, iw 2 1 2 3 0 0 0, by decide +kernel⟩, ⟨onCore0 [] [(2, tensD 1 0 0x40000 4 0), (3, tileD 1 1 4 0x7000), (4,
    tensD 1 0 0x50000 4 0), (5, tensD 1 0 0x60000 0 0), (6, tensD 1 0 0x60000 0 0), (7, schedD 1 0 1), (8, schedD 1 0 0), (9, tileD 1 0 4
    0x8000)], 0, 0, 5, iw 2 0 9 2 0 0 0x18000000, _, _, get_some (by decide +kernel), get_some (by decide +kernel), by decide +kernel⟩,
    ⟨onCore0 [] [(2, tensD 1 0 0x40000 4 0), (3, tileD 1 1 4 0x7000), (4, tensD 1 0 0x50000 4 0), (5, tensD 1 0 0x60000 0 0), (6, tensD 1
    0 0x60000 0 0), (7, schedD 1 0 1), (8, schedD 1 0 0), (9, tileD 1 0 4 0x8000)], 0, 0, 5, iw 2 1 2 9 0 0 0x18000000, _, _, get_some
    (by decide +kernel), get_some (by decide +kernel), by decide +kernel⟩, ⟨onCore0 [] [(2, tensD 1 0 0x40000 4 0), (3, tileD 1 1 4
    0x7000), (4, tensD 1 0 0x50000 4 0), (5, tensD 1 0 0x60000 0 0), (6, tensD 1 0 0x60000 0 0), (7, schedD 1 0 1), (8, schedD 1 0 0)],
    t0, 5, iw 2 2 6 5 0 0 0, _, _, get_some (by decide +kernel), get_some (by decide +kernel), by decide +kernel⟩, ⟨onCore0 [] [(2, tensD
    1 0 0x40000 4 0), (3, tileD 1 1 4 0x7000), (4, tensD 1 0 0x50000 4 0), (5, tensD 1 0 0x60000 0 0), (6, tensD 1 0 0x60000 0 0), (7,
    schedD 1 0 1), (8, schedD 1 0 0)], t0, 5, iw 2 2 4 5 0 0 0, _, _, 0, 0, get_some (by decide +kernel), get_some (by decide +kernel),
    by decide +kernel⟩, ⟨onCore0 [] [(2, tensD 1 0 0x40000 4 0), (3, tileD 1 1 4 0x7000), (4, tensD 1 0 0x50000 4 0), (5, tensD 1 0
    0x60000 0 0), (6, tensD 1 0 0x60000 0 0), (7, schedD 1 0 1), (8, schedD 1 0 0)], t0, 5, iw 2 3 0 7 0 0 0, _, rfl, by decide +kernel⟩,
    ⟨onCore0 [] [(2, tensD 1 0 0x40000 4 0), (3, tileD 1 1 4 0x7000), (4, tensD 1 0 0x50000 4 0), (5, tensD 1 0 0x60000 0 0), (6, tensD 1
    0 0x60000 0 0), (7, schedD 1 0 1), (8, schedD 1 0 0)], t0, 5, iw 2 3 0 8 0 0 0, by decide +kernel⟩, ⟨withSched (onCore0 [] [(2, tensD
    1 0 0x40000 4 0), (3, tileD 1 1 4 0x7000), (4, tensD 1 0 0x50000 4 0), (5, tensD 1 0 0x60000 0 0), (6, tensD 1 0 0x60000 0 0), (7,
    schedD 1 0 1), (8, schedD 1 0 0)]) 1 0, t0, 5, 0, iw 2 3 0 7 0 0 0x2000000, schedOf (.thread 0 0) 5 0 0 0 (schedD 1 0 1),
    by decide +kernel⟩, ⟨onCore0 [] [(2, tensD 1 0 0x40000 4 0), (3, tileD 1 1 4 0x7000), (4, tensD 1 0 0x50000 4 0), (5, tensD 1 0
    0x60000 0 0), (6, tensD 1 0 0x60000 0 0), (7, schedD 1 0 1), (8, schedD 1 0 0)], t0, 5, iw 2 3 0 7 0 0 0x2000000, by decide +kernel⟩,
    ⟨withSched (onCore0 [] [(2, tensD 1 0 0x40000 4 0), (3, tileD 1 1 4 0x7000), (4, tensD 1 0 0x50000 4 0), (5, tensD 1 0 0x60000 0 0),
    (6, tensD 1 0 0x60000 0 0), (7, schedD 1 0 1), (8, schedD 1 0 0)]) 1 0x3000, _, 0, _, _, _, _, get_some (by decide +kernel), ok_val
    (by decide +kernel), pair3, by decide +kernel⟩, ⟨withEntry (withSched (onCore0 [] [(2, tensD 1 0 0x40000 4 0), (3, tileD 1 1 4
    0x7000), (4, tensD 1 0 0x50000 4 0), (5, tensD 1 0 0x60000 0 0), (6, tensD 1 0 0x60000 0 0), (7, schedD 1 0 1), (8, schedD 1 0 0)]) 1
    0) 0x4000 0x5000 1 0, _, 0, 0x4000, 0x5000, 1, 0, _, get_some (by decide +kernel), pair_r (by decide +kernel), by decide +kernel⟩,
    ⟨withEntry (withSched (onRing (ringOf (ringD 0 4))) 0 0) 0x4000 0 1 0, _, 0, 0, 0, _, _, _, 0x4000, 0, 1, 0, _, get_some
    (by decide +kernel), pair_r (by decide +kernel), get_some3 (by decide +kernel), by decide +kernel⟩⟩

theorem hyps_RingResults :
  (∃ (s : State) (c t n : Nat) (w : Word), (∀ r, tfind (getCore s c).rings (bits (iImm w) 5 0) = some r → anyClaimed r = false) ∧ Issues
    rowRcfg s (.thread c t) n w ∧ ringOk s c (bits (iImm w) 5 0) (dOf s (.thread c t) (iSrc1 w)) = true) ∧
  (∃ (s : State) (c t n : Nat) (w : Word) (r : Ring), tfind (getCore s c).rings (bits (iImm w) 29 24) = some r ∧ Issues (rowRing 0) s
    (.thread c t) n w) ∧
  (∃ (s : State) (c t n ix : Nat) (w : Word) (r : Ring) (l : List Nat), tfind (getCore s c).rings (bits (iImm w) 29 24) = some r ∧ Issues
    (rowRing 1) s (.thread c t) n w ∧ bits (iImm w) 23 16 ≠ 0 ∧ (heldSlots r t).take (bits (iImm w) 23 16) = ix :: l) ∧
  (∃ (s : State) (c t n : Nat) (w : Word) (r : Ring), tfind (getCore s c).rings (bits (iImm w) 29 24) = some r ∧ Issues (rowRing 1) s
    (.thread c t) n w ∧ bits (iImm w) 23 16 ≠ 0 ∧ heldSlots r t = []) ∧
  (∃ (s : State) (c t n : Nat) (w : Word) (r : Ring), tfind (getCore s c).rings (bits (iImm w) 29 24) = some r ∧ Issues (rowRing 2) s
    (.thread c t) n w ∧ r.mode ≠ 0 ∧ backOutstanding s c r = false) :=
  ⟨⟨onCore0 [] [(1, ringD 0 4)], 0, 0, 5, iw 2 4 3 1 0 0 0, of_opt (by decide +kernel), by decide +kernel⟩, ⟨onRing (ringOf (ringD 0 4)),
    0, 0, 5, iw 2 5 3 0 0 0 0x10000, _, get_some (by decide +kernel), by decide +kernel⟩, ⟨onRing
    { ringOf (ringD 0 4) with st := [.claimed 0, .empty, .empty, .empty], tail := 1 }, 0, 0, 5, 0, iw 2 5 3 0 0 0 0x40010000, _, [],
    get_some (by decide +kernel), by decide +kernel⟩, ⟨onRing (ringOf (ringD 0 4)), 0, 0, 5, iw 2 5 3 0 0 0 0x40010000, _, get_some
    (by decide +kernel), by decide +kernel⟩, ⟨onRing (ringOf (ringD 1 2)), 0, 0, 5, iw 2 5 3 0 0 0 0x80000000, _, get_some
    (by decide +kernel), by decide +kernel⟩⟩

theorem hyps_QueueResults :
  (∃ (s : State) (m n c : Nat) (w v : Word), (sOf s (.ctl m) (iSrc1 w)).toNat = c ∧ sOf s (.ctl m) (iSrc2 w) = v ∧ Issues rowQcfg s (.ctl
    m) n w ∧ (threadOf s (.ctl m)).woken = none ∧ (getCtx s n).coreset.contains c = true ∧ qcfgOk s c (bits (iImm w) 4 0) v = true ∧
    cfgDir v = 0) ∧
  (∃ (s : State) (m n c : Nat) (w v : Word), (sOf s (.ctl m) (iSrc1 w)).toNat = c ∧ sOf s (.ctl m) (iSrc2 w) = v ∧ Issues rowQcfg s (.ctl
    m) n w ∧ (threadOf s (.ctl m)).woken = none ∧ (getCtx s n).coreset.contains c = true ∧ qcfgOk s c (bits (iImm w) 4 0) v = true ∧
    cfgDir v ≠ 0 ∧ cfgRemote v = false) ∧
  (∃ (s : State) (m n c : Nat) (w v : Word), (sOf s (.ctl m) (iSrc1 w)).toNat = c ∧ sOf s (.ctl m) (iSrc2 w) = v ∧ Issues rowQcfg s (.ctl
    m) n w ∧ (threadOf s (.ctl m)).woken = none ∧ (getCtx s n).coreset.contains c = true ∧ qcfgOk s c (bits (iImm w) 4 0) v = true ∧
    cfgDir v ≠ 0 ∧ cfgRemote v = true ∧ heldPartner s c (bits (iImm w) 4 0) v = none ∧ qconfigWaits (sendQconfig (qcfgWrite s c (bits
    (iImm w) 4 0) v) c (bits (iImm w) 4 0) false) c (bits (iImm w) 4 0) = false) ∧
  (∃ (s u : State) (m n c : Nat) (w v : Word), (sOf s (.ctl m) (iSrc1 w)).toNat = c ∧ sOf s (.ctl m) (iSrc2 w) = v ∧ sendQconfig
    (qcfgWrite s c (bits (iImm w) 4 0) v) c (bits (iImm w) 4 0) false = u ∧ Issues rowQcfg s (.ctl m) n w ∧ (threadOf s (.ctl m)).woken =
    none ∧ (getCtx s n).coreset.contains c = true ∧ qcfgOk s c (bits (iImm w) 4 0) v = true ∧ cfgDir v ≠ 0 ∧ cfgRemote v = true ∧
    heldPartner s c (bits (iImm w) 4 0) v = none ∧ qconfigWaits u c (bits (iImm w) 4 0) = true) ∧
  (∃ (s : State) (m n : Nat) (w : Word), Issues rowQcfg s (.ctl m) n w ∧ (threadOf s (.ctl m)).woken = some 0) ∧
  (∃ (s : State) (m n c : Nat) (w v : Word) (h : HeldCfg), (sOf s (.ctl m) (iSrc1 w)).toNat = c ∧ sOf s (.ctl m) (iSrc2 w) = v ∧
    heldPartner s c (bits (iImm w) 4 0) v = some h ∧ Issues rowQcfg s (.ctl m) n w ∧ (threadOf s (.ctl m)).woken = none ∧ (getCtx s
    n).coreset.contains c = true ∧ qcfgOk s c (bits (iImm w) 4 0) v = true ∧ cfgDir v ≠ 0 ∧ cfgRemote v = true) ∧
  (∃ (s s' r : State) (c t n ep k : Nat) (w : Word), iSrc1 w = ep ∧ qsendCount s (.thread c t) w = k ∧ guardSp s c t [((sOf s (.thread c
    t) (iSrc2 w)).toNat / 64 * 64, 64 * k)] [] = .ok s' ∧ qsendRun s' (.thread c t) n c t ep ((sOf s (.thread c t) (iSrc2 w)).toNat / 64
    * 64) k w = .done r ∧ Issues rowQsend s (.thread c t) n w ∧ (threadOf s (.thread c t)).woken = none ∧ (threadOf s (.thread c t)).sent
    = 0 ∧ cfgDir (getEp (getCore s c) ep).cfg = 2 ∧ k ≤ cfgMaxWords (getEp (getCore s c) ep).cfg ∧ k ≠ 0 ∧ (sOf s (.thread c t) (iSrc2
    w)).toNat / 64 * 64 + 64 * k ≤ spSize) ∧
  (∃ (s s' : State) (c t n ep k : Nat) (w : Word), iSrc1 w = ep ∧ qsendCount s (.thread c t) w = k ∧ guardSp s c t [((sOf s (.thread c t)
    (iSrc2 w)).toNat / 64 * 64, 64 * k)] [] = .ok s' ∧ Issues rowQsend s (.thread c t) n w ∧ (threadOf s (.thread c t)).woken = none ∧
    (threadOf s (.thread c t)).sent = 0 ∧ cfgDir (getEp (getCore s c) ep).cfg = 2 ∧ k ≤ cfgMaxWords (getEp (getCore s c) ep).cfg ∧ k ≠ 0
    ∧ (sOf s (.thread c t) (iSrc2 w)).toNat / 64 * 64 + 64 * k ≤ spSize ∧ (getEp (getCore s' c) ep).closed = true) ∧
  (∃ (s : State) (c t n : Nat) (w : Word) (p : Packet) (l : List Packet), Issues rowQrecv s (.thread c t) n w ∧ (threadOf s (.thread c
    t)).woken = none ∧ cfgDir (getEp (getCore s c) (iSrc1 w)).cfg = 1 ∧ declared (getCore s c) 0 (iSrc1 w) = false ∧ unclaimed (getEp
    (getCore s c) (iSrc1 w)) = p :: l) ∧
  (∃ (s : State) (c t n : Nat) (w : Word), Issues rowQrecv s (.thread c t) n w ∧ (threadOf s (.thread c t)).woken = none ∧ cfgDir (getEp
    (getCore s c) (iSrc1 w)).cfg = 1 ∧ declared (getCore s c) 0 (iSrc1 w) = false ∧ unclaimed (getEp (getCore s c) (iSrc1 w)) = [] ∧
    (getEp (getCore s c) (iSrc1 w)).closed = false) ∧
  (∃ (s : State) (c t n : Nat) (w : Word), Issues rowQheld s (.thread c t) n w) ∧
  (∃ (s : State) (c t n : Nat) (w : Word) (p : Packet) (l : List Packet), Issues rowQrel s (.thread c t) n w ∧ heldPackets (getCore s c)
    t (iSrc1 w) = p :: l) ∧
  (∃ (s : State) (c t n : Nat) (w : Word), Issues rowQrel s (.thread c t) n w ∧ heldPackets (getCore s c) t (iSrc1 w) = []) ∧
  (∃ (s : State) (c t n : Nat) (w : Word), Issues rowQsum s (.thread c t) n w ∧ isSumKind (bits (iImm w) 31 28) = true ∧ 0 < (getCore s
    c).sumCredit) ∧
  (∃ (s : State) (c t n : Nat) (w : Word), Issues rowQsum s (.thread c t) n w ∧ isSumKind (bits (iImm w) 31 28) = true ∧ (getCore s
    c).sumCredit = 0) :=
  ⟨⟨onCtl [] [], 5, 5, _, iw 3 0 3 1 2 0 1, _, rfl, rfl, by decide +kernel⟩, ⟨onCtl [(2, qword 1 4 4 0x40000 0 0 0 2)] [], 5, 5, _, iw 3
    0 3 1 2 0 1, _, rfl, rfl, by decide +kernel⟩, ⟨onCtl [(2, qword 1 4 4 0x40000 1 3 0 2)] [], 5, 5, _, iw 3 0 3 1 2 0 1, _, rfl, rfl,
    by decide +kernel⟩, ⟨{ onCtl [(2, qword 1 4 4 0x40000 1 3 0 2)] [] with ports := [(2, { port 4 with credits := [(0, 0)] })] }, _, 5,
    5, _, iw 3 0 3 1 2 0 1, _, rfl, rfl, rfl, by decide +kernel⟩, ⟨woke 0 [], 5, 5, iw 3 0 3 1 2 0 1, by decide +kernel⟩, ⟨on
    { core [] [] with eps := [(1, { Endpoint.reset with heldCfg := some { peer := 3, core := 0, ep := 2, word := qword 2 0 4 0 1 0 0 1, part := 0, due := false } })] }
    (ctx [(2, qword 1 4 4 0x40000 1 3 0 2)] []), 5, 5, _, iw 3 0 3 1 2 0 1, _, _, rfl, rfl, get_some (by decide +kernel),
    by decide +kernel⟩, ⟨onEp { Endpoint.reset with cfg := qword 2 0 4 0 0 0 0 2, isOpen := true, credits := 4 } (thr []), _, _, 0, 0, 5,
    _, _, iw 3 1 3 1 2 0 2, rfl, rfl, ok_state (by decide +kernel), done_state (by decide +kernel), by decide +kernel⟩, ⟨onEp
    { Endpoint.reset with cfg := qword 2 0 4 0 0 0 0 2, isOpen := true, credits := 4, closed := true } (thr []), _, 0, 0, 5, _, _, iw 3 1
    3 1 2 0 2, rfl, rfl, ok_state (by decide +kernel), by decide +kernel⟩, ⟨onEp
    { Endpoint.reset with cfg := qword 1 4 4 0x40000 0 0 0 2, isOpen := true, packets := [pkt none] } (thr []), 0, 0, 5, iw 3 2 3 1 0 0
    0, pkt none, [], by decide +kernel⟩, ⟨onEp { Endpoint.reset with cfg := qword 1 4 4 0x40000 0 0 0 2, isOpen := true } (thr []), 0, 0,
    5, iw 3 2 3 1 0 0 0, by decide +kernel⟩, ⟨onEp { Endpoint.reset with cfg := qword 1 4 4 0x40000 0 0 0 2, isOpen := true } (thr []),
    0, 0, 5, iw 3 3 3 1 0 0 0, by decide +kernel⟩, ⟨onEp
    { Endpoint.reset with cfg := qword 1 4 4 0x40000 0 0 0 2, isOpen := true, packets := [pkt (some 0)] }
    { thr [] with packets := [(1, 0)] }, 0, 0, 5, iw 3 4 3 1 0 0 0, pkt (some 0), [], by decide +kernel⟩, ⟨onEp
    { Endpoint.reset with cfg := qword 1 4 4 0x40000 0 0 0 2, isOpen := true } (thr []), 0, 0, 5, iw 3 4 3 1 0 0 0, by decide +kernel⟩,
    ⟨onCore0 [] [], 0, 0, 5, iw 3 5 0 1 0 0 0x10000000, by decide +kernel⟩, ⟨on { core [] [] with sumCredit := 0 } (ctx [] []), 0, 0, 5,
    iw 3 5 0 1 0 0 0x10000000, by decide +kernel⟩⟩

theorem hyps_SyncResults :
  (∃ (s : State) (a : Agent) (n : Nat) (w : Word), Issues rowFence s a n w ∧ fenceOut s a (fenceScope a w) (bits (iImm w) 3 2) = []) ∧
  (∃ (s : State) (a : Agent) (n : Nat) (w : Word) (b : Barrier), tget Barrier.reset (getCtx s n).barriers (bits (iImm w) 4 0) = b ∧
    Issues rowBar s a n w ∧ (threadOf s a).woken = none ∧ (b.arrived = [] ∨ b.count = (sOf s a (iSrc1 w)).toNat) ∧ 0 < (sOf s a (iSrc1
    w)).toNat ∧ (sOf s a (iSrc1 w)).toNat ≤ b.arrived.length + 1) ∧
  (∃ (s : State) (a : Agent) (n : Nat) (w : Word) (b : Barrier), tget Barrier.reset (getCtx s n).barriers (bits (iImm w) 4 0) = b ∧
    Issues rowBar s a n w ∧ (threadOf s a).woken = none ∧ (b.arrived = [] ∨ b.count = (sOf s a (iSrc1 w)).toNat) ∧ b.arrived.length + 1 <
    (sOf s a (iSrc1 w)).toNat) ∧
  (∃ (s : State) (a : Agent) (n : Nat) (w : Word), Issues rowBar s a n w ∧ (threadOf s a).woken.isSome = true) ∧
  (∃ (s : State) (a : Agent) (n c b : Nat) (w : Word) (d : BlockDesc), (sOf s a (iSrc1 w)).toNat = c ∧ (sOf s a (iSrc2 w)).toNat = b ∧
    blockDesc (getCore s c) b = some d ∧ Issues rowStart s a n w ∧ (getCtx s n).coreset.contains c = true ∧ (d.ops.any fun o => o.kind ==
    3) = true) ∧
  (∃ (s : State) (c b k : Nat), k ≠ 0 ∧ (getBlk (getCore s c) b).tokens + edgeTokens s c b + k ≤ 255 ∧ dieStopped s c = false) ∧
  (∃ (s : State) (c b k : Nat), k ≠ 0 ∧ (getBlk (getCore s c) b).tokens + edgeTokens s c b + k ≤ 255 ∧ dieStopped s c = true) ∧
  (∃ (s : State) (c b k : Nat), 255 < (getBlk (getCore s c) b).tokens + edgeTokens s c b + k) ∧
  (∃ (s : State) (a : Agent) (n : Nat) (w : Word), Issues rowCg s a n w ∧ bit (iImm w) 27 = true ∧ cgDeclared s a (bits (iImm w) 31 28) =
    false ∧ cgReady (cgOf s a (bits (iImm w) 31 28)) = true) ∧
  (∃ (s : State) (a : Agent) (n : Nat) (w : Word), Issues rowCg s a n w ∧ bit (iImm w) 27 = false) :=
  ⟨⟨onCore0 [] [], t0, 5, iw 4 0 0 0 0 0 4, by decide +kernel⟩, ⟨onCore0 [(1, 1)] [], t0, 5, iw 4 1 0 1 0 0 0, _, rfl,
    by decide +kernel⟩, ⟨onCore0 [(1, 2)] [], t0, 5, iw 4 1 0 1 0 0 0, _, rfl, by decide +kernel⟩, ⟨on
    { core [] [] with threads := [(0, { thr [] with woken := some 0 })] } (ctx [] []), t0, 5, iw 4 1 0 1 0 0 0, by decide +kernel⟩, ⟨on
    { coreP [] [] with prog := some (prog [{ kind := 3, source := 0, count := 1 }]) } (ctx [] []), t0, 5, _, _, iw 4 2 3 1 2 0 1, _, rfl,
    rfl, get_some (by decide +kernel), by decide +kernel⟩, ⟨on
    { coreP [] [] with prog := some (prog [{ kind := 3, source := 0, count := 1 }]) } (ctx [] []), 0, 0, 1, by decide +kernel⟩,
    ⟨{ on { coreP [] [] with prog := some (prog [{ kind := 3, source := 0, count := 1 }]) } (ctx [] []) with clk := { s0.clk with dies := [(0, { die0 with pllOn := false })] } },
    0, 0, 1, by decide +kernel⟩, ⟨on { coreP [] [] with prog := some (prog [{ kind := 3, source := 0, count := 1 }]) } (ctx [] []), 0, 0,
    256, by decide +kernel⟩, ⟨on { core [] [] with cgs := [(1, { Cg.reset with issued := 1, done := 1 })] } (ctx [] []), t0, 5, iw 4 3 3
    0 0 0 0x18000000, by decide +kernel⟩, ⟨onCore0 [] [], t0, 5, iw 4 3 3 0 0 0 0x10000000, by decide +kernel⟩⟩

theorem hyps_EpochResults :
  (∃ (s : State) (a : Agent) (n ix e : Nat) (w : Word) (m : Model) (l : Layer), Issues (rowEpoch false) s a n w ∧ epochArgs s a n w =
    some (ix, m, e, l) ∧ l.epoch = e ∧ (m.installing && bits (iImm w) 15 0 == m.installed) = false) ∧
  (∃ (s : State) (a : Agent) (n ix e : Nat) (w : Word) (m : Model) (l : Layer), Issues (rowEpoch false) s a n w ∧ epochArgs s a n w =
    some (ix, m, e, l) ∧ (e < l.epoch ∨ (l.epoch = e ∧ (m.installing && bits (iImm w) 15 0 == m.installed) = true))) ∧
  (∃ (s : State) (a : Agent) (n ix e : Nat) (w : Word) (m : Model) (l : Layer), Issues (rowEpoch false) s a n w ∧ epochArgs s a n w =
    some (ix, m, e, l) ∧ l.epoch < e) ∧
  (∃ (s : State) (a : Agent) (n ix e : Nat) (w : Word) (m : Model) (l : Layer), Issues (rowEpoch true) s a n w ∧ epochArgs s a n w = some
    (ix, m, e, l)) ∧
  (∃ (s : State) (n ix e layer : Nat) (m : Model), tfind s.models ix = some m ∧ startedOf m n e ≤ passedOf m n e layer) :=
  ⟨⟨withModel (onCore0 [(1, 256), (2, 1)] []) mdl0, t0, 5, 0, 1, iw 4 4 3 1 2 0 0, mdl0, ⟨0, 1, 1⟩, by decide +kernel⟩, ⟨withModel
    (onCore0 [(1, 256), (2, 0)] []) mdl0, t0, 5, 0, 0, iw 4 4 3 1 2 0 0, mdl0, ⟨0, 1, 1⟩, by decide +kernel⟩, ⟨withModel (onCore0 [(1,
    256), (2, 2)] []) mdl0, t0, 5, 0, 2, iw 4 4 3 1 2 0 0, mdl0, ⟨0, 1, 1⟩, by decide +kernel⟩, ⟨withModel (onCore0 [(1, 256), (2, 1)]
    []) mdl0, t0, 5, 0, 1, iw 4 4 3 1 2 0 0x80000000, mdl0, ⟨0, 1, 1⟩, by decide +kernel⟩, ⟨withModel (onCore0 [] []) mdl0, 5, 0, 1, 0,
    mdl0, by decide +kernel⟩⟩

theorem hyps_CollectiveInstructions :
  (∃ (s : State) (a : Agent) (n : Nat) (w : Word) (d : ColDesc) (t u : Tensor), colDescOf s.peers.self (dOf s a (iSrc3 w)) = some d ∧
    tensorOf (dOf s a (iSrc1 w)) = some t ∧ tensorOf (dOf s a (iDst w)) = some u ∧ Issues rowColl s a n w ∧ collOk d t u (getCtx s
    n).colgroup = true ∧ collDouble s n (attemptOf s (getCtx s n).colgroup) d = false ∧ tensorBad s n t false = none ∧ tensorBad s n u
    true = none ∧ usesWhey d t = false ∧ (d.op ≤ 1 → reshardOf s n t.id = false ∧ reshardOf s n u.id = false)) ∧
  (∃ (s : State) (a : Agent) (n : Nat) (w : Word) (d : ColDesc) (t u : Tensor), colDescOf s.peers.self (dOf s a (iSrc3 w)) = some d ∧
    tensorOf (dOf s a (iSrc1 w)) = some t ∧ tensorOf (dOf s a (iDst w)) = some u ∧ Issues rowColl s a n w ∧ collOk d t u (getCtx s
    n).colgroup = true ∧ collDouble s n (attemptOf s (getCtx s n).colgroup) d = false ∧ tensorBad s n t false = none ∧ tensorBad s n u
    true = none ∧ usesWhey d t = false ∧ d.op ≤ 1 ∧ reshardOf s n t.id = true) ∧
  (∃ (s : State) (a : Agent) (n v : Nat) (w : Word), Issues rowGflag s a n w ∧ (threadOf s a).woken = some v) ∧
  (∃ (s : State) (a : Agent) (n : Nat) (w : Word) (d : ColDesc), colDescOf s.peers.self (dOf s a (iSrc3 w)) = some d ∧ Issues rowGflag s
    a n w ∧ (threadOf s a).woken = none ∧ (getCtx s n).colgroup ≠ 0 ∧ s.hub.flagged.contains (n, attemptOf s (getCtx s n).colgroup,
    d.step) = false ∧ stepAborted (clearLatch s n d.step) (getCtx s n).colgroup (attemptOf s (getCtx s n).colgroup) d.step = true) ∧
  (∃ (s s' : State) (a : Agent) (n check : Nat) (w : Word) (d : ColDesc) (t : Tensor) (m : MapRec), colDescOf s.peers.self (dOf s a
    (iSrc3 w)) = some d ∧ tensorOf (dOf s a (iSrc1 w)) = some t ∧ readMapRec s n (sOf s a (iSrc2 w)).toNat d t = (.ok (m, check), s') ∧
    Issues rowReshard s a n w ∧ (threadOf s a).woken = none ∧ (getCtx s n).dst.role ≠ 1 ∧ reshardOk d t (getCtx s n).colgroup = true ∧
    reshardTooLate s' n (getCtx s n).colgroup (attemptOf s' (getCtx s n).colgroup) d.step = true) ∧
  (∃ (s s' u : State) (a : Agent) (n check id : Nat) (w : Word) (d : ColDesc) (t : Tensor) (m : MapRec) (r : Reshard), colDescOf
    s.peers.self (dOf s a (iSrc3 w)) = some d ∧ tensorOf (dOf s a (iSrc1 w)) = some t ∧ readMapRec s n (sOf s a (iSrc2 w)).toNat d t =
    (.ok (m, check), s') ∧ reshardEnter s' a n (bits (iImm w) 31 28) (dOf s a (iSrc3 w)) (dOf s a (iSrc1 w)) m check = (id, u) ∧ tfind
    u.hub.reshards id = some r ∧ Issues rowReshard s a n w ∧ (threadOf s a).woken = none ∧ (getCtx s n).dst.role ≠ 1 ∧ reshardOk d t
    (getCtx s n).colgroup = true ∧ reshardTooLate s' n (getCtx s n).colgroup (attemptOf s' (getCtx s n).colgroup) d.step = false ∧
    fenceOpen u r = true) ∧
  (∃ (s s' u : State) (a : Agent) (n check id : Nat) (w : Word) (d : ColDesc) (t : Tensor) (m : MapRec) (r : Reshard), colDescOf
    s.peers.self (dOf s a (iSrc3 w)) = some d ∧ tensorOf (dOf s a (iSrc1 w)) = some t ∧ readMapRec s n (sOf s a (iSrc2 w)).toNat d t =
    (.ok (m, check), s') ∧ reshardEnter s' a n (bits (iImm w) 31 28) (dOf s a (iSrc3 w)) (dOf s a (iSrc1 w)) m check = (id, u) ∧ tfind
    u.hub.reshards id = some r ∧ Issues rowReshard s a n w ∧ (threadOf s a).woken = none ∧ (getCtx s n).dst.role ≠ 1 ∧ reshardOk d t
    (getCtx s n).colgroup = true ∧ reshardTooLate s' n (getCtx s n).colgroup (attemptOf s' (getCtx s n).colgroup) d.step = false ∧
    fenceOpen u r = false) ∧
  (∃ (s : State) (a : Agent) (n : Nat) (w : Word), Issues rowReshard s a n w ∧ (threadOf s a).woken.isSome = true) :=
  ⟨⟨onGroup [] [(1, tensD 1 0 0x40000 64 1), (2, tensD 1 0 0x50000 64 2), (7, colD 0 1), (8, colD 5 0)], t0, 5, iw 5 0 2 1 0 7
    0x18000000, _, _, _, get_some (by decide +kernel), get_some (by decide +kernel), get_some (by decide +kernel), by decide +kernel⟩,
    ⟨{ onGroup [] [(1, tensD 1 0 0x40000 64 1), (2, tensD 1 0 0x50000 64 2), (7, colD 0 1), (8, colD 5 0)] with hub := { Hub.reset with reshards := [(0, rsh .staging)] } },
    t0, 5, iw 5 0 2 1 0 7 0x18000000, _, _, _, get_some (by decide +kernel), get_some (by decide +kernel), get_some (by decide +kernel),
    by decide +kernel⟩, ⟨on { core [] [] with threads := [(0, { thr [] with woken := some 1 })] } { ctx [] [] with colgroup := 2 }, t0,
    5, 1, iw 5 1 3 1 0 7 0, by decide +kernel⟩,
    ⟨{ onGroup [] [(1, tensD 1 0 0x40000 64 1), (2, tensD 1 0 0x50000 64 2), (7, colD 0 1), (8, colD 5 0)] with hub := { Hub.reset with aborted := [(2, 0, 0)] } },
    t0, 5, iw 5 1 3 1 0 7 0, _, get_some (by decide +kernel), by decide +kernel⟩, ⟨memAt
    { onGroup [(2, 0x3000)] [(1, tensD 1 0 0x40000 64 1), (2, tensD 1 0 0x50000 64 2), (7, colD 0 1), (8, colD 5 0)] with hub := { Hub.reset with aborted := [(2, 0, 0)] } }
    0x3007 [1], _, t0, 5, (readMapRec (memAt
    { onGroup [(2, 0x3000)] [(1, tensD 1 0 0x40000 64 1), (2, tensD 1 0 0x50000 64 2), (7, colD 0 1), (8, colD 5 0)] with hub := { Hub.reset with aborted := [(2, 0, 0)] } }
    0x3007 [1]) 5 0x3000 ((colDescOf 0 (colD 5 0)).get (by decide +kernel)) ((tensorOf buf).get (by decide +kernel))).1.toOption.elim 0
    Prod.snd, iw 5 2 0 1 2 8 0x18000000, _, _, { mapR with gcols := 0 }, get_some (by decide +kernel), get_some (by decide +kernel),
    pair_r (by decide +kernel), by decide +kernel⟩, ⟨memAt
    ({ onGroup [(2, 0x3000)] [(1, tensD 1 0 0x40000 64 1), (2, tensD 1 0 0x50000 64 2), (7, colD 0 1), (8, colD 5 0)] with hub := Hub.reset })
    0x3007 [1], _, _, t0, 5, (readMapRec (memAt
    ({ onGroup [(2, 0x3000)] [(1, tensD 1 0 0x40000 64 1), (2, tensD 1 0 0x50000 64 2), (7, colD 0 1), (8, colD 5 0)] with hub := Hub.reset })
    0x3007 [1]) 5 0x3000 ((colDescOf 0 (colD 5 0)).get (by decide +kernel)) ((tensorOf buf).get (by decide +kernel))).1.toOption.elim 0
    Prod.snd, _, iw 5 2 0 1 2 8 0x18000000, _, _, { mapR with gcols := 0 }, _, get_some (by decide +kernel), get_some
    (by decide +kernel), pair_r (by decide +kernel), pair2, get_some (by decide +kernel), by decide +kernel⟩, ⟨memAt (on (core [(2,
    0x3000)] [(1, tensD 1 0 0x40000 64 1), (2, tensD 1 0 0x50000 64 2), (7, colD 0 1), (8, colD 5 0)])
    { ctx [] [] with colgroup := 2, reductions := [(1, 1)] }) 0x3007 [1], _, _, t0, 5, (readMapRec (memAt (on (core [(2, 0x3000)] [(1,
    tensD 1 0 0x40000 64 1), (2, tensD 1 0 0x50000 64 2), (7, colD 0 1), (8, colD 5 0)])
    { ctx [] [] with colgroup := 2, reductions := [(1, 1)] }) 0x3007 [1]) 5 0x3000 ((colDescOf 0 (colD 5 0)).get (by decide +kernel))
    ((tensorOf buf).get (by decide +kernel))).1.toOption.elim 0 Prod.snd, _, iw 5 2 0 1 2 8 0x18000000, _, _, { mapR with gcols := 0 },
    _, get_some (by decide +kernel), get_some (by decide +kernel), pair_r (by decide +kernel), pair2, get_some (by decide +kernel),
    by decide +kernel⟩, ⟨on { core [] [] with threads := [(0, { thr [] with woken := some 1 })] } { ctx [] [] with colgroup := 2 }, t0,
    5, iw 5 2 0 1 2 8 0x18000000, by decide +kernel⟩⟩

theorem hyps_UpdateOperations :
  (∃ (s q r : State) (a : Agent) (n op : Nat) (i : Instr) (w : Word) (d : UpdDesc) (t : Tensor) (o : UpdOp), updDescOf (dOf s a (iSrc3
    w)) = some d ∧ tensorOf (dOf s a (iSrc1 w)) = some t ∧ bump (issueCg s a (bits (iImm w) 31 28) 1) = q ∧ o =
    { ctx := n, agent := a, desc := dOf s a (iSrc3 w), tensor := dOf s a (iSrc1 w), step := (sOf q a (iSrc2 w)).toNat % 2 ^ 32, cg := bits (iImm w) 31 28, insn := w, ip := (threadOf q a).ip, block := (threadOf q a).block, order := q.serial }
    ∧ startUpd (modUpd q fun u => { u with ops := tput u.ops q.upd.nextOp o, nextOp := q.upd.nextOp + 1 }) q.upd.nextOp = r ∧ (i, op) ∈
    [(Instr.updopOpen a w, 0), (.updopNorm a w, 1), (.updopStep a w, 2), (.updopRegen a w, 3), (.updopFlush a w, 4), (.updopKvgather a w,
    5)] ∧ Issues rowUpdop s a n w ∧ d.op = op ∧ ((getCtx s n).dst.role ≠ 1 ∨ op = 5) ∧ updTensorOk op t = true ∧ (op = 0 → openFieldsOk t
    = true) ∧ t.elems ≠ 0 ∧ opQueueFull s (stackOfVa s n t.base) = false ∧ (getCtx r n).state = ctxLive) ∧
  (∃ (s : State) (a : Agent) (n op : Nat) (i : Instr) (w : Word) (d : UpdDesc) (t : Tensor), updDescOf (dOf s a (iSrc3 w)) = some d ∧
    tensorOf (dOf s a (iSrc1 w)) = some t ∧ (i, op) ∈ [(Instr.updopOpen a w, 0), (.updopNorm a w, 1), (.updopStep a w, 2), (.updopRegen a
    w, 3), (.updopFlush a w, 4), (.updopKvgather a w, 5)] ∧ Issues rowUpdop s a n w ∧ d.op = op ∧ ((getCtx s n).dst.role ≠ 1 ∨ op = 5) ∧
    updTensorOk op t = true ∧ (op = 0 → openFieldsOk t = true)) ∧
  (∃ (s : State) (id : Nat) (o : UpdOp) (d : UpdDesc) (t : Tensor), tfind s.upd.ops id = some o ∧ updDescOf o.desc = some d ∧ tensorOf
    o.tensor = some t ∧ opBlocked s o = false) ∧
  (∃ (s : State) (id : Nat) (o : UpdOp), tfind s.upd.ops id = some o ∧ opBlocked s o = true) ∧
  (∃ (s s' : State) (o : UpdOp) (d : UpdDesc) (t : Tensor) (rc : Nat), runUpd (queueFreed s) o d t = (.ok rc, s')) ∧
  (∃ (s : State) (id b : Nat) (o e : UpdOp), (id, e) ∈ s.upd.ops ∧ e.ctx = o.ctx ∧ e.order < o.order ∧ b ∈ opObjects s e ∧ b ∈ opObjects
    s o) ∧
  (∃ (s : State) (id : Nat) (x : Snapshot), tfind s.upd.snapshots id = some x) :=
  ⟨⟨onCore0 [(2, 1)] [(1, buf), (2, desc (2 * 2 ^ 60 + 2 ^ 56 + 1 * 2 ^ 44 + 64 * 2 ^ 32) (256 * 2 ^ 21 + 0x1000) 0 0), (7, updD 0 2 0)],
    _, _, t0, 5, 0, .updopOpen t0 (iw 6 0 0 1 2 7 0x18000000), iw 6 0 0 1 2 7 0x18000000, _, _, _, get_some (by decide +kernel), get_some
    (by decide +kernel), rfl, rfl, rfl, by decide +kernel⟩, ⟨onCore0 [(2, 1)] [(1, buf), (2, desc (2 * 2 ^ 60 + 2 ^ 56 + 1 * 2 ^ 44 + 64
    * 2 ^ 32) (256 * 2 ^ 21 + 0x1000) 0 0), (7, updD 0 2 0)], t0, 5, 0, .updopOpen t0 (iw 6 0 0 1 2 7 0x18000000), iw 6 0 0 1 2 7
    0x18000000, _, _, get_some (by decide +kernel), get_some (by decide +kernel), by decide +kernel⟩,
    ⟨{ onCore0 [(2, 1)] [(1, buf), (2, desc (2 * 2 ^ 60 + 2 ^ 56 + 1 * 2 ^ 44 + 64 * 2 ^ 32) (256 * 2 ^ 21 + 0x1000) 0 0), (7, updD 0 2 0)] with upd := { Upd.reset with ops := [(0, uop 0 0)] } },
    0, _, _, _, get_some (by decide +kernel), get_some (by decide +kernel), get_some (by decide +kernel), by decide +kernel⟩,
    ⟨{ onCore0 [(2, 1)] [(1, buf), (2, desc (2 * 2 ^ 60 + 2 ^ 56 + 1 * 2 ^ 44 + 64 * 2 ^ 32) (256 * 2 ^ 21 + 0x1000) 0 0), (7, updD 0 2 0)] with upd := { Upd.reset with ops := [(0, uop 0 0), (1, uop 0 1)] } },
    1, _, get_some (by decide +kernel), by decide +kernel⟩, ⟨onCore0 [(2, 1)] [(1, buf), (2, desc (2 * 2 ^ 60 + 2 ^ 56 + 1 * 2 ^ 44 + 64
    * 2 ^ 32) (256 * 2 ^ 21 + 0x1000) 0 0), (7, updD 0 2 0)], _, uop 0 0, (updDescOf (updD 0 2 0)).get (by decide +kernel), (tensorOf
    buf).get (by decide +kernel), 0, pair_r (by decide +kernel)⟩,
    ⟨{ onCore0 [(2, 1)] [(1, buf), (2, desc (2 * 2 ^ 60 + 2 ^ 56 + 1 * 2 ^ 44 + 64 * 2 ^ 32) (256 * 2 ^ 21 + 0x1000) 0 0), (7, updD 0 2 0)] with upd := { Upd.reset with ops := [(0, uop 0 0), (1, uop 0 1)] } },
    0, 0x40000, uop 0 1, uop 0 0, by decide +kernel⟩,
    ⟨{ onCore0 [(2, 1)] [(1, buf), (2, desc (2 * 2 ^ 60 + 2 ^ 56 + 1 * 2 ^ 44 + 64 * 2 ^ 32) (256 * 2 ^ 21 + 0x1000) 0 0), (7, updD 0 2 0)] with upd := { Upd.reset with snapshots := [(0, { ctx := 5, mirrorVa := 0x8000, base := 0x40000, bank := 0, step := 1, runs := [] })] } },
    0, _, get_some (by decide +kernel)⟩⟩

theorem hyps_SessionResults :
  (∃ (s s' r : State) (c t n id : Nat) (w v : Word) (tile : Tile) (b : Tensor) (x : Session) (gs : List (Nat × Nat × Nat)), sOf s
    (.thread c t) (iSrc3 w) = v ∧ tileFor (getCtx s n).num.s5emu (getCore s c) (dOf s (.thread c t) (iSrc1 w)) = some tile ∧ tensorOf
    (dOf s (.thread c t) (iSrc2 w)) = some b ∧ accGrains tile b (fld v 47 0) = gs ∧ guardSp s c t tile.runs [] = .ok s' ∧ sendContribs
    (countSession s' n id x) c t n id (bits (iImm w) 31 28) (fld v 63 48) x tile gs = .done r ∧ Issues rowUpdacc s (.thread c t) n w ∧
    (threadOf s (.thread c t)).woken = none ∧ (getCtx s n).dst.role ≠ 1 ∧ accFieldsOk tile b (fld v 47 0) = true ∧ b.elems ≠ 0 ∧
    sessionOn s n b.base = some (id, x) ∧ accOk tile b x (fld v 47 0) (fld v 63 48) = true ∧ gs ≠ [] ∧ firstFault s n true (gs.map fun e
    => sessVa x e.2.2) = none ∧ reshardOf s n b.id = false ∧ reshardOf s n (sessTensor x) = false) ∧
  (∃ (s q : State) (a : Agent) (n id : Nat) (w : Word) (b : Tensor) (x : Session), tensorOf (dOf s a (iSrc1 w)) = some b ∧ bump (issueCg
    s a (bits (iImm w) 31 28) 1) = q ∧ Issues rowUpdclose s a n w ∧ (getCtx s n).dst.role ≠ 1 ∧ b.id ≠ 0 ∧ b.elems ≠ 0 ∧ opQueueFull s
    (stackOfVa s n b.base) = false ∧ sessionOn s n b.base = some (id, x) ∧ x.step = (sOf s a (iSrc2 w)).toNat % 2 ^ 32) ∧
  (∃ (s : State) (req : Nat) (k : Contrib) (x : Session), tfind s.upd.contribs req = some k ∧ tfind s.upd.sessions k.sess = some x ∧
    k.phase = .inFlight ∧ x.complete = false ∧ k.tag = tget 0 x.next k.grain) ∧
  (∃ (s : State) (req : Nat) (k : Contrib) (x : Session), tfind s.upd.contribs req = some k ∧ tfind s.upd.sessions k.sess = some x ∧
    k.phase = .inFlight ∧ x.complete = false ∧ k.tag ≠ tget 0 x.next k.grain ∧ poolSize ≤ poolUsed s (stackOfVa s k.ctx k.va)) ∧
  (∃ (s : State) (req : Nat) (k : Contrib) (x : Session), tfind s.upd.contribs req = some k ∧ tfind s.upd.sessions k.sess = some x ∧
    k.phase = .inFlight ∧ x.complete = false ∧ tget 0 x.next k.grain < k.tag ∧ poolUsed s (stackOfVa s k.ctx k.va) < poolSize ∧
    (x.pool.any fun h => h.1 == k.grain && h.2.1 == k.tag) = false) ∧
  (∃ (s : State) (req tick : Nat) (k : Contrib), tfind s.upd.contribs req = some k ∧ k.phase = .refused tick) ∧
  (∃ (s : State) (id : Nat) (x : Session), tfind s.upd.sessions id = some x ∧ x.complete = false ∧ x.contrib ≤ x.closes) ∧
  (∃ (s : State) (id : Nat) (x : Session), tfind s.upd.sessions id = some x ∧ x.closes < x.contrib) :=
  ⟨⟨withUpd (onCore0 [(2, 1)] [(1, buf), (2, desc (2 * 2 ^ 60 + 2 ^ 56 + 1 * 2 ^ 44 + 64 * 2 ^ 32) (256 * 2 ^ 21 + 0x1000) 0 0), (7, updD
    0 2 0)]) [(0, sess)] [], _, _, 0, 0, 5, 0, iw 6 1 0 2 1 3 0x18000000, _, _, _, sess, _, rfl, get_some (by decide +kernel), get_some
    (by decide +kernel), rfl, ok_state (by decide +kernel), done_state (by decide +kernel), by decide +kernel⟩, ⟨withUpd (onCore0 [(2,
    1)] [(1, buf), (2, desc (2 * 2 ^ 60 + 2 ^ 56 + 1 * 2 ^ 44 + 64 * 2 ^ 32) (256 * 2 ^ 21 + 0x1000) 0 0), (7, updD 0 2 0)]) [(0, sess)]
    [], _, t0, 5, 0, iw 6 2 0 1 2 0 0x18000000, _, sess, get_some (by decide +kernel), rfl, by decide +kernel⟩, ⟨withUpd (onCore0 [(2,
    1)] [(1, buf), (2, desc (2 * 2 ^ 60 + 2 ^ 56 + 1 * 2 ^ 44 + 64 * 2 ^ 32) (256 * 2 ^ 21 + 0x1000) 0 0), (7, updD 0 2 0)]) [(0, sess)]
    [(0, cont 0 .inFlight)], 0, _, _, get_some (by decide +kernel), get_some (by decide +kernel), by decide +kernel⟩, ⟨withUpd (onCore0
    [(2, 1)] [(1, buf), (2, desc (2 * 2 ^ 60 + 2 ^ 56 + 1 * 2 ^ 44 + 64 * 2 ^ 32) (256 * 2 ^ 21 + 0x1000) 0 0), (7, updD 0 2 0)]) [(0,
    { sess with pool := List.replicate 16384 (0, 1, [], false) })] [(0, cont 1 .inFlight)], 0, _, _, get_some (by decide +kernel),
    get_some (by decide +kernel), by decide +kernel⟩, ⟨withUpd (onCore0 [(2, 1)] [(1, buf), (2, desc (2 * 2 ^ 60 + 2 ^ 56 + 1 * 2 ^ 44 +
    64 * 2 ^ 32) (256 * 2 ^ 21 + 0x1000) 0 0), (7, updD 0 2 0)]) [(0, sess)] [(0, cont 1 .inFlight)], 0, _, _, get_some
    (by decide +kernel), get_some (by decide +kernel), by decide +kernel⟩, ⟨withUpd (onCore0 [(2, 1)] [(1, buf), (2, desc (2 * 2 ^ 60 + 2
    ^ 56 + 1 * 2 ^ 44 + 64 * 2 ^ 32) (256 * 2 ^ 21 + 0x1000) 0 0), (7, updD 0 2 0)]) [(0, sess)] [(0, cont 0 (.refused 3))], 0, 3, _,
    get_some (by decide +kernel), by decide +kernel⟩, ⟨withUpd (onCore0 [(2, 1)] [(1, buf), (2, desc (2 * 2 ^ 60 + 2 ^ 56 + 1 * 2 ^ 44 +
    64 * 2 ^ 32) (256 * 2 ^ 21 + 0x1000) 0 0), (7, updD 0 2 0)]) [(0, { sess with closes := 1 })] [], 0, _, get_some (by decide +kernel),
    by decide +kernel⟩, ⟨withUpd (onCore0 [(2, 1)] [(1, buf), (2, desc (2 * 2 ^ 60 + 2 ^ 56 + 1 * 2 ^ 44 + 64 * 2 ^ 32) (256 * 2 ^ 21 +
    0x1000) 0 0), (7, updD 0 2 0)]) [(0, sess)] [], 0, _, get_some (by decide +kernel), by decide +kernel⟩⟩

theorem hyps_BindingRegisters :
  (∃ (s : State) (c b t since : Nat) (d : BlockDesc), blockDesc (getCore s c) b = some d ∧ coreRuns s c = true ∧ (getCore s c).loading =
    false ∧ minBy (fun e => e.2) (bindable (getCore s c)) = some (b, since) ∧ freeThread (getCore s c) = some t) :=
  ⟨on { core [] [] with threads := [], prog := some (prog []), blocks := [(0, { BlockSt.reset with readySince := some 3 })] } (ctx []
    []), 0, 0, 0, 3, _, get_some (by decide +kernel), by decide +kernel⟩

theorem hyps_FiringEvents :
  (∃ (s s' : State) (n c : Nat) (j : LoadJob) (im : Image), (getCtx s n).loadp = some j ∧ readProgram s n c j.va = (.ok im, s') ∧ j.cores
    = [c] ∧ j.failed = none ∧ (getCore s c).owner = some n ∧ (getCore s c).loading = true ∧ boundThreads (getCore s c) = [] ∧ coreRuns s
    c = true ∧ imageHeld s n j.va = false) ∧
  (∃ (s s' : State) (n c e : Nat) (j : LoadJob), (getCtx s n).loadp = some j ∧ readProgram s n c j.va = (.error e, s') ∧ j.cores = [c] ∧
    j.failed = none ∧ (getCore s c).owner = some n ∧ (getCore s c).loading = true ∧ boundThreads (getCore s c) = [] ∧ coreRuns s c = true
    ∧ imageHeld s n j.va = false) ∧
  (∃ (s : State) (c : Nat), 4 ≤ (getCore s c).idleRun ∧ coreCanFire (getCore s c) = false ∧ (getCore s c).gated = false) ∧
  (∃ (s : State) (c n t : Nat), (getCore s c).owner = some n ∧ (getCore s c).starvedSince = some t ∧ s.clk.stallEnable = true ∧ 0 <
    s.clk.stallLimitUs ∧ starved (getCore s c) = true ∧ coreRuns s c = true ∧ t + s.clk.stallLimitUs * 48 ≤ s.clk.tick) ∧
  (∃ (s : State) (c n t : Nat), (getCore s c).owner = some n ∧ (getCore s c).starvedSince = some t ∧ s.clk.tick < t + s.clk.stallLimitUs
    * 48) ∧
  (∃ (s : State) (c ep : Nat), (getEp (getCore s c) ep).inFlight ≠ [] ∧ coreRuns s c = true) ∧
  (∃ (s : State) (c ep : Nat), (getEp (getCore s c) ep).inFlight ≠ [] ∧ coreRuns s c = false ∧ dieStopped s c = true) ∧
  (∃ (s : State) (c ep : Nat), (getEp (getCore s c) ep).creditFlight ≠ 0 ∧ (getEp (getCore s c) ep).isOpen = true ∧ coreRuns s c = true) ∧
  (∃ (s : State) (n c k : Nat) (m : Contribution) (l : List Contribution), coreKeyOf s n c = some k ∧ (getCore s k).sumFlight = m :: l) :=
  ⟨⟨memAt (loading 0x8000) 0x8007 [2], _, 5, 0, _, (readProgram (memAt (loading 0x8000) 0x8007 [2]) 5 0 0x8000).1.toOption.get
    (by decide +kernel), get_some (by decide +kernel), pair_r (by decide +kernel), by decide +kernel⟩, ⟨loading 0x9000, _, 5, 0, 2, _,
    get_some (by decide +kernel), pair_r (by decide +kernel), by decide +kernel⟩, ⟨on { core [] [] with threads := [], idleRun := 4 }
    (ctx [] []), 0, by decide +kernel⟩,
    ⟨{ on { core [] [] with prog := some (prog []), blocks := [(0, { BlockSt.reset with readySince := some 3 })], starvedSince := some 0, threads := (List.range 16).map fun t => (t, { thr [] with st := .parked 1 (.packet 1) 0 }) } (ctx [] []) with clk := { s0.clk with stallLimitUs := 10 } },
    0, 5, 0, by decide +kernel⟩, ⟨on { core [] [] with starvedSince := some 900 } (ctx [] []), 0, 5, 900, by decide +kernel⟩, ⟨onEp
    { Endpoint.reset with inFlight := [⟨zeros 64, false, true, true, false⟩] } (thr []), 0, 1, by decide +kernel⟩,
    ⟨{ onEp { Endpoint.reset with inFlight := [⟨zeros 64, false, true, true, false⟩] } (thr []) with clk := { s0.clk with dies := [(0, { die0 with pllOn := false })] } },
    0, 1, by decide +kernel⟩, ⟨onEp { Endpoint.reset with cfg := qword 2 0 4 0 0 0 0 2, isOpen := true, creditFlight := 2 } (thr []), 0,
    1, by decide +kernel⟩, ⟨on { core [] [] with sumCredit := 3, sumFlight := [⟨0, 1, 0, 3, false, 7⟩] } (ctx [] []), 5, 0, 0, ⟨0, 1, 0,
    3, false, 7⟩, [], by decide +kernel⟩⟩

theorem hyps_GovernorAndHeat :
  (∃ (s : State) (p q : Nat), min p 3600000 = q ∧ s.pwr.off = false ∧ 1000 * s.clk.sustainedW < q ∧ 799 ≤ s.clk.aboveSamples ∧ canLower s
    = true) ∧
  (∃ (s : State) (p q : Nat), min p 3600000 = q ∧ s.pwr.off = false ∧ 1000 * s.clk.sustainedW < q ∧ 799 ≤ s.clk.aboveSamples ∧ canLower s
    = false) ∧
  (∃ (s : State) (p q : Nat), min p 3600000 = q ∧ s.pwr.off = false ∧ 1000 * s.clk.sustainedW < q ∧ s.clk.aboveSamples < 799) ∧
  (∃ (s : State) (p q : Nat), min p 3600000 = q ∧ s.pwr.off = false ∧ q * 20 ≤ 1000 * s.clk.sustainedW * 19 ∧ 9 ≤ s.clk.relaxSamples ∧ 0
    < s.clk.issueWithheld) ∧
  (∃ (s : State) (p q : Nat), min p 3600000 = q ∧ s.pwr.off = false ∧ q * 20 ≤ 1000 * s.clk.sustainedW * 19 ∧ 9 ≤ s.clk.relaxSamples ∧
    s.clk.issueWithheld = 0 ∧ s.clk.hot = false ∧ s.pwr.tempMax ≤ 95) ∧
  (∃ (s t : State) (p : Nat), exec (.govStep p) s = .next t ∧ s.pwr.off = false) ∧
  (∃ (s : State) (k : Nat), s.pwr.off = false ∧ s.recov.fatal = false ∧ 100 < k ∧ k ≤ 115) ∧
  (∃ (s : State) (k : Nat), s.pwr.off = false ∧ s.recov.fatal = false ∧ 115 < k) ∧
  (∃ (s : State) (k : Nat), s.pwr.off = false ∧ s.recov.fatal = false ∧ k ≤ 95) ∧
  (∃ (s : State), s.pwr.off = false ∧ s.clk.oscB = false ∧ s.clk.failB = false) ∧
  (∃ (s : State) (b : Bool), s.pwr.off = false ∧ (if b then s.clk.failA else s.clk.failB) = true) ∧
  (∃ (s : State) (k : Nat), running s = true ∧ (getDie s k).state = 2 ∧ (getDie s k).pllOn = true ∧ dieHasWork s k = false ∧ 48 * (getDie
    s k).holdoff ≤ (getDie s k).idleTicks) ∧
  (∃ (s : State) (k : Nat), (getDie s k).idleTicks < 48 * (getDie s k).holdoff) ∧
  (∃ (s : State) (k : Nat), running s = true ∧ s.pwr.inHold = false ∧ (getDie s k).state = 2 ∧ (getDie s k).pllOn = false ∧ (getDie s
    k).starting = true ∧ s.clk.edge.filter (edgeOf s (coresOfDie s k)) = []) :=
  ⟨⟨{ s0 with clk := { s0.clk with aboveSamples := 799, lowered := 7 } }, 3300000, _, rfl, by decide +kernel⟩,
    ⟨{ s0 with clk := { s0.clk with aboveSamples := 799, lowered := 8 } }, 3300000, _, rfl, by decide +kernel⟩,
    ⟨{ s0 with clk := { s0.clk with aboveSamples := 798 } }, 3300000, _, rfl, by decide +kernel⟩,
    ⟨{ s0 with clk := { s0.clk with relaxSamples := 9, issueWithheld := 2 } }, 3000000, _, rfl, by decide +kernel⟩,
    ⟨{ s0 with clk := { s0.clk with relaxSamples := 9, lowered := 1, throttling := true } }, 3000000, _, rfl, by decide +kernel⟩, ⟨s0, _,
    5000000, next_state (by decide +kernel), by decide +kernel⟩, ⟨s0, 101, by decide +kernel⟩, ⟨s0, 116, by decide +kernel⟩, ⟨s0, 95,
    by decide +kernel⟩, ⟨s0, by decide +kernel⟩, ⟨{ s0 with clk := { s0.clk with oscB := true, failA := true } }, true,
    by decide +kernel⟩, ⟨{ s0 with clk := { s0.clk with dies := [(0, { die0 with idleTicks := 4800 })] } }, 0, by decide +kernel⟩, ⟨s0,
    0, by decide +kernel⟩, ⟨{ s0 with clk := { s0.clk with dies := [(0, { die0 with pllOn := false, starting := true })] } }, 0,
    by decide +kernel⟩⟩

theorem hyps_ClockRegisters :
  (∃ (s : State), hostUp s = true) ∧
  (∃ (s : State), hostUp s = true) ∧
  (∃ (s : State) (k : Nat) (v : Word32), hostUp s = true ∧ k < 9) ∧
  (∃ (s : State) (k : Nat) (v : Word32), hostUp s = true ∧ k < 9 ∧ (getDie s k).state ≠ 2) ∧
  (∃ (s : State) (uj : Nat) (ds : List DomainReading), s.pwr.off = false) :=
  ⟨⟨s0, by decide +kernel⟩, ⟨s0, by decide +kernel⟩, ⟨s0, 0, 0x40064000, by decide +kernel⟩, ⟨s0, 1, 0x40064000, by decide +kernel⟩, ⟨s0,
    1000, [], by decide +kernel⟩⟩

theorem hyps_BankResults :
  (∃ (s : State) (id c : Nat) (r : MReq), getMReq s id = some r ∧ r.isWrite = false ∧ r.phase = .served ∧ (getCtx s r.ctx).state =
    ctxLive ∧ r.core = some c ∧ dieStopped s c = false ∧ r.tag.check = crc32c r.data) ∧
  (∃ (s : State) (id c : Nat) (r : MReq), getMReq s id = some r ∧ r.isWrite = false ∧ r.phase = .served ∧ (getCtx s r.ctx).state =
    ctxLive ∧ r.core = some c ∧ dieStopped s c = false) ∧
  (∃ (s : State) (id c : Nat) (r : MReq), getMReq s id = some r ∧ r.isWrite = false ∧ r.phase = .served ∧ (getCtx s r.ctx).state =
    ctxLive ∧ r.core = some c ∧ dieStopped s c = true) ∧
  (∃ (s : State) (id : Nat) (r : MReq), getMReq s id = some r ∧ r.isWrite = false ∧ r.phase = .served ∧ (getCtx s r.ctx).state = ctxLive
    ∧ r.core = none ∧ r.tag.check = crc32c r.data) ∧
  (∃ (s : State) (id : Nat) (r : MReq), getMReq s id = some r ∧ (∀ c, r.core = some c → dieStopped s c = false) ∧ r.isWrite = true ∧
    r.phase = .served ∧ (getCtx s r.ctx).state = ctxLive) ∧
  (∃ (s : State) (id c : Nat) (r : MReq), getMReq s id = some r ∧ r.isWrite = true ∧ r.phase = .served ∧ (getCtx s r.ctx).state = ctxLive
    ∧ r.core = some c ∧ dieStopped s c = true) ∧
  (∃ (s : State) (id : Nat) (r : MReq), getMReq s id = some r ∧ r.isWrite = true ∧ r.phase = .served ∧ (getCtx s r.ctx).state =
    ctxEnding) ∧
  (∃ (s : State) (bank id : Nat) (r : MReq), nextAtBank s bank = some (id, r) ∧ s.pwr.inHold = false ∧ bankAsleep s bank = false ∧
    fromOutside r = true) ∧
  (∃ (s : State) (bank : Nat), bankAsleep s bank = true) ∧
  (∃ (s : State) (bank id : Nat) (r : MReq), nextAtBank s bank = some (id, r) ∧ s.pwr.inHold = false ∧ bankAsleep s bank = false ∧
    fromOutside r = false ∧ r.isWrite = false ∧ servePa s r.pa = r.pa ∧ unitLost s r.pa = false) ∧
  (∃ (s : State) (bank id q : Nat) (r : MReq), nextAtBank s bank = some (id, r) ∧ servePa s r.pa = q ∧ s.pwr.inHold = false ∧ bankAsleep
    s bank = false ∧ fromOutside r = false ∧ r.isWrite = false ∧ q ≠ r.pa ∧ unitLost s q = false) ∧
  (∃ (s : State) (bank id : Nat) (r : MReq), nextAtBank s bank = some (id, r) ∧ s.pwr.inHold = false ∧ bankAsleep s bank = false ∧
    fromOutside r = false ∧ r.isWrite = true ∧ unitLost s r.pa = false ∧ heldLines s r.pa = [] ∧ biWaits s r.pa = false) ∧
  (∃ (s : State) (bank id : Nat) (r : MReq), nextAtBank s bank = some (id, r) ∧ s.pwr.inHold = false ∧ bankAsleep s bank = false ∧
    fromOutside r = false ∧ r.isWrite = true ∧ unitLost s r.pa = false ∧ heldLines s r.pa ≠ []) ∧
  (∃ (s : State) (bank id : Nat) (r : MReq), nextAtBank s bank = some (id, r)) :=
  ⟨⟨withReq (req false 1 0x1000 .served), 0, 0, _, get_some (by decide +kernel), by decide +kernel⟩, ⟨withReq (req false 1 0x1000
    .served), 0, 0, _, get_some (by decide +kernel), by decide +kernel⟩,
    ⟨{ withReq (req false 1 0x1000 .served) with clk := { s0.clk with dies := [(0, { die0 with pllOn := false })] } }, 0, 0, _, get_some
    (by decide +kernel), by decide +kernel⟩, ⟨withReq { req false 1 0x1000 .served with core := none, agent := none }, 0, _, get_some
    (by decide +kernel), by decide +kernel⟩, ⟨withReq (req true 1 0x1000 .served), 0, _, get_some (by decide +kernel), of_opt
    (by decide +kernel), by decide +kernel⟩,
    ⟨{ withReq (req true 1 0x1000 .served) with clk := { s0.clk with dies := [(0, { die0 with pllOn := false })] } }, 0, 0, _, get_some
    (by decide +kernel), by decide +kernel⟩,
    ⟨{ withReq (req true 1 0x1000 .served) with ctxs := [(5, { ctx [] [] with state := ctxEnding })] }, 0, _, get_some
    (by decide +kernel), by decide +kernel⟩, ⟨withReq { req false 1 0x1000 .queued with core := none, agent := none, dest := .host },
    256, 0, _, get_some_r (by decide +kernel), by decide +kernel⟩,
    ⟨{ withReq (req false 1 0x1000 .queued) with pwr := { s0.pwr with state := 2, pin := 0 } }, 256, by decide +kernel⟩, ⟨withReq (req
    false 1 0x1000 .queued), 256, 0, _, get_some_r (by decide +kernel), by decide +kernel⟩,
    ⟨{ withReq (req false 1 0x600000 .queued) with models := [(0, { mdl0 with mirrored := true, mirrorPages := [32768] })], recov := { Rec.reset with lostStacks := [0] } },
    bankOf 0 0x600000, 0, _, _, get_some_r (by decide +kernel), rfl, by decide +kernel⟩, ⟨withReq (req true 1 0x1000 .queued), 256, 0, _,
    get_some_r (by decide +kernel), by decide +kernel⟩,
    ⟨{ withReq (req true 1 0x1000 .queued) with host := { s0.host with snoop := [0x42] } }, 256, 0, _, get_some_r (by decide +kernel),
    by decide +kernel⟩, ⟨withReq (req true 1 0x1000 .queued), 256, 0, _, get_some_r (by decide +kernel)⟩⟩

theorem hyps_TierResults :
  (∃ (s : State) (id : Nat) (r : MReq), getMReq s id = some r ∧ 2 ≤ r.tier ∧ unanswered s id r = true ∧ r.stamp + r.limit < s.clk.tick) ∧
  (∃ (s : State) (id : Nat) (r : MReq), getMReq s id = some r ∧ s.clk.tick ≤ r.stamp + r.limit) ∧
  (∃ (s : State) (id : Nat) (r : MReq), getMReq s id = some r ∧ r.tier = 1) ∧
  (∃ (s : State) (id : Nat) (p : Bool) (r : MReq), getMReq s id = some r ∧ r.tier = 4 ∧ r.phase = .queued ∧ mustWait s r = false ∧
    r.isWrite = false) ∧
  (∃ (s : State) (id : Nat) (p : Bool) (r : MReq), getMReq s id = some r ∧ r.tier = 4 ∧ r.phase = .queued ∧ mustWait s r = false ∧
    r.isWrite = true) ∧
  (∃ (s : State) (id : Nat) (p : Bool) (r : MReq), getMReq s id = some r ∧ r.tier = 4 ∧ r.phase = .queued ∧ mustWait s r = false) ∧
  (∃ (s : State) (line : Nat), (s.mem.reqs.filter fun e => e.2.phase == .waitBi) = [] ∧ s.host.fwWaits = []) ∧
  (∃ (s u : State) (line id : Nat) (r : MReq), (modHost s fun h => { h with biLines := h.biLines.filter fun l => l != line }) = u ∧ (∀ p
    t o, r.dest ≠ .peer p t o) ∧ (u.mem.reqs.filter fun e => e.2.phase == .waitBi && !biWaits u e.2.pa) = [(id, r)] ∧ s.host.fwWaits =
    []) ∧
  (∃ (s : State) (a : Nat), hostUp s = true) :=
  ⟨⟨withReq (req false 4 0x1000 .queued), 0, _, get_some (by decide +kernel), by decide +kernel⟩,
    ⟨{ withReq (req false 4 0x1000 .queued) with clk := { Clock.reset with tick := 110 } }, 0, _, get_some (by decide +kernel),
    by decide +kernel⟩, ⟨withReq (req false 1 0x1000 .queued), 0, _, get_some (by decide +kernel), by decide +kernel⟩, ⟨withReq (req
    false 4 0x1000 .queued), 0, false, _, get_some (by decide +kernel), by decide +kernel⟩, ⟨withReq (req true 4 0x1000 .queued), 0,
    true, _, get_some (by decide +kernel), by decide +kernel⟩, ⟨withReq (req true 4 0x1000 .queued), 0, true, _, get_some
    (by decide +kernel), by decide +kernel⟩, ⟨{ s0 with host := { s0.host with biLines := [64] } }, 64, by decide +kernel⟩,
    ⟨{ s0 with host := { s0.host with biLines := [64] }, mem := { Mem.reset with reqs := [(0, req true 1 0x1000 .waitBi)] } }, _, 64, 0,
    req true 1 0x1000 .waitBi, rfl, by simp [req], by decide +kernel⟩, ⟨s0, 0x1000, by decide +kernel⟩⟩

theorem hyps_DramResults :
  (∃ (s : State) (pa : Nat), (tierOf pa = 1 ∨ tierOf pa = 2) ∧ unitLost s pa = false ∧ otherCopy s (grainBase pa) = none ∧ modelGrain s
    (grainBase pa) = none) ∧
  (∃ (s : State) (pa m : Nat), mirrorOf s (grainBase pa) = some m ∧ (tierOf pa = 1 ∨ tierOf pa = 2) ∧ unitLost s pa = false ∧ unitLost s
    m = false) ∧
  (∃ (s : State) (pa m : Nat), primaryOf s (grainBase pa) = some m ∧ (tierOf pa = 1 ∨ tierOf pa = 2) ∧ unitLost s pa = false ∧ mirrorOf s
    (grainBase pa) = none ∧ unitLost s m = false) ∧
  (∃ (s : State) (pa : Nat), s.mem.refetching.contains (grainBase pa) = true ∧ modelGrain s (grainBase pa) = none) ∧
  (∃ (s : State) (pa : Nat) (e : Nat × Model × Layer × Nat), modelGrain s (grainBase pa) = some e ∧ s.mem.refetching.contains (grainBase
    pa) = true) ∧
  (∃ (s : State) (pa : Nat), s.mem.refetching.contains (grainBase pa) = false) ∧
  (∃ (s : State) (pa : Nat), unitLost s pa = false ∧ tierOf pa = 1) ∧
  (∃ (s : State) (pa : Nat), unitLost s pa = false ∧ tierOf pa = 2) ∧
  (∃ (s : State) (v : Word32), v.toNat % 4 ≠ 3 ∧ v.toNat % 4 ≠ s.mem.hintGroups ∧ capacityMapped s = false) ∧
  (∃ (s : State) (v : Word32), v.toNat % 4 ≠ 3 ∧ v.toNat % 4 ≠ s.mem.hintGroups ∧ capacityMapped s = true) ∧
  (∃ (s : State) (v : Word32), v.toNat % 4 = 3) ∧
  (∃ (g pa : Nat), g ≤ 2 ∧ tierOf pa = 2) ∧
  (∃ (g pa : Nat), tierOf pa = 1) :=
  ⟨⟨s0, 0x1000, by decide +kernel⟩, ⟨withModel s0 { mdl0 with mirrored := true, mirrorPages := [9] }, 0x600000, _, get_some
    (by decide +kernel), by decide +kernel⟩, ⟨withModel s0 { mdl0 with mirrored := true, mirrorPages := [9] }, 0x1200000, _, get_some
    (by decide +kernel), by decide +kernel⟩, ⟨{ s0 with mem := { Mem.reset with refetching := [0x1000] } }, 0x1000, by decide +kernel⟩,
    ⟨{ withModel s0 { mdl0 with tier := 0 } with mem := { Mem.reset with refetching := [0x600000] } }, 0x600000, _, get_some
    (by decide +kernel), by decide +kernel⟩, ⟨s0, 0x1000, by decide +kernel⟩, ⟨s0, 0x1000, by decide +kernel⟩, ⟨s0, 0x10000000000,
    by decide +kernel⟩, ⟨s0, 1, by decide +kernel⟩,
    ⟨{ s0 with ctxs := [(5, { ctx [] [] with maps := [⟨0, 0x10000000000, 0x200000, true, false⟩] })] }, 2, by decide +kernel⟩, ⟨s0, 3,
    by decide +kernel⟩, ⟨2, 0x2FFFFFFFF00, by decide +kernel⟩, ⟨2, 0xFFFFFFFF00, by decide +kernel⟩⟩

theorem hyps_PortResults :
  (∃ (s : State) (k : Nat), (getPort s k).state = ptDisabled ∧ s.pwr.service = 2) ∧
  (∃ (s : State) (k : Nat), (getPort s k).state = ptDisabled ∧ s.pwr.service ≠ 3) ∧
  (∃ (s : State) (k : Nat), (getPort s k).state = ptDown) ∧
  (∃ (s : State) (k : Nat) (l : BitVec 18), (getPort s k).state = ptDetect ∧ 8 ≤ laneCount l) ∧
  (∃ (s : State) (k : Nat) (l : BitVec 18), laneCount l < 8) ∧
  (∃ (s : State) (k : Nat) (p b : BitVec 18), (getPort s k).state = ptTrain ∧ laneTestOk s k p b = true ∧ 8 ≤ laneCount (usableLanes s k
    p)) ∧
  (∃ (s : State) (k : Nat) (p b : BitVec 18), (getPort s k).state = ptTrain ∧ laneTestOk s k p b = true ∧ laneCount (usableLanes s k p) <
    8) ∧
  (∃ (s : State) (k : Nat) (p b : BitVec 18), (getPort s k).state = ptRetrain ∧ laneTestOk s k (retrainLanes s k p) b = true ∧ 8 ≤
    laneCount (usableLanes s k (retrainLanes s k p))) ∧
  (∃ (s : State) (k : Nat) (p b : BitVec 18), (getPort s k).state = ptRetrain ∧ laneTestOk s k (retrainLanes s k p) b = true) ∧
  (∃ (s : State) (k : Nat), (getPort s k).state = ptDown ∧ (getPort s k).enteredAt + 4800000 ≤ s.clk.tick) ∧
  (∃ (s : State) (k : Nat), s.clk.tick < (getPort s k).enteredAt + 4800000) ∧
  (∃ (s : State) (k : Nat) (n : List Nat), (∀ j, 1 ≤ j → n.getD j 0 ≤ (getPort s k).laneLimit) ∧ (getPort s k).state = ptActive ∧
    (getPort s k).laneLimit < n.getD 0 0 ∧ bit (getPort s k).active.toNat 0 = true ∧ bit (getPort s k).bad.toNat 0 = false) ∧
  (∃ (s : State) (k : Nat) (n : List Nat), (∀ j, n.getD j 0 ≤ (getPort s k).laneLimit) ∧ (getPort s k).state = ptActive) ∧
  (∃ (s : State) (k l : Nat), (getPort s k).state = ptActive ∧ bit (getPort s k).active.toNat l = true) ∧
  (∃ (s : State) (k l : Nat), (getPort s k).state = ptActive ∧ (getPort s k).swapLane = some l ∧ lowLanes (getPort s k).spare 1 = 0) ∧
  (∃ (s : State) (k l : Nat), (getPort s k).state = ptActive ∧ (getPort s k).swapLane = some l ∧ lowLanes (getPort s k).spare 1 ≠ 0) ∧
  (∃ (s : State) (k : Nat), isActive s k = true) :=
  ⟨⟨withPort { port 0 with enteredAt := 10 }, 2, by decide +kernel⟩, ⟨withPort { port 0 with enteredAt := 10 }, 2, by decide +kernel⟩,
    ⟨withPort { port 6 with enteredAt := 10 }, 2, by decide +kernel⟩, ⟨withPort { port 1 with enteredAt := 10 }, 2, 0xFF,
    by decide +kernel⟩, ⟨withPort { port 1 with enteredAt := 10 }, 2, 0x7F, by decide +kernel⟩, ⟨withPort
    { port 2 with enteredAt := 10 }, 2, 0x3FFFF, 0xFF, by decide +kernel⟩, ⟨withPort { port 2 with enteredAt := 10 }, 2, 0x7F, 0x7F,
    by decide +kernel⟩, ⟨withPort { port 5 with enteredAt := 10 }, 2, 0xFF, 0xFF, by decide +kernel⟩, ⟨withPort
    { port 5 with enteredAt := 10 }, 2, 0xFF, 0xFF, by decide +kernel⟩,
    ⟨{ withPort { port 6 with enteredAt := 10 } with clk := { s0.clk with tick := 4800010 } }, 2, by decide +kernel⟩,
    ⟨{ withPort { port 6 with enteredAt := 10 } with clk := { s0.clk with tick := 4800009 } }, 2, by decide +kernel⟩, ⟨withPort
    { port 4 with enteredAt := 10 }, 2, [4097], by intro j hj; match j with | 0 => omega | _ + 1 => exact Nat.zero_le _,
    by decide +kernel⟩, ⟨withPort { port 4 with enteredAt := 10 }, 2, [], by intro j; exact Nat.zero_le _, by decide +kernel⟩, ⟨withPort
    { port 4 with enteredAt := 10 }, 2, 15, by decide +kernel⟩, ⟨withPort
    { port 4 with enteredAt := 10, swapLane := some 3, spare := 0 }, 2, 3, by decide +kernel⟩, ⟨withPort
    { port 4 with enteredAt := 10, swapLane := some 3 }, 2, 3, by decide +kernel⟩, ⟨withPort { port 4 with enteredAt := 10 }, 2,
    by decide +kernel⟩⟩

theorem hyps_LinkResults :
  (∃ (s : State) (k : Nat) (g : FecGroup), (getPort s k).state = ptActive ∧ g.decodes = false ∧ (carriesNext (getPort s k) g && decide
    ((getPort s k).replayMax ≤ (getPort s k).fecTries)) = false) ∧
  (∃ (s : State) (k : Nat) (g : FecGroup), (getPort s k).state = ptActive ∧ g.decodes = false ∧ carriesNext (getPort s k) g = true ∧
    (getPort s k).replayMax ≤ (getPort s k).fecTries) ∧
  (∃ (s s' : State) (k : Nat) (g : FecGroup) (nak : Bool), takeFlits (setPort s k
    { getPort s k with fecCorrected := (getPort s k).fecCorrected + g.corrected, fecTries := if carriesNext (getPort s k) g then 0 else (getPort s k).fecTries })
    k (g.flits.take 4) = (s', nak) ∧ (getPort s k).state = ptActive ∧ g.decodes = true) ∧
  (∃ (s : State) (k : Nat) (f : Flit), f.ftype ≠ 0 ∧ f.ftype < 7 ∧ f.lseq = (getPort s k).rxNext ∧ f.check = crc32c f.body) ∧
  (∃ (s : State) (k : Nat) (f : Flit), f.ftype ≠ 0 ∧ f.ftype < 7 ∧ f.lseq = (getPort s k).rxNext ∧ f.check ≠ crc32c f.body ∧ (getPort s
    k).rxTries < (getPort s k).replayMax) ∧
  (∃ (s : State) (k : Nat) (f : Flit), f.ftype ≠ 0 ∧ f.ftype < 7 ∧ f.lseq = (getPort s k).rxNext ∧ f.check ≠ crc32c f.body ∧ (getPort s
    k).replayMax ≤ (getPort s k).rxTries) ∧
  (∃ (s : State) (k : Nat) (f : Flit), 7 ≤ f.ftype ∧ f.lseq = (getPort s k).rxNext) ∧
  (∃ (s : State) (k : Nat) (f : Flit), f.lseq ≠ (getPort s k).rxNext) :=
  ⟨⟨withPort { port 4 with enteredAt := 10 }, 2, fec false, by decide +kernel⟩, ⟨withPort { port 4 with enteredAt := 10, fecTries := 4 },
    2, { fec false with flits := [flit 1 0 true] }, by decide +kernel⟩, ⟨withPort (port 4), _, 2, fec true, _, pair2, by decide +kernel⟩,
    ⟨withPort { port 4 with enteredAt := 10 }, 2, flit 1 0 true, by decide +kernel⟩, ⟨withPort { port 4 with enteredAt := 10 }, 2, flit 1
    0 false, by decide +kernel⟩, ⟨withPort { port 4 with enteredAt := 10, rxTries := 4 }, 2, flit 1 0 false, by decide +kernel⟩,
    ⟨withPort { port 4 with enteredAt := 10 }, 2, flit 7 0 true, by decide +kernel⟩, ⟨withPort { port 4 with enteredAt := 10 }, 2, flit 1
    9 true, by decide +kernel⟩⟩

theorem hyps_PeerMemory :
  (∃ (s : State) (p txn pa off len : Nat), peerPresent s p = true ∧ peerServed s p pa false = true ∧ bankBusy s pa = false ∧ servePa s
    (grainBase pa) = grainBase pa) ∧
  (∃ (s : State) (p txn pa off len : Nat), peerPresent s p = true ∧ peerServed s p pa false = true ∧ bankBusy s pa = true) ∧
  (∃ (s : State) (p txn pa off len : Nat), peerPresent s p = true ∧ peerServed s p pa true = true) ∧
  (∃ (s : State) (p txn pa off len : Nat) (w : Bool), peerPresent s p = true ∧ exported s p pa w = false) ∧
  (∃ (s u v : State) (p txn f q : Nat) (d : List Byte) (bad : Bool) (w : PeerWrite), (s.peers.writesIn.find? fun x => x.src == p && x.txn
    == txn) = some w ∧ modPeers s (fun x => { x with writesIn := dropFirst (fun y => y == w) x.writesIn }) = u ∧ mergeAs (checkHome u
    w.pa w.off ((fit 256 d).take w.len).length) w.pa w.off ((fit 256 d).take w.len) (mkTag (fit 256 d) f q bad) = v ∧ peerPresent s p =
    true ∧ bankBusy s w.pa = false ∧ unitLost s w.pa = false) ∧
  (∃ (s u : State) (p txn f q : Nat) (d : List Byte) (bad : Bool) (w : PeerWrite), (s.peers.writesIn.find? fun x => x.src == p && x.txn
    == txn) = some w ∧ modPeers s (fun x => { x with writesIn := dropFirst (fun y => y == w) x.writesIn }) = u ∧ peerPresent s p = true ∧
    bankBusy s w.pa = true) ∧
  (∃ (s : State) (p txn f q id : Nat) (d : List Byte) (bad : Bool) (r : MReq), openTxn s p txn = some (id, r) ∧ peerPresent s p = true ∧
    (s.peers.writesIn.find? fun w => w.src == p && w.txn == txn) = none ∧ r.isWrite = false) ∧
  (∃ (s : State) (p txn id : Nat) (r : MReq), openTxn s p txn = some (id, r) ∧ (∀ c, r.core = some c → dieStopped s c = false) ∧
    peerPresent s p = true ∧ r.isWrite = true) ∧
  (∃ (s : State) (p txn id code : Nat) (r : MReq), openTxn s p txn = some (id, r) ∧ peerPresent s p = true ∧ code ≠ rcOk) :=
  ⟨⟨withPeer, 1, 3, 0x1000, 0, 256, by decide +kernel⟩,
    ⟨{ withPeer with mem := { Mem.reset with reqs := [(0, req false 1 0x1000 .queued)] } }, 1, 3, 0x1000, 0, 256, by decide +kernel⟩,
    ⟨withPeer, 1, 3, 0x1000, 0, 256, by decide +kernel⟩, ⟨withPeer, 1, 3, 0x80000000, 0, 256, true, by decide +kernel⟩,
    ⟨{ withPeer with peers := { Peers.reset with present := 0x02, writesIn := [⟨1, 3, 0x1000, 0, 256, 10, 1⟩] } }, _, _, 1, 3, 0, 0,
    zeros 256, false, _, get_some (by decide +kernel), rfl, rfl, by decide +kernel⟩,
    ⟨{ withPeer with peers := { Peers.reset with present := 0x02, writesIn := [⟨1, 3, 0x1000, 0, 256, 10, 1⟩] }, mem := { Mem.reset with reqs := [(0, req false 1 0x1000 .queued)] } },
    _, 1, 3, 0, 0, zeros 256, false, _, get_some (by decide +kernel), rfl, by decide +kernel⟩, ⟨withTxn false, 1, 7, 0, 0, 0, zeros 256,
    false, _, get_some_r (by decide +kernel), by decide +kernel⟩, ⟨withTxn true, 1, 7, 0, _, get_some_r (by decide +kernel), of_opt
    (by decide +kernel), by decide +kernel⟩, ⟨withTxn true, 1, 7, 0, 4, _, get_some_r (by decide +kernel), by decide +kernel⟩⟩

theorem hyps_QueueMessages :
  (∃ (s u : State) (i : Instr) (src cls eseq : Nat) (f : QueueFlit) (m : ArriveMsg) (w : Word) (k : BitVec 8) (b1 b2 : Bool) (n1 n2 n3 n4
    n5 : Nat), InTurn s u src cls eseq ∧ (i, src, cls, eseq) ∈ [(Instr.queueFlit f, f.src, f.cls, f.eseq), (.absent ⟨src, eseq⟩ n1 n2 n3,
    src, 0, eseq), (.arrive ⟨m, eseq⟩, m.src, 0, eseq), (.abort ⟨src, eseq⟩ n1 n2 n3, src, 0, eseq), (.gflagMessage ⟨src, eseq⟩ n1 n2 n3
    b1 b2, src, 0, eseq), (.relaydrain ⟨n1, eseq⟩, partnerOf s, 0, eseq), (.qcredit ⟨src, eseq⟩ n1 n2 n3 n4 n5, src, 0, eseq), (.qconfig
    ⟨src, eseq⟩ n1 n2 w n3 b1, src, 0, eseq), (.qclose ⟨src, eseq⟩ n1 n2 n3 n4 n5, src, 0, eseq), (.routes ⟨k, eseq⟩, partnerOf s, 0,
    eseq)]) ∧
  (∃ (s : State) (src cls eseq : Nat) (i : Instr), peerPresent s src = true ∧ 0 < (eseq + 4096 - eseqWanted s src cls) % 4096 ∧ (eseq +
    4096 - eseqWanted s src cls) % 4096 < 2048 ∧ (s.peers.early.any fun e => e.1 == src && e.2.1 == cls && e.2.2.1 == eseq) = false) ∧
  (∃ (s : State) (src cls eseq : Nat) (i : Instr), 2048 ≤ (eseq + 4096 - eseqWanted s src cls) % 4096) ∧
  (∃ (s u : State) (f : QueueFlit) (c : Nat), flitEnd u f = some c ∧ InTurn s u f.src f.cls f.eseq) ∧
  (∃ (s : State) (f : QueueFlit), peerPresent s f.src = true ∧ 2048 ≤ (f.eseq + 4096 - eseqWanted s f.src f.cls) % 4096) ∧
  (∃ (s u : State) (p c e rc re k n eseq : Nat), remoteEnd u p rc re c e = some k ∧ InTurn s u p 0 eseq ∧ cfgDir (getEp (getCore u k)
    e).cfg = 2 ∧ (getEp (getCore u k) e).isOpen = true ∧ coreRuns u k = true) ∧
  (∃ (s u : State) (p c e part eseq : Nat) (w : Word) (ans : Bool), InTurn s u p 0 eseq ∧ (if ans then remoteEnd else configEnd) u p c e
    (cfgCore w) (cfgEp w) = none ∧ dieStopped u (cfgCore w) = false) ∧
  (∃ (s u : State) (p c e pc pe n k eseq : Nat), remoteEnd u p c e pc pe = some k ∧ InTurn s u p 0 eseq ∧ (getEp (getCore u k)
    pe).heldCfg = none ∧ qcfgWaiter u k pe = none ∧ (getEp (getCore u k) pe).isOpen = true ∧ dieStopped u k = false) ∧
  (∃ (s u : State) (p c e pc pe n k eseq : Nat), remoteEnd u p c e pc pe = some k ∧ InTurn s u p 0 eseq ∧ dieStopped u k = true) :=
  ⟨⟨withFar 1, eseqTaken (withFar 1) 1 0, .queueFlit (qflit 0), 1, 0, 0, qflit 0, arr 0, 0, 0, false, false, 0, 0, 0, 0, 0,
    ⟨by decide +kernel, by decide +kernel, rfl⟩, by decide +kernel⟩, ⟨withFar 1, 1, 0, 5, .queueFlit (qflit 5), by decide +kernel⟩,
    ⟨withFar 1, 1, 0, 4095, .queueFlit (qflit 4095), by decide +kernel⟩, ⟨withFar 1, eseqTaken (withFar 1) 1 0, qflit 0, _, get_some
    (by decide +kernel), ⟨by decide +kernel, by decide +kernel, rfl⟩⟩, ⟨withFar 1, qflit 4095, by decide +kernel⟩, ⟨withFar 2, eseqTaken
    (withFar 2) 1 0, 1, 0, 1, 0, 2, _, 3, 0, get_some (by decide +kernel), ⟨by decide +kernel, by decide +kernel, rfl⟩,
    by decide +kernel⟩, ⟨{ withFar 1 with cores := [(0, core [] [])] }, eseqTaken ({ withFar 1 with cores := [(0, core [] [])] }) 1 0, 1,
    0, 2, 0, 0, qword 2 0 4 0 1 0 0 1, false, ⟨by decide +kernel, by decide +kernel, rfl⟩, by decide +kernel⟩, ⟨withFar 1, eseqTaken
    (withFar 1) 1 0, 1, 0, 2, 0, 1, 7, _, 0, get_some (by decide +kernel), ⟨by decide +kernel, by decide +kernel, rfl⟩,
    by decide +kernel⟩, ⟨{ withFar 1 with clk := { s0.clk with dies := [(0, { die0 with pllOn := false })] } }, eseqTaken
    ({ withFar 1 with clk := { s0.clk with dies := [(0, { die0 with pllOn := false })] } }) 1 0, 1, 0, 2, 0, 1, 7, _, 0, get_some
    (by decide +kernel), ⟨by decide +kernel, by decide +kernel, rfl⟩, by decide +kernel⟩⟩

theorem hyps_Membership :
  (∃ (s u v : State) (h : HelloMsg), (modPort s h.port fun p =>
    { p with farPeer := h.peer, farPort := h.farPort, farNonce := h.ident.nonce }) = u ∧ (if (getPort s h.port).farNonce.isEmpty then
    sendHello u h.port else u) = v ∧ (getPort s h.port).state = ptExchange) ∧
  (∃ (s : State) (h : HelloMsg), ((tget [] s.sec.prot.peerKeys h.peer).any fun b => b != 0) = true ∧ tget [] s.sec.prot.peerKeys h.peer ≠
    h.ident.key) ∧
  (∃ (s u : State) (src p inc je j eseq : Nat), InTurn s u src 0 eseq ∧ p ≠ u.peers.self ∧ tfind u.peers.lives p = some (inc, j) ∧
    peerPresent u p = true ∧ j ≤ je) ∧
  (∃ (s u : State) (src p inc je i j eseq : Nat), InTurn s u src 0 eseq ∧ p ≠ u.peers.self ∧ tfind u.peers.lives p = some (i, j) ∧ (inc ≠
    i ∨ je < j)) ∧
  (∃ (s u : State) (m : BitVec 8) (eseq : Nat), InTurn s u (partnerOf s) 0 eseq) ∧
  (∃ (s u : State) (d eseq : Nat), InTurn s u (partnerOf s) 0 eseq) ∧
  (∃ (s : State), s.pwr.service ≠ 3) ∧
  (∃ (s : State), s.pwr.service = 3) :=
  ⟨⟨withPort (port 3), _, _, helloOf 3, rfl, rfl, by decide +kernel⟩,
    ⟨{ withPort (port 3) with sec := { Sec.reset with prot := { Protection.shipped with peerKeys := [(3, [1])] } } }, helloOf 3,
    by decide +kernel⟩, ⟨{ withPeer with peers := { Peers.reset with present := 0x06, lives := [(2, (4, 1))] } }, eseqTaken
    ({ withPeer with peers := { Peers.reset with present := 0x06, lives := [(2, (4, 1))] } }) 1 0, 1, 2, 4, 1, 1, 0, ⟨by decide +kernel,
    by decide +kernel, rfl⟩, by decide +kernel⟩,
    ⟨{ withPeer with peers := { Peers.reset with present := 0x06, lives := [(2, (4, 1))] } }, eseqTaken
    ({ withPeer with peers := { Peers.reset with present := 0x06, lives := [(2, (4, 1))] } }) 1 0, 1, 2, 4, 0, 4, 1, 0,
    ⟨by decide +kernel, by decide +kernel, rfl⟩, by decide +kernel⟩, ⟨withPartner, eseqTaken (withPartner) 4 0, 0x06, 0,
    ⟨by decide +kernel, by decide +kernel, rfl⟩⟩, ⟨{ withPartner with peers := { Peers.reset with present := 0x10, draining := 2 } },
    eseqTaken ({ withPartner with peers := { Peers.reset with present := 0x10, draining := 2 } }) 4 0, 1, 0, ⟨by decide +kernel,
    by decide +kernel, rfl⟩⟩, ⟨withPort (port 4), by decide +kernel⟩, ⟨recovery, by decide +kernel⟩⟩

theorem hyps_CollectiveEvents :
  (∃ (s u : State) (m : ArriveMsg) (eseq : Nat), InTurn s u m.src 0 eseq ∧ oldAttempt u m.group m.attempt = false ∧ (u.hub.colls.find?
    fun e => !e.2.waiting && matchesWork m e.2.group e.2.attempt e.2.desc) = none ∧ (u.hub.reshards.find? fun e => e.2.phase != .fence &&
    matchesWork m e.2.group e.2.attempt e.2.desc) = none ∧ stepAborted u m.group m.attempt m.step = false) ∧
  (∃ (s u : State) (m : ArriveMsg) (id eseq : Nat) (c : Coll), (u.hub.colls.find? fun e => !e.2.waiting && matchesWork m e.2.group
    e.2.attempt e.2.desc) = some (id, c) ∧ InTurn s u m.src 0 eseq ∧ oldAttempt u m.group m.attempt = false) ∧
  (∃ (s : State) (d x : ColData) (id : Nat) (c : Coll), (s.hub.colls.find? fun e => !e.2.waiting && e.2.flow == d.flow) = some (id, c) ∧
    { d with data := fit 256 d.data } = x ∧ peerPresent s d.src = true) ∧
  (∃ (s : State) (d x : ColData) (id : Nat) (r : Reshard), (s.hub.reshards.find? fun e => e.2.phase != .fence && e.2.flow == d.flow) =
    some (id, r) ∧ { d with data := fit 256 d.data } = x ∧ peerPresent s d.src = true ∧ (s.hub.colls.find? fun e => !e.2.waiting &&
    e.2.flow == d.flow) = none) ∧
  (∃ (s : State) (d : ColData), peerPresent s d.src = true ∧ (s.hub.colls.find? fun e => !e.2.waiting && e.2.flow == d.flow) = none ∧
    (s.hub.reshards.find? fun e => e.2.phase != .fence && e.2.flow == d.flow) = none) ∧
  (∃ (s u : State) (src g a st eseq : Nat), InTurn s u src 0 eseq ∧ oldAttempt u g a = false ∧ ctxOfGroup u g = none) ∧
  (∃ (s u : State) (src g a st n eseq : Nat), ctxOfGroup u g = some n ∧ InTurn s u src 0 eseq ∧ oldAttempt u g a = false) ∧
  (∃ (s u : State) (src g a st eseq : Nat) (f ab : Bool), InTurn s u src 0 eseq ∧ oldAttempt u g a = false ∧ u.hub.gflagMsgs.contains
    { src := src, group := g, attempt := a, step := st, flag := f, aborted := ab } = false) ∧
  (∃ (s : State) (n st : Nat), expired s n st = []) ∧
  (∃ (s : State) (n st a : Nat) (ms : List Nat) (l : List (Nat × List Nat)), expired s n st = (a, ms) :: l ∧ stepAborted s (getCtx s
    n).colgroup a st = false) ∧
  (∃ (s : State) (id : Nat) (r : Reshard), tfind s.hub.reshards id = some r ∧ r.phase = .fence ∧ fenceOpen s r = true ∧ stepAborted s
    r.group r.attempt (fld (dw r.desc 1) 63 32) = false) ∧
  (∃ (s : State) (id : Nat) (r : Reshard), tfind s.hub.reshards id = some r ∧ r.phase = .fence ∧ fenceOpen s r = false) ∧
  (∃ (s : State) (id : Nat) (r : Reshard) (t : Tensor), tfind s.hub.reshards id = some r ∧ tensorOf r.tensor = some t ∧ r.phase =
    .committing) ∧
  (∃ (s : State) (id : Nat) (r : Reshard), tfind s.hub.reshards id = some r ∧ r.phase = .rolledBack) :=
  ⟨⟨withHub Hub.reset, eseqTaken (withHub Hub.reset) 1 0, arr 3, 0, ⟨by decide +kernel, by decide +kernel, rfl⟩, by decide +kernel⟩,
    ⟨withHub { Hub.reset with colls := [(0, coll0)] }, eseqTaken (withHub { Hub.reset with colls := [(0, coll0)] }) 1 0, arr 0, _, 0, _,
    get_some2 (by decide +kernel), ⟨by decide +kernel, by decide +kernel, rfl⟩, by decide +kernel⟩, ⟨withHub
    { Hub.reset with colls := [(0, coll0)] }, cdata 0, _, _, _, get_some2 (by decide +kernel), rfl, by decide +kernel⟩, ⟨withHub
    { Hub.reset with reshards := [(0, rsh .staging)] }, cdata 0, _, _, _, get_some2 (by decide +kernel), rfl, by decide +kernel⟩,
    ⟨withHub Hub.reset, cdata 0, by decide +kernel⟩, ⟨withHub Hub.reset, eseqTaken (withHub Hub.reset) 1 0, 1, 6, 0, 3, 0,
    ⟨by decide +kernel, by decide +kernel, rfl⟩, by decide +kernel⟩, ⟨withHub Hub.reset, eseqTaken (withHub Hub.reset) 1 0, 1, 2, 0, 3,
    _, 0, get_some (by decide +kernel), ⟨by decide +kernel, by decide +kernel, rfl⟩, by decide +kernel⟩, ⟨withHub Hub.reset, eseqTaken
    (withHub Hub.reset) 1 0, 1, 2, 0, 3, 0, false, false, ⟨by decide +kernel, by decide +kernel, rfl⟩, by decide +kernel⟩, ⟨withHub
    Hub.reset, 5, 3, by decide +kernel⟩, ⟨withHub
    { Hub.reset with gflags := [{ ctx := 5, agent := .thread 0 0, dst := 3, group := 2, attempt := 0, step := 3, members := 3, flag := false, sent := true, deadline := 900, order := 0 }] },
    5, 3, 0, [1], [], by decide +kernel⟩, ⟨withHub { Hub.reset with reshards := [(0, rsh .fence)] }, 0, _, get_some (by decide +kernel),
    by decide +kernel⟩,
    ⟨{ withHub { Hub.reset with reshards := [(0, rsh .fence)] } with ctxs := [(5, { ctx [] [] with colgroup := 2, reductions := [(1, 1)] })] },
    0, _, get_some (by decide +kernel), by decide +kernel⟩, ⟨withHub { Hub.reset with reshards := [(0, rsh .committing)] }, 0, _, _,
    get_some (by decide +kernel), get_some (by decide +kernel), by decide +kernel⟩, ⟨withHub
    { Hub.reset with reshards := [(0, rsh .rolledBack)] }, 0, _, get_some (by decide +kernel), by decide +kernel⟩⟩

theorem hyps_RequestDoorbells :
  (∃ (s t : State) (p slot : Nat), AtOnce s t p (.submit p slot) ∧ ((getPart t p).rqSlots ≤ slot ∨ (reqBySlot t p slot).isSome = true ∨
    inWindows t p ((getPart t p).rqBase + 256 * slot) 256 = false)) ∧
  (∃ (s t u : State) (p slot : Nat) (bs : List Byte) (r : Request) (m : Nat × Model), fwFetch (journal t 0 1 (p * 65536 + slot) true)
    ((getPart t p).rqBase + 256 * slot) 256 = (bs, false, u) ∧ r = readRequest u p slot bs ∧ modelByHandle u p r.model = some m ∧ AtOnce
    s t p (.submit p slot) ∧ slot < (getPart t p).rqSlots ∧ reqBySlot t p slot = none ∧ inWindows t p ((getPart t p).rqBase + 256 * slot)
    256 = true ∧ recordOk u r (recWord bs) = true ∧ activeReqs u p < (getPart t p).rqMaxActive ∧ liveReqs u < 65536 ∧ r.pfxIn = 0 ∧
    r.promptTokens ≠ 0) ∧
  (∃ (s t : State) (p slot id : Nat) (r : Request), reqBySlot t p slot = some (id, r) ∧ AtOnce s t p (.cancel p slot) ∧ slot < (getPart t
    p).rqSlots ∧ getReq t id = some r ∧ r.bound = false ∧ r.heldEntry = none) ∧
  (∃ (s t : State) (p slot id : Nat) (r : Request), reqBySlot t p slot = some (id, r) ∧ AtOnce s t p (.cancel p slot) ∧ slot < (getPart t
    p).rqSlots ∧ getReq t id = some r ∧ r.bound = true) ∧
  (∃ (s t : State) (p slot id : Nat) (r : Request), reqBySlot t p slot = some (id, r) ∧ AtOnce s t p (.kick p slot) ∧ slot < (getPart t
    p).rqSlots) ∧
  (∃ (s t : State) (p slot : Nat) (i : Instr), AtOnce s t p i ∧ (getPart t p).rqSlots ≤ slot ∧ i ∈ [Instr.cancel p slot, .kick p slot]) ∧
  (∃ (s t : State) (p ix : Nat) (w : Word) (h : Handle), handleByWord t p w = some (ix, h) ∧ AtOnce s t p (.pfxRelease p w) ∧ tfind
    t.rollout.handles ix = some h) ∧
  (∃ (s t : State) (p : Nat) (w : Word), AtOnce s t p (.pfxRelease p w) ∧ handleByWord t p w = none) ∧
  (∃ (s : State) (p slot n : Nat) (w : Word) (b : Bool) (i : Instr), accepting s p = true ∧ bellAtOnce s p i = false ∧ i ∈ [Instr.submit
    p slot, .cancel p slot, .kick p slot, .pfxRelease p w, .load p slot, .unload p slot, .replace p slot, .attach p slot n b, .detach p
    slot n, .doorbellReservedOp b p w]) ∧
  (∃ (s : State) (req : Nat) (r : Request), getReq s req = some r ∧ r.heldEntry.isSome = true ∧ coreStops s (homeCore r.ctx) = false) ∧
  (∃ (s : State) (req : Nat) (r : Request), getReq s req = some r ∧ rqLive r = true ∧ r.deadlineTicks ≠ 0 ∧ r.acceptTick +
    r.deadlineTicks ≤ now s ∧ r.pastDeadline = false ∧ r.fallenBack = false ∧ r.bound = false ∧ r.state ≠ rqRingWait ∧ s.pwr.inHold =
    false ∧ coreStops s (homeCore r.ctx) = false) ∧
  (∃ (s t : State) (p : Nat) (w : Word), AtOnce s t p (.doorbellReservedOp false p w) ∧ (fld w 63 60 = 0 ∨ 3 < fld w 63 60)) ∧
  (∃ (s t : State) (p : Nat) (w : Word), AtOnce s t p (.doorbellReservedOp true p w) ∧ (fld w 63 60 = 0 ∨ 5 < fld w 63 60)) :=
  ⟨⟨withRq rq0, takeTurn (withRq rq0) 0, 0, 0, ⟨by decide +kernel, by decide +kernel, rfl⟩, by decide +kernel⟩, ⟨withRec, takeTurn
    (withRec) 0, _, 0, 0, _, _, _, pair_m (by decide +kernel), rfl, get_some (by decide +kernel), ⟨by decide +kernel, by decide +kernel,
    rfl⟩, by decide +kernel⟩, ⟨withRq { rq0 with bound := false }, takeTurn (withRq { rq0 with bound := false }) 0, 0, 0, _, _, get_some2
    (by decide +kernel), ⟨by decide +kernel, by decide +kernel, rfl⟩, by decide +kernel⟩, ⟨withRq rq0, takeTurn (withRq rq0) 0, 0, 0, _,
    _, get_some2 (by decide +kernel), ⟨by decide +kernel, by decide +kernel, rfl⟩, by decide +kernel⟩, ⟨withRq rq0, takeTurn (withRq rq0)
    0, 0, 0, _, _, get_some2 (by decide +kernel), ⟨by decide +kernel, by decide +kernel, rfl⟩, by decide +kernel⟩, ⟨withRq rq0, takeTurn
    (withRq rq0) 0, 0, 9, .kick 0 9, ⟨by decide +kernel, by decide +kernel, rfl⟩, by decide +kernel⟩,
    ⟨{ withRq rq0 with rollout := { Rollout.reset with handles := [(0, hdl)] } }, takeTurn
    ({ withRq rq0 with rollout := { Rollout.reset with handles := [(0, hdl)] } }) 0, 0, _, handleWord 0 hdl, _, get_some2
    (by decide +kernel), ⟨by decide +kernel, by decide +kernel, rfl⟩, by decide +kernel⟩, ⟨withRq rq0, takeTurn (withRq rq0) 0, 0, 0,
    ⟨by decide +kernel, by decide +kernel, rfl⟩, by decide +kernel⟩,
    ⟨{ withRq rq0 with parts := [(0, { Part.reset with rqBase := 0x200000, rqSlots := 4, bells := [(.kick 0 0, 0)] })] }, 0, 0, 0, 0,
    false, .cancel 0 0, by decide +kernel⟩, ⟨withRq { rq0 with heldEntry := some (dft, 3) }, 0, _, get_some (by decide +kernel),
    by decide +kernel⟩, ⟨withRq { rq0 with bound := false, deadlineTicks := 5, dlPolicy := 2 }, 0, _, get_some (by decide +kernel),
    by decide +kernel⟩, ⟨withRq rq0, takeTurn (withRq rq0) 0, 0, 0x4000000000000000, ⟨by decide +kernel, by decide +kernel, rfl⟩,
    by decide +kernel⟩, ⟨withRq rq0, takeTurn (withRq rq0) 0, 0, 0x6000000000000000, ⟨by decide +kernel, by decide +kernel, rfl⟩,
    by decide +kernel⟩⟩

theorem hyps_CommitResults :
  (∃ (s : State) (n req ix pool : Nat) (w0 : Word) (r : Request) (m pm : Model), poolModel s r = some (pool, pm) ∧ modelByHandle s r.part
    r.model = some (ix, m) ∧ Commits s n req 1 w0 r ∧ fld w0 47 32 = 0 ∧ r.state ≠ rqRingWait ∧ r.kvLen ≤ r.capacity ∧ r.sets.length ≤
    256) ∧
  (∃ (s : State) (n req ix pool : Nat) (w0 : Word) (r : Request) (m pm : Model) (grown : Grown), poolModel s r = some (pool, pm) ∧
    modelByHandle s r.part r.model = some (ix, m) ∧ bindGrown s n req ix pool w0 r m = grown ∧ Commits s n req 1 w0 r ∧ 0 < fld w0 47 32
    ∧ (1 ≤ fld w0 55 52 ∧ fld w0 55 52 ≤ 8) ∧ (1 ≤ fld w0 51 48 ∧ fld w0 51 48 ≤ 8) ∧ r.state ≠ rqRingWait ∧ r.sets.length + setsNeeded
    r.capacity (r.kvLen + fld w0 47 32) 300 ≤ 256) ∧
  (∃ (s u : State) (n req : Nat) (w0 w1 : Word) (r q : Request), u = rereadRing (journaled (storeW1 s n req w1) n req) req ∧ getReq u req
    = some q ∧ Commits s n req 2 w0 r ∧ r.bound = true ∧ r.drafts = [] ∧ wbit w0 58 = false ∧ ringFits q 0 = true ∧ r.heldEntry = none) ∧
  (∃ (s u : State) (n req : Nat) (w0 w1 : Word) (r q : Request), u = rereadRing (journaled (storeW1 s n req w1) n req) req ∧ getReq u req
    = some q ∧ Commits s n req 2 w0 r ∧ r.bound = true ∧ r.drafts = [] ∧ wbit w0 58 = false ∧ ringFits q 0 = false ∧ r.heldEntry = none) ∧
  (∃ (s : State) (n req : Nat) (w0 w1 : Word) (r : Request), Commits s n req 2 w0 r ∧ r.bound = true ∧ (r.drafts ≠ [] ∨
    r.heldEntry.isSome = true)) ∧
  (∃ (s u : State) (n req : Nat) (w0 w1 : Word) (r q : Request), u = rereadRing (journaled (storeW1 s n req w1) n req) req ∧ getReq u req
    = some q ∧ Commits s n req 3 w0 r ∧ r.bound = true ∧ ringFits q r.drafts.length = true ∧ q.heldEntry = none ∧ r.drafts.length <
    r.specMax ∧ r.drafts.length < r.maxNew - r.tokensOut) ∧
  (∃ (s u : State) (n req : Nat) (w0 : Word) (r : Request), u = acceptLoop (rereadRing (journaled s n req) req) req (min (fld w0 47 32)
    r.drafts.length) ∧ Commits s n req 4 w0 r ∧ r.bound = true) ∧
  (∃ (s : State) (n req k : Nat) (w0 : Word) (r : Request), k = min (fld w0 47 32) r.drafts.length ∧ Commits s n req 5 w0 r ∧ r.bound =
    true) ∧
  (∃ (s : State) (n req : Nat) (w0 : Word) (r : Request), Commits s n req 6 w0 r ∧ r.bound = true ∧ r.state = rqPrefill ∧ r.pfxLen = 0 ∧
    r.heldEntry = none ∧ 0 < r.maxNew) ∧
  (∃ (s : State) (n req : Nat) (w0 : Word) (r : Request), Commits s n req 7 w0 r ∧ r.bound = true) ∧
  (∃ (s : State) (n req : Nat) (w0 w1 : Word) (r : Request), Commits s n req 8 w0 r ∧ r.bound = true ∧ (fld w1 31 0 = 4 ∨ fld w1 31 0 =
    5)) ∧
  (∃ (s : State) (n req op : Nat) (w0 : Word) (r : Request) (i : Instr), Commits s n req op w0 r ∧ r.bound = false ∧ (i, op) ∈
    [(Instr.accept n req w0, 4), (.rollback n req w0, 5), (.prefilled n req w0, 6), (.unbind n req w0, 7)]) ∧
  (∃ (s : State) (n : Nat) (w0 : Word), canIssue s (.ctl n) n = true ∧ fld w0 63 60 = 9 ∧ fld w0 57 56 = 0 ∧ nextReady s n = none) ∧
  (∃ (s u : State) (n id ix : Nat) (w0 : Word) (r : Request) (m : Model), nextReady s n = some id ∧ getReq s id = some r ∧ regainPrefix
    (journal s (controlCoreOf n) 3 0x10000 true) r = some u ∧ modelByHandle u r.part r.model = some (ix, m) ∧ canIssue s (.ctl n) n =
    true ∧ fld w0 63 60 = 9 ∧ fld w0 57 56 = 0) :=
  ⟨⟨withRq { rq0 with bound := false }, 5, 0, _, _, cw0 1 0, { rq0 with bound := false }, _, _, get_some2 (by decide +kernel), get_some2
    (by decide +kernel), by decide +kernel⟩, ⟨withRq { rq0 with bound := false }, 5, 0, _, _, cw0 1 (2 ^ 52 + 2 ^ 48 + 2 ^ 32),
    { rq0 with bound := false }, _, _, _, get_some2 (by decide +kernel), get_some2 (by decide +kernel), rfl, by decide +kernel⟩, ⟨withRq
    rq0, _, 5, 0, cw0 2 7, 0, rq0, _, rfl, get_some (by decide +kernel), by decide +kernel⟩, ⟨withRq { rq0 with tail := 256 }, _, 5, 0,
    cw0 2 7, 0, { rq0 with tail := 256 }, _, rfl, get_some (by decide +kernel), by decide +kernel⟩, ⟨withRq
    { rq0 with drafts := [dft], kvLen := 1 }, 5, 0, cw0 2 7, 0, { rq0 with drafts := [dft], kvLen := 1 }, by decide +kernel⟩, ⟨withRq
    rq0, _, 5, 0, cw0 3 7, 0, rq0, _, rfl, get_some (by decide +kernel), by decide +kernel⟩, ⟨withRq
    { rq0 with drafts := [dft], kvLen := 1 }, _, 5, 0, cw0 4 (2 ^ 32), { rq0 with drafts := [dft], kvLen := 1 }, rfl, by decide +kernel⟩,
    ⟨withRq { rq0 with drafts := [dft], kvLen := 1 }, 5, 0, _, cw0 5 (2 ^ 32), { rq0 with drafts := [dft], kvLen := 1 }, rfl,
    by decide +kernel⟩, ⟨withRq { rq0 with state := 2 }, 5, 0, cw0 6 0, { rq0 with state := 2 }, by decide +kernel⟩, ⟨withRq rq0, 5, 0,
    cw0 7 0, rq0, by decide +kernel⟩, ⟨withRq rq0, 5, 0, cw0 8 0, 4, rq0, by decide +kernel⟩, ⟨withRq { rq0 with bound := false }, 5, 0,
    7, cw0 7 0, { rq0 with bound := false }, .unbind 5 0 (cw0 7 0), by decide +kernel⟩, ⟨{ withRq rq0 with rollout := Rollout.reset }, 5,
    cw0 9 0, by decide +kernel⟩, ⟨withRq { rq0 with state := 1, bound := false, ctx := none }, _, 5, _, _, cw0 9 0, _, _, get_some
    (by decide +kernel), get_some (by decide +kernel), get_some (by decide +kernel), get_some2 (by decide +kernel), by decide +kernel⟩⟩

theorem hyps_ModelDoorbells :
  (∃ (s t u v x : State) (p slot ix g : Nat) (w : Nat → Word) (bad : Bool) (ls : List Layer), modelRecord (journal t 0 4 (p * 256 + slot)
    true) p slot = (w, bad, u) ∧ takeIndex u p = some (ix, g, v) ∧ recordImage v p w bad (fld (w 1) 47 0) = (some ls, x) ∧ AtOnce s t p
    (.load p slot) ∧ slotInTable t p slot = true ∧ modelBySlot t p slot = none) ∧
  (∃ (s t u v x : State) (p slot ix g : Nat) (w : Nat → Word) (bad : Bool), modelRecord (journal t 0 4 (p * 256 + slot) true) p slot =
    (w, bad, u) ∧ takeIndex u p = some (ix, g, v) ∧ recordImage v p w bad (fld (w 1) 47 0) = (none, x) ∧ AtOnce s t p (.load p slot) ∧
    slotInTable t p slot = true ∧ modelBySlot t p slot = none) ∧
  (∃ (s t u : State) (p slot : Nat) (w : Nat → Word) (bad : Bool), modelRecord (journal t 0 4 (p * 256 + slot) true) p slot = (w, bad, u)
    ∧ AtOnce s t p (.load p slot) ∧ slotInTable t p slot = true ∧ modelBySlot t p slot = none ∧ takeIndex u p = none) ∧
  (∃ (s : State) (p src : Nat) (w : Nat → Word) (bad : Bool), (bad = true ∨ modelRecordOk s p w = false)) ∧
  (∃ (s u : State) (p ix g : Nat), takeIndex s p = some (ix, g, u)) ∧
  (∃ (s u : State) (ix : Nat) (m a : Model), allocEvict s ix m 257 = (u, some a) ∧ m.kind = 0 ∧ a.part = m.part) ∧
  (∃ (s u : State) (ix : Nat) (m : Model), allocEvict s ix m 257 = (u, none) ∧ m.kind = 0) ∧
  (∃ (s t : State) (p slot ix : Nat) (m : Model), modelBySlot t p slot = some (ix, m) ∧ AtOnce s t p (.load p slot) ∧ slotInTable t p
    slot = true) ∧
  (∃ (s t : State) (p slot ix : Nat) (m : Model), modelBySlot t p slot = some (ix, m) ∧ AtOnce s t p (.unload p slot) ∧ slotInTable t p
    slot = true ∧ namedByLive t p (handleOf ix m) = false ∧ usedAsBase t p (handleOf ix m) = false) ∧
  (∃ (s t : State) (p slot ix : Nat) (m : Model), modelBySlot t p slot = some (ix, m) ∧ AtOnce s t p (.unload p slot) ∧ slotInTable t p
    slot = true ∧ (namedByLive t p (handleOf ix m) = true ∨ usedAsBase t p (handleOf ix m) = true)) ∧
  (∃ (s t u x : State) (p slot ix : Nat) (w : Nat → Word) (bad : Bool) (m : Model) (ls : List Layer), modelBySlot t p slot = some (ix, m)
    ∧ modelRecord (journal t 0 5 ix true) p slot = (w, bad, u) ∧ recordImage u p w bad (fld (w 4) 47 0) = (some ls, x) ∧ AtOnce s t p
    (.replace p slot) ∧ slotInTable t p slot = true ∧ m.kind = 0 ∧ m.state = mdlResident ∧ m.replStatus ≠ 1 ∧ m.replaceDue = false ∧
    sameShape ls m.layers = true ∧ m.layers ≠ []) ∧
  (∃ (s t u x : State) (p slot ix : Nat) (w : Nat → Word) (bad : Bool) (m : Model), modelBySlot t p slot = some (ix, m) ∧ modelRecord
    (journal t 0 5 ix true) p slot = (w, bad, u) ∧ recordImage u p w bad (fld (w 4) 47 0) = (none, x) ∧ AtOnce s t p (.replace p slot) ∧
    slotInTable t p slot = true ∧ m.kind = 0 ∧ m.state ≠ mdlLoading ∧ m.replStatus ≠ 1 ∧ m.replaceDue = false) ∧
  (∃ (s t u x : State) (p slot ix : Nat) (w : Nat → Word) (bad : Bool) (m : Model) (ls : List Layer), modelBySlot t p slot = some (ix, m)
    ∧ modelRecord (journal t 0 5 ix true) p slot = (w, bad, u) ∧ recordImage u p w bad (fld (w 4) 47 0) = (some ls, x) ∧ AtOnce s t p
    (.replace p slot) ∧ slotInTable t p slot = true ∧ m.kind = 0 ∧ m.state ≠ mdlLoading ∧ m.replStatus ≠ 1 ∧ m.replaceDue = false ∧
    sameShape ls m.layers = false) ∧
  (∃ (s t : State) (p slot ix : Nat) (m : Model), modelBySlot t p slot = some (ix, m) ∧ AtOnce s t p (.replace p slot) ∧ slotInTable t p
    slot = true ∧ m.kind = 0 ∧ m.state = mdlLoading ∧ m.replStatus ≠ 1 ∧ m.replaceDue = false) ∧
  (∃ (s t : State) (p slot ix n : Nat) (serve : Bool) (m : Model), modelBySlot t p slot = some (ix, m) ∧ AtOnce s t p (.attach p slot n
    serve) ∧ slotInTable t p slot = true ∧ inCtxRange t p n = true ∧ (m.kind = 0 ∧ m.shared = true ∨ n = m.owner) ∧ ctxActive (getCtx t
    n) = true ∧ m.kind = 0) ∧
  (∃ (s t : State) (p slot ix n : Nat) (serve : Bool) (m : Model), modelBySlot t p slot = some (ix, m) ∧ AtOnce s t p (.attach p slot n
    serve) ∧ slotInTable t p slot = true ∧ inCtxRange t p n = false) ∧
  (∃ (s t : State) (p slot ix n : Nat) (m : Model), modelBySlot t p slot = some (ix, m) ∧ AtOnce s t p (.detach p slot n) ∧ slotInTable t
    p slot = true) ∧
  (∃ (s t : State) (p slot n : Nat) (serve : Bool) (i : Instr), AtOnce s t p i ∧ slotInTable t p slot = false ∧ i ∈ [Instr.load p slot,
    .unload p slot, .replace p slot, .attach p slot n serve, .detach p slot n]) :=
  ⟨⟨withMdl, takeTurn (withMdl) 0, _, _, _, 0, 1, _, _, _, _, [⟨0x400, 1, 0⟩], pair3, get_some3 (by decide +kernel), pair_r
    (by decide +kernel), ⟨by decide +kernel, by decide +kernel, rfl⟩, by decide +kernel⟩, ⟨withMdl, takeTurn (withMdl) 0, _, _, _, 0, 2,
    _, _, _, _, pair3, get_some3 (by decide +kernel), pair_r (by decide +kernel), ⟨by decide +kernel, by decide +kernel, rfl⟩,
    by decide +kernel⟩, ⟨{ withMdl with models := (List.range 256).map fun i => (i, { mdl0 with slot := 0 }) }, takeTurn
    ({ withMdl with models := (List.range 256).map fun i => (i, { mdl0 with slot := 0 }) }) 0, _, 0, 1, _, _, pair3, ⟨by decide +kernel,
    by decide +kernel, rfl⟩, by decide +kernel⟩, ⟨s0, 0, 0, (fun _ => 0#64), true, by decide +kernel⟩, ⟨withMdl, _, 0, _, _, get_some3
    (by decide +kernel)⟩, ⟨withMdl, _, 1, { mdl1 with tier := 0 }, (allocEvict withMdl 1 { mdl1 with tier := 0 } 257).2.get
    (by decide +kernel), pair_l (by decide +kernel), by decide +kernel⟩, ⟨withMdl, _, 1, { mdl1 with layers := [⟨0x400, 0x80000, 0⟩] },
    pair_l (by decide +kernel), by decide +kernel⟩, ⟨withMdl1 mdl1, takeTurn (withMdl1 mdl1) 0, 0, 1, _, _, get_some2
    (by decide +kernel), ⟨by decide +kernel, by decide +kernel, rfl⟩, by decide +kernel⟩, ⟨withMdl1 mdl1, takeTurn (withMdl1 mdl1) 0, 0,
    1, _, _, get_some2 (by decide +kernel), ⟨by decide +kernel, by decide +kernel, rfl⟩, by decide +kernel⟩,
    ⟨{ withMdl1 mdl1 with rollout := { Rollout.reset with requests := [(0, rq0)] } }, takeTurn
    ({ withMdl1 mdl1 with rollout := { Rollout.reset with requests := [(0, rq0)] } }) 0, 0, 1, _, _, get_some2 (by decide +kernel),
    ⟨by decide +kernel, by decide +kernel, rfl⟩, by decide +kernel⟩, ⟨withMdl1 mdl1, takeTurn (withMdl1 mdl1) 0, _, _, 0, 1, _, _, _, _,
    [⟨0x400, 1, 0⟩], get_some2 (by decide +kernel), pair3, pair_r (by decide +kernel), ⟨by decide +kernel, by decide +kernel, rfl⟩,
    by decide +kernel⟩, ⟨withMdl1 { mdl1 with slot := 2 }, takeTurn (withMdl1 { mdl1 with slot := 2 }) 0, _, _, 0, 2, _, _, _, _,
    get_some2 (by decide +kernel), pair3, pair_r (by decide +kernel), ⟨by decide +kernel, by decide +kernel, rfl⟩, by decide +kernel⟩,
    ⟨withMdl1 { mdl1 with layers := [⟨0x400, 2, 1⟩] }, takeTurn (withMdl1 { mdl1 with layers := [⟨0x400, 2, 1⟩] }) 0, _, _, 0, 1, _, _,
    _, _, [⟨0x400, 1, 0⟩], get_some2 (by decide +kernel), pair3, pair_r (by decide +kernel), ⟨by decide +kernel, by decide +kernel, rfl⟩,
    by decide +kernel⟩, ⟨withMdl1 { mdl1 with state := 1 }, takeTurn (withMdl1 { mdl1 with state := 1 }) 0, 0, 1, _, _, get_some2
    (by decide +kernel), ⟨by decide +kernel, by decide +kernel, rfl⟩, by decide +kernel⟩, ⟨withMdl1 mdl1, takeTurn (withMdl1 mdl1) 0, 0,
    1, _, 5, true, _, get_some2 (by decide +kernel), ⟨by decide +kernel, by decide +kernel, rfl⟩, by decide +kernel⟩, ⟨withMdl1 mdl1,
    takeTurn (withMdl1 mdl1) 0, 0, 1, _, 4096, true, _, get_some2 (by decide +kernel), ⟨by decide +kernel, by decide +kernel, rfl⟩,
    by decide +kernel⟩, ⟨withMdl1 mdl1, takeTurn (withMdl1 mdl1) 0, 0, 1, _, 5, _, get_some2 (by decide +kernel), ⟨by decide +kernel,
    by decide +kernel, rfl⟩, by decide +kernel⟩, ⟨withMdl1 mdl1, takeTurn (withMdl1 mdl1) 0, 0, 4, 5, true, .unload 0 4,
    ⟨by decide +kernel, by decide +kernel, rfl⟩, by decide +kernel⟩⟩

theorem hyps_ModelEvents :
  (∃ (s : State) (ix : Nat) (m : Model) (l : Layer), tfind s.models ix = some m ∧ m.layers[m.installed]? = some l ∧ m.state = mdlLoading
    ∧ m.replaceDue = false) ∧
  (∃ (s : State) (ix pl : Nat) (m : Model) (l : Layer), tfind s.models ix = some m ∧ m.layers[m.staged]? = some l ∧ stagePlace m l = some
    pl ∧ m.state = mdlReplacing ∧ m.replStatus = 1) ∧
  (∃ (s : State) (ix pl : Nat) (m : Model) (l : Layer) (e : Nat × Nat), tfind s.models ix = some m ∧ m.layers[m.installed]? = some l ∧
    m.state = mdlReplacing ∧ m.installing = false ∧ olderPassed m m.installed = true ∧ (m.stagedAt.find? fun e => e.1 == m.installed) =
    some (e.1, pl)) ∧
  (∃ (s : State) (ix : Nat) (m : Model) (l : Layer), tfind s.models ix = some m ∧ m.layers[m.installed]? = some l ∧ olderPassed m
    m.installed = false) ∧
  (∃ (s : State) (ix : Nat) (m : Model) (l : Layer), tfind s.models ix = some m ∧ m.layers[m.installed]? = some l ∧ m.state =
    mdlReplacing ∧ m.installing = true ∧ m.installed + 1 < m.layers.length) ∧
  (∃ (s : State) (f : SourceFail) (m : Model), tfind s.models f.model = some m ∧ reading m = true ∧ m.retried = false ∧ tget 0 m.failures
    f.grain < 2) ∧
  (∃ (s : State) (f : SourceFail) (m : Model), tfind s.models f.model = some m ∧ m.state = mdlReplacing ∧ (m.replStatus = 1 ∧ 2 ≤ tget 0
    m.failures f.grain ∨ m.retried = true)) ∧
  (∃ (s : State) (f : SourceFail) (m : Model), tfind s.models f.model = some m ∧ m.state = mdlLoading ∧ m.retried = false ∧ 2 ≤ tget 0
    m.failures f.grain ∧ (∀ e ∈ s.rollout.requests, rqLive e.2 = true → e.2.part = m.part → e.2.model ≠ handleOf f.model m)) ∧
  (∃ (s : State) (f : SourceFail) (m : Model), tfind s.models f.model = some m ∧ reading m = false) ∧
  (∃ (s : State) (ix : Nat) (m : Model), tfind s.models ix = some m ∧ m.state = mdlReplacing ∧ m.replStatus = 4) ∧
  (∃ (s : State), s.rollout.decayAt + 48000000 ≤ s.clk.tick) ∧
  (∃ (s : State), s.clk.tick < s.rollout.decayAt + 48000000) :=
  ⟨⟨withModel s0 { mdl0 with state := 1, installed := 0 }, 0, _, _, get_some (by decide +kernel), get_some (by decide +kernel),
    by decide +kernel⟩, ⟨withModel s0 { mdl0 with replStatus := 1, stageGrains := 8 }, 0, _, _, _, get_some (by decide +kernel), get_some
    (by decide +kernel), get_some (by decide +kernel), by decide +kernel⟩, ⟨withModel s0
    { mdl0 with installed := 0, stagedAt := [(0, 4)] }, 0, 4, _, _, (0, 4), get_some (by decide +kernel), get_some (by decide +kernel),
    by decide +kernel⟩, ⟨withModel s0 { mdl0 with installed := 0, started := [(5, 1, 1)] }, 0, _, _, get_some (by decide +kernel),
    get_some (by decide +kernel), by decide +kernel⟩, ⟨withModel s0
    { mdl0 with installed := 0, installing := true, layers := [⟨0x400, 1, 1⟩, ⟨0x800, 1, 1⟩] }, 0, _, _, get_some (by decide +kernel),
    get_some (by decide +kernel), by decide +kernel⟩, ⟨withModel s0 { mdl0 with state := 1 }, ⟨0, 7⟩, _, get_some (by decide +kernel),
    by decide +kernel⟩, ⟨withModel s0 { mdl0 with replStatus := 1, failures := [(7, 2)] }, ⟨0, 7⟩, _, get_some (by decide +kernel),
    by decide +kernel⟩, ⟨withModel s0 { mdl0 with state := 1, failures := [(7, 2)] }, ⟨0, 7⟩, _, get_some (by decide +kernel),
    by decide +kernel⟩, ⟨withModel s0 mdl0, ⟨0, 7⟩, _, get_some (by decide +kernel), by decide +kernel⟩, ⟨withModel s0
    { mdl0 with replStatus := 4 }, 0, _, get_some (by decide +kernel), by decide +kernel⟩,
    ⟨{ s0 with clk := { s0.clk with tick := 48000000 } }, by decide +kernel⟩, ⟨s0, by decide +kernel⟩⟩

theorem hyps_RingCommands :
  (∃ (s : State) (p : Nat), Commanded s p 0) ∧
  (∃ (s : State) (p n : Nat), n = cmdWord s p 1 % 4096 ∧ Commanded s p 1 ∧ bits (cmdWord s p 6) 31 30 ≠ 3 ∧ cmdWord s p 4 % 2 ^ 31 = 0 ∧
    ctxInRange s p n = true ∧ createOk (commandLogged s p) p n (bit (cmdWord s p 1) 12) (bits (cmdWord s p 1) 47 32) (cmdWord s p 2)
    (cmdWord s p 3) = true) ∧
  (∃ (s : State) (p n : Nat), n = cmdWord s p 1 % 4096 ∧ Commanded s p 1 ∧ bits (cmdWord s p 6) 31 30 ≠ 3 ∧ cmdWord s p 4 % 2 ^ 31 = 0 ∧
    ctxInRange s p n = false) ∧
  (∃ (s : State) (p n : Nat), n = cmdCtx s p ∧ Commanded s p 2 ∧ cmdWord s p 2 % 8 = 0 ∧ cmdWord s p 2 < 2 ^ 48 ∧ ctxInRange s p n = true
    ∧ (getCtx s n).state = ctxCreated) ∧
  (∃ (s : State) (p n : Nat), n = cmdCtx s p ∧ Commanded s p 3 ∧ ctxInRange s p n = true ∧ (getCtx s n).state ≠ ctxFree ∧ (getCtx s
    n).state ≠ ctxEnded ∧ (getCtx s n).state ≠ ctxCreated) ∧
  (∃ (s : State) (p n : Nat), n = cmdCtx s p ∧ Commanded s p 3 ∧ ctxInRange s p n = true ∧ (getCtx s n).state = ctxCreated) ∧
  (∃ (s : State) (p : Nat), createBarred s p = true) ∧
  (∃ (s : State) (p n : Nat), n = cmdCtx s p ∧ Commanded s p 3 ∧ ctxInRange s p n = true ∧ (getCtx s n).state = ctxFree) ∧
  (∃ (s : State) (p n : Nat), n = cmdCtx s p ∧ Commanded s p 4 ∧ ctxInRange s p n = true ∧ ctxActive (getCtx s n) = true ∧ cmdWord s p 2
    % mapPage (cmdWord s p 4) = 0 ∧ cmdWord s p 2 < 2 ^ 48 ∧ cmdWord s p 3 % mapPage (cmdWord s p 4) = 0 ∧ cmdWord s p 3 < 2 ^ 48 ∧ (bit
    (cmdWord s p 4) 34 = false → bits (cmdWord s p 4) 37 35 = 0) ∧ mapFault s p n (cmdWord s p 2) (cmdWord s p 3) (cmdWord s p 4) = none
    ∧ cmdWord s p 4 % 2 ^ 32 ≠ 0) ∧
  (∃ (s : State) (p n r i : Nat), n = cmdCtx s p ∧ mapFault s p n (cmdWord s p 2) (cmdWord s p 3) (cmdWord s p 4) = some (r, i) ∧
    Commanded s p 4 ∧ ctxInRange s p n = true ∧ ctxActive (getCtx s n) = true ∧ cmdWord s p 2 % mapPage (cmdWord s p 4) = 0 ∧ cmdWord s p
    2 < 2 ^ 48 ∧ cmdWord s p 3 % mapPage (cmdWord s p 4) = 0 ∧ cmdWord s p 3 < 2 ^ 48 ∧ (bit (cmdWord s p 4) 34 = false → bits (cmdWord s
    p 4) 37 35 = 0)) ∧
  (∃ (s : State) (p n : Nat), n = cmdCtx s p ∧ Commanded s p 5 ∧ ctxInRange s p n = true ∧ ctxActive (getCtx s n) = true ∧ cmdWord s p 2
    % mapPage (cmdWord s p 4) = 0 ∧ cmdWord s p 2 < 2 ^ 48) ∧
  (∃ (s : State) (p n : Nat), n = cmdCtx s p ∧ Commanded s p 6 ∧ ctxInRange s p n = true ∧ ctxActive (getCtx s n) = true ∧ 1 ≤ bits
    (cmdWord s p 4) 63 60 ∧ bits (cmdWord s p 4) 63 60 ≤ 7) ∧
  (∃ (s : State) (p op : Nat), cmdWord s p 0 / 2 ^ 56 = op ∧ cmdReady s p = true ∧ (fetchEntry s p).1 = false ∧ 6 < op) ∧
  (∃ (s : State) (p op : Nat) (i : Instr), cmdWord s p 0 / 2 ^ 56 = op ∧ cmdReady s p = true ∧ (fetchEntry s p).1 = false ∧ cmdFieldsOk
    (commandLogged s p) p op = false ∧ (i, op) ∈ [(Instr.cmdNop p, 0), (.create p, 1), (.run p, 2), (.destroy p, 3), (.map p, 4), (.unmap
    p, 5), (.post p, 6)]) ∧
  (∃ (s : State) (p res det : Nat), coreStops s 0 = false ∧ s.host.fwWaits = [] ∧ s.host.snoop = [] ∧ s.host.biLines = []) :=
  ⟨⟨withCmd live5 [0], 0, by decide +kernel⟩, ⟨withCmd [] [2 ^ 56, 5, 0x800000, 8704], 0, _, rfl, by decide +kernel⟩,
    ⟨{ withCmd [] [2 ^ 56, 5, 0x800000, 8704] with sec := { Sec.reset with prot := { Protection.shipped with parts := [(0, { PartEntry.shipped0 with ctxFirst := 6, ctxCount := 1 })] } } },
    0, _, rfl, by decide +kernel⟩, ⟨withCmd [(5, { ctx [] [] with state := ctxCreated })] [2 * 2 ^ 56, 5, 0x1000], 0, _, rfl,
    by decide +kernel⟩, ⟨withCmd live5 [3 * 2 ^ 56, 5], 0, _, rfl, by decide +kernel⟩, ⟨withCmd [(5,
    { ctx [] [] with state := ctxCreated, coreset := [] })] [3 * 2 ^ 56, 5], 0, _, rfl, by decide +kernel⟩,
    ⟨{ withCmd [] [2 ^ 56, 5, 0x800000, 8704] with sec := { Sec.reset with prot := { Protection.shipped with parts := [] } } }, 0,
    by decide +kernel⟩, ⟨withCmd [] [3 * 2 ^ 56, 5], 0, _, rfl, by decide +kernel⟩, ⟨withCmd live5 [4 * 2 ^ 56, 5, 0x40000000, 0x800000,
    1], 0, _, rfl, by decide +kernel⟩, ⟨withCmd live5 [4 * 2 ^ 56, 5, 0, 0x800000, 1], 0, _, _, _, rfl, get_some2 (by decide +kernel),
    by decide +kernel⟩, ⟨withCmd live5 [5 * 2 ^ 56, 5, 0, 0, 1], 0, _, rfl, by decide +kernel⟩, ⟨withCmd live5 [6 * 2 ^ 56, 5, 7, 0, 2 ^
    60 + 3 * 2 ^ 53], 0, _, rfl, by decide +kernel⟩, ⟨withCmd live5 [7 * 2 ^ 56], 0, _, rfl, by decide +kernel⟩, ⟨withCmd live5 [3 * 2 ^
    56, 0x1005], 0, _, .destroy 0, rfl, by decide +kernel⟩, ⟨s0, 0, 0, 0, by decide +kernel⟩⟩

theorem hyps_ContextEvents :
  (∃ (s : State) (n : Nat), (getCtx s n).state = ctxEnding ∧ coreReqsOut s n = false) ∧
  (∃ (s : State) (n : Nat), coreReqsOut s n = true) ∧
  (∃ (s : State) (p n r : Nat) (l : List (Nat × Nat)), hostUp s = true ∧ s.pwr.service ≠ 3 ∧ (getPart s p).teardown = (n, r) :: l) ∧
  (∃ (s : State) (p : Nat), hostUp s = true ∧ s.pwr.service ≠ 3 ∧ (getPart s p).teardown = []) ∧
  (∃ (s : State), s.recov.fatal = false ∧ s.pwr.off = false ∧ s.pwr.inHold = false ∧ s.pwr.holdAsked = false ∧ quantumOver s = true) ∧
  (∃ (s : State), s.clk.tick < s.quantumAt + usTicks * s.quantumUs) ∧
  (∃ (s : State) (n : Nat), (getCtx s n).state = ctxLive ∧ (getCtx s n).saving = true ∧ (getCtx s n).loadp = none) ∧
  (∃ (s : State) (n : Nat), (getCtx s n).state = ctxHeld ∧ (getCtx s n).restoring = true ∧ hasCores s n = true) ∧
  (∃ (s : State) (p v : Nat), msixReady s p v = true ∧ msixNext s = some p) ∧
  (∃ (s : State) (p : Nat), hostUp s = true ∧ s.pwr.service ≠ 3 ∧ p < 64 ∧ (getPart s p).resetting = false) ∧
  (∃ (s : State) (p : Nat), hostUp s = true ∧ p < 64 ∧ (getPart s p).resetting = true) ∧
  (∃ (s u : State) (p : Nat), snoopWindows s p = u ∧ (getPart s p).resetting = true ∧ (∀ e ∈ s.ctxs, e.2.part = p → e.2.state ≠
    ctxEnding) ∧ windowsWait u p = false ∧ turnOf s = none) ∧
  (∃ (s u : State) (p : Nat), snoopWindows s p = u ∧ (getPart s p).resetting = true ∧ (∀ e ∈ s.ctxs, e.2.part = p → e.2.state ≠
    ctxEnding) ∧ windowsWait u p = true) ∧
  (∃ (s u : State) (p i : Nat), snoopWindows s p = u ∧ (getPart s p).resetting = true ∧ (∀ e ∈ s.ctxs, e.2.part = p → e.2.state ≠
    ctxEnding) ∧ windowsWait u p = false ∧ turnOf (finishReset u p) = some i ∧ (getSlot (finishReset u p) i).awaitReset = true ∧
    bodyIndex (getSlot (finishReset u p) i).body = p) :=
  ⟨⟨{ s0 with ctxs := [(5, { ctx [] [] with state := ctxEnding })] }, 5, by decide +kernel⟩, ⟨withReq (req false 1 0x1000 .queued), 5,
    by decide +kernel⟩, ⟨{ s0 with parts := [(0, { Part.reset with teardown := [(5, 4)] })] }, 0, 5, 4, [], by decide +kernel⟩, ⟨s0, 0,
    by decide +kernel⟩, ⟨{ onCore0 [] [] with clk := { s0.clk with tick := 48000 } }, by decide +kernel⟩, ⟨onCore0 [] [],
    by decide +kernel⟩, ⟨{ s0 with ctxs := [(5, { ctx [] [] with saving := true })] }, 5, by decide +kernel⟩,
    ⟨{ s0 with ctxs := [(5, { ctx [] [] with state := ctxHeld, restoring := true, coreset := [] })] }, 5, by decide +kernel⟩,
    ⟨{ s0 with parts := [(0, { Part.reset with pba := [(3, 1)], vectors := [(3, { MsixEntry.reset with masked := false })] })], host := { s0.host with msixOn := [(0, true)] } },
    0, 3, by decide +kernel⟩, ⟨s0, 0, by decide +kernel⟩, ⟨{ s0 with parts := [(0, { Part.reset with resetting := true })] }, 0,
    by decide +kernel⟩, ⟨{ s0 with parts := [(0, { Part.reset with resetting := true })] }, _, 0, rfl, by decide +kernel⟩,
    ⟨{ s0 with parts := [(0, { Part.reset with resetting := true })], host := { s0.host with biLines := [4] } }, _, 0, rfl,
    by decide +kernel⟩,
    ⟨{ s0 with parts := [(0, { Part.reset with resetting := true })], sec := { Sec.reset with slots := [(0, { CrSlot.reset with state := 3, awaitReset := true })] } },
    _, 0, 0, rfl, by decide +kernel⟩⟩

theorem hyps_UnitLoss :
  (∃ (s : State) (c : Nat), running s = true ∧ coreInService s c = true) ∧
  (∃ (s : State) (d k : Nat), physDie s d = some k ∧ running s = true) ∧
  (∃ (s : State) (k : Nat), running s = true ∧ k < 16 ∧ s.recov.lostStacks.contains k = false) ∧
  (∃ (s : State) (ch : Nat), running s = true ∧ ch < 64 ∧ s.recov.lostChannels.contains ch = false) ∧
  (∃ (s : State) (g : Nat), running s = true ∧ g < 4096 ∧ (s.recov.rerouted.any fun e => e.1 == HubUnit.bridgeGroup g) = false) ∧
  (∃ (s : State) (g l : Nat), running s = true ∧ g < 4096 ∧ l < 12 ∧ thas s.recov.bridgeSwaps g = false ∧ tfind (carrier s).bridgeMap g =
    none) ∧
  (∃ (s : State) (cc : Nat), running s = true ∧ cc < 16 ∧ s.recov.restarting.contains cc = false) ∧
  (∃ (s : State) (cc : Nat), running s = true ∧ cc < 16 ∧ s.recov.restarting.contains cc = true) ∧
  (∃ (s : State) (h : Nat), running s = true ∧ h < 4) ∧
  (∃ (s : State) (u : HubUnit), running s = true ∧ hubUnitOk u = true ∧ hubRecovers s u = true) ∧
  (∃ (s : State) (pl : SramPlace), running s = true) ∧
  (∃ (s : State), running s = true) ∧
  (∃ (s : State) (i : Instr) (c d k ch : Nat) (u : HubUnit) (g l cc : Nat) (pl : SramPlace), running s = false ∧ i ∈ [Instr.coreLost c,
    .dieLost d, .stackLost k, .channelLost ch, .hubPathFault u, .bridgeLaneSwap g l, .watchdogExpiry cc, .sramUncorrectable pl]) ∧
  (∃ (s : State) (c k phys : Nat), physDie s (c / 128) = some k ∧ spareCore s (c / 128) = some phys ∧ running s = true ∧
    s.recov.lostCores.contains c = true) ∧
  (∃ (s : State) (c k phys : Nat), physDie s (c / 128) = some k ∧ spareCore s (c / 128) = some phys ∧ running s = true ∧
    s.recov.lostCores.contains c = true) ∧
  (∃ (s : State) (k die : Nat) (d : DieClk) (rest : List Nat), (s.clk.dies.find? fun e => e.2.state == 1 && !bit (carrier
    s).dieActive.toNat e.1) = some (k, d) ∧ running s = true ∧ s.recov.spareDie = 1 ∧ s.recov.lostDies = die :: rest) ∧
  (∃ (s : State) (k die : Nat) (d : DieClk) (rest : List Nat), (s.clk.dies.find? fun e => e.2.state == 1 && !bit (carrier
    s).dieActive.toNat e.1) = some (k, d) ∧ running s = true ∧ s.recov.spareDie = 1 ∧ s.recov.lostDies = die :: rest) ∧
  (∃ (s : State) (k sp : Nat), ((List.range 18).find? fun i => !bit (carrier s).stackFailed.toNat i && !bit (carrier s).stackActive.toNat
    i) = some sp ∧ running s = true ∧ s.recov.stackSpares.contains k = true) ∧
  (∃ (s : State) (k sp : Nat), ((List.range 18).find? fun i => !bit (carrier s).stackFailed.toNat i && !bit (carrier s).stackActive.toNat
    i) = some sp ∧ running s = true ∧ s.recov.stackSpares.contains k = true) :=
  ⟨⟨onCore0 [] [], 0, by decide +kernel⟩, ⟨s0, 0, _, get_some (by decide +kernel), by decide +kernel⟩, ⟨s0, 3, by decide +kernel⟩, ⟨s0,
    3, by decide +kernel⟩, ⟨s0, 7, by decide +kernel⟩, ⟨s0, 7, 2, by decide +kernel⟩, ⟨s0, 4, by decide +kernel⟩,
    ⟨{ s0 with recov := { Rec.reset with restarting := [4] } }, 4, by decide +kernel⟩, ⟨s0, 2, by decide +kernel⟩,
    ⟨{ s0 with recov := { Rec.reset with rerouted := [(.movement 1, 1, 1000)] } }, .movement 1, by decide +kernel⟩, ⟨s0, .coreState 0,
    by decide +kernel⟩, ⟨s0, by decide +kernel⟩, ⟨{ s0 with recov := { Rec.reset with fatal := true } }, .coreLost 0, 0, 0, 0, 0, .port
    0, 0, 0, 0, .alwaysOn, by decide +kernel⟩, ⟨{ s0 with recov := { Rec.reset with lostCores := [3] } }, 3, _, _, get_some
    (by decide +kernel), get_some (by decide +kernel), by decide +kernel⟩, ⟨{ s0 with recov := { Rec.reset with lostCores := [3] } }, 3,
    _, _, get_some (by decide +kernel), get_some (by decide +kernel), by decide +kernel⟩,
    ⟨{ s0 with recov := { Rec.reset with spareDie := 1, lostDies := [3] }, clk := { s0.clk with dies := [(0, die0), (8, { DieClk.reset with state := 1 })] } },
    _, 3, _, [], get_some2 (by decide +kernel), by decide +kernel⟩,
    ⟨{ s0 with recov := { Rec.reset with spareDie := 1, lostDies := [3] }, clk := { s0.clk with dies := [(0, die0), (8, { DieClk.reset with state := 1 })] } },
    _, 3, _, [], get_some2 (by decide +kernel), by decide +kernel⟩, ⟨{ s0 with recov := { Rec.reset with stackSpares := [2] } }, 2, _,
    get_some (by decide +kernel), by decide +kernel⟩, ⟨{ s0 with recov := { Rec.reset with stackSpares := [2] } }, 2, _, get_some
    (by decide +kernel), by decide +kernel⟩⟩

theorem hyps_HdmAccess :
  (∃ (s : State) (pa : Nat), hostUp s = true ∧ tier2End ≤ pa) ∧
  (∃ (s : State) (pa : Nat) (bs : List Byte), hostUp s = true ∧ tier2End ≤ pa) ∧
  (∃ (s : State) (pa d : Nat), decoderOf pa = some d ∧ hostUp s = true ∧ tget false s.host.committed d = true ∧ bankBusy s pa = false ∧
    partOfPa s (pa / 64 * 64) = none) ∧
  (∃ (s u : State) (pa d p : Nat) (data : List Byte) (g : GrainTag), decoderOf pa = some d ∧ partOfPa s (pa / 64 * 64) = some p ∧
    readGrain s (grainBase (pa / 64 * 64)) = (data, g, u) ∧ hostUp s = true ∧ tget false s.host.committed d = true ∧ bankBusy s pa =
    false ∧ (getPart s p).resetting = false ∧ unitLost s (servePa s (pa / 64 * 64)) = false) ∧
  (∃ (s : State) (pa d p : Nat) (bs : List Byte), decoderOf pa = some d ∧ partOfPa s (pa / 64 * 64) = some p ∧ hostUp s = true ∧ tget
    false s.host.committed d = true ∧ bankBusy s pa = false ∧ (getPart s p).resetting = false ∧ unitLost s (pa / 64 * 64) = false) ∧
  (∃ (s : State) (pa d : Nat), decoderOf pa = some d ∧ hostUp s = true ∧ tget false s.host.committed d = true ∧ bankBusy s pa = true) ∧
  (∃ (s : State) (pa d : Nat) (bs : List Byte), decoderOf pa = some d ∧ hostUp s = true ∧ tget false s.host.committed d = true ∧ bankBusy
    s pa = true) ∧
  (∃ (s : State) (pa d : Nat) (bs : List Byte), decoderOf pa = some d ∧ hostUp s = true ∧ tget false s.host.committed d = true ∧ bankBusy
    s pa = false ∧ partOfPa s (pa / 64 * 64) = none) ∧
  (∃ (s : State) (d : Nat), hostUp s = true ∧ d < 2) ∧
  (∃ (s : State) (d w : Nat), hostUp s = true ∧ d < 2 ∧ w ≠ 1) :=
  ⟨⟨s0, 0x30000000000, by decide +kernel⟩, ⟨s0, 0x30000000000, zeros 64, by decide +kernel⟩,
    ⟨{ s0 with sec := { Sec.reset with prot := { Protection.shipped with parts := [] } } }, 0x1000, _, get_some (by decide +kernel),
    by decide +kernel⟩, ⟨s0, _, 0x1000, _, _, _, _, get_some (by decide +kernel), get_some (by decide +kernel), pair3,
    by decide +kernel⟩, ⟨s0, 0x1000, _, _, zeros 64, get_some (by decide +kernel), get_some (by decide +kernel), by decide +kernel⟩,
    ⟨{ s0 with mem := { Mem.reset with reqs := [(0, req false 1 0x1000 .queued)] } }, 0x1000, _, get_some (by decide +kernel),
    by decide +kernel⟩, ⟨{ s0 with mem := { Mem.reset with reqs := [(0, req false 1 0x1000 .queued)] } }, 0x1000, _, zeros 64, get_some
    (by decide +kernel), by decide +kernel⟩, ⟨{ s0 with sec := { Sec.reset with prot := { Protection.shipped with parts := [] } } },
    0x1000, _, zeros 64, get_some (by decide +kernel), by decide +kernel⟩, ⟨s0, 1, by decide +kernel⟩, ⟨s0, 1, 3, by decide +kernel⟩⟩

theorem hyps_HostResets :
  (∃ (s : State) (n : Nat), hostUp s = true ∧ s.host.vfEnable = true ∧ 1 ≤ n ∧ n < 64) ∧
  (∃ (s : State), hostUp s = true) ∧
  (∃ (s : State), hostUp s = true ∧ s.host.vfEnable = true) ∧
  (∃ (s : State) (f : Nat) (l : List Nat), f ∈ l) ∧
  (∃ (s : State), s.host.up = true ∧ running s = true) ∧
  (∃ (s : State), s.host.up = true ∧ running s = true ∧ (s.host.ideIo = true ∨ s.host.ideCm ≠ 0)) ∧
  (∃ (s : State), s.host.ideIo = false ∧ s.host.ideCm = 0) ∧
  (∃ (s : State), s.pwr.off = false ∧ s.pwr.perst = true ∧ running s = true ∧ s.pwr.inHold = false ∧ 3 ≤ s.pwr.stage) ∧
  (∃ (s : State), s.pwr.off = false ∧ s.pwr.perst = true ∧ s.pwr.stage < 3 ∧ s.pwr.service ≠ 3) ∧
  (∃ (s : State) (v w : Nat), s.host.up = false ∧ linkReady s = true ∧ 1 ≤ v ∧ v ≤ 4 ∧ (w = 4 ∨ w = 8 ∨ w = 16)) :=
  ⟨⟨{ s0 with host := { s0.host with vfEnable := true } }, 1, by decide +kernel⟩, ⟨s0, by decide +kernel⟩,
    ⟨{ s0 with host := { s0.host with vfEnable := true } }, by decide +kernel⟩, ⟨s0, 4, [4], by decide +kernel⟩, ⟨s0, by decide +kernel⟩,
    ⟨{ s0 with host := { s0.host with ideIo := true } }, by decide +kernel⟩, ⟨s0, by decide +kernel⟩,
    ⟨{ s0 with pwr := { s0.pwr with perst := true, stage := 3 } }, by decide +kernel⟩,
    ⟨{ s0 with pwr := { s0.pwr with perst := true, stage := 2 } }, by decide +kernel⟩, ⟨{ s0 with host := HostSide.reset }, 4, 16,
    by decide +kernel⟩⟩

theorem hyps_SpdmResults :
  (∃ (s : State) (i : Nat), hostUp s = true ∧ inRecovery s = false) ∧
  (∃ (s : State) (i : Nat), hostUp s = true ∧ inRecovery s = true) ∧
  (∃ (s : State), hostUp s = true) ∧
  (∃ (s : State), hostUp s = true ∧ 1 ≤ s.sec.spdm.negotiated) ∧
  (∃ (s : State) (a h d e : Bool), hostUp s = true ∧ 2 ≤ s.sec.spdm.negotiated) ∧
  (∃ (s : State), hostUp s = true ∧ 3 ≤ s.sec.spdm.negotiated) ∧
  (∃ (s : State) (o l : Nat), hostUp s = true ∧ 3 ≤ s.sec.spdm.negotiated) ∧
  (∃ (s : State) (b : List Byte), hostUp s = true ∧ hasIdentity s = true ∧ 3 ≤ s.sec.spdm.negotiated) ∧
  (∃ (s : State) (b : List Byte), hostUp s = true ∧ hasIdentity s = false) ∧
  (∃ (s : State) (i : Nat) (b m : List Byte), measurement s i = some m ∧ hostUp s = true ∧ changing s = false ∧ 3 ≤
    s.sec.spdm.negotiated) ∧
  (∃ (s : State) (i : Nat) (g : Bool) (b : List Byte), hostUp s = true ∧ changing s = true) ∧
  (∃ (s : State) (b : KeyShare), hostUp s = true ∧ inRecovery s = false ∧ 3 ≤ s.sec.spdm.negotiated ∧ s.sec.spdm.keyed = true ∧
    s.sec.spdm.session = 0) ∧
  (∃ (s : State), hostUp s = true ∧ inRecovery s = false ∧ s.sec.spdm.session = 1) ∧
  (∃ (s : State) (m : List Byte), m ≠ Config.finishMac s.sec.spdm.keys ∧ hostUp s = true ∧ inRecovery s = false ∧ s.sec.spdm.session = 1) ∧
  (∃ (s : State), hostUp s = true ∧ inRecovery s = false ∧ s.sec.spdm.session = 2) ∧
  (∃ (s : State) (k : IdeKm), hostUp s = true ∧ inRecovery s = false ∧ s.sec.spdm.session = 2) ∧
  (∃ (s : State) (h q : Nat) (d : List Byte), hostUp s = true ∧ (q = 0 ∨ h = s.sec.spdm.chunkHandle ∧ q = s.sec.spdm.chunkSeq)) ∧
  (∃ (s : State) (h q : Nat) (d b : List Byte), (if q = 0 then d else s.sec.spdm.chunkBuf ++ d) = b ∧ hostUp s = true ∧ (q = 0 ∨ h =
    s.sec.spdm.chunkHandle ∧ q = s.sec.spdm.chunkSeq)) ∧
  (∃ (s : State) (b : List Byte), s.sec.spdm.largeResp = some b ∧ hostUp s = true) ∧
  (∃ (s : State), hostUp s = true ∧ inRecovery s = true) ∧
  (∃ (s : State) (c : Nat), hostUp s = true) ∧
  (∃ (s : State) (b : KeyShare), hostUp s = true ∧ inRecovery s = true) :=
  ⟨⟨s0, 2, by decide +kernel⟩, ⟨recovery, 1, by decide +kernel⟩, ⟨s0, by decide +kernel⟩, ⟨withSpdm { Spdm.reset with negotiated := 1 },
    by decide +kernel⟩, ⟨withSpdm { Spdm.reset with negotiated := 2 }, true, true, true, true, by decide +kernel⟩, ⟨withSpdm (spdm3 0),
    by decide +kernel⟩, ⟨withSpdm (spdm3 0), 0, 64, by decide +kernel⟩, ⟨{ withSpdm (spdm3 0) with pwr := { s0.pwr with idOk := true } },
    zeros 32, by decide +kernel⟩, ⟨recovery, zeros 32, by decide +kernel⟩, ⟨withSpdm (spdm3 0), 0, zeros 32, _, get_some
    (by decide +kernel), by decide +kernel⟩, ⟨{ s0 with sec := { Sec.reset with fwMode := 1 } }, 0, true, zeros 32, by decide +kernel⟩,
    ⟨withSpdm (spdm3 0), ⟨zeros 32, zeros 96⟩, by decide +kernel⟩, ⟨withSpdm (spdm3 1), by decide +kernel⟩, ⟨withSpdm (spdm3 1),
    Config.finishMac (withSpdm (spdm3 1)).sec.spdm.keys ++ [0#8], by simp, by decide +kernel⟩, ⟨withSpdm (spdm3 2), by decide +kernel⟩,
    ⟨withSpdm (spdm3 2), .program 1, by decide +kernel⟩, ⟨s0, 3, 0, [1#8], by decide +kernel⟩, ⟨s0, 3, 0, [0x84#8], _, rfl,
    by decide +kernel⟩, ⟨withSpdm { Spdm.reset with largeResp := some [1, 2] }, _, get_some (by decide +kernel), by decide +kernel⟩,
    ⟨recovery, by decide +kernel⟩, ⟨s0, 0x7F, by decide +kernel⟩, ⟨recovery, ⟨zeros 32, zeros 96⟩, by decide +kernel⟩⟩

theorem hyps_SmbResults :
  (∃ (s : State), s.pwr.off = false) ∧
  (∃ (s : State), s.pwr.off = false) ∧
  (∃ (s : State) (v : SmbWrite 16), s.pwr.off = false ∧ pecRight s 0x10 (leBytes 2 v.val.toNat) v.pec = true) ∧
  (∃ (s : State), s.pwr.off = false) ∧
  (∃ (s : State) (v : SmbWrite 8), s.pwr.off = false ∧ pecRight s 0x21 [v.val] v.pec = true) ∧
  (∃ (s : State) (v : SmbWrite 8) (k : Nat), s.pwr.off = false ∧ pecRight s 0x22 [v.val] v.pec = true) ∧
  (∃ (s : State) (v : SmbWrite 8) (u : SmbWrite 16) (k : Nat), s.pwr.off = false) ∧
  (∃ (s : State), s.pwr.off = false ∧ s.pwr.alert = true) ∧
  (∃ (s : State), s.pwr.alert = false) ∧
  (∃ (s : State) (c : Byte), s.pwr.off = false ∧ c ∉ smbCodes) ∧
  (∃ (s : State), s.pwr.off = true) :=
  ⟨⟨s0, by decide +kernel⟩, ⟨s0, by decide +kernel⟩, ⟨s0, ⟨3300, none⟩, by decide +kernel⟩, ⟨s0, by decide +kernel⟩, ⟨s0, ⟨0xA5, none⟩,
    by decide +kernel⟩, ⟨s0, ⟨0x5A, none⟩, 1, by decide +kernel⟩, ⟨s0, ⟨0xA5, some 0⟩, ⟨3300, some 0⟩, 1, by decide +kernel⟩,
    ⟨{ s0 with pwr := { s0.pwr with alert := true } }, by decide +kernel⟩, ⟨s0, by decide +kernel⟩, ⟨s0, 0x77, by decide +kernel⟩,
    ⟨{ s0 with pwr := { s0.pwr with off := true } }, by decide +kernel⟩⟩

theorem hyps_PowerInput :
  (∃ (s : State) (mv : Nat), s.pwr.mated = false) ∧
  (∃ (s : State), s.pwr.mated = true) ∧
  (∃ (s : State) (k : Nat), s.pwr.off = true ∧ s.pwr.mated = true ∧ s.pwr.converting = true) ∧
  (∃ (s : State) (mv : Nat), s.pwr.off = false ∧ vinGood mv = false ∧ 42000 ≤ mv ∧ mv < 60000) ∧
  (∃ (s : State) (mv : Nat), s.pwr.off = false ∧ s.recov.fatal = false ∧ 36000 ≤ mv ∧ (mv < 42000 ∨ 60000 ≤ mv)) ∧
  (∃ (s : State) (mv : Nat), s.pwr.off = false ∧ mv < 36000) ∧
  (∃ (s : State) (t : Nat), s.pwr.excursionSince = some t ∧ running s = true ∧ t + 48000 < s.clk.tick) ∧
  (∃ (s : State) (t : Nat), s.pwr.excursionSince = some t ∧ s.clk.tick ≤ t + 48000) ∧
  (∃ (s : State), s.pwr.off = false) ∧
  (∃ (s : State) (mv : Nat), s.pwr.off = true ∧ s.pwr.mated = true ∧ vinGood mv = false) ∧
  (∃ (s : State) (mv : Nat), 46000 ≤ mv ∧ mv ≤ 58000 ∧ s.pwr.mated = true) ∧
  (∃ (s : State), s.pwr.off = false) :=
  ⟨⟨{ s0 with pwr := { s0.pwr with mated := false } }, 54000, by decide +kernel⟩, ⟨s0, by decide +kernel⟩,
    ⟨{ s0 with pwr := { s0.pwr with off := true } }, 3, by decide +kernel⟩, ⟨s0, 59999, by decide +kernel⟩, ⟨s0, 60000,
    by decide +kernel⟩, ⟨s0, 35999, by decide +kernel⟩,
    ⟨{ { s0 with pwr := { s0.pwr with excursionSince := some 0 } } with clk := { s0.clk with tick := 48001 } }, 0, by decide +kernel⟩,
    ⟨{ s0 with pwr := { s0.pwr with excursionSince := some 0 } }, 0, by decide +kernel⟩, ⟨s0, by decide +kernel⟩,
    ⟨{ s0 with pwr := { s0.pwr with off := true } }, 40000, by decide +kernel⟩, ⟨s0, 46000, by decide +kernel⟩, ⟨s0, by decide +kernel⟩⟩

theorem hyps_BringupResults :
  (∃ (s : State) (a b : CopyCheck), atStage s 0 = true ∧ (a = .valid ∨ b = .valid)) ∧
  (∃ (s : State) (a b : CopyCheck), atStage s 0 = true ∧ a ≠ .valid ∧ b ≠ .valid) ∧
  (∃ (s : State) (r : IdentityRead), atStage s 1 = true ∧ (r.current = .valid ∨ r.other = .valid)) ∧
  (∃ (s : State) (r : IdentityRead), atStage s 1 = true ∧ r.current ≠ .valid ∧ r.other ≠ .valid) ∧
  (∃ (s : State) (i : FwImage), bootImage s = some i ∧ atStage s 2 = true) ∧
  (∃ (s : State), atStage s 2 = true ∧ bootImage s = none) ∧
  (∃ (s : State), (atStage s 3 = true ∨ atStage s 4 = true) ∧ activeDies s ≠ []) ∧
  (∃ (s : State) (l : List Unit1), (atStage s 3 = true ∨ atStage s 4 = true)) ∧
  (∃ (s : State) (l : List Unit1), running s = true ∧ s.pwr.service = 1 ∧ s.pwr.selfTested = false) ∧
  (∃ (s : State), running s = true ∧ s.pwr.service = 1 ∧ s.pwr.selfTested = true ∧ s.pwr.speedTested = false ∧ s.pwr.speedTest = none ∧
    (∀ n ∈ onDie0 s, (getCtx s n).loadp = none)) ∧
  (∃ (s : State) (t0 : Nat) (l : List Nat), s.pwr.speedTest = some (t0, l)) ∧
  (∃ (s : State), running s = true ∧ s.pwr.service = 1 ∧ s.pwr.selfTested = true ∧ s.pwr.speedTested = true) ∧
  (∃ (s : State) (a b : CopyCheck), atStage s 0 = false) :=
  ⟨⟨stage 0 0, .valid, .badForm, by decide +kernel⟩, ⟨stage 0 0, .badForm, .unreadable, by decide +kernel⟩, ⟨stage 1 0, ⟨[], .valid,
    .badForm⟩, by decide +kernel⟩, ⟨stage 1 0, ⟨[], .badForm, .badForm⟩, by decide +kernel⟩, ⟨stage 2 0, _, get_some (by decide +kernel),
    by decide +kernel⟩, ⟨{ stage 2 0 with sec := { Sec.reset with fwSlots := [] } }, by decide +kernel⟩, ⟨stage 3 0, by decide +kernel⟩,
    ⟨stage 4 0, [.die 3], by decide +kernel⟩, ⟨stage 5 1, [.die 3], by decide +kernel⟩,
    ⟨{ stage 5 1 with pwr := { (stage 5 1).pwr with selfTested := true } }, by decide +kernel⟩,
    ⟨{ stage 5 1 with pwr := { (stage 5 1).pwr with speedTest := some (0, []) } }, 0, _, get_some_r (by decide +kernel)⟩,
    ⟨{ stage 5 1 with pwr := { (stage 5 1).pwr with selfTested := true, speedTested := true } }, by decide +kernel⟩, ⟨stage 1 0, .valid,
    .valid, by decide +kernel⟩⟩

theorem hyps_LowPower :
  (∃ (s : State) (t : Nat), s.pwr.napSince = some t ∧ running s = true ∧ s.pwr.inHold = false ∧ s.pwr.napEn = true ∧ allStopped s = true
    ∧ quiet s = true ∧ t + usTicks * s.pwr.napAfterUs ≤ s.clk.tick) ∧
  (∃ (s : State) (b : Nat), bit s.pwr.pin (b / 512) = true) ∧
  (∃ (s : State) (b : Nat), s.pwr.state = 2 ∧ b < 8192 ∧ bit s.pwr.pin (b / 512) = false) ∧
  (∃ (s : State), s.pwr.napEn = false) ∧
  (∃ (s : State), hostUp s = true ∧ s.pwr.holdAsked = false ∧ s.host.aspmL12 = false) ∧
  (∃ (s t : State), t = (liveCtxs s).foldl beginSave (modPwr s fun p => { p with holdAsked := true }) ∧ hostUp s = true ∧ s.pwr.holdAsked
    = false ∧ holdBlocked s = false) ∧
  (∃ (s : State), s.pwr.holdAsked = true) ∧
  (∃ (s : State), s.pwr.holdAsked = true ∧ holdWaits s = false) ∧
  (∃ (s : State), s.pwr.inHold = true ∧ running s = true) ∧
  (∃ (s : State), s.pwr.inHold = false) ∧
  (∃ (s : State) (k : Nat), hostUp s = true) :=
  ⟨⟨{ s0 with pwr := { s0.pwr with napSince := some 10, napAfterUs := 10 }, clk := { Clock.reset with tick := 490 } }, 10,
    by decide +kernel⟩, ⟨{ s0 with pwr := { s0.pwr with state := 2, pin := 1 } }, 0, by decide +kernel⟩,
    ⟨{ s0 with pwr := { s0.pwr with state := 2, pin := 1 } }, 512, by decide +kernel⟩,
    ⟨{ s0 with pwr := { s0.pwr with napEn := false } }, by decide +kernel⟩, ⟨s0, by decide +kernel⟩,
    ⟨{ onCore0 [] [] with host := { s0.host with aspmL12 := true } }, _, rfl, by decide +kernel⟩,
    ⟨{ s0 with pwr := { s0.pwr with holdAsked := true } }, by decide +kernel⟩, ⟨{ s0 with pwr := { s0.pwr with holdAsked := true } },
    by decide +kernel⟩, ⟨{ s0 with pwr := { s0.pwr with inHold := true } }, by decide +kernel⟩, ⟨s0, by decide +kernel⟩, ⟨s0, 1,
    by decide +kernel⟩⟩

theorem hyps_FatalLeaves :
  (∃ (i : Instr) (s t : State), exec i s = .next t ∧ s.recov.fatal = true ∧ t.recov.fatal = false) :=
  ⟨.smbWarm ⟨0x5A, none⟩ 1, { s0 with recov := { Rec.reset with fatal := true } }, _, next_state (by decide +kernel), by decide +kernel⟩

theorem hyps_FirmwareResults :
  (∃ (s u : State) (bs : List Byte), fwFetch s s.sec.stagePa s.sec.fwBytes = (bs, false, u) ∧ hostUp s = true ∧ s.sec.fwState ≠ fsBusy ∧
    stageOk s s.sec.stagePa s.sec.fwBytes = true) ∧
  (∃ (s u : State) (bs : List Byte), fwFetch s s.sec.stagePa s.sec.fwBytes = (bs, true, u) ∧ hostUp s = true ∧ s.sec.fwState ≠ fsBusy ∧
    stageOk s s.sec.stagePa s.sec.fwBytes = true) ∧
  (∃ (s : State), hostUp s = true ∧ s.sec.fwState ≠ fsBusy ∧ stageOk s s.sec.stagePa s.sec.fwBytes = false) ∧
  (∃ (s : State), hostUp s = true ∧ s.sec.fwState = fsBusy) ∧
  (∃ (s : State), running s = true ∧ s.sec.fwState = fsBusy ∧ s.sec.fwMode = 0) ∧
  (∃ (s : State), hostUp s = true ∧ s.sec.fwState = fsVerified ∧ applying s = true) ∧
  (∃ (s : State), hostUp s = true ∧ s.sec.fwState = fsVerified ∧ applying s = false ∧ stillAdmitted s (stagedImage s) = false) ∧
  (∃ (s : State), hostUp s = true ∧ s.sec.fwState = fsVerified ∧ applying s = false ∧ stillAdmitted s (stagedImage s) = true ∧ inRecovery
    s = false ∧ runningTable s = some (stagedImage s).tableVersion) ∧
  (∃ (s : State), hostUp s = true ∧ s.sec.fwState = fsVerified ∧ applying s = false ∧ stillAdmitted s (stagedImage s) = true ∧
    (inRecovery s = true ∨ runningTable s ≠ some (stagedImage s).tableVersion)) ∧
  (∃ (s : State) (i : FwImage), s.sec.prot.cosign = true ∧ imageResult s i ≠ fwOk) ∧
  (∃ (s : State) (ok : Bool), running s = true ∧ s.sec.fwMode = 2 ∧ s.sec.fwPaused = false ∧ openEntries s s.sec.fwStep = []) ∧
  (∃ (s : State) (ok : Bool), s.sec.fwMode = 2 ∧ s.sec.fwPaused = false ∧ openEntries s s.sec.fwStep ≠ []) ∧
  (∃ (s : State), running s = true ∧ s.sec.fwMode = 2 ∧ s.sec.fwPaused = true ∧ s.sec.fwStep < 15) ∧
  (∃ (s : State), running s = true ∧ s.sec.fwMode = 2 ∧ s.sec.fwPaused = true ∧ s.sec.fwStep = 15) ∧
  (∃ (s : State), running s = true ∧ s.sec.fwMode = 2 ∧ s.sec.fwPaused = true ∧ s.sec.fwStep = 0) ∧
  (∃ (s : State) (b : Bool), s.sec.fwMode ≠ 2) :=
  ⟨⟨withFw 0 0 1, _, _, pair_m (by decide +kernel), by decide +kernel⟩, ⟨mergeGrain (withFw 0 0 1) 0x600000 0 [0] true, _, _, pair_m
    (by decide +kernel), by decide +kernel⟩, ⟨{ withFw 0 0 1 with sec := { Sec.reset with fwBytes := 256, stagePa := 0x30000000000 } },
    by decide +kernel⟩, ⟨withFw 1 0 1, by decide +kernel⟩, ⟨withFw 1 0 1, by decide +kernel⟩,
    ⟨{ withFw 2 0 1 with sec := { (withFw 2 0 1).sec with slots := [(0, { CrSlot.reset with state := 3 })] } }, by decide +kernel⟩,
    ⟨{ withFw 2 0 1 with sec := { (withFw 2 0 1).sec with prot := { Protection.shipped with minFw := 9 } } }, by decide +kernel⟩, ⟨withFw
    2 0 1, by decide +kernel⟩, ⟨{ withFw 2 0 1 with sec := { (withFw 2 0 1).sec with fwRunning := none } }, by decide +kernel⟩,
    ⟨{ s0 with sec := { Sec.reset with prot := { Protection.shipped with cosign := true } } }, FwImage.shipped, by decide +kernel⟩,
    ⟨withFw 1 2 1, true, by decide +kernel⟩,
    ⟨{ { withFw 1 2 1 with sec := { (withFw 1 2 1).sec with fwStep := 0 } } with recov := { Rec.reset with journals := [(0, [⟨1, 0, 1, 0, false, []⟩])] } },
    true, by decide +kernel⟩, ⟨{ withFw 1 2 1 with sec := { (withFw 1 2 1).sec with fwPaused := true } }, by decide +kernel⟩,
    ⟨{ withFw 1 2 1 with sec := { (withFw 1 2 1).sec with fwPaused := true, fwStep := 15 } }, by decide +kernel⟩,
    ⟨{ withFw 1 2 1 with sec := { (withFw 1 2 1).sec with fwPaused := true } }, by decide +kernel⟩, ⟨s0, true, by decide +kernel⟩⟩

theorem hyps_ChangeRecordResults :
  (∃ (s : State) (i : Nat) (b : Option (List Byte)) (u : State), readBody s (getSlot s i).bodyPa = (b, u) ∧ secUp s = true ∧ i < 4 ∧
    ((getSlot s i).state = csEmpty ∨ csApplied ≤ (getSlot s i).state)) ∧
  (∃ (s : State) (x : CrSlot) (b : List Byte), bodyOk b = true ∧ slice b 16 64 = s.sec.idDigest) ∧
  (∃ (s u : State) (i : Nat) (sig : Option (List Byte)), sigOf s (getSlot s i) = (sig, u) ∧ (∀ b, sig = some b → signerOf u (getSlot s i)
    b = none) ∧ secUp s = true ∧ i < 4 ∧ windowPassed s (getSlot s i) = false) ∧
  (∃ (s u : State) (i : Nat) (b : List Byte), sigOf s (getSlot s i) = (some b, u) ∧ secUp s = true ∧ i < 4 ∧ windowPassed s (getSlot s i)
    = false) ∧
  (∃ (s : State) (i r : Nat) (x : CrSlot) (b : List Byte), r < 2 ∧ (x.operator || r == 0) = true ∧ (x.custodian || r == 1) = true) ∧
  (∃ (s : State) (i : Nat), secUp s = true ∧ i < 4 ∧ (getSlot s i).state ≠ csApplying) ∧
  (∃ (s : State) (i : Nat), running s = true ∧ windowPassed s (getSlot s i) = true) ∧
  (∃ (s : State) (i : Nat), running s = true ∧ turnOf s = some i ∧ bodyWord (getSlot s i).body 1 ≠ s.sec.prot.cfgSeq) ∧
  (∃ (s : State) (i : Nat), running s = true ∧ turnOf s = some i ∧ bodyWord (getSlot s i).body 1 = s.sec.prot.cfgSeq ∧ tableOk
    (newSettings s.sec.prot (getSlot s i).body) = true ∧ rulesOk (newSettings s.sec.prot (getSlot s i).body) = true ∧ bodyKind (getSlot s
    i).body = 3) ∧
  (∃ (s : State) (i : Nat), running s = true ∧ turnOf s = some i ∧ bodyWord (getSlot s i).body 1 = s.sec.prot.cfgSeq ∧ signedNow s
    (getSlot s i) = false) ∧
  (∃ (s : State) (i : Nat), turnOf s ≠ some i) :=
  ⟨⟨withCr CrSlot.reset, 0, _, _, pair2, by decide +kernel⟩, ⟨withCr CrSlot.reset, CrSlot.reset, body3 0, by decide +kernel⟩, ⟨withCr
    { CrSlot.reset with state := 1, window := 2000, sigPa := 0x30000000000 }, _, 0, _, pair2, of_opt (by decide +kernel),
    by decide +kernel⟩, ⟨withCr { CrSlot.reset with state := 1, window := 2000, sigPa := 0x800000 }, (fwFetch (withCr
    { CrSlot.reset with state := 1, window := 2000, sigPa := 0x800000 }) (getSlot (withCr
    { CrSlot.reset with state := 1, window := 2000, sigPa := 0x800000 }) 0).sigPa sigBytes).2.2, 0, (fwFetch (withCr
    { CrSlot.reset with state := 1, window := 2000, sigPa := 0x800000 }) (getSlot (withCr
    { CrSlot.reset with state := 1, window := 2000, sigPa := 0x800000 }) 0).sigPa sigBytes).1, sigOf_ok (by decide +kernel)
    (by decide +kernel), by decide +kernel⟩, ⟨s0, 0, 1, { CrSlot.reset with operator := true }, [7#8], by decide +kernel⟩, ⟨withCr
    { CrSlot.reset with state := 1 }, 0, by decide +kernel⟩, ⟨withCr { CrSlot.reset with state := 2, firstTick := 10, window := 20 }, 0,
    by decide +kernel⟩, ⟨withCr { CrSlot.reset with state := 3, body := body3 1 }, 0, by decide +kernel⟩, ⟨withCr
    { CrSlot.reset with state := 3, body := body3 0 }, 0, by decide +kernel⟩, ⟨withCr { CrSlot.reset with state := 3, body := body3 0 },
    0, by decide +kernel⟩, ⟨s0, 0, by decide +kernel⟩⟩

theorem hyps_RegisterWriteResults :
  (∃ (s : State) (v : Word), hostUp s = true ∧ s.pwr.service ≠ 3) ∧
  (∃ (s : State) (v : Word), hostUp s = true ∧ s.pwr.service ≠ 3) ∧
  (∃ (s : State) (v : Word), hostUp s = true ∧ s.pwr.service ≠ 3) ∧
  (∃ (s : State) (p : Nat) (v : Word), hostUp s = true ∧ s.pwr.service ≠ 3 ∧ p < 64) ∧
  (∃ (s : State) (n : Nat) (v : Word), 0 < n) ∧
  (∃ (s : State) (p : Nat) (v : Word), accepting s p = true ∧ p < 64 ∧ (getPart s p).cmdBase ≠ 0 ∧ (v.toNat % 2 ^ 32 + 2 ^ 32 - (getPart
    s p).cmdHead) % 2 ^ 32 ≤ cmdSlots (getPart s p).cmdOrder ∧ cmdRingOk s p (getPart s p).cmdBase (getPart s p).cmdOrder = true) ∧
  (∃ (s : State) (f o w : Nat) (v : Word), w ≠ 4 ∧ w ≠ 8) ∧
  (∃ (s : State) (f o w : Nat) (v : Word), o % w ≠ 0) ∧
  (∃ (s : State) (f o w : Nat) (v : Word), hostUp s = false) ∧
  (∃ (s t : State) (f o w : Nat) (v : Word), exec (.registerWrite f o w v) s = .next t ∧ f < 64) ∧
  (∃ (s : State) (v : Word), hostUp s = true ∧ s.host.cfgReady = true ∧ s.pwr.service ≠ 3 ∧ v.toNat % 2 = 1) ∧
  (∃ (s : State) (n : Nat) (v : Word), hostUp s = true ∧ s.host.cfgReady = true ∧ (n = 0 ∨ s.host.vfEnable = true)) ∧
  (∃ (s : State) (n o w : Nat) (v : Word), s.host.cfgReady = false) ∧
  (∃ (s : State) (f o n : Nat), hostUp s = false ∧ 0 < n) ∧
  (∃ (s : State), hostUp s = true ∧ s.pwr.service ≠ 3) ∧
  (∃ (s : State) (f o i k : Nat) (bs : List Byte), barRead s f o (i + k) = some bs ∧ 0 < k) ∧
  (∃ (s : State), hostUp s = true ∧ s.host.cfgReady = true) :=
  ⟨⟨s0, 5000, by decide +kernel⟩, ⟨s0, 10, by decide +kernel⟩, ⟨s0, 10, by decide +kernel⟩, ⟨s0, 63, 7, by decide +kernel⟩, ⟨s0, 3, 1,
    by decide +kernel⟩,
    ⟨{ s0 with parts := [(3, { Part.reset with cmdBase := 0x500000 })], sec := { Sec.reset with prot := { Protection.shipped with parts := [(3, PartEntry.shipped0)] } } },
    3, 5, by decide +kernel⟩, ⟨s0, 0, 0, 2, 1, by decide +kernel⟩, ⟨s0, 0, 2, 4, 1, by decide +kernel⟩, ⟨State.reset, 0, 0, 4, 1,
    by decide +kernel⟩, ⟨s0, _, 0, 0x808, 4, 10, next_state (by decide +kernel), by decide +kernel⟩,
    ⟨{ s0 with host := { s0.host with cfgReady := true } }, 1, by decide +kernel⟩,
    ⟨{ s0 with host := { s0.host with cfgReady := true } }, 0, 0x80000000, by decide +kernel⟩, ⟨s0, 0, 0xB0, 4, 0, by decide +kernel⟩,
    ⟨State.reset, 0, 0, 4, by decide +kernel⟩, ⟨s0, by decide +kernel⟩, ⟨s0, 0, 0x10024, 1, 3, _, get_some (by decide +kernel),
    by decide +kernel⟩, ⟨{ s0 with host := { s0.host with cfgReady := true } }, by decide +kernel⟩⟩

theorem hyps_MemoryCanonicalKept :
  (∃ (s t : State), step s = .next t ∧ s.memWf) :=
  ⟨s0, _, next_state (by decide +kernel), memWf_of (by decide +kernel)⟩

theorem hyps_LegalKept :
  (∃ (s t : State), step s = .next t ∧ s.Legal) :=
  ⟨s0, _, next_state (by decide +kernel), legal_s0⟩

theorem hyps_FrameCompute :
  (∃ (i : Instr) (row : Row) (s t : State) (c k n : Nat) (w : Word), exec i s = .next t ∧ (i, row) ∈ [(Instr.agset (.thread c k) w,
    rowAgset), (.agopen (.thread c k) w, rowAgopen), (.agout (.thread c k) w, rowAgout), (.mma (.thread c k) w, rowMma), (.atts (.thread
    c k) w, rowAtts), (.attv (.thread c k) w, rowAttv), (.vfn (.thread c k) w, rowVfn), (.cvt (.thread c k) w, rowCvt), (.vred (.thread c
    k) w, rowVred), (.vcmp (.thread c k) w, rowVcmp), (.pep (.thread c k) w, rowPep), (.dwr (.thread c k) w, rowDwr), (.salu (.thread c
    k) w, rowSalu), (.scmp (.thread c k) w, rowScmp), (.br (.thread c k) w, rowBr), (.nop (.thread c k) w, rowFlow 3 true true),
    (.rdsysTick (.thread c k) w, rowRdsys 0), (.rdsysStatus (.thread c k) w, rowRdsys 1), (.rdsysContext (.thread c k) w, rowRdsys 3),
    (.rdsysPeer (.thread c k) w, rowRdsys 4), (.smemLoad (.thread c k) w, rowSmemLoad)] ∧ Issues row s (.thread c k) n w ∧ (getCtx t
    n).state = ctxLive) :=
  ⟨.salu t0 (iw 7 0 3 1 2 0 0x04000000), rowSalu, on (coreP [(1, 7), (2, 0x40)] [(1, tileD 1 2 2 0x1000), (3, tileD 1 2 2 0x2000)]) (ctx
    [] []), _, 0, 0, 5, iw 7 0 3 1 2 0 0x04000000, next_state (by decide +kernel), by simp, by decide +kernel⟩

theorem hyps_FrameScratchpad :
  (∃ (s t : State) (c k n : Nat) (w : Word), exec (.smemStore (.thread c k) w) s = .next t ∧ s.memWf ∧ Issues rowSmemStore s (.thread c
    k) n w ∧ (getCtx t n).state = ctxLive) ∧
  (∃ (i : Instr) (row : Row) (s t : State) (c k n : Nat) (w : Word) (o : Tile) (off : Nat), tileFor (getCtx s n).num.s5emu (getCore s c)
    (dOf s (.thread c k) (iDst w)) = some o ∧ exec i s = .next t ∧ s.memWf ∧ (i, row) ∈ [(Instr.vfn (.thread c k) w, rowVfn), (.vcmp
    (.thread c k) w, rowVcmp), (.pep (.thread c k) w, rowPep)] ∧ Issues row s (.thread c k) n w ∧ (getCtx t n).state = ctxLive ∧ (∀ r ∈
    o.runs, off < r.1 ∨ r.1 + r.2 ≤ off)) :=
  ⟨⟨on (coreP [(1, 7), (2, 0x40)] [(1, tileD 1 2 2 0x1000), (3, tileD 1 2 2 0x2000)]) (ctx [] []), _, 0, 0, 5, iw 7 3 0 2 1 0 0x80000000,
    next_state (by decide +kernel), memWf_of (by decide +kernel), by decide +kernel⟩, ⟨.vfn t0 (iw 1 0 3 1 1 0 0), rowVfn, on (coreP [(1,
    7), (2, 0x40)] [(1, tileD 1 2 2 0x1000), (3, tileD 1 2 2 0x2000)]) (ctx [] []), _, 0, 0, 5, iw 1 0 3 1 1 0 0, _, 0x3000, get_some
    (by decide +kernel), next_state (by decide +kernel), memWf_of (by decide +kernel), by simp, by decide +kernel⟩⟩

theorem hyps_FirmwareTurns :
  (∃ (s : State) (p : Nat) (w : Option Instr), nextTurn s = some (p, w)) ∧
  (∃ (s : State) (p : Nat), nextTurn s = none ∧ p < 64) ∧
  (∃ (s : State) (p k : Nat) (c : Instr) (l : List (Instr × Nat)), accepting s p = true ∧ (getPart s p).destroyWait = none ∧ completing s
    p = false ∧ coreStops s 0 = false ∧ coreStops s (bellCore s c) = false ∧ (getPart s p).bells = (c, k) :: l) ∧
  (∃ (s : State) (p : Nat) (c : Instr), firmwareBusy s = true) ∧
  (∃ (s : State) (p k : Nat) (c : Instr) (l : List (Instr × Nat)), (getPart s p).bells = (c, k) :: l ∧ commandsBefore (getPart s p) k =
    false ∧ coreStops s (bellCore s c) = true) :=
  ⟨⟨{ withRq rq0 with parts := [(0, { Part.reset with rqBase := 0x200000, rqSlots := 4, bells := [(.kick 0 0, 0)] })] }, 0, some (.kick 0
    0), by decide +kernel⟩, ⟨s0, 0, by decide +kernel⟩,
    ⟨{ withRq rq0 with parts := [(0, { Part.reset with rqBase := 0x200000, rqSlots := 4, bells := [(.kick 0 0, 0)] })] }, 0, 0, .kick 0
    0, [], by decide +kernel⟩, ⟨{ s0 with pwr := { s0.pwr with holdAsked := true } }, 0, .kick 0 0, by decide +kernel⟩,
    ⟨{ withRq rq0 with parts := [(0, { Part.reset with rqBase := 0x200000, rqSlots := 4, bells := [(.kick 0 0, 0)] })], recov := { Rec.reset with restarting := [0] } },
    0, 0, .kick 0 0, [], by decide +kernel⟩⟩

end

end Tests
end Sys2Proof
end

section
/-! The proofs of the statements of 00_scope: the registers of the always-on domain, the state after reset, and the read of
IN_POWER at an offset that Table 1.8 does not give it. -/

namespace Sys2Proof
namespace Machine

/-! ### The tick and governor registers (R7, R31) -/

/-- A bit of a word's number is the word's bit. -/
theorem bit_toNat {n : Nat} (v : BitVec n) (k : Nat) : bit v.toNat k = v.getLsbD k := by
  rw [BitVec.getLsbD, Nat.testBit_eq_decide_div_mod_eq, bit, Nat.shiftRight_eq_div_pow]
  rfl

theorem exec_tickLoRead {s : State} (h : hostUp s = true) :
    exec .tickLoRead s =
      .next (emit (modClk s fun c => { c with hiLatch := c.tick >>> 32 % 2 ^ 32 }) (.regValue (now s % 2 ^ 32))) := by
  change execTickLoRead s = _
  simp [execTickLoRead, h]

theorem exec_govStatusRead {s : State} (h : hostUp s = true) :
    exec .govStatusRead s = .next (emit (modClk s fun c => { c with throttleEvents := 0 }) (.regValue (govStatus s.clk))) := by
  change execGovStatusRead s = _
  simp [execGovStatusRead, h]

/-- A die with the fields of a write to its DIE_CLK (Table 1.12). -/
def keepWarmStored (v : Word32) (d : DieClk) : DieClk :=
  { d with
    holdoff := bits v.toNat 23 12
    keepWarm := bit v.toNat 30
    idleTicks := if d.keepWarm || bit v.toNat 30 then 0 else d.idleTicks
    starting := d.starting || (d.state == 2 && bit v.toNat 30 && !d.pllOn) }

theorem exec_keepWarmWrite {s : State} {k : Nat} (v : Word32) (h : hostUp s = true) (hk : k < 9) :
    exec (.keepWarmWrite k v) s = .next (modDie s k (keepWarmStored v)) := by
  change execKeepWarmWrite k v s = _
  rw [execKeepWarmWrite, if_neg (by simp [h, hk])]
  rfl

/-- Of a die that is not active a write starts no PLL (R27). -/
theorem keepWarmStored_starting_of_inactive (v : Word32) {d : DieClk} (h : d.state ≠ 2) :
    (keepWarmStored v d).starting = d.starting := by simp [keepWarmStored, h]

/-! ### What a collection of the monitors leaves alone (R20, R370) -/

@[simp] theorem oweDomains_inputUj (ds : List DomainReading) (c : Clock) (key : Nat) :
    (oweDomains c key ds).2.2.inputUj = c.inputUj := by
  induction ds generalizing c key with
  | nil => rfl
  | cons d ds ih => exact ih (oweDomain c key d).2 (key + 1)

/-- What accounting leaves alone: `t` differs from `s` neither in the measured input, nor in memory, nor in the cores, whatever
contexts, partitions and overhead have been charged. -/
structure AccountingFrame (s t : State) : Prop where
  inputUj : t.clk.inputUj = s.clk.inputUj
  inEnergy : t.clk.inEnergy = s.clk.inEnergy
  mem : t.mem = s.mem
  cores : t.cores = s.cores

theorem AccountingFrame.refl (s : State) : AccountingFrame s s := ⟨rfl, rfl, rfl, rfl⟩

theorem AccountingFrame.trans {s t u : State} (h : AccountingFrame s t) (g : AccountingFrame t u) : AccountingFrame s u :=
  ⟨g.inputUj.trans h.inputUj, g.inEnergy.trans h.inEnergy, g.mem.trans h.mem, g.cores.trans h.cores⟩

theorem modAcct_accountingFrame (s : State) (n : Nat) (f : Acct → Acct) : AccountingFrame s (modAcct s n f) := ⟨rfl, rfl, rfl, rfl⟩

/-- A fold keeps the frame that each of its steps keeps. -/
theorem foldl_accountingFrame {α : Type} {f : State → α → State} (hf : ∀ s a, AccountingFrame s (f s a)) (l : List α) (s : State) :
    AccountingFrame s (l.foldl f s) := by
  induction l generalizing s with
  | nil => exact .refl s
  | cons a l ih => exact (hf s a).trans (ih (f s a))

theorem chargeCycles_accountingFrame (s : State) (d : DomainReading) : AccountingFrame s (chargeCycles s d) :=
  foldl_accountingFrame (fun s _ => modAcct_accountingFrame s _ _) d.acts s

theorem payCtx_accountingFrame (s : State) (n : Nat) : AccountingFrame s (payCtx s n) := ⟨rfl, rfl, rfl, rfl⟩

/-- Paying out moves millijoules to contexts, partitions and overhead, and leaves the measured input as it is. -/
theorem payOut_accountingFrame (k : Nat) (s : State) : AccountingFrame s (payOut k s) := by
  induction k generalizing s with
  | zero => exact .refl s
  | succ k ih =>
    refine AccountingFrame.trans ?_ (ih _)
    split
    · split
      · exact payCtx_accountingFrame s _
      · exact ⟨rfl, rfl, rfl, rfl⟩
    · exact ⟨rfl, rfl, rfl, rfl⟩

/-- A collection adds the interval's input, within the current limit of R17, and then only pays out. -/
theorem exec_monitorCollect_paysOut {s : State} (uj : Nat) (ds : List DomainReading) (h : s.pwr.off = false) :
    ∃ k u, exec (.monitorCollect uj ds) s = .next (payOut k u) ∧ u.clk.inputUj = s.clk.inputUj + min uj 36000 ∧
      u.clk.inEnergy = u.clk.inputUj / 1000 ∧ u.mem = s.mem ∧ u.cores = s.cores := by
  have charged := foldl_accountingFrame chargeCycles_accountingFrame ds s
  refine ⟨_, _, (if_neg (by simp [h]) : execMonitorCollect uj ds s = _), ?_, rfl, charged.mem, charged.cores⟩
  exact congrArg (· + min uj 36000) ((oweDomains_inputUj ds _ 0).trans charged.inputUj)

/-- The measured input and its whole millijoules after a collection; memory and the cores stay as they are. -/
theorem exec_monitorCollect {s : State} (uj : Nat) (ds : List DomainReading) (h : s.pwr.off = false) :
    ∃ t, exec (.monitorCollect uj ds) s = .next t ∧ t.clk.inputUj = s.clk.inputUj + min uj 36000 ∧
      t.clk.inEnergy = (s.clk.inputUj + min uj 36000) / 1000 ∧ t.mem = s.mem ∧ t.cores = s.cores := by
  obtain ⟨k, u, run, input, energy, mem, cores⟩ := exec_monitorCollect_paysOut uj ds h
  have paid := payOut_accountingFrame k u
  exact ⟨payOut k u, run, paid.inputUj.trans input, by rw [paid.inEnergy, energy, input], paid.mem.trans mem,
    paid.cores.trans cores⟩

/-- Settles O27: each register command by the equation of what it does, and the collection by the frame of charging and paying out. -/
theorem clockRegisters : Obligations.ClockRegisters := by
  refine ⟨fun s h => ⟨_, exec_tickLoRead h, ?_, rfl, rfl⟩, fun s h => ⟨_, exec_govStatusRead h, rfl, rfl⟩,
    fun s k v h hk => ⟨_, exec_keepWarmWrite v h hk, ?_, ?_⟩, fun s k v h hk hd => ⟨_, exec_keepWarmWrite v h hk, ?_, ?_⟩,
    fun s uj ds h => exec_monitorCollect uj ds h⟩
  · exact congrArg (· % 2 ^ 32) (Nat.shiftRight_eq_div_pow _ _)
  · simp [keepWarmStored, bit_toNat]
  · simp [keepWarmStored, bits, Nat.shiftRight_eq_div_pow]
  · simp [keepWarmStored]
  · simp [keepWarmStored_starting_of_inactive v hd]

/-! ### The state after reset (R8) -/

/-- Nothing is written yet: the memory that is listed, and every core's, is empty. -/
theorem reset_memWf : State.reset.memWf := ⟨rfl, by simp [State.reset]⟩

theorem reset_legal : State.reset.Legal where
  cap := by decide
  late := by decide
  groups := by decide
  quantum := by decide
  nap := by decide
  replay _ := (by decide : 1 ≤ Port.reset.replayMax ∧ Port.reset.replayMax ≤ 7)
  reserved := by decide

/-- Settles O55: every table is empty, so that each entry reads as its reset value. -/
theorem resetHolds : Obligations.ResetHolds :=
  ⟨rfl, reset_memWf, reset_legal, rfl, rfl, rfl, rfl, rfl, rfl, rfl, fun _ => rfl, fun _ => rfl, fun _ => rfl, fun _ => rfl⟩

/-! ### A read at a reserved offset of the power and clock block (Table 1.8, R409) -/

/-- No register stands at 0x028 of the power and clock block. -/
theorem powerReg_0x28 (s : State) : powerReg s 0x28 = 0 := rfl

theorem barUnit_0x10028 {s : State} (h : hostUp s = true) : barUnit s 0 0x10028 = some 0 := by
  simp [barUnit, h, pfReg, powerReg_0x28]

theorem barRead_0x10028 {s : State} (h : hostUp s = true) : barRead s 0 0x10028 4 = some [0, 0, 0, 0] := by
  simp [barRead, List.range_succ, barUnit_0x10028 h]

/-- Refutes O54: its clause on reads of BAR0 looks for IN_POWER at 0x1_0028. Table 1.8 has no register at 0x028 of the block, where
the model reads 0 as of every reserved offset; IN_POWER is at 0x010. So a module in full service whose input power is 5 mW is a
counterexample. -/
theorem not_registerWriteResults : ¬ Obligations.RegisterWriteResults := by
  rintro ⟨-, -, -, -, -, -, -, -, -, -, -, -, -, -, reads, -⟩
  have up : hostUp { State.reset with
      clk := { Clock.reset with inPower := 5 }
      pwr := { Power.reset with service := 2 }
      host := { HostSide.reset with up := true } } = true := rfl
  obtain ⟨-, inPower⟩ := reads _ up (by decide)
  rw [barRead_0x10028 up] at inPower
  exact absurd inPower (by decide)

end Machine
end Sys2Proof
end

section
/-! The proofs of the statements of 01_module_anatomy, first part: the governor, the heat, the oscillators and the PLLs of the
compute dies. -/

namespace Sys2Proof
namespace Machine

/-! ### The governor (R17, R18) -/

@[simp] theorem lowerStep_inPower (clock : Bool) (c : Clock) : (lowerStep clock c).inPower = c.inPower := by
  unfold lowerStep; split <;> rfl

@[simp] theorem lowerStep_lowered (clock : Bool) (c : Clock) :
    (lowerStep clock c).lowered = if clock then c.lowered + 1 else c.lowered := by
  unfold lowerStep; split <;> rfl

@[simp] theorem lowerStep_issueWithheld (clock : Bool) (c : Clock) :
    (lowerStep clock c).issueWithheld = if clock then c.issueWithheld else min 15 (c.issueWithheld + 1) := by
  unfold lowerStep; split <;> rfl

@[simp] theorem raiseStep_inPower (maxC : Nat) (c : Clock) : (raiseStep maxC c).inPower = c.inPower := by
  unfold raiseStep; split
  · rfl
  · split <;> rfl

/-- The measured power is stored, whatever the governor makes of it. -/
@[simp] theorem govCompare_inPower (clock : Bool) (maxC : Nat) (c : Clock) (mw : Nat) :
    (govCompare clock maxC c mw).inPower = mw := by
  unfold govCompare
  dsimp only
  split
  · split
    · rfl
    · rw [lowerStep_inPower]; split <;> rfl
  · split
    · split
      · exact raiseStep_inPower _ _
      · rfl
    · rfl

section
variable {clock : Bool} {maxC mw : Nat} {c : Clock}

/-- Above SUSTAINED_W for 8 ms: a step down. -/
theorem govCompare_lowers (above : 1000 * c.sustainedW < mw) (long : 799 ≤ c.aboveSamples) :
    (govCompare clock maxC c mw).lowered = (lowerStep clock c).lowered ∧
      (govCompare clock maxC c mw).issueWithheld = (lowerStep clock c).issueWithheld := by
  have full : ¬ c.aboveSamples + 1 < 800 := by omega
  simp only [govCompare, if_pos above, if_neg full, lowerStep_lowered, lowerStep_issueWithheld, apply_ite Clock.lowered,
    apply_ite Clock.issueWithheld, ite_self, and_self]

/-- Above SUSTAINED_W for less: one more sample is counted. -/
theorem govCompare_counts (above : 1000 * c.sustainedW < mw) (short : c.aboveSamples < 799) :
    govCompare clock maxC c mw =
      { c with inPower := mw, aboveSamples := c.aboveSamples + 1, relaxSamples := 0 } := by
  have few : c.aboveSamples + 1 < 800 := by omega
  simp only [govCompare, if_pos above, if_pos few]

/-- At most 95 % of SUSTAINED_W for ten samples: a step up. -/
theorem govCompare_raises (low : mw * 20 ≤ 1000 * c.sustainedW * 19) (long : 9 ≤ c.relaxSamples) :
    govCompare clock maxC c mw = raiseStep maxC { c with inPower := mw, aboveSamples := 0, relaxSamples := 0 } := by
  have below : ¬ 1000 * c.sustainedW < mw := by omega
  simp only [govCompare, if_neg below, if_pos low, if_pos long]

end

theorem exec_govStep {s : State} (p : Nat) (on : s.pwr.off = false) :
    exec (.govStep p) s = .next (settleGov (modClk (modPwr s fun x => { x with inMv := x.vinMv })
      fun c => govCompare (canLower s) s.pwr.tempMax c (min p peakMw))) := by
  change execGovStep p s = _
  rw [execGovStep, if_neg (by simp [on])]
  rfl

/-- What a sample above SUSTAINED_W leaves after 8 ms: the clock lowered while it can be, and else the issue limit. -/
theorem exec_govStep_lowers {s : State} {p q : Nat} (on : s.pwr.off = false) (mw : min p 3600000 = q)
    (above : 1000 * s.clk.sustainedW < q) (long : 799 ≤ s.clk.aboveSamples) :
    ∃ t, exec (.govStep p) s = .next t ∧ t.clk.lowered = (lowerStep (canLower s) s.clk).lowered ∧
      t.clk.issueWithheld = (lowerStep (canLower s) s.clk).issueWithheld ∧ t.clk.throttling = true ∧ t.clk.inPower = q ∧
      t.mem = s.mem ∧ t.cores = s.cores := by
  obtain ⟨lowered, withheld⟩ := govCompare_lowers (clock := canLower s) (maxC := s.pwr.tempMax) above long
  refine ⟨_, exec_govStep p on, ?_⟩
  simp only [peakMw, mw, settleGov, modClk_clk, modPwr_clk, modClk_mem, modPwr_mem, modClk_cores, modPwr_cores, lowered, withheld,
    govCompare_inPower, and_self, and_true, true_and]
  cases canLower s <;> simp

/-! ### Heat (R430, R388) -/

@[simp] theorem settleAlert_clk (s : State) : (settleAlert s).clk = s.clk := rfl
@[simp] theorem settleAlert_recov (s : State) : (settleAlert s).recov = s.recov := rfl
@[simp] theorem settleAlert_off (s : State) : (settleAlert s).pwr.off = s.pwr.off := rfl
@[simp] theorem settleAlert_thermal (s : State) : (settleAlert s).pwr.thermal = s.pwr.thermal := rfl

/-- What a heat step leaves. -/
theorem heatStep_spec (s : State) :
    (heatStep s).clk.lowered = (if canLower s then s.clk.lowered + 1 else s.clk.lowered) ∧ (heatStep s).clk.hot = true ∧
      (heatStep s).pwr.thermal = true ∧ (heatStep s).recov = s.recov ∧ (heatStep s).pwr.off = s.pwr.off := by
  refine ⟨?_, rfl, rfl, rfl, rfl⟩
  simp only [heatStep, settleAlert_clk, settleGov, modClk_clk, modPwr_clk, apply_ite Clock.lowered, ite_self]

/-! ### The error log and FATAL (R403, R388) -/

theorem msixRequest_keeps (s : State) (p vec : Nat) (teardown : Bool) :
    (msixRequest s p vec teardown).clk = s.clk ∧ (msixRequest s p vec teardown).mem = s.mem ∧
      (msixRequest s p vec teardown).recov = s.recov := by
  unfold msixRequest
  split <;> exact ⟨rfl, rfl, rfl⟩

theorem writeLog_keeps (s : State) (event : Nat) (u : LogUnit) (part : Nat) (ctx : Option Nat) (detail : Nat) :
    (writeLog s event u part ctx detail).clk = s.clk ∧ (writeLog s event u part ctx detail).mem = s.mem ∧
      (writeLog s event u part ctx detail).recov.fatal = s.recov.fatal := by
  unfold writeLog
  dsimp only
  split
  · obtain ⟨clk, mem, recov⟩ := msixRequest_keeps _ 0 s.recov.logIrqVec false
    exact ⟨clk, mem, (congrArg Rec.fatal recov).trans rfl⟩
  · exact ⟨rfl, rfl, rfl⟩

/-- An event that is logged leaves the clocks and memory alone, and the module out of FATAL or in it. -/
theorem logEvent_keeps (s : State) (event : Nat) (u : LogUnit) (part : Nat) (ctx : Option Nat) (detail : Nat) :
    (logEvent s event u part ctx detail).clk = s.clk ∧ (logEvent s event u part ctx detail).mem = s.mem ∧
      (logEvent s event u part ctx detail).recov.fatal = s.recov.fatal := by
  unfold logEvent
  split
  · split
    · exact ⟨rfl, rfl, rfl⟩
    · exact writeLog_keeps _ _ _ _ _ _
  · exact writeLog_keeps _ _ _ _ _ _

/-- A fold keeps what each of its steps keeps. -/
theorem foldl_keeps {α β σ : Type} {p : σ → β} {f : σ → α → σ} (h : ∀ s a, p (f s a) = p s) (l : List α) (s : σ) :
    p (l.foldl f s) = p s := by
  induction l generalizing s with
  | nil => rfl
  | cons a l ih => exact (ih (f s a)).trans (h s a)

@[simp] theorem stopAll_recov (s : State) : (stopAll s).recov = s.recov :=
  (foldl_keeps (p := State.recov) (f := retireEnergy) (fun _ _ => rfl) _ _).trans
    (foldl_keeps (p := State.recov) (f := fun s (e : Nat × Port) => emit s (.portDown e.1)) (fun _ _ => rfl) _ _)

/-- Whatever runs enters FATAL, and FATAL stays. -/
theorem enterFatal_fatal {s : State} (on : s.pwr.off = false) : (enterFatal s).recov.fatal = true := by
  unfold enterFatal
  dsimp only
  split
  next h => simpa [on] using h
  next =>
    rw [settleAlert_recov, stopAll_recov]
    have logged := fun u => (logEvent_keeps (modRec s fun r => { r with fatal := true }) 0x14 u 0 none 0).2.2
    split <;> exact logged _

theorem exec_thermalSense {s : State} (k : Nat) (on : s.pwr.off = false) (well : s.recov.fatal = false) :
    exec (.thermalSense k) s =
      let u := modPwr s fun p => { p with tempMax := k % 256 }
      if 115 < k then .next (enterFatal (heatStep u))
      else if 100 < k then .next (heatStep u)
      else if k ≤ 95 then .next (modClk u fun c => { c with hot := false })
      else .next u := by
  change execThermalSense k s = _
  simp [execThermalSense, on, well]

theorem exec_thermalSense_cool {s : State} {k : Nat} (on : s.pwr.off = false) (well : s.recov.fatal = false) (cool : k ≤ 95) :
    exec (.thermalSense k) s =
      .next (modClk (modPwr s fun p => { p with tempMax := k % 256 }) fun c => { c with hot := false }) := by
  have notFatal : ¬ 115 < k := by omega
  have notHot : ¬ 100 < k := by omega
  simp only [exec_thermalSense k on well, if_neg notFatal, if_neg notHot, if_pos cool]

/-! ### Oscillators (R22) -/

/-- The clock once an oscillator has failed. -/
def oscFailed (b : Bool) (c : Clock) : Clock := if b then { c with failB := true } else { c with failA := true }

theorem exec_oscFail {s : State} (b : Bool) (on : s.pwr.off = false) :
    exec (.oscFail b) s =
      let u := modClk s (oscFailed b)
      if u.clk.failA && u.clk.failB then .next (enterFatal u)
      else if u.clk.oscB = b then
        .next (logEvent (modClk u fun c => { c with oscB := !b }) 0x13 { cls := 0, kind := 8, unit := b2n b } 0 none 0)
      else .next u := by
  change execOscFail b s = _
  rw [execOscFail, if_neg (by simp [on])]
  rfl

/-- The second oscillator to fail leaves none. -/
theorem oscFailed_both {b : Bool} {c : Clock} (other : (if b then c.failA else c.failB) = true) :
    ((oscFailed b c).failA && (oscFailed b c).failB) = true := by
  cases b <;> simpa [oscFailed] using other

/-! ### PLLs of the compute dies (R27, R28) -/

theorem exec_pllStop_stops {s : State} {k : Nat} (run : running s = true) (act : (getDie s k).state = 2)
    (pll : (getDie s k).pllOn = true) (idle : dieHasWork s k = false)
    (off : 48 * (getDie s k).holdoff ≤ (getDie s k).idleTicks) :
    exec (.pllStop k) s = .next (modDie s k fun d => { d with pllOn := false, starting := false, idleTicks := 0 }) := by
  change execPllStop k s = _
  simp [execPllStop, usTicks, run, act, pll, idle, off]

theorem exec_pllStop_waits {s : State} {k : Nat} (early : (getDie s k).idleTicks < 48 * (getDie s k).holdoff) :
    exec (.pllStop k) s = .next s := by
  change execPllStop k s = _
  have short : ¬ 48 * (getDie s k).holdoff ≤ (getDie s k).idleTicks := by omega
  simp [execPllStop, usTicks, short]

/-- With nothing at its bridge edge, a PLL that was asked for starts, and that is all. -/
theorem exec_pllStable_starts {s : State} {k : Nat} (run : running s = true) (awake : s.pwr.inHold = false)
    (act : (getDie s k).state = 2) (pll : (getDie s k).pllOn = false) (asked : (getDie s k).starting = true)
    (empty : s.clk.edge.filter (edgeOf s (coresOfDie s k)) = []) :
    exec (.pllStable k) s =
      .next (modDie s k fun d => { d with pllOn := true, starting := false, idleTicks := 0, freq := baseFreq s }) := by
  change execPllStable k s = _
  rw [execPllStable, if_pos (by simp [run, awake, act, pll, asked])]
  simp only [empty, List.foldl_nil, List.contains_nil, Bool.not_false, List.filter_true]
  rfl

/-- Settles O26: each sample of the governor by the branch of its comparison, each reading of the sensors by its range, and the
oscillators and PLLs by what their commands leave. -/
theorem governorAndHeat : Obligations.GovernorAndHeat := by
  refine ⟨?_, ?_, ?_, ?_, ?_, ?_, ?_, ?_, ?_, ?_, ?_, ?_, ?_, ?_⟩
  · intro s p q on mw above long can
    obtain ⟨t, run, lowered, -, throttling, power, mem, cores⟩ := exec_govStep_lowers on mw above long
    exact ⟨t, run, by simpa [can] using lowered, throttling, power, mem, cores⟩
  · intro s p q on mw above long cannot
    obtain ⟨t, run, lowered, withheld, throttling, -⟩ := exec_govStep_lowers on mw above long
    exact ⟨t, run, by simpa [cannot] using lowered, by simpa [cannot] using withheld, throttling⟩
  · intro s p q on mw above short
    refine ⟨_, exec_govStep p on, ?_⟩
    simp [settleGov, peakMw, mw, govCompare_counts above short]
  · intro s p q on mw low long held
    refine ⟨_, exec_govStep p on, ?_⟩
    simp [settleGov, peakMw, mw, govCompare_raises low long, raiseStep, held]
  · intro s p q on mw low long noLimit cool sensors
    refine ⟨_, exec_govStep p on, ?_⟩
    simp [settleGov, peakMw, mw, govCompare_raises low long, raiseStep, noLimit, cool, Nat.not_lt.mpr sensors]
  · intro s t p on run
    cases (exec_govStep p on).symm.trans run
    simp [settleGov, peakMw]
  · intro s k on well hot notFatal
    obtain ⟨lowered, isHot, thermal, recov, -⟩ := heatStep_spec (modPwr s fun p => { p with tempMax := k % 256 })
    refine ⟨_, (exec_thermalSense k on well).trans ?_, lowered, isHot, thermal, by rw [recov]; exact well⟩
    simp [hot, notFatal]
  · intro s k on well hot
    obtain ⟨-, -, -, -, off⟩ := heatStep_spec (modPwr s fun p => { p with tempMax := k % 256 })
    refine ⟨_, (exec_thermalSense k on well).trans ?_, enterFatal_fatal (off.trans on)⟩
    simp [hot]
  · intro s k on well cool
    refine ⟨_, exec_thermalSense_cool on well cool, rfl, rfl, Nat.mod_eq_of_lt (by omega)⟩
  · intro s on fromA bWell
    obtain ⟨clk, mem, -⟩ := logEvent_keeps (modClk (modClk s (oscFailed false)) fun c => { c with oscB := true }) 0x13
      { cls := 0, kind := 8, unit := b2n false } 0 none 0
    refine ⟨_, (exec_oscFail false on).trans ?_, by rw [clk]; rfl, by rw [clk]; rfl, by rw [clk]; rfl, mem⟩
    simp [oscFailed, fromA, bWell]
  · intro s b on other
    refine ⟨_, (exec_oscFail b on).trans (if_pos (oscFailed_both other)), enterFatal_fatal on⟩
  · intro s k run act pll idle off
    exact ⟨_, exec_pllStop_stops run act pll idle off, by simp, rfl, rfl⟩
  · exact fun s k early => exec_pllStop_waits early
  · intro s k run awake act pll asked empty
    exact ⟨_, exec_pllStable_starts run awake act pll asked empty, by simp, by simp, rfl, rfl⟩

end Machine
end Sys2Proof
end

section
/-! The proof of the statement about the idle step, first part: what the work of the units and firmware's turns leaves alone. -/

namespace Sys2Proof
namespace Machine

/-! ### The steady part of a state -/

/-- What the work of units and of firmware leaves alone: the queue of commands, the local tick (R23), the settings that
`State.Legal` bounds, and whether the module runs, in which service and under which protected settings. -/
structure Steady where
  pending : List Instr
  tick : Nat
  sustainedW : Nat
  lateT2 : Nat
  lateT3 : Nat
  lateT4 : Nat
  hintGroups : Nat
  quantumUs : Nat
  napAfterUs : Nat
  replayMax : Nat → Nat
  maxActive : Nat → Nat
  off : Bool
  service : Nat
  fatal : Bool
  sec : Sec

/-- The steady part of a state. Each operation below has a lemma that it keeps it. -/
def steady (s : State) : Steady where
  pending := s.pending
  tick := s.clk.tick
  sustainedW := s.clk.sustainedW
  lateT2 := s.mem.lateT2
  lateT3 := s.mem.lateT3
  lateT4 := s.mem.lateT4
  hintGroups := s.mem.hintGroups
  quantumUs := s.quantumUs
  napAfterUs := s.pwr.napAfterUs
  replayMax p := (getPort s p).replayMax
  maxActive p := (getPart s p).rqMaxActive
  off := s.pwr.off
  service := s.pwr.service
  fatal := s.recov.fatal
  sec := s.sec

/-- Every bound of `State.Legal` is on the steady part. -/
theorem legal_of_steady_eq {s t : State} (h : steady t = steady s) (legal : s.Legal) : t.Legal := by
  injection h with _ _ cap t2 t3 t4 groups quantum nap replay active
  have sums : maxActiveSum t = maxActiveSum s := by simp only [maxActiveSum, congrFun active]
  exact {
    cap := cap ▸ legal.cap
    late := ⟨t2 ▸ legal.late.1, t3 ▸ legal.late.2.1, t4 ▸ legal.late.2.2⟩
    groups := groups ▸ legal.groups
    quantum := quantum ▸ legal.quantum
    nap := nap ▸ legal.nap
    replay := fun p => congrFun replay p ▸ legal.replay p
    reserved := sums ▸ legal.reserved }

/-- A fold keeps the steady part when each of its steps does. -/
@[simp] theorem steady_foldl {α : Type} {f : State → α → State} (l : List α) (s : State) (h : ∀ s a, steady (f s a) = steady s) :
    steady (l.foldl f s) = steady s := foldl_keeps h l s

/-! ### Updates of one field -/

/-- New values in fields that the steady part does not read. -/
@[simp] theorem steady_mk (s : State) (fresh serial : Nat) (out : List Out) (cores : Tbl Core) (ctxs : Tbl Ctx) (scheds : Tbl Sched)
    (nextSched quantumAt preemptions : Nat) (hub : Hub) (upd : Upd) (peers : Peers) (rollout : Rollout) (models : Tbl Model)
    (modelGens : Tbl Nat) (host : HostSide) :
    steady { s with
      fresh := fresh, serial := serial, out := out, cores := cores, ctxs := ctxs, scheds := scheds, nextSched := nextSched
      quantumAt := quantumAt, preemptions := preemptions, hub := hub, upd := upd, peers := peers, rollout := rollout
      models := models, modelGens := modelGens, host := host } = steady s := (rfl)

/-! Their proofs are `(rfl)`, in brackets, so that `simp` rewrites with them and does not see them as true by unfolding: only so
do they discharge the hypothesis of `steady_foldl`. -/

@[simp] theorem steady_emit (s : State) (o : Out) : steady (emit s o) = steady s := (rfl)
@[simp] theorem steady_bump (s : State) : steady (bump s) = steady s := (rfl)
@[simp] theorem steady_setCore (s : State) (c : Nat) (x : Core) : steady (setCore s c x) = steady s := (rfl)
@[simp] theorem steady_modCore (s : State) (c : Nat) (f : Core → Core) : steady (modCore s c f) = steady s := (rfl)
@[simp] theorem steady_setCtx (s : State) (n : Nat) (x : Ctx) : steady (setCtx s n x) = steady s := (rfl)
@[simp] theorem steady_modCtx (s : State) (n : Nat) (f : Ctx → Ctx) : steady (modCtx s n f) = steady s := (rfl)
@[simp] theorem steady_modHub (s : State) (f : Hub → Hub) : steady (modHub s f) = steady s := (rfl)
@[simp] theorem steady_modUpd (s : State) (f : Upd → Upd) : steady (modUpd s f) = steady s := (rfl)
@[simp] theorem steady_modPeers (s : State) (f : Peers → Peers) : steady (modPeers s f) = steady s := (rfl)
@[simp] theorem steady_modRo (s : State) (f : Rollout → Rollout) : steady (modRo s f) = steady s := (rfl)
@[simp] theorem steady_modHost (s : State) (f : HostSide → HostSide) : steady (modHost s f) = steady s := (rfl)
@[simp] theorem steady_modDie (s : State) (k : Nat) (f : DieClk → DieClk) : steady (modDie s k f) = steady s := (rfl)

/-! ### Updates that could reach a setting -/

@[simp] theorem steady_modClk {s : State} {f : Clock → Clock} (tick : (f s.clk).tick = s.clk.tick)
    (cap : (f s.clk).sustainedW = s.clk.sustainedW) : steady (modClk s f) = steady s := by
  simp only [steady, modClk, tick, cap]; rfl

@[simp] theorem steady_modMem {s : State} {f : Mem → Mem} (t2 : (f s.mem).lateT2 = s.mem.lateT2) (t3 : (f s.mem).lateT3 = s.mem.lateT3)
    (t4 : (f s.mem).lateT4 = s.mem.lateT4) (groups : (f s.mem).hintGroups = s.mem.hintGroups) :
    steady (modMem s f) = steady s := by
  simp only [steady, modMem, t2, t3, t4, groups]; rfl

@[simp] theorem steady_modRec {s : State} {f : Rec → Rec} (fatal : (f s.recov).fatal = s.recov.fatal) : steady (modRec s f) = steady s := by
  simp only [steady, modRec, fatal]; rfl

@[simp] theorem steady_modPwr {s : State} {f : Power → Power} (off : (f s.pwr).off = s.pwr.off) (service : (f s.pwr).service = s.pwr.service)
    (nap : (f s.pwr).napAfterUs = s.pwr.napAfterUs) : steady (modPwr s f) = steady s := by
  simp only [steady, modPwr, off, service, nap]; rfl

/-- A table in which one entry is set reads alike where the new entry does. -/
theorem tget_tput_keeps {α β : Type} (g : α → β) {d : α} {t : Tbl α} {k : Nat} {v : α} (h : g v = g (tget d t k)) (j : Nat) :
    g (tget d (tput t k v) j) = g (tget d t j) := by
  rw [tget_tput]
  split
  next e => exact e ▸ h
  next => rfl

@[simp] theorem steady_setPort {s : State} {k : Nat} {x : Port} (h : x.replayMax = (getPort s k).replayMax) :
    steady (setPort s k x) = steady s := by
  have replay : (fun p => (getPort (setPort s k x) p).replayMax) = fun p => (getPort s p).replayMax :=
    funext (tget_tput_keeps Port.replayMax h)
  simp only [steady, replay]; rfl

@[simp] theorem steady_setPart {s : State} {k : Nat} {x : Part} (h : x.rqMaxActive = (getPart s k).rqMaxActive) :
    steady (setPart s k x) = steady s := by
  have active : (fun p => (getPart (setPart s k x) p).rqMaxActive) = fun p => (getPart s p).rqMaxActive :=
    funext (tget_tput_keeps Part.rqMaxActive h)
  simp only [steady, active]; rfl

@[simp] theorem steady_modPort {s : State} {k : Nat} {f : Port → Port} (h : (f (getPort s k)).replayMax = (getPort s k).replayMax) :
    steady (modPort s k f) = steady s := steady_setPort h

@[simp] theorem steady_modPart {s : State} {k : Nat} {f : Part → Part} (h : (f (getPart s k)).rqMaxActive = (getPart s k).rqMaxActive) :
    steady (modPart s k f) = steady s := steady_setPart h

/-! ### Named operations: reads and writes of memory, the log, journals, firmware at HOST scope (Machine/Ops.lean) -/

@[simp] theorem steady_snoopLines (s : State) (p : Nat → Bool) : steady (snoopLines s p) = steady s :=
  steady_foldl (f := fun s l => emit s (.biSnoop l)) _ s fun _ _ => rfl

@[simp] theorem steady_invalidateGrain (s : State) (pa : Nat) :
    steady (invalidateGrain s pa) = steady s := by simp [invalidateGrain]

@[simp] theorem steady_storeGrain (s : State) (pa : Nat) (data : List Byte) (tag : GrainTag) :
    steady (storeGrain s pa data tag) = steady s := (rfl)

@[simp] theorem steady_putGrain (s : State) (pa : Nat) (data : List Byte) (tag : GrainTag) :
    steady (putGrain s pa data tag) = steady s := by simp [putGrain]

@[simp] theorem steady_countFailed (s : State) : steady (countFailed s) = steady s := (rfl)

@[simp] theorem steady_putServed (s : State) (pa : Nat) (data : List Byte) (tag : GrainTag) :
    steady (putServed s pa data tag) = steady s := by
  unfold putServed
  split <;> simp

@[simp] theorem steady_writeGrain (s : State) (pa : Nat) (data : List Byte) (tag : GrainTag) :
    steady (writeGrain s pa data tag) = steady s := by
  unfold writeGrain
  split <;> simp

@[simp] theorem steady_mergeAs (s : State) (pa off : Nat) (bs : List Byte) (t : GrainTag) :
    steady (mergeAs s pa off bs t) = steady s := by
  unfold mergeAs
  dsimp only
  split <;> simp

@[simp] theorem steady_mergeGrain (s : State) (pa off : Nat) (bs : List Byte) (poison : Bool) :
    steady (mergeGrain s pa off bs poison) = steady s := by simp [mergeGrain]

@[simp] theorem steady_remoteGrain (s : State) : steady (remoteGrain s).2 = steady s := (rfl)
@[simp] theorem steady_freeWord (s : State) : steady (freeWord s).2 = steady s := (rfl)

@[simp] theorem steady_readHost (s : State) (pa : Nat) : steady (readHost s pa).2.2 = steady s := by
  unfold readHost
  dsimp only
  split <;> simp

@[simp] theorem steady_fwGrain (s : State) (a : Nat) : steady (fwGrain s a).2.2 = steady s := by
  unfold fwGrain
  dsimp only
  repeat' split
  all_goals simp

@[simp] theorem steady_fwFetch (s : State) (pa n : Nat) : steady (fwFetch s pa n).2.2 = steady s :=
  foldl_keeps (p := fun r : List Byte × Bool × State => steady r.2.2)
    (f := fun r i => (r.1 ++ (fwGrain r.2.2 ((pa / 256 + i) * 256)).1, r.2.1 || (fwGrain r.2.2 ((pa / 256 + i) * 256)).2.1,
      (fwGrain r.2.2 ((pa / 256 + i) * 256)).2.2))
    (fun _ _ => steady_fwGrain _ _) _ _

@[simp] theorem steady_fwWriteTags (fuel : Nat) (s : State) (pa : Nat) (bs : List Byte) :
    steady (fwWriteTags s pa bs fuel) = steady s := by
  induction fuel generalizing s pa bs with
  | zero => rfl
  | succ fuel ih =>
    cases bs with
    | nil => rfl
    | cons b bs => exact (ih _ _ _).trans (steady_mergeGrain _ _ _ _ _)

@[simp] theorem steady_emitHostWrite (s : State) (req pa : Nat) (bs : List Byte) (poison : Bool) :
    steady (emitHostWrite s req pa bs poison) = steady s := by
  unfold emitHostWrite
  dsimp only
  split <;> simp

@[simp] theorem steady_fwWrite (s : State) (pa : Nat) (bs : List Byte) : steady (fwWrite s pa bs) = steady s := by
  unfold fwWrite
  split
  · exact (steady_emitHostWrite _ _ _ _ _).trans rfl
  · exact steady_fwWriteTags _ _ _ _

@[simp] theorem steady_msixRequest (s : State) (p vec : Nat) (teardown : Bool) :
    steady (msixRequest s p vec teardown) = steady s := by
  unfold msixRequest
  dsimp only
  split <;> simp

@[simp] theorem steady_setJournal (s : State) (cc : Nat) (l : List JournalEntry) :
    steady (setJournal s cc l) = steady s := (rfl)

@[simp] theorem steady_journal (s : State) (cc what subject : Nat) (complete : Bool) :
    steady (journal s cc what subject complete) = steady s := (rfl)

@[simp] theorem steady_listEffects (s : State) (cc : Nat) (acts : List FwAct) : steady (listEffects s cc acts) = steady s := by
  unfold listEffects
  dsimp only
  repeat' split
  all_goals simp

@[simp] theorem steady_markEffect (s : State) (cc num : Nat) : steady (markEffect s cc num) = steady s := (rfl)

@[simp] theorem steady_advanceRing (s : State) (p : Nat) : steady (advanceRing s p) = steady s := by
  unfold advanceRing
  dsimp only
  split <;> simp

@[simp] theorem steady_runActs (cc num : Nat) (acts : List FwAct) (s : State) : steady (runActs cc num acts s).1 = steady s := by
  induction acts generalizing s with
  | nil => rfl
  | cons a acts ih =>
    cases a with
    | write pa bs =>
      unfold runActs
      dsimp only
      split
      · exact (ih _).trans (by simp)
      · simp
    | head p => exact (ih _).trans (by simp)
    | msix p v => exact (ih _).trans (by simp)

theorem steady_of_runActs {cc num : Nat} {acts : List FwAct} {s t : State} {w : Option FwWait}
    (h : runActs cc num acts s = (t, w)) : steady t = steady s := by
  rw [← steady_runActs cc num acts s, h]

@[simp] theorem steady_fwDo (s : State) (cc : Nat) (acts : List FwAct) : steady (fwDo s cc acts) = steady s := by
  unfold fwDo
  dsimp only
  split
  · exact steady_listEffects s cc acts
  · split
    next ran => exact (steady_of_runActs ran).trans (steady_listEffects s cc acts)
    next ran => exact (steady_of_runActs ran).trans (steady_listEffects s cc acts)

@[simp] theorem steady_goOnBi (fuel : Nat) (s : State) : steady (goOnBi fuel s) = steady s := by
  induction fuel generalizing s with
  | zero => rfl
  | succ fuel ih =>
    unfold goOnBi
    split
    · rfl
    · split
      · rfl
      · split
        all_goals
          rename_i ran
          have went := steady_of_runActs ran
          exact (ih _).trans went

@[simp] theorem steady_firmwareGoesOn (s : State) : steady (firmwareGoesOn s) = steady s := by simp [firmwareGoesOn]

@[simp] theorem steady_writeLog (s : State) (event : Nat) (u : LogUnit) (part : Nat) (ctx : Option Nat) (detail : Nat) :
    steady (writeLog s event u part ctx detail) = steady s := by
  unfold writeLog
  dsimp only
  split
  · exact (steady_msixRequest _ _ _ _).trans rfl
  · rfl

@[simp] theorem steady_logEvent (s : State) (event : Nat) (u : LogUnit) (part : Nat) (ctx : Option Nat) (detail : Nat) :
    steady (logEvent s event u part ctx detail) = steady s := by
  unfold logEvent
  repeat' split
  all_goals simp

@[simp] theorem steady_checkFailed (s : State) (pa : Nat) : steady (checkFailed s pa) = steady s := by simp [checkFailed]

@[simp] theorem steady_egressTag (s : State) (pa : Nat) (data : List Byte) (tag : GrainTag) :
    steady (egressTag s pa data tag).2 = steady s := by
  unfold egressTag
  split <;> simp

@[simp] theorem steady_modAcct (s : State) (n : Nat) (f : Acct → Acct) : steady (modAcct s n f) = steady s := (rfl)
@[simp] theorem steady_chargeTier (s : State) (n t bytes : Nat) : steady (chargeTier s n t bytes) = steady s := (rfl)
@[simp] theorem steady_chargeLink (s : State) (n cls flits : Nat) : steady (chargeLink s n cls flits) = steady s := (rfl)

/-! ### Parking, waking, the bridge edge, completion groups (Machine/CoreOps.lean) -/

@[simp] theorem steady_modDieOf (s : State) (c : Nat) (f : DieClk → DieClk) : steady (modDieOf s c f) = steady s := by
  unfold modDieOf
  split <;> simp

@[simp] theorem steady_dieWorked (s : State) (c : Nat) : steady (dieWorked s c) = steady s := by simp [dieWorked]
@[simp] theorem steady_touchCore (s : State) (c : Nat) : steady (touchCore s c) = steady s := by simp [touchCore]
@[simp] theorem steady_wakeCore (s : State) (c : Nat) (p : Nat → Park → Bool) : steady (wakeCore s c p) = steady s := (rfl)

@[simp] theorem steady_wakeCoreWith (s : State) (c val : Nat) (p : Park → Bool) :
    steady (wakeCoreWith s c val p) = steady s := (rfl)

@[simp] theorem steady_wakeCtl (s : State) (n : Nat) (p : Park → Bool) : steady (wakeCtl s n p) = steady s := (rfl)

@[simp] theorem steady_wakeAgent (s : State) (a : Agent) (woken : Option Nat) :
    steady (wakeAgent s a woken) = steady s := by
  unfold wakeAgent
  dsimp only
  split <;> simp

@[simp] theorem steady_onControls (s : State) (cc : Nat) (f : Thread → Thread) : steady (onControls s cc f) = steady s := (rfl)

@[simp] theorem steady_issueCg (s : State) (a : Agent) (g n : Nat) : steady (issueCg s a g n) = steady s := by
  unfold issueCg
  dsimp only
  split <;> simp

@[simp] theorem steady_startPll (s : State) (c : Nat) : steady (startPll s c) = steady s := by
  unfold startPll
  split <;> simp

@[simp] theorem steady_holdAtEdge (s : State) (c : Nat) (it : EdgeItem) : steady (holdAtEdge s c it) = steady s := by
  unfold holdAtEdge
  dsimp only
  repeat' split
  all_goals simp

@[simp] theorem steady_groupDone (s : State) (a : Agent) (g code : Nat) :
    steady (groupDone s a g code) = steady s := by
  unfold groupDone
  dsimp only
  repeat' split
  all_goals simp

@[simp] theorem steady_doneCg (s : State) (a : Agent) (g code : Nat) : steady (doneCg s a g code) = steady s := by
  unfold doneCg
  repeat' split
  all_goals simp

@[simp] theorem steady_noteCg (s : State) (a : Agent) (g code : Nat) : steady (noteCg s a g code) = steady s := by
  unfold noteCg
  dsimp only
  split <;> simp

@[simp] theorem steady_peerOutCg (s : State) (a : Agent) (g : Nat) (up : Bool) :
    steady (peerOutCg s a g up) = steady s := by
  unfold peerOutCg
  dsimp only
  split <;> simp

@[simp] theorem steady_mergeRun (fuel : Nat) (s : State) (pa : Nat) (bs : List Byte) (poison : Bool) :
    steady (mergeRun s pa bs poison fuel) = steady s := by
  induction fuel generalizing s pa bs with
  | zero => rfl
  | succ fuel ih =>
    cases bs with
    | nil => rfl
    | cons b bs => exact (ih _ _ _).trans (steady_mergeGrain _ _ _ _ _)

/-! ### Latches and open reductions (Machine/Flags.lean) -/

@[simp] theorem steady_setLatch (s : State) (n step : Nat) : steady (setLatch s n step) = steady s := (rfl)

@[simp] theorem steady_clearLatch (s : State) (n step : Nat) : steady (clearLatch s n step) = steady s := by
  unfold clearLatch
  dsimp only
  split <;> simp

@[simp] theorem steady_modReductions (s : State) (n id : Nat) (up : Bool) : steady (modReductions s n id up) = steady s := (rfl)

/-! ### What leaves over the peer links (Machine/LinkOps.lean) -/

@[simp] theorem steady_qconfigLeft (s : State) (o : Out) : steady (qconfigLeft s o) = steady s := by
  unfold qconfigLeft
  split <;> simp

@[simp] theorem steady_sendGroups (s : State) (k : Nat) (lseqs : List Nat) :
    steady (sendGroups s k lseqs) = steady s := by simp [sendGroups]

@[simp] theorem steady_sendOne (s : State) (k cls : Nat) (round : Tbl Nat) :
    steady (sendOne s k cls round) = steady s := by
  unfold sendOne
  dsimp only
  split <;> simp

@[simp] theorem steady_pumpPort (k fuel : Nat) (s : State) : steady (pumpPort k fuel s) = steady s := by
  induction fuel generalizing s with
  | zero => rfl
  | succ fuel ih =>
    unfold pumpPort
    dsimp only
    split
    · rfl
    · split
      · rfl
      · exact (ih _).trans (steady_sendOne _ _ _ _)

@[simp] theorem steady_drainPort (s : State) (k : Nat) : steady (drainPort s k) = steady s := by
  unfold drainPort
  dsimp only
  split <;> simp

@[simp] theorem steady_linkPut (s : State) (q : Sent) : steady (linkPut s q) = steady s := by
  unfold linkPut
  dsimp only
  repeat' split
  all_goals simp

@[simp] theorem steady_linkSend (s : State) (dst cls : Nat) (eseq : Option Nat) (o : Out) :
    steady (linkSend s dst cls eseq o) = steady s := by simp [linkSend]

@[simp] theorem steady_sendBulk (s : State) (dst : Nat) (o : Out) : steady (sendBulk s dst o) = steady s := by simp [sendBulk]

/-! ### Ends of queues (Machine/QueueOps.lean) -/

@[simp] theorem steady_nextEseq (s : State) (dst cls : Nat) : steady (nextEseq s dst cls).2 = steady s := (rfl)
@[simp] theorem steady_sendCtl (s : State) (dst : Nat) (o : Out) : steady (sendCtl s dst o) = steady s := by simp [sendCtl]

@[simp] theorem steady_sendQconfig (s : State) (c ep : Nat) (answer : Bool) :
    steady (sendQconfig s c ep answer) = steady s := by simp [sendQconfig]

@[simp] theorem steady_sendQclose (s : State) (c ep : Nat) : steady (sendQclose s c ep) = steady s := by simp [sendQclose]

@[simp] theorem steady_dstNotice (s : State) (c ep : Nat) (p : Packet) : steady (dstNotice s c ep p) = steady s := by
  unfold dstNotice
  dsimp only
  split <;> simp

@[simp] theorem steady_putSaved (cfg : Word) (n c : Nat) (s : State) (pos : Nat) (l : List QWord) :
    steady (putSaved cfg n c s pos l) = steady s := by
  induction l generalizing s pos with
  | nil => rfl
  | cons q l ih => exact (ih _ _).trans (steady_mergeRun _ _ _ _ _)

@[simp] theorem steady_putArrived (s : State) (c : Nat) (e : Endpoint) : steady (putArrived s c e) = steady s := by
  unfold putArrived
  split <;> simp

@[simp] theorem steady_giveNotice (s : State) (c ep : Nat) (truncated : Bool) :
    steady (giveNotice s c ep truncated) = steady s := by simp [giveNotice]

@[simp] theorem steady_openEndAt (s : State) (c ep : Nat) (far : Word) (mate : Option Nat) :
    steady (openEndAt s c ep far mate) = steady s := by simp [openEndAt]

@[simp] theorem steady_answerConfig (s : State) (c ep : Nat) (h : HeldCfg) : steady (answerConfig s c ep h) = steady s := by
  unfold answerConfig
  dsimp only
  repeat' split
  all_goals simp

@[simp] theorem steady_answerDue (s : State) (c ep : Nat) : steady (answerDue s c ep) = steady s := by
  unfold answerDue
  dsimp only
  repeat' split
  all_goals simp

@[simp] theorem steady_finishClose (s : State) (c ep : Nat) : steady (finishClose s c ep) = steady s := by
  unfold finishClose
  dsimp only
  repeat' split
  all_goals simp

@[simp] theorem steady_farClosed (s : State) (c ep words : Nat) : steady (farClosed s c ep words) = steady s := by
  unfold farClosed
  dsimp only
  repeat' split
  all_goals simp

@[simp] theorem steady_rejectQcfg (s : State) (c ep n : Nat) : steady (rejectQcfg s c ep n) = steady s := (rfl)

@[simp] theorem steady_closePeerEnd (s : State) (c ep : Nat) : steady (closePeerEnd s c ep) = steady s := by
  unfold closePeerEnd
  split <;> simp

@[simp] theorem steady_closePeerQueues (s : State) (peer : Nat) :
    steady (closePeerQueues s peer) = steady s := by simp [closePeerQueues, apply_ite steady]

/-! ### Engines of the hubs (Machine/HubOps.lean) -/

@[simp] theorem steady_readPeer (s : State) (pa : Nat) : steady (readPeer s pa).2.2 = steady s := by
  unfold readPeer
  dsimp only
  split <;> simp

@[simp] theorem steady_readGrain (s : State) (pa : Nat) : steady (readGrain s pa).2.2 = steady s := by
  unfold readGrain
  dsimp only
  repeat' split
  all_goals simp

@[simp] theorem steady_writeGrainAt (s : State) (pa : Nat) (data : List Byte) (tag : GrainTag) :
    steady (writeGrainAt s pa data tag) = steady s := by
  unfold writeGrainAt
  dsimp only
  repeat' split
  all_goals simp

@[simp] theorem steady_checkHome (s : State) (pa off len : Nat) : steady (checkHome s pa off len) = steady s := by
  unfold checkHome
  split <;> simp

@[simp] theorem steady_performWrite (s : State) (r : MReq) : steady (performWrite s r) = steady s := by
  unfold performWrite
  dsimp only
  repeat' split
  all_goals simp

@[simp] theorem steady_setMReq (s : State) (id : Nat) (r : MReq) : steady (setMReq s id r) = steady s := (rfl)

@[simp] theorem steady_sendToPeer (s : State) (id : Nat) (r : MReq) : steady (sendToPeer s id r) = steady s := by
  unfold sendToPeer
  dsimp only
  split <;> simp

@[simp] theorem steady_sendToHost (s : State) (id : Nat) (r : MReq) : steady (sendToHost s id r) = steady s := by
  unfold sendToHost
  dsimp only
  split <;> simp

@[simp] theorem steady_engineRead (s : State) (n va : Nat) : steady (engineRead s n va).2.2 = steady s := by
  unfold engineRead
  split <;> simp

@[simp] theorem steady_engineWrite (s : State) (n va : Nat) (data : List Byte) (tag : GrainTag) :
    steady (engineWrite s n va data tag) = steady s := by
  unfold engineWrite
  dsimp only
  repeat' split
  all_goals simp

@[simp] theorem steady_groupReq (s : State) (ref : CgRef) (r : MReq) : steady (groupReq s ref r).2 = steady s :=
  (steady_modMem (s := bump (issueCg s ref.agent ref.cg 1)) rfl rfl rfl rfl).trans (steady_issueCg s ref.agent ref.cg 1)

@[simp] theorem steady_settleWrites (s : State) (ref : CgRef) (n : Nat) :
    steady (settleWrites s ref n) = steady s := by simp [settleWrites]

@[simp] theorem steady_groupEnds (s : State) (ref : CgRef) (n code : Nat) :
    steady (groupEnds s ref n code) = steady s := by simp [groupEnds]

@[simp] theorem steady_groupWrite (s : State) (ref : CgRef) (n va : Nat) (data : List Byte) (tag : GrainTag) :
    steady (groupWrite s ref n va data tag) = steady s := by
  unfold groupWrite
  dsimp only
  repeat' split
  all_goals simp

@[simp] theorem steady_engineReads (s : State) (n : Nat) (vas : List Nat) : steady (engineReads s n vas).2 = steady s := by
  induction vas generalizing s with
  | nil => rfl
  | cons va vas ih => exact (ih _).trans (steady_engineRead _ _ _)

@[simp] theorem steady_enginePoison (s : State) (ref : CgRef) (n va : Nat) : steady (enginePoison s ref n va) = steady s := by
  unfold enginePoison
  dsimp only
  repeat' split
  all_goals simp

@[simp] theorem steady_raiseAttempt (s : State) (group : Nat) : steady (raiseAttempt s group) = steady s := (rfl)

@[simp] theorem steady_castCtl (s : State) (n mask : Nat) (o : Nat → Out) :
    steady (castCtl s n mask o) = steady s := by simp [castCtl]

@[simp] theorem steady_sendAbort (s : State) (n mask attempt step : Nat) :
    steady (sendAbort s n mask attempt step) = steady s := by simp [sendAbort]

/-! ### Requests and models as they are stored (Machine/RolloutOps.lean) -/

@[simp] theorem steady_setModel (s : State) (ix : Nat) (m : Model) : steady (setModel s ix m) = steady s := (rfl)

@[simp] theorem steady_modModel (s : State) (ix : Nat) (f : Model → Model) : steady (modModel s ix f) = steady s := by
  unfold modModel
  split <;> simp

@[simp] theorem steady_syncModel (s : State) (ix : Nat) : steady (syncModel s ix) = steady s := by
  unfold syncModel
  dsimp only
  repeat' split
  all_goals simp

@[simp] theorem steady_mapPool (s : State) (ix n : Nat) : steady (mapPool s ix n) = steady s := by
  unfold mapPool
  split <;> simp

@[simp] theorem steady_attachOne (s : State) (ix n : Nat) (serve write : Bool) :
    steady (attachOne s ix n serve write) = steady s := by
  unfold attachOne
  dsimp only
  split <;> simp

@[simp] theorem steady_detachOne (s : State) (ix n : Nat) : steady (detachOne s ix n) = steady s := by
  unfold detachOne
  dsimp only
  split <;> simp

@[simp] theorem steady_setReq (s : State) (id : Nat) (r : Request) : steady (setReq s id r) = steady s := (rfl)

@[simp] theorem steady_modReq (s : State) (id : Nat) (f : Request → Request) : steady (modReq s id f) = steady s := by
  unfold modReq
  split <;> simp

@[simp] theorem steady_syncReq (s : State) (id : Nat) : steady (syncReq s id) = steady s := by
  unfold syncReq
  dsimp only
  repeat' split
  all_goals simp

@[simp] theorem steady_rereadRing (s : State) (id : Nat) : steady (rereadRing s id) = steady s := by
  unfold rereadRing
  dsimp only
  repeat' split
  all_goals simp

@[simp] theorem steady_putEntry (s : State) (id : Nat) (bs : List Byte) : steady (putEntry s id bs) = steady s := by
  unfold putEntry
  dsimp only
  split <;> simp

@[simp] theorem steady_publishToken (s : State) (id : Nat) (d : Draft) (pos : Nat) :
    steady (publishToken s id d pos) = steady s := by
  unfold publishToken
  dsimp only
  repeat' split
  all_goals simp

@[simp] theorem steady_writeHeaders (s : State) (m : Model) (p : PageSet) :
    steady (writeHeaders s m p) = steady s := by simp [writeHeaders]

@[simp] theorem steady_refSet (s : State) (id : Nat) (up : Bool) : steady (refSet s id up) = steady s := by
  unfold refSet
  dsimp only
  repeat' split
  all_goals simp

@[simp] theorem steady_refSets (s : State) (ids : List Nat) (up : Bool) :
    steady (refSets s ids up) = steady s := by simp [refSets]

@[simp] theorem steady_releaseSets (s : State) (id : Nat) : steady (releaseSets s id) = steady s := by
  unfold releaseSets
  split <;> simp

@[simp] theorem steady_endRequest (s : State) (id code : Nat) : steady (endRequest s id code) = steady s := by
  unfold endRequest
  dsimp only
  repeat' split
  all_goals simp

@[simp] theorem steady_evictReq (s : State) (id : Nat) (self : Bool) : steady (evictReq s id self) = steady s := by
  unfold evictReq
  dsimp only
  split <;> simp

@[simp] theorem steady_moveRequest (s : State) (id : Nat) : steady (moveRequest s id) = steady s := by
  unfold moveRequest
  dsimp only
  repeat' split
  all_goals simp

@[simp] theorem steady_afterBinding (s : State) (id : Nat) : steady (afterBinding s id) = steady s := by
  unfold afterBinding
  repeat' split
  all_goals simp

@[simp] theorem steady_publishHeld (s : State) (id : Nat) : steady (publishHeld s id) = steady s := by
  unfold publishHeld
  dsimp only
  repeat' split
  all_goals simp

@[simp] theorem steady_releaseHandle (s : State) (ix : Nat) : steady (releaseHandle s ix) = steady s := by
  unfold releaseHandle
  split <;> simp

@[simp] theorem steady_releaseHandles (s : State) (p : Handle → Bool) :
    steady (releaseHandles s p) = steady s := by simp [releaseHandles]

@[simp] theorem steady_endOneModel (s : State) (ix code : Nat) : steady (endOneModel s ix code) = steady s := by
  unfold endOneModel
  dsimp only
  split <;> simp

@[simp] theorem steady_endModel (s : State) (ix code : Nat) : steady (endModel s ix code) = steady s := by
  unfold endModel
  dsimp only
  repeat' split
  all_goals simp

/-! ### Requests (Machine/Rollout.lean) -/

@[simp] theorem steady_refuseRequest (s : State) (r : Request) (ringOk : Bool) (code : Nat) :
    steady (refuseRequest s r ringOk code) = steady s := by
  unfold refuseRequest
  dsimp only
  repeat' split
  all_goals simp

@[simp] theorem steady_acceptRequest (s : State) (r : Request) : steady (acceptRequest s r) = steady s := by
  unfold acceptRequest
  dsimp only
  repeat' split
  all_goals simp

@[simp] theorem steady_submitEffect (s : State) (part slot : Nat) : steady (submitEffect s part slot) = steady s := by
  unfold submitEffect
  dsimp only
  repeat' split
  all_goals simp

@[simp] theorem steady_cancelRequest (s : State) (id : Nat) : steady (cancelRequest s id) = steady s := by
  unfold cancelRequest
  dsimp only
  repeat' split
  all_goals simp

theorem steady_slotDoorbell {f : State → Nat → State} (h : ∀ s id, steady (f s id) = steady s) (s : State) (part slot : Nat) :
    steady (slotDoorbell s part slot f) = steady s := by
  unfold slotDoorbell
  split
  · simp
  · split
    · rfl
    · exact (h _ _).trans (by simp)

@[simp] theorem steady_pfxReleaseEffect (s : State) (part : Nat) (handle : Word) :
    steady (pfxReleaseEffect s part handle) = steady s := by
  unfold pfxReleaseEffect
  split <;> simp

/-! ### Models (Machine/Models.lean) -/

@[simp] theorem steady_badModelDoorbell (s : State) (part : Nat) :
    steady (badModelDoorbell s part) = steady s := by simp [badModelDoorbell]

@[simp] theorem steady_modelRecord (s : State) (part slot : Nat) :
    steady (modelRecord s part slot).2.2 = steady s := by simp [modelRecord]

@[simp] theorem steady_readImage (s : State) (part src : Nat) : steady (readImage s part src).2 = steady s := by
  unfold readImage
  dsimp only
  repeat' split
  all_goals simp

@[simp] theorem steady_recordImage (s : State) (part : Nat) (w : Nat → Word) (bad : Bool) (src : Nat) :
    steady (recordImage s part w bad src).2 = steady s := by
  unfold recordImage
  split <;> simp

theorem steady_of_recordImage {s t : State} {part src : Nat} {w : Nat → Word} {bad : Bool} {r : Option (List Layer)}
    (h : recordImage s part w bad src = (r, t)) : steady t = steady s := by
  rw [← steady_recordImage s part w bad src, h]

@[simp] theorem steady_allocEvict (s : State) (ix : Nat) (m : Model) (fuel : Nat) : steady (allocEvict s ix m fuel).1 = steady s := by
  induction fuel generalizing s with
  | zero => rfl
  | succ fuel ih =>
    unfold allocEvict
    split
    · rfl
    · split
      · rfl
      · exact (ih _).trans (by simp)

@[simp] theorem steady_refuseModel (s : State) (ix : Nat) (m : Model) (code : Nat) :
    steady (refuseModel s ix m code) = steady s := by simp [refuseModel]

@[simp] theorem steady_refuseSlot (s : State) (part slot code : Nat) :
    steady (refuseSlot s part slot code) = steady s := by simp [refuseSlot]

@[simp] theorem steady_startLoad (s : State) (ix : Nat) (m : Model) : steady (startLoad s ix m) = steady s := by
  unfold startLoad
  dsimp only
  split <;> simp

theorem steady_takeIndex {s t : State} {part ix g : Nat} (h : takeIndex s part = some (ix, g, t)) : steady t = steady s := by
  unfold takeIndex at h
  split at h
  · cases h
  · cases h
    simp

@[simp] theorem steady_startCopy (s : State) (add : Nat) (b : Model) (owner : Nat) : steady (startCopy s add b owner) = steady s := by
  unfold startCopy
  split
  · simp
  next taken =>
    rw [← steady_takeIndex taken]
    dsimp only
    split <;> simp

@[simp] theorem steady_loadChecked (s : State) (ix : Nat) (m : Model) : steady (loadChecked s ix m) = steady s := by
  unfold loadChecked
  dsimp only
  repeat' split
  all_goals simp

@[simp] theorem steady_loadEffect (s : State) (part slot : Nat) : steady (loadEffect s part slot) = steady s := by
  unfold loadEffect
  dsimp only
  split
  · simp
  · have before := (steady_modelRecord (journal s 0 4 (part * 256 + slot) true) part slot).trans (steady_journal _ _ _ _ _)
    split
    · exact (steady_refuseSlot _ _ _ _).trans before
    next taken =>
      have begun := (steady_takeIndex taken).trans before
      split
      next image => exact (steady_refuseModel _ _ _ _).trans ((steady_of_recordImage image).trans begun)
      next image => exact (steady_loadChecked _ _ _).trans ((steady_of_recordImage image).trans begun)

theorem steady_modelDoorbell {f : State → Nat → Model → State} (h : ∀ s ix m, steady (f s ix m) = steady s) (s : State)
    (part slot : Nat) : steady (modelDoorbell s part slot f) = steady s := by
  unfold modelDoorbell
  split
  · simp
  · split
    · simp
    · exact (h _ _ _).trans (by simp)

@[simp] theorem steady_unloadEffect (s : State) (part slot : Nat) : steady (unloadEffect s part slot) = steady s :=
  steady_modelDoorbell (fun _ _ _ => by split <;> simp) s part slot

@[simp] theorem steady_attachEffect (s : State) (part slot ctx : Nat) (serve : Bool) :
    steady (attachEffect s part slot ctx serve) = steady s := by
  refine steady_modelDoorbell (fun s ix m => ?_) s part slot
  dsimp only
  repeat' split
  all_goals simp

@[simp] theorem steady_detachEffect (s : State) (part slot ctx : Nat) : steady (detachEffect s part slot ctx) = steady s :=
  steady_modelDoorbell (fun s ix _ => steady_detachOne s ix ctx) s part slot

@[simp] theorem steady_refreshKv (s : State) (ix : Nat) (m : Model) : steady (refreshKv s ix m) = steady s := by
  refine (steady_foldl _ _ fun t e => ?_).trans (steady_releaseHandles _ _)
  dsimp only
  split
  · rfl
  · split
    · split <;> simp
    · rfl

@[simp] theorem steady_finishReplace (s : State) (ix : Nat) (m : Model) : steady (finishReplace s ix m) = steady s := by
  unfold finishReplace
  dsimp only
  split <;> simp

@[simp] theorem steady_replaceEffect (s : State) (part slot ix : Nat) (m : Model) :
    steady (replaceEffect s part slot ix m) = steady s := by
  unfold replaceEffect
  dsimp only
  split
  · simp
  · split
    · simp
    · split
      all_goals
        rename_i image
        rw [← steady_modelRecord s part slot, ← steady_of_recordImage image]
      · simp
      · repeat' split
        all_goals simp

/-! ### Doorbells (Machine/Doorbells.lean) -/

@[simp] theorem steady_takeTurn (s : State) (p : Nat) : steady (takeTurn s p) = steady s := (rfl)

@[simp] theorem steady_reservedBell (models : Bool) (s : State) (part : Nat) (value : Word) :
    steady (reservedBell models s part value) = steady s := by
  unfold reservedBell
  dsimp only
  repeat' split
  all_goals simp

@[simp] theorem steady_ringBell (c : Instr) (s : State) : steady (ringBell c s) = steady s := by
  unfold ringBell
  split
  · exact steady_submitEffect _ _ _
  · exact steady_slotDoorbell steady_cancelRequest _ _ _
  · exact steady_slotDoorbell steady_publishHeld _ _ _
  · exact steady_pfxReleaseEffect _ _ _
  · exact steady_loadEffect _ _ _
  · exact steady_unloadEffect _ _ _
  · exact steady_modelDoorbell (fun _ _ _ => steady_replaceEffect _ _ _ _ _) _ _ _
  · exact steady_attachEffect _ _ _ _ _
  · exact steady_detachEffect _ _ _ _
  · exact steady_reservedBell _ _ _ _
  · rfl

@[simp] theorem steady_takeBells (fuel : Nat) (s : State) : steady (takeBells fuel s) = steady s := by
  induction fuel generalizing s with
  | zero => rfl
  | succ fuel ih =>
    unfold takeBells
    split
    · exact (ih _).trans (by simp)
    · rfl

@[simp] theorem steady_pumpBells (s : State) : steady (pumpBells s) = steady s := by
  unfold pumpBells
  split <;> simp

/-! ### Collectives (Machine/Collective.lean) -/

@[simp] theorem steady_modColl (s : State) (id : Nat) (f : Coll → Coll) : steady (modColl s id f) = steady s := by
  unfold modColl
  split <;> simp

@[simp] theorem steady_finishColl (s : State) (id code : Nat) : steady (finishColl s id code) = steady s := by
  unfold finishColl
  dsimp only
  repeat' split
  all_goals simp

@[simp] theorem steady_collLand (s : State) (id : Nat) (v : CollView) (ix : Nat) (data : List Byte) (tag : GrainTag) :
    steady (collLand s id v ix data tag) = steady s := by
  unfold collLand
  dsimp only
  repeat' split
  all_goals simp

@[simp] theorem steady_sendColdata (s : State) (n p flow ix : Nat) (data : List Byte) (tag : GrainTag) :
    steady (sendColdata s n p flow ix data tag) = steady s := by simp [sendColdata]

@[simp] theorem steady_collFlush (s : State) (id : Nat) (m : ArriveMsg) : steady (collFlush s id m) = steady s := by
  unfold collFlush
  dsimp only
  repeat' split
  all_goals simp

@[simp] theorem steady_collReduced (s : State) (id : Nat) (v : CollView) (ix : Nat) (data : List Byte) (poison : Bool) :
    steady (collReduced s id v ix data poison) = steady s := by
  unfold collReduced
  dsimp only
  repeat' split
  all_goals simp

@[simp] theorem steady_collCombine (s : State) (id : Nat) : steady (collCombine s id) = steady s := by
  unfold collCombine
  dsimp only
  split
  · rfl
  · split
    · rfl
    · split
      · rfl
      · split
        · split
          · rfl
          · split
            · rfl
            · simp
        · split
          · split
            · rfl
            · split
              · rfl
              · simp
          · refine steady_foldl _ _ fun s i => ?_
            split
            · rfl
            · split
              · rfl
              · simp

@[simp] theorem steady_collGot (s : State) (id src ix : Nat) (data : List Byte) (tag : GrainTag) :
    steady (collGot s id src ix data tag) = steady s := by
  unfold collGot
  repeat' split
  all_goals simp

@[simp] theorem steady_collCheck (s : State) (id : Nat) : steady (collCheck s id) = steady s := by
  unfold collCheck
  repeat' split
  all_goals simp

@[simp] theorem steady_settleHeader (s : State) (n step va : Nat) (applied : Bool) :
    steady (settleHeader s n step va applied) = steady s := by
  unfold settleHeader
  dsimp only
  split <;> simp

@[simp] theorem steady_settleWhey (s : State) (n step : Nat) (applied : Bool) :
    steady (settleWhey s n step applied) = steady s := by simp [settleWhey]

@[simp] theorem steady_collPoison (s : State) (ref : CgRef) (n va : Nat) : steady (collPoison s ref n va) = steady s := by
  unfold collPoison
  split <;> simp

@[simp] theorem steady_settleReshard (s : State) (id : Nat) (r : Reshard) (applied : Bool) :
    steady (settleReshard s id r applied) = steady s := by
  unfold settleReshard
  dsimp only
  split <;> simp

@[simp] theorem steady_gflagReturn (s : State) (g : GflagWait) (flag : Bool) (rc : Nat) :
    steady (gflagReturn s g flag rc) = steady s := by
  unfold gflagReturn
  dsimp only
  split <;> simp

@[simp] theorem steady_gflagCheck (s : State) (g : GflagWait) : steady (gflagCheck s g) = steady s := by
  unfold gflagCheck
  dsimp only
  split <;> simp

@[simp] theorem steady_gflagSend (s : State) (g : GflagWait) : steady (gflagSend s g) = steady s := by
  unfold gflagSend
  dsimp only
  split <;> simp

@[simp] theorem steady_gflagPump (s : State) : steady (gflagPump s) = steady s := by simp [gflagPump]

@[simp] theorem steady_abortColl (s : State) (id : Nat) (c : Coll) : steady (abortColl s id c) = steady s := by
  unfold abortColl
  refine (steady_finishColl _ _ _).trans ?_
  split
  · rfl
  · refine steady_foldl _ _ fun s i => ?_
    split <;> simp

@[simp] theorem steady_abortReshard (s : State) (id : Nat) (r : Reshard) : steady (abortReshard s id r) = steady s := by
  unfold abortReshard
  dsimp only
  split <;> simp

@[simp] theorem steady_endStep (s : State) (n attempt step : Nat) : steady (endStep s n attempt step) = steady s := by
  unfold endStep
  dsimp only
  repeat' split
  all_goals simp

@[simp] theorem steady_collArrived (s : State) (id : Nat) (m : ArriveMsg) :
    steady (collArrived s id m) = steady s := by
  unfold collArrived
  dsimp only
  repeat' split
  all_goals simp

@[simp] theorem steady_takeEarly (s : State) (group attempt step colseq : Nat) :
    steady (takeEarly s group attempt step colseq).2 = steady s := (rfl)

@[simp] theorem steady_wheyRead (s : State) (n : Nat) (v : CollView) :
    steady (wheyRead s n v).2.2 = steady s := by simp [wheyRead]

@[simp] theorem steady_wheyWrite (s : State) (c : Coll) (v : CollView) (cur : Nat) (w : List (List Byte × Bool)) :
    steady (wheyWrite s c v cur w) = steady s := by simp [wheyWrite]

@[simp] theorem steady_takeInbox (s : State) (id : Nat) (c : Coll) : steady (takeInbox s id c) = steady s := by simp [takeInbox]

@[simp] theorem steady_collRead (s : State) (id : Nat) (c : Coll) (v : CollView) : steady (collRead s id c v) = steady s := by
  unfold collRead
  dsimp only
  repeat' split
  all_goals simp

@[simp] theorem steady_collBegin (s : State) (id : Nat) (c : Coll) (v : CollView) : steady (collBegin s id c v) = steady s := by
  unfold collBegin
  dsimp only
  repeat' split
  all_goals simp

/-- One round of `pumpColls`, which goes on with `go`. -/
def collStart (go : State → State) (s : State) : State :=
  match minBy (fun e => e.1) (s.hub.colls.filter fun e => e.2.waiting) with
  | none => s
  | some (key, c) =>
    match collView s c, freeFlow s with
    | some v, some id => go (collBegin (modHub s fun h => { h with colls := tdel h.colls key }) id c v)
    | none, _ => go (modHub s fun h => { h with colls := tdel h.colls key })
    | _, none => s

theorem pumpColls_succ (fuel : Nat) (s : State) : pumpColls (fuel + 1) s = collStart (pumpColls fuel) s := by
  unfold collStart
  rfl

theorem steady_collStart {go : State → State} (h : ∀ s, steady (go s) = steady s) (s : State) :
    steady (collStart go s) = steady s := by
  unfold collStart
  split
  · rfl
  · split
    · exact (h _).trans (by simp)
    · exact (h _).trans (by simp)
    · rfl

@[simp] theorem steady_pumpColls (fuel : Nat) (s : State) : steady (pumpColls fuel s) = steady s := by
  induction fuel generalizing s with
  | zero => rfl
  | succ fuel ih =>
    rw [pumpColls_succ]
    exact steady_collStart ih s

@[simp] theorem steady_collResume (s : State) (id : Nat) : steady (collResume s id) = steady s := by
  unfold collResume
  repeat' split
  all_goals simp

@[simp] theorem steady_hubSettle (s : State) : steady (hubSettle s) = steady s := by simp [hubSettle]

/-! ### What a teardown discards (Machine/Teardown.lean) -/

@[simp] theorem steady_dropSample (s : State) (n c : Nat) : steady (dropSample s n c) = steady s := by
  unfold dropSample
  dsimp only
  split <;> simp

/-! ### The commit window (Machine/Window.lean) -/

@[simp] theorem steady_promptPoison (s : State) (n va : Nat) : steady (promptPoison s n va).2 = steady s := by
  unfold promptPoison
  dsimp only
  split <;> simp

/-! ### Memory requests (Machine/MemReq.lean) -/

@[simp] theorem steady_wakeMemWait (s : State) (a : Agent) : steady (wakeMemWait s a) = steady s := by
  unfold wakeMemWait
  repeat' split
  all_goals simp

@[simp] theorem steady_wakeRings (s : State) (c : Nat) : steady (wakeRings s c) = steady s := (rfl)

@[simp] theorem steady_fillSlot (s : State) (c k j : Nat) : steady (fillSlot s c k j) = steady s := by
  unfold fillSlot
  dsimp only
  repeat' split
  all_goals simp

@[simp] theorem steady_schedCheck (s : State) (id : Nat) : steady (schedCheck s id) = steady s := by
  unfold schedCheck
  dsimp only
  repeat' split
  all_goals simp

@[simp] theorem steady_schedLanded (s : State) (id key code : Nat) : steady (schedLanded s id key code) = steady s := by
  unfold schedLanded
  dsimp only
  repeat' split
  all_goals simp

@[simp] theorem steady_landSaved (s : State) (n c : Nat) (ps : List (Nat × Nat × Nat)) (data : List Byte) (poison : Bool) :
    steady (landSaved s n c ps data poison) = steady s := by simp [landSaved]

@[simp] theorem steady_landGrain (s : State) (r : MReq) (data : List Byte) (tag : GrainTag) :
    steady (landGrain s r data tag) = steady s := by
  unfold landGrain
  repeat' split
  all_goals simp

@[simp] theorem steady_peerCount (s : State) (r : MReq) (up : Bool) : steady (peerCount s r up) = steady s := by
  unfold peerCount
  repeat' split
  all_goals simp

@[simp] theorem steady_countEnd (s : State) (r : MReq) (code : Nat) : steady (countEnd s r code) = steady s := by
  unfold countEnd
  repeat' split
  all_goals simp

@[simp] theorem steady_moveOn (s : State) (r : MReq) (va code : Nat) (data : List Byte) (tag : GrainTag) :
    steady (moveOn s r va code data tag) = steady s := by
  unfold moveOn
  split
  · exact steady_countEnd _ _ _
  · exact (steady_peerCount _ _ _).trans (steady_modMem (s := bump s) rfl rfl rfl rfl)

@[simp] theorem steady_reportStore (s : State) (r : MReq) (code : Nat) : steady (reportStore s r code) = steady s := by
  unfold reportStore
  dsimp only
  repeat' split
  all_goals simp

@[simp] theorem steady_endReq (s : State) (id code : Nat) (data : List Byte) (tag : GrainTag) :
    steady (endReq s id code data tag) = steady s := by
  unfold endReq
  dsimp only
  repeat' split
  all_goals simp

@[simp] theorem steady_failedWriteLands (s : State) : steady (failedWriteLands s).2 = steady s := (rfl)

@[simp] theorem steady_failArrives (s : State) (id : Nat) (r : MReq) : steady (failArrives s id r) = steady s := by
  unfold failArrives
  repeat' split
  all_goals simp

@[simp] theorem steady_failReq (s : State) (id : Nat) : steady (failReq s id) = steady s := by
  unfold failReq
  dsimp only
  repeat' split
  all_goals simp

@[simp] theorem steady_routeReq (s : State) (id : Nat) (r : MReq) : steady (routeReq s id r) = steady s := by
  unfold routeReq
  repeat' split
  all_goals simp

@[simp] theorem steady_startWindow (s : State) (id : Nat) (r : MReq) :
    steady (startWindow s id r) = steady s := by simp [startWindow]

@[simp] theorem steady_startReq (s : State) (id : Nat) : steady (startReq s id) = steady s := by
  unfold startReq
  dsimp only
  repeat' split
  all_goals simp

@[simp] theorem steady_takeSlot (s : State) (c : Nat) (w : Waiting) : steady (takeSlot s c w) = steady s := by
  unfold takeSlot
  dsimp only
  split <;> simp

@[simp] theorem steady_fillSlots (c fuel : Nat) (s : State) : steady (fillSlots c fuel s) = steady s := by
  induction fuel generalizing s with
  | zero => rfl
  | succ fuel ih =>
    unfold fillSlots
    split
    · rfl
    · split
      · rfl
      · exact (ih _).trans (steady_takeSlot _ _ _)

@[simp] theorem steady_pumpSlots (s : State) (c : Nat) : steady (pumpSlots s c) = steady s := by simp [pumpSlots]
@[simp] theorem steady_startMoves (s : State) : steady (startMoves s) = steady s := by simp [startMoves]
@[simp] theorem steady_sendOrdered (s : State) : steady (sendOrdered s) = steady s := by simp [sendOrdered]

@[simp] theorem steady_afterReq (s : State) (core : Option Nat) : steady (afterReq s core) = steady s := by
  unfold afterReq
  dsimp only
  split <;> simp

/-! ### Firing (Machine/Firing.lean) -/

@[simp] theorem steady_addTokens (s : State) (c b n : Nat) : steady (addTokens s c b n) = steady s := by simp [addTokens]

/-! ### Contexts: saves and restores (Machine/Sched.lean) -/

@[simp] theorem steady_beginSave (s : State) (n : Nat) : steady (beginSave s n) = steady s := by
  unfold beginSave
  dsimp only
  split <;> simp

@[simp] theorem steady_saveGrain (s : State) (n pa : Nat) (d : List Byte) (poison : Bool) :
    steady (saveGrain s n pa d poison) = steady s := by
  unfold saveGrain
  split <;> simp

@[simp] theorem steady_saveState (n pa fuel : Nat) (s : State) : steady (saveState n pa fuel s) = steady s := by
  induction fuel generalizing pa s with
  | zero => rfl
  | succ fuel ih => exact (ih _ _).trans (by simp)

@[simp] theorem steady_writeImage (s : State) (n c : Nat) : steady (writeImage s n c) = steady s :=
  (steady_saveState _ _ _ _).trans (steady_foldl _ _ fun _ _ => steady_saveGrain _ _ _ _ _)

@[simp] theorem steady_rekeyCtx (s : State) (n : Nat) (f : Nat → Nat) : steady (rekeyCtx s n f) = steady s := (rfl)
@[simp] theorem steady_dropEdge (s : State) (c : Nat) : steady (dropEdge s c) = steady s := (rfl)

@[simp] theorem steady_edgeToBlocks (s : State) (c : Nat) : steady (edgeToBlocks s c) = steady s := by
  refine steady_foldl _ _ fun s e => ?_
  split
  · split <;> simp
  · split
    · split <;> simp
    · rfl
  · rfl

@[simp] theorem steady_saveCore (s : State) (n c : Nat) : steady (saveCore s n c) = steady s := by
  rw [saveCore]
  simp

@[simp] theorem steady_chargeSave (s : State) (n k : Nat) : steady (chargeSave s n k) = steady s := (rfl)

@[simp] theorem steady_claimRestore (s : State) (n : Nat) : steady (claimRestore s n) = steady s := by
  unfold claimRestore
  dsimp only
  split <;> simp

@[simp] theorem steady_readSaved (s : State) (n c u : Nat) : steady (readSaved s n c u).2.2 = steady s := by
  induction u with
  | zero => rfl
  | succ u ih => exact (steady_readGrain _ _).trans ih

/-- The grain count is made a variable first, so that no check of the proof runs a core's read-back. -/
@[simp] theorem steady_restoreCore (s : State) (n c : Nat) : steady (restoreCore s n c) = steady s := by
  have general : ∀ f, f = restoreCore → steady (f s n c) = steady s := by
    delta restoreCore
    generalize 8192 = grains
    intro f restored
    have read := steady_readSaved s n c grains
    have restored := congrFun (congrFun (congrFun restored s) n) c
    rw [restored]
    generalize readSaved s n c grains = r at read ⊢
    obtain ⟨cells, marks, t⟩ := r
    exact read
  exact general _ rfl

@[simp] theorem steady_restoreCtx (s : State) (n : Nat) : steady (restoreCtx s n) = steady s := by simp [restoreCtx]
@[simp] theorem steady_recordReplay (s : State) (n : Nat) : steady (recordReplay s n) = steady s := (rfl)
@[simp] theorem steady_bringBack (s : State) (n : Nat) : steady (bringBack s n) = steady s := by simp [bringBack]
@[simp] theorem steady_saveAll (s : State) (n : Nat) : steady (saveAll s n) = steady s := by simp [saveAll]

/-! ### Peers (Machine/Peers.lean) -/

@[simp] theorem steady_failPeerReqs (s : State) (j : Nat) : steady (failPeerReqs s j) = steady s := by simp [failPeerReqs]
@[simp] theorem steady_endStepsOf (s : State) (p : Nat → Bool) : steady (endStepsOf s p) = steady s := by simp [endStepsOf]

@[simp] theorem steady_declareAbsent (s : State) (j : Nat) : steady (declareAbsent s j) = steady s := by
  unfold declareAbsent
  dsimp only
  split <;> simp

@[simp] theorem steady_showRelay (s : State) : steady (showRelay s) = steady s := by
  refine steady_foldl _ _ fun s k => ?_
  dsimp only
  split
  · rfl
  · simp

@[simp] theorem steady_relink (s : State) : steady (relink s) = steady s := by
  unfold relink
  exact (steady_showRelay _).trans ((steady_foldl _ _ steady_declareAbsent).trans
    ((steady_showRelay _).trans (steady_modPeers s _)))

@[simp] theorem steady_sendRoutes (s : State) : steady (sendRoutes s) = steady s := by
  unfold sendRoutes
  split <;> simp

@[simp] theorem steady_rerouteAll (s : State) (k : Nat) : steady (rerouteAll s k) = steady s := by simp [rerouteAll]

@[simp] theorem steady_portOff (s : State) (k st : Nat) : steady (portOff s k st) = steady s := by
  unfold portOff
  dsimp only
  split <;> simp

/-! ### The way into Hold (Machine/Hold.lean) -/

@[simp] theorem steady_saveLive (s : State) : steady (saveLive s) = steady s := by simp [saveLive]

@[simp] theorem steady_leavePeers (s : State) : steady (leavePeers s) = steady s :=
  (steady_foldl _ _ steady_declareAbsent).trans (steady_foldl _ _ fun s k => steady_portOff s k ptDisabled)

@[simp] theorem steady_enterHold (s : State) : steady (enterHold s) = steady s := by
  have left : steady (leavePeers (saveLive s)) = steady s := (steady_leavePeers _).trans (steady_saveLive s)
  unfold enterHold
  generalize leavePeers (saveLive s) = t at left ⊢
  exact left

@[simp] theorem steady_holdStep (s : State) : steady (holdStep s) = steady s := by
  unfold holdStep
  split <;> simp

/-! ### What a tick lets go on (Machine/Tick.lean) -/

@[simp] theorem steady_pllOffTick (s : State) (k : Nat) : steady (pllOffTick s k) = steady s := by
  unfold pllOffTick
  dsimp only
  split <;> simp

@[simp] theorem steady_heldTick (s : State) (k : Nat) : steady (heldTick s k) = steady s := (rfl)

@[simp] theorem steady_dieTick (s : State) (k : Nat) : steady (dieTick s k) = steady s := by
  unfold dieTick
  dsimp only
  repeat' split
  all_goals simp

@[simp] theorem steady_napTick (s : State) : steady (napTick s) = steady s := (rfl)
@[simp] theorem steady_endRestarts (s : State) : steady (endRestarts s) = steady s := by simp [endRestarts, apply_ite steady]

@[simp] theorem steady_endSpeedTest (s : State) : steady (endSpeedTest s) = steady s := by
  unfold endSpeedTest
  dsimp only
  repeat' split
  all_goals simp

/-! ### The tick (R23) -/

/-- The local tick advances. -/
def ticked (s : State) : State := modClk s fun c => { c with tick := c.tick + 1 }

/-- What a tick charges to contexts and partitions (R365, R368, R371). -/
def chargeTick (s : State) : State := { s with ctxs := tmap (ctxTick s) s.ctxs, parts := tmap (partTick s) s.parts }

/-- Every die that is listed over one tick (R52, R53). -/
def diesTick (s : State) : State := (s.clk.dies.map Prod.fst).foldl dieTick s

theorem idleTick_off {s : State} (off : s.pwr.off = true) : idleTick s = s := by simp [idleTick, off]

theorem idleTick_halted {s : State} (on : s.pwr.off = false) (halted : (s.recov.fatal || s.pwr.inHold) = true) :
    idleTick s = (s.clk.dies.map Prod.fst).foldl pllOffTick (ticked s) := by
  rw [idleTick, if_neg (by simp [on])]
  exact if_pos halted

theorem idleTick_runs {s : State} (on : s.pwr.off = false) (runs : (s.recov.fatal || s.pwr.inHold) = false) :
    idleTick s = holdStep (napTick (chargeTick (diesTick (endSpeedTest (pumpBells (endRestarts (ticked s))))))) := by
  rw [idleTick, if_neg (by simp [on])]
  exact if_neg (by simp [runs])

theorem step_of_empty {s : State} (empty : s.pending = []) : step s = .next (idleTick s) := by simp [step, empty]

/-! ### What a tick keeps: the queue and the settings -/

@[simp] theorem partTick_maxActive (s : State) (p : Nat) (x : Part) : (partTick s p x).rqMaxActive = x.rqMaxActive := by
  unfold partTick
  dsimp only
  split
  · rfl
  · split <;> rfl

/-- A table whose listed entries all change reads alike where no change is seen. -/
theorem tget_tmap_keeps {α β : Type} (g : α → β) {d : α} {f : Nat → α → α} (h : ∀ k v, g (f k v) = g v) (t : Tbl α) (k : Nat) :
    g (tget d (tmap f t) k) = g (tget d t k) := by
  induction t with
  | nil => rfl
  | cons e t ih =>
    simp only [tmap, List.map_cons, tget]
    split
    · exact h _ _
    · exact ih

@[simp] theorem steady_chargeTick (s : State) : steady (chargeTick s) = steady s := by
  have active : (fun p => (getPart (chargeTick s) p).rqMaxActive) = fun p => (getPart s p).rqMaxActive :=
    funext (tget_tmap_keeps Part.rqMaxActive (partTick_maxActive s) s.parts)
  simp only [steady, active]
  rfl

@[simp] theorem steady_diesTick (s : State) : steady (diesTick s) = steady s := by simp [diesTick]

/-- Nothing that a tick lets go on touches the queue, the tick or a setting. -/
theorem steady_idleTick {s : State} (on : s.pwr.off = false) : steady (idleTick s) = steady (ticked s) := by
  cases halted : s.recov.fatal || s.pwr.inHold with
  | true =>
    rw [idleTick_halted on halted]
    simp
  | false =>
    rw [idleTick_runs on halted]
    simp

/-! ### What a tick alone keeps: memory, requests and models -/

/-- What a tick alone leaves: memory, requests, models and the power state that decides what else goes on. -/
def contents (s : State) : Mem × Rollout × Tbl Model × Power := (s.mem, s.rollout, s.models, s.pwr)

theorem contents_eq {s t : State} (h : contents t = contents s) :
    t.mem = s.mem ∧ t.rollout = s.rollout ∧ t.models = s.models ∧ t.pwr = s.pwr := by simpa [contents] using h

theorem contents_pllOffTick (s : State) (k : Nat) : contents (pllOffTick s k) = contents s := by
  unfold pllOffTick
  dsimp only
  split <;> rfl

theorem contents_foldl_modCore (f : Nat → Core → Core) (l : List Nat) (s : State) :
    contents (l.foldl (fun s c => modCore s c (f c)) s) = contents s :=
  foldl_keeps (f := fun s c => modCore s c (f c)) (fun _ _ => rfl) l s

theorem contents_dieTick (s : State) (k : Nat) : contents (dieTick s k) = contents s := by
  have charged : contents (if (getDie s k).state == 2 then heldTick s k else s) = contents s := by split <;> rfl
  unfold dieTick
  dsimp only
  split
  · exact charged
  · split
    · exact (contents_foldl_modCore _ _ _).trans charged
    · exact (contents_pllOffTick _ k).trans charged

/-- No write waits, so firmware has nothing to go on with. -/
theorem firmwareGoesOn_idle {s : State} (noWaits : s.host.fwWaits = []) : firmwareGoesOn s = s := by
  simp [firmwareGoesOn, goOnBi, nextFw, noWaits]

/-- With no write that waits, the ends of restarts wake control threads, and that is all. -/
theorem endRestarts_keeps {s : State} (noWaits : s.host.fwWaits = []) :
    contents (endRestarts s) = contents s ∧ (endRestarts s).parts = s.parts := by
  unfold endRestarts
  dsimp only
  rw [firmwareGoesOn_idle (by exact noWaits)]
  have woken := foldl_keeps (p := fun s => (contents s, s.parts))
    (f := fun s cc => if coreStops s cc then s else onControls s cc wakeControl) (fun s cc => by split <;> rfl)
    s.recov.restarting (modRec s fun r => { r with restarting := [] })
  exact Prod.mk.inj woken

/-- Without a doorbell firmware takes none. -/
theorem pumpBells_idle {s : State} (noBells : bellCount s = 0) : pumpBells s = s := by
  rw [pumpBells, noBells]
  split <;> rfl

theorem endSpeedTest_idle {s : State} (noTest : s.pwr.speedTest = none) : endSpeedTest s = s := by
  simp [endSpeedTest, noTest]

theorem holdStep_idle {s : State} (notAsked : s.pwr.holdAsked = false) : holdStep s = s := by simp [holdStep, notAsked]

/-- A tick with no doorbell, Hold request, waiting write or speed test keeps memory, requests and models. -/
theorem idleTick_keeps {s : State} (on : s.pwr.off = false) (noBells : bellCount s = 0) (notAsked : s.pwr.holdAsked = false)
    (noWaits : s.host.fwWaits = []) (noTest : s.pwr.speedTest = none) :
    (idleTick s).mem = s.mem ∧ (idleTick s).rollout = s.rollout ∧ (idleTick s).models = s.models := by
  cases halted : s.recov.fatal || s.pwr.inHold with
  | true =>
    have kept : contents (idleTick s) = contents s := by
      rw [idleTick_halted on halted]
      exact foldl_keeps contents_pllOffTick _ (ticked s)
    obtain ⟨mem, rollout, models, -⟩ := contents_eq kept
    exact ⟨mem, rollout, models⟩
  | false =>
    obtain ⟨restarts, parts⟩ := endRestarts_keeps (s := ticked s) noWaits
    have bells : bellCount (endRestarts (ticked s)) = 0 := by rw [bellCount, parts]; exact noBells
    obtain ⟨-, -, -, powered⟩ := contents_eq restarts
    have test : (endRestarts (ticked s)).pwr.speedTest = none := by rw [powered]; exact noTest
    have dies : contents (diesTick (endRestarts (ticked s))) = contents s := (foldl_keeps contents_dieTick _ _).trans restarts
    obtain ⟨mem, rollout, models, power⟩ := contents_eq dies
    have asked : (napTick (chargeTick (diesTick (endRestarts (ticked s))))).pwr.holdAsked = false :=
      (congrArg Power.holdAsked power).trans notAsked
    rw [idleTick_runs on halted, pumpBells_idle bells, endSpeedTest_idle test, holdStep_idle asked]
    exact ⟨mem, rollout, models⟩

/-- Settles O2: a tick keeps the steady part of the state but for the tick itself, and what it does alone reaches no memory. -/
theorem idleStepTicks : Obligations.IdleStepTicks := by
  refine ⟨?_, ?_, ?_⟩
  · intro s empty on
    have kept := steady_idleTick on
    exact ⟨_, step_of_empty empty, congrArg Steady.tick kept, (congrArg Steady.pending kept).trans empty⟩
  · intro s empty on noBells notAsked noWaits noTest
    obtain ⟨mem, rollout, models⟩ := idleTick_keeps on noBells notAsked noWaits noTest
    exact ⟨_, step_of_empty empty, by rw [mem], by rw [mem], rollout, models⟩
  · intro s empty off
    rw [step_of_empty empty, idleTick_off off]

end Machine
end Sys2Proof
end

section
/-! The proofs of the statements of 02_cores_and_firing, first part: control flow and the instructions of CTRL (R41, R77, R95, R161,
R163, R364). -/

namespace Sys2Proof
namespace Machine

open Host

/-! ### What a row answers beside its body's results -/

/-- A word that the checks of R88 refuse is an illegal instruction, selected or not. -/
theorem runInstr_illegal {row : Row} {a : Agent} {w : Word} {n : Nat} {s : State} (body : Nat → State → IRes)
    (reaches : Reaches row s a n w) (refused : legalFor row s a w = false) :
    runInstr row a w body s =
      .next (ctxFault s n (faultOf s a fcIllegal 0 w (threadOf s a).ip (threadOf s a).block)) := by
  obtain ⟨ctx, can, cls, maj, sub, fetched⟩ := reaches
  simp [runInstr, issue, ctx, can, cls, maj, sub, fetched, refused]

/-- No word is legal as one with a reserved code. -/
theorem legalFor_rowIllegal (s : State) (a : Agent) (w v : Word) : legalFor (rowIllegal v) s a w = false := by
  simp [legalFor, rowIllegal]

/-! ### FLOW and reserved codes (R41, R130, R161) -/

section
variable {s : State} {a : Agent} {c t m n : Nat} {w : Word}

theorem exec_bend (h : Issues (rowFlow 0 true false) s (.thread c t) n w) :
    exec (.bend (.thread c t) w) s = .next (coresStep (endInstance s c t) n) :=
  (runInstr_stop h rfl : execBend (.thread c t) w s = _)

theorem exec_halt (h : Issues (rowFlow 1 false true) s (.ctl m) n w) :
    exec (.halt (.ctl m) w) s = .next (beginTeardown s n (some 0)) :=
  (runInstr_stop h rfl : execHalt (.ctl m) w s = _)

theorem exec_yield (h : Issues (rowFlow 2 true true) s a n w) :
    exec (.yield a w) s = .next (thenNext s ((behind s n).foldl tryRestore s) a n) :=
  (runInstr_done h rfl : execYield a w s = _)

theorem exec_illegalInstruction (ctx : ctxOf s a = some n) (can : canIssue s a n = true) (fetched : fetchFault s a = none)
    (reserved : reservedCode w = true) :
    exec (.illegalInstruction a w) s =
      .next (ctxFault s n (faultOf s a fcIllegal 0 w (threadOf s a).ip (threadOf s a).block)) :=
  runInstr_illegal (row := rowIllegal w) _ ⟨ctx, can, rfl, rfl, reserved, fetched⟩ (legalFor_rowIllegal s a w w)

/-! ### Mailboxes (R163) -/

/-- A mailbox that nothing has armed takes the kind and the count of contributions of a legal word. -/
theorem exec_sumarm (h : Issues rowSumarm s (.ctl m) n w) (reserved : fld (sOf s (.ctl m) (iSrc1 w)) 58 57 = 0)
    (reservedLow : fld (sOf s (.ctl m) (iSrc1 w)) 52 32 = 0) (kind : isSumKind (fld (sOf s (.ctl m) (iSrc1 w)) 63 60) = true)
    (free : (tget MailSlot.reset (getCtx s n).mail (mailKey (fld (sOf s (.ctl m) (iSrc1 w)) 56 53)
      (fld (sOf s (.ctl m) (iSrc1 w)) 59 59))).armed = none) :
    exec (.sumarm (.ctl m) w) s = .next (thenNext s (mailSettle (modCtx s n fun x => { x with
      mail := tput x.mail (mailKey (fld (sOf s (.ctl m) (iSrc1 w)) 56 53) (fld (sOf s (.ctl m) (iSrc1 w)) 59 59))
        { tget MailSlot.reset (getCtx s n).mail (mailKey (fld (sOf s (.ctl m) (iSrc1 w)) 56 53)
            (fld (sOf s (.ctl m) (iSrc1 w)) 59 59)) with
          armed := some (fld (sOf s (.ctl m) (iSrc1 w)) 63 60, fld (sOf s (.ctl m) (iSrc1 w)) 31 0) } })
      n (fld (sOf s (.ctl m) (iSrc1 w)) 56 53) (fld (sOf s (.ctl m) (iSrc1 w)) 59 59)) (.ctl m) n) :=
  (runInstr_done h (if_neg (by simp [reserved, reservedLow, kind, free])) : execSumarm (.ctl m) w s = _)

/-- The oldest result goes to s[DST] and, its lower word, to s[SRC2]. -/
theorem exec_sumget {v low : Word} {rest : List (Word × Word)} (h : Issues rowSumget s (.ctl m) n w)
    (oldest : (tget MailSlot.reset (getCtx s n).mail (mailKey (bits (iImm w) 3 0) (bits (iImm w) 4 4))).results = (v, low) :: rest) :
    exec (.sumget (.ctl m) w) s = .next (thenNext s (putS (putS (modCtx s n fun x => { x with
      mail := tput x.mail (mailKey (bits (iImm w) 3 0) (bits (iImm w) 4 4))
        { tget MailSlot.reset (getCtx s n).mail (mailKey (bits (iImm w) 3 0) (bits (iImm w) 4 4)) with results := rest } })
      (.ctl m) (iDst w) v) (.ctl m) (iSrc2 w) low) (.ctl m) n) :=
  (runInstr_done h (by simp only [oldest]) : execSumget (.ctl m) w s = _)

/-! ### Loading a program (R77) -/

@[simp] theorem getCore_startPll (s : State) (c d : Nat) : getCore (startPll s c) d = getCore s d := by
  unfold startPll modDieOf
  split
  · split <;> rfl
  · rfl

@[simp] theorem getCtx_startPll (s : State) (c n : Nat) : getCtx (startPll s c) n = getCtx s n := by
  unfold startPll modDieOf
  split
  · split <;> rfl
  · rfl

/-- A control thread that parks leaves the cores alone. -/
@[simp] theorem getCore_parkAgent_ctl (s : State) (m cause c : Nat) (p : Park) :
    getCore (parkAgent s (.ctl m) cause p) c = getCore s c := rfl

/-- A control thread that parks leaves the load in progress of every context alone. -/
@[simp] theorem loadp_parkAgent_ctl (s : State) (m cause n : Nat) (p : Park) :
    (getCtx (parkAgent s (.ctl m) cause p) n).loadp = (getCtx s n).loadp :=
  tget_tput_keeps Ctx.loadp (by rfl) n

theorem exec_loadp_woken (h : Issues rowLoadp s (.ctl m) n w) (woken : (threadOf s (.ctl m)).woken = some 0) :
    exec (.loadp (.ctl m) w) s = .next (thenNext s (putS s (.ctl m) (iDst w) 0) (.ctl m) n) :=
  (runInstr_done h (by simp only [woken]; rfl) : execLoadp (.ctl m) w s = _)

/-- A load of one core of the context marks the core, asks for its die's clock and parks the thread until firmware has ended it. -/
theorem exec_loadp_one (h : Issues rowLoadp s (.ctl m) n w) (fresh : (threadOf s (.ctl m)).woken = none)
    (aligned : (sOf s (.ctl m) (iSrc1 w)).toNat % 256 = 0) (one : bits (iImm w) 10 0 = 1)
    (first : (sOf s (.ctl m) (iSrc2 w)).toNat = c) (own : c ∈ (getCtx s n).coreset) :
    exec (.loadp (.ctl m) w) s = .next (parkAgent (modCtx (startPll (modCore s c fun x => { x with loading := true }) c) n
      fun x => { x with loadp := some { va := (sOf s (.ctl m) (iSrc1 w)).toNat, cores := [c], failed := none } }) (.ctl m) 6 .load) :=
  (runInstr_park h (by simp [fresh, aligned, one, first, own]) : execLoadp (.ctl m) w s = _)

/-! ### Asking for cores (R364) -/

theorem exec_cores_woken {k : Nat} (h : Issues rowCores s (.ctl m) n w) (woken : (threadOf s (.ctl m)).woken = some k) :
    exec (.cores (.ctl m) w) s = .next (thenNext s (putS s (.ctl m) (iDst w) (w64 k)) (.ctl m) n) :=
  (runInstr_done h (by simp only [woken]) : execCores (.ctl m) w s = _)

theorem exec_cores_asks (h : Issues rowCores s (.ctl m) n w) (fresh : (threadOf s (.ctl m)).woken = none) :
    exec (.cores (.ctl m) w) s = .next (askCores (journal (parkAgent s (.ctl m) 6 .coreSet) (controlCoreOf n) 6 n false) n
      (sOf s (.ctl m) (iSrc1 w)).toNat) :=
  (runInstr_stop h (by simp only [fresh]; rfl) : execCores (.ctl m) w s = _)

end

/-- Settles O10: each instruction by what its row's body answers. -/
theorem flowAndControl : Obligations.FlowAndControl := by
  refine ⟨fun s c t n w h => exec_bend h, fun s m n w h => exec_halt h, fun s a n w h => exec_yield h,
    fun s a n w ctx can fetched reserved => exec_illegalInstruction ctx can fetched reserved,
    fun s m n w h reserved reservedLow kind free => exec_sumarm h reserved reservedLow kind free,
    fun s m n w v low rest h oldest => exec_sumget h oldest, fun s m n w h woken => exec_loadp_woken h woken, ?_,
    fun s m n k w h woken => exec_cores_woken h woken, fun s m n w h fresh => exec_cores_asks h fresh⟩
  intro s m n c w h fresh aligned one first own
  exact ⟨_, exec_loadp_one h fresh aligned one first own, by simp, by simp⟩

end Machine
end Sys2Proof
end

section
/-! The proofs of the statements of 02_cores_and_firing, second part: movement and prefetch schedules (R49, R97, R133 to R137, R220 to
R222). -/

namespace Sys2Proof
namespace Machine

open Host

/-! ### LDT and STT (R49, R97, R133 to R135) -/

theorem afterSlot_fresh {s : State} {a : Agent} (f : State → IRes) (fresh : (threadOf s a).woken = none) : afterSlot a f s = f s := by
  simp [afterSlot, fresh]

theorem afterSlot_woken {s : State} {a : Agent} {v : Nat} (f : State → IRes) (woken : (threadOf s a).woken = some v) :
    afterSlot a f s = .done s := by simp [afterSlot, woken]

section
variable {s s' r : State} {c t n v : Nat} {w : Word} {tile : Tile} {m : Tensor}

theorem exec_ldt_woken (h : Issues rowLdt s (.thread c t) n w) (woken : (threadOf s (.thread c t)).woken = some v) :
    exec (.ldt (.thread c t) w) s = .next (thenNext s s (.thread c t) n) :=
  (runInstr_done h (afterSlot_woken _ woken) : execLdt (.thread c t) w s = _)

theorem exec_stt_woken (h : Issues rowStt s (.thread c t) n w) (woken : (threadOf s (.thread c t)).woken = some v) :
    exec (.stt (.thread c t) w) s = .next (thenNext s s (.thread c t) n) :=
  (runInstr_done h (afterSlot_woken _ woken) : execStt (.thread c t) w s = _)

section
variable (h : Issues rowLdt s (.thread c t) n w) (fresh : (threadOf s (.thread c t)).woken = none)
  (dst : tileOf (getCore s c) (dOf s (.thread c t) (iDst w)) = some tile) (src : tensorOf (dOf s (.thread c t) (iSrc1 w)) = some m)
  (fits : partFits tile m (sOf s (.thread c t) (iSrc2 w)) false = true)
include h fresh dst src fits

/-- A load of which every grain may be read, and whose requests all have their slots, completes. -/
theorem exec_ldt_issues (rows : 0 < tile.rows) (cols : 0 < tile.cols) (grains : 0 < m.grains)
    (well : ldtFault s n ((accessGrains tile m (sOf s (.thread c t) (iSrc2 w))).map fun e => e.1) = none)
    (free : guardSp s c t [] tile.runs = .ok s')
    (issued : issueReqs s' (.thread c t) c (cgField w) (ldtReqs s' (.thread c t) n c w tile m) = .done r) :
    exec (.ldt (.thread c t) w) s = .next (thenNext s r (.thread c t) n) := by
  refine (runInstr_done h ((afterSlot_fresh _ fresh).trans ?_) : execLdt (.thread c t) w s = _)
  simp [onCore, dst, src, fits, rows.ne', cols.ne', grains.ne', well, free, guarded, issued]

theorem exec_ldt_empty (empty : tile.rows = 0 ∨ tile.cols = 0 ∨ m.grains = 0) :
    exec (.ldt (.thread c t) w) s = .next (thenNext s (emptyCg s (.thread c t) (cgField w)) (.thread c t) n) := by
  refine (runInstr_done h ((afterSlot_fresh _ fresh).trans ?_) : execLdt (.thread c t) w s = _)
  simp [onCore, dst, src, fits, or_assoc, empty]

end

section
variable (h : Issues rowStt s (.thread c t) n w) (fresh : (threadOf s (.thread c t)).woken = none)
  (src : tileOf (getCore s c) (dOf s (.thread c t) (iSrc1 w)) = some tile) (dst : tensorOf (dOf s (.thread c t) (iDst w)) = some m)
  (fits : partFits tile m (sOf s (.thread c t) (iSrc2 w)) true = true)
include h fresh src dst fits

/-- A store of which every grain may be written, and whose requests all have their slots, completes. -/
theorem exec_stt_issues (rows : 0 < tile.rows) (cols : 0 < tile.cols) (grains : 0 < m.grains)
    (well : sttFault s n ((accessGrains tile m (sOf s (.thread c t) (iSrc2 w))).map fun e => e.1) = none)
    (free : guardSp s c t tile.runs [] = .ok s')
    (issued : issueReqs s' (.thread c t) c (cgField w)
      ((accessGrains tile m (sOf s' (.thread c t) (iSrc2 w))).map (sttReq s' (.thread c t) n c w tile m)) = .done r) :
    exec (.stt (.thread c t) w) s = .next (thenNext s r (.thread c t) n) := by
  refine (runInstr_done h ((afterSlot_fresh _ fresh).trans ?_) : execStt (.thread c t) w s = _)
  simp [onCore, src, dst, fits, rows.ne', cols.ne', grains.ne', well, free, guarded, issued]

theorem exec_stt_empty (empty : tile.rows = 0 ∨ tile.cols = 0 ∨ m.grains = 0) :
    exec (.stt (.thread c t) w) s = .next (thenNext s (emptyCg s (.thread c t) (cgField w)) (.thread c t) n) := by
  refine (runInstr_done h ((afterSlot_fresh _ fresh).trans ?_) : execStt (.thread c t) w s = _)
  simp [onCore, src, dst, fits, or_assoc, empty]

end

end

/-! ### MOVT (R97, R136) -/

/-- The state with `k` requests counted in the completion group of an instruction, if it names one. -/
def grouped (s : State) (a : Agent) (w : Word) (k : Nat) : State :=
  match cgField w with
  | none => s
  | some g => issueCg s a g k

section
variable {s : State} {a : Agent} {n : Nat} {w : Word} {src dst : Tensor} (h : Issues rowMovt s a n w)
  (reads : tensorOf (dOf s a (iSrc1 w)) = some src) (writes : tensorOf (dOf s a (iDst w)) = some dst)
include h reads writes

/-- Tensors that differ in format, layout or size are a descriptor fault of the core. -/
theorem exec_movt_differ (onCore : ∀ code own, reported a code own = false)
    (differ : src.fmt ≠ dst.fmt ∨ src.layout ≠ dst.layout ∨ src.grains ≠ dst.grains) :
    exec (.movt a w) s = .next (ctxFault s n (faultOf s a fcDescriptor 0 w (threadOf s a).ip (threadOf s a).block)) := by
  refine (runInstr_ctxFault (own := false) h ?_ (onCore _ _) : execMovt a w s = _)
  simp [reads, writes, or_assoc, differ, descFault]

section
variable (fmt : src.fmt = dst.fmt) (layout : src.layout = dst.layout) (size : src.grains = dst.grains)
include fmt layout size

/-- Every grain of the source is requested, once its requests are counted. -/
theorem exec_movt_issues (grains : 0 < src.grains) (readable : tensorBad s n src false = none) (writable : tensorBad s n dst true = none) :
    exec (.movt a w) s =
      .next (thenNext s ((movtReqs (grouped s a w src.grains) a n (cgField w) src dst).foldl addReq (grouped s a w src.grains)) a n) := by
  refine (runInstr_done h ?_ : execMovt a w s = _)
  simp only [reads, writes, fmt, layout, ← size, grains.ne', readable, writable, bne_self_eq_false, Bool.or_self, Bool.false_eq_true,
    if_false]
  rfl

theorem exec_movt_empty (empty : src.grains = 0) :
    exec (.movt a w) s = .next (thenNext s (emptyCg s a (cgField w)) a n) := by
  refine (runInstr_done h ?_ : execMovt a w s = _)
  simp [reads, writes, fmt, layout, ← size, empty]

end

end

/-! ### Prefetch schedules: arming and stopping (R97, R137, R220) -/

section
variable {s : State} {a : Agent} {n : Nat} {w : Word}

section
variable (h : Issues (rowPfs 0) s a n w) (ok : pfsDescOk a (dOf s a (iSrc1 w)) = true) (room : schedsOf s a < schedLimit a)
include h ok room

theorem exec_pfsArm_arms (some : (schedOf a n w (threadOf s a).ip (threadOf s a).block (dOf s a (iSrc1 w))).length ≠ 0)
    (noGroup : cgField w = none) :
    exec (.pfsArm a w) s = .next (thenNext s { s with
      scheds := tput s.scheds s.nextSched (schedOf a n w (threadOf s a).ip (threadOf s a).block (dOf s a (iSrc1 w)))
      nextSched := s.nextSched + 1 } a n) := by
  refine (runInstr_done h ?_ : execPfsArm a w s = _)
  simp [ok, room, some, noGroup]

theorem exec_pfsArm_empty (empty : (schedOf a n w (threadOf s a).ip (threadOf s a).block (dOf s a (iSrc1 w))).length = 0) :
    exec (.pfsArm a w) s = .next (thenNext s (emptyCg s a (cgField w)) a n) := by
  refine (runInstr_done h ?_ : execPfsArm a w s = _)
  simp [ok, room, empty]

end

section
variable (h : Issues (rowPfs 1) s a n w) (ok : pfsDescOk a (dOf s a (iSrc1 w)) = true)
include h ok

theorem exec_pfsStop_stops {id : Nat} {k : Sched} (noGroup : cgField w = none)
    (armed : (s.scheds.find? fun e => schedIs e.2 (schedOf a n w 0 0 (dOf s a (iSrc1 w)))) = some (id, k)) :
    exec (.pfsStop a w) s = .next (thenNext s (schedCheck { s with scheds := tput s.scheds id { k with stopped := true } } id) a n) := by
  refine (runInstr_done h ?_ : execPfsStop a w s = _)
  simp [ok, noGroup, armed]

/-- A stop of a schedule that is not armed counts as one completed request. -/
theorem exec_pfsStop_absent (absent : (s.scheds.find? fun e => schedIs e.2 (schedOf a n w 0 0 (dOf s a (iSrc1 w)))) = none) :
    exec (.pfsStop a w) s = .next (thenNext s (emptyCg s a (cgField w)) a n) := by
  refine (runInstr_done h ?_ : execPfsStop a w s = _)
  simp [ok, absent]

end

end

/-! ### Prefetch schedules: the gate and the entries (R221, R222) -/

/-- What starting the next entry leaves: on the core of a schedule that loads a ring, and else on the hub. -/
def entryStarted (s : State) (id : Nat) (d : Sched) (src dst k : Nat) : State :=
  match d.owner, entrySlot s d with
  | .thread c _, some (key, off, _) => if d.target = 0 then startCoreEntry s id c d key off src k else startHubEntry s id d src dst k
  | _, _ => startHubEntry s id d src dst k

/-- A tier-to-tier schedule has its entries on the hub, whatever its owner and the slot of a ring of its number. -/
theorem entryStarted_hub {s : State} {id src dst k : Nat} {d : Sched} (target : d.target = 1) :
    entryStarted s id d src dst k = startHubEntry s id d src dst k := by
  unfold entryStarted
  split
  · simp [target]
  · rfl

theorem entryStarted_core {s : State} {id c t key off sz src dst k : Nat} {d : Sched} (target : d.target = 0)
    (owner : d.owner = .thread c t) (slot : entrySlot s d = some (key, off, sz)) :
    entryStarted s id d src dst k = startCoreEntry s id c d key off src k := by simp [entryStarted, target, owner, slot]

section
variable {s s' : State} {id : Nat} {d : Sched} (armed : tfind s.scheds id = some d) (goesOn : d.stopped = false)
  (left : d.started < d.length) (runs : schedRuns s d = true)
include armed goesOn left runs

/-- A gate word outside the commit window is read as an engine reads memory, and kept unless it is poisoned. -/
theorem exec_gatePoll_keeps {pa : Nat} {bs : List Byte} {tag : GrainTag} (gated : d.gateVa ≠ 0)
    (free : reshardHolds s d.ctx d.gateVa = false) (outside : windowGrain s d.ctx (d.gateVa / 256 * 256) = none)
    (mapped : translate s d.ctx d.gateVa false = .ok pa) (read : engineRead s d.ctx (d.gateVa / 256 * 256) = (bs, tag, s'))
    (clean : tag.poison = false) :
    exec (.gatePoll id) s =
      .next { s' with scheds := tput s'.scheds id { d with gateSeen := leNat (slice bs (d.gateVa % 256) 8) } } := by
  change execGatePoll id s = _
  simp [execGatePoll, armed, gated, goesOn, left, runs, free, outside, mapped, read, clean]

/-- An entry within the lead, read whole, with its gate open and its grains mapped starts. -/
theorem exec_prefetchEntryStart_starts {src dst k gate : Nat} (lead : d.inFlight.length ≤ d.lead)
    (free : reshardHolds s d.ctx (d.list + 32 * d.started) = false) (slot : d.target = 0 → (entrySlot s d).isSome = true)
    (read : readEntry s d = (.ok (src, dst, k, gate), s')) (opened : d.gateVa = 0 ∨ gate ≤ d.gateSeen)
    (readable : firstBad s' d.ctx src false k = none) (writable : d.target ≠ 0 → firstBad s' d.ctx dst true k = none) :
    exec (.prefetchEntryStart id) s = .next (entryStarted s' id d src dst k) := by
  change execPrefetchEntryStart id s = _
  have mayStart : (d.stopped || d.length ≤ d.started || d.lead + 1 ≤ d.inFlight.length || !schedRuns s d ||
      reshardHolds s d.ctx (d.list + 32 * d.started) || (d.target == 0 && (entrySlot s d).isNone)) = false := by
    simpa [goesOn, left, lead, runs, free, Option.isSome_iff_ne_none] using slot
  have gateOpen : (d.gateVa != 0 && decide (d.gateSeen < gate)) = false := by simpa [Decidable.imp_iff_not_or] using opened
  have grains : (if d.target = 0 then none else firstBad s' d.ctx dst true k) = none := by
    split
    next => rfl
    next hub => exact writable hub
  simp only [execPrefetchEntryStart, armed, mayStart, read, gateOpen, readable, grains, Bool.false_eq_true, if_false]
  unfold entryStarted
  cases d.owner with
  | ctl m => rfl
  | thread c t =>
    cases entrySlot s' d with
    | none => rfl
    | some e => exact (apply_ite Outcome.next (d.target = 0) _ _).symm

end

/-- Settles O16: each clause by what its instruction or event does in the case that it names. -/
theorem movementResults : Obligations.MovementResults := by
  refine ⟨fun s s' r c t n w tile m h fresh dst src fits rows cols grains well free issued =>
      exec_ldt_issues h fresh dst src fits rows cols grains well free issued,
    fun s s' r c t n w tile m h fresh src dst fits rows cols grains well free issued =>
      exec_stt_issues h fresh src dst fits rows cols grains well free issued,
    fun s a n w src dst h reads writes fmt layout size grains readable writable =>
      exec_movt_issues h reads writes fmt layout size grains readable writable,
    fun s c t n v w h woken => exec_ldt_woken h woken,
    fun s c t n v w h woken => exec_stt_woken h woken,
    fun s c t n w tile m h fresh dst src fits empty => exec_ldt_empty h fresh dst src fits empty,
    fun s c t n w tile m h fresh src dst fits empty => exec_stt_empty h fresh src dst fits empty,
    fun s a n w src dst h reads writes fmt layout size empty => exec_movt_empty h reads writes fmt layout size empty,
    ?_, ?_,
    fun s a n w h ok room empty => exec_pfsArm_empty h ok room empty,
    fun s a n id w k h ok noGroup armed => exec_pfsStop_stops h ok noGroup armed,
    fun s a n w h ok absent => exec_pfsStop_absent h ok absent,
    fun s s' id pa d bs tag armed gated goesOn left runs free outside mapped read clean =>
      exec_gatePoll_keeps armed goesOn left runs gated free outside mapped read clean,
    fun s s' id src dst k gate d armed target goesOn left lead runs free read opened readable writable =>
      (exec_prefetchEntryStart_starts armed goesOn left runs lead free (by simp [target]) read opened readable
        fun _ => writable).trans (congrArg Outcome.next (entryStarted_hub target)),
    fun s s' id c t key off sz src dst k gate d armed target owner goesOn left lead runs free slot read opened readable next =>
      (exec_prefetchEntryStart_starts armed goesOn left runs lead free (fun _ => slot) read opened readable
        (absurd target)).trans (congrArg Outcome.next (entryStarted_core target owner next))⟩
  · rintro s a n w src dst h reads writes differ c t rfl
    exact exec_movt_differ h reads writes (fun _ _ => rfl) differ
  · rintro s a n w k h rfl ok room some noGroup
    exact exec_pfsArm_arms h ok room some noGroup

end Machine
end Sys2Proof
end

section
/-! The proofs of the statements of 02_cores_and_firing, third part: the ends of requests and the banks (R28, R49, R50, R135, R381,
R414, R439, R462). -/

namespace Sys2Proof
namespace Machine

open Host

section
variable {s : State} {id c : Nat} {r : MReq}

/-- A live context neither ends nor has ended. -/
theorem notOver_of_live {x : Ctx} (live : x.state = ctxLive) : x.state ≠ ctxEnding ∧ x.state ≠ ctxEnded ∧ x.state ≠ ctxFree := by
  simp [live, ctxLive, ctxEnding, ctxEnded, ctxFree]

/-! ### Responses (R28, R49, R135, R381) -/

/-- A response grain whose check holds lands as it is. -/
theorem respond_whole (check : r.tag.check = crc32c r.data) :
    respond s id r false = afterReq (endReq s id r.code r.data r.tag) r.core := by simp [respond, check]

/-- A response of a live context reaches its engine, or its core where the die's clock runs. -/
theorem exec_grainResponse_responds (corrupt : Bool) (found : getMReq s id = some r) (read : r.isWrite = false)
    (served : r.phase = .served) (live : (getCtx s r.ctx).state = ctxLive) (runs : ∀ c, r.core = some c → dieStopped s c = false) :
    exec (.grainResponse id corrupt) s = .next (respond s id r corrupt) := by
  change execGrainResponse id corrupt s = _
  cases core : r.core with
  | none => simp [execGrainResponse, found, read, served, core, notOver_of_live live]
  | some c => simp [execGrainResponse, found, read, served, core, runs c core, notOver_of_live live]

/-- For a core whose die's clock is stopped it waits at the bridge edge. -/
theorem exec_grainResponse_waits (corrupt : Bool) (found : getMReq s id = some r) (read : r.isWrite = false)
    (served : r.phase = .served) (live : (getCtx s r.ctx).state = ctxLive) (core : r.core = some c) (stopped : dieStopped s c = true) :
    exec (.grainResponse id corrupt) s = .next (holdAtEdge s c (.grain id corrupt)) := by
  change execGrainResponse id corrupt s = _
  simp [execGrainResponse, found, read, served, core, stopped, notOver_of_live live]

/-! ### Acknowledgements (R28, R462) -/

theorem exec_writeAck_live (found : getMReq s id = some r) (write : r.isWrite = true) (served : r.phase = .served)
    (live : (getCtx s r.ctx).state = ctxLive) : exec (.writeAck id) s = .next (ackAtCore s id r) := by
  change execWriteAck id s = _
  simp [execWriteAck, found, write, served, notOver_of_live live]

theorem exec_writeAck_ending (found : getMReq s id = some r) (write : r.isWrite = true) (served : r.phase = .served)
    (ending : (getCtx s r.ctx).state = ctxEnding) : exec (.writeAck id) s = .next (discardReq s id r) := by
  change execWriteAck id s = _
  simp [execWriteAck, found, write, served, ending]

theorem ackAtCore_runs (runs : ∀ c, r.core = some c → dieStopped s c = false) : ackAtCore s id r = ackWrite s id r := by
  unfold ackAtCore
  split
  next c core => simp [runs c core]
  next => rfl

theorem ackAtCore_stopped (core : r.core = some c) (stopped : dieStopped s c = true) :
    ackAtCore s id r = holdAtEdge s c (.grain id false) := by simp [ackAtCore, core, stopped]

end

/-! ### Back-invalidates of a grain's lines (R414) -/

theorem foldl_biSnoop_out (ls : List Nat) (s : State) :
    (ls.foldl (fun s l => Machine.emit s (.biSnoop l)) s).out = s.out ++ ls.map Out.biSnoop := by
  induction ls generalizing s with
  | nil => simp
  | cons l ls ih => simp [ih]

theorem foldl_biSnoop_host (ls : List Nat) (s : State) :
    (ls.foldl (fun s l => Machine.emit s (.biSnoop l)) s).host = s.host :=
  foldl_keeps (p := State.host) (f := fun s l => Machine.emit s (.biSnoop l)) (fun _ _ => rfl) ls s

/-- A grain of which the host may hold no line has nothing to invalidate. -/
theorem invalidateGrain_of_notHeld {s : State} {pa : Nat} (notHeld : heldLines s pa = []) : invalidateGrain s pa = s := by
  have others : (s.host.snoop.filter fun l => !(l / 4 == pa / 256)) = s.host.snoop := by
    simpa [heldLines] using notHeld
  have held : (s.host.snoop.filter fun l => l / 4 == pa / 256) = [] := notHeld
  simp only [invalidateGrain, snoopLines, held, others, List.foldl_nil, List.length_nil, Nat.add_zero, List.append_nil]

theorem invalidateGrain_out (s : State) (pa : Nat) :
    (invalidateGrain s pa).out = s.out ++ (heldLines s pa).map Out.biSnoop := foldl_biSnoop_out _ s

theorem invalidateGrain_bisnp (s : State) (pa : Nat) :
    (invalidateGrain s pa).host.bisnp = s.host.bisnp + (heldLines s pa).length :=
  congrArg (fun h : HostSide => h.bisnp + (heldLines s pa).length) (foldl_biSnoop_host (heldLines s pa) s)

theorem invalidateGrain_biLines (s : State) (pa : Nat) :
    (invalidateGrain s pa).host.biLines = s.host.biLines ++ heldLines s pa :=
  congrArg (fun h : HostSide => h.biLines ++ heldLines s pa) (foldl_biSnoop_host (heldLines s pa) s)

/-- A write to a grain with held lines waits for the host's answers. -/
theorem biWaits_invalidateGrain {s : State} {pa : Nat} (held : heldLines s pa ≠ []) : biWaits (invalidateGrain s pa) pa = true := by
  obtain ⟨l, mem⟩ := List.exists_mem_of_ne_nil _ held
  rw [biWaits, invalidateGrain_biLines, List.any_append, List.any_eq_true.mpr ⟨l, mem, (List.mem_filter.mp mem).2⟩, Bool.or_true]

/-! ### The request that a bank serves next (R50) -/

theorem minBy_eq_none {α : Type} {key : α → Nat} {l : List α} (h : minBy key l = none) : l = [] := by
  cases l with
  | nil => rfl
  | cons x xs =>
    rw [minBy] at h
    split at h
    · cases h
    · split at h <;> cases h

/-- The element that `minBy` gives is of the list, and no key is less than its. -/
theorem minBy_spec {α : Type} {key : α → Nat} {l : List α} {m : α} (h : minBy key l = some m) :
    m ∈ l ∧ ∀ x ∈ l, key m ≤ key x := by
  induction l generalizing m with
  | nil => cases h
  | cons x xs ih =>
    rw [minBy] at h
    split at h
    next none =>
      cases h
      simp [minBy_eq_none none]
    next y some =>
      obtain ⟨mem, least⟩ := ih some
      split at h
      next le =>
        cases h
        exact ⟨.head _, List.forall_mem_cons.mpr ⟨le_rfl, fun z hz => le.trans (least z hz)⟩⟩
      next gt =>
        cases h
        exact ⟨.tail _ mem, List.forall_mem_cons.mpr ⟨by omega, least⟩⟩

/-- Whether an accepted request may be served at a bank now: it lies there, and no earlier access of its thread comes first. -/
def servable (s : State) (bank : Nat) (r : MReq) : Bool :=
  r.phase == .queued && (r.tier == 1 || r.tier == 2) && bankOf s.mem.hintGroups r.pa == bank && !mustWait s r

theorem servable_iff {s : State} {bank : Nat} {r : MReq} : servable s bank r = true ↔
    r.phase = .queued ∧ (r.tier = 1 ∨ r.tier = 2) ∧ bankOf s.mem.hintGroups r.pa = bank ∧ mustWait s r = false := by
  simp [servable, and_assoc]

/-- The requests that a bank may serve now. -/
def waitingAt (s : State) (bank : Nat) : List (Nat × MReq) := s.mem.reqs.filter fun e => servable s bank e.2

theorem mem_waitingAt {s : State} {bank : Nat} {e : Nat × MReq} :
    e ∈ waitingAt s bank ↔ e ∈ s.mem.reqs ∧ servable s bank e.2 = true := List.mem_filter

/-- A bank serves the servable request accepted first and, of equals, the one of the lowest source. -/
theorem nextAtBank_spec {s : State} {bank id : Nat} {r : MReq} (next : nextAtBank s bank = some (id, r)) :
    servable s bank r = true ∧ ∀ k q, (k, q) ∈ s.mem.reqs → servable s bank q = true →
      r.stamp ≤ q.stamp ∧ (q.stamp = r.stamp → r.source ≤ q.source) := by
  unfold nextAtBank at next
  dsimp only at next
  split at next
  · cases next
  next m first =>
  obtain ⟨-, earliest⟩ := minBy_spec (l := waitingAt s bank) first
  obtain ⟨mem, lowest⟩ := minBy_spec (l := (waitingAt s bank).filter fun e => e.2.stamp == m.2.stamp) next
  simp only [List.mem_filter, mem_waitingAt, beq_iff_eq] at mem earliest lowest
  obtain ⟨⟨-, can⟩, same⟩ := mem
  refine ⟨can, fun k q listed may => ?_⟩
  have late := earliest (k, q) ⟨listed, may⟩
  exact ⟨same ▸ late, fun equal => lowest (k, q) ⟨⟨listed, may⟩, equal.trans same⟩⟩

/-! ### What a bank serves (R50, R230, R414, R439) -/

@[simp] theorem getMReq_setMReq (s : State) (id : Nat) (r : MReq) : getMReq (setMReq s id r) id = some r := tfind_tput_same _ _ _

@[simp] theorem setMReq_cells (s : State) (id : Nat) (r : MReq) : (setMReq s id r).mem.cells = s.mem.cells := rfl

section
variable {s : State} {bank id : Nat} {r : MReq}

/-- A stack in self-refresh serves nothing. -/
theorem exec_bankServe_asleep (asleep : bankAsleep s bank = true) : exec (.bankServe bank) s = .next s := by
  change execBankServe bank s = _
  simp [execBankServe, asleep]

section
variable (noHold : s.pwr.inHold = false) (awake : bankAsleep s bank = false) (next : nextAtBank s bank = some (id, r))
include noHold awake next

theorem exec_bankServe_outside (outside : fromOutside r = true) :
    exec (.bankServe bank) s = .next (serveOutside (modMem s fun m => { m with reqs := tdel m.reqs id }) r) := by
  change execBankServe bank s = _
  simp [execBankServe, noHold, awake, next, outside]

/-- A read takes the grain as it lies where it is served; one served at the mirror counts a failover. -/
theorem exec_bankServe_read {q : Nat} (inside : fromOutside r = false) (read : r.isWrite = false) (place : servePa s r.pa = q)
    (inService : unitLost s q = false) :
    exec (.bankServe bank) s = .next (setMReq
      (if q = r.pa then s else modMem s fun m => { m with mirrorFailovers := m.mirrorFailovers + 1 }) id
      { r with phase := .served, data := grainAt s q, tag := tagAt s q }) := by
  change execBankServe bank s = _
  simp only [execBankServe, noHold, awake, next, inside, read, place, inService, Bool.or_self, Bool.false_eq_true, if_false,
    Bool.not_false, if_true]
  split <;> rfl

/-- A write whose lines no one may hold is performed. -/
theorem exec_bankServe_write (inside : fromOutside r = false) (write : r.isWrite = true) (inService : unitLost s r.pa = false)
    (notHeld : heldLines s r.pa = []) (answered : biWaits s r.pa = false) :
    exec (.bankServe bank) s = .next (setMReq (performWrite s r) id { mergedReq s r with phase := .served }) := by
  change execBankServe bank s = _
  simp [execBankServe, noHold, awake, next, inside, write, inService, invalidateGrain_of_notHeld notHeld, answered]

/-- A write to a grain with held lines back-invalidates them and waits. -/
theorem exec_bankServe_invalidates (inside : fromOutside r = false) (write : r.isWrite = true) (inService : unitLost s r.pa = false)
    (lines : heldLines s r.pa ≠ []) :
    exec (.bankServe bank) s = .next (setMReq (invalidateGrain s r.pa) id { r with phase := .waitBi }) := by
  change execBankServe bank s = _
  simp [execBankServe, noHold, awake, next, inside, write, inService, biWaits_invalidateGrain lines]

end

end

/-- Settles O28: each response, acknowledgement and turn of a bank by its case, and the order of a bank by the least stamp and source. -/
theorem bankResults : Obligations.BankResults := by
  refine ⟨?_, ?_, ?_, ?_, ?_, ?_, ?_, ?_, ?_, ?_, ?_, ?_, ?_, ?_⟩
  · intro s id c r found read served live core runs check
    rw [exec_grainResponse_responds false found read served live (by simpa [core] using runs), respond_whole check]
  · intro s id c r found read served live core runs
    exact ⟨_, _, rfl, exec_grainResponse_responds true found read served live (by simpa [core] using runs)⟩
  · exact fun s id c r found read served live core stopped => exec_grainResponse_waits false found read served live core stopped
  · intro s id r found read served live core check
    rw [exec_grainResponse_responds false found read served live (by simp [core]), respond_whole check, core]
  · intro s id r found write served live runs
    rw [exec_writeAck_live found write served live, ackAtCore_runs runs, ackWrite]
  · intro s id c r found write served live core stopped
    rw [exec_writeAck_live found write served live, ackAtCore_stopped core stopped]
  · exact fun s id r found write served ending => exec_writeAck_ending found write served ending
  · exact fun s bank id r noHold awake next outside => exec_bankServe_outside noHold awake next outside
  · exact fun s bank asleep => exec_bankServe_asleep asleep
  · intro s bank id r noHold awake next inside read home inService
    rw [exec_bankServe_read noHold awake next inside read home inService, if_pos rfl]
  · intro s bank id q r noHold awake next inside read place mirror inService
    rw [exec_bankServe_read noHold awake next inside read place inService, if_neg mirror]
  · exact fun s bank id r noHold awake next inside write inService notHeld answered =>
      exec_bankServe_write noHold awake next inside write inService notHeld answered
  · exact fun s bank id r noHold awake next inside write inService lines =>
      ⟨_, exec_bankServe_invalidates noHold awake next inside write inService lines, by simp, by simp, invalidateGrain_out s r.pa,
        invalidateGrain_bisnp s r.pa⟩
  · intro s bank id r next
    obtain ⟨can, first⟩ := nextAtBank_spec next
    obtain ⟨queued, -, place, free⟩ := servable_iff.mp can
    exact ⟨queued, place, free, fun k q listed queued tier place free => first k q listed (servable_iff.mpr ⟨queued, tier, place, free⟩)⟩

end Machine
end Sys2Proof
end

section
/-! The proofs of the statements of 04_programming_model, first part: whether an instruction issues (R88 to R90), and the results of
AGOPEN and AGOUT (R81, R114, R115). -/

namespace Sys2Proof
namespace Machine

open Host

/-! ### The row of an instruction (R88 to R90) -/

/-- An instruction with a row is run by it. -/
theorem exec_of_rowOf {i : Instr} {row : Row} {a : Agent} {w : Word} (h : i.rowOf = some (row, a, w)) (s : State) :
    ∃ body, exec i s = runInstr row a w body s := by
  unfold Instr.rowOf at h
  split at h
  all_goals cases h
  all_goals exact ⟨_, rfl⟩

section
variable {row : Row} {a : Agent} {w : Word} {n : Nat} {s : State} (body : Nat → State → IRes)

/-- A legal instruction that its predicate does not select only takes its issue slot (R90). -/
theorem runInstr_unselected (reaches : Reaches row s a n w) (legal : legalFor row s a w = true)
    (skipped : selected (threadOf s a) w = false) : runInstr row a w body s = .next (thenNext s s a n) := by
  obtain ⟨ctx, can, cls, maj, sub, fetched⟩ := reaches
  simp [runInstr, issue, thenNext, ctx, can, cls, maj, sub, fetched, legal, skipped]

/-- A selected instruction of an agent that it does not run on, or whose extension word lies beyond its code, is illegal. -/
theorem runInstr_notAdmitted (reaches : Reaches row s a n w) (legal : legalFor row s a w = true)
    (taken : selected (threadOf s a) w = true) (refused : admits row s a w = false) :
    runInstr row a w body s = .next (faultEnd s a n fcIllegal w) := by
  obtain ⟨ctx, can, cls, maj, sub, fetched⟩ := reaches
  simp [runInstr, issue, faultEnd, ctx, can, cls, maj, sub, fetched, legal, taken, refused]

end

/-- Settles O3: every instruction is run by its row, and a row checks in this order whatever its body. -/
theorem issueRules : Obligations.IssueRules := by
  refine ⟨?_, ?_, ?_⟩
  · intro i row a w s n ofRow reaches legal skipped
    obtain ⟨body, run⟩ := exec_of_rowOf ofRow s
    rw [run, runInstr_unselected body reaches legal skipped]
  · intro i row a w s n ofRow reaches refused
    obtain ⟨body, run⟩ := exec_of_rowOf ofRow s
    rw [run, runInstr_illegal body reaches refused]
    rfl
  · intro i row a w s n ofRow reaches legal taken refused
    obtain ⟨body, run⟩ := exec_of_rowOf ofRow s
    rw [run, runInstr_notAdmitted body reaches legal taken refused]
    rfl

/-! ### AGOPEN (R81, R114) -/

section
variable {s s' : State} {c t n : Nat} {w : Word} (h : Issues rowAgopen s (.thread c t) n w)
  (closed : (getAg (getCore s c) (iDst w)).isOpen = false) (fits : agAreaOk (getCore s c) (getAg (getCore s c) (iDst w)) = true)
include h closed fits

theorem exec_agopen_keeps (keeps : bit (iImm w) 0 = false) :
    exec (.agopen (.thread c t) w) s = .next (thenNext s (modCore s c fun x => setAg x (iDst w)
      { getAg (getCore s c) (iDst w) with isOpen := true, sat := false }) (.thread c t) n) := by
  refine (runInstr_done h ?_ : execAgopen (.thread c t) w s = _)
  simp [onCore, closed, fits, keeps]

/-- With zeros, the group's whole area is written. -/
theorem exec_agopen_zeros (zeroed : bit (iImm w) 0 = true) (area : (getAg (getCore s c) (iDst w)).area.2 ≠ 0)
    (free : guardSp s c t [] [(getAg (getCore s c) (iDst w)).area] = .ok s') :
    exec (.agopen (.thread c t) w) s = .next (thenNext s (modCore s' c fun x =>
      setAg (spPut x [((getAg (getCore s c) (iDst w)).base, zeros (getAg (getCore s c) (iDst w)).area.2)] []) (iDst w)
        { getAg (getCore s c) (iDst w) with isOpen := true, sat := false }) (.thread c t) n) := by
  refine (runInstr_done h ?_ : execAgopen (.thread c t) w s = _)
  simp only [onCore, closed, fits, zeroed, bne_iff_ne.mpr area, free, guarded, Bool.not_true, Bool.or_self, Bool.and_self,
    Bool.false_eq_true, if_false, if_true]
  rfl

end

/-! ### AGOUT (R115) -/

section
variable {s s' : State} {c t n : Nat} {w : Word} {o : Tile} {g : AccGroup} {te : Option Tile}
  (h : Issues rowAgout s (.thread c t) n w) (group : getAg (getCore s c) (iSrc1 w) = g)
  (rounds : rndOk (getCtx s n).num.s5emu (bits (iImm w) 27 25) = true)
  (out : tileFor (getCtx s n).num.s5emu (getCore s c) (dOf s (.thread c t) (iDst w)) = some o)
  (opened : g.isOpen = true) (rows : o.rows = g.rows) (cols : o.cols = g.cols) (notFmt0 : o.fmt ≠ 0) (notFmtC : o.fmt ≠ 0xC)
  (someRows : 0 < g.rows) (someCols : 0 < g.cols)
include h group rounds out opened rows cols notFmt0 notFmtC someRows someCols

/-- AGOUT of an open group of some size into a tile of its shape writes the tile and the predicate of R104. An epilogue tile `te`,
where the word names one, has the shape of its broadcast, and INT32 partial sums have none into an integer format. -/
theorem exec_agout
    (epilogue : (if bits (iImm w) 31 30 = 0 then some none
      else (tileFor (getCtx s n).num.s5emu (getCore s c) (dOf s (.thread c t) (iSrc2 w))).map some) = some te)
    (suits : ∀ e, te = some e →
      (e.rows, e.cols) = bcShape (bits (iImm w) 29 28) g.rows g.cols ∧ (g.acc = 1 → isIntF o.fmt = false))
    (apart : runsHit o.runs (g.area :: te.elim [] Tile.runs) = false)
    (free : guardSp s c t (g.area :: te.elim [] Tile.runs) o.runs = .ok s') :
    exec (.agout (.thread c t) w) s = .next (thenNext s (modThread (agoutRun s' (.thread c t) n c w o te).1 (.thread c t)
      (writeEpe (bit (iImm w) 22) (bits (iImm w) 21 19) (agoutRun s' (.thread c t) n c w o te).2)) (.thread c t) n) := by
  refine (runInstr_done h ?_ : execAgout (.thread c t) w s = _)
  cases te with
  | none =>
    rw [Option.elim_none] at apart free
    simp [onCore, group, epilogue, rounds, out, opened, rows, cols, notFmt0, notFmtC, someRows.ne', someCols.ne', apart, free,
      guarded, doneEpe]
  | some e =>
    obtain ⟨shape, format⟩ := suits e rfl
    have noIntoInteger : (g.acc == 1 && isIntF o.fmt) = false := by simpa using format
    rw [Option.elim_some] at apart free
    simp [onCore, group, epilogue, rounds, out, opened, rows, cols, notFmt0, notFmtC, someRows.ne', someCols.ne', apart, free,
      shape, noIntoInteger, guarded, doneEpe]

end

/-- Settles O12: both forms of AGOPEN, and AGOUT without and with an epilogue tile. -/
theorem groupResults : Obligations.GroupResults := by
  refine ⟨fun s c t n w h closed fits keeps => exec_agopen_keeps h closed fits keeps,
    fun s s' c t n w h closed fits zeroed area free => exec_agopen_zeros h closed fits zeroed area free, ?_, ?_⟩
  · intro s s' c t n w o g h group plain rounds out opened rows cols notFmt0 notFmtC someRows someCols apart free
    exact exec_agout (te := none) h group rounds out opened rows cols notFmt0 notFmtC someRows someCols (if_pos plain) (by simp)
      apart free
  · intro s s' c t n w o e g h group combined rounds out other shape format opened rows cols notFmt0 notFmtC someRows someCols apart
      free
    exact exec_agout (te := some e) h group rounds out opened rows cols notFmt0 notFmtC someRows someCols
      (by simp [combined, other]) (by simpa using ⟨shape, format⟩) apart free

end Machine
end Sys2Proof
end

section
/-! The proofs of the statements of 04_programming_model, second part: the registers of a bound thread (R79), loads of core programs
(R77), the clock gate (R29), starvation (R56), and what arrives at a core (R28, R62, R64, R95). -/

namespace Sys2Proof
namespace Machine

open Host

/-! ### What work at a core leaves alone -/

/-- Only the clock of the core's die changes. -/
theorem modDieOf_keeps (s : State) (c : Nat) (f : DieClk → DieClk) :
    (modDieOf s c f).cores = s.cores ∧ (modDieOf s c f).ctxs = s.ctxs ∧ (modDieOf s c f).mem = s.mem ∧
      (modDieOf s c f).serial = s.serial := by
  unfold modDieOf
  split <;> exact ⟨rfl, rfl, rfl, rfl⟩

@[simp] theorem dieWorked_cores (s : State) (c : Nat) : (dieWorked s c).cores = s.cores := (modDieOf_keeps s c _).1
@[simp] theorem dieWorked_ctxs (s : State) (c : Nat) : (dieWorked s c).ctxs = s.ctxs := (modDieOf_keeps s c _).2.1
@[simp] theorem dieWorked_mem (s : State) (c : Nat) : (dieWorked s c).mem = s.mem := (modDieOf_keeps s c _).2.2.1
@[simp] theorem dieWorked_serial (s : State) (c : Nat) : (dieWorked s c).serial = s.serial := (modDieOf_keeps s c _).2.2.2

@[simp] theorem getCore_dieWorked (s : State) (c k : Nat) : getCore (dieWorked s c) k = getCore s k := by simp [getCore]
@[simp] theorem getCore_bump (s : State) (k : Nat) : getCore (bump s) k = getCore s k := rfl

/-- Noting readiness changes the block states alone. -/
theorem refresh_eq (x : Core) (serial : Nat) : ∃ bs, refresh x serial = { x with blocks := bs } := by
  unfold refresh
  split
  · exact ⟨x.blocks, rfl⟩
  · exact ⟨_, rfl⟩

@[simp] theorem refresh_threads (x : Core) (serial : Nat) : (refresh x serial).threads = x.threads := by
  obtain ⟨bs, e⟩ := refresh_eq x serial
  rw [e]

@[simp] theorem refresh_eps (x : Core) (serial : Nat) : (refresh x serial).eps = x.eps := by
  obtain ⟨bs, e⟩ := refresh_eq x serial
  rw [e]

@[simp] theorem refresh_prog (x : Core) (serial : Nat) : (refresh x serial).prog = x.prog := by
  obtain ⟨bs, e⟩ := refresh_eq x serial
  rw [e]

@[simp] theorem refresh_sp (x : Core) (serial : Nat) : (refresh x serial).sp = x.sp := by
  obtain ⟨bs, e⟩ := refresh_eq x serial
  rw [e]

@[simp] theorem refresh_loading (x : Core) (serial : Nat) : (refresh x serial).loading = x.loading := by
  obtain ⟨bs, e⟩ := refresh_eq x serial
  rw [e]

@[simp] theorem touchCore_mem (s : State) (c : Nat) : (touchCore s c).mem = s.mem := by simp [touchCore, bump]

/-- A core that something arrives at is no longer gated, and its ready blocks are noted. -/
@[simp] theorem getCore_touchCore (s : State) (c : Nat) :
    getCore (touchCore s c) c = refresh { getCore s c with gated := false, idleRun := 0 } (s.serial + 1) := by
  simp only [touchCore, getCore_modCore, getCore_dieWorked, dieWorked_serial]
  rfl

/-! ### Binding (R39, R79) -/

@[simp] theorem getThread_refresh (x : Core) (serial t : Nat) : getThread (refresh x serial) t = getThread x t := by
  simp [getThread]

@[simp] theorem getThread_setThread_same (x : Core) (t : Nat) (v : Thread) : getThread (setThread x t v) t = v := by
  simp [getThread, setThread]

/-- A thread that claims packets holds them, and no thread changes otherwise. -/
theorem getThread_claimPackets (x : Core) (ep thr n t : Nat) :
    ∃ ps, getThread (claimPackets x ep thr n) t = { getThread x t with packets := ps } := by
  induction n generalizing x with
  | zero => exact ⟨_, rfl⟩
  | succ n ih =>
    rw [claimPackets]
    dsimp only
    split
    · exact ⟨_, rfl⟩
    · obtain ⟨ps, claimed⟩ := ih _
      rw [claimed]
      by_cases e : thr = t
      · subst e
        exact ⟨ps, by rw [getThread_setThread_same]; rfl⟩
      · exact ⟨ps, by rw [getThread, setThread, tget_tput_ne _ _ _ _ _ e]; rfl⟩

theorem getThread_claimOp (x : Core) (b thr t : Nat) (o : OpDecl) :
    ∃ ps, getThread (claimOp x b thr o) t = { getThread x t with packets := ps } := by
  unfold claimOp
  split
  · exact getThread_claimPackets x _ _ _ t
  · split <;> exact ⟨_, rfl⟩
  · exact ⟨_, rfl⟩
  · exact ⟨_, rfl⟩

theorem getThread_claimOps (ops : List OpDecl) (x : Core) (b thr t : Nat) :
    ∃ ps, getThread (ops.foldl (fun x o => claimOp x b thr o) x) t = { getThread x t with packets := ps } := by
  induction ops generalizing x with
  | nil => exact ⟨_, rfl⟩
  | cons o ops ih =>
    obtain ⟨ps, claims⟩ := ih (claimOp x b thr o)
    obtain ⟨qs, claim⟩ := getThread_claimOp x b thr t o
    exact ⟨ps, by rw [List.foldl_cons, claims, claim]⟩

/-- A bound thread is as R79 gives it, with the packets that its operands claimed. -/
theorem getThread_bindBlock (s : State) (c b t : Nat) (d : BlockDesc) :
    ∃ ps, getThread (getCore (bindBlock s c b t d) c) t =
      { boundThread c b ((getBlk (getCore s c) b).total + 1) d.entry (s.serial + 1) with packets := ps } := by
  simp only [bindBlock, getCore_modCore, getThread_refresh, getCore_dieWorked, getCore_bump, dieWorked_serial]
  obtain ⟨ps, claims⟩ := getThread_claimOps d.ops _ b t t
  exact ⟨ps, by rw [claims, getThread_setThread_same]; rfl⟩

/-- Binding changes its core and the clock of its die alone. -/
theorem bindBlock_keeps (s : State) (c b t : Nat) (d : BlockDesc) :
    (bindBlock s c b t d).mem = s.mem ∧ (bindBlock s c b t d).ctxs = s.ctxs ∧
      ∀ k, k ≠ c → getCore (bindBlock s c b t d) k = getCore s k := by
  refine ⟨by simp [bindBlock], by simp [bindBlock], fun k other => ?_⟩
  rw [bindBlock, getCore_modCore_ne _ _ _ _ other.symm, getCore_dieWorked, getCore_bump]

theorem getS_boundThread_ne {r : Nat} (c b total entry serial : Nat) (not1 : r ≠ 1) (not2 : r ≠ 2) (not3 : r ≠ 3) :
    getS (boundThread c b total entry serial) r = 0 := by
  rw [boundThread, getS_setS_ne _ _ _ _ not3.symm, getS_setS_ne _ _ _ _ not2.symm, getS_setS_ne _ _ _ _ not1.symm]
  simp [getS, Thread.reset, tget]

theorem exec_blockBind {s : State} {c b t since : Nat} {d : BlockDesc} (runs : coreRuns s c = true)
    (loaded : (getCore s c).loading = false) (first : minBy (fun e => e.2) (bindable (getCore s c)) = some (b, since))
    (free : freeThread (getCore s c) = some t) (desc : blockDesc (getCore s c) b = some d) :
    exec (.blockBind c) s = .next (bindBlock s c b t d) := by
  change execBlockBind c s = _
  simp [execBlockBind, runs, loaded, first, free, desc]

/-- Settles O24: a bound thread is a reset one with s1, s2 and s3 written; claiming its operands gives it packets alone. -/
theorem bindingRegisters : Obligations.BindingRegisters := by
  intro s c b t since d runs loaded first free desc
  obtain ⟨ps, bound⟩ := getThread_bindBlock s c b t d
  obtain ⟨mem, ctxs, others⟩ := bindBlock_keeps s c b t d
  refine ⟨_, exec_blockBind runs loaded first free desc, ?_⟩
  rw [bound]
  exact ⟨rfl, rfl, rfl, fun r not1 not2 not3 => getS_boundThread_ne c b ((getBlk (getCore s c) b).total + 1) d.entry (s.serial + 1)
    not1 not2 not3, fun _ => rfl, rfl, rfl, rfl, mem, ctxs, others⟩

/-! ### Loads of core programs (R76, R77) -/

section
variable {s s' : State} {n c : Nat} {j : LoadJob} (asked : (getCtx s n).loadp = some j) (last : j.cores = [c])
  (whole : j.failed = none) (own : (getCore s c).owner = some n) (loading : (getCore s c).loading = true)
  (ended : boundThreads (getCore s c) = []) (runs : coreRuns s c = true) (free : imageHeld s n j.va = false)
include asked last whole own loading ended runs free

/-- An image that its check passes is installed; the last core of the load wakes the control thread with 0. -/
theorem exec_loadProceed_installs {im : Image} (read : readProgram s n c j.va = (.ok im, s')) :
    exec (.loadProceed n c) s =
      .next (wakeAgent (modCtx (installImage s' c im) n fun x => { x with loadp := none }) (.ctl n) (some 0)) := by
  change execLoadProceed n c s = _
  simp [execLoadProceed, asked, last, whole, own, loading, ended, runs, free, read]

/-- An image that its check refuses leaves the core without a program; the control thread finds the code. -/
theorem exec_loadProceed_rejects {e : Nat} (read : readProgram s n c j.va = (.error e, s')) :
    exec (.loadProceed n c) s =
      .next (wakeAgent (modCtx (rejectImage s' c) n fun x => { x with loadp := none }) (.ctl n) (some e)) := by
  change execLoadProceed n c s = _
  simp [execLoadProceed, asked, last, whole, own, loading, ended, runs, free, read]

end

/-- An installed image: its program, and its code and data in an otherwise empty scratchpad. -/
theorem installImage_spec (s : State) (c : Nat) (im : Image) :
    (getCore (installImage s c im) c).prog = some im.prog ∧
      (getCore (installImage s c im) c).sp = writeBytes (writeBytes [] 0 im.code) im.dataBase im.data ∧
      (getCore (installImage s c im) c).loading = false := by simp [installImage]

theorem rejectImage_spec (s : State) (c : Nat) :
    (getCore (rejectImage s c) c).prog = none ∧ (getCore (rejectImage s c) c).loading = false := by simp [rejectImage]

/-! ### The clock gate and starvation (R29, R56) -/

theorem exec_coreClockGate {s : State} {c : Nat} (idle : 4 ≤ (getCore s c).idleRun) (still : coreCanFire (getCore s c) = false)
    (clocked : (getCore s c).gated = false) :
    exec (.coreClockGate c) s = .next (modCore s c fun x => { x with gated := true }) := by
  change execCoreClockGate c s = _
  simp [execCoreClockGate, idle, still, clocked]

section
variable {s : State} {c n t : Nat} (own : (getCore s c).owner = some n) (since : (getCore s c).starvedSince = some t)
include own since

/-- At the stall limit the context faults, with the core in its record. -/
theorem exec_starvationFault_faults (enabled : s.clk.stallEnable = true) (limited : 0 < s.clk.stallLimitUs)
    (starves : starved (getCore s c) = true) (runs : coreRuns s c = true) (late : t + s.clk.stallLimitUs * 48 ≤ s.clk.tick) :
    exec (.starvationFault c) s =
      .next (ctxFault s n { FaultRec.reset with code := fcStarvation, core := c, tick := s.clk.tick }) := by
  change execStarvationFault c s = _
  simp [execStarvationFault, own, since, enabled, limited, starves, runs, now, usTicks, late]

theorem exec_starvationFault_waits (early : s.clk.tick < t + s.clk.stallLimitUs * 48) : exec (.starvationFault c) s = .next s := by
  change execStarvationFault c s = _
  simp [execStarvationFault, own, since, now, usTicks, early.not_ge]

end

/-! ### Words, credit and contributions (R28, R62, R64, R95) -/

section
variable {s : State} {c ep : Nat}

theorem exec_queueWordLand_lands (flying : (getEp (getCore s c) ep).inFlight ≠ []) (runs : coreRuns s c = true) :
    exec (.queueWordLand c ep) s = .next (landNext s c ep) := by
  change execQueueWordLand c ep s = _
  simp [execQueueWordLand, flying, runs]

theorem exec_queueWordLand_waits (flying : (getEp (getCore s c) ep).inFlight ≠ []) (halted : coreRuns s c = false)
    (stopped : dieStopped s c = true) : exec (.queueWordLand c ep) s = .next (holdAtEdge s c (.word c ep)) := by
  change execQueueWordLand c ep s = _
  simp [execQueueWordLand, flying, halted, stopped]

theorem exec_creditArrive_takes (flying : (getEp (getCore s c) ep).creditFlight ≠ 0) (opened : (getEp (getCore s c) ep).isOpen = true)
    (runs : coreRuns s c = true) : exec (.creditArrive c ep) s = .next (takeCredits s c ep) := by
  change execCreditArrive c ep s = _
  simp [execCreditArrive, flying, opened, runs]

end

@[simp] theorem wakeCore_mem (s : State) (c : Nat) (p : Nat → Park → Bool) : (wakeCore s c p).mem = s.mem := rfl

@[simp] theorem getCore_wakeCore (s : State) (c : Nat) (p : Nat → Park → Bool) :
    getCore (wakeCore s c p) c = wakeThreads (getCore s c) p := by simp [wakeCore]

@[simp] theorem getEp_setEp_same (x : Core) (ep : Nat) (e : Endpoint) : getEp (setEp x ep e) ep = e := by simp [getEp, setEp]

/-- Threads that wake, and blocks whose readiness is noted, leave the ends as they are. -/
@[simp] theorem getEp_wakeThreads (x : Core) (p : Nat → Park → Bool) (ep : Nat) : getEp (wakeThreads x p) ep = getEp x ep := rfl
@[simp] theorem getEp_refresh (x : Core) (serial ep : Nat) : getEp (refresh x serial) ep = getEp x ep := by simp [getEp]

/-- Credit that arrives adds to what its end has, and none of it stays in flight. -/
theorem getEp_takeCredits (s : State) (c ep : Nat) :
    getEp (getCore (takeCredits s c ep) c) ep = { getEp (getCore s c) ep with
      credits := (getEp (getCore s c) ep).credits + (getEp (getCore s c) ep).creditFlight, creditFlight := 0 } := by
  simp only [takeCredits, getCore_wakeCore, getEp_wakeThreads, getCore_touchCore, getEp_refresh, getCore_modCore]
  exact getEp_setEp_same (getCore s c) ep _

theorem takeCredits_mem (s : State) (c ep : Nat) : (takeCredits s c ep).mem = s.mem := by simp [takeCredits]

/-- A mailbox that takes a contribution changes its context alone. -/
theorem mailSettle_keeps (s : State) (n tag round : Nat) :
    (mailSettle s n tag round).cores = s.cores ∧ (mailSettle s n tag round).mem = s.mem := by
  unfold mailSettle
  dsimp only
  split
  · exact ⟨rfl, rfl⟩
  · split <;> exact ⟨rfl, rfl⟩

theorem mailAdd_keeps (s : State) (n : Nat) (m : Contribution) :
    (mailAdd s n m).cores = s.cores ∧ (mailAdd s n m).mem = s.mem := mailSettle_keeps _ n m.tag m.round

/-- The oldest contribution leaves its core's queue and is counted, and its word of credit returns. -/
theorem exec_summaryArrive {s : State} {n c k : Nat} {m : Contribution} {l : List Contribution} (core : coreKeyOf s n c = some k)
    (oldest : (getCore s k).sumFlight = m :: l) :
    exec (.summaryArrive n c) s = .next (wakeCore (mailAdd (modCore s k fun x => { x with
      sumFlight := l, sumCredit := x.sumCredit + 1 }) n m) k fun _ w => w == .sumCredit) := by
  change execSummaryArrive n c s = _
  simp [execSummaryArrive, core, oldest]

/-- Settles O25: each event by what it does where its condition is met, and by its waiting where it is not. -/
theorem firingEvents : Obligations.FiringEvents := by
  refine ⟨fun s s' n c j im asked last whole own loading ended runs free read =>
      exec_loadProceed_installs asked last whole own loading ended runs free read,
    fun s s' n c e j asked last whole own loading ended runs free read =>
      exec_loadProceed_rejects asked last whole own loading ended runs free read,
    installImage_spec, rejectImage_spec, fun s c idle still clocked => exec_coreClockGate idle still clocked,
    fun s c n t own since enabled limited starves runs late =>
      exec_starvationFault_faults own since enabled limited starves runs late,
    fun s c n t own since early => exec_starvationFault_waits own since early,
    fun s c ep flying runs => exec_queueWordLand_lands flying runs,
    fun s c ep flying halted stopped => exec_queueWordLand_waits flying halted stopped, ?_, ?_⟩
  · intro s c ep flying opened runs
    exact ⟨_, exec_creditArrive_takes flying opened runs, takeCredits_mem s c ep, by rw [getEp_takeCredits],
      by rw [getEp_takeCredits]⟩
  · intro s n c k m l core oldest
    obtain ⟨cores, mem⟩ := mailAdd_keeps (modCore s k fun x => { x with sumFlight := l, sumCredit := x.sumCredit + 1 }) n m
    refine ⟨_, exec_summaryArrive core oldest, ?_, ?_, mem⟩
    all_goals
      rw [getCore_wakeCore, getCore, cores]
      simp [wakeThreads]

end Machine
end Sys2Proof
end

section
/-! The proofs of the statements of 05_compute_instructions, first part: AGSET, MMA, ATTS and ATTV (R112, R113, R116 to R119). -/

namespace Sys2Proof
namespace Machine

open Host

/-! ### Shared by the engines -/

/-- The tile of descriptor register `r` of a core's thread, if the arithmetic mode of its context `n` admits one. -/
abbrev tileReg (s : State) (c t n r : Nat) : Option Tile :=
  tileFor (getCtx s n).num.s5emu (getCore s c) (dOf s (.thread c t) r)

/-- An instruction of some size that its guard lets proceed goes on from the state that the guard leaves. -/
theorem guarded_sized {p : Prop} [Decidable p] {s s' : State} {g : Guard} {r : IRes} {f : State → IRes} (sized : ¬p)
    (free : g = .ok s') : (if p then r else guarded s g f) = f s' := by
  rw [if_neg sized, free]
  rfl

/-! ### AGSET (R113) -/

section
variable {s : State} {c t n : Nat} {w v : Word}

theorem exec_agset_sets (h : Issues rowAgset s (.thread c t) n w) (word : sOf s (.thread c t) (iSrc1 w) = v)
    (reserved : fld v 63 62 = 0) (reservedLow : fld v 35 21 = 0) (closed : (getAg (getCore s c) (iDst w)).isOpen = false) :
    exec (.agset (.thread c t) w) s = .next (thenNext s (modCore s c fun x =>
      setAg x (iDst w) (agFields (getAg (getCore s c) (iDst w)) v)) (.thread c t) n) := by
  refine (runInstr_done h ?_ : execAgset (.thread c t) w s = _)
  simp [onCore, word, reserved, reservedLow, closed]

/-- A reserved field that is not 0, or an open group, is a descriptor fault. -/
theorem exec_agset_refuses (h : Issues rowAgset s (.thread c t) n w) (word : sOf s (.thread c t) (iSrc1 w) = v)
    (refused : fld v 63 62 ≠ 0 ∨ fld v 35 21 ≠ 0 ∨ (getAg (getCore s c) (iDst w)).isOpen = true) :
    exec (.agset (.thread c t) w) s = .next (faultEnd s (.thread c t) n fcDescriptor w) := by
  refine (runInstr_ctxFault (own := false) h ?_ rfl : execAgset (.thread c t) w s = _)
  simp [onCore, word, or_assoc, refused, descFault]

/-- AGSET has no modifiers: a word with an immediate is illegal. -/
theorem exec_agset_illegal (reaches : Reaches rowAgset s (.thread c t) n w) (modified : iImm w ≠ 0) :
    exec (.agset (.thread c t) w) s = .next (faultEnd s (.thread c t) n fcIllegal w) :=
  (runInstr_illegal _ reaches (by simp [legalFor, rowAgset, modified]) : execAgset (.thread c t) w s = _)

end

/-- Settles O11: AGSET by what its row answers in the three cases. -/
theorem agsetRule : Obligations.AgsetRule :=
  ⟨fun _ _ _ _ _ _ h word reserved reservedLow closed => exec_agset_sets h word reserved reservedLow closed,
    fun _ _ _ _ _ _ h word refused => exec_agset_refuses h word refused,
    fun _ _ _ _ _ reaches modified => exec_agset_illegal reaches modified⟩

/-! ### MMA (R112) -/

section
variable {s r : State} {c t n : Nat} {w : Word} {ta tb : Tile} {g : AccGroup} (h : Issues rowMma s (.thread c t) n w)
  (readA : tileReg s c t n (iSrc1 w) = some ta) (readB : tileReg s c t n (iSrc2 w) = some tb)
include h readA readB

/-- MMA of operands that fit each other and their open group does what follows the checks: nothing for a size of 0, and else the
product, under the guard of the runs that it uses. -/
theorem exec_mma (group : getAg (getCore s c) (iDst w) = g) (opened : g.isOpen = true)
    (acc : g.acc = b2n (intClass (bits (iImm w) 31 29))) (cls : classFits (bits (iImm w) 31 29) ta.fmt tb.fmt = true)
    (depth : ta.cols = tb.cols) (rows : g.rows = ta.rows) (cols : g.cols = tb.rows)
    (apart : runsHit (ta.runs ++ tb.runs) [g.area] = false)
    (result : (if ta.rows = 0 || tb.rows = 0 || ta.cols = 0 then .done s
      else guarded s (guardSp s c t (g.area :: (ta.runs ++ tb.runs)) [g.area]) fun s' =>
        .done (mmaRun s' n c (bits (iImm w) 31 29) (iDst w) (bit (iImm w) 28) ta tb)) = IRes.done r) :
    exec (.mma (.thread c t) w) s = .next (thenNext s r (.thread c t) n) := by
  refine (runInstr_done h ?_ : execMma (.thread c t) w s = _)
  simp only [onCore, group, readA, readB]
  rw [if_neg (by simp [opened, acc, cls, depth, rows, cols, apart])]
  exact result

/-- A group that is not open, or a class or sizes that the tiles do not fit, is a descriptor fault. -/
theorem exec_mma_refuses (refused : (getAg (getCore s c) (iDst w)).isOpen = false ∨
      classFits (bits (iImm w) 31 29) ta.fmt tb.fmt = false ∨ ta.cols ≠ tb.cols) :
    exec (.mma (.thread c t) w) s = .next (faultEnd s (.thread c t) n fcDescriptor w) := by
  refine (runInstr_ctxFault (own := false) h ?_ rfl : execMma (.thread c t) w s = _)
  simp only [onCore, readA, readB]
  refine if_pos ?_
  rcases refused with closed | unfit | depth
  · simp [closed]
  · simp [unfit]
  · simp [depth]

end

/-! ### ATTS (R116, R117) -/

/-- ATTS of float tiles that fit each other and their open FP32 group does what follows the checks: nothing for a size of 0, and
else the scores, under the guard of the runs that it uses. -/
theorem exec_atts {s r : State} {c t n : Nat} {w : Word} {q : AttsArgs} {tq tk : Tile} {g : AccGroup}
    (h : Issues rowAtts s (.thread c t) n w) (group : getAg (getCore s c) (iDst w) = g)
    (args : attsArgs (codeWord (getCore s c) (iImm w)) (sOf s (.thread c t) (iSrc3 w)) = q)
    (readQ : tileReg s c t n (iSrc1 w) = some tq) (readK : tileReg s c t n (iSrc2 w) = some tk)
    (floatQ : isFloat tq.fmt = true) (floatK : isFloat tk.fmt = true) (opened : g.isOpen = true) (acc : g.acc = 0)
    (depth : tq.cols = tk.cols) (rows : tq.rows = g.rows) (cols : tk.rows ≠ 0 → q.col0 + tk.rows ≤ g.cols)
    (apart : runsHit (tq.runs ++ tk.runs) [g.area] = false)
    (result : (if tq.rows = 0 || tk.rows = 0 || tq.cols = 0 then .done s
      else guarded s (guardSp s c t (g.area :: (tq.runs ++ tk.runs)) [g.area]) fun s' =>
        .done (modCore s' c fun x => writeGroup x g q.col0
          (gridOf tq.rows tk.rows (attsElem (getCtx s n).num.s5emu x g q tq tk)))) = IRes.done r) :
    exec (.atts (.thread c t) w) s = .next (thenNext s r (.thread c t) n) := by
  refine (runInstr_done h ?_ : execAtts (.thread c t) w s = _)
  simp only [onCore, group, args, readQ, readK]
  rw [if_neg (by simpa [floatQ, floatK, opened, acc, depth, rows, apart] using cols)]
  exact result

/-! ### ATTV (R116, R118) -/

/-- ATTV of float tiles that fit each other and their open FP32 group, with or without a factor tile `tf` of FP32, does what
follows the checks: nothing for a size of 0, and else the weighted sums, under the guard of the runs that it uses. -/
theorem exec_attv {s r : State} {c t n : Nat} {w : Word} {tp tv : Tile} {tf : Option Tile} {g : AccGroup}
    (h : Issues rowAttv s (.thread c t) n w) (group : getAg (getCore s c) (iDst w) = g)
    (readP : tileReg s c t n (iSrc1 w) = some tp) (readV : tileReg s c t n (iSrc2 w) = some tv)
    (readF : (if bit (iImm w) 0 then (tileReg s c t n (iSrc3 w)).map some else some none) = some tf)
    (suits : ∀ f, tf = some f → f.fmt = 1 ∧ f.rows = tp.rows ∧ f.cols = 1)
    (floatP : isFloat tp.fmt = true) (floatV : isFloat tv.fmt = true) (opened : g.isOpen = true) (acc : g.acc = 0)
    (depth : tp.cols = tv.rows) (rows : g.rows = tp.rows) (cols : g.cols = tv.cols)
    (apart : runsHit (tp.runs ++ tv.runs ++ tf.elim [] Tile.runs) [g.area] = false)
    (result : (if tp.rows = 0 || tp.cols = 0 || tv.cols = 0 then .done s
      else guarded s (guardSp s c t (g.area :: (tp.runs ++ tv.runs ++ tf.elim [] Tile.runs)) [g.area]) fun s' =>
        .done (modCore s' c fun x => writeGroup x g 0
          (gridOf g.rows g.cols (attvElem (getCtx s n).num.s5emu x g tp tv tf)))) = IRes.done r) :
    exec (.attv (.thread c t) w) s = .next (thenNext s r (.thread c t) n) := by
  refine (runInstr_done h ?_ : execAttv (.thread c t) w s = _)
  simp only [onCore, group, readP, readV, readF]
  cases tf with
  | none =>
    rw [Option.elim_none] at apart result
    rw [if_neg (by simpa [floatP, floatV, opened, acc, depth, rows, cols] using apart)]
    exact result
  | some f =>
    obtain ⟨fmt, height, width⟩ := suits f rfl
    rw [Option.elim_some] at apart result
    rw [if_neg (by simpa [floatP, floatV, opened, acc, depth, rows, cols, fmt, height, width] using apart)]
    exact result

/-- Settles O13: each instruction of the matrix engine on operands of some size, ATTV without and with a factor tile, and MMA on
operands that do not fit. -/
theorem matrixResults : Obligations.MatrixResults := by
  refine ⟨?_, ?_, ?_, ?_, fun s c t n w ta tb h readA readB refused => exec_mma_refuses h readA readB refused⟩
  · intro s s' c t n w ta tb g h group readA readB opened acc cls depth rows cols someRows someCols someDepth apart free
    exact exec_mma h readA readB group opened acc cls depth rows cols apart
      (guarded_sized (by simp [someRows.ne', someCols.ne', someDepth.ne']) free)
  · rintro s s' c t n w _ _ q tq tk g h group rfl rfl - args readQ readK floatQ floatK opened acc depth rows cols someRows someKeys
      someDepth apart free
    exact exec_atts h group args readQ readK floatQ floatK opened acc depth rows (fun _ => cols) apart
      (guarded_sized (by simp [someRows.ne', someKeys.ne', someDepth.ne']) free)
  · intro s s' c t n w tp tv g h group plain readP readV floatP floatV opened acc depth rows cols someRows someDepth someCols apart
      free
    exact exec_attv (tf := none) h group readP readV (by simp [plain]) (by simp) floatP floatV opened acc depth rows cols
      (by simpa using apart) (guarded_sized (by simp [someRows.ne', someDepth.ne', someCols.ne']) (by simpa using free))
  · intro s s' c t n w tp tv tf g h group scaled readP readV readF fmt height width floatP floatV opened acc depth rows cols someRows
      someDepth someCols apart free
    exact exec_attv (tf := some tf) h group readP readV (by simp [scaled, readF]) (by simp [fmt, height, width]) floatP floatV opened
      acc depth rows cols apart (guarded_sized (by simp [someRows.ne', someDepth.ne', someCols.ne']) free)

end Machine
end Sys2Proof
end

section
/-! The proofs of the statements of 05_compute_instructions, second part: the vector instructions (R121 to R128), and shapes with a
size of 0 (R112, R121). -/

namespace Sys2Proof
namespace Machine

open Host

/-! ### VFN (R121 to R123) -/

/-- VFN of tiles that fit its function and its output does what follows the checks, which the predicate of R104 ends. -/
theorem exec_vfn {s r : State} {c t n : Nat} {w : Word} {o ta : Tile} {tb tc : Option Tile} {q : VArgs}
    (h : Issues rowVfn s (.thread c t) n w) (rounds : rndOk (getCtx s n).num.s5emu (bits (iImm w) 25 23) = true)
    (out : tileReg s c t n (iDst w) = some o) (readA : tileReg s c t n (iSrc1 w) = some ta)
    (readB : (if unaryFn (bits (iImm w) 31 26) || bits (iImm w) 21 20 == 3 then some none
      else (tileReg s c t n (iSrc2 w)).map some) = some tb)
    (readC : (if usesC (bits (iImm w) 31 26) then (tileReg s c t n (iSrc3 w)).map some else some none) = some tc)
    (args : ({ fn := bits (iImm w) 31 26, bc := bits (iImm w) 21 20, scalar := (sOf s (.thread c t) (iSrc2 w)).toNat, fmt := o.fmt,
               emu := (getCtx s n).num.s5emu } : VArgs) = q)
    (fits : vfnOk q { a := ta, b := tb, c := tc } o = true)
    (result : (if o.rows = 0 || o.cols = 0 then
        doneEpe s (.thread c t) (bit (iImm w) 19) (bits (iImm w) 18 16) false
      else guarded s (guardSp s c t (tileRuns (VTiles.list { a := ta, b := tb, c := tc })) o.runs) fun s' =>
        let p := putTile s' c (rndCfg s' (.thread c t) n c w (bits (iImm w) 25 23) (bit (iImm w) 22)) o (fun _ _ => none)
          (gridOf o.rows o.cols (vfnElem (getCore s' c) q { a := ta, b := tb, c := tc }))
        doneEpe p.1 (.thread c t) (bit (iImm w) 19) (bits (iImm w) 18 16) p.2) = IRes.done r) :
    exec (.vfn (.thread c t) w) s = .next (thenNext s r (.thread c t) n) := by
  subst args
  refine (runInstr_done h ?_ : execVfn (.thread c t) w s = _)
  simp only [onCore, rounds, out, readA, readB, readC, fits, Bool.not_true, Bool.false_eq_true, if_false]
  exact result

/-! ### CVT (R124) -/

/-- CVT of tiles of one shape, in the formats that the word names, does what follows the checks, which the predicate of R104
ends. -/
theorem exec_cvt {s r : State} {c t n : Nat} {w : Word} {o ta : Tile} {use : Bool}
    (h : Issues rowCvt s (.thread c t) n w) (rounds : rndOk (getCtx s n).num.s5emu (bits (iImm w) 23 21) = true)
    (out : tileReg s c t n (iDst w) = some o) (readA : tileReg s c t n (iSrc1 w) = some ta)
    (outFmt : o.fmt = bits (iImm w) 31 28) (inFmt : ta.fmt = bits (iImm w) 27 24) (out0 : o.fmt ≠ 0) (outC : o.fmt ≠ 0xC)
    (in0 : ta.fmt ≠ 0) (inC : ta.fmt ≠ 0xC) (rows : ta.rows = o.rows) (cols : ta.cols = o.cols) (apart : outClear o [ta] = true)
    (scaled : (bits (iImm w) 15 14 == 1 && o.fmt != ta.fmt) = use)
    (result : (if o.rows = 0 || o.cols = 0 then
        doneEpe s (.thread c t) (bit (iImm w) 19) (bits (iImm w) 18 16) false
      else guarded s (guardSp s c t (ta.runs ++ (if use then o.runs else [])) o.runs) fun s' =>
        let p := if o.fmt = ta.fmt then (setCore s' c (cvtCopy (getCore s' c) ta o).1, (cvtCopy (getCore s' c) ta o).2)
          else putTile s' c (rndCfg s' (.thread c t) n c w (bits (iImm w) 23 21) (bit (iImm w) 20)) o
            (presentScale (getCore s' c) o use)
            (gridOf o.rows o.cols (cvtElem (getCtx s n).num.s5emu (getCore s' c) ta o use))
        doneEpe p.1 (.thread c t) (bit (iImm w) 19) (bits (iImm w) 18 16) p.2) = IRes.done r) :
    exec (.cvt (.thread c t) w) s = .next (thenNext s r (.thread c t) n) := by
  subst scaled
  refine (runInstr_done h ?_ : execCvt (.thread c t) w s = _)
  simp only [onCore, rounds, out, readA, ← outFmt, ← inFmt, Bool.not_true, Bool.false_eq_true, if_false]
  rw [if_neg (by simp [out0, outC, in0, inC, rows, cols, apart])]
  exact result

/-! ### VRED (R125, R126) -/

/-- VRED of a tile that its operation admits, into a tile `o` of the result's format and shape if it has one, and with credit for
the contribution if it sends one, does what follows the checks, which the predicate of R104 ends. -/
theorem exec_vred {s r : State} {c t n : Nat} {w : Word} {o : Option Tile} {ta : Tile} (h : Issues rowVred s (.thread c t) n w)
    (credit : bit (iImm w) 25 = true → 0 < (getCore s c).sumCredit)
    (out : (if bit (iImm w) 19 then some none else (tileReg s c t n (iDst w)).map some) = some o)
    (readA : tileReg s c t n (iSrc1 w) = some ta)
    (suits : ∀ u, o = some u → u.fmt = redFmt (bits (iImm w) 31 28) ta.fmt ∧
      (u.rows, u.cols) = redShape (bits (iImm w) 27 26) ta.rows ta.cols ∧ outClear u [ta] = true)
    (bitwise : 8 ≤ bits (iImm w) 31 28 → bits (iImm w) 31 28 ≤ 0xA → isIntF ta.fmt = true ∨ ta.fmt = 0)
    (result : (if ta.rows = 0 || ta.cols = 0 then
        doneEpe (if bit (iImm w) 25 then redSummary s c (iImm w) false (emptySummary ((redKind (bits (iImm w) 31 28)).getD 0)) else s)
          (.thread c t) (bit (iImm w) 18) (bits (iImm w) 17 15) false
      else guarded s (guardSp s c t ta.runs (o.elim [] Tile.runs)) fun s' =>
        doneEpe (vredRun s' c (getCtx s n).num.s5emu (iImm w) ta o).1 (.thread c t) (bit (iImm w) 18) (bits (iImm w) 17 15)
          (vredRun s' c (getCtx s n).num.s5emu (iImm w) ta o).2) = IRes.done r) :
    exec (.vred (.thread c t) w) s = .next (thenNext s r (.thread c t) n) := by
  refine (runInstr_done h ?_ : execVred (.thread c t) w s = _)
  have credited : (bit (iImm w) 25 && (getCore s c).sumCredit == 0) = false := by
    simpa [Nat.pos_iff_ne_zero] using credit
  have admitted : ((bits (iImm w) 31 28 == 8 || bits (iImm w) 31 28 == 9 || bits (iImm w) 31 28 == 0xA) &&
      !(isIntF ta.fmt || ta.fmt == 0)) = false := by
    simp only [Bool.and_eq_false_iff, Bool.or_eq_false_iff, beq_eq_false_iff_ne, Bool.not_eq_false', Bool.or_eq_true, beq_iff_eq]
    by_cases typed : isIntF ta.fmt = true ∨ ta.fmt = 0
    · exact .inr typed
    · have other : ¬(8 ≤ bits (iImm w) 31 28 ∧ bits (iImm w) 31 28 ≤ 0xA) := fun op => typed (bitwise op.1 op.2)
      exact .inl (by omega)
  simp only [onCore, credited, out, readA, admitted, Bool.false_eq_true, if_false, Bool.or_false]
  cases o with
  | none => exact result
  | some u =>
    obtain ⟨fmt, shape, apart⟩ := suits u rfl
    rw [if_neg (by simp [fmt, shape, apart])]
    exact result

/-! ### VCMP (R127) -/

/-- VCMP into a mask of A's shape, against a scalar or a tile of the shape of its broadcast, does what follows the checks, which
the predicate of R104 ends. -/
theorem exec_vcmp {s r : State} {c t n : Nat} {w : Word} {o ta : Tile} {tb : Option Tile} (h : Issues rowVcmp s (.thread c t) n w)
    (out : tileReg s c t n (iDst w) = some o) (readA : tileReg s c t n (iSrc1 w) = some ta)
    (readB : (if bits (iImm w) 28 27 = 3 then some none else (tileReg s c t n (iSrc2 w)).map some) = some tb)
    (rows : ta.rows = o.rows) (cols : ta.cols = o.cols)
    (shape : ∀ u, tb = some u → (u.rows, u.cols) = bcShape (bits (iImm w) 28 27) o.rows o.cols)
    (mask : o.fmt = 9 ∨ o.fmt = 0) (apart : outClear o (ta :: tb.toList) = true)
    (result : (if o.rows = 0 || o.cols = 0 then
        doneEpe s (.thread c t) (bit (iImm w) 26) (bits (iImm w) 25 23) false
      else guarded s (guardSp s c t (tileRuns (ta :: tb.toList)) o.runs) fun s' =>
        let rows := gridOf o.rows o.cols (vcmpElem (getCtx s n).num.s5emu (getCore s' c) (bits (iImm w) 31 29) (bits (iImm w) 28 27)
          (sOf s' (.thread c t) (iSrc2 w)).toNat ta tb)
        doneEpe (setCore s' c (writeTile (getCore s' c) o rows [])) (.thread c t) (bit (iImm w) 26) (bits (iImm w) 25 23)
          (rows.any fun r => r.any fun e => e.raw == 1)) = IRes.done r) :
    exec (.vcmp (.thread c t) w) s = .next (thenNext s r (.thread c t) n) := by
  refine (runInstr_done h ?_ : execVcmp (.thread c t) w s = _)
  simp only [onCore, out, readA, readB]
  cases tb with
  | none =>
    rw [if_neg (by simpa [rows, cols, or_iff_not_imp_left] using And.intro mask apart)]
    exact result
  | some u =>
    rw [if_neg (by simpa [rows, cols, shape u rfl, or_iff_not_imp_left] using And.intro mask apart)]
    exact result

/-! ### PEP (R128) -/

/-- PEP into a tile of the format of its kind of draw, outside the S5 emulation mode, does what follows the checks. -/
theorem exec_pep {s r : State} {c t n : Nat} {w : Word} {o : Tile} (h : Issues rowPep s (.thread c t) n w)
    (native : (getCtx s n).num.s5emu = false) (out : tileFor false (getCore s c) (dOf s (.thread c t) (iDst w)) = some o)
    (fmt : o.fmt = (if bits (iImm w) 31 30 = 0 then 0xB else if bits (iImm w) 31 30 = 1 then 1 else 9))
    (result : (if o.rows = 0 || o.cols = 0 then .done s
      else guarded s (guardSp s c t [] o.runs) fun s' =>
        let d := drawTile (rndCfg s' (.thread c t) n c w 0 false) (bit (iImm w) 29) (bits (iImm w) 28 25) o.rows o.cols
          (getCore s' c).pepper
        .done (setCore s' c (writeTile { getCore s' c with pepper := d.2 } o (d.1.map fun us => us.map fun u =>
          { raw := pepElem (bits (iImm w) 31 30) ((sOf s' (.thread c t) (iSrc1 w)).toNat % 2 ^ 32) u, poison := false })
            []))) = IRes.done r) :
    exec (.pep (.thread c t) w) s = .next (thenNext s r (.thread c t) n) := by
  refine (runInstr_done h ?_ : execPep (.thread c t) w s = _)
  simp only [onCore, native, out, ← fmt, bne_self_eq_false, Bool.false_eq_true, if_false]
  exact result

/-- Settles O15: each instruction of the vector engine on a shape of some size and on one with a size of 0, and those of the matrix
engine on the latter. -/
theorem vectorResults : Obligations.VectorResults := by
  refine ⟨?_, ?_, ?_, ?_, ?_, ?_, ?_, ?_, ?_, ?_, ?_, ?_, ?_, ?_⟩
  · rintro s s' c t n w o ta tb tc q _ h rounds out readA readB readC args fits someRows someCols free rfl
    exact exec_vfn h rounds out readA readB readC args fits (guarded_sized (by simp [someRows.ne', someCols.ne']) free)
  · rintro s s' c t n w o ta use _ h rounds out readA outFmt inFmt out0 outC in0 inC rows cols apart someRows someCols scaled free rfl
    exact exec_cvt h rounds out readA outFmt inFmt out0 outC in0 inC rows cols apart scaled
      (guarded_sized (by simp [someRows.ne', someCols.ne']) free)
  · rintro s s' c t n w o ta _ h credit out readA suits bitwise someRows someCols free rfl
    exact exec_vred h credit out readA suits bitwise
      (guarded_sized (by simp [someRows.ne', someCols.ne']) (by cases o <;> exact free))
  · rintro s s' c t n w o ta tb _ h out readA readB rows cols shape mask apart someRows someCols free rfl
    exact exec_vcmp h out readA readB rows cols shape mask apart (guarded_sized (by simp [someRows.ne', someCols.ne']) free)
  · rintro s s' c t n w o _ h native out fmt someRows someCols free rfl
    exact exec_pep h native out fmt (guarded_sized (by simp [someRows.ne', someCols.ne']) free)
  · intro s c t n w ta tb g h group readA readB opened acc cls depth rows cols empty apart
    exact exec_mma h readA readB group opened acc cls depth rows cols apart (if_pos (by simpa [or_assoc] using empty))
  · intro s c t n w o h native out fmt empty
    exact exec_pep h native out fmt (if_pos (by simpa using empty))
  · intro s c t n w o ta h rounds out readA outFmt inFmt out0 outC in0 inC rows cols apart empty
    exact exec_cvt h rounds out readA outFmt inFmt out0 outC in0 inC rows cols apart rfl (if_pos (by simpa using empty))
  · intro s c t n w q tq tk g h group _ args readQ readK floatQ floatK opened acc depth rows cols empty apart
    exact exec_atts h group args readQ readK floatQ floatK opened acc depth rows cols apart (if_pos (by simpa [or_assoc] using empty))
  · intro s c t n w tp tv g h group plain readP readV floatP floatV opened acc depth rows cols empty apart
    exact exec_attv (tf := none) h group readP readV (by simp [plain]) (by simp) floatP floatV opened acc depth rows cols
      (by simpa using apart) (if_pos (by simpa [or_assoc] using empty))
  · intro s c t n w tp tv tf g h group scaled readP readV readF fmt height width floatP floatV opened acc depth rows cols empty apart
    exact exec_attv (tf := some tf) h group readP readV (by simp [scaled, readF]) (by simp [fmt, height, width]) floatP floatV opened
      acc depth rows cols apart (if_pos (by simpa [or_assoc] using empty))
  · intro s c t n w o ta tb tc h rounds out readA readB readC fits empty
    exact exec_vfn h rounds out readA readB readC rfl fits (if_pos (by simpa using empty))
  · intro s c t n w o ta h credit out readA suits bitwise empty
    exact exec_vred h credit out readA suits bitwise (if_pos (by simpa using empty))
  · intro s c t n w o ta tb h out readA readB rows cols shape mask apart empty
    exact exec_vcmp h out readA readB rows cols shape mask apart (if_pos (by simpa using empty))

end Machine
end Sys2Proof
end

section
/-! The proofs of the statements of 06_movement_and_control_instructions, first part: SALU, SCMP, BR, DWR, NOP, RDSYS and SMEM (R156 to
R162, R99, R422). -/

namespace Sys2Proof
namespace Machine

open Host

/-! ### Fields of words -/

/-- An immediate of 25 bits is its own number with its sign. -/
theorem imm25_toInt (w : Word) :
    (imm25 w).toInt = if iImm w % 2 ^ 25 < 2 ^ 24 then ((iImm w % 2 ^ 25 : Nat) : Int)
      else ((iImm w % 2 ^ 25 : Nat) : Int) - 2 ^ 25 := by
  have small : iImm w % 2 ^ 25 < 2 ^ 25 := Nat.mod_lt _ (by norm_num)
  rw [imm25, sext, BitVec.toInt_ofInt]
  norm_num at small ⊢
  split
  all_goals
    rw [Int.bmod_def]
    omega

/-- The low bits of a number, from bit 0 on. -/
theorem bits_zero (v hi : Nat) : bits v hi 0 = v % 2 ^ (hi + 1) := rfl

/-- Register s0 reads 0 (R78). -/
theorem sOf_zero (s : State) (a : Agent) : sOf s a 0 = 0 := getS_zero _

/-! ### SALU (R156) -/

section
variable {s : State} {a : Agent} {c t n : Nat} {w : Word}

theorem exec_salu_fn (h : Issues rowSalu s a n w) (plain : iExt w = false) :
    exec (.salu a w) s = .next (thenNext s (putS s a (iDst w) (saluFn (bits (iImm w) 31 26) (sOf s a (iSrc1 w))
      (if bit (iImm w) 25 then imm25 w else sOf s a (iSrc2 w)))) a n) :=
  (runInstr_done h (if_neg (by simp [plain])) : execSalu a w s = _)

/-- The extended sum, with the word that the instruction names. -/
theorem exec_salu_ext {s' : State} {b : Word} (h : Issues rowSalu s a n w) (extended : iExt w = true)
    (word : extWord s a n w = (.ok b, s')) :
    exec (.salu a w) s = .next (thenNext s (putS s' a (iDst w) (sOf s a (iSrc1 w) + b)) a n) :=
  (runInstr_done h ((if_pos extended).trans (by rw [word])) : execSalu a w s = _)

theorem exec_salu_reserved (reaches : Reaches rowSalu s a n w) (plain : iExt w = false) (reserved : 0xA < bits (iImm w) 31 26) :
    exec (.salu a w) s = .next (faultEnd s a n fcIllegal w) :=
  (runInstr_illegal _ reaches (by simp [legalFor, rowSalu, plain, reserved]) : execSalu a w s = _)

end

/-- The eleven functions of SALU. -/
theorem saluFn_table (x b : Word) :
    saluFn 0 x b = x + b ∧ saluFn 1 x b = x - b ∧ saluFn 2 x b = x * b ∧ saluFn 3 x b = x &&& b ∧
    saluFn 4 x b = x ||| b ∧ saluFn 5 x b = x ^^^ b ∧ saluFn 6 x b = x <<< (b.toNat % 64) ∧ saluFn 7 x b = x >>> (b.toNat % 64) ∧
    saluFn 8 x b = x.sshiftRight (b.toNat % 64) ∧ (saluFn 9 x b).toNat = min x.toNat b.toNat ∧
    (saluFn 0xA x b).toNat = max x.toNat b.toNat := by
  refine ⟨rfl, rfl, rfl, rfl, rfl, rfl, rfl, rfl, rfl, ?_, ?_⟩
  · change (if x.toNat ≤ b.toNat then x else b).toNat = _
    rw [apply_ite BitVec.toNat, ← Nat.min_def]
  · change (if x.toNat ≤ b.toNat then b else x).toNat = _
    rw [apply_ite BitVec.toNat, ← Nat.max_def]

/-- Settles O5: SALU by what its row answers, plain and extended. -/
theorem saluRule : Obligations.SaluRule :=
  ⟨fun _ _ _ _ h plain => exec_salu_fn h plain, fun _ _ _ _ _ h extended => exec_salu_ext h extended rfl,
    fun _ _ _ _ _ _ h extended word => exec_salu_ext h extended word,
    fun _ _ _ _ reaches plain reserved => exec_salu_reserved reaches plain reserved, saluFn_table, imm25_toInt, sOf_zero⟩

/-! ### SCMP (R157) -/

section
variable {s : State} {a : Agent} {n : Nat} {w : Word}

theorem exec_scmp (h : Issues rowScmp s a n w) :
    exec (.scmp a w) s = .next (thenNext s (modThread s a fun t => setP t (iDst w) (scmpCc (bits (iImm w) 31 29)
      (sOf s a (iSrc1 w)) (if bit (iImm w) 28 then imm25 w else sOf s a (iSrc2 w)))) a n) :=
  (runInstr_done h rfl : execScmp a w s = _)

theorem legalFor_rowScmp_refused (bad : 5 < bits (iImm w) 31 29 ∨ bits (iImm w) 27 25 ≠ 0 ∨ iExt w = true) :
    legalFor rowScmp s a w = false := by
  rcases bad with reservedCc | reservedBits | extended
  · simp [legalFor, rowScmp, reservedCc]
  · simp [legalFor, rowScmp, reservedBits]
  · simp [legalFor, rowScmp, extended]

theorem exec_scmp_illegal (reaches : Reaches rowScmp s a n w)
    (bad : 5 < bits (iImm w) 31 29 ∨ bits (iImm w) 27 25 ≠ 0 ∨ iExt w = true) :
    exec (.scmp a w) s = .next (faultEnd s a n fcIllegal w) :=
  (runInstr_illegal _ reaches (legalFor_rowScmp_refused bad) : execScmp a w s = _)

end

/-- The six conditions of SCMP. -/
theorem scmpCc_table (x b : Word) :
    scmpCc 0 x b = decide (x = b) ∧ scmpCc 1 x b = decide (x ≠ b) ∧ scmpCc 2 x b = decide (x.toInt < b.toInt) ∧
    scmpCc 3 x b = decide (x.toInt ≤ b.toInt) ∧ scmpCc 4 x b = decide (x.toNat < b.toNat) ∧
    scmpCc 5 x b = decide (x.toNat ≤ b.toNat) :=
  ⟨beq_eq_decide x b, (congrArg not (beq_eq_decide x b)).trans decide_not.symm, rfl, rfl, rfl, rfl⟩

/-- Settles O6: SCMP by what its row answers, and by what its checks refuse. -/
theorem scmpRule : Obligations.ScmpRule :=
  ⟨fun _ _ _ _ h => exec_scmp h, scmpCc_table, imm25_toInt, fun _ _ _ _ reaches bad => exec_scmp_illegal reaches bad⟩

/-! ### DWR (R160) -/

/-- The words from which a descriptor with word `k` replaced is put together. -/
def setDwWord (d : BitVec 256) (k : Nat) (v : Word) (j : Nat) : Word := if j = k then v else dw d j

/-- Four numbers at the places of four words, as one number in base 2 ^ 64. -/
theorem four_places (a b c e : Nat) :
    0 + a <<< (64 * 0) + b <<< (64 * 1) + c <<< (64 * 2) + e <<< (64 * 3) = a + 2 ^ 64 * (b + 2 ^ 64 * (c + 2 ^ 64 * e)) := by
  simp only [Nat.shiftLeft_eq]
  norm_num
  omega

theorem setDw_eq (d : BitVec 256) (k : Nat) (v : Word) :
    setDw d k v = BitVec.ofNat 256 ((setDwWord d k v 0).toNat + 2 ^ 64 * ((setDwWord d k v 1).toNat +
      2 ^ 64 * ((setDwWord d k v 2).toNat + 2 ^ 64 * (setDwWord d k v 3).toNat))) := by
  rw [← four_places]
  rfl

/-- A number in base 2 ^ 64 with one more digit below it. -/
theorem digit_below {a y m : Nat} (ha : a < 2 ^ 64) (hy : y < m) :
    a + 2 ^ 64 * y < 2 ^ 64 * m ∧ (a + 2 ^ 64 * y) % 2 ^ 64 = a ∧ (a + 2 ^ 64 * y) / 2 ^ 64 = y := by
  norm_num at ha ⊢
  omega

/-- A word of a descriptor with one word replaced. -/
theorem dw_setDw (d : BitVec 256) (k j : Nat) (v : Word) (hj : j < 4) : dw (setDw d k v) j = setDwWord d k v j := by
  obtain ⟨below2, last2, above2⟩ := digit_below (setDwWord d k v 2).isLt (setDwWord d k v 3).isLt
  obtain ⟨below1, last1, above1⟩ := digit_below (setDwWord d k v 1).isLt below2
  obtain ⟨below0, last0, above0⟩ := digit_below (setDwWord d k v 0).isLt below1
  apply BitVec.eq_of_toNat_eq
  rw [setDw_eq, dw, BitVec.toNat_ofNat, BitVec.toNat_ofNat, Nat.mod_eq_of_lt (lt_of_lt_of_eq below0 (by norm_num)),
    Nat.shiftRight_eq_div_pow]
  interval_cases j
  · rw [Nat.mul_zero, Nat.pow_zero, Nat.div_one, last0]
  · rw [Nat.mul_one, above0, last1]
  · rw [Nat.mul_two, Nat.pow_add, ← Nat.div_div_eq_div_mul, above0, above1, last2]
  · rw [show 64 * 3 = 64 + 64 + 64 from rfl, Nat.pow_add, Nat.pow_add, ← Nat.div_div_eq_div_mul, ← Nat.div_div_eq_div_mul, above0,
      above1, above2, Nat.mod_eq_of_lt (setDwWord d k v 3).isLt]

/-- Settles O7: DWR by what its row answers, and the words of the descriptor that it leaves. -/
theorem dwrRule : Obligations.DwrRule :=
  ⟨fun _ _ _ _ h => (runInstr_done h rfl : execDwr _ _ _ = _), fun d k j v _ hj => dw_setDw d k j v hj,
    fun _ _ _ _ reaches reserved =>
      (runInstr_illegal _ reaches (by simp [legalFor, rowDwr, reserved]) : execDwr _ _ _ = _)⟩

/-! ### BR, NOP and RDSYS (R158, R161, R162, R99) -/

section
variable {s : State} {a : Agent} {c t m n : Nat} {w v : Word}

theorem exec_br (h : Issues rowBr s a n w) :
    exec (.br a w) s = .next (advance s a n
      (if bit (iImm w) 31 then (sOf s a (iSrc1 w)).toNat % 65536 else iImm w % 65536)) :=
  (runInstr_jump h rfl : execBr a w s = _)

theorem exec_nop (h : Issues (rowFlow 3 true true) s a n w) : exec (.nop a w) s = .next (thenNext s s a n) :=
  (runInstr_done h rfl : execNop a w s = _)

theorem exec_rdsysTick (h : Issues (rowRdsys 0) s a n w) :
    exec (.rdsysTick a w) s = .next (thenNext s (putS s a (iDst w) (w64 s.clk.tick)) a n) :=
  (runInstr_done h rfl : execRdsysTick a w s = _)

theorem exec_rdsysStatus_core (h : Issues (rowRdsys 1) s (.thread c t) n w) :
    exec (.rdsysStatus (.thread c t) w) s = .next (thenNext s (putS s (.thread c t) (iDst w) 0) (.thread c t) n) :=
  (runInstr_done h rfl : execRdsysStatus (.thread c t) w s = _)

theorem exec_rdsysStatus_ctl (h : Issues (rowRdsys 1) s (.ctl m) n w) :
    exec (.rdsysStatus (.ctl m) w) s = .next (thenNext s (putS
      (modCtx s n fun x => { x with ctl := { x.ctl with status := 0 } }) (.ctl m) (iDst w) (getCtx s n).ctl.status) (.ctl m) n) :=
  (runInstr_done h rfl : execRdsysStatus (.ctl m) w s = _)

theorem exec_rdsysCounter (h : Issues (rowRdsys 2) s a n w) (own : ownCounter s n (rdsysOff s a w) = some v) :
    exec (.rdsysCounter a w) s = .next (thenNext s (putS s a (iDst w) v) a n) :=
  (runInstr_done h (by rw [own]) : execRdsysCounter a w s = _)

/-- On a core, a counter that is not the context's own ends the context. -/
theorem exec_rdsysCounter_refused (h : Issues (rowRdsys 2) s (.thread c t) n w)
    (foreign : ownCounter s n (rdsysOff s (.thread c t) w) = none) :
    exec (.rdsysCounter (.thread c t) w) s = .next (faultEnd s (.thread c t) n fcProtection w) :=
  (runInstr_ctxFault (own := false) h (by rw [foreign]) rfl : execRdsysCounter (.thread c t) w s = _)

theorem exec_rdsysContext (h : Issues (rowRdsys 3) s a n w) :
    exec (.rdsysContext a w) s = .next (thenNext s (putS s a (iDst w) (w64 n)) a n) :=
  (runInstr_done h rfl : execRdsysContext a w s = _)

theorem exec_rdsysPeer (h : Issues (rowRdsys 4) s a n w) :
    exec (.rdsysPeer a w) s = .next (thenNext s (putS s a (iDst w) (w64 s.peers.self)) a n) :=
  (runInstr_done h rfl : execRdsysPeer a w s = _)

theorem exec_rdsysCtxRegister {k : Nat} (h : Issues (rowRdsys 5) s a n w)
    (own : ctxCounter (getCtx s n) (rdsysOff s a w) = some k) :
    exec (.rdsysCtxRegister a w) s = .next (thenNext s (putS s a (iDst w) (w64 k)) a n) :=
  (runInstr_done h (by rw [own]) : execRdsysCtxRegister a w s = _)

/-- On a control thread, an offset that names no counter is reported to the status register (R99). -/
theorem exec_rdsysCtxRegister_refused (h : Issues (rowRdsys 5) s (.ctl m) n w)
    (foreign : ctxCounter (getCtx s n) (rdsysOff s (.ctl m) w) = none) :
    exec (.rdsysCtxRegister (.ctl m) w) s = .next (thenNext s (modCtx s n fun x => { x with
      ctl := { x.ctl with status := statusWord fcProtection (threadOf s (.ctl m)).ip } }) (.ctl m) n) :=
  ((runInstr_issues _ h).trans (by simp only [foreign]; rfl) : execRdsysCtxRegister (.ctl m) w s = _)

end

/-- Settles O8: each instruction by what its row answers. -/
theorem scalarResults : Obligations.ScalarResults :=
  ⟨fun _ _ _ _ h => exec_br h, fun _ _ _ _ h => exec_nop h, fun _ _ _ _ h => exec_rdsysTick h,
    fun _ _ _ _ _ h => exec_rdsysStatus_core h, fun _ _ _ _ h => exec_rdsysStatus_ctl h,
    fun _ _ _ _ _ h own => exec_rdsysCounter h own, fun _ _ _ _ h => exec_rdsysContext h, fun _ _ _ _ h => exec_rdsysPeer h,
    fun _ _ _ _ _ h own => exec_rdsysCtxRegister h own, fun _ _ _ _ _ h foreign => exec_rdsysCounter_refused h foreign,
    fun _ _ _ _ h foreign => exec_rdsysCtxRegister_refused h foreign⟩

/-! ### SMEM and the notify slot (R159, R422) -/

section
variable {s s' : State} {c t m n : Nat} {w v : Word}

theorem exec_smemLoad_core (h : Issues rowSmemLoad s (.thread c t) n w)
    (free : guardSp s c t [(smemAddr s (.thread c t) w % spSize, 8)] [] = .ok s')
    (clean : spPoisoned (getCore s' c) (smemAddr s (.thread c t) w % spSize) 8 = false) :
    exec (.smemLoad (.thread c t) w) s = .next (thenNext s (putS s' (.thread c t) (iDst w)
      (w64 (leNat (spRead (getCore s' c) (smemAddr s (.thread c t) w % spSize) 8)))) (.thread c t) n) := by
  refine (runInstr_done h ?_ : execSmemLoad (.thread c t) w s = _)
  simp only [free, guarded, clean]
  rfl

/-- What a control thread's load answers, its row answers. -/
theorem exec_smemLoad_ctl {r : State} (h : Issues rowSmemLoad s (.ctl m) n w)
    (done : ctlLoad s (.ctl m) n (smemAddr s (.ctl m) w) w = .done r) :
    exec (.smemLoad (.ctl m) w) s = .next (thenNext s r (.ctl m) n) :=
  (runInstr_done h done : execSmemLoad (.ctl m) w s = _)

theorem ctlLoad_window {a : Agent} {va : Nat} (fresh : (threadOf s a).woken = none) (held : windowLoad s n va = some (.ok v)) :
    ctlLoad s a n va w = .done (putS s a (iDst w) v) := by simp only [ctlLoad, fresh, held]

theorem ctlLoad_woken {a : Agent} {va k : Nat} (woken : (threadOf s a).woken = some k) (clean : k < smemPoison) :
    ctlLoad s a n va w = .done (putS s a (iDst w) (w64 k)) := by simp only [ctlLoad, woken, if_neg (Nat.not_le.mpr clean)]

theorem exec_smemStore_core (h : Issues rowSmemStore s (.thread c t) n w)
    (outside : hitsCode (getCore s c) (smemAddr s (.thread c t) w % spSize) 8 = false)
    (free : guardSp s c t [] [(smemAddr s (.thread c t) w % spSize, 8)] = .ok s') :
    exec (.smemStore (.thread c t) w) s = .next (thenNext s (modCore s' c fun x =>
      spWrite x (smemAddr s (.thread c t) w % spSize) (leBytes 8 (sOf s (.thread c t) (iSrc2 w)).toNat) false) (.thread c t) n) := by
  refine (runInstr_done h ?_ : execSmemStore (.thread c t) w s = _)
  simp only [outside, free, guarded]
  rfl

/-- The request of a control thread's store, which its thread does not wait for. -/
def ctlStoreReq (s : State) (a : Agent) (n va pa : Nat) (v : Word) : MReq :=
  { mkReq a none n true (grainBase va) (grainBase pa) (leBytes 8 v.toNat) (mkTag (leBytes 8 v.toNat) 0 (getCtx s n).part false)
      (.merge (va % 256) 8) none (ctlSource n) with entry := (threadOf s a).ip }

theorem exec_smemStore_ctl {pa : Nat} (h : Issues rowSmemStore s (.ctl m) n w)
    (outside : windowStore s n (smemAddr s (.ctl m) w) (sOf s (.ctl m) (iSrc2 w)) = none)
    (mapped : translate s n (smemAddr s (.ctl m) w) true = .ok pa) :
    exec (.smemStore (.ctl m) w) s = .next (thenNext s (addReq s
      (ctlStoreReq s (.ctl m) n (smemAddr s (.ctl m) w) pa (sOf s (.ctl m) (iSrc2 w)))) (.ctl m) n) :=
  (runInstr_done h (by simp only [ctlStore, outside, mapped]; rfl) : execSmemStore (.ctl m) w s = _)

/-- A word for the notify slot with its reserved bits 0 and a vector of the partition requests one message. -/
theorem notifyStore_requests (reserved : fld v 63 11 = 0) (vector : fld v 10 0 < (partEntry s (getCtx s n).part).vecCount) :
    notifyStore s n winNotify v = .done (msixRequest s (getCtx s n).part (fld v 10 0) false) := by
  simp [notifyStore, reserved, vector]

theorem exec_notify (h : Issues rowSmemStore s (.ctl m) n w) (slot : smemAddr s (.ctl m) w = winNotify)
    (reserved : fld (sOf s (.ctl m) (iSrc2 w)) 63 11 = 0)
    (vector : fld (sOf s (.ctl m) (iSrc2 w)) 10 0 < (partEntry s (getCtx s n).part).vecCount) :
    exec (.notify (.ctl m) w) s = .next (thenNext s
      (msixRequest s (getCtx s n).part (fld (sOf s (.ctl m) (iSrc2 w)) 10 0) false) (.ctl m) n) := by
  change execNotify (.ctl m) w s = _
  simp only [execNotify, slot, le_refl, decide_true, Nat.lt_add_of_pos_right (Nat.succ_pos 255), Bool.and_self, if_true]
  exact runInstr_done h (notifyStore_requests reserved vector)

end

/-- Settles O9: SMEM on a core and on a control thread, and NOTIFY, by what the row answers. -/
theorem smemResults : Obligations.SmemResults :=
  ⟨fun _ _ _ _ _ _ h free clean => exec_smemLoad_core h free clean,
    fun _ _ _ _ _ h fresh held => exec_smemLoad_ctl h (ctlLoad_window fresh held),
    fun _ _ _ _ _ h woken clean => exec_smemLoad_ctl h (ctlLoad_woken woken clean),
    fun _ _ _ _ _ _ h outside free => exec_smemStore_core h outside free,
    fun _ _ _ _ _ h outside mapped => ⟨_, rfl, rfl, rfl, rfl, exec_smemStore_ctl h outside mapped⟩,
    fun _ _ _ _ h slot reserved vector => exec_notify h slot reserved vector⟩

end Machine
end Sys2Proof
end

section
/-! The proofs of the statements of 06_movement_and_control_instructions, second part: rings and queues (R138 to R144, R61, R216 to
R219). -/

namespace Sys2Proof
namespace Machine

open Host

/-! ### RCFG and RING (R138, R139, R216 to R219) -/

section
variable {s : State} {c t n : Nat} {w : Word} {r : Ring}

theorem exec_rcfg (h : Issues rowRcfg s (.thread c t) n w)
    (fits : ringOk s c (bits (iImm w) 5 0) (dOf s (.thread c t) (iSrc1 w)) = true)
    (unclaimed : ∀ r, tfind (getCore s c).rings (bits (iImm w) 5 0) = some r → anyClaimed r = false) :
    exec (.rcfg (.thread c t) w) s = .next (thenNext s (putS (installRing s c (bits (iImm w) 5 0)
      (dOf s (.thread c t) (iSrc1 w))) (.thread c t) (iDst w) 0) (.thread c t) n) := by
  refine (runInstr_done h ?_ : execRcfg (.thread c t) w s = _)
  simp only [onCore, fits, Bool.not_true, Bool.false_eq_true, if_false]
  split
  next => rfl
  next r found => rw [if_neg (by simp [unclaimed r found])]; rfl

theorem exec_ringCommit (h : Issues (rowRing 0) s (.thread c t) n w) (found : tfind (getCore s c).rings (bits (iImm w) 29 24) = some r) :
    exec (.ringCommit (.thread c t) w) s = .next (thenNext s (putS (wakeRings (touchCore (modCore s c fun x => { x with
      rings := tput x.rings (bits (iImm w) 29 24) (commitSlots r t (bits (iImm w) 23 16)) }) c) c) (.thread c t) (iDst w) 0)
      (.thread c t) n) :=
  (runInstr_done h (by simp only [onCore, ringNo, found]; rfl) : execRingCommit (.thread c t) w s = _)

theorem exec_ringRelease {ix : Nat} {l : List Nat} (h : Issues (rowRing 1) s (.thread c t) n w)
    (found : tfind (getCore s c).rings (bits (iImm w) 29 24) = some r) (some_ : bits (iImm w) 23 16 ≠ 0)
    (held : (heldSlots r t).take (bits (iImm w) 23 16) = ix :: l) :
    exec (.ringRelease (.thread c t) w) s = .next (thenNext s (putS (wakeRings (touchCore (modCore s c fun x => { x with
      rings := tput x.rings (bits (iImm w) 29 24) ((ix :: l).foldl releaseSlot r) }) c) c) (.thread c t) (iDst w) 0)
      (.thread c t) n) := by
  refine (runInstr_done h ?_ : execRingRelease (.thread c t) w s = _)
  simp only [onCore, ringNo, ringCount, found, if_neg some_, held]
  rfl

/-- A release by a thread that holds no slot (R217). -/
theorem exec_ringRelease_none (h : Issues (rowRing 1) s (.thread c t) n w)
    (found : tfind (getCore s c).rings (bits (iImm w) 29 24) = some r) (some_ : bits (iImm w) 23 16 ≠ 0) (held : heldSlots r t = []) :
    exec (.ringRelease (.thread c t) w) s =
      .next (thenNext s (putS s (.thread c t) (iDst w) (w64 rcNoneHeld)) (.thread c t) n) := by
  refine (runInstr_done h ?_ : execRingRelease (.thread c t) w s = _)
  simp only [onCore, ringNo, ringCount, found, if_neg some_, held, List.take_nil]
  rfl

theorem exec_ringSwap (h : Issues (rowRing 2) s (.thread c t) n w) (found : tfind (getCore s c).rings (bits (iImm w) 29 24) = some r)
    (double : r.mode ≠ 0) (settled : backOutstanding s c r = false) :
    exec (.ringSwap (.thread c t) w) s = .next (thenNext s (putS (modCore s c fun x => { x with
      rings := tput x.rings (bits (iImm w) 29 24) { r with front := 1 - r.front, swapped := true } }) (.thread c t) (iDst w) 0)
      (.thread c t) n) := by
  refine (runInstr_done h ?_ : execRingSwap (.thread c t) w s = _)
  simp only [onCore, ringNo, found, if_neg double, settled]
  rfl

end

/-- Settles O17: RCFG and the three forms of RING by what their rows answer. -/
theorem ringResults : Obligations.RingResults :=
  ⟨fun _ _ _ _ _ h fits unclaimed => exec_rcfg h fits unclaimed, fun _ _ _ _ _ _ h found => exec_ringCommit h found,
    fun _ _ _ _ _ _ _ _ h found some_ held => exec_ringRelease h found some_ held,
    fun _ _ _ _ _ _ h found some_ held => exec_ringRelease_none h found some_ held,
    fun _ _ _ _ _ _ h found double settled => exec_ringSwap h found double settled⟩

/-! ### QCFG (R140, R61) -/

theorem exec_qcfg_woken {s : State} {m n : Nat} {w : Word} (h : Issues rowQcfg s (.ctl m) n w)
    (woken : (threadOf s (.ctl m)).woken = some 0) :
    exec (.qcfg (.ctl m) w) s = .next (thenNext s (putS s (.ctl m) (iDst w) 0) (.ctl m) n) :=
  (runInstr_done h (by simp only [woken]; rfl) : execQcfg (.ctl m) w s = _)

section
variable {s : State} {m n c : Nat} {w v : Word} (h : Issues rowQcfg s (.ctl m) n w) (fresh : (threadOf s (.ctl m)).woken = none)
  (core : (sOf s (.ctl m) (iSrc1 w)).toNat = c) (word : sOf s (.ctl m) (iSrc2 w) = v) (own : (getCtx s n).coreset.contains c = true)
  (fits : qcfgOk s c (bits (iImm w) 4 0) v = true)
include h fresh core word own fits

/-- Word 0 closes the end. -/
theorem exec_qcfg_closes (closes : cfgDir v = 0) :
    exec (.qcfg (.ctl m) w) s =
      .next (thenNext s (putS (qcfgWrite s c (bits (iImm w) 4 0) v) (.ctl m) (iDst w) 0) (.ctl m) n) := by
  refine (runInstr_done h ?_ : execQcfg (.ctl m) w s = _)
  simp only [fresh, core, word, own, fits, closes, if_true]
  rfl

theorem exec_qcfg_local (opens : cfgDir v ≠ 0) (here : cfgRemote v = false) :
    exec (.qcfg (.ctl m) w) s = .next (thenNext s (putS (tryOpen (qcfgWrite s c (bits (iImm w) 4 0) v) c (bits (iImm w) 4 0))
      (.ctl m) (iDst w) 0) (.ctl m) n) := by
  refine (runInstr_done h ?_ : execQcfg (.ctl m) w s = _)
  simp only [fresh, core, word, own, fits, if_neg opens, here]
  rfl

/-- A QCONFIG that has left, with none held, completes the instruction. -/
theorem exec_qcfg_left (opens : cfgDir v ≠ 0) (far : cfgRemote v = true) (unheld : heldPartner s c (bits (iImm w) 4 0) v = none)
    (left : qconfigWaits (sendQconfig (qcfgWrite s c (bits (iImm w) 4 0) v) c (bits (iImm w) 4 0) false) c (bits (iImm w) 4 0) = false) :
    exec (.qcfg (.ctl m) w) s = .next (thenNext s (putS (sendQconfig (qcfgWrite s c (bits (iImm w) 4 0) v) c (bits (iImm w) 4 0)
      false) (.ctl m) (iDst w) 0) (.ctl m) n) := by
  refine (runInstr_done h ?_ : execQcfg (.ctl m) w s = _)
  simp only [fresh, core, word, own, fits, if_neg opens, far, unheld, left, if_true]
  rfl

/-- One that has not left parks the thread until it has. -/
theorem exec_qcfg_waits (opens : cfgDir v ≠ 0) (far : cfgRemote v = true) (unheld : heldPartner s c (bits (iImm w) 4 0) v = none)
    (waits : qconfigWaits (sendQconfig (qcfgWrite s c (bits (iImm w) 4 0) v) c (bits (iImm w) 4 0) false) c (bits (iImm w) 4 0) = true) :
    exec (.qcfg (.ctl m) w) s = .next (parkAgent (sendQconfig (qcfgWrite s c (bits (iImm w) 4 0) v) c (bits (iImm w) 4 0) false)
      (.ctl m) 4 (.qconfigOut c (bits (iImm w) 4 0))) := by
  refine (runInstr_park h ?_ : execQcfg (.ctl m) w s = _)
  simp only [fresh, core, word, own, fits, if_neg opens, far, unheld, waits, if_true]
  rfl

/-- A partner's QCONFIG that is held opens the end, and the thread waits for the answer. -/
theorem exec_qcfg_held {p : HeldCfg} (opens : cfgDir v ≠ 0) (far : cfgRemote v = true)
    (held : heldPartner s c (bits (iImm w) 4 0) v = some p) :
    exec (.qcfg (.ctl m) w) s = .next (parkAgent (openEndAt (sendQconfig (qcfgWrite s c (bits (iImm w) 4 0) v) c
      (bits (iImm w) 4 0) false) c (bits (iImm w) 4 0) p.word none) (.ctl m) 4 (.qconfig c (bits (iImm w) 4 0))) := by
  refine (runInstr_park h ?_ : execQcfg (.ctl m) w s = _)
  simp only [fresh, core, word, own, fits, if_neg opens, far, held, if_true]
  rfl

end

/-! ### QSEND (R141, R64 to R66) -/

/-- A QSEND of some words that its checks pass, and that begins, does what its send does from the state that the guard leaves. -/
theorem exec_qsend {s s' r : State} {c t n ep k : Nat} {w : Word} (h : Issues rowQsend s (.thread c t) n w)
    (fresh : (threadOf s (.thread c t)).woken = none) (begins : (threadOf s (.thread c t)).sent = 0) (port : iSrc1 w = ep)
    (count : qsendCount s (.thread c t) w = k) (dir : cfgDir (getEp (getCore s c) ep).cfg = 2)
    (short : k ≤ cfgMaxWords (getEp (getCore s c) ep).cfg) (words : k ≠ 0)
    (inside : (sOf s (.thread c t) (iSrc2 w)).toNat / 64 * 64 + 64 * k ≤ spSize)
    (free : guardSp s c t [((sOf s (.thread c t) (iSrc2 w)).toNat / 64 * 64, 64 * k)] [] = .ok s')
    (run : qsendRun s' (.thread c t) n c t ep ((sOf s (.thread c t) (iSrc2 w)).toNat / 64 * 64) k w = .done r) :
    exec (.qsend (.thread c t) w) s = .next (thenNext s r (.thread c t) n) := by
  refine (runInstr_done h ?_ : execQsend (.thread c t) w s = _)
  simp only [onCore, fresh, begins, port, count, if_neg words, free, guarded, run]
  rw [if_neg (by simp), if_neg (by simpa [dir, short] using fun _ => inside)]

/-- A send on a closed end answers CLOSED. -/
theorem qsendRun_closed {s : State} {a : Agent} {n c t ep off k : Nat} {w : Word} (closed : (getEp (getCore s c) ep).closed = true) :
    qsendRun s a n c t ep off k w = .done (putS s a (iDst w) (w64 rcClosed)) := if_pos closed

/-! ### QRECV, QHELD, QREL, QSUM (R142 to R144) -/

section
variable {s : State} {c t n : Nat} {w : Word} {p : Packet} {l : List Packet}

theorem exec_qrecv (h : Issues rowQrecv s (.thread c t) n w) (fresh : (threadOf s (.thread c t)).woken = none)
    (dir : cfgDir (getEp (getCore s c) (iSrc1 w)).cfg = 1) (free : declared (getCore s c) 0 (iSrc1 w) = false)
    (oldest : unclaimed (getEp (getCore s c) (iSrc1 w)) = p :: l) :
    exec (.qrecv (.thread c t) w) s = .next (thenNext s (putS (touchCore (modCore s c fun x => claimPackets x (iSrc1 w) t 1) c)
      (.thread c t) (iDst w) (recvResult (getEp (getCore s c) (iSrc1 w)) p)) (.thread c t) n) := by
  refine (runInstr_done h ?_ : execQrecv (.thread c t) w s = _)
  simp [onCore, fresh, dir, free, oldest]

theorem exec_qrecv_waits (h : Issues rowQrecv s (.thread c t) n w) (fresh : (threadOf s (.thread c t)).woken = none)
    (dir : cfgDir (getEp (getCore s c) (iSrc1 w)).cfg = 1) (free : declared (getCore s c) 0 (iSrc1 w) = false)
    (empty : unclaimed (getEp (getCore s c) (iSrc1 w)) = []) (isOpen : (getEp (getCore s c) (iSrc1 w)).closed = false) :
    exec (.qrecv (.thread c t) w) s = .next (parkAgent s (.thread c t) 1 (.packet (iSrc1 w))) := by
  refine (runInstr_park h ?_ : execQrecv (.thread c t) w s = _)
  simp [onCore, fresh, dir, free, empty, isOpen]

theorem exec_qheld (h : Issues rowQheld s (.thread c t) n w) :
    exec (.qheld (.thread c t) w) s = .next (thenNext s (putS s (.thread c t) (iDst w)
      (match (heldPackets (getCore s c) t (iSrc1 w))[bits (iImm w) 3 0]? with
        | some p => recvResult (getEp (getCore s c) (iSrc1 w)) p
        | none => recvNone rcNoneHeld)) (.thread c t) n) := by
  refine (runInstr_done h ?_ : execQheld (.thread c t) w s = _)
  simp only [onCore]
  cases (heldPackets (getCore s c) t (iSrc1 w))[bits (iImm w) 3 0]? <;> rfl

theorem exec_qrel (h : Issues rowQrel s (.thread c t) n w) (held : heldPackets (getCore s c) t (iSrc1 w) = p :: l) :
    exec (.qrel (.thread c t) w) s = .next (thenNext s (putS (dropHeld (releasePacket s c (iSrc1 w) p.num) (.thread c t)
      (iSrc1 w) p.num) (.thread c t) (iDst w) 0) (.thread c t) n) :=
  (runInstr_done h (by simp only [onCore, held]; rfl) : execQrel (.thread c t) w s = _)

theorem exec_qrel_none (h : Issues rowQrel s (.thread c t) n w) (held : heldPackets (getCore s c) t (iSrc1 w) = []) :
    exec (.qrel (.thread c t) w) s = .next (thenNext s (putS s (.thread c t) (iDst w) (w64 rcNoneHeld)) (.thread c t) n) :=
  (runInstr_done h (by simp only [onCore, held]; rfl) : execQrel (.thread c t) w s = _)

theorem exec_qsum (h : Issues rowQsum s (.thread c t) n w) (kind : isSumKind (bits (iImm w) 31 28) = true)
    (credit : 0 < (getCore s c).sumCredit) :
    exec (.qsum (.thread c t) w) s = .next (thenNext s (sendSummary s c (qsumContribution s (.thread c t) w)) (.thread c t) n) := by
  refine (runInstr_done h ?_ : execQsum (.thread c t) w s = _)
  simp [onCore, kind, credit.ne']

theorem exec_qsum_waits (h : Issues rowQsum s (.thread c t) n w) (kind : isSumKind (bits (iImm w) 31 28) = true)
    (credit : (getCore s c).sumCredit = 0) :
    exec (.qsum (.thread c t) w) s = .next (parkAgent s (.thread c t) 2 .sumCredit) := by
  refine (runInstr_park h ?_ : execQsum (.thread c t) w s = _)
  simp [onCore, kind, credit]

end

/-- Settles O18: each queue instruction by what its row answers. -/
theorem queueResults : Obligations.QueueResults := by
  refine ⟨fun s m n c w v h fresh core word own fits closes => exec_qcfg_closes h fresh core word own fits closes,
    fun s m n c w v h fresh core word own fits opens here => exec_qcfg_local h fresh core word own fits opens here,
    fun s m n c w v h fresh core word own fits opens far unheld left =>
      exec_qcfg_left h fresh core word own fits opens far unheld left, ?_, fun s m n w h woken => exec_qcfg_woken h woken,
    fun s m n c w v p h fresh core word own fits opens far held => exec_qcfg_held h fresh core word own fits opens far held,
    fun s s' r c t n ep k w h fresh begins port count dir short words inside free run =>
      exec_qsend h fresh begins port count dir short words inside free run,
    fun s s' c t n ep k w h fresh begins port count dir short words inside free closed =>
      exec_qsend h fresh begins port count dir short words inside free (qsendRun_closed closed),
    fun s c t n w p l h fresh dir free oldest => exec_qrecv h fresh dir free oldest,
    fun s c t n w h fresh dir free empty isOpen => exec_qrecv_waits h fresh dir free empty isOpen, ?_,
    fun s c t n w p l h held => exec_qrel h held, fun s c t n w h held => exec_qrel_none h held,
    fun s c t n w h kind credit => exec_qsum h kind credit, fun s c t n w h kind credit => exec_qsum_waits h kind credit⟩
  · rintro s u m n c w v h fresh core word own fits opens far unheld rfl waits
    exact exec_qcfg_waits h fresh core word own fits opens far unheld waits
  · intro s c t n w h
    exact (exec_qheld h).trans (by rfl)

end Machine
end Sys2Proof
end

section
/-! The proofs of the statements of 06_movement_and_control_instructions, third part: epochs (R149, R338), the collective instructions
(R150 to R153) and update operations (R155, R235, R253). -/

namespace Sys2Proof
namespace Machine

open Host

/-! ### EPOCH (R149, R338) -/

section
variable {s : State} {a : Agent} {n ix e : Nat} {w : Word} {m : Model} {l : Layer}

theorem exec_epochEnter_ok (h : Issues (rowEpoch false) s a n w) (args : epochArgs s a n w = some (ix, m, e, l)) (holds : l.epoch = e)
    (settled : (m.installing && bits (iImm w) 15 0 == m.installed) = false) :
    exec (.epochEnter a w) s = .next (thenNext s (putS (entered s n ix e (bits (iImm w) 15 0) true) a (iDst w) 0) a n) := by
  refine (runInstr_done h ?_ : execEpochEnter a w s = _)
  simp only [args, holds, settled, lt_irrefl, if_false]
  rfl

theorem exec_epochEnter_stale (h : Issues (rowEpoch false) s a n w) (args : epochArgs s a n w = some (ix, m, e, l))
    (stale : e < l.epoch ∨ (l.epoch = e ∧ (m.installing && bits (iImm w) 15 0 == m.installed) = true)) :
    exec (.epochEnter a w) s =
      .next (thenNext s (putS (entered s n ix e (bits (iImm w) 15 0) false) a (iDst w) (w64 rcStaleEpoch)) a n) := by
  refine (runInstr_done h ?_ : execEpochEnter a w s = _)
  simp only [args]
  rcases stale with later | ⟨holds, installing⟩
  · rw [if_neg (Nat.not_lt.mpr later.le), if_neg (by simp [later.ne'])]
    rfl
  · rw [if_neg (by simp [holds]), if_neg (by simp [installing])]
    rfl

theorem exec_epochEnter_waits (h : Issues (rowEpoch false) s a n w) (args : epochArgs s a n w = some (ix, m, e, l))
    (early : l.epoch < e) :
    exec (.epochEnter a w) s = .next (parkAgent s a 6 (.epoch (handleOf ix m) (bits (iImm w) 15 0) e)) := by
  refine (runInstr_park h ?_ : execEpochEnter a w s = _)
  simp only [args, if_pos early]

theorem exec_epochLeave (h : Issues (rowEpoch true) s a n w) (args : epochArgs s a n w = some (ix, m, e, l)) :
    exec (.epochLeave a w) s = .next (thenNext s (putS (leftLayer s n ix e (bits (iImm w) 15 0)) a (iDst w) 0) a n) :=
  (runInstr_done h (by simp only [args]; rfl) : execEpochLeave a w s = _)

end

@[simp] theorem journal_models (s : State) (cc what subject : Nat) (complete : Bool) :
    (journal s cc what subject complete).models = s.models := rfl

/-- A LEAVE beyond the context's ENTERs is not counted, but an error (R338). -/
theorem leftLayer_exceeds {s : State} {n ix e layer : Nat} {m : Model} (found : tfind s.models ix = some m)
    (exceeds : startedOf m n e ≤ passedOf m n e layer) :
    leftLayer s n ix e layer = modPart (journal s (controlCoreOf n) 10 ix true) m.part fun p =>
      { p with mdlEpochErrors := p.mdlEpochErrors + 1 } := by
  simp only [leftLayer, journal_models, found, if_pos exceeds]

/-- Settles O20: ENTER in its three cases, and LEAVE. -/
theorem epochResults : Obligations.EpochResults :=
  ⟨fun _ _ _ _ _ _ _ _ h args holds settled => exec_epochEnter_ok h args holds settled,
    fun _ _ _ _ _ _ _ _ h args stale => exec_epochEnter_stale h args stale,
    fun _ _ _ _ _ _ _ _ h args early => exec_epochEnter_waits h args early,
    fun _ _ _ _ _ _ _ _ h args => exec_epochLeave h args,
    fun _ _ _ _ _ _ found exceeds => leftLayer_exceeds found exceeds⟩

/-! ### COLL (R150, R151) -/

section
variable {s : State} {a : Agent} {n : Nat} {w : Word} {d : ColDesc} {t u : Tensor} (h : Issues rowColl s a n w)
  (desc : colDescOf s.peers.self (dOf s a (iSrc3 w)) = some d) (src : tensorOf (dOf s a (iSrc1 w)) = some t)
  (dst : tensorOf (dOf s a (iDst w)) = some u) (fits : collOk d t u (getCtx s n).colgroup = true)
  (single : collDouble s n (attemptOf s (getCtx s n).colgroup) d = false) (srcMapped : tensorBad s n t false = none)
  (dstMapped : tensorBad s n u true = none) (noWhey : usesWhey d t = false)
include h desc src dst fits single srcMapped dstMapped noWhey

/-- A COLL that its checks pass and that no re-shard stops is issued. -/
theorem exec_coll (unstopped : d.op ≤ 1 → reshardOf s n t.id = false ∧ reshardOf s n u.id = false) :
    exec (.coll a w) s = .next (thenNext s (collIssue s a n (bits (iImm w) 31 28) (dOf s a (iSrc3 w)) (dOf s a (iSrc1 w))
      (dOf s a (iDst w)) d t u) a n) := by
  refine (runInstr_done h ?_ : execColl a w s = _)
  have goes : (decide (d.op ≤ 1) && (reshardOf s n t.id || reshardOf s n u.id)) = false := by
    simpa using unstopped
  simp [desc, src, dst, fits, single, srcMapped, dstMapped, noWhey, goes]

/-- One whose source is being re-sharded waits at the fence of its layout. -/
theorem exec_coll_waits (reduces : d.op ≤ 1) (resharded : reshardOf s n t.id = true) :
    exec (.coll a w) s = .next (parkAgent s a 5 (.layoutFence t.id)) := by
  refine (runInstr_park h ?_ : execColl a w s = _)
  simp [desc, src, dst, fits, single, srcMapped, dstMapped, noWhey, reduces, resharded]

end

/-! ### GFLAG (R153, R282) -/

theorem exec_gflag_woken {s : State} {a : Agent} {n v : Nat} {w : Word} (h : Issues rowGflag s a n w)
    (woken : (threadOf s a).woken = some v) :
    exec (.gflag a w) s = .next (thenNext s (putS s a (iDst w) (w64 v)) a n) :=
  (runInstr_done h (by simp only [woken]; rfl) : execGflag a w s = _)

/-- GFLAG leaves the clock alone when it clears a latch. -/
@[simp] theorem now_clearLatch (s : State) (n step : Nat) : now (clearLatch s n step) = now s := by
  unfold clearLatch
  split <;> rfl

/-- A GFLAG as its thread issues it, before the latch of its step is cleared. -/
def gflagIssued (s : State) (a : Agent) (n : Nat) (w : Word) (d : ColDesc) : GflagWait :=
  { ctx := n, agent := a, dst := iDst w, group := (getCtx s n).colgroup, attempt := attemptOf s (getCtx s n).colgroup,
    step := d.step, members := d.members, flag := wbit (sOf s a (iSrc1 w)) 0 || latchTaken s n d.step, sent := false,
    deadline := now s + d.limit, order := (clearLatch s n d.step).serial + 1 }

theorem exec_gflag_aborted {s : State} {a : Agent} {n : Nat} {w : Word} {d : ColDesc} (h : Issues rowGflag s a n w)
    (fresh : (threadOf s a).woken = none) (desc : colDescOf s.peers.self (dOf s a (iSrc3 w)) = some d)
    (group : (getCtx s n).colgroup ≠ 0)
    (first : s.hub.flagged.contains (n, attemptOf s (getCtx s n).colgroup, d.step) = false)
    (aborted : stepAborted (clearLatch s n d.step) (getCtx s n).colgroup (attemptOf s (getCtx s n).colgroup) d.step = true) :
    exec (.gflag a w) s = .next (thenNext s (putS (gflagAtOnce (modHub (clearLatch s n d.step) fun h =>
      { h with flagged := h.flagged ++ [(n, attemptOf s (getCtx s n).colgroup, d.step)] }) (gflagIssued s a n w d)) a (iDst w)
      (w64 (1 + rcAborted <<< 8))) a n) := by
  refine (runInstr_done h ?_ : execGflag a w s = _)
  simp only [fresh, desc]
  rw [if_neg (by simpa using ⟨group, by simpa using first⟩), if_pos]
  · simp only [now_clearLatch]
    rfl
  · rw [Bool.or_eq_true]
    exact .inl aborted

/-! ### RESHARD (R152, R292, R293) -/

theorem exec_reshard_woken {s : State} {a : Agent} {n : Nat} {w : Word} (h : Issues rowReshard s a n w)
    (woken : (threadOf s a).woken.isSome = true) : exec (.reshard a w) s = .next (thenNext s s a n) :=
  (runInstr_done h (if_pos woken) : execReshard a w s = _)

/-- The record of a RESHARD that has just entered the hub: it waits at its fence, counted in its group. -/
theorem reshardEnter_record {s u : State} {a : Agent} {n g check id : Nat} {desc tensor : BitVec 256} {m : MapRec} {r : Reshard}
    (enters : reshardEnter s a n g desc tensor m check = (id, u)) (found : tfind u.hub.reshards id = some r) :
    r.phase = .fence ∧ r.cg = { agent := a, cg := g } := by
  obtain ⟨rfl, rfl⟩ := Prod.mk.inj enters
  rw [modHub_hub, tfind_tput_same] at found
  obtain rfl := Option.some.inj found
  exact ⟨rfl, rfl⟩

section
variable {s s' : State} {a : Agent} {n check : Nat} {w : Word} {d : ColDesc} {t : Tensor} {m : MapRec}
  (h : Issues rowReshard s a n w) (fresh : (threadOf s a).woken = none)
  (desc : colDescOf s.peers.self (dOf s a (iSrc3 w)) = some d) (tensor : tensorOf (dOf s a (iSrc1 w)) = some t)
  (role : (getCtx s n).dst.role ≠ 1) (fits : reshardOk d t (getCtx s n).colgroup = true)
  (record : readMapRec s n (sOf s a (iSrc2 w)).toNat d t = (.ok (m, check), s'))
include h fresh desc tensor role fits record

/-- One of an aborted step, or after its GFLAG, does nothing but complete its group. -/
theorem exec_reshard_void
    (late : reshardTooLate s' n (getCtx s n).colgroup (attemptOf s' (getCtx s n).colgroup) d.step = true) :
    exec (.reshard a w) s = .next (thenNext s (reshardVoid s' a (bits (iImm w) 31 28)) a n) := by
  refine (runInstr_done h ?_ : execReshard a w s = _)
  simp [fresh, desc, tensor, role, fits, record, late]

section
variable {u : State} {id : Nat} {r : Reshard}
  (timely : reshardTooLate s' n (getCtx s n).colgroup (attemptOf s' (getCtx s n).colgroup) d.step = false)
  (enters : reshardEnter s' a n (bits (iImm w) 31 28) (dOf s a (iSrc3 w)) (dOf s a (iSrc1 w)) m check = (id, u))
  (found : tfind u.hub.reshards id = some r)
include timely enters found

theorem exec_reshard_passes (isOpen : fenceOpen u r = true) :
    exec (.reshard a w) s = .next (thenNext s (hubSettle (reshardPass u id)) a n) := by
  refine (runInstr_done h ?_ : execReshard a w s = _)
  simp [fresh, desc, tensor, role, fits, record, timely, enters, found, isOpen]

theorem exec_reshard_waits (closed : fenceOpen u r = false) :
    exec (.reshard a w) s = .next (parkAgent u a 5 (.reshard id)) := by
  refine (runInstr_park h ?_ : execReshard a w s = _)
  simp [fresh, desc, tensor, role, fits, record, timely, enters, found, closed]

end
end

/-- Settles O21: COLL, GFLAG and RESHARD by what their rows answer. -/
theorem collectiveInstructions : Obligations.CollectiveInstructions := by
  refine ⟨?_, ?_, fun s a n v w h woken => exec_gflag_woken h woken,
    fun s a n w d h fresh desc group first aborted => exec_gflag_aborted h fresh desc group first aborted, ?_, ?_, ?_,
    fun s a n w h woken => exec_reshard_woken h woken⟩
  · intro s a n w d t u h desc src dst fits single srcMapped dstMapped noWhey unstopped
    exact exec_coll h desc src dst fits single srcMapped dstMapped noWhey unstopped
  · intro s a n w d t u h desc src dst fits single srcMapped dstMapped noWhey reduces resharded
    exact exec_coll_waits h desc src dst fits single srcMapped dstMapped noWhey reduces resharded
  · intro s s' a n check w d t m h fresh desc tensor role fits record late
    exact exec_reshard_void h fresh desc tensor role fits record late
  · intro s s' u a n check id w d t m r h fresh desc tensor role fits record timely enters found isOpen
    exact ⟨exec_reshard_passes h fresh desc tensor role fits record timely enters found isOpen, reshardEnter_record enters found⟩
  · intro s s' u a n check id w d t m r h fresh desc tensor role fits record timely enters found closed
    exact exec_reshard_waits h fresh desc tensor role fits record timely enters found closed

end Machine
end Sys2Proof
end

section
/-! What the life of a context rests on: the operations of units and of firmware change no context's state and no work of the update
engines, and a context fault ends a live context. -/

namespace Sys2Proof
namespace Machine

open Host

/-! ### Lives of contexts and the update engines -/

/-- What only commands about it change: the state of each context (Table 15.2), and the work of the update engines. -/
structure Lives where
  state : Nat → Nat
  upd : Upd

/-- The lives in a state. Each operation below has a lemma that it keeps them. -/
def lives (s : State) : Lives where
  state n := (getCtx s n).state
  upd := s.upd

/-- A fold keeps the lives when each of its steps does. -/
@[simp] theorem lives_foldl {α : Type} {f : State → α → State} (l : List α) (s : State) (h : ∀ s a, lives (f s a) = lives s) :
    lives (l.foldl f s) = lives s := foldl_keeps h l s

/-! ### Updates of one field

Proofs by `(rfl)`, in brackets, so that `simp` takes them as rewrite rules and discharges the hypothesis of `lives_foldl` with them. -/

@[simp] theorem lives_mk (s : State) (pending : List Instr) (fresh serial : Nat) (out : List Out) (clk : Clock) (mem : Mem)
    (cores : Tbl Core) (scheds : Tbl Sched) (nextSched : Nat) (parts : Tbl Part) (quantumUs quantumAt preemptions : Nat) (hub : Hub)
    (ports : Tbl Port) (peers : Peers) (rollout : Rollout) (models : Tbl Model) (modelGens : Tbl Nat) (recov : Rec) (host : HostSide)
    (pwr : Power) (sec : Sec) :
    lives { s with
      pending := pending, fresh := fresh, serial := serial, out := out, clk := clk, mem := mem, cores := cores, scheds := scheds
      nextSched := nextSched, parts := parts, quantumUs := quantumUs, quantumAt := quantumAt, preemptions := preemptions, hub := hub
      ports := ports, peers := peers, rollout := rollout, models := models, modelGens := modelGens, recov := recov, host := host
      pwr := pwr, sec := sec } = lives s := (rfl)

@[simp] theorem lives_emit (s : State) (o : Out) : lives (emit s o) = lives s := (rfl)
@[simp] theorem lives_bump (s : State) : lives (bump s) = lives s := (rfl)
@[simp] theorem lives_modCore (s : State) (c : Nat) (f : Core → Core) : lives (modCore s c f) = lives s := (rfl)
@[simp] theorem lives_modPart (s : State) (p : Nat) (f : Part → Part) : lives (modPart s p f) = lives s := (rfl)
@[simp] theorem lives_setPort (s : State) (k : Nat) (x : Port) : lives (setPort s k x) = lives s := (rfl)
@[simp] theorem lives_modPort (s : State) (k : Nat) (f : Port → Port) : lives (modPort s k f) = lives s := (rfl)
@[simp] theorem lives_modDie (s : State) (k : Nat) (f : DieClk → DieClk) : lives (modDie s k f) = lives s := (rfl)
@[simp] theorem lives_modClk (s : State) (f : Clock → Clock) : lives (modClk s f) = lives s := (rfl)
@[simp] theorem lives_modMem (s : State) (f : Mem → Mem) : lives (modMem s f) = lives s := (rfl)
@[simp] theorem lives_modHub (s : State) (f : Hub → Hub) : lives (modHub s f) = lives s := (rfl)
@[simp] theorem lives_modPeers (s : State) (f : Peers → Peers) : lives (modPeers s f) = lives s := (rfl)
@[simp] theorem lives_modRo (s : State) (f : Rollout → Rollout) : lives (modRo s f) = lives s := (rfl)
@[simp] theorem lives_modRec (s : State) (f : Rec → Rec) : lives (modRec s f) = lives s := (rfl)

@[simp] theorem lives_setCtx {s : State} {n : Nat} {x : Ctx} (h : x.state = (getCtx s n).state) : lives (setCtx s n x) = lives s := by
  have states : (fun k => (getCtx (setCtx s n x) k).state) = fun k => (getCtx s k).state := funext (tget_tput_keeps Ctx.state h)
  simp only [lives, states, setCtx_upd]

@[simp] theorem lives_modCtx {s : State} {n : Nat} {f : Ctx → Ctx} (h : (f (getCtx s n)).state = (getCtx s n).state) :
    lives (modCtx s n f) = lives s := lives_setCtx h

/-! ### Named operations: reads and writes of memory, the log, journals, firmware at HOST scope (Machine/Ops.lean) -/

@[simp] theorem lives_snoopLines (s : State) (p : Nat → Bool) : lives (snoopLines s p) = lives s :=
  lives_foldl (f := fun s l => emit s (.biSnoop l)) _ s fun _ _ => rfl

@[simp] theorem lives_invalidateGrain (s : State) (pa : Nat) :
    lives (invalidateGrain s pa) = lives s := by simp [invalidateGrain]

@[simp] theorem lives_storeGrain (s : State) (pa : Nat) (data : List Byte) (tag : GrainTag) :
    lives (storeGrain s pa data tag) = lives s := (rfl)

@[simp] theorem lives_putGrain (s : State) (pa : Nat) (data : List Byte) (tag : GrainTag) :
    lives (putGrain s pa data tag) = lives s := by simp [putGrain]

@[simp] theorem lives_countFailed (s : State) : lives (countFailed s) = lives s := (rfl)

@[simp] theorem lives_putServed (s : State) (pa : Nat) (data : List Byte) (tag : GrainTag) :
    lives (putServed s pa data tag) = lives s := by
  unfold putServed
  split <;> simp

@[simp] theorem lives_writeGrain (s : State) (pa : Nat) (data : List Byte) (tag : GrainTag) :
    lives (writeGrain s pa data tag) = lives s := by
  unfold writeGrain
  split <;> simp

@[simp] theorem lives_mergeAs (s : State) (pa off : Nat) (bs : List Byte) (t : GrainTag) :
    lives (mergeAs s pa off bs t) = lives s := by
  unfold mergeAs
  dsimp only
  split <;> simp

@[simp] theorem lives_mergeGrain (s : State) (pa off : Nat) (bs : List Byte) (poison : Bool) :
    lives (mergeGrain s pa off bs poison) = lives s := by simp [mergeGrain]

@[simp] theorem lives_remoteGrain (s : State) : lives (remoteGrain s).2 = lives s := (rfl)

@[simp] theorem lives_freeWord (s : State) : lives (freeWord s).2 = lives s := (rfl)

@[simp] theorem lives_readHost (s : State) (pa : Nat) : lives (readHost s pa).2.2 = lives s := by
  unfold readHost
  dsimp only
  split <;> simp

@[simp] theorem lives_fwWriteTags (fuel : Nat) (s : State) (pa : Nat) (bs : List Byte) :
    lives (fwWriteTags s pa bs fuel) = lives s := by
  induction fuel generalizing s pa bs with
  | zero => rfl
  | succ fuel ih =>
    cases bs with
    | nil => rfl
    | cons b bs => exact (ih _ _ _).trans (lives_mergeGrain _ _ _ _ _)

@[simp] theorem lives_emitHostWrite (s : State) (req pa : Nat) (bs : List Byte) (poison : Bool) :
    lives (emitHostWrite s req pa bs poison) = lives s := by
  unfold emitHostWrite
  dsimp only
  split <;> simp

@[simp] theorem lives_fwWrite (s : State) (pa : Nat) (bs : List Byte) : lives (fwWrite s pa bs) = lives s := by
  unfold fwWrite
  split
  · exact (lives_emitHostWrite _ _ _ _ _).trans rfl
  · exact lives_fwWriteTags _ _ _ _

@[simp] theorem lives_msixRequest (s : State) (p vec : Nat) (teardown : Bool) :
    lives (msixRequest s p vec teardown) = lives s := by
  unfold msixRequest
  dsimp only
  split <;> simp

@[simp] theorem lives_setJournal (s : State) (cc : Nat) (l : List JournalEntry) :
    lives (setJournal s cc l) = lives s := (rfl)

@[simp] theorem lives_journal (s : State) (cc what subject : Nat) (complete : Bool) :
    lives (journal s cc what subject complete) = lives s := (rfl)

@[simp] theorem lives_listEffects (s : State) (cc : Nat) (acts : List FwAct) : lives (listEffects s cc acts) = lives s := by
  unfold listEffects
  dsimp only
  repeat' split
  all_goals simp

@[simp] theorem lives_markEffect (s : State) (cc num : Nat) : lives (markEffect s cc num) = lives s := (rfl)

@[simp] theorem lives_advanceRing (s : State) (p : Nat) : lives (advanceRing s p) = lives s := by
  unfold advanceRing
  dsimp only
  split <;> simp

@[simp] theorem lives_runActs (cc num : Nat) (acts : List FwAct) (s : State) : lives (runActs cc num acts s).1 = lives s := by
  induction acts generalizing s with
  | nil => rfl
  | cons a acts ih =>
    cases a with
    | write pa bs =>
      unfold runActs
      dsimp only
      split
      · exact (ih _).trans (by simp)
      · simp
    | head p => exact (ih _).trans (by simp)
    | msix p v => exact (ih _).trans (by simp)

theorem lives_of_runActs {cc num : Nat} {acts : List FwAct} {s t : State} {w : Option FwWait}
    (h : runActs cc num acts s = (t, w)) : lives t = lives s := by
  rw [← lives_runActs cc num acts s, h]

@[simp] theorem lives_fwDo (s : State) (cc : Nat) (acts : List FwAct) : lives (fwDo s cc acts) = lives s := by
  unfold fwDo
  dsimp only
  split
  · exact lives_listEffects s cc acts
  · split
    next ran => exact (lives_of_runActs ran).trans (lives_listEffects s cc acts)
    next ran => exact (lives_of_runActs ran).trans (lives_listEffects s cc acts)

@[simp] theorem lives_writeLog (s : State) (event : Nat) (u : LogUnit) (part : Nat) (ctx : Option Nat) (detail : Nat) :
    lives (writeLog s event u part ctx detail) = lives s := by
  unfold writeLog
  dsimp only
  split
  · exact (lives_msixRequest _ _ _ _).trans rfl
  · rfl

@[simp] theorem lives_logEvent (s : State) (event : Nat) (u : LogUnit) (part : Nat) (ctx : Option Nat) (detail : Nat) :
    lives (logEvent s event u part ctx detail) = lives s := by
  unfold logEvent
  repeat' split
  all_goals simp

@[simp] theorem lives_checkFailed (s : State) (pa : Nat) : lives (checkFailed s pa) = lives s := by simp [checkFailed]

@[simp] theorem lives_egressTag (s : State) (pa : Nat) (data : List Byte) (tag : GrainTag) :
    lives (egressTag s pa data tag).2 = lives s := by
  unfold egressTag
  split <;> simp

@[simp] theorem lives_modAcct (s : State) (n : Nat) (f : Acct → Acct) : lives (modAcct s n f) = lives s := lives_modCtx rfl

@[simp] theorem lives_chargeTier (s : State) (n t bytes : Nat) : lives (chargeTier s n t bytes) = lives s := lives_modAcct s n _

@[simp] theorem lives_chargeLink (s : State) (n cls flits : Nat) : lives (chargeLink s n cls flits) = lives s := lives_modAcct s n _

/-! ### Waking, the bridge edge, completion groups, latches (Machine/CoreOps.lean, Machine/Flags.lean) -/

@[simp] theorem lives_modDieOf (s : State) (c : Nat) (f : DieClk → DieClk) : lives (modDieOf s c f) = lives s := by
  unfold modDieOf
  split <;> simp

@[simp] theorem lives_dieWorked (s : State) (c : Nat) : lives (dieWorked s c) = lives s := by simp [dieWorked]

@[simp] theorem lives_touchCore (s : State) (c : Nat) : lives (touchCore s c) = lives s := by simp [touchCore]

@[simp] theorem lives_wakeCore (s : State) (c : Nat) (p : Nat → Park → Bool) : lives (wakeCore s c p) = lives s := (rfl)

@[simp] theorem lives_wakeCoreWith (s : State) (c val : Nat) (p : Park → Bool) :
    lives (wakeCoreWith s c val p) = lives s := (rfl)

@[simp] theorem lives_wakeCtl (s : State) (n : Nat) (p : Park → Bool) : lives (wakeCtl s n p) = lives s := by
  refine lives_modCtx ?_
  repeat' split
  all_goals rfl

@[simp] theorem lives_wakeAll (s : State) (p : Park → Bool) : lives (wakeAll s p) = lives s := by simp [wakeAll]

@[simp] theorem lives_queueFreed (s : State) : lives (queueFreed s) = lives s := lives_wakeAll _ _

@[simp] theorem lives_wakeAgent (s : State) (a : Agent) (woken : Option Nat) :
    lives (wakeAgent s a woken) = lives s := by
  unfold wakeAgent
  dsimp only
  split <;> simp

@[simp] theorem lives_issueCg (s : State) (a : Agent) (g n : Nat) : lives (issueCg s a g n) = lives s := by
  unfold issueCg
  dsimp only
  split <;> simp

@[simp] theorem lives_startPll (s : State) (c : Nat) : lives (startPll s c) = lives s := by
  unfold startPll
  split <;> simp

@[simp] theorem lives_holdAtEdge (s : State) (c : Nat) (it : EdgeItem) : lives (holdAtEdge s c it) = lives s := by
  unfold holdAtEdge
  dsimp only
  repeat' split
  all_goals simp

@[simp] theorem lives_groupDone (s : State) (a : Agent) (g code : Nat) :
    lives (groupDone s a g code) = lives s := by
  unfold groupDone
  dsimp only
  repeat' split
  all_goals simp

@[simp] theorem lives_doneCg (s : State) (a : Agent) (g code : Nat) : lives (doneCg s a g code) = lives s := by
  unfold doneCg
  repeat' split
  all_goals simp

@[simp] theorem lives_noteCg (s : State) (a : Agent) (g code : Nat) : lives (noteCg s a g code) = lives s := by
  unfold noteCg
  dsimp only
  split <;> simp

@[simp] theorem lives_peerOutCg (s : State) (a : Agent) (g : Nat) (up : Bool) :
    lives (peerOutCg s a g up) = lives s := by
  unfold peerOutCg
  dsimp only
  split <;> simp

@[simp] theorem lives_mergeRun (fuel : Nat) (s : State) (pa : Nat) (bs : List Byte) (poison : Bool) :
    lives (mergeRun s pa bs poison fuel) = lives s := by
  induction fuel generalizing s pa bs with
  | zero => rfl
  | succ fuel ih =>
    cases bs with
    | nil => rfl
    | cons b bs => exact (ih _ _ _).trans (lives_mergeGrain _ _ _ _ _)

@[simp] theorem lives_setLatch (s : State) (n step : Nat) : lives (setLatch s n step) = lives s := by
  refine lives_modCtx ?_
  dsimp only
  split <;> rfl

@[simp] theorem lives_clearLatch (s : State) (n step : Nat) : lives (clearLatch s n step) = lives s := by
  unfold clearLatch
  split
  · refine lives_modCtx ?_
    dsimp only
    split <;> rfl
  · rfl

@[simp] theorem lives_modReductions (s : State) (n id : Nat) (up : Bool) : lives (modReductions s n id up) = lives s :=
  lives_modCtx rfl

/-! ### Peer links and ends of queues (Machine/LinkOps.lean, Machine/QueueOps.lean) -/

@[simp] theorem lives_qconfigLeft (s : State) (o : Out) : lives (qconfigLeft s o) = lives s := by
  unfold qconfigLeft
  split <;> simp

@[simp] theorem lives_sendGroups (s : State) (k : Nat) (lseqs : List Nat) :
    lives (sendGroups s k lseqs) = lives s := by simp [sendGroups]

@[simp] theorem lives_sendOne (s : State) (k cls : Nat) (round : Tbl Nat) :
    lives (sendOne s k cls round) = lives s := by
  unfold sendOne
  dsimp only
  split <;> simp

@[simp] theorem lives_pumpPort (k fuel : Nat) (s : State) : lives (pumpPort k fuel s) = lives s := by
  induction fuel generalizing s with
  | zero => rfl
  | succ fuel ih =>
    unfold pumpPort
    dsimp only
    split
    · rfl
    · split
      · rfl
      · exact (ih _).trans (lives_sendOne _ _ _ _)

@[simp] theorem lives_drainPort (s : State) (k : Nat) : lives (drainPort s k) = lives s := by
  unfold drainPort
  dsimp only
  split <;> simp

@[simp] theorem lives_linkPut (s : State) (q : Sent) : lives (linkPut s q) = lives s := by
  unfold linkPut
  dsimp only
  repeat' split
  all_goals simp

@[simp] theorem lives_linkSend (s : State) (dst cls : Nat) (eseq : Option Nat) (o : Out) :
    lives (linkSend s dst cls eseq o) = lives s := by simp [linkSend]

@[simp] theorem lives_sendBulk (s : State) (dst : Nat) (o : Out) : lives (sendBulk s dst o) = lives s := by simp [sendBulk]

@[simp] theorem lives_nextEseq (s : State) (dst cls : Nat) : lives (nextEseq s dst cls).2 = lives s := (rfl)

@[simp] theorem lives_sendCtl (s : State) (dst : Nat) (o : Out) : lives (sendCtl s dst o) = lives s := by simp [sendCtl]

@[simp] theorem lives_sendQconfig (s : State) (c ep : Nat) (answer : Bool) :
    lives (sendQconfig s c ep answer) = lives s := by simp [sendQconfig]

@[simp] theorem lives_sendQclose (s : State) (c ep : Nat) : lives (sendQclose s c ep) = lives s := by simp [sendQclose]

@[simp] theorem lives_flushFlit (s : State) (c ep : Nat) : lives (flushFlit s c ep) = lives s := by
  unfold flushFlit
  dsimp only
  repeat' split
  all_goals simp

@[simp] theorem lives_dstNotice (s : State) (c ep : Nat) (p : Packet) : lives (dstNotice s c ep p) = lives s := by
  unfold dstNotice
  split
  · rfl
  · refine lives_modCtx ?_
    dsimp only
    split <;> rfl

@[simp] theorem lives_putSaved (cfg : Word) (n c : Nat) (s : State) (pos : Nat) (l : List QWord) :
    lives (putSaved cfg n c s pos l) = lives s := by
  induction l generalizing s pos with
  | nil => rfl
  | cons q l ih => exact (ih _ _).trans (lives_mergeRun _ _ _ _ _)

@[simp] theorem lives_putArrived (s : State) (c : Nat) (e : Endpoint) : lives (putArrived s c e) = lives s := by
  unfold putArrived
  split <;> simp

@[simp] theorem lives_giveNotice (s : State) (c ep : Nat) (truncated : Bool) :
    lives (giveNotice s c ep truncated) = lives s := by simp [giveNotice]

@[simp] theorem lives_openEndAt (s : State) (c ep : Nat) (far : Word) (mate : Option Nat) :
    lives (openEndAt s c ep far mate) = lives s := by simp [openEndAt]

@[simp] theorem lives_answerConfig (s : State) (c ep : Nat) (h : HeldCfg) : lives (answerConfig s c ep h) = lives s := by
  unfold answerConfig
  dsimp only
  repeat' split
  all_goals simp

@[simp] theorem lives_answerDue (s : State) (c ep : Nat) : lives (answerDue s c ep) = lives s := by
  unfold answerDue
  dsimp only
  repeat' split
  all_goals simp

@[simp] theorem lives_finishClose (s : State) (c ep : Nat) : lives (finishClose s c ep) = lives s := by
  unfold finishClose
  dsimp only
  repeat' split
  all_goals simp

@[simp] theorem lives_farClosed (s : State) (c ep words : Nat) : lives (farClosed s c ep words) = lives s := by
  unfold farClosed
  dsimp only
  repeat' split
  all_goals simp

@[simp] theorem lives_closeEnd (s : State) (c ep : Nat) (tellFar : Bool) : lives (closeEnd s c ep tellFar) = lives s := by
  unfold closeEnd
  dsimp only
  repeat' split
  all_goals simp

@[simp] theorem lives_unconfigEnd (s : State) (c ep : Nat) : lives (unconfigEnd s c ep) = lives s := by simp [unconfigEnd]

@[simp] theorem lives_closeCoreEnds (s : State) (c : Nat) : lives (closeCoreEnds s c) = lives s := by simp [closeCoreEnds]

/-! ### Engines of the hubs (Machine/HubOps.lean) -/

@[simp] theorem lives_readPeer (s : State) (pa : Nat) : lives (readPeer s pa).2.2 = lives s := by
  unfold readPeer
  dsimp only
  split <;> simp

@[simp] theorem lives_readGrain (s : State) (pa : Nat) : lives (readGrain s pa).2.2 = lives s := by
  unfold readGrain
  dsimp only
  repeat' split
  all_goals simp

@[simp] theorem lives_writeGrainAt (s : State) (pa : Nat) (data : List Byte) (tag : GrainTag) :
    lives (writeGrainAt s pa data tag) = lives s := by
  unfold writeGrainAt
  dsimp only
  repeat' split
  all_goals simp

@[simp] theorem lives_checkHome (s : State) (pa off len : Nat) : lives (checkHome s pa off len) = lives s := by
  unfold checkHome
  split <;> simp

@[simp] theorem lives_sendToPeer (s : State) (id : Nat) (r : MReq) : lives (sendToPeer s id r) = lives s := by
  unfold sendToPeer
  dsimp only
  split <;> simp

@[simp] theorem lives_sendToHost (s : State) (id : Nat) (r : MReq) : lives (sendToHost s id r) = lives s := by
  unfold sendToHost
  dsimp only
  split <;> simp

@[simp] theorem lives_engineRead (s : State) (n va : Nat) : lives (engineRead s n va).2.2 = lives s := by
  unfold engineRead
  split <;> simp

@[simp] theorem lives_engineWrite (s : State) (n va : Nat) (data : List Byte) (tag : GrainTag) :
    lives (engineWrite s n va data tag) = lives s := by
  unfold engineWrite
  dsimp only
  repeat' split
  all_goals simp

@[simp] theorem lives_groupReq (s : State) (ref : CgRef) (r : MReq) : lives (groupReq s ref r).2 = lives s :=
  lives_issueCg s ref.agent ref.cg 1

@[simp] theorem lives_settleWrites (s : State) (ref : CgRef) (n : Nat) :
    lives (settleWrites s ref n) = lives s := by simp [settleWrites]

@[simp] theorem lives_groupEnds (s : State) (ref : CgRef) (n code : Nat) :
    lives (groupEnds s ref n code) = lives s := by simp [groupEnds]

@[simp] theorem lives_groupWrite (s : State) (ref : CgRef) (n va : Nat) (data : List Byte) (tag : GrainTag) :
    lives (groupWrite s ref n va data tag) = lives s := by
  unfold groupWrite
  dsimp only
  repeat' split
  all_goals simp

@[simp] theorem lives_engineReads (s : State) (n : Nat) (vas : List Nat) : lives (engineReads s n vas).2 = lives s := by
  induction vas generalizing s with
  | nil => rfl
  | cons va vas ih => exact (ih _).trans (lives_engineRead _ _ _)

@[simp] theorem lives_enginePoison (s : State) (ref : CgRef) (n va : Nat) : lives (enginePoison s ref n va) = lives s := by
  unfold enginePoison
  dsimp only
  repeat' split
  all_goals simp

@[simp] theorem lives_raiseAttempt (s : State) (group : Nat) : lives (raiseAttempt s group) = lives s := (rfl)

@[simp] theorem lives_castCtl (s : State) (n mask : Nat) (o : Nat → Out) :
    lives (castCtl s n mask o) = lives s := by simp [castCtl]

@[simp] theorem lives_sendAbort (s : State) (n mask attempt step : Nat) :
    lives (sendAbort s n mask attempt step) = lives s := by simp [sendAbort]

/-! ### Requests and models (Machine/RolloutOps.lean) -/

@[simp] theorem lives_setModel (s : State) (ix : Nat) (m : Model) : lives (setModel s ix m) = lives s := (rfl)

@[simp] theorem lives_detachOne (s : State) (ix n : Nat) : lives (detachOne s ix n) = lives s := by
  unfold detachOne
  dsimp only
  split <;> simp

@[simp] theorem lives_settleSteps (s : State) (n : Nat) : lives (settleSteps s n) = lives s := (rfl)

@[simp] theorem lives_setReq (s : State) (id : Nat) (r : Request) : lives (setReq s id r) = lives s := (rfl)

@[simp] theorem lives_modReq (s : State) (id : Nat) (f : Request → Request) : lives (modReq s id f) = lives s := by
  unfold modReq
  split <;> simp

@[simp] theorem lives_syncReq (s : State) (id : Nat) : lives (syncReq s id) = lives s := by
  unfold syncReq
  dsimp only
  repeat' split
  all_goals simp

@[simp] theorem lives_putEntry (s : State) (id : Nat) (bs : List Byte) : lives (putEntry s id bs) = lives s := by
  unfold putEntry
  dsimp only
  split <;> simp

@[simp] theorem lives_writeHeaders (s : State) (m : Model) (p : PageSet) :
    lives (writeHeaders s m p) = lives s := by simp [writeHeaders]

@[simp] theorem lives_refSet (s : State) (id : Nat) (up : Bool) : lives (refSet s id up) = lives s := by
  unfold refSet
  dsimp only
  repeat' split
  all_goals simp

@[simp] theorem lives_refSets (s : State) (ids : List Nat) (up : Bool) :
    lives (refSets s ids up) = lives s := by simp [refSets]

@[simp] theorem lives_releaseSets (s : State) (id : Nat) : lives (releaseSets s id) = lives s := by
  unfold releaseSets
  split <;> simp

@[simp] theorem lives_endRequest (s : State) (id code : Nat) : lives (endRequest s id code) = lives s := by
  unfold endRequest
  dsimp only
  repeat' split
  all_goals simp

/-! ### Collectives (Machine/Collective.lean) -/

@[simp] theorem lives_modColl (s : State) (id : Nat) (f : Coll → Coll) : lives (modColl s id f) = lives s := by
  unfold modColl
  split <;> simp

@[simp] theorem lives_finishColl (s : State) (id code : Nat) : lives (finishColl s id code) = lives s := by
  unfold finishColl
  dsimp only
  repeat' split
  all_goals simp

@[simp] theorem lives_collLand (s : State) (id : Nat) (v : CollView) (ix : Nat) (data : List Byte) (tag : GrainTag) :
    lives (collLand s id v ix data tag) = lives s := by
  unfold collLand
  dsimp only
  repeat' split
  all_goals simp

@[simp] theorem lives_sendColdata (s : State) (n p flow ix : Nat) (data : List Byte) (tag : GrainTag) :
    lives (sendColdata s n p flow ix data tag) = lives s := by simp [sendColdata]

@[simp] theorem lives_collFlush (s : State) (id : Nat) (m : ArriveMsg) : lives (collFlush s id m) = lives s := by
  unfold collFlush
  dsimp only
  repeat' split
  all_goals simp

@[simp] theorem lives_collReduced (s : State) (id : Nat) (v : CollView) (ix : Nat) (data : List Byte) (poison : Bool) :
    lives (collReduced s id v ix data poison) = lives s := by
  unfold collReduced
  dsimp only
  repeat' split
  all_goals simp

@[simp] theorem lives_collCombine (s : State) (id : Nat) : lives (collCombine s id) = lives s := by
  unfold collCombine
  dsimp only
  split
  · rfl
  · split
    · rfl
    · split
      · rfl
      · split
        · split
          · rfl
          · split
            · rfl
            · simp
        · split
          · split
            · rfl
            · split
              · rfl
              · simp
          · refine lives_foldl _ _ fun s i => ?_
            split
            · rfl
            · split
              · rfl
              · simp

@[simp] theorem lives_collGot (s : State) (id src ix : Nat) (data : List Byte) (tag : GrainTag) :
    lives (collGot s id src ix data tag) = lives s := by
  unfold collGot
  repeat' split
  all_goals simp

@[simp] theorem lives_collCheck (s : State) (id : Nat) : lives (collCheck s id) = lives s := by
  unfold collCheck
  repeat' split
  all_goals simp

@[simp] theorem lives_settleHeader (s : State) (n step va : Nat) (applied : Bool) :
    lives (settleHeader s n step va applied) = lives s := by
  unfold settleHeader
  dsimp only
  split <;> simp

@[simp] theorem lives_settleWhey (s : State) (n step : Nat) (applied : Bool) :
    lives (settleWhey s n step applied) = lives s := by simp [settleWhey]

@[simp] theorem lives_collPoison (s : State) (ref : CgRef) (n va : Nat) : lives (collPoison s ref n va) = lives s := by
  unfold collPoison
  split <;> simp

@[simp] theorem lives_settleDue (s : State) : lives (settleDue s) = lives s := by simp [settleDue]

@[simp] theorem lives_settleReshard (s : State) (id : Nat) (r : Reshard) (applied : Bool) :
    lives (settleReshard s id r applied) = lives s := by
  unfold settleReshard
  dsimp only
  split <;> simp

@[simp] theorem lives_gflagReturn (s : State) (g : GflagWait) (flag : Bool) (rc : Nat) :
    lives (gflagReturn s g flag rc) = lives s := by
  unfold gflagReturn
  dsimp only
  split <;> simp

@[simp] theorem lives_gflagCheck (s : State) (g : GflagWait) : lives (gflagCheck s g) = lives s := by
  unfold gflagCheck
  dsimp only
  split <;> simp

@[simp] theorem lives_gflagSend (s : State) (g : GflagWait) : lives (gflagSend s g) = lives s := by
  unfold gflagSend
  dsimp only
  split <;> simp

@[simp] theorem lives_gflagPump (s : State) : lives (gflagPump s) = lives s := by simp [gflagPump]

@[simp] theorem lives_abortColl (s : State) (id : Nat) (c : Coll) : lives (abortColl s id c) = lives s := by
  unfold abortColl
  refine (lives_finishColl _ _ _).trans ?_
  split
  · rfl
  · refine lives_foldl _ _ fun s i => ?_
    split <;> simp

@[simp] theorem lives_abortReshard (s : State) (id : Nat) (r : Reshard) : lives (abortReshard s id r) = lives s := by
  unfold abortReshard
  dsimp only
  split <;> simp

@[simp] theorem lives_endStep (s : State) (n attempt step : Nat) : lives (endStep s n attempt step) = lives s := by
  unfold endStep
  dsimp only
  repeat' split
  all_goals simp

@[simp] theorem lives_collArrived (s : State) (id : Nat) (m : ArriveMsg) :
    lives (collArrived s id m) = lives s := by
  unfold collArrived
  dsimp only
  repeat' split
  all_goals simp

@[simp] theorem lives_takeEarly (s : State) (group attempt step colseq : Nat) :
    lives (takeEarly s group attempt step colseq).2 = lives s := (rfl)

@[simp] theorem lives_wheyRead (s : State) (n : Nat) (v : CollView) :
    lives (wheyRead s n v).2.2 = lives s := by simp [wheyRead]

@[simp] theorem lives_wheyWrite (s : State) (c : Coll) (v : CollView) (cur : Nat) (w : List (List Byte × Bool)) :
    lives (wheyWrite s c v cur w) = lives s := by simp [wheyWrite]

@[simp] theorem lives_takeInbox (s : State) (id : Nat) (c : Coll) : lives (takeInbox s id c) = lives s := by simp [takeInbox]

@[simp] theorem lives_collRead (s : State) (id : Nat) (c : Coll) (v : CollView) : lives (collRead s id c v) = lives s := by
  unfold collRead
  dsimp only
  repeat' split
  all_goals simp

@[simp] theorem lives_collBegin (s : State) (id : Nat) (c : Coll) (v : CollView) : lives (collBegin s id c v) = lives s := by
  unfold collBegin
  dsimp only
  repeat' split
  all_goals simp

theorem lives_collStart {go : State → State} (h : ∀ s, lives (go s) = lives s) (s : State) : lives (collStart go s) = lives s := by
  unfold collStart
  split
  · rfl
  · split
    · exact (h _).trans (by simp)
    · exact (h _).trans (by simp)
    · rfl

@[simp] theorem lives_pumpColls (fuel : Nat) (s : State) : lives (pumpColls fuel s) = lives s := by
  induction fuel generalizing s with
  | zero => rfl
  | succ fuel ih =>
    rw [pumpColls_succ]
    exact lives_collStart ih s

@[simp] theorem lives_collResume (s : State) (id : Nat) : lives (collResume s id) = lives s := by
  unfold collResume
  repeat' split
  all_goals simp

@[simp] theorem lives_hubSettle (s : State) : lives (hubSettle s) = lives s := by simp [hubSettle]

@[simp] theorem lives_releaseHeld (s : State) : lives (releaseHeld s) = lives s := by simp [releaseHeld]

@[simp] theorem lives_dropHubWork (s : State) (n : Nat) : lives (dropHubWork s n) = lives s := by simp [dropHubWork]

/-! ### Teardown (Machine/Teardown.lean) -/

@[simp] theorem lives_dropSample (s : State) (n c : Nat) : lives (dropSample s n c) = lives s := by
  unfold dropSample
  split
  · exact lives_modCtx rfl
  · rfl

@[simp] theorem lives_setFaultRec (s : State) (n : Nat) (f : FaultRec) : lives (setFaultRec s n f) = lives s := by
  have record : lives (modCtx s n fun x => { x with fault := f }) = lives s := lives_modCtx rfl
  unfold setFaultRec
  dsimp only
  split
  · exact record
  · exact (lives_writeGrain _ _ _ _).trans record

/-- Dropping a context's work in the update engines changes no context's state. -/
@[simp] theorem lives_state_dropUpdWork (s : State) (n : Nat) : (lives (dropUpdWork s n)).state = (lives s).state := (rfl)

@[simp] theorem lives_state_stopWork (s : State) (n : Nat) : (lives (stopWork s n)).state = (lives s).state := by
  simp [stopWork]

/-- A context is in ENDING once its teardown has begun, if it was live (Table 15.2). -/
theorem state_beginTeardown {s : State} {n : Nat} (reason : Reason) (live : (getCtx s n).state = ctxLive) :
    (getCtx (beginTeardown s n reason) n).state = ctxEnding := by
  change (lives (beginTeardown s n reason)).state n = ctxEnding
  have active : ctxActive (getCtx s n) = true := by simp [ctxActive, live]
  have created : (getCtx s n).state ≠ ctxCreated := by simp [live, ctxLive, ctxCreated]
  simp only [beginTeardown, active, if_neg created, Bool.not_true, Bool.false_eq_true, if_false]
  split
  all_goals
    simp only [lives_dropHubWork, lives_settleSteps, lives_foldl, lives_detachOne, lives_endRequest, lives_state_stopWork,
      implies_true]
    simp [lives]

/-- A context fault ends a live context (R100). -/
theorem state_ctxFault {s : State} {n : Nat} (f : FaultRec) (live : (getCtx s n).state = ctxLive) :
    (getCtx (ctxFault s n f) n).state = ctxEnding := by
  rw [ctxFault, if_pos (by simp [live])]
  refine state_beginTeardown _ ?_
  rw [← live]
  exact congrFun (congrArg Lives.state (lives_setFaultRec s n _)) n

end Machine
end Sys2Proof
end

section
/-! The proof of the statement of 06_movement_and_control_instructions about update operations, their queue and snapshots (R155, R232,
R235, R253). -/

namespace Sys2Proof
namespace Machine

open Host

/-! ### UPDOP (R155, R235) -/

/-- The six forms of UPDOP, with the operation that each names. -/
abbrev updopForms (a : Agent) (w : Word) : List (Instr × Nat) :=
  [(.updopOpen a w, 0), (.updopNorm a w, 1), (.updopStep a w, 2), (.updopRegen a w, 3), (.updopFlush a w, 4), (.updopKvgather a w, 5)]

theorem exec_of_updopForms {i : Instr} {a : Agent} {op : Nat} {w : Word} (form : (i, op) ∈ updopForms a w) (s : State) :
    exec i s = runInstr rowUpdop a w (updopBody op a w) s := by
  simp only [updopForms, List.mem_cons, Prod.mk.injEq, List.not_mem_nil, or_false] at form
  rcases form with ⟨rfl, rfl⟩ | ⟨rfl, rfl⟩ | ⟨rfl, rfl⟩ | ⟨rfl, rfl⟩ | ⟨rfl, rfl⟩ | ⟨rfl, rfl⟩
  all_goals rfl

/-- An operation as UPDOP puts it in the queue, in the state `q` in which its request counts. -/
def updopQueued (s q : State) (a : Agent) (n : Nat) (w : Word) : UpdOp :=
  { ctx := n, agent := a, desc := dOf s a (iSrc3 w), tensor := dOf s a (iSrc1 w), step := (sOf q a (iSrc2 w)).toNat % 2 ^ 32,
    cg := bits (iImm w) 31 28, insn := w, ip := (threadOf q a).ip, block := (threadOf q a).block, order := q.serial }

/-- The state in which an operation stands in the queue, just before it starts if nothing blocks it. -/
def withQueued (q : State) (o : UpdOp) : State :=
  modUpd q fun u => { u with ops := tput u.ops q.upd.nextOp o, nextOp := q.upd.nextOp + 1 }

/-- What UPDOP does once its checks are passed. -/
def updopChecked (s : State) (a : Agent) (n : Nat) (w : Word) (t : Tensor) : IRes :=
  let q := bump (issueCg s a (bits (iImm w) 31 28) 1)
  let r := startUpd (withQueued q (updopQueued s q a n w)) q.upd.nextOp
  if t.elems == 0 then .done (emptyCg s a (some (bits (iImm w) 31 28)))
  else if opQueueFull s (stackOfVa s n t.base) then .park s 3 (.updQueue (stackOfVa s n t.base))
  else if (getCtx r n).state = ctxLive then .done r else .stop r

section
variable {s : State} {a : Agent} {n op : Nat} {i : Instr} {w : Word} {d : UpdDesc} {t : Tensor}
  (form : (i, op) ∈ updopForms a w) (h : Issues rowUpdop s a n w) (desc : updDescOf (dOf s a (iSrc3 w)) = some d)
  (tensor : tensorOf (dOf s a (iSrc1 w)) = some t) (named : d.op = op) (role : (getCtx s n).dst.role ≠ 1 ∨ op = 5)
  (suits : updTensorOk op t = true) (opens : op = 0 → openFieldsOk t = true)

include desc tensor named role suits opens in
theorem updopBody_checked : updopBody op a w n s = updopChecked s a n w t := by
  have roleOk : (decide ((getCtx s n).dst.role = 1) && op != updKvgather) = false := by
    rcases role with student | gathers
    · simp [student]
    · simp [gathers, updKvgather]
  have opensOk : (op == updOpen && !openFieldsOk t) = false := by
    by_cases first : op = updOpen
    · simp [opens first]
    · simp [first]
  unfold updopBody updopChecked
  generalize startUpd = start -- not to be evaluated in the last test of `updopBody`
  simp only [withQueued, updopQueued, desc, tensor, named, bne_self_eq_false, roleOk, suits, opensOk, Bool.not_true,
    Bool.false_eq_true, if_false]
  rfl

include form h desc tensor named role suits opens

theorem exec_updop {q r : State} (elems : t.elems ≠ 0) (room : opQueueFull s (stackOfVa s n t.base) = false)
    (counted : bump (issueCg s a (bits (iImm w) 31 28) 1) = q)
    (started : startUpd (withQueued q (updopQueued s q a n w)) q.upd.nextOp = r) (live : (getCtx r n).state = ctxLive) :
    exec i s = .next (thenNext s r a n) := by
  rw [exec_of_updopForms form]
  refine runInstr_done h ((updopBody_checked desc tensor named role suits opens).trans ?_)
  simp [updopChecked, elems, room, counted, started, live]

theorem exec_updop_empty (empty : t.elems = 0) :
    exec i s = .next (thenNext s (emptyCg s a (some (bits (iImm w) 31 28))) a n) := by
  rw [exec_of_updopForms form]
  refine runInstr_done h ((updopBody_checked desc tensor named role suits opens).trans ?_)
  simp [updopChecked, empty]

theorem exec_updop_waits (elems : t.elems ≠ 0) (full : opQueueFull s (stackOfVa s n t.base) = true) :
    exec i s = .next (parkAgent s a 3 (.updQueue (stackOfVa s n t.base))) := by
  rw [exec_of_updopForms form]
  refine runInstr_park h ((updopBody_checked desc tensor named role suits opens).trans ?_)
  simp [updopChecked, elems, full]

end

/-! ### The queue of operations (R235) -/

section
variable {s : State} {id : Nat} {o : UpdOp} (queued : tfind s.upd.ops id = some o)
include queued

theorem startUpd_unblocked {d : UpdDesc} {t : Tensor} (free : opBlocked s o = false) (desc : updDescOf o.desc = some d)
    (tensor : tensorOf o.tensor = some t) : startUpd s id = endUpd (modUpd s fun u => { u with ops := tdel u.ops id }) o d t := by
  simp [startUpd, queued, free, desc, tensor]

theorem startUpd_blocked (blocked : opBlocked s o = true) : startUpd s id = s := by simp [startUpd, queued, blocked]

end

/-- An operation that runs to its end completes a request of its group with the code. -/
theorem endUpd_ok {s s' : State} {o : UpdOp} {d : UpdDesc} {t : Tensor} {rc : Nat} (run : runUpd (queueFreed s) o d t = (.ok rc, s')) :
    endUpd s o d t = groupEnds s' { agent := o.agent, cg := o.cg } o.ctx (updCode s.mem.tierFailed s' rc) := by
  simp only [endUpd, run]

/-- An operation is blocked by an earlier one of its context on one of its objects. -/
theorem opBlocked_of_earlier {s : State} {id b : Nat} {o e : UpdOp} (queued : (id, e) ∈ s.upd.ops) (ctx : e.ctx = o.ctx)
    (earlier : e.order < o.order) (on : b ∈ opObjects s e) (mine : b ∈ opObjects s o) : opBlocked s o = true := by
  have behind : (s.upd.ops.any fun e => e.2.ctx == o.ctx && decide (e.2.order < o.order) &&
      (opObjects s e.2).any (opObjects s o).contains) = true := by
    rw [List.any_eq_true]
    exact ⟨(id, e), queued, by simpa [ctx, earlier] using ⟨b, on, mine⟩⟩
  simp [opBlocked, behind]

/-! ### Snapshots (R253) -/

@[simp] theorem lives_fetchGrain (s : State) (n va : Nat) : lives (fetchGrain s n va).2.2.2 = lives s := lives_engineRead s n va

@[simp] theorem lives_engineMerge (s : State) (ref : CgRef) (n va off : Nat) (bs : List Byte) :
    lives (engineMerge s ref n va off bs) = lives s := by
  unfold engineMerge
  dsimp only
  repeat' split
  all_goals simp

@[simp] theorem lives_mirrorValid (s : State) (n va bank : Nat) (v : Bool) : lives (mirrorValid s n va bank v) = lives s := by
  simp [mirrorValid]

/-- The copy of a snapshot's runs, grain by grain. -/
def copyRuns (s : State) (x : Snapshot) : State :=
  x.runs.foldl (fun s r => (List.range r.2.2).foldl (fun s i =>
    let (d, t, s) := engineRead s x.ctx (r.1 + 256 * i)
    engineWrite s x.ctx (r.2.1 + 256 * i) d t) s) s

theorem lives_copyRuns (s : State) (x : Snapshot) : lives (copyRuns s x) = lives s := by simp [copyRuns]

/-- A snapshot's copy leaves operations and sessions of the update engines alone. -/
theorem copySnapshot_upd (s : State) (id : Nat) :
    (copySnapshot s id).upd.ops = s.upd.ops ∧ (copySnapshot s id).upd.sessions = s.upd.sessions := by
  unfold copySnapshot
  split
  · exact ⟨rfl, rfl⟩
  next x found =>
    have copied : (copyRuns s x).upd = s.upd := congrArg Lives.upd (lives_copyRuns s x)
    change (copyRuns s x).upd.ops = s.upd.ops ∧ (copyRuns s x).upd.sessions = s.upd.sessions
    rw [copied]
    exact ⟨rfl, rfl⟩

/-- The state in which a snapshot's bank is complete and valid, before the snapshot is closed. -/
def snapshotFilled (s : State) (id : Nat) (x : Snapshot) : State :=
  engineMerge (mirrorValid (copySnapshot s id) x.ctx x.mirrorVa x.bank true) { agent := .ctl x.ctx, cg := 0 } x.ctx x.mirrorVa
    (8 + 4 * x.bank) (leBytes 4 x.step)

theorem snapshotFilled_upd (s : State) (id : Nat) (x : Snapshot) :
    (snapshotFilled s id x).upd.ops = s.upd.ops ∧ (snapshotFilled s id x).upd.sessions = s.upd.sessions := by
  have filled : lives (snapshotFilled s id x) = lives (copySnapshot s id) := by simp [snapshotFilled]
  have upd : (snapshotFilled s id x).upd = (copySnapshot s id).upd := congrArg Lives.upd filled
  rw [upd]
  exact copySnapshot_upd s id

theorem exec_snapshotComplete {s : State} {id : Nat} {x : Snapshot} (found : tfind s.upd.snapshots id = some x) :
    exec (.snapshotComplete id) s =
      .next (modUpd (snapshotFilled s id x) fun u => { u with snapshots := tdel u.snapshots id }) := by
  change execSnapshotComplete id s = _
  simp only [execSnapshotComplete, found]
  rfl

/-- Settles O22: UPDOP on its three paths, the start of an operation and what blocks it, and the end of a snapshot. -/
theorem updateOperations : Obligations.UpdateOperations := by
  refine ⟨?_, ?_, fun s id o d t queued free desc tensor => congrArg Outcome.next (startUpd_unblocked queued free desc tensor),
    fun s id o queued blocked => congrArg Outcome.next (startUpd_blocked queued blocked), fun s s' o d t rc run => endUpd_ok run,
    fun s id b o e queued ctx earlier on mine => opBlocked_of_earlier queued ctx earlier on mine, ?_⟩
  · rintro s q r a n op i w d t _ form h desc tensor named role suits opens elems room counted rfl started live
    exact exec_updop form h desc tensor named role suits opens elems room counted started live
  · intro s a n op i w d t form h desc tensor named role suits opens
    exact ⟨fun empty => exec_updop_empty form h desc tensor named role suits opens empty,
      fun elems full => exec_updop_waits form h desc tensor named role suits opens elems full⟩
  · intro s id x found
    obtain ⟨ops, sessions⟩ := snapshotFilled_upd s id x
    exact ⟨_, exec_snapshotComplete found, tfind_tdel_same _ _, ops, sessions, rfl⟩

end Machine
end Sys2Proof
end

section
/-! The proofs of the statements of 06_movement_and_control_instructions about what instructions of a core leave unchanged: the module
beside the core, the core's other registers, and the scratchpad outside what is stored (R99, R121, R159, R161). -/

namespace Sys2Proof
namespace Machine

open Host

/-! ### Frames

What an instruction of thread `k` of core `c` of context `n`, with DST `dst`, leaves as it was: of its core, and of the module. The
scratchpad bytes are those at the offsets `out`. -/

/-- Of a core: its other threads, the other registers of the thread, and the bytes. -/
structure Keeps (k dst : Nat) (out : Nat → Prop) (x y : Core) : Prop where
  threads : ∀ j, j ≠ k → getThread y j = getThread x j
  scalars : ∀ r, r ≠ dst → getS (getThread y k) r = getS (getThread x k) r
  descs : ∀ r, r ≠ dst → tget 0 y.d r = tget 0 x.d r
  bytes : Memory.wf x.sp = true → Memory.wf y.sp = true ∧ ∀ off, out off → readByte y.sp off = readByte x.sp off

/-- Of the module: all but its core and the rest of its context, which lives on. -/
structure Frame (c k n dst : Nat) (out : Nat → Prop) (s t : State) : Prop where
  mem : t.mem = s.mem
  cores : ∀ d, d ≠ c → getCore t d = getCore s d
  core : Keeps k dst out (getCore s c) (getCore t c)
  ctx : (getCtx t n).state = (getCtx s n).state
  parts : t.parts = s.parts
  ports : t.ports = s.ports
  models : t.models = s.models
  rollout : t.rollout = s.rollout
  hub : t.hub = s.hub
  upd : t.upd = s.upd

section
variable {c k n dst : Nat} {out : Nat → Prop} {s t u : State} {x y z : Core}

/-! ### Frames of a core -/

/-- A core with its threads, descriptors and scratchpad as they were. -/
theorem Keeps.of_same (threads : y.threads = x.threads) (d : y.d = x.d) (sp : y.sp = x.sp) : Keeps k dst out x y := by
  have thread (j : Nat) : getThread y j = getThread x j := by rw [getThread, threads, getThread]
  exact ⟨fun j _ => thread j, fun r _ => by rw [thread], fun r _ => by rw [d], fun w => by rw [sp]; exact ⟨w, fun _ _ => rfl⟩⟩

theorem Keeps.refl (x : Core) : Keeps k dst out x x := .of_same rfl rfl rfl

theorem Keeps.trans (a : Keeps k dst out x y) (b : Keeps k dst out y z) : Keeps k dst out x z where
  threads j h := (b.threads j h).trans (a.threads j h)
  scalars r h := (b.scalars r h).trans (a.scalars r h)
  descs r h := (b.descs r h).trans (a.descs r h)
  bytes w := by
    obtain ⟨wy, ya⟩ := a.bytes w
    obtain ⟨wz, zb⟩ := b.bytes wy
    exact ⟨wz, fun off h => (zb off h).trans (ya off h)⟩

/-- From a core whose lanes' counters have moved on. -/
theorem Keeps.drawn {pep : Tbl Nat} (kept : Keeps k dst out { x with pepper := pep } y) : Keeps k dst out x y :=
  .trans (y := { x with pepper := pep }) (.of_same rfl rfl rfl) kept

/-- The thread itself changes, but for its scalar registers other than DST. -/
theorem Keeps.setThread {v : Thread} (scalars : ∀ r, r ≠ dst → getS v r = getS (getThread x k) r) :
    Keeps k dst out x (setThread x k v) where
  threads j h := tget_tput_ne _ _ _ _ _ h.symm
  scalars r h := by rw [getThread_setThread_same, scalars r h]
  descs _ _ := rfl
  bytes w := ⟨w, fun _ _ => rfl⟩

/-- Bytes at runs that lie apart from an offset leave the byte there as it was. -/
theorem readByte_writeRuns (runs : List (Nat × List Byte)) (m : List Host.Cell) (w : Memory.wf m = true) :
    Memory.wf (runs.foldl (fun m r => writeBytes m r.1 r.2) m) = true ∧
      ∀ off, (∀ r ∈ runs, off < r.1 ∨ r.1 + r.2.length ≤ off) →
        readByte (runs.foldl (fun m r => writeBytes m r.1 r.2) m) off = readByte m off := by
  induction runs generalizing m with
  | nil => exact ⟨w, fun _ _ => rfl⟩
  | cons r runs ih =>
    obtain ⟨wf, kept⟩ := ih _ (writeBytes_wf r.2 m r.1 w)
    refine ⟨wf, fun off apart => ?_⟩
    rw [List.forall_mem_cons] at apart
    exact (kept off apart.2).trans (readByte_writeBytes_out r.2 m r.1 off w apart.1)

theorem Keeps.spPut {runs : List (Nat × List Byte)} {bad : List Nat}
    (apart : ∀ off, out off → ∀ r ∈ runs, off < r.1 ∨ r.1 + r.2.length ≤ off) : Keeps k dst out x (spPut x runs bad) where
  threads _ _ := rfl
  scalars _ _ := rfl
  descs _ _ := rfl
  bytes w := by
    obtain ⟨wf, kept⟩ := readByte_writeRuns runs x.sp w
    exact ⟨wf, fun off h => kept off (apart off h)⟩

/-! ### Frames of the module -/

theorem Frame.refl (s : State) : Frame c k n dst out s s :=
  ⟨rfl, fun _ _ => rfl, .refl _, rfl, rfl, rfl, rfl, rfl, rfl, rfl⟩

theorem Frame.trans (a : Frame c k n dst out s t) (b : Frame c k n dst out t u) : Frame c k n dst out s u where
  mem := b.mem.trans a.mem
  cores d h := (b.cores d h).trans (a.cores d h)
  core := a.core.trans b.core
  ctx := b.ctx.trans a.ctx
  parts := b.parts.trans a.parts
  ports := b.ports.trans a.ports
  models := b.models.trans a.models
  rollout := b.rollout.trans a.rollout
  hub := b.hub.trans a.hub
  upd := b.upd.trans a.upd

/-- A change of the core. -/
theorem Frame.setCore (kept : Keeps k dst out (getCore s c) y) : Frame c k n dst out s (setCore s c y) where
  mem := rfl
  cores d h := tget_tput_ne _ _ _ _ _ h.symm
  core := by rwa [getCore_setCore]
  ctx := rfl
  parts := rfl
  ports := rfl
  models := rfl
  rollout := rfl
  hub := rfl
  upd := rfl

theorem Frame.modCore {f : Core → Core} (kept : Keeps k dst out (getCore s c) (f (getCore s c))) :
    Frame c k n dst out s (modCore s c f) := .setCore kept

/-- A change of the thread, but for its scalar registers other than DST. -/
theorem Frame.modThread {f : Thread → Thread} (scalars : ∀ v r, r ≠ dst → getS (f v) r = getS v r) :
    Frame c k n dst out s (modThread s (.thread c k) f) :=
  .modCore (f := fun x => Machine.setThread x k (f (getThread x k))) (.setThread (scalars _))

theorem Frame.putS {v : Word} : Frame c k n dst out s (putS s (.thread c k) dst v) :=
  .modThread fun t r h => getS_setS_ne t dst r v h.symm

theorem Frame.putD {v : BitVec 256} : Frame c k n dst out s (putD s (.thread c k) dst v) :=
  .modCore (f := fun x => { x with d := tput x.d dst v })
    ⟨fun _ _ => rfl, fun _ _ => rfl, fun _ h => tget_tput_ne _ _ _ _ _ h.symm, fun w => ⟨w, fun _ _ => rfl⟩⟩

/-- A change of the context's numeric state. -/
theorem Frame.modNum {f : Num → Num} : Frame c k n dst out s (modCtx s n fun x => { x with num := f x.num }) where
  mem := rfl
  cores _ _ := rfl
  core := .refl _
  ctx := by rw [getCtx_modCtx]
  parts := rfl
  ports := rfl
  models := rfl
  rollout := rfl
  hub := rfl
  upd := rfl

theorem Frame.foldl {α : Type} {f : State → α → State} (step : ∀ s a, Frame c k n dst out s (f s a)) (l : List α) (s : State) :
    Frame c k n dst out s (l.foldl f s) := by
  induction l generalizing s with
  | nil => exact .refl s
  | cons a l ih => exact (step s a).trans (ih _)

/-- An instruction that waits leaves its thread parked, and counted. -/
theorem Frame.park {cause : Nat} {wait : Park} : Frame c k n dst out s (parkAgent s (.thread c k) cause wait) := by
  have bumped : Frame c k n dst out s (bump s) := ⟨rfl, fun _ _ => rfl, .refl _, rfl, rfl, rfl, rfl, rfl, rfl, rfl⟩
  refine bumped.trans (.trans (.modThread (f := fun t => { t with st := .parked cause wait (bump s).serial }) fun _ _ _ => rfl) ?_)
  exact .modCore (f := fun x => { x with parks := x.parks + 1 }) (.of_same rfl rfl rfl)

/-- A thread that goes on, where its context lives on. -/
theorem Frame.advance {ip : Nat} (before : (getCtx s n).state = ctxLive)
    (live : (getCtx (advance s (.thread c k) n ip) n).state = ctxLive) : Frame c k n dst out s (advance s (.thread c k) n ip) := by
  have moved : Frame c k n dst out s (Machine.modThread s (.thread c k) fun t => { t with ip := ip, woken := none, sent := 0 }) :=
    .modThread fun _ _ _ => rfl
  unfold Machine.advance at live ⊢
  dsimp only at live ⊢
  split at live
  next inside => rwa [if_pos inside]
  next outside =>
    rw [state_ctxFault _ (moved.ctx.trans before)] at live
    exact absurd live (by decide)

/-! ### From what an instruction does to its end -/

/-- Whatever state an instruction's definition leaves, other than a fault's, is as said. -/
def IRes.Leaves (r : IRes) (P : State → Prop) : Prop :=
  match r with
  | .done t => P t
  | .jump t _ => P t
  | .park t _ _ => P t
  | .stop t => P t
  | .fault _ _ _ => True

/-- A frame of what an instruction does is one of the instruction, where its context lives on. -/
theorem frame_runInstr {row : Row} {w : Word} {body : Nat → State → IRes} (h : Issues row s (.thread c k) n w)
    (run : runInstr row (.thread c k) w body s = .next t) (live : (getCtx t n).state = ctxLive)
    (left : (body n s).Leaves (Frame c k n dst out s)) : Frame c k n dst out s t := by
  have before : (getCtx s n).state = ctxLive := by
    obtain ⟨-, can, -⟩ := h
    simp only [canIssue, Bool.and_eq_true, beq_iff_eq] at can
    obtain ⟨⟨⟨⟨before, -⟩, -⟩, -⟩, -⟩ := can
    exact before
  cases ended : body n s with
  | done u =>
    rw [ended] at left
    cases run.symm.trans (runInstr_done h ended)
    exact left.trans (.advance (left.ctx.trans before) live)
  | jump u ip =>
    rw [ended] at left
    cases run.symm.trans (runInstr_jump h ended)
    exact left.trans (.advance (left.ctx.trans before) live)
  | park u cause wait =>
    rw [ended] at left
    cases run.symm.trans (runInstr_park h ended)
    exact left.trans .park
  | stop u =>
    rw [ended] at left
    cases run.symm.trans (runInstr_stop h ended)
    exact left
  | fault code addr own =>
    cases run.symm.trans (runInstr_ctxFault h ended rfl)
    rw [state_ctxFault _ before] at live
    exact absurd live (by decide)

/-- The predicate that ends an instruction is no scalar register. -/
theorem Frame.doneEpe {epe v : Bool} {sel : Nat} (left : Frame c k n dst out s t) :
    (doneEpe t (.thread c k) epe sel v).Leaves (Frame c k n dst out s) := by
  refine left.trans (.modThread fun v r _ => ?_)
  unfold writeEpe
  split <;> rfl

/-! ### The guard of the scratchpad -/

/-- What the guard of a slot answers: the core with other rings, or why the instruction may not proceed. -/
def Passes (k dst : Nat) (out : Nat → Prop) (x : Core) (answer : Core ⊕ Guard) : Prop :=
  match answer with
  | .inl y => Keeps k dst out x y
  | .inr (.ok _) => False
  | .inr _ => True

theorem passes_readSlot (ring thr ix : Nat) : Passes k dst out x (readSlot x ring thr ix) := by
  have same : Keeps k dst out x x := .refl x
  unfold readSlot
  split
  · exact same
  split
  · exact same
  split
  · trivial
  · trivial
  · split
    · exact Keeps.of_same rfl rfl rfl
    · exact same
  · exact same

theorem passes_writeSlot (ring thr ix : Nat) : Passes k dst out x (writeSlot x ring thr ix) := by
  have same : Keeps k dst out x x := .refl x
  unfold writeSlot
  split
  · exact same
  split
  · exact same
  split
  · trivial
  split
  · split
    · trivial
    · exact Keeps.of_same rfl rfl rfl
  · split
    · exact same
    · trivial
  · trivial

theorem passes_guardSlots {f : Core → Nat → Nat → Core ⊕ Guard} (step : ∀ y ring ix, Passes k dst out y (f y ring ix))
    (runs : List (Nat × Nat)) : Passes k dst out x (guardSlots f x runs) := by
  have folded (slots : List (Nat × Nat)) (acc : Core ⊕ Guard) (start : Passes k dst out x acc) :
      Passes k dst out x (slots.foldl (fun acc p => match acc with | .inr g => .inr g | .inl x => f x p.1 p.2) acc) := by
    induction slots generalizing acc with
    | nil => exact start
    | cons p slots ih =>
      refine ih _ ?_
      cases acc with
      | inr g => exact start
      | inl y =>
        have next := step y p.1 p.2
        dsimp only
        revert next
        cases f y p.1 p.2 with
        | inl z => exact Keeps.trans start
        | inr g => cases g <;> exact id
  exact folded _ _ (Keeps.refl x)

theorem guardSp_keeps {reads writes : List (Nat × Nat)} (ok : guardSp s c k reads writes = .ok u) :
    ∃ y, Keeps k dst out (getCore s c) y ∧ u = setCore s c y := by
  unfold guardSp at ok
  split at ok
  · cases ok
  · dsimp only at ok
    have wrote : Passes k dst out (getCore s c) (guardSlots (fun x r ix => writeSlot x r k ix) (getCore s c) writes) :=
      passes_guardSlots (fun y r ix => passes_writeSlot r k ix) writes
    split at ok
    next g stopped =>
      rw [stopped, ok] at wrote
      exact wrote.elim
    next y written =>
      rw [written] at wrote
      have read : Passes k dst out y (guardSlots (fun x r ix => readSlot x r k ix) y reads) :=
        passes_guardSlots (fun y r ix => passes_readSlot r k ix) reads
      split at ok
      next g stopped =>
        rw [stopped, ok] at read
        exact read.elim
      next z passed =>
        rw [passed] at read
        cases ok
        exact ⟨z, wrote.trans read, rfl⟩

/-- An instruction that its guard lets proceed starts from a core with other rings. -/
theorem leaves_guarded {reads writes : List (Nat × Nat)} {f : State → IRes}
    (go : ∀ y, Keeps k dst out (getCore s c) y → (f (setCore s c y)).Leaves (Frame c k n dst out s)) :
    (guarded s (guardSp s c k reads writes) f).Leaves (Frame c k n dst out s) := by
  cases guard : guardSp s c k reads writes with
  | ok u =>
    obtain ⟨y, kept, rfl⟩ := guardSp_keeps (dst := dst) (out := out) guard
    exact go y kept
  | park cause wait => exact .refl s
  | fault code => trivial

/-- A vector or matrix instruction of operands that its checks refuse is a fault; without an element it leaves what it says, and else
it proceeds under its guard. -/
theorem leaves_checked {refused empty : Prop} [Decidable refused] [Decidable empty] {r : IRes} {reads writes : List (Nat × Nat)}
    {f : State → IRes} (none : r.Leaves (Frame c k n dst out s))
    (go : ¬empty → ∀ y, Keeps k dst out (getCore s c) y → (f (setCore s c y)).Leaves (Frame c k n dst out s)) :
    (if refused then descFault else if empty then r else guarded s (guardSp s c k reads writes) f).Leaves
      (Frame c k n dst out s) := by
  split
  · trivial
  split
  · exact none
  next sized => exact leaves_guarded (go sized)

/-! ### Output tiles -/

theorem cols_ne_zero {o : Tile} (sized : ¬(o.rows = 0 || o.cols = 0) = true) : o.cols ≠ 0 := by
  simp only [Bool.or_eq_true, decide_eq_true_eq, not_or] at sized
  exact sized.2

/-- An offset apart from every run of a tile. -/
def Tile.Clear (o : Tile) (off : Nat) : Prop := ∀ r ∈ o.runs, off < r.1 ∨ r.1 + r.2 ≤ off

@[simp] theorem length_leBytes (n v : Nat) : (leBytes n v).length = n := by
  induction n generalizing v with
  | zero => rfl
  | succ n ih => exact congrArg (· + 1) (ih _)

theorem length_packRow (o : Tile) (r : Nat) (raws : List Nat) : (packRow x o r raws).length = o.rowBytes := by
  simp [packRow]

/-- The runs of a row are runs of its tile. -/
theorem mem_runs {o : Tile} {r : Nat} {run : Nat × Nat} (some : o.cols ≠ 0) (row : r < o.rows) (mem : run ∈ o.rowRuns r) :
    run ∈ o.runs := by
  rw [Tile.runs, if_neg some]
  exact List.mem_flatMap.mpr ⟨r, List.mem_range.mpr row, mem⟩

/-- A written tile stores within its own runs: one row of bytes and one of scales for each of its rows. -/
theorem Keeps.writeTile {o : Tile} {rows : List (List OutElem)} {scales : List (List Nat)} (apart : ∀ off, out off → o.Clear off)
    (some : o.cols ≠ 0) (height : rows.length ≤ o.rows) (scaleHeight : scales.length ≤ o.rows)
    (width : isBlockF o.fmt = true → ∀ e ∈ scales, e.length = o.cols / 32) : Keeps k dst out x (writeTile x o rows scales) := by
  refine .spPut fun off clear run mem => ?_
  rw [List.mem_append] at mem
  rcases mem with data | scale
  · obtain ⟨⟨elems, r⟩, row, rfl⟩ := List.mem_map.mp data
    have inside : r < o.rows := lt_of_lt_of_le (List.snd_lt_of_mem_zipIdx row) height
    rw [length_packRow]
    exact apart off clear _ (mem_runs some inside (List.mem_cons_self ..))
  · split at scale
    next block =>
      obtain ⟨⟨line, r⟩, row, rfl⟩ := List.mem_map.mp scale
      have inside : r < o.rows := lt_of_lt_of_le (List.snd_lt_of_mem_zipIdx row) scaleHeight
      have line : line.length = o.scaleBytes := by rw [width block _ (List.fst_mem_of_mem_zipIdx row), Tile.scaleBytes, if_pos block]
      rw [List.length_map, line]
      exact apart off clear (o.scale + r * o.scalePitch, o.scaleBytes) (mem_runs some inside (by simp [Tile.rowRuns, block]))
    next => cases scale


/-- A written tile without scales. -/
theorem Keeps.writeRows {o : Tile} {rows : List (List OutElem)} (apart : ∀ off, out off → o.Clear off) (some : o.cols ≠ 0)
    (height : rows.length ≤ o.rows) : Keeps k dst out x (Machine.writeTile x o rows []) :=
  .writeTile apart some height (Nat.zero_le _) fun _ _ none => by cases none

/-! ### Rounded output -/

/-- A grid has a row of the width for each of its rows. -/
theorem gridOf_shape {α : Type} {rows cols : Nat} {f : Nat → Nat → α} :
    (gridOf rows cols f).length = rows ∧ ∀ r ∈ gridOf rows cols f, r.length = cols := by
  refine ⟨by simp [gridOf], fun r mem => ?_⟩
  obtain ⟨i, -, rfl⟩ := List.mem_map.mp mem
  simp

theorem length_scales_roundBlock (q : RndCfg) (f r col : Nat) (present : Option Nat) (vs : List FVal) (pep : Tbl Nat) :
    (roundBlock q f r col present vs pep).scales.length = 1 := by
  unfold roundBlock
  dsimp only
  split <;> rfl

/-- A scale for each block. -/
theorem length_scales_roundBlocks (q : RndCfg) (f r : Nat) (present : Nat → Option Nat) (blocks b : Nat) (vs : List FVal)
    (pep : Tbl Nat) : (roundBlocks q f r present blocks b vs pep).scales.length = blocks := by
  induction blocks generalizing b vs pep with
  | zero => rfl
  | succ blocks ih => simp [roundBlocks, ih, length_scales_roundBlock, Nat.add_comm]

/-- Rounding gives a row of bits and a row of scales for each row, and a scale for each block of 32 elements. -/
theorem outRows_shape (q : RndCfg) (f : Nat) (present : Nat → Nat → Option Nat) (rows : List (List OutVal)) (r : Nat)
    (pep : Tbl Nat) :
    (outRows q f present r rows pep).1.length = rows.length ∧ (outRows q f present r rows pep).2.1.length = rows.length ∧
      ∀ cols, isBlockF f = true → (∀ vs ∈ rows, vs.length = cols) →
        ∀ e ∈ (outRows q f present r rows pep).2.1, e.length = cols / 32 := by
  induction rows generalizing r pep with
  | nil => exact ⟨rfl, rfl, fun _ _ _ e mem => by cases mem⟩
  | cons vs rows ih =>
    obtain ⟨bits, scales, widths⟩ := ih (r + 1) (outRow q f r (present r) vs pep).pep
    refine ⟨congrArg (· + 1) bits, congrArg (· + 1) scales, fun cols block width e mem => ?_⟩
    rw [List.forall_mem_cons] at width
    rcases List.mem_cons.mp mem with rfl | mem
    · rw [outRow, if_pos block, length_scales_roundBlocks, width.1]
    · exact widths cols block width.2 e mem

/-- An output tile is written as rounded: as many rows as computed at most, with as many rows of scales, each of the width. -/
theorem outputTile_writes (x : Core) (q : RndCfg) (o : Tile) (present : Nat → Nat → Option Nat) (rows : List (List Computed)) :
    ∃ pep bits scales, (outputTile x q o present rows).1 = writeTile { x with pepper := pep } o bits scales ∧
      bits.length ≤ rows.length ∧ scales.length = rows.length ∧
      ∀ cols, isBlockF o.fmt = true → (∀ r ∈ rows, r.length = cols) → ∀ e ∈ scales, e.length = cols / 32 := by
  obtain ⟨bits, scales, widths⟩ := outRows_shape q o.fmt present (rows.map fun r => r.map fun e => e.v) 0 x.pepper
  rw [List.length_map] at bits scales
  refine ⟨_, _, _, rfl, ?_, scales, fun cols block width => widths cols block ?_⟩
  · split <;> simp [bits]
  · simpa using width

/-- A tile computed in the shape of its descriptor is stored within its own runs. -/
theorem Keeps.outputTile {q : RndCfg} {o : Tile} {present : Nat → Nat → Option Nat} {f : Nat → Nat → Computed}
    (apart : ∀ off, out off → o.Clear off) (some : o.cols ≠ 0) :
    Keeps k dst out x (outputTile x q o present (gridOf o.rows o.cols f)).1 := by
  obtain ⟨height, width⟩ := gridOf_shape (rows := o.rows) (cols := o.cols) (f := f)
  obtain ⟨pep, bits, scales, written, rows, lines, widths⟩ := outputTile_writes x q o present (gridOf o.rows o.cols f)
  rw [written]
  exact .drawn (.writeTile apart some (rows.trans height.le) (lines.trans height).le
    fun block => widths o.cols block width)


/-! ### The matrix engine

Its instructions, AGOUT and CVT are followed in what they leave beside the scratchpad: no byte of it is claimed. -/

/-- No byte. -/
abbrev noByte (_ : Nat) : Prop := False

theorem Keeps.spPut_noByte {runs : List (Nat × List Byte)} {bad : List Nat} : Keeps k dst noByte x (Machine.spPut x runs bad) :=
  .spPut fun _ none => none.elim

theorem Keeps.outputTile_noByte {q : RndCfg} {o : Tile} {present : Nat → Nat → Option Nat} {rows : List (List Computed)} :
    Keeps k dst noByte x (Machine.outputTile x q o present rows).1 := by
  obtain ⟨pep, bits, scales, written, -⟩ := outputTile_writes x q o present rows
  rw [written]
  exact .drawn .spPut_noByte

theorem Keeps.setAg {g : AccGroup} {i : Nat} (kept : Keeps k dst out x y) : Keeps k dst out x (setAg y i g) :=
  kept.trans (.of_same rfl rfl rfl)

theorem Frame.shadowBlock {x : Core} {g : AccGroup} {ta tb : Tile} {b : Block} :
    Frame c k n dst out s (shadowBlock n c x g ta tb s b) := by
  have counted : Frame c k n dst out s (Machine.modCore s c fun x => { x with eligible := x.eligible + 1 }) :=
    .modCore (.of_same rfl rfl rfl)
  unfold Machine.shadowBlock
  dsimp only
  split
  · exact .refl s
  split
  · exact counted
  split
  · exact counted.trans (.modNum (f := fun num => { num with shSkipped := num.shSkipped + 1 }))
  · exact counted.trans (.modCore (.of_same rfl rfl rfl))

theorem Frame.mmaRun {cls i : Nat} {plain : Bool} {ta tb : Tile} : Frame c k n dst noByte s (mmaRun s n c cls i plain ta tb) := by
  unfold Machine.mmaRun shadowMma
  dsimp only
  split
  · exact (Frame.setCore Keeps.spPut_noByte.setAg).trans (.foldl (fun _ _ => .shadowBlock) _ _)
  · exact .setCore Keeps.spPut_noByte.setAg

/-! ### The vector engine -/

/-- The contribution of a reduction leaves its core. -/
theorem Frame.redSummary {m value : Nat} {poison : Bool} : Frame c k n dst out s (redSummary s c m poison value) := by
  unfold Machine.redSummary
  split
  · exact .refl s
  · exact .modCore (.of_same rfl rfl rfl)

theorem Frame.vredRun {emu : Bool} {m : Nat} {ta : Tile} {o : Option Tile} :
    Frame c k n dst noByte s (vredRun s c emu m ta o).1 := by
  have written (rows : List (List OutElem)) :
      Frame c k n dst noByte s (match o with
        | none => s
        | some o => Machine.setCore s c (Machine.writeTile (getCore s c) o rows [])) := by
    cases o with
    | none => exact .refl s
    | some o => exact .setCore .spPut_noByte
  unfold Machine.vredRun
  dsimp only
  split
  · exact (written _).trans .redSummary
  · exact written _

theorem length_freeRows (seed core cols rows : Nat) (pep : Tbl Nat) : (freeRows seed core cols rows pep).1.length = rows := by
  induction rows generalizing pep with
  | zero => rfl
  | succ rows ih => exact congrArg (· + 1) (ih _)

/-- A row of draws for each row of the tile. -/
theorem length_drawTile (q : RndCfg) (keyed : Bool) (purpose rows cols : Nat) (pep : Tbl Nat) :
    (drawTile q keyed purpose rows cols pep).1.length = rows := by
  unfold drawTile
  split
  · exact gridOf_shape.1
  · exact length_freeRows ..

end

section
variable {c k n : Nat} {s t : State} {w : Word} (live : (getCtx t n).state = ctxLive)
include live

theorem frame_mma (h : Issues rowMma s (.thread c k) n w) (run : execMma (.thread c k) w s = .next t) :
    Frame c k n (iDst w) noByte s t := by
  refine frame_runInstr h run live ?_
  dsimp only [onCore]
  split
  · exact leaves_checked (Frame.refl s) fun _ y kept => (Frame.setCore kept).trans .mmaRun
  · trivial

theorem frame_agset (h : Issues rowAgset s (.thread c k) n w) (run : execAgset (.thread c k) w s = .next t) :
    Frame c k n (iDst w) noByte s t := by
  refine frame_runInstr h run live ?_
  dsimp only [onCore]
  split
  · trivial
  · exact Frame.modCore (.setAg (.refl _))

theorem frame_agopen (h : Issues rowAgopen s (.thread c k) n w) (run : execAgopen (.thread c k) w s = .next t) :
    Frame c k n (iDst w) noByte s t := by
  refine frame_runInstr h run live ?_
  dsimp only [onCore]
  split
  · trivial
  split
  · exact leaves_guarded fun y kept => (Frame.setCore kept).trans (.modCore (.setAg .spPut_noByte))
  · exact Frame.modCore (.setAg (.refl _))

theorem frame_agout (h : Issues rowAgout s (.thread c k) n w) (run : execAgout (.thread c k) w s = .next t) :
    Frame c k n (iDst w) noByte s t := by
  refine frame_runInstr h run live ?_
  dsimp only [onCore]
  split
  · trivial
  split
  · exact leaves_checked (.doneEpe (.modCore (.setAg (.refl _)))) fun _ y kept =>
      .doneEpe ((Frame.setCore kept).trans (.setCore (.setAg .outputTile_noByte)))
  · trivial

theorem frame_atts (h : Issues rowAtts s (.thread c k) n w) (run : execAtts (.thread c k) w s = .next t) :
    Frame c k n (iDst w) noByte s t := by
  refine frame_runInstr h run live ?_
  dsimp only [onCore]
  split
  · exact leaves_checked (Frame.refl s) fun _ y kept => (Frame.setCore kept).trans (.modCore .spPut_noByte)
  · trivial

theorem frame_attv (h : Issues rowAttv s (.thread c k) n w) (run : execAttv (.thread c k) w s = .next t) :
    Frame c k n (iDst w) noByte s t := by
  refine frame_runInstr h run live ?_
  dsimp only [onCore]
  split
  · exact leaves_checked (Frame.refl s) fun _ y kept => (Frame.setCore kept).trans (.modCore .spPut_noByte)
  · trivial

/-! ### The vector engine -/

theorem frame_cvt (h : Issues rowCvt s (.thread c k) n w) (run : execCvt (.thread c k) w s = .next t) :
    Frame c k n (iDst w) noByte s t := by
  refine frame_runInstr h run live ?_
  dsimp only [onCore]
  split
  · trivial
  split
  · refine leaves_checked (.doneEpe (.refl s)) fun _ y kept => .doneEpe ((Frame.setCore kept).trans ?_)
    split
    · exact .setCore .spPut_noByte
    · exact .setCore .outputTile_noByte
  · trivial

theorem frame_vred (h : Issues rowVred s (.thread c k) n w) (run : execVred (.thread c k) w s = .next t) :
    Frame c k n (iDst w) noByte s t := by
  refine frame_runInstr h run live ?_
  dsimp only [onCore]
  split
  · exact .refl s
  split
  · refine leaves_checked (.doneEpe ?_) fun _ y kept => .doneEpe ((Frame.setCore kept).trans .vredRun)
    split
    · exact .redSummary
    · exact .refl s
  · trivial

/-- The offsets apart from the output tile that DST names, if it names one. -/
def ClearOfDst (s : State) (c k n : Nat) (w : Word) (off : Nat) : Prop := ∀ o, tileReg s c k n (iDst w) = some o → o.Clear off

theorem frame_vfn (h : Issues rowVfn s (.thread c k) n w) (run : execVfn (.thread c k) w s = .next t) :
    Frame c k n (iDst w) (ClearOfDst s c k n w) s t := by
  refine frame_runInstr h run live ?_
  dsimp only [onCore]
  split
  · trivial
  split
  next o _ _ _ out _ _ _ =>
    exact leaves_checked (.doneEpe (.refl s)) fun sized y kept => .doneEpe ((Frame.setCore kept).trans
      (.setCore (.outputTile (fun off clear => clear o out) (cols_ne_zero sized))))
  · trivial

theorem frame_vcmp (h : Issues rowVcmp s (.thread c k) n w) (run : execVcmp (.thread c k) w s = .next t) :
    Frame c k n (iDst w) (ClearOfDst s c k n w) s t := by
  refine frame_runInstr h run live ?_
  dsimp only [onCore]
  split
  next o _ _ out _ _ =>
    exact leaves_checked (.doneEpe (.refl s)) fun sized y kept => .doneEpe ((Frame.setCore kept).trans
      (.setCore (.writeRows (fun off clear => clear o out) (cols_ne_zero sized) gridOf_shape.1.le)))
  · trivial

theorem frame_pep (h : Issues rowPep s (.thread c k) n w) (run : execPep (.thread c k) w s = .next t) :
    Frame c k n (iDst w) (ClearOfDst s c k n w) s t := by
  refine frame_runInstr h run live ?_
  dsimp only [onCore]
  split
  · trivial
  split
  · trivial
  next o out =>
    refine leaves_checked (Frame.refl s) fun sized y kept => (Frame.setCore kept).trans (.setCore (Keeps.drawn
      (.writeRows (fun off (clear : ClearOfDst s c k n w off) => clear o out) (cols_ne_zero sized) ?_)))
    rw [List.length_map, length_drawTile]

/-! ### The scalar unit -/

theorem frame_dwr (h : Issues rowDwr s (.thread c k) n w) (run : execDwr (.thread c k) w s = .next t) :
    Frame c k n (iDst w) noByte s t := frame_runInstr h run live Frame.putD

theorem frame_salu (h : Issues rowSalu s (.thread c k) n w) (run : execSalu (.thread c k) w s = .next t) :
    Frame c k n (iDst w) noByte s t := by
  refine frame_runInstr h run live ?_
  dsimp only [extWord]
  split
  · exact Frame.putS
  · exact Frame.putS

theorem frame_scmp (h : Issues rowScmp s (.thread c k) n w) (run : execScmp (.thread c k) w s = .next t) :
    Frame c k n (iDst w) noByte s t := frame_runInstr h run live (Frame.modThread fun _ _ _ => rfl)

theorem frame_br (h : Issues rowBr s (.thread c k) n w) (run : execBr (.thread c k) w s = .next t) :
    Frame c k n (iDst w) noByte s t := frame_runInstr h run live (Frame.refl s)

theorem frame_nop (h : Issues (rowFlow 3 true true) s (.thread c k) n w) (run : execNop (.thread c k) w s = .next t) :
    Frame c k n (iDst w) noByte s t := frame_runInstr h run live (Frame.refl s)

theorem frame_rdsysTick (h : Issues (rowRdsys 0) s (.thread c k) n w) (run : execRdsysTick (.thread c k) w s = .next t) :
    Frame c k n (iDst w) noByte s t := frame_runInstr h run live Frame.putS

theorem frame_rdsysStatus (h : Issues (rowRdsys 1) s (.thread c k) n w) (run : execRdsysStatus (.thread c k) w s = .next t) :
    Frame c k n (iDst w) noByte s t := frame_runInstr h run live Frame.putS

theorem frame_rdsysContext (h : Issues (rowRdsys 3) s (.thread c k) n w) (run : execRdsysContext (.thread c k) w s = .next t) :
    Frame c k n (iDst w) noByte s t := frame_runInstr h run live Frame.putS

theorem frame_rdsysPeer (h : Issues (rowRdsys 4) s (.thread c k) n w) (run : execRdsysPeer (.thread c k) w s = .next t) :
    Frame c k n (iDst w) noByte s t := frame_runInstr h run live Frame.putS

theorem frame_smemLoad (h : Issues rowSmemLoad s (.thread c k) n w) (run : execSmemLoad (.thread c k) w s = .next t) :
    Frame c k n (iDst w) noByte s t := by
  refine frame_runInstr h run live ?_
  refine leaves_guarded fun y kept => ?_
  dsimp only
  split
  · trivial
  · exact (Frame.setCore kept).trans .putS

/-- The offsets apart from the word that a store names. -/
def ClearOfWord (s : State) (c k : Nat) (w : Word) (off : Nat) : Prop :=
  off < smemAddr s (.thread c k) w % spSize ∨ smemAddr s (.thread c k) w % spSize + 8 ≤ off

theorem frame_smemStore (h : Issues rowSmemStore s (.thread c k) n w) (run : execSmemStore (.thread c k) w s = .next t) :
    Frame c k n (iDst w) (ClearOfWord s c k w) s t := by
  refine frame_runInstr h run live ?_
  dsimp only
  split
  · trivial
  · refine leaves_guarded fun y kept => (Frame.setCore kept).trans (.modCore ?_)
    exact ⟨fun _ _ => rfl, fun _ _ => rfl, fun _ _ => rfl, fun wf => ⟨writeBytes_wf _ _ _ wf, fun off clear =>
      readByte_writeBytes_out _ _ _ off wf (by rwa [length_leBytes])⟩⟩

end

/-- What a frame says of the module beside the scratchpad. -/
theorem Frame.beside {c k n dst : Nat} {out : Nat → Prop} {s t : State} (f : Frame c k n dst out s t) :
    t.mem = s.mem ∧ (∀ d, d ≠ c → getCore t d = getCore s d) ∧
    (∀ j, j ≠ k → getThread (getCore t c) j = getThread (getCore s c) j) ∧
    (∀ r, r ≠ dst → sOf t (.thread c k) r = sOf s (.thread c k) r) ∧
    (∀ r, r ≠ dst → dOf t (.thread c k) r = dOf s (.thread c k) r) ∧
    t.parts = s.parts ∧ t.ports = s.ports ∧ t.models = s.models ∧ t.rollout = s.rollout ∧ t.hub = s.hub ∧ t.upd = s.upd :=
  ⟨f.mem, f.cores, f.core.threads, f.core.scalars, f.core.descs, f.parts, f.ports, f.models, f.rollout, f.hub, f.upd⟩

/-- Settles O58: each instruction by the frame of what it does. -/
theorem frameCompute : Obligations.FrameCompute := by
  intro i row s t c k n w h form run live
  simp only [List.mem_cons, Prod.mk.injEq, List.not_mem_nil, or_false] at form
  rcases form with ⟨rfl, rfl⟩ | ⟨rfl, rfl⟩ | ⟨rfl, rfl⟩ | ⟨rfl, rfl⟩ | ⟨rfl, rfl⟩ | ⟨rfl, rfl⟩ | ⟨rfl, rfl⟩ | ⟨rfl, rfl⟩ |
    ⟨rfl, rfl⟩ | ⟨rfl, rfl⟩ | ⟨rfl, rfl⟩ | ⟨rfl, rfl⟩ | ⟨rfl, rfl⟩ | ⟨rfl, rfl⟩ | ⟨rfl, rfl⟩ | ⟨rfl, rfl⟩ | ⟨rfl, rfl⟩ |
    ⟨rfl, rfl⟩ | ⟨rfl, rfl⟩ | ⟨rfl, rfl⟩ | ⟨rfl, rfl⟩
  · exact (frame_agset live h run).beside
  · exact (frame_agopen live h run).beside
  · exact (frame_agout live h run).beside
  · exact (frame_mma live h run).beside
  · exact (frame_atts live h run).beside
  · exact (frame_attv live h run).beside
  · exact (frame_vfn live h run).beside
  · exact (frame_cvt live h run).beside
  · exact (frame_vred live h run).beside
  · exact (frame_vcmp live h run).beside
  · exact (frame_pep live h run).beside
  · exact (frame_dwr live h run).beside
  · exact (frame_salu live h run).beside
  · exact (frame_scmp live h run).beside
  · exact (frame_br live h run).beside
  · exact (frame_nop live h run).beside
  · exact (frame_rdsysTick live h run).beside
  · exact (frame_rdsysStatus live h run).beside
  · exact (frame_rdsysContext live h run).beside
  · exact (frame_rdsysPeer live h run).beside
  · exact (frame_smemLoad live h run).beside

/-- The scratchpad of every core of a canonical state is canonical. -/
theorem wf_sp {s : State} (wf : s.memWf) (c : Nat) : Memory.wf (getCore s c).sp = true :=
  tget_all (fun x : Core => Memory.wf x.sp = true) Core.reset s.cores c wf.2 rfl

/-- Settles O59: the bytes that the frame of a store, and of an instruction with an output tile, speaks of. -/
theorem frameScratchpad : Obligations.FrameScratchpad := by
  refine ⟨fun s t c k n w wf h run live => ?_, fun i row s t c k n w o wf h form tile run live off clear => ?_⟩
  · have frame := frame_smemStore live h run
    exact ⟨frame.mem, frame.cores, (frame.core.bytes (wf_sp wf c)).2⟩
  · have apart : ClearOfDst s c k n w off := fun u named => by
      cases tile.symm.trans named
      exact clear
    simp only [List.mem_cons, Prod.mk.injEq, List.not_mem_nil, or_false] at form
    rcases form with ⟨rfl, rfl⟩ | ⟨rfl, rfl⟩ | ⟨rfl, rfl⟩
    · exact ((frame_vfn live h run).core.bytes (wf_sp wf c)).2 off apart
    · exact ((frame_vcmp live h run).core.bytes (wf_sp wf c)).2 off apart
    · exact ((frame_pep live h run).core.bytes (wf_sp wf c)).2 off apart

end Machine
end Sys2Proof
end

section
/-! The proofs of the statements of 08_memory_tiers_and_streaming, first part: DRAM errors and their repair, MEM.HINT_CTL and the
hash of the capacity tier (R209, R210, R212, R228 to R230). -/

namespace Sys2Proof
namespace Machine

open Host

/-! ### What reads, writes and repairs of memory leave alone -/

/-- What no read, write or logged error of memory reaches: cores, contexts, models, what firmware has waiting, and the queue and
the count of the grains that are read again. -/
structure Aside where
  cores : Tbl Core
  ctxs : Tbl Ctx
  models : Tbl Model
  fwWaits : List FwWait
  refetching : List Nat
  refetches : Nat

/-- That part of a state. Each operation below has a lemma that it keeps it. -/
def aside (s : State) : Aside where
  cores := s.cores
  ctxs := s.ctxs
  models := s.models
  fwWaits := s.host.fwWaits
  refetching := s.mem.refetching
  refetches := s.mem.refetches

@[simp] theorem aside_msixRequest (s : State) (p vec : Nat) (teardown : Bool) : aside (msixRequest s p vec teardown) = aside s := by
  unfold msixRequest
  split <;> rfl

@[simp] theorem aside_logEvent (s : State) (event : Nat) (u : LogUnit) (part : Nat) (ctx : Option Nat) (detail : Nat) :
    aside (logEvent s event u part ctx detail) = aside s := by
  have written : aside (writeLog s event u part ctx detail) = aside s := by
    unfold writeLog
    dsimp only
    split
    · exact (aside_msixRequest _ _ _ _).trans rfl
    · rfl
  unfold logEvent
  split
  · split
    · rfl
    · exact written
  · exact written

@[simp] theorem aside_checkFailed (s : State) (pa : Nat) : aside (checkFailed s pa) = aside s := (aside_logEvent _ _ _ _ _ _).trans rfl

@[simp] theorem aside_checkHome (s : State) (pa off len : Nat) : aside (checkHome s pa off len) = aside s := by
  unfold checkHome
  split
  · rfl
  · exact aside_checkFailed s pa

@[simp] theorem aside_invalidateGrain (s : State) (pa : Nat) : aside (invalidateGrain s pa) = aside s :=
  foldl_keeps (p := aside) (f := fun s l => Machine.emit s (.biSnoop l)) (fun _ _ => rfl) (heldLines s pa) s

@[simp] theorem aside_storeGrain (s : State) (pa : Nat) (data : List Byte) (tag : GrainTag) :
    aside (storeGrain s pa data tag) = aside s := (rfl)

@[simp] theorem aside_putGrain (s : State) (pa : Nat) (data : List Byte) (tag : GrainTag) : aside (putGrain s pa data tag) = aside s := by
  simp [putGrain]

@[simp] theorem aside_countFailed (s : State) : aside (countFailed s) = aside s := (rfl)

@[simp] theorem aside_failover (s : State) :
    aside (modMem s fun m => { m with mirrorFailovers := m.mirrorFailovers + 1 }) = aside s := (rfl)

@[simp] theorem aside_putServed (s : State) (pa : Nat) (data : List Byte) (tag : GrainTag) : aside (putServed s pa data tag) = aside s := by
  unfold putServed
  split <;> simp

@[simp] theorem aside_writeGrain (s : State) (pa : Nat) (data : List Byte) (tag : GrainTag) :
    aside (writeGrain s pa data tag) = aside s := by
  unfold writeGrain
  split <;> simp

@[simp] theorem aside_mergeAs (s : State) (pa off : Nat) (bs : List Byte) (t : GrainTag) : aside (mergeAs s pa off bs t) = aside s := by
  unfold mergeAs
  dsimp only
  split
  · exact aside_writeGrain s pa _ _
  · exact aside_writeGrain s pa _ _

@[simp] theorem aside_performWrite (s : State) (r : MReq) : aside (performWrite s r) = aside s := by
  unfold performWrite
  split
  · rfl
  · rfl
  · split
    · rfl
    · dsimp only
      split <;> simp

@[simp] theorem aside_readHost (s : State) (pa : Nat) : aside (readHost s pa).2.2 = aside s := by
  unfold readHost
  dsimp only
  split <;> rfl

@[simp] theorem aside_readPeer (s : State) (pa : Nat) : aside (readPeer s pa).2.2 = aside s := by
  unfold readPeer
  dsimp only
  split <;> rfl

@[simp] theorem aside_readGrain (s : State) (pa : Nat) : aside (readGrain s pa).2.2 = aside s := by
  unfold readGrain
  dsimp only
  repeat' split
  all_goals simp

@[simp] theorem aside_rewriteGrain (s : State) (m : Model) (l : Layer) (off : Nat) : aside (rewriteGrain s m l off) = aside s :=
  (aside_writeGrain _ _ _ _).trans (aside_readGrain s _)

/-! ### The grain of an address (Tables 4.10, 8.2) -/

theorem tierOf_eq_one {pa : Nat} : tierOf pa = 1 ↔ pa < tier2Base := by
  unfold tierOf
  split_ifs <;> simp [*]

theorem tierOf_eq_two {pa : Nat} : tierOf pa = 2 ↔ tier2Base ≤ pa ∧ pa < tier2End := by
  unfold tierOf
  split_ifs <;> simp [*]
  omega

@[simp] theorem grainBase_div (pa : Nat) : grainBase pa / 256 = pa / 256 := Nat.mul_div_cancel _ (by decide)

@[simp] theorem grainBase_grainBase (pa : Nat) : grainBase (grainBase pa) = grainBase pa := congrArg (· * 256) (grainBase_div pa)

theorem grainBase_page (pa : Nat) : grainBase pa / pageBytes = pa / pageBytes := by
  simp only [grainBase, pageBytes]
  omega

/-- The bytes of a grain have one tag. -/
@[simp] theorem tagAt_grainBase (s : State) (pa : Nat) : tagAt s (grainBase pa) = tagAt s pa := by
  simp only [tagAt, scrubTag, partOfPa, grainBase_div, grainBase_page]

/-- A grain of tiers 1 and 2 lies in one tier. -/
theorem tierOf_grainBase {pa : Nat} (own : tierOf pa = 1 ∨ tierOf pa = 2) : tierOf (grainBase pa) = tierOf pa := by
  rcases own with near | far
  · rw [near, tierOf_eq_one, grainBase, tier2Base]
    rw [tierOf_eq_one, tier2Base] at near
    omega
  · rw [far, tierOf_eq_two, grainBase, tier2Base, tier2End]
    rw [tierOf_eq_two, tier2Base, tier2End] at far
    omega

/-! ### Uncorrectable errors (R228, R230) -/

theorem logEvent_mem (s : State) (event : Nat) (u : LogUnit) (part : Nat) (ctx : Option Nat) (detail : Nat) :
    (logEvent s event u part ctx detail).mem = s.mem := by
  obtain ⟨-, mem, -⟩ := logEvent_keeps s event u part ctx detail
  exact mem

/-- What a module write of a grain makes of memory. -/
theorem putGrain_mem (s : State) (pa : Nat) (data : List Byte) (tag : GrainTag) :
    (putGrain s pa data tag).mem = (storeGrain s pa data tag).mem := by
  simp only [putGrain, storeGrain, invalidateGrain_mem]

@[simp] theorem storeGrain_counts (s : State) (pa : Nat) (data : List Byte) (tag : GrainTag) :
    (storeGrain s pa data tag).mem.nmUe = s.mem.nmUe ∧ (storeGrain s pa data tag).mem.capUe = s.mem.capUe ∧
      (storeGrain s pa data tag).mem.mirrorFailovers = s.mem.mirrorFailovers := ⟨rfl, rfl, rfl⟩

/-- A grain of tiers 1 and 2 keeps the tag that is stored with it. -/
theorem tfind_storeGrain_tags {pa : Nat} (own : tierOf pa = 1 ∨ tierOf pa = 2) (s : State) (data : List Byte) (tag : GrainTag) :
    tfind (storeGrain s (grainBase pa) data tag).mem.tags (pa / 256) = some tag := by
  have home : tierOf (grainBase pa) ≠ 4 := by
    rw [tierOf_grainBase own]
    omega
  simp [storeGrain, home]

/-- The state with a grain poisoned as it lies, counted and logged. -/
def grainLost (s : State) (pa : Nat) : State :=
  logUncorrectable (storeGrain s (grainBase pa) (grainAt s (grainBase pa)) { tagAt s pa with poison := true }) (grainBase pa)

/-- Where the pages of models lie decides which grain is a model's, and which is a mirror's. -/
theorem modelGrain_congr {s t : State} (models : t.models = s.models) (a : Nat) : modelGrain t a = modelGrain s a := by
  simp only [modelGrain, models]

theorem mirrorOf_putGrain (s : State) (pa a : Nat) (data : List Byte) (tag : GrainTag) :
    mirrorOf (putGrain s pa data tag) a = mirrorOf s a := by
  have models : (putGrain s pa data tag).models = s.models := congrArg Aside.models (aside_putGrain s pa data tag)
  simp only [mirrorOf, models]

@[simp] theorem aside_logUncorrectable (s : State) (pa : Nat) : aside (logUncorrectable s pa) = aside s := by
  unfold logUncorrectable
  dsimp only
  split
  · exact (aside_logEvent _ _ _ _ _ _).trans rfl
  · exact (aside_logEvent _ _ _ _ _ _).trans rfl

/-- An uncorrectable error is counted at its tier. -/
theorem logUncorrectable_mem (s : State) (pa : Nat) : (logUncorrectable s pa).mem =
    if tierOf pa = 1 then { s.mem with nmUe := s.mem.nmUe + 1 } else { s.mem with capUe := s.mem.capUe + 1 } := by
  unfold logUncorrectable
  dsimp only
  split
  · exact logEvent_mem _ _ _ _ _ _
  · exact logEvent_mem _ _ _ _ _ _

theorem aside_grainLost (s : State) (pa : Nat) : aside (grainLost s pa) = aside s := by simp [grainLost]

/-- A lost grain of near memory or of the capacity tier keeps its tag but for the poison, and is counted at its tier. -/
theorem grainLost_mem {pa : Nat} (own : tierOf pa = 1 ∨ tierOf pa = 2) (s : State) :
    tfind (grainLost s pa).mem.tags (pa / 256) = some { tagAt s pa with poison := true } ∧
      (tierOf pa = 1 → (grainLost s pa).mem.nmUe = s.mem.nmUe + 1) ∧
      (tierOf pa = 2 → (grainLost s pa).mem.capUe = s.mem.capUe + 1) := by
  simp only [grainLost, logUncorrectable_mem, tierOf_grainBase own, apply_ite Mem.tags, apply_ite Mem.nmUe, apply_ite Mem.capUe, ite_self,
    tfind_storeGrain_tags own, storeGrain_counts, true_and]
  exact ⟨fun near => if_pos near, fun far => if_neg (by omega)⟩

section
variable {s : State} {pa : Nat} (own : tierOf pa = 1 ∨ tierOf pa = 2) (inService : unitLost s pa = false)
include own inService

/-- A grain with no other copy and of no model is lost. -/
theorem exec_memUncorrectable_loses (alone : otherCopy s (grainBase pa) = none) (noModel : modelGrain s (grainBase pa) = none) :
    exec (.memUncorrectable pa) s = .next (grainLost s pa) := by
  change execMemUncorrectable pa s = _
  have reaches : ¬ (((tierOf pa != 1 && tierOf pa != 2) || unitLost s pa) = true) := by
    rcases own with tier | tier <;> simp [tier, inService]
  have noRefetch : queueRefetch (grainLost s pa) (grainBase pa) = grainLost s pa := by
    simp only [queueRefetch, modelGrain_congr (congrArg Aside.models (aside_grainLost s pa)), noModel]
  rw [← noRefetch]
  simp only [execMemUncorrectable, if_neg reaches, alone, Option.filter_none, tagAt_grainBase, grainLost]

/-- A grain with another copy in service is written again from it. -/
theorem exec_memUncorrectable_restores {m : Nat} (copy : otherCopy s (grainBase pa) = some m) (whole : unitLost s m = false) :
    exec (.memUncorrectable pa) s = .next (if (mirrorOf s (grainBase pa)).isSome
      then modMem (putGrain s (grainBase pa) (grainAt s m) (tagAt s m)) fun x => { x with mirrorFailovers := x.mirrorFailovers + 1 }
      else putGrain s (grainBase pa) (grainAt s m) (tagAt s m)) := by
  change execMemUncorrectable pa s = _
  rcases own with tier | tier <;> simp [execMemUncorrectable, tier, inService, copy, Option.filter_some, whole, mirrorOf_putGrain]

end

/-! ### Grains that are read again from their source (R229) -/

@[simp] theorem aside_rewriteGrains (m : Model) (l : Layer) (off : Nat → Nat) (js : List Nat) (s : State) :
    aside (js.foldl (fun s i => rewriteGrain s m l (off i)) s) = aside s :=
  foldl_keeps (p := aside) (f := fun s i => rewriteGrain s m l (off i)) (fun _ _ => aside_rewriteGrain _ _ _ _) js s

/-- The tile that holds a grain of a model is written and counted; no grain joins the queue. -/
theorem refetchTile_spec {s : State} {a : Nat} {e : Nat × Model × Layer × Nat} (found : modelGrain s a = some e) :
    (refetchTile s a).mem.refetches = s.mem.refetches + 1 ∧ (refetchTile s a).mem.refetching ⊆ s.mem.refetching ∧
      (refetchTile s a).cores = s.cores ∧ (refetchTile s a).ctxs = s.ctxs := by
  obtain ⟨k, m, l, off⟩ := e
  have rewritten := aside_rewriteGrains m l (fun i => (tileSpan s a l off).1 + 256 * i) (List.range (tileSpan s a l off).2) s
  simp only [refetchTile, found]
  refine ⟨?_, ?_, ?_, ?_⟩
  · rw [logEvent_mem]
    exact congrArg (Aside.refetches · + 1) rewritten
  · rw [logEvent_mem]
    have queue : _ = s.mem.refetching := congrArg Aside.refetching rewritten
    exact fun g listed => queue ▸ List.mem_of_mem_filter listed
  · exact (congrArg Aside.cores (aside_logEvent _ _ _ _ _ _)).trans (congrArg Aside.cores rewritten)
  · exact (congrArg Aside.ctxs (aside_logEvent _ _ _ _ _ _)).trans (congrArg Aside.ctxs rewritten)

section
variable {s : State} {pa : Nat}

theorem exec_refetchDone (waits : s.mem.refetching.contains (grainBase pa) = true) :
    exec (.refetchDone pa) s = .next (refetchTile (modMem s fun x =>
      { x with refetching := x.refetching.filter fun g => g != grainBase pa }) (grainBase pa)) := by
  change execRefetchDone pa s = _
  rw [execRefetchDone, if_neg (by simp only [waits, Bool.not_true, Bool.false_eq_true, not_false_eq_true])]

theorem exec_refetchDone_notQueued (absent : s.mem.refetching.contains (grainBase pa) = false) :
    exec (.refetchDone pa) s = .next s := by
  change execRefetchDone pa s = _
  rw [execRefetchDone, if_pos (by simp only [absent, Bool.not_false])]

/-- A grain of no model that is resident has no tile to write. -/
theorem refetchTile_of_noModel (noModel : modelGrain s pa = none) : refetchTile s pa = s := by simp only [refetchTile, noModel]

end

/-! ### Patrol (R210) -/

theorem exec_patrolScrub_corrects {s : State} {pa : Nat} (inService : unitLost s pa = false) : exec (.patrolScrub pa true) s = .next
    (if tierOf pa = 1 then modMem s fun m => { m with nmCe := m.nmCe + 1 }
      else if tierOf pa = 2 then modMem s fun m => { m with capCe := m.capCe + 1 } else s) := by
  change execPatrolScrub pa true s = _
  simp only [execPatrolScrub, inService, Bool.not_true, Bool.or_self, Bool.false_eq_true, if_false, apply_ite (f := Outcome.next)]

/-! ### MEM.HINT_CTL (R212, Table 8.10) -/

/-- What a write makes of GROUPS. -/
theorem writeHintCtl_groups (s : State) (v : Nat) : (writeHintCtl s v).mem.hintGroups =
    if v % 4 = 3 ∨ capacityMapped s = true then s.mem.hintGroups else v % 4 := by
  simp only [writeHintCtl, modMem_mem]
  split_ifs <;> simp_all

theorem writeHintCtl_cells (s : State) (v : Nat) : (writeHintCtl s v).mem.cells = s.mem.cells := by
  simp only [writeHintCtl, modMem_mem]
  split_ifs <;> rfl

/-- A write of another value while a page of the capacity tier is mapped is refused, and the register says so. -/
theorem writeHintCtl_refused {s : State} {v : Nat} (value : v % 4 ≠ 3) (other : v % 4 ≠ s.mem.hintGroups)
    (mapped : capacityMapped s = true) : (writeHintCtl s v).mem.hintRefused = true := by
  simp [writeHintCtl, value, other, mapped]

/-! ### The hash of the capacity tier and the banks of near memory (R208, R209) -/

theorem bits_lt (n hi lo : Nat) : bits n hi lo < 2 ^ (hi + 1 - lo) := Nat.mod_lt _ (by positivity)

/-- Whatever GROUPS says, the capacity tier has 64 channels. -/
theorem channelOf_lt {g pa : Nat} (tier : tierOf pa = 2) : (channelOf g pa).1 < 64 := by
  obtain ⟨-, high⟩ := tierOf_eq_two.mp tier
  have channels : hashedChannels g = 64 ∨ hashedChannels g = 56 ∨ hashedChannels g = 48 := by
    unfold hashedChannels
    split_ifs <;> simp
  have span : pa - tier2Base < 64 * chanBytes := by
    simp only [tier2Base, tier2End, chanBytes] at *
    omega
  have room : 0 < chanBytes := by decide
  rw [channelOf]
  dsimp only
  generalize hashedChannels g = n, pa - tier2Base = o, chanBytes = c at *
  split
  · exact (Nat.mod_lt _ (by omega)).trans_le (by omega)
  · have group : (o - n * c) / (8 * c) < 8 - n / 8 := by
      rw [Nat.div_lt_iff_lt_mul (by omega)]
      rcases channels with rfl | rfl | rfl <;> omega
    dsimp only
    omega

theorem bankOf_capacity {g pa : Nat} (tier : tierOf pa = 2) : bankOf g pa = 8192 + (channelOf g pa).1 := by
  simp [bankOf, tier]

/-- A near-memory address lies at one of the 512 banks of its stack. -/
theorem bankOf_near {g pa : Nat} (tier : tierOf pa = 1) : ∃ b, b < 512 ∧ bankOf g pa = pa / 2 ^ 36 * 512 + b := by
  have low := tierOf_eq_one.mp tier
  have stack : stackOf pa = pa / 2 ^ 36 := by
    simp only [stackOf, bits, Nat.shiftRight_eq_div_pow, tier2Base] at *
    omega
  have channel : bits pa 12 8 ^^^ bits pa 21 17 < 2 ^ 5 := Nat.xor_lt_two_pow (bits_lt _ _ _) (bits_lt _ _ _)
  have bank : bits pa 16 13 ^^^ bits pa 25 22 < 2 ^ 4 := Nat.xor_lt_two_pow (bits_lt _ _ _) (bits_lt _ _ _)
  refine ⟨(bits pa 12 8 ^^^ bits pa 21 17) * 16 + (bits pa 16 13 ^^^ bits pa 25 22), by omega, ?_⟩
  rw [bankOf, if_pos tier, stack, Nat.add_assoc]

/-- Settles O30: each error, repair and register write by what it makes of memory; the hash by the bounds of its fields. -/
theorem dramResults : Obligations.DramResults := by
  refine ⟨?_, ?_, ?_, ?_, ?_, ?_, ?_, ?_, ?_, ?_, ?_, ?_, ?_, ?_⟩
  · intro s pa own inService alone noModel
    obtain ⟨poisoned, near, far⟩ := grainLost_mem own s
    exact ⟨_, exec_memUncorrectable_loses own inService alone noModel, poisoned, near, far, congrArg Aside.cores (aside_grainLost s pa)⟩
  · intro s pa m own inService mirror whole
    refine ⟨_, exec_memUncorrectable_restores own inService (by simp only [otherCopy, mirror]) whole, ?_⟩
    simp only [mirror, Option.isSome_some, if_true, modMem_mem, putGrain_mem, tfind_storeGrain_tags own, storeGrain_counts, and_self]
  · intro s pa m own inService notPrimary primary whole
    refine ⟨_, exec_memUncorrectable_restores own inService (by simp only [otherCopy, notPrimary, primary]) whole, ?_⟩
    simp only [notPrimary, Option.isSome_none, Bool.false_eq_true, if_false, putGrain_mem, tfind_storeGrain_tags own, storeGrain_counts,
      and_self]
  · intro s pa waits noModel
    rw [exec_refetchDone waits, refetchTile_of_noModel (by exact noModel)]
  · intro s pa e waits found
    obtain ⟨count, queue, cores, ctxs⟩ := refetchTile_spec (s := modMem s fun x =>
      { x with refetching := x.refetching.filter fun g => g != grainBase pa }) (by exact found)
    refine ⟨_, exec_refetchDone waits, count, ?_, cores, ctxs, rfl⟩
    have gone : grainBase pa ∉ s.mem.refetching.filter fun g => g != grainBase pa := by simp
    simpa using fun listed => gone (queue listed)
  · exact fun s pa absent => exec_refetchDone_notQueued absent
  · intro s pa inService near
    rw [exec_patrolScrub_corrects inService, if_pos near]
  · intro s pa inService far
    rw [exec_patrolScrub_corrects inService, if_neg (by omega), if_pos far]
  · exact fun s pa => rfl
  · intro s v value other free
    exact ⟨_, rfl, (writeHintCtl_groups s v.toNat).trans (if_neg (by simp [value, free])), writeHintCtl_cells s v.toNat⟩
  · intro s v value other mapped
    exact ⟨_, rfl, (writeHintCtl_groups s v.toNat).trans (if_pos (.inr mapped)), writeHintCtl_refused value other mapped⟩
  · exact fun s v three => ⟨_, rfl, (writeHintCtl_groups s v.toNat).trans (if_pos (.inl three))⟩
  · exact fun g pa _ tier => ⟨channelOf_lt tier, bankOf_capacity tier⟩
  · intro g pa tier
    obtain ⟨b, small, bank⟩ := bankOf_near (g := g) tier
    have low := tierOf_eq_one.mp tier
    rw [tier2Base] at low
    omega

end Machine
end Sys2Proof
end

section
/-! The proofs of the statements of 08_memory_tiers_and_streaming, second part: late requests, host memory and back-invalidates
(R226, R414, R415). -/

namespace Sys2Proof
namespace Machine

open Host

/-! ### Late requests (R226) -/

section
variable {s : State} {id : Nat} {r : MReq}

/-- A request that its tier has not answered within its limit fails. -/
theorem exec_tierLate_fails (found : getMReq s id = some r) (outer : 2 ≤ r.tier) (waits : unanswered s id r = true)
    (late : r.stamp + r.limit < s.clk.tick) : exec (.tierLate id) s = .next (afterReq (failReq s id) r.core) := by
  change execTierLate id s = _
  simp [execTierLate, found, outer, waits, now, late]

/-- A request of near memory, which has no limit, and one within its limit wait on. -/
theorem exec_tierLate_waits (found : getMReq s id = some r) (inTime : r.tier < 2 ∨ s.clk.tick ≤ r.stamp + r.limit) :
    exec (.tierLate id) s = .next s := by
  change execTierLate id s = _
  have fresh : ¬ (2 ≤ r.tier ∧ r.stamp + r.limit < s.clk.tick) := by omega
  simp only [execTierLate, found, now, Bool.and_eq_true, decide_eq_true_eq]
  exact if_neg fun ⟨⟨outer, _⟩, late⟩ => fresh ⟨outer, of_decide_eq_true late⟩

/-! ### Completions of host memory (R415) -/

section
variable (poison : Bool) (found : getMReq s id = some r) (host : r.tier = 4) (queued : r.phase = .queued) (free : mustWait s r = false)
include found host queued free

theorem exec_tier4Completion_read (read : r.isWrite = false) :
    exec (.tier4Completion id true poison) s = .next (setMReq s id { r with
      phase := .served, data := grainAt s r.pa, tag := mkTag (grainAt s r.pa) 0 (getCtx s r.ctx).part poison }) := by
  change execTier4Completion id true poison s = _
  simp [execTier4Completion, found, host, queued, free, read]

theorem exec_tier4Completion_write (write : r.isWrite = true) :
    exec (.tier4Completion id true poison) s = .next (setMReq (performWrite s r) id { r with phase := .served }) := by
  change execTier4Completion id true poison s = _
  simp [execTier4Completion, found, host, queued, free, write]

theorem exec_tier4Completion_fails :
    exec (.tier4Completion id false poison) s = .next (afterReq (failReq s id) r.core) := by
  change execTier4Completion id false poison s = _
  simp [execTier4Completion, found, host, queued, free]

end

end

/-! ### The host's answers to back-invalidates (R414) -/

/-- The state once the host has answered for a line. -/
def lineAnswered (s : State) (line : Nat) : State := modHost s fun h => { h with biLines := h.biLines.filter fun l => l != line }

section
variable {s : State}

theorem freeBiWrites_none (none : (s.mem.reqs.filter fun e => e.2.phase == .waitBi) = []) : freeBiWrites s = s := by
  have free : (s.mem.reqs.filter fun e => e.2.phase == .waitBi && !biWaits s e.2.pa) = [] := by
    simp only [List.filter_eq_nil_iff, Bool.and_eq_true, not_and] at none ⊢
    exact fun e mem waits => absurd waits (none e mem)
  simp only [freeBiWrites, free, List.foldl_nil]

/-- A write of this module or of the host that waited for its last line is performed; a peer's has been already. -/
theorem freeBiWrite_performs {r : MReq} (id : Nat) (noPeer : ∀ p t o, r.dest ≠ .peer p t o) :
    freeBiWrite s id r = setMReq (performWrite s r) id { mergedReq s r with phase := .served } := by
  unfold freeBiWrite
  split
  next p t o peer => exact absurd peer (noPeer p t o)
  next => rfl

theorem freeBiWrites_one {id : Nat} {r : MReq}
    (one : (s.mem.reqs.filter fun e => e.2.phase == .waitBi && !biWaits s e.2.pa) = [(id, r)]) :
    freeBiWrites s = freeBiWrite s id r := by
  simp only [freeBiWrites, one, List.foldl_cons, List.foldl_nil]

/-- Where firmware has nothing waiting, before and after the writes, an answer frees writes and does nothing else. -/
theorem exec_backInvalidate {line : Nat} {t : State} (freed : freeBiWrites (lineAnswered s line) = t) (noWaits : t.host.fwWaits = []) :
    exec (.backInvalidate line) s = .next t := by
  subst freed
  exact congrArg Outcome.next (firmwareGoesOn_idle noWaits)

end

/-- Settles O29: each late request, completion and answer by its case. -/
theorem tierResults : Obligations.TierResults := by
  refine ⟨?_, ?_, ?_, ?_, ?_, ?_, ?_, ?_, ?_⟩
  · exact fun s id r found outer waits late => exec_tierLate_fails found outer waits late
  · exact fun s id r found inTime => exec_tierLate_waits found (.inr inTime)
  · exact fun s id r found near => exec_tierLate_waits found (.inl (by omega))
  · exact fun s id p r found host queued free read => exec_tier4Completion_read p found host queued free read
  · exact fun s id p r found host queued free write => exec_tier4Completion_write p found host queued free write
  · exact fun s id p r found host queued free => exec_tier4Completion_fails p found host queued free
  · exact fun s line none noWaits => exec_backInvalidate (freeBiWrites_none (s := lineAnswered s line) none) noWaits
  · intro s u line id r answered one noPeer noWaits
    subst answered
    have kept : (performWrite (lineAnswered s line) r).host.fwWaits = s.host.fwWaits := congrArg Aside.fwWaits (aside_performWrite _ r)
    exact exec_backInvalidate ((freeBiWrites_one (s := lineAnswered s line) one).trans (freeBiWrite_performs id noPeer))
      (kept.trans noWaits)
  · intro s a up
    change execHostSnoop a s = _
    rw [execHostSnoop, if_pos up]

end Machine
end Sys2Proof
end

section
/-! The proof of the statement of 08_memory_tiers_and_streaming about peers: reads and writes of exported grains, and the ends of
this module's requests at peers (R203, R263, R271, R414). -/

namespace Sys2Proof
namespace Machine

open Host

section
variable {s : State} {p txn : Nat} (present : peerPresent s p = true)
include present

/-! ### Requests of a peer (R203, R263) -/

/-- An access that the access rules do not allow is refused. -/
theorem exec_memreq_refused {pa off len : Nat} {w : Bool} (closed : exported s p pa w = false) :
    exec (.memreq p txn ⟨pa, off, len⟩ w) s = .next (sendBulk s p (.memack p txn rcTierFailed)) := by
  change execMemreq p txn ⟨pa, off, len⟩ w s = _
  have refused : peerServed s p pa w = false := by simp only [peerServed, closed, Bool.false_and]
  simp [execMemreq, present, refused]

/-- A served write waits for its data. -/
theorem exec_memreq_write {pa off len : Nat} (served : peerServed s p pa true = true) :
    exec (.memreq p txn ⟨pa, off, len⟩ true) s =
      .next (modPeers (bump s) fun q => { q with writesIn := q.writesIn ++
        [{ src := p, txn := txn, pa := grainBase pa, off := off, len := len, stamp := s.clk.tick, order := s.serial + 1 }] }) := by
  change execMemreq p txn ⟨pa, off, len⟩ true s = _
  simp only [execMemreq, present, served, Bool.not_true, Bool.false_eq_true, if_false, if_true]
  rfl

/-- A served read joins the queue of a busy bank; else it is answered now. -/
theorem exec_memreq_read {pa off len : Nat} (served : peerServed s p pa false = true) :
    exec (.memreq p txn ⟨pa, off, len⟩ false) s = .next (if bankBusy s pa
      then queueAtBank s (peerSource s p) (grainBase pa) false [] (mkTag [] 0 0 false) (.peer p txn 0)
      else servePeerRead s p txn (grainBase pa)) := by
  change execMemreq p txn ⟨pa, off, len⟩ false s = _
  simp [execMemreq, present, served, apply_ite (f := Outcome.next)]

/-! ### Data of a peer (R263, R271, R414) -/

/-- The state in which the data of a peer's write has come: the write waits no longer. -/
def writeTaken (s : State) (w : PeerWrite) : State := modPeers s fun x => { x with writesIn := dropFirst (fun y => y == w) x.writesIn }

section
variable {f q : Nat} {d : List Byte} {bad : Bool}

/-- The data of a waiting write joins the queue of a busy bank; else the write is served now. -/
theorem exec_memdata_write {w : PeerWrite} (waits : (s.peers.writesIn.find? fun x => x.src == p && x.txn == txn) = some w) :
    exec (.memdata p txn d f q bad) s = .next (if bankBusy s w.pa
      then addOutside (writeTaken s w) (outsideReq w.stamp w.order (peerSource (writeTaken s w) p) w.pa true ((fit 256 d).take w.len)
        (mkTag (fit 256 d) f q bad) (.peer p txn w.off) .queued)
      else servePeerWrite (writeTaken s w) p txn w.pa w.off ((fit 256 d).take w.len) (mkTag (fit 256 d) f q bad)) := by
  change execMemdata p txn d f q bad s = _
  simp only [execMemdata, present, waits, Bool.not_true, Bool.false_eq_true, if_false, apply_ite (f := Outcome.next)]
  rfl

/-- Data that no write waits for serves this module's read of that TXN. -/
theorem exec_memdata_read {id : Nat} {r : MReq} (noWrite : (s.peers.writesIn.find? fun w => w.src == p && w.txn == txn) = none)
    (mine : openTxn s p txn = some (id, r)) (read : r.isWrite = false) :
    exec (.memdata p txn d f q bad) s = .next (setMReq (modPeers s fun x => { x with txns := tdel x.txns txn }) id
      { r with phase := .served, data := fit 256 d, tag := mkTag (fit 256 d) f q bad }) := by
  change execMemdata p txn d f q bad s = _
  simp [execMemdata, present, noWrite, mine, read]

end

/-! ### Acknowledgements of a peer (R226, R263) -/

section
variable {id : Nat} {r : MReq} (mine : openTxn s p txn = some (id, r))
include mine

theorem exec_memack_ok (write : r.isWrite = true) : exec (.memack p txn rcOk) s =
    .next (ackAtCore (setMReq s id { r with phase := .served }) id { r with phase := .served }) := by
  change execMemack p txn rcOk s = _
  simp [execMemack, present, mine, write]

theorem exec_memack_fails {code : Nat} (failed : code ≠ rcOk) :
    exec (.memack p txn code) s = .next (afterReq (failReq s id) r.core) := by
  change execMemack p txn code s = _
  simp [execMemack, present, mine, failed]

end

end

/-- A peer's read of a grain whose unit is in service, or that has no mirror in service, is answered with the grain itself. -/
theorem servePeerRead_home {s : State} {pa : Nat} (p txn : Nat) (home : servePa s pa = pa) :
    servePeerRead s p txn pa = sendBulk s p (.memdata p txn (grainAt s pa) (tagAt s pa)) := by
  simp only [servePeerRead, home, if_true]

/-- A peer's write to a grain in service is merged there; it is acknowledged unless a back-invalidate holds it. -/
theorem servePeerWrite_inService {s v : State} {p txn pa off : Nat} {data : List Byte} {tag : GrainTag} (inService : unitLost s pa = false)
    (merged : mergeAs (checkHome s pa off data.length) pa off data tag = v) :
    servePeerWrite s p txn pa off data tag = if biWaits v pa
      then addOutside v (outsideReq v.clk.tick v.serial (peerSource v p) pa true [] tag (.peer p txn off) .waitBi)
      else sendBulk v p (.memack p txn rcOk) := by
  subst merged
  rw [servePeerWrite, if_neg (by simp [inService])]
  rfl

/-- Settles O33: each request, its data and its acknowledgement by its case. -/
theorem peerMemory : Obligations.PeerMemory := by
  refine ⟨?_, ?_, ?_, ?_, ?_, ?_, ?_, ?_, ?_⟩
  · intro s p txn pa off len present served idle home
    rw [exec_memreq_read present served, if_neg (by simp [idle]), servePeerRead_home p txn home]
  · intro s p txn pa off len present served busy
    rw [exec_memreq_read present served, if_pos busy]
  · exact fun s p txn pa off len present served => exec_memreq_write present served
  · exact fun s p txn pa off len w present closed => exec_memreq_refused present closed
  · intro s u v p txn f q d bad w present waits idle inService taken merged
    have performed := exec_memdata_write (d := d) (f := f) (q := q) (bad := bad) present waits
    rw [if_neg (by simp [idle]), show writeTaken s w = u from taken,
      servePeerWrite_inService (by rw [← taken]; exact inService) merged] at performed
    exact ⟨fun free => performed.trans (by rw [if_neg (by simp [free])]), fun held => performed.trans (by rw [if_pos held])⟩
  · intro s u p txn f q d bad w present waits busy taken
    rw [exec_memdata_write present waits, if_pos busy, show writeTaken s w = u from taken]
  · exact fun s p txn f q id d bad r present noWrite mine read =>
      ⟨_, exec_memdata_read present noWrite mine read, getMReq_setMReq _ _ _, rfl⟩
  · intro s p txn id r present mine write runs
    exact (exec_memack_ok present mine write).trans (congrArg Outcome.next (ackAtCore_runs (s := setMReq s id _) runs))
  · exact fun s p txn id code r present mine failed => exec_memack_fails present mine failed

end Machine
end Sys2Proof
end

section
/-! The proof of the statement of 09_in_stack_update about reduction sessions: UPDACC and UPDCLOSE, contributions at their stack, and
the end of a session (R155, R237 to R241). -/

namespace Sys2Proof
namespace Machine

open Host

/-! ### UPDACC and UPDCLOSE (R155, R237, R241) -/

section
variable {s : State} {n id : Nat} {w : Word} {b : Tensor} {x : Session} (role : (getCtx s n).dst.role ≠ 1) (elems : b.elems ≠ 0)
  (session : sessionOn s n b.base = some (id, x))
include role elems session

/-- An UPDACC that passes its checks sends its contributions; it is done when all of them have their slots. -/
theorem exec_updacc_sends {s' r : State} {c t : Nat} {v : Word} {tile : Tile} {gs : List (Nat × Nat × Nat)}
    (h : Issues rowUpdacc s (.thread c t) n w) (fresh : (threadOf s (.thread c t)).woken = none)
    (operand : sOf s (.thread c t) (iSrc3 w) = v)
    (src : tileFor (getCtx s n).num.s5emu (getCore s c) (dOf s (.thread c t) (iSrc1 w)) = some tile)
    (buffer : tensorOf (dOf s (.thread c t) (iSrc2 w)) = some b) (fields : accFieldsOk tile b (fld v 47 0) = true)
    (fits : accOk tile b x (fld v 47 0) (fld v 63 48) = true) (grains : accGrains tile b (fld v 47 0) = gs) (covers : gs ≠ [])
    (well : firstFault s n true (gs.map fun e => sessVa x e.2.2) = none) (stays : reshardOf s n b.id = false)
    (sessionStays : reshardOf s n (sessTensor x) = false) (free : guardSp s c t tile.runs [] = .ok s')
    (sent : sendContribs (countSession s' n id x) c t n id (bits (iImm w) 31 28) (fld v 63 48) x tile gs = .done r) :
    exec (.updacc (.thread c t) w) s = .next (thenNext s r (.thread c t) n) := by
  refine (runInstr_done h ?_ : execUpdacc (.thread c t) w s = _)
  simp [onCore, afterSlot_fresh, fresh, operand, role, src, buffer, fields, elems, session, fits, grains, covers, well, stays,
    sessionStays, free, guarded, sent]

/-- An UPDCLOSE of the session's step, with room in the queue, joins the session's closes. -/
theorem exec_updclose_enters {a : Agent} (h : Issues rowUpdclose s a n w) (buffer : tensorOf (dOf s a (iSrc1 w)) = some b)
    (named : b.id ≠ 0) (room : opQueueFull s (stackOfVa s n b.base) = false) (step : x.step = (sOf s a (iSrc2 w)).toNat % 2 ^ 32) :
    exec (.updclose a w) s = .next (thenNext s (countCloses (setSession (bump (issueCg s a (bits (iImm w) 31 28) 1)) id
      { x with closing := x.closing ++ [(a, (bump (issueCg s a (bits (iImm w) 31 28) 1)).serial)],
               closers := x.closers ++ [{ agent := a, cg := bits (iImm w) 31 28 }] }) id) a n) := by
  refine (runInstr_done h ?_ : execUpdclose a w s = _)
  simp [role, buffer, named, elems, session, step, room]

end

/-! ### A contribution at its stack (R238, R239) -/

section
variable {s : State} {req : Nat} {k : Contrib} {x : Session} (sent : tfind s.upd.contribs req = some k)
include sent

section
variable (flies : k.phase = .inFlight) (session : tfind s.upd.sessions k.sess = some x) (isOpen : x.complete = false)
include flies session isOpen

/-- A contribution that comes in its turn, or finds room in the reorder pool, is accepted. -/
theorem exec_contributionArrive_accepted
    (taken : k.tag = tget 0 x.next k.grain ∨ poolUsed s (stackOfVa s k.ctx k.va) < poolSize) :
    exec (.contributionArrive req false) s =
      .next (endContrib (acceptContrib s k x k.poison) req k (if k.poison then rcPoisoned else rcOk)) := by
  have accepts : (k.tag != tget 0 x.next k.grain && decide (poolSize ≤ poolUsed s (stackOfVa s k.ctx k.va))) = false := by
    rcases taken with turn | room
    · simp [turn]
    · simp [room]
  change execContributionArrive req false s = _
  simp only [execContributionArrive, sent, flies, session, isOpen, accepts, Bool.or_false, Bool.false_eq_true, if_false]

/-- A contribution out of its turn that finds the reorder pool full is refused. -/
theorem exec_contributionArrive_refused (early : k.tag ≠ tget 0 x.next k.grain)
    (full : poolSize ≤ poolUsed s (stackOfVa s k.ctx k.va)) :
    exec (.contributionArrive req false) s = .next (modUpd s fun u =>
      { u with contribs := tput u.contribs req { k with phase := .refused s.clk.tick } }) := by
  change execContributionArrive req false s = _
  simp [execContributionArrive, sent, flies, session, isOpen, early, full, now]

end

/-- A refused contribution is sent again. -/
theorem exec_contributionResend {tick : Nat} (refused : k.phase = .refused tick) :
    exec (.contributionResend req) s = .next (modUpd s fun u =>
      { u with contribs := tput u.contribs req { k with phase := .inFlight } }) := by
  change execContributionResend req s = _
  simp only [execContributionResend, sent, refused]

end

/-- A session that is set reads back. -/
@[simp] theorem tfind_setSession_same (s : State) (id : Nat) (x : Session) : tfind (setSession s id x).upd.sessions id = some x :=
  tfind_tput_same _ _ _

/-- A grain that may enter the buffer cache leaves the turns and the pool of its session. -/
theorem cacheGrain_keeps (s : State) (x : Session) (g : Nat) (enters : Bool) :
    (if enters then cacheGrain s x g else (s, x)).2.next = x.next ∧ (if enters then cacheGrain s x g else (s, x)).2.pool = x.pool := by
  cases enters
  · exact ⟨rfl, rfl⟩
  · unfold cacheGrain
    rw [if_pos rfl]
    split
    all_goals exact ⟨rfl, rfl⟩

/-- A contribution ahead of its turn, the first of its tag, joins the pool of its session, whose turn stays (R238). -/
theorem acceptContrib_ahead {s : State} {k : Contrib} {x : Session} (poison : Bool) (ahead : tget 0 x.next k.grain < k.tag)
    (new : (x.pool.any fun h => h.1 == k.grain && h.2.1 == k.tag) = false) :
    ∃ y, tfind (acceptContrib s k x poison).upd.sessions k.sess = some y ∧
      y.pool = x.pool ++ [(k.grain, k.tag, k.data, poison)] ∧ y.next = x.next := by
  unfold acceptContrib
  dsimp only
  generalize (tget 0 x.next k.grain == 0 && !x.pool.any fun h => h.1 == k.grain) = enters
  obtain ⟨next, pool⟩ := cacheGrain_keeps s x k.grain enters
  generalize (if enters then cacheGrain s x k.grain else (s, x)) = e at next pool ⊢
  obtain ⟨_, x'⟩ := e
  dsimp only at next pool ⊢
  simp only [pool, new, ahead.not_gt, ahead.ne', decide_false, Bool.or_self, Bool.false_eq_true, if_false]
  refine ⟨_, tfind_setSession_same _ _ _, ?_⟩
  cases poison
  all_goals exact ⟨congrArg (· ++ _) pool, next⟩

/-! ### The end of a session (R241) -/

/-- A session that reads back after a session may have been forgotten was there before. -/
theorem tfind_of_forgetSession {s : State} {id : Nat} {y : Session} (found : tfind (forgetSession s id).upd.sessions id = some y) :
    tfind s.upd.sessions id = some y := by
  unfold forgetSession at found
  split at found
  · exact found
  · split at found
    · simp at found
    · exact found

/-- A session as its completion leaves it in the table. -/
def Session.completed (x : Session) : Session := { x with complete := true, pool := [], cached := [], closing := [], closers := [] }

/-- What the completion of a session leaves once its grains are closed: the session completed, its step's latch set if a grain is
`bad`, its buffer's open reduction counted out, and every close answered. -/
def sessionAnswered (s : State) (id : Nat) (x : Session) (bad : Bool) : State :=
  let s := setSession s id x.completed
  let s := if bad then setLatch s x.ctx x.step else s
  let s := if x.counted then modReductions s x.ctx (sessTensor x) false else s
  x.closers.foldl (fun s r => groupEnds s r x.ctx (if bad then rcPoisoned else rcOk)) s

/-- Latch, count and answers leave the table of sessions alone. -/
theorem tfind_sessionAnswered (s : State) (id : Nat) (x : Session) (bad : Bool) :
    tfind (sessionAnswered s id x bad).upd.sessions id = some x.completed := by
  have answered : lives (sessionAnswered s id x bad) = lives (setSession s id x.completed) := by
    simp only [sessionAnswered, lives_foldl, lives_groupEnds, implies_true, apply_ite lives, lives_modReductions, lives_setLatch,
      ite_self]
  have upd : (sessionAnswered s id x bad).upd = (setSession s id x.completed).upd := congrArg Lives.upd answered
  rw [upd, tfind_setSession_same]

/-- A session that has its closes is completed, and forgotten if nothing refers to it. -/
theorem exec_sessionComplete_closes {s : State} {id : Nat} {x : Session} (session : tfind s.upd.sessions id = some x)
    (isOpen : x.complete = false) (closed : x.contrib ≤ x.closes) :
    exec (.sessionComplete id) s = .next (forgetSession
      (sessionAnswered (closeGrains s x (touchedGrains x)).2 id x (closeGrains s x (touchedGrains x)).1) id) := by
  change execSessionComplete id s = _
  simp only [execSessionComplete, session, isOpen, closed.not_gt, decide_false, Bool.or_self, Bool.false_eq_true, if_false]
  rfl

/-- A session that lacks closes stays as it is. -/
theorem exec_sessionComplete_waits {s : State} {id : Nat} {x : Session} (session : tfind s.upd.sessions id = some x)
    (lacks : x.closes < x.contrib) : exec (.sessionComplete id) s = .next s := by
  change execSessionComplete id s = _
  simp [execSessionComplete, session, lacks]

/-- Settles O23: UPDACC and UPDCLOSE past their checks, a contribution accepted, refused and sent again, and a session's end. -/
theorem sessionResults : Obligations.SessionResults := by
  refine ⟨?_, ?_, ?_, ?_, ?_, ?_, ?_, ?_⟩
  · intro s s' r c t n id w v tile b x gs h fresh operand role src buffer fields elems session fits grains covers well stays
      sessionStays free sent
    exact exec_updacc_sends role elems session h fresh operand src buffer fields fits grains covers well stays sessionStays free sent
  · rintro s _ a n id w b x h role buffer named elems room session step rfl
    exact exec_updclose_enters role elems session h buffer named room step
  · exact fun s req k x sent flies session isOpen turn => exec_contributionArrive_accepted sent flies session isOpen (.inl turn)
  · exact fun s req k x sent flies session isOpen early full => exec_contributionArrive_refused sent flies session isOpen early full
  · intro s req k x sent flies session isOpen ahead room new
    obtain ⟨y, found, pool, next⟩ := acceptContrib_ahead (s := s) k.poison ahead new
    exact ⟨exec_contributionArrive_accepted sent flies session isOpen (.inr room), y, found, by simp [pool], next⟩
  · exact fun s req tick k sent refused => exec_contributionResend sent refused
  · intro s id x session isOpen closed
    refine ⟨_, exec_sessionComplete_closes session isOpen closed, fun y left => ?_⟩
    rw [← Option.some.inj ((tfind_sessionAnswered _ _ _ _).symm.trans (tfind_of_forgetSession left))]
    rfl
  · exact fun s id x session lacks => exec_sessionComplete_waits session lacks

end Machine
end Sys2Proof
end

section
/-! The proofs of the statements of 10_peer_links_and_collectives, first part: what the flits that leave over the peer links leave
alone (R263 to R271). -/

namespace Sys2Proof
namespace Machine

open Host

/-- A port without its sending side: the flits that wait or are not acknowledged, their credits and counts, the LSEQ of the next one
while the port is ACTIVE, and the nonce of its HELLO. -/
def Port.unsent (p : Port) : Port :=
  { p with
    flitsTx := 0, replays := 0, relayed := 0, txNext := if p.state = ptActive then 0 else p.txNext, txBuf := [], txWait := []
    credits := [], round := [], nonce := [] }

/-- Which module this is, and which life it lives (R272). -/
def lifeOf (s : State) : Nat × Nat × Nat := (s.peers.self, s.peers.incarnation, s.peers.joinEpoch)

/-- What no flit that leaves over the links changes: memory, cores, the module's life, and each port but for its sending side. -/
structure LinkAside where
  mem : Mem
  cores : Tbl Core
  life : Nat × Nat × Nat
  port : Nat → Port

/-- That part of a state. Each operation below has a lemma that it keeps it. -/
def linkAside (s : State) : LinkAside where
  mem := s.mem
  cores := s.cores
  life := lifeOf s
  port k := (getPort s k).unsent

/-- States whose part is alike have the same memory, cores and life. -/
theorem state_of_linkAside {s t : State} (h : linkAside t = linkAside s) : t.mem = s.mem ∧ t.cores = s.cores ∧ lifeOf t = lifeOf s := by
  injection h with mem cores life
  exact ⟨mem, cores, life⟩

/-- A field of a port that is not of its sending side reads alike where that part of the state is alike. -/
theorem getPort_of_linkAside {α : Type} {s t : State} (h : linkAside t = linkAside s) (k : Nat) (g : Port → α)
    (apart : ∀ p : Port, g p.unsent = g p) : g (getPort t k) = g (getPort s k) := by
  rw [← apart (getPort t k), ← apart (getPort s k)]
  exact congrArg (fun a => g (LinkAside.port a k)) h

theorem isActive_of_linkAside {s t : State} (h : linkAside t = linkAside s) (k : Nat) : isActive t k = isActive s k :=
  congrArg (· == ptActive) (getPort_of_linkAside h k Port.state fun _ => rfl)

/-- A port that is not ACTIVE keeps its LSEQ. -/
theorem txNext_of_linkAside {s t : State} (h : linkAside t = linkAside s) {k : Nat} (idle : (getPort s k).state ≠ ptActive) :
    (getPort t k).txNext = (getPort s k).txNext := by
  have idle' : (getPort t k).state ≠ ptActive := by rwa [getPort_of_linkAside h k Port.state fun _ => rfl]
  have same : (getPort t k).unsent.txNext = (getPort s k).unsent.txNext := congrArg (fun a => (LinkAside.port a k).txNext) h
  simpa only [Port.unsent, if_neg idle, if_neg idle'] using same

/-! ### Updates of one field

Proofs by `(rfl)`, in brackets, so that `simp` takes them as rewrite rules. -/

@[simp] theorem linkAside_emit (s : State) (o : Out) : linkAside (Machine.emit s o) = linkAside s := (rfl)
@[simp] theorem linkAside_fresh (s : State) (n : Nat) : linkAside { s with fresh := n } = linkAside s := (rfl)
@[simp] theorem linkAside_modPwr (s : State) (f : Power → Power) : linkAside (modPwr s f) = linkAside s := (rfl)

@[simp] theorem linkAside_modPeers {s : State} {f : Peers → Peers} (self : (f s.peers).self = s.peers.self)
    (life : (f s.peers).incarnation = s.peers.incarnation) (join : (f s.peers).joinEpoch = s.peers.joinEpoch) :
    linkAside (modPeers s f) = linkAside s := by
  simp only [linkAside, lifeOf, modPeers, self, life, join]
  rfl

theorem linkAside_setPort {s : State} {k : Nat} {x : Port} (h : x.unsent = (getPort s k).unsent) :
    linkAside (setPort s k x) = linkAside s := by
  have ports : (fun j => (getPort (setPort s k x) j).unsent) = fun j => (getPort s j).unsent := funext (tget_tput_keeps Port.unsent h)
  simp only [linkAside, ports]
  rfl

theorem linkAside_modPort {s : State} {k : Nat} {f : Port → Port} (h : (f (getPort s k)).unsent = (getPort s k).unsent) :
    linkAside (modPort s k f) = linkAside s := linkAside_setPort h

@[simp] theorem linkAside_waits (s : State) (k : Nat) (q : Sent) :
    linkAside (modPort s k fun p => { p with txWait := p.txWait ++ [q] }) = linkAside s := linkAside_modPort rfl

/-! ### Flits (Machine/LinkOps.lean) -/

@[simp] theorem linkAside_qconfigLeft (s : State) (o : Out) : linkAside (qconfigLeft s o) = linkAside s := by
  unfold qconfigLeft
  split
  · exact foldl_keeps (p := linkAside) (f := fun s (e : Nat × Ctx) => wakeAgent s (.ctl e.1) (some 0)) (fun _ _ => rfl) _ s
  · rfl

@[simp] theorem linkAside_sendGroups (s : State) (k : Nat) (lseqs : List Nat) : linkAside (sendGroups s k lseqs) = linkAside s :=
  foldl_keeps (p := linkAside) (f := fun s g => Machine.emit s (.fecGroup k g (linkNow (getPort s k)))) (fun _ _ => rfl) _ s

theorem linkAside_sendOne {s : State} {k : Nat} (active : (getPort s k).state = ptActive) (cls : Nat) (round : Tbl Nat) :
    linkAside (sendOne s k cls round) = linkAside s := by
  unfold sendOne
  dsimp only
  split
  · rfl
  · simp only [linkAside_qconfigLeft, linkAside_emit]
    exact linkAside_setPort (by simp [Port.unsent, active])

@[simp] theorem linkAside_pumpPort (k fuel : Nat) (s : State) : linkAside (pumpPort k fuel s) = linkAside s := by
  induction fuel generalizing s with
  | zero => rfl
  | succ fuel ih =>
    unfold pumpPort
    dsimp only
    split
    · rfl
    next runs =>
      have active : (getPort s k).state = ptActive := by simp_all
      split
      · rfl
      · exact (ih _).trans (linkAside_sendOne active _ _)

@[simp] theorem linkAside_drainPort (s : State) (k : Nat) : linkAside (drainPort s k) = linkAside s := by
  unfold drainPort
  dsimp only
  split <;> simp

@[simp] theorem linkAside_linkPut (s : State) (q : Sent) : linkAside (linkPut s q) = linkAside s := by
  unfold linkPut
  dsimp only
  repeat' split
  all_goals simp

@[simp] theorem linkAside_linkSend (s : State) (dst cls : Nat) (eseq : Option Nat) (o : Out) :
    linkAside (linkSend s dst cls eseq o) = linkAside s := by simp [linkSend]

@[simp] theorem linkAside_sendCtl (s : State) (dst : Nat) (o : Out) : linkAside (sendCtl s dst o) = linkAside s := by
  simp [sendCtl, nextEseq]

@[simp] theorem linkAside_sendRoutes (s : State) : linkAside (sendRoutes s) = linkAside s := by
  unfold sendRoutes
  split <;> simp

@[simp] theorem linkAside_replayOf (s : State) (k : Nat) : linkAside (replayOf s k) = linkAside s := by
  unfold replayOf
  dsimp only
  split
  · rfl
  · rw [linkAside_sendGroups, linkAside_emit]
    exact linkAside_modPort rfl

@[simp] theorem linkAside_resume (s : State) (k : Nat) : linkAside (resume s k) = linkAside s := by simp [resume]

@[simp] theorem linkAside_sendHello (s : State) (k : Nat) : linkAside (sendHello s k) = linkAside s := by
  unfold sendHello
  dsimp only
  split <;> simp

@[simp] theorem linkAside_greet (s : State) (k : Nat) : linkAside (greet s k) = linkAside s :=
  (linkAside_sendHello _ k).trans (linkAside_modPort (s := { s with fresh := s.fresh + 8 }) rfl)

/-! ### The log and the repair map -/

@[simp] theorem linkAside_msixRequest (s : State) (p vec : Nat) (teardown : Bool) :
    linkAside (msixRequest s p vec teardown) = linkAside s := by
  unfold msixRequest
  split <;> rfl

@[simp] theorem linkAside_logEvent (s : State) (event : Nat) (u : LogUnit) (part : Nat) (ctx : Option Nat) (detail : Nat) :
    linkAside (logEvent s event u part ctx detail) = linkAside s := by
  have written : linkAside (writeLog s event u part ctx detail) = linkAside s := by
    unfold writeLog
    dsimp only
    split
    · exact (linkAside_msixRequest _ _ _ _).trans rfl
    · rfl
  unfold logEvent
  split
  · split
    · rfl
    · exact written
  · exact written

@[simp] theorem linkAside_recordSpares (s : State) (k : Nat) (spare : BitVec 18) : linkAside (recordSpares s k spare) = linkAside s := by
  unfold recordSpares
  split <;> simp [saveCarrier]

/-! ### HELLOs (R272, R274) -/

/-- A HELLO has left the module, or waits at its port. -/
def HelloGoes (s : State) (k : Nat) (h : HelloMsg) : Prop :=
  Out.hello h ∈ s.out ∨ ∃ q ∈ (getPort s k).txWait, q.msg = .hello h

/-- The HELLO names its port, this module and its life. -/
structure NamesSelf (h : HelloMsg) (s : State) (k : Nat) : Prop where
  port : h.port = k
  farPort : h.farPort = k
  life : (h.peer, h.incarnation, h.joinEpoch) = lifeOf s

/-- What is dropped from a list is an element that the test accepts. -/
theorem mem_dropFirst_or {α : Type} {p : α → Bool} {l : List α} {x : α} (mem : x ∈ l) : x ∈ dropFirst p l ∨ p x = true := by
  induction l with
  | nil => exact .inl mem
  | cons y l ih =>
    unfold dropFirst
    rcases List.mem_cons.mp mem with rfl | tail
    · split
      next accepted => exact .inr accepted
      · exact .inl List.mem_cons_self
    · split
      · exact .inl tail
      · exact (ih tail).imp_left (List.mem_cons_of_mem _)

theorem qconfigLeft_out (s : State) (o : Out) : (qconfigLeft s o).out = s.out := by
  unfold qconfigLeft
  split
  · exact foldl_keeps (p := State.out) (f := fun s (e : Nat × Ctx) => wakeAgent s (.ctl e.1) (some 0)) (fun _ _ => rfl) _ s
  · rfl

theorem qconfigLeft_ports (s : State) (o : Out) : (qconfigLeft s o).ports = s.ports := by
  unfold qconfigLeft
  split
  · exact foldl_keeps (p := State.ports) (f := fun s (e : Nat × Ctx) => wakeAgent s (.ctl e.1) (some 0)) (fun _ _ => rfl) _ s
  · rfl

/-- A HELLO that goes still does after more has left and nothing that waits was dropped. -/
theorem HelloGoes.mono {s t : State} {j : Nat} {h : HelloMsg} (goes : HelloGoes s j h) (out : ∀ o ∈ s.out, o ∈ t.out)
    (waits : ∀ q ∈ (getPort s j).txWait, q ∈ (getPort t j).txWait ∨ q.msg ∈ t.out) : HelloGoes t j h := by
  rcases goes with left | ⟨q, mem, msg⟩
  · exact .inl (out _ left)
  · exact (waits q mem).elim (fun stays => .inr ⟨q, stays, msg⟩) fun left => .inl (msg ▸ left)

section
variable {s : State} {j : Nat} {h : HelloMsg} (goes : HelloGoes s j h)
include goes

theorem HelloGoes.modPort {k : Nat} {f : Port → Port} (waits : ∀ q ∈ (getPort s k).txWait, q ∈ (f (getPort s k)).txWait) :
    HelloGoes (modPort s k f) j h := by
  refine goes.mono (fun _ left => left) fun q mem => .inl ?_
  by_cases e : k = j
  · subst e
    rw [getPort_modPort]
    exact waits q mem
  · rwa [getPort_modPort_ne _ _ _ _ e]

theorem HelloGoes.sendOne (k cls : Nat) (round : Tbl Nat) : HelloGoes (sendOne s k cls round) j h := by
  unfold Machine.sendOne
  dsimp only
  split
  · exact goes
  next q _ =>
    refine goes.mono (fun o left => by simp [qconfigLeft_out, left]) fun x mem => ?_
    simp only [getPort, qconfigLeft_ports, qconfigLeft_out, emit_ports, emit_out, setPort_ports]
    by_cases e : k = j
    · subst e
      rw [tget_tput_same]
      exact (mem_dropFirst_or mem).imp_right fun accepted => by simp [beq_iff_eq.mp accepted]
    · exact .inl (by rwa [tget_tput_ne _ _ _ _ _ e])

theorem HelloGoes.pumpPort (k fuel : Nat) : HelloGoes (pumpPort k fuel s) j h := by
  induction fuel generalizing s with
  | zero => exact goes
  | succ fuel ih =>
    unfold Machine.pumpPort
    dsimp only
    split
    · exact goes
    · split
      · exact goes
      · exact ih (goes.sendOne _ _ _)

theorem HelloGoes.emit (o : Out) : HelloGoes (Machine.emit s o) j h :=
  goes.mono (fun _ left => List.mem_append_left _ left) fun _ mem => .inl mem

theorem HelloGoes.sendGroups (k : Nat) (lseqs : List Nat) : HelloGoes (sendGroups s k lseqs) j h := by
  unfold Machine.sendGroups
  generalize groupsOf lseqs = groups
  induction groups generalizing s with
  | nil => exact goes
  | cons g groups ih => exact ih (goes.emit _)

theorem HelloGoes.drainPort (k : Nat) : HelloGoes (drainPort s k) j h := by
  unfold Machine.drainPort
  dsimp only
  split
  · exact goes.pumpPort _ _
  · exact (goes.pumpPort _ _).sendGroups _ _

theorem HelloGoes.fresh (n : Nat) : HelloGoes { s with fresh := n } j h := goes

theorem HelloGoes.sendHello (k : Nat) : HelloGoes (sendHello s k) j h := by
  unfold Machine.sendHello
  dsimp only
  split
  · exact ((goes.fresh _).modPort fun _ mem => List.mem_append_left _ mem).drainPort _
  · exact ((goes.fresh _).emit _).emit _

theorem HelloGoes.greet (k : Nat) : HelloGoes (greet s k) j h := ((goes.fresh _).modPort fun _ mem => mem).sendHello k

end

/-- A HELLO leaves a port that is not ACTIVE at once. -/
theorem mem_out_sendHello {s : State} {k : Nat} (idle : isActive s k = false) : Out.hello (helloOf s k) ∈ (sendHello s k).out := by
  unfold sendHello
  dsimp only
  rw [if_neg (show ¬isActive { s with fresh := s.fresh + 1 } k = true from ne_true_of_eq_false idle)]
  exact List.mem_append_right _ List.mem_cons_self

theorem helloGoes_sendHello (s : State) (k : Nat) : HelloGoes (sendHello s k) k (helloOf s k) := by
  cases active : isActive s k
  · exact .inl (mem_out_sendHello active)
  · unfold sendHello
    dsimp only
    rw [if_pos (show isActive { s with fresh := s.fresh + 1 } k = true from active)]
    exact HelloGoes.drainPort (.inr (by simp)) _

/-- Over a port that is greeted a HELLO goes that names this module, at once where the port is not ACTIVE. -/
theorem helloGoes_greet (s : State) (k : Nat) : ∃ h, HelloGoes (greet s k) k h ∧ NamesSelf h s k :=
  ⟨_, helloGoes_sendHello _ k, rfl, rfl, rfl⟩

theorem mem_out_greet {s : State} {k : Nat} (idle : isActive s k = false) : ∃ h, Out.hello h ∈ (greet s k).out ∧ NamesSelf h s k := by
  refine ⟨_, mem_out_sendHello ?_, rfl, rfl, rfl⟩
  rwa [isActive_of_linkAside (linkAside_modPort (s := { s with fresh := s.fresh + 8 }) rfl)]

end Machine
end Sys2Proof
end

section
/-! The proofs of the statements of 10_peer_links_and_collectives, second part: the states of a port and its lanes, FEC groups and flits
(R261 to R264, R268). -/

namespace Sys2Proof
namespace Machine

open Host

/-! ### The states of a port (R261) -/

section
variable (s : State) (k st : Nat)

/-- A port that moves to another state is there since now, and else as it was but for its sending side. -/
theorem linkAside_portMoves :
    linkAside (portMoves s k st) = linkAside (modPort s k fun p => { p with state := st, enteredAt := now s }) := linkAside_sendRoutes _

theorem portMoves_mem : (portMoves s k st).mem = s.mem := congrArg LinkAside.mem (linkAside_portMoves s k st)

/-- A field of the port that moves, by the field of the port it is set to. -/
theorem getPort_portMoves {α : Type} (g : Port → α) (apart : ∀ p : Port, g p.unsent = g p) :
    g (getPort (portMoves s k st) k) = g { getPort s k with state := st, enteredAt := now s } := by
  rw [getPort_of_linkAside (linkAside_portMoves s k st) k g apart, getPort_modPort]

theorem portMoves_state : (getPort (portMoves s k st) k).state = st := getPort_portMoves s k st Port.state fun _ => rfl

/-- A field of a port that no retraining sets stays as one starts. -/
theorem getPort_portRetrain {α : Type} (g : Port → α) (apart : ∀ p : Port, g p.unsent = g p)
    (stays : ∀ (p : Port) (at_ n : Nat), g { p with
      state := ptRetrain, enteredAt := at_, retrains := n, swapLane := none, fecTries := 0, nakTries := 0 } = g p) :
    g (getPort (portRetrain s k) k) = g (getPort s k) := by
  unfold portRetrain
  split
  · rw [getPort_of_linkAside (linkAside_sendRoutes _) k g apart, getPort_modPort, stays]
  · rfl

end

section
variable {s : State} {k : Nat}

/-- An ACTIVE port that retrains counts it. -/
theorem portRetrain_enters (active : isActive s k = true) :
    (getPort (portRetrain s k) k).state = ptRetrain ∧ (getPort (portRetrain s k) k).retrains = (getPort s k).retrains + 1 := by
  unfold portRetrain
  rw [if_pos active]
  exact ⟨by rw [getPort_of_linkAside (linkAside_sendRoutes _) k Port.state fun _ => rfl, getPort_modPort],
    by rw [getPort_of_linkAside (linkAside_sendRoutes _) k Port.retrains fun _ => rfl, getPort_modPort]⟩

theorem exec_portEnable_on (disabled : (getPort s k).state = ptDisabled) (full : s.pwr.service = 2) :
    exec (.portEnable k true) s = .next (portMoves (modPort s k fun p => { p with enable := true }) k ptDetect) := by
  change execPortEnable k true s = _
  simp [execPortEnable, disabled, full]

theorem exec_portEnable_off (disabled : (getPort s k).state = ptDisabled) (service : s.pwr.service ≠ 3) :
    exec (.portEnable k false) s = .next (modPort s k fun p => { p with enable := false }) := by
  change execPortEnable k false s = _
  simp [execPortEnable, disabled, service]

theorem exec_portRetrain_down (down : (getPort s k).state = ptDown) : exec (.portRetrain k) s = .next (portMoves s k ptDetect) :=
  if_pos down

theorem exec_signalDetect {l : BitVec 18} (detect : (getPort s k).state = ptDetect) (enough : 8 ≤ laneCount l) :
    exec (.signalDetect k l) s = .next (portMoves s k ptTrain) := if_pos (by simp [detect, enough])

theorem exec_signalDetect_few {l : BitVec 18} (few : laneCount l < 8) : exec (.signalDetect k l) s = .next s := if_neg (by simp [few])

theorem exec_portDownTimeout (down : (getPort s k).state = ptDown) (due : (getPort s k).enteredAt + 4800000 ≤ s.clk.tick) :
    exec (.portDownTimeout k) s = .next (portMoves s k ptDetect) := if_pos (by simp [down, due, now])

theorem exec_portDownTimeout_early (early : s.clk.tick < (getPort s k).enteredAt + 4800000) :
    exec (.portDownTimeout k) s = .next s := if_neg (by simp [now, early.not_ge])

theorem exec_reservedFlit (active : isActive s k = true) :
    exec (.reservedFlit k) s = .next (portRetrain (modPort s k fun p => { p with protoErr := p.protoErr + 1 }) k) :=
  if_neg (by simp [active])

/-! ### Training (R261, R262) -/

section
variable {p b : BitVec 18}

/-- A port whose lanes are trained, its sequences begun again. -/
def trainedPort (s : State) (k : Nat) (p b : BitVec 18) : State :=
  modPort (setLanes s k p b) k fun p => { p with txNext := 0, rxNext := 0, rxTries := 0, fecTries := 0, nakTries := 0, farNonce := [] }

theorem exec_trainComplete (train : (getPort s k).state = ptTrain) (result : laneTestOk s k p b = true)
    (enough : 8 ≤ laneCount (usableLanes s k p)) :
    exec (.trainComplete k p b) s = .next (greet (portMoves (trainedPort s k p b) k ptExchange) k) := by
  change execTrainComplete k p b s = _
  simp only [execTrainComplete, train, result, enough.not_gt, if_false]
  rfl

theorem exec_trainComplete_few (train : (getPort s k).state = ptTrain) (result : laneTestOk s k p b = true)
    (few : laneCount (usableLanes s k p) < 8) : exec (.trainComplete k p b) s = .next (portDown s k) := by
  change execTrainComplete k p b s = _
  simp [execTrainComplete, train, result, few]

theorem exec_retrainComplete_ok (retrain : (getPort s k).state = ptRetrain) (result : laneTestOk s k (retrainLanes s k p) b = true)
    (enough : 8 ≤ laneCount (usableLanes s k (retrainLanes s k p))) :
    exec (.retrainComplete k true p b) s = .next (resume (portUp (setLanes s k (retrainLanes s k p) b) k) k) := by
  change execRetrainComplete k true p b s = _
  simp [execRetrainComplete, retrain, result, enough]

theorem exec_retrainComplete_fails (retrain : (getPort s k).state = ptRetrain) (result : laneTestOk s k (retrainLanes s k p) b = true) :
    exec (.retrainComplete k false p b) s = .next (portDown s k) := by
  change execRetrainComplete k false p b s = _
  simp [execRetrainComplete, retrain, result]

theorem setLanes_life (s : State) (k : Nat) (p b : BitVec 18) : lifeOf (setLanes s k p b) = lifeOf s := by
  unfold setLanes
  dsimp only
  split
  · exact congrArg LinkAside.life (linkAside_recordSpares _ _ _)
  · exact congrArg LinkAside.life (linkAside_logEvent _ _ _ _ _ _)

/-- A port is trained at full width with 16 usable lanes, else at half width. -/
theorem setLanes_lanes (s : State) (k : Nat) (p b : BitVec 18) :
    (getPort (setLanes s k p b) k).lanes = if 16 ≤ laneCount (usableLanes s k p) then 16 else 8 := by
  unfold setLanes
  dsimp only
  split
  next full =>
    rw [getPort_of_linkAside (linkAside_recordSpares _ _ _) k Port.lanes fun _ => rfl, getPort_modPort]
    exact (if_pos (of_decide_eq_true full)).symm
  next half =>
    rw [getPort_of_linkAside (linkAside_logEvent _ _ _ _ _ _) k Port.lanes fun _ => rfl, getPort_modPort]
    exact (if_neg fun full => half (decide_eq_true full)).symm

/-- A trained port enters EXCHANGE with its sequences begun again, and its HELLO leaves. -/
theorem trainedPort_exchanges (s : State) (k : Nat) (p b : BitVec 18) {t : State}
    (h : greet (portMoves (trainedPort s k p b) k ptExchange) k = t) :
    (getPort t k).state = ptExchange ∧ (getPort t k).lanes = (if 16 ≤ laneCount (usableLanes s k p) then 16 else 8) ∧
      (getPort t k).txNext = 0 ∧ (getPort t k).rxNext = 0 ∧ ∃ h, Out.hello h ∈ t.out ∧ NamesSelf h s k := by
  subst h
  have moved := (linkAside_greet (portMoves (trainedPort s k p b) k ptExchange) k).trans (linkAside_portMoves _ k ptExchange)
  have trained : getPort (trainedPort s k p b) k = { getPort (setLanes s k p b) k with
    txNext := 0, rxNext := 0, rxTries := 0, fecTries := 0, nakTries := 0, farNonce := [] } := getPort_modPort _ _ _
  have idle : isActive (portMoves (trainedPort s k p b) k ptExchange) k = false := by
    rw [isActive, portMoves_state]
    rfl
  obtain ⟨h, out, names⟩ := mem_out_greet idle
  refine ⟨?_, ?_, ?_, ?_, h, out, names.port, names.farPort, ?_⟩
  · rw [getPort_of_linkAside moved k Port.state fun _ => rfl, getPort_modPort]
  · rw [getPort_of_linkAside moved k Port.lanes fun _ => rfl, getPort_modPort, trained]
    exact setLanes_lanes s k p b
  · rw [txNext_of_linkAside moved (by rw [getPort_modPort]; exact (by decide : ptExchange ≠ ptActive)), getPort_modPort, trained]
  · rw [getPort_of_linkAside moved k Port.rxNext fun _ => rfl, getPort_modPort, trained]
  · exact names.life.trans ((congrArg LinkAside.life (linkAside_portMoves _ k ptExchange)).trans (setLanes_life s k p b))

end

/-! ### Lanes (R262) -/

/-- The lanes of a port that carry traffic and had more errors in an interval than the limit. -/
def lanesOver (p : Port) (n : List Nat) : List Nat :=
  (List.range 18).filter fun l => bit p.active.toNat l && decide (p.laneLimit < n.getD l 0)

theorem not_overLimit {p : Port} {n : List Nat} {l : Nat} (within : n.getD l 0 ≤ p.laneLimit) :
    ¬(bit p.active.toNat l && decide (p.laneLimit < n.getD l 0)) = true := by
  rw [decide_eq_false within.not_gt, Bool.and_false]
  exact Bool.false_ne_true

theorem lanesOver_none {p : Port} {n : List Nat} (within : ∀ l, n.getD l 0 ≤ p.laneLimit) : lanesOver p n = [] :=
  List.filter_eq_nil_iff.mpr fun l _ => not_overLimit (within l)

theorem lanesOver_first {p : Port} {n : List Nat} (carries : bit p.active.toNat 0 = true) (exceeds : p.laneLimit < n.getD 0 0)
    (within : ∀ l, 1 ≤ l → n.getD l 0 ≤ p.laneLimit) : lanesOver p n = [0] := by
  rw [lanesOver, List.range_succ_eq_map, List.filter_cons_of_pos (by rw [carries, decide_eq_true exceeds]; rfl)]
  refine congrArg (List.cons 0) (List.filter_eq_nil_iff.mpr fun l mem => ?_)
  obtain ⟨j, -, rfl⟩ := List.mem_map.mp mem
  exact not_overLimit (within _ j.succ_pos)

section
variable (active : (getPort s k).state = ptActive)
include active

theorem exec_laneErrorInterval (n : List Nat) :
    exec (.laneErrorInterval k n) s = .next (nextSwap ((lanesOver (getPort s k) n).foldl (fun s l => laneBad s k l) s) k) :=
  if_neg (by simp [active])

theorem exec_laneSignalLoss {l : Nat} (carries : bit (getPort s k).active.toNat l = true) :
    exec (.laneSignalLoss k l) s = .next (nextSwap (laneBad s k l) k) := by
  change execLaneSignalLoss k l s = _
  simp [execLaneSignalLoss, active, carries]

section
variable {l : Nat} (swap : (getPort s k).swapLane = some l)
include swap

theorem exec_laneSwap_noSpare (none : lowLanes (getPort s k).spare 1 = 0) : exec (.laneSwap k l) s = .next (portRetrain s k) := by
  change execLaneSwap k l s = _
  simp [execLaneSwap, active, swap, none]

/-- A port whose stripe of a lane has moved to its lowest spare. -/
def swappedPort (p : Port) (l : Nat) : Port :=
  { p with
    active := (p.active &&& ~~~(laneBit l)) ||| lowLanes p.spare 1, spare := p.spare &&& ~~~(lowLanes p.spare 1)
    bad := p.bad ||| laneBit l, laneSwaps := p.laneSwaps + 1, swapLane := none }

theorem exec_laneSwap_spare (some : lowLanes (getPort s k).spare 1 ≠ 0) :
    exec (.laneSwap k l) s = .next (nextSwap (resume (logEvent (setPort s k (swappedPort (getPort s k) l)) 0x05
      { cls := 1, kind := 5, unit := 32 * k + l } 0 none l) k) k) := by
  change execLaneSwap k l s = _
  unfold execLaneSwap
  dsimp only
  rw [if_neg (by simp [active, swap]), if_neg some]
  rfl

end
end

@[simp] theorem getPort_sendLinkWord (s : State) (k : Nat) (nak : Bool) (swap : Nat) (cr : List Nat) (j : Nat) :
    getPort (sendLinkWord s k nak swap cr) j = getPort s j := rfl

theorem nextSwap_laneSwaps (s : State) (k : Nat) : (getPort (nextSwap s k) k).laneSwaps = (getPort s k).laneSwaps := by
  unfold nextSwap
  dsimp only
  split
  · rfl
  · split
    · rfl
    · split
      · exact getPort_portRetrain s k Port.laneSwaps (fun _ => rfl) fun _ _ _ => rfl
      · rw [getPort_sendLinkWord, getPort_modPort]

end

/-- Settles O31: each command by what it does where its condition is met; a port that moves or retrains by what its routes' messages
leave alone. -/
theorem portResults : Obligations.PortResults := by
  refine ⟨?_, ?_, ?_, ?_, ?_, ?_, ?_, ?_, ?_, ?_, ?_, ?_, ?_, ?_, ?_, ?_, ?_⟩
  · intro s k disabled full
    refine ⟨_, exec_portEnable_on disabled full, portMoves_state _ _ _, ?_, portMoves_mem _ _ _⟩
    rw [getPort_portMoves _ _ _ Port.enable fun _ => rfl, getPort_modPort]
  · exact fun s k disabled service => ⟨_, exec_portEnable_off disabled service, by rw [getPort_modPort]; exact disabled,
      by rw [getPort_modPort]⟩
  · exact fun s k down => ⟨_, exec_portRetrain_down down, portMoves_state _ _ _⟩
  · exact fun s k l detect enough =>
      ⟨_, exec_signalDetect detect enough, portMoves_state _ _ _, getPort_portMoves _ _ _ Port.enteredAt fun _ => rfl⟩
  · exact fun s k l few => exec_signalDetect_few few
  · intro s k p b train result enough
    obtain ⟨state, lanes, tx, rx, h, out, port, farPort, life⟩ := trainedPort_exchanges s k p b rfl
    injection life with peer life
    injection life with incarnation join
    exact ⟨_, exec_trainComplete train result enough, state, lanes, tx, rx, h, out, port, farPort, peer, incarnation, join⟩
  · exact fun s k p b train result few => exec_trainComplete_few train result few
  · exact fun s k p b retrain result enough => exec_retrainComplete_ok retrain result enough
  · exact fun s k p b retrain result => exec_retrainComplete_fails retrain result
  · exact fun s k down due => ⟨_, exec_portDownTimeout down due, portMoves_state _ _ _⟩
  · exact fun s k early => exec_portDownTimeout_early early
  · intro s k n active exceeds carries _ within
    rw [exec_laneErrorInterval active, lanesOver_first carries exceeds within]
    rfl
  · intro s k n active within
    rw [exec_laneErrorInterval active, lanesOver_none within]
    rfl
  · exact fun s k l active carries => exec_laneSignalLoss active carries
  · exact fun s k l active swap none => exec_laneSwap_noSpare active swap none
  · intro s k l active swap some
    refine ⟨_, exec_laneSwap_spare active swap some, ?_⟩
    have resumed := (linkAside_resume _ k).trans (linkAside_logEvent (setPort s k (swappedPort (getPort s k) l)) 0x05
      { cls := 1, kind := 5, unit := 32 * k + l } 0 none l)
    rw [nextSwap_laneSwaps, getPort_of_linkAside resumed k Port.laneSwaps fun _ => rfl, getPort_setPort]
    rfl
  · intro s k active
    have active' : isActive (modPort s k fun p => { p with protoErr := p.protoErr + 1 }) k = true := by
      rwa [isActive, getPort_modPort]
    obtain ⟨state, retrains⟩ := portRetrain_enters active'
    rw [getPort_modPort] at retrains
    refine ⟨_, exec_reservedFlit active, ?_, state, retrains⟩
    rw [getPort_portRetrain _ _ Port.protoErr (fun _ => rfl) fun _ _ _ => rfl, getPort_modPort]

/-! ### FEC groups (R264, R268) -/

section
variable {s : State} {k : Nat} {g : FecGroup} (active : (getPort s k).state = ptActive)
include active

section
variable (fails : g.decodes = false)
include fails

/-- A port after a group that does not decode. -/
def undecoded (p : Port) (g : FecGroup) : Port :=
  { p with fecUncorr := p.fecUncorr + 1, fecTries := p.fecTries + b2n (carriesNext p g) }

theorem exec_fecGroupReceive_again
    (again : (carriesNext (getPort s k) g && decide ((getPort s k).replayMax ≤ (getPort s k).fecTries)) = false) :
    exec (.fecGroupReceive k g) s =
      .next (sendLinkWord (setPort s k (undecoded (getPort s k) g)) k true noLane [0, 0, 0, 0]) := by
  change execFecGroupReceive k g s = _
  unfold execFecGroupReceive
  dsimp only
  rw [if_neg (by simp [active]), if_pos (by simp [fails]), if_neg (by simp only [again, Bool.false_eq_true, not_false_eq_true])]
  rfl

theorem exec_fecGroupReceive_retrains (waited : carriesNext (getPort s k) g = true)
    (tried : (getPort s k).replayMax ≤ (getPort s k).fecTries) :
    exec (.fecGroupReceive k g) s = .next (portRetrain (setPort s k { getPort s k with
      fecUncorr := (getPort s k).fecUncorr + 1, fecTries := (getPort s k).fecTries + 1 }) k) := by
  change execFecGroupReceive k g s = _
  unfold execFecGroupReceive
  dsimp only
  rw [if_neg (by simp [active]), if_pos (by simp [fails]), if_pos (by simp [waited, tried]), waited]
  rfl

end

/-- A port after a group that decodes, before its flits are taken. -/
def decoded (p : Port) (g : FecGroup) : Port :=
  { p with fecCorrected := p.fecCorrected + g.corrected, fecTries := if carriesNext p g then 0 else p.fecTries }

theorem exec_fecGroupReceive_takes {s' : State} {nak : Bool} (decodes : g.decodes = true)
    (took : takeFlits (setPort s k (decoded (getPort s k) g)) k (g.flits.take 4) = (s', nak)) :
    exec (.fecGroupReceive k g) s = .next (sendLinkWord (takeLinkWord s' k g.link) k nak noLane
      (freedOf (getPort s k).rxNext (getPort (takeLinkWord s' k g.link) k).rxNext g.flits)) := by
  change execFecGroupReceive k g s = _
  unfold execFecGroupReceive
  dsimp only
  rw [if_neg (by simp [active]), if_neg (by simp [decodes])]
  rw [decoded] at took
  rw [took]

end

/-! ### Flits (R263, R264) -/

section
variable {s : State} {k : Nat} {f : Flit}

theorem takeFlit_outOfOrder (other : f.lseq ≠ (getPort s k).rxNext) : takeFlit s k f = .taken s := if_pos (by simp [other])

variable (inOrder : f.lseq = (getPort s k).rxNext)
include inOrder

/-- A flit of a reserved type is a protocol error; its LSEQ is taken. -/
theorem takeFlit_reserved (reserved : 7 ≤ f.ftype) : takeFlit s k f = .nak (portRetrain (setPort s k { getPort s k with
    protoErr := (getPort s k).protoErr + 1, rxNext := ((getPort s k).rxNext + 1) % 4096 }) k) := by
  unfold takeFlit
  dsimp only
  rw [if_neg (by simp [inOrder]; omega), if_pos reserved]

section
variable (carries : f.ftype ≠ 0) (known : f.ftype < 7)
include carries known

theorem takeFlit_matches (good : f.check = crc32c f.body) : takeFlit s k f = .taken (acceptFlit s k f) := by
  unfold takeFlit
  dsimp only
  rw [if_neg (by simp [inOrder, carries]), if_neg known.not_ge, if_pos good]

/-- A port after a flit whose check does not match. -/
def withCheckFail (p : Port) : Port := { p with checkFail := p.checkFail + 1 }

variable (bad : f.check ≠ crc32c f.body)
include bad

theorem takeFlit_again (again : (getPort s k).rxTries < (getPort s k).replayMax) : takeFlit s k f =
    .nak (modPort (setPort s k (withCheckFail (getPort s k))) k fun p => { p with rxTries := p.rxTries + 1 }) := by
  unfold takeFlit
  dsimp only
  rw [if_neg (by simp [inOrder, carries]), if_neg known.not_ge, if_neg bad, if_neg again.not_ge]
  rfl

/-- The state with a flit given up counted at its port and among the module's failed checks. -/
def flitCounted (s : State) (k : Nat) : State :=
  modRec (modPort (setPort s k (withCheckFail (getPort s k))) k fun p => { p with poisonDelivered := p.poisonDelivered + 1 })
    fun r => { r with checkFails := r.checkFails + 1 }

/-- The state with a flit given up: counted, and logged. -/
def flitGivenUp (s : State) (k : Nat) : State := logEvent (flitCounted s k) 0x01 { cls := 0, kind := 5, unit := 32 * k + 31 } 0 none 0

theorem takeFlit_poisons (tried : (getPort s k).replayMax ≤ (getPort s k).rxTries) :
    takeFlit s k f = .taken (acceptFlit (flitGivenUp s k) k { f with poison := true, check := crc32c f.body }) := by
  unfold takeFlit
  dsimp only
  rw [if_neg (by simp [inOrder, carries]), if_neg known.not_ge, if_neg bad, if_pos tried]
  rfl

end
end

/-- Logging leaves the count of failed checks alone. -/
theorem logEvent_checkFails (s : State) (event : Nat) (u : LogUnit) (part : Nat) (ctx : Option Nat) (detail : Nat) :
    (logEvent s event u part ctx detail).recov.checkFails = s.recov.checkFails := by
  have written : (writeLog s event u part ctx detail).recov.checkFails = s.recov.checkFails := by
    unfold writeLog
    dsimp only
    split
    · obtain ⟨-, -, recov⟩ := msixRequest_keeps _ 0 s.recov.logIrqVec false
      exact (congrArg Rec.checkFails recov).trans rfl
    · rfl
  unfold logEvent
  split
  · split
    · rfl
    · exact written
  · exact written

theorem getPort_flitCounted (s : State) (k : Nat) : getPort (flitCounted s k) k =
    { withCheckFail (getPort s k) with poisonDelivered := (getPort s k).poisonDelivered + 1 } := by
  have port := getPort_modPort (setPort s k (withCheckFail (getPort s k))) k fun p => { p with poisonDelivered := p.poisonDelivered + 1 }
  rwa [getPort_setPort] at port

theorem flitGivenUp_counts (s : State) (k : Nat) :
    (getPort (flitGivenUp s k) k).poisonDelivered = (getPort s k).poisonDelivered + 1 ∧
      (getPort (flitGivenUp s k) k).checkFail = (getPort s k).checkFail + 1 ∧
      (flitGivenUp s k).recov.checkFails = s.recov.checkFails + 1 := by
  have logged : linkAside (flitGivenUp s k) = linkAside (flitCounted s k) := linkAside_logEvent _ _ _ _ _ _
  refine ⟨?_, ?_, logEvent_checkFails _ _ _ _ _ _⟩
  · rw [getPort_of_linkAside logged k Port.poisonDelivered fun _ => rfl, getPort_flitCounted]
  · rw [getPort_of_linkAside logged k Port.checkFail fun _ => rfl, getPort_flitCounted]
    rfl

/-- Settles O32: a group by whether it decodes and what it carries, a flit by its order, its type, its check and its tries. -/
theorem linkResults : Obligations.LinkResults := by
  refine ⟨?_, ?_, ?_, ?_, ?_, ?_, ?_, ?_⟩
  · intro s k g active fails again
    refine ⟨_, exec_fecGroupReceive_again active fails again, ?_⟩
    simp only [getPort_sendLinkWord, getPort_setPort, undecoded, active, true_and]
    simp [sendLinkWord]
  · exact fun s k g active fails waited tried => exec_fecGroupReceive_retrains active fails waited tried
  · exact fun s s' k g nak active decodes took => ⟨_, exec_fecGroupReceive_takes active decodes took, rfl⟩
  · exact fun s k f carries known inOrder good => takeFlit_matches inOrder carries known good
  · intro s k f carries known inOrder bad again
    refine ⟨_, takeFlit_again inOrder carries known bad again, ?_⟩
    rw [getPort_modPort, getPort_setPort]
    exact ⟨rfl, rfl, rfl⟩
  · exact fun s k f carries known inOrder bad tried => ⟨_, takeFlit_poisons inOrder carries known bad tried, flitGivenUp_counts s k⟩
  · intro s k f reserved inOrder
    refine ⟨_, takeFlit_reserved inOrder reserved, ?_⟩
    rw [getPort_portRetrain _ _ Port.protoErr (fun _ => rfl) fun _ _ _ => rfl, getPort_setPort]
  · exact fun s k f other => takeFlit_outOfOrder other

end Machine
end Sys2Proof
end

section
/-! The proofs of the statements of 10_peer_links_and_collectives, third part: ordered flits in and out of their turn, and the messages
of queues (R64, R69, R271, R461). -/

namespace Sys2Proof
namespace Machine

open Host

/-! ### Turns (R271) -/

/-- An ordered flit in its turn is delivered, and what came early and is next now after it. -/
theorem ordered_inTurn {s u : State} {src cls eseq : Nat} (turn : InTurn s u src cls eseq) (c : Instr) :
    ordered src cls eseq c s = withEarly s (deliver c u) src cls := by
  obtain ⟨present, rfl, rfl⟩ := turn
  simp [ordered, withEarly, present]

theorem ordered_ahead {s : State} {src cls eseq : Nat} {c : Instr} (present : peerPresent s src = true)
    (ahead : 0 < (eseq + 4096 - eseqWanted s src cls) % 4096) (near : (eseq + 4096 - eseqWanted s src cls) % 4096 < 2048)
    (new : (s.peers.early.any fun e => e.1 == src && e.2.1 == cls && e.2.2.1 == eseq) = false) :
    ordered src cls eseq c s = modPeers s fun p => { p with early := p.early ++ [(src, cls, eseq, c)] } := by
  unfold ordered
  dsimp only
  rw [if_neg (by simp [present, near]), if_neg ahead.ne', new]
  rfl

theorem ordered_past {s : State} {src cls eseq : Nat} {c : Instr} (past : 2048 ≤ (eseq + 4096 - eseqWanted s src cls) % 4096) :
    ordered src cls eseq c s = s := if_pos (by simp [past])

/-! ### What each message does in its turn (R64, R69, R461) -/

section
variable {s : State}

theorem takeQueueFlit_joins {f : QueueFlit} {c : Nat} (receives : flitEnd s f = some c) :
    takeQueueFlit f s = modCore s c fun x => setEp x f.ep
      { getEp x f.ep with inFlight := (getEp x f.ep).inFlight ++ flitWords f } := by
  simp only [takeQueueFlit, receives]

/-- Whether a core runs does not depend on its endpoints. -/
theorem coreRuns_modCore {k : Nat} {f : Core → Core} (lost : (f (getCore s k)).lost = (getCore s k).lost)
    (owner : (f (getCore s k)).owner = (getCore s k).owner) : coreRuns (modCore s k f) k = coreRuns s k := by
  rw [coreRuns, getCore_modCore, lost, owner]
  rfl

section
variable {p c e pc pe k n : Nat} (named : remoteEnd s p c e pc pe = some k)
include named

theorem takeQcredit_returns (sends : cfgDir (getEp (getCore s k) pe).cfg = 2) (isOpen : (getEp (getCore s k) pe).isOpen = true)
    (runs : coreRuns s k = true) :
    takeQcredit p pc pe c e n s = takeCredits (modCore s k fun x => setEp x pe
      { getEp x pe with creditFlight := (getEp x pe).creditFlight + n }) k pe := by
  simp only [takeQcredit, named]
  rw [if_neg (by simp [sends, isOpen]), if_pos ((coreRuns_modCore rfl rfl).trans runs)]
  rfl

theorem takeQclose_edge (stopped : dieStopped s k = true) :
    takeQclose p c e pc pe n s = holdAtEdge s k (.close k p c e pc pe n) := by
  unfold takeQclose
  simp only [named, Option.getD_some, stopped, if_true]

theorem takeQclose_closes (runs : dieStopped s k = false) (free : (getEp (getCore s k) pe).heldCfg = none)
    (noWaiter : qcfgWaiter s k pe = none) (isOpen : (getEp (getCore s k) pe).isOpen = true) :
    takeQclose p c e pc pe n s = farClosed s k pe n := by
  unfold takeQclose
  simp only [named, Option.getD_some, runs, free, noWaiter, isOpen, Bool.false_eq_true, if_false, if_true]

end

theorem takeQconfig_held {p c e part : Nat} {w : Word} {ans : Bool}
    (unnamed : (if ans then remoteEnd else configEnd) s p c e (cfgCore w) (cfgEp w) = none) (runs : dieStopped s (cfgCore w) = false) :
    takeQconfig p c e w part ans s = modCore s (cfgCore w) fun x => setEp x (cfgEp w) { getEp x (cfgEp w) with
      heldCfg := some { peer := p, core := c, ep := e, word := w, part := part, due := false } } := by
  unfold takeQconfig
  simp only [unnamed, Option.getD_none, runs, Bool.false_eq_true, if_false, Bool.false_and]

end

/-- A command that brings an ordered flit of its turn delivers it. -/
theorem delivered_inTurn {s u t : State} {src cls eseq : Nat} {c : Instr} (turn : InTurn s u src cls eseq) (does : deliver c u = t) :
    Outcome.next (ordered src cls eseq c s) = (.next (withEarly s t src cls) : Outcome State Fault Refusal) :=
  congrArg Outcome.next (does ▸ ordered_inTurn turn c)

/-- Settles O34: every ordered flit by its turn, then each message of queues by what it does in its turn. -/
theorem queueMessages : Obligations.QueueMessages := by
  refine ⟨?_, ?_, ?_, ?_, ?_, ?_, ?_, ?_, ?_⟩
  · intro s u i src cls eseq f m w k b1 b2 n1 n2 n3 n4 n5 turn mem
    simp only [List.mem_cons, List.not_mem_nil, or_false] at mem
    rcases mem with e | e | e | e | e | e | e | e | e | e
    all_goals
      cases e
      exact delivered_inTurn turn rfl
  · exact fun s src cls eseq i present ahead near new => ordered_ahead present ahead near new
  · exact fun s src cls eseq i past => ordered_past past
  · exact fun s u f c turn receives => delivered_inTurn (c := .queueFlit f) turn (takeQueueFlit_joins receives)
  · exact fun s f _ past => congrArg Outcome.next (ordered_past past)
  · exact fun s u p c e rc re k n eseq turn named sends isOpen runs =>
      delivered_inTurn (c := .qcredit ⟨p, eseq⟩ c e rc re n) turn (takeQcredit_returns named sends isOpen runs)
  · exact fun s u p c e part eseq w ans turn unnamed runs =>
      delivered_inTurn (c := .qconfig ⟨p, eseq⟩ c e w part ans) turn (takeQconfig_held unnamed runs)
  · exact fun s u p c e pc pe n k eseq turn free named noWaiter isOpen runs =>
      delivered_inTurn (c := .qclose ⟨p, eseq⟩ c e pc pe n) turn (takeQclose_closes named runs free noWaiter isOpen)
  · exact fun s u p c e pc pe n k eseq turn named stopped =>
      delivered_inTurn (c := .qclose ⟨p, eseq⟩ c e pc pe n) turn (takeQclose_edge named stopped)

end Machine
end Sys2Proof
end

section
/-! The proofs of the statements of 10_peer_links_and_collectives, fourth part: HELLO in EXCHANGE, ABSENT, ROUTES, RELAYDRAIN and REJOIN
(R270 to R274, R447). -/

namespace Sys2Proof
namespace Machine

open Host

/-! ### HELLO in EXCHANGE (R261, R447) -/

/-- The state with the far end's index, port and nonce noted at the port of a HELLO. -/
def helloNoted (s : State) (h : HelloMsg) : State :=
  modPort s h.port fun p => { p with farPeer := h.peer, farPort := h.farPort, farNonce := h.ident.nonce }

/-- The state that an EXCHANGE goes on from: this module's HELLO is signed once the far nonce has come. -/
def helloAnswered (s : State) (h : HelloMsg) : State :=
  if (getPort s h.port).farNonce.isEmpty then sendHello (helloNoted s h) h.port else helloNoted s h

/-- A wrong HELLO puts its port down. -/
def wiringWrong (s : State) (h : HelloMsg) : State := portDown (modPort s h.port fun p => { p with wiringErr := true }) h.port

section
variable {s : State} {h : HelloMsg}

theorem exec_hello_exchange (state : (getPort s h.port).state = ptExchange) : exec (.hello h) s = .next (exchange h s) := if_pos state

theorem exchange_unfit (unfit : h.peer ≠ farOf s.peers.self h.port ∨ h.farPort ≠ h.port) :
    exchange h s = wiringWrong (helloNoted s h) h := if_pos (by simpa [← not_and_or] using unfit)

section
variable (peer : h.peer = farOf s.peers.self h.port) (farPort : h.farPort = h.port)
include peer farPort

/-- A HELLO that names the far port: its first part asks for this module's signature, and its signature decides. -/
theorem exchange_fits : exchange h s =
    if h.ident.sig.isEmpty then helloAnswered s h
    else if identityOk (helloAnswered s h) h then
      relink (sendRoutes (acceptHello (portUp (helloAnswered s h) h.port) h.peer h.incarnation h.joinEpoch))
    else wiringWrong (helloAnswered s h) h := by
  unfold exchange
  dsimp only
  rw [if_neg (by simp [← peer, farPort])]
  rfl

theorem exchange_unsigned (unsigned : h.ident.sig = []) : exchange h s = helloAnswered s h := by
  rw [exchange_fits peer farPort, if_pos (by simp [unsigned])]

theorem exchange_proved (signed : h.ident.sig ≠ []) (proved : identityOk (helloAnswered s h) h = true) : exchange h s =
    relink (sendRoutes (acceptHello (portUp (helloAnswered s h) h.port) h.peer h.incarnation h.joinEpoch)) := by
  rw [exchange_fits peer farPort, if_neg (by simp [signed]), if_pos proved]

theorem exchange_unproved (signed : h.ident.sig ≠ []) (unproved : identityOk (helloAnswered s h) h = false) :
    exchange h s = wiringWrong (helloAnswered s h) h := by
  rw [exchange_fits peer farPort, if_neg (by simp [signed]), if_neg (by simp [unproved])]

end

/-- A programmed key that is not the HELLO's proves no identity. -/
theorem identityOk_otherKey (programmed : ((tget [] s.sec.prot.peerKeys h.peer).any fun b => b != 0) = true)
    (other : tget [] s.sec.prot.peerKeys h.peer ≠ h.ident.key) : identityOk s h = false := by
  have notZero : ((tget [] s.sec.prot.peerKeys h.peer).all fun b => b == 0) = false := by
    rw [List.all_eq_not_any_not]
    exact congrArg Bool.not programmed
  unfold identityOk
  dsimp only
  rw [notZero, beq_eq_false_iff_ne.mpr other]
  rfl

end

/-! ### ABSENT (R273) -/

section
variable {s : State} {p inc je i j : Nat} (other : p ≠ s.peers.self) (life : tfind s.peers.lives p = some (i, j))
include other life

theorem takeAbsent_eq : takeAbsent p inc je s =
    if peerPresent s p && inc == i && decide (j ≤ je) then relink (declareAbsent s p) else s := by
  simp only [takeAbsent, if_neg other, life]

theorem takeAbsent_otherLife (otherLife : inc ≠ i ∨ je < j) : takeAbsent p inc je s = s := by
  rw [takeAbsent_eq other life, if_neg]
  rcases otherLife with inc | je
  · simp [inc]
  · simp [je]

end

/-! ### REJOIN (R274) -/

/-- ACTIVE ports of a list are greeted, one after the other. -/
def greetAll (ps : List Nat) (s : State) : State := ps.foldl (fun s p => if isActive s p then greet s p else s) s

theorem linkAside_greetAll (ps : List Nat) (s : State) : linkAside (greetAll ps s) = linkAside s :=
  foldl_keeps (p := linkAside) (f := fun s p => if isActive s p then greet s p else s)
    (fun s p => by split <;> simp) ps s

theorem HelloGoes.greetAll {s : State} {j : Nat} {h : HelloMsg} (goes : HelloGoes s j h) (ps : List Nat) :
    HelloGoes (greetAll ps s) j h := by
  induction ps generalizing s with
  | nil => exact goes
  | cons p ps ih =>
    refine ih ?_
    dsimp only
    split
    · exact goes.greet p
    · exact goes

/-- Over each ACTIVE port of the list a HELLO of this module's life goes. -/
theorem helloGoes_greetAll {ps : List Nat} {s : State} {p : Nat} (mem : p ∈ ps) (active : isActive s p = true) :
    ∃ h, HelloGoes (greetAll ps s) p h ∧ NamesSelf h s p := by
  induction ps generalizing s with
  | nil => cases mem
  | cons q ps ih =>
    have kept : linkAside (if isActive s q then greet s q else s) = linkAside s := linkAside_greetAll [q] s
    rcases List.mem_cons.mp mem with rfl | mem
    · obtain ⟨h, goes, names⟩ := helloGoes_greet s p
      refine ⟨h, ?_, names⟩
      rw [Machine.greetAll, List.foldl_cons, if_pos active]
      exact goes.greetAll ps
    · obtain ⟨h, goes, names⟩ := ih mem ((isActive_of_linkAside kept p).trans active)
      exact ⟨h, goes, names.port, names.farPort, names.life.trans (congrArg LinkAside.life kept)⟩

theorem exec_rejoin {s : State} (service : s.pwr.service ≠ 3) : exec .rejoin s = .next (greetAll (List.range 8) (rejoin s)) :=
  if_neg service

theorem joinEpoch_of_lifeOf {s t : State} (same : lifeOf t = lifeOf s) : t.peers.joinEpoch = s.peers.joinEpoch :=
  congrArg (fun l => l.2.2) same

/-- Settles O35: HELLO by whether it fits, is signed and proved; ABSENT by the life it names; REJOIN by the HELLOs that go. -/
theorem membership : Obligations.Membership := by
  refine ⟨?_, ?_, ?_, ?_, ?_, ?_, ?_, ?_⟩
  · rintro s _ _ h state rfl rfl
    rw [exec_hello_exchange state]
    exact ⟨fun peer farPort unsigned => congrArg Outcome.next (exchange_unsigned peer farPort unsigned),
      fun peer farPort signed proved => congrArg Outcome.next (exchange_proved peer farPort signed proved),
      fun peer farPort signed unproved => congrArg Outcome.next (exchange_unproved peer farPort signed unproved),
      fun unfit => congrArg Outcome.next (exchange_unfit unfit)⟩
  · exact fun s h programmed other => identityOk_otherKey programmed other
  · intro s u src p inc je j eseq turn other life present later
    refine delivered_inTurn (c := .absent ⟨src, eseq⟩ p inc je) turn ((takeAbsent_eq other life).trans (if_pos ?_))
    simp [present, later]
  · exact fun s u src p inc je i j eseq turn other life otherLife =>
      delivered_inTurn (c := .absent ⟨src, eseq⟩ p inc je) turn (takeAbsent_otherLife other life otherLife)
  · exact fun s u m eseq turn => delivered_inTurn (c := .routes ⟨m, eseq⟩) turn rfl
  · exact fun s u d eseq turn => delivered_inTurn (c := .relaydrain ⟨d, eseq⟩) turn rfl
  · intro s service
    obtain ⟨mem, cores, life⟩ := state_of_linkAside (linkAside_greetAll (List.range 8) (rejoin s))
    refine ⟨_, exec_rejoin service, joinEpoch_of_lifeOf life, mem, cores, fun p small active => ?_⟩
    obtain ⟨h, goes, port, farPort, life⟩ := helloGoes_greetAll (s := rejoin s) (List.mem_range.mpr small) active
    exact ⟨h, port, congrArg (fun l => l.2.2) life, goes⟩
  · exact fun s recovery => if_pos recovery

end Machine
end Sys2Proof
end

section
/-! The proofs of the statements of 10_peer_links_and_collectives, fifth part: ARRIVE, COLDATA, ABORT, GFLAG messages, expired limits and
the fence and commit of re-shards (R275 to R285, R292, R293). -/

namespace Sys2Proof
namespace Machine

open Host

/-! ### Ordered messages of members (R275, R282, R284) -/

section
variable {s : State} {g a st : Nat} (present : oldAttempt s g a = false)
include present

theorem takeAbort_unbound (none : ctxOfGroup s g = none) : takeAbort g a st s =
    modHub (modPeers s fun p => { p with aborts := p.aborts + 1 }) fun h => { h with aborted := (g, a, st) :: h.aborted } := by
  have none' : ctxOfGroup (modPeers s fun p => { p with aborts := p.aborts + 1 }) g = Option.none := none
  refine (if_neg (ne_true_of_eq_false present)).trans ?_
  rw [none']

theorem takeAbort_bound {n : Nat} (bound : ctxOfGroup s g = some n) :
    takeAbort g a st s = hubSettle (endStep (modPeers s fun p => { p with aborts := p.aborts + 1 }) n a st) := by
  have bound' : ctxOfGroup (modPeers s fun p => { p with aborts := p.aborts + 1 }) g = some n := bound
  refine (if_neg (ne_true_of_eq_false present)).trans ?_
  rw [bound']

theorem takeGflagMessage_new {src : Nat} {f ab : Bool} (new : s.hub.gflagMsgs.contains
      { src := src, group := g, attempt := a, step := st, flag := f, aborted := ab } = false) :
    takeGflagMessage src g a st f ab s =
      hubSettle (modHub s fun h => { h with gflagMsgs := h.gflagMsgs ++ [⟨src, g, a, st, f, ab⟩] }) := by
  unfold takeGflagMessage
  dsimp only
  rw [if_neg (ne_true_of_eq_false present), new]
  rfl

end

section
variable {s : State} {m : ArriveMsg} (present : oldAttempt s m.group m.attempt = false)
include present

/-- An ARRIVE that matches an open collective joins it. -/
theorem takeArrive_joins {id : Nat} {c : Coll}
    (isOpen : (s.hub.colls.find? fun e => !e.2.waiting && matchesWork m e.2.group e.2.attempt e.2.desc) = some (id, c)) :
    takeArrive m s = hubSettle (collArrived s id m) := by
  unfold takeArrive
  rw [if_neg (ne_true_of_eq_false present), isOpen]

/-- An ARRIVE of work that is not open yet is kept. -/
theorem takeArrive_kept (noColl : (s.hub.colls.find? fun e => !e.2.waiting && matchesWork m e.2.group e.2.attempt e.2.desc) = none)
    (noReshard : (s.hub.reshards.find? fun e => e.2.phase != .fence && matchesWork m e.2.group e.2.attempt e.2.desc) = none)
    (stands : stepAborted s m.group m.attempt m.step = false) :
    takeArrive m s = modHub s fun h => { h with earlyArrives := h.earlyArrives ++ [m] } := by
  unfold takeArrive
  rw [if_neg (ne_true_of_eq_false present), noColl, noReshard]
  exact if_neg (ne_true_of_eq_false stands)

end

/-! ### COLDATA (R271, R275, R292) -/

section
variable {s : State} {d : ColData} (present : peerPresent s d.src = true)
include present

theorem exec_coldata_coll {id : Nat} {c : Coll}
    (isOpen : (s.hub.colls.find? fun e => !e.2.waiting && e.2.flow == d.flow) = some (id, c)) :
    exec (.coldata d) s = .next (hubSettle (collData s id c { d with data := fit 256 d.data })) := by
  change execColdata d s = _
  simp only [execColdata, present, isOpen, Bool.not_true, Bool.false_eq_true, if_false]

section
variable (noColl : (s.hub.colls.find? fun e => !e.2.waiting && e.2.flow == d.flow) = none)
include noColl

theorem exec_coldata_reshard {id : Nat} {r : Reshard}
    (isOpen : (s.hub.reshards.find? fun e => e.2.phase != .fence && e.2.flow == d.flow) = some (id, r)) :
    exec (.coldata d) s = .next (hubSettle (reshardData s id r { d with data := fit 256 d.data })) := by
  change execColdata d s = _
  simp only [execColdata, present, noColl, isOpen, Bool.not_true, Bool.false_eq_true, if_false]

theorem exec_coldata_dropped (noReshard : (s.hub.reshards.find? fun e => e.2.phase != .fence && e.2.flow == d.flow) = none) :
    exec (.coldata d) s = .next s := by
  change execColdata d s = _
  simp only [execColdata, present, noColl, noReshard, Bool.not_true, Bool.false_eq_true, if_false]

end
end

/-! ### The peer wait limit (R284) -/

theorem mem_insertAsc {p k : Nat} {l : List Nat} : p ∈ insertAsc k l ↔ p = k ∨ p ∈ l := by
  induction l with
  | nil => simp [insertAsc]
  | cons x l ih =>
    unfold insertAsc
    split
    · exact List.mem_cons
    · split
      next same => simp [same]
      · rw [List.mem_cons, ih, List.mem_cons, or_left_comm]

/-- A list in ascending order without repeats. -/
def ascending (l : List Nat) : List Nat := l.foldl (fun l p => insertAsc p l) []

theorem mem_foldl_insertAsc {p : Nat} {l acc : List Nat} : p ∈ l.foldl (fun l p => insertAsc p l) acc ↔ p ∈ acc ∨ p ∈ l := by
  induction l generalizing acc with
  | nil => simp
  | cons x l ih => rw [List.foldl_cons, ih, mem_insertAsc, List.mem_cons, or_assoc, or_left_comm]

theorem mem_ascending {p : Nat} {l : List Nat} : p ∈ ascending l ↔ p ∈ l := by
  simp [ascending, mem_foldl_insertAsc]

/-- The members that the expired work of an attempt misses. -/
def missingOf (l : List (Nat × List Nat)) (a : Nat) : List Nat := ascending ((l.filter fun e => e.1 == a).flatMap fun e => e.2)

theorem mem_missingOf {p a : Nat} {l : List (Nat × List Nat)} : p ∈ missingOf l a ↔ ∃ e ∈ l, e.1 = a ∧ p ∈ e.2 := by
  simp [missingOf, mem_ascending, and_assoc]

theorem exec_peerWaitLimit_none {s : State} {n st : Nat} (none : expired s n st = []) : exec (.peerWaitLimit n st) s = .next s := by
  change execPeerWaitLimit n st s = _
  simp only [execPeerWaitLimit, none]

theorem exec_peerWaitLimit_aborts {s : State} {n st a : Nat} {ms : List Nat} {l : List (Nat × List Nat)}
    (limit : expired s n st = (a, ms) :: l) (stands : stepAborted s (getCtx s n).colgroup a st = false) :
    exec (.peerWaitLimit n st) s = .next (hubSettle (relink ((missingOf ((a, ms) :: l) a).foldl declareAbsent
      (endStep (sendAbort s n (stepMembers s n a st) a st) n a st)))) := by
  change execPeerWaitLimit n st s = _
  simp only [execPeerWaitLimit, limit, stands, Bool.false_eq_true, if_false]
  rfl

/-! ### Re-shards (R292, R293) -/

section
variable {s : State} {id : Nat} {r : Reshard} (found : tfind s.hub.reshards id = some r)
include found

theorem exec_reshardFencePass_passes (phase : r.phase = .fence) (isOpen : fenceOpen s r = true)
    (stands : stepAborted s r.group r.attempt (fld (dw r.desc 1) 63 32) = false) :
    exec (.reshardFencePass id) s = .next (hubSettle (reshardPass s id)) := by
  change execReshardFencePass id s = _
  simp only [execReshardFencePass, found]
  rw [if_neg (by simp [phase, isOpen]), if_neg (ne_true_of_eq_false stands)]

theorem exec_reshardFencePass_closed (closed : fenceOpen s r = false) : exec (.reshardFencePass id) s = .next s := by
  change execReshardFencePass id s = _
  simp only [execReshardFencePass, found]
  rw [if_pos (by simp [closed])]

theorem exec_commitComplete_commits {t : Tensor} (phase : r.phase = .committing) (tensor : tensorOf r.tensor = some t) :
    exec (.commitComplete id) s = .next (hubSettle (dropReshard (commitReshard s r t) id)) := by
  change execCommitComplete id s = _
  simp only [execCommitComplete, found, phase, tensor]

theorem exec_commitComplete_rolledBack (phase : r.phase = .rolledBack) : exec (.commitComplete id) s =
    .next (hubSettle (dropReshard (modHub s fun h => { h with rollbacks := h.rollbacks + 1 }) id)) := by
  change execCommitComplete id s = _
  simp only [execCommitComplete, found, phase]

end

/-- Settles O36: each message by what it finds open, the limit by what has expired, and a re-shard by its phase. -/
theorem collectiveEvents : Obligations.CollectiveEvents := by
  refine ⟨?_, ?_, ?_, ?_, ?_, ?_, ?_, ?_, ?_, ?_, ?_, ?_, ?_, ?_⟩
  · exact fun s u m eseq turn present noColl noReshard stands =>
      delivered_inTurn (c := .arrive ⟨m, eseq⟩) turn (takeArrive_kept present noColl noReshard stands)
  · exact fun s u m id eseq c turn present isOpen =>
      delivered_inTurn (c := .arrive ⟨m, eseq⟩) turn (takeArrive_joins present isOpen)
  · rintro s d _ id c present isOpen rfl
    exact exec_coldata_coll present isOpen
  · rintro s d _ id r present noColl isOpen rfl
    exact exec_coldata_reshard present noColl isOpen
  · exact fun s d present noColl noReshard => exec_coldata_dropped present noColl noReshard
  · exact fun s u src g a st eseq turn present none =>
      delivered_inTurn (c := .abort ⟨src, eseq⟩ g a st) turn (takeAbort_unbound present none)
  · exact fun s u src g a st n eseq turn present bound =>
      delivered_inTurn (c := .abort ⟨src, eseq⟩ g a st) turn (takeAbort_bound present bound)
  · exact fun s u src g a st eseq f ab turn present new =>
      delivered_inTurn (c := .gflagMessage ⟨src, eseq⟩ g a st f ab) turn (takeGflagMessage_new present new)
  · exact fun s n st none => exec_peerWaitLimit_none none
  · exact fun s n st a ms l limit stands =>
      ⟨missingOf ((a, ms) :: l) a, fun p => mem_missingOf, exec_peerWaitLimit_aborts limit stands⟩
  · exact fun s id r found phase isOpen stands => exec_reshardFencePass_passes found phase isOpen stands
  · exact fun s id r found _ closed => exec_reshardFencePass_closed found closed
  · exact fun s id r t found phase tensor => exec_commitComplete_commits found phase tensor
  · exact fun s id r found phase => exec_commitComplete_rolledBack found phase

end Machine
end Sys2Proof
end

section
/-! The settings that the registers limit, as a part of the state that most operations leave as it is (O57). -/
namespace Sys2Proof
namespace Machine

/-- The settings that `State.Legal` bounds. -/
structure Settings where
  sustainedW : Nat
  lateT2 : Nat
  lateT3 : Nat
  lateT4 : Nat
  hintGroups : Nat
  quantumUs : Nat
  napAfterUs : Nat
  replayMax : Nat → Nat
  maxActive : Nat → Nat

/-- The settings in the steady part of a state. -/
def Steady.settings (x : Steady) : Settings where
  sustainedW := x.sustainedW
  lateT2 := x.lateT2
  lateT3 := x.lateT3
  lateT4 := x.lateT4
  hintGroups := x.hintGroups
  quantumUs := x.quantumUs
  napAfterUs := x.napAfterUs
  replayMax := x.replayMax
  maxActive := x.maxActive

/-- The bounds of `State.Legal`. -/
structure Settings.Legal (x : Settings) : Prop where
  cap : 1000 ≤ x.sustainedW ∧ x.sustainedW ≤ 3200
  late : 960 ≤ x.lateT2 ∧ 960 ≤ x.lateT3 ∧ 960 ≤ x.lateT4
  groups : x.hintGroups ≤ 2
  quantum : 100 ≤ x.quantumUs ∧ x.quantumUs ≤ 100000
  nap : 10 ≤ x.napAfterUs
  replay : ∀ p, 1 ≤ x.replayMax p ∧ x.replayMax p ≤ 7
  reserved : (List.range 64).foldl (fun n p => n + x.maxActive p) 0 ≤ 65536

theorem legal_iff_settings {s : State} : s.Legal ↔ (steady s).settings.Legal :=
  ⟨fun h => ⟨h.cap, h.late, h.groups, h.quantum, h.nap, h.replay, h.reserved⟩,
    fun h => ⟨h.cap, h.late, h.groups, h.quantum, h.nap, h.replay, h.reserved⟩⟩

theorem legal_of_settings_eq {s t : State} (h : (steady t).settings = (steady s).settings) (legal : s.Legal) : t.Legal :=
  legal_iff_settings.mpr (h ▸ legal_iff_settings.mp legal)

/-! ### Updates of one field

A condition on every value of the field, and not on the state's own, is one that `simp` can show when the state is itself an
update. -/

@[simp] theorem steady_modRec_of_keeps (s : State) {f : Rec → Rec} (fatal : ∀ r, (f r).fatal = r.fatal) :
    steady (modRec s f) = steady s := steady_modRec (fatal s.recov)

@[simp] theorem steady_modPwr_of_keeps (s : State) {f : Power → Power} (off : ∀ p, (f p).off = p.off)
    (service : ∀ p, (f p).service = p.service) (nap : ∀ p, (f p).napAfterUs = p.napAfterUs) : steady (modPwr s f) = steady s :=
  steady_modPwr (off s.pwr) (service s.pwr) (nap s.pwr)

@[simp] theorem steady_modClk_of_keeps (s : State) {f : Clock → Clock} (tick : ∀ c, (f c).tick = c.tick)
    (cap : ∀ c, (f c).sustainedW = c.sustainedW) : steady (modClk s f) = steady s :=
  steady_modClk (tick s.clk) (cap s.clk)

@[simp] theorem settings_modSec (s : State) (f : Sec → Sec) : (steady (modSec s f)).settings = (steady s).settings := (rfl)
@[simp] theorem settings_modRec (s : State) (f : Rec → Rec) : (steady (modRec s f)).settings = (steady s).settings := (rfl)

@[simp] theorem settings_modPwr (s : State) {f : Power → Power} (nap : ∀ p, (f p).napAfterUs = p.napAfterUs) :
    (steady (modPwr s f)).settings = (steady s).settings := by
  simp only [steady, Steady.settings, modPwr, nap]; rfl

@[simp] theorem settings_modClk (s : State) {f : Clock → Clock} (cap : ∀ c, (f c).sustainedW = c.sustainedW) :
    (steady (modClk s f)).settings = (steady s).settings := by
  simp only [steady, Steady.settings, modClk, cap]; rfl

/-! ### What results of instructions leave -/

section
variable {P : State → Prop}

@[simp] theorem leaves_done (t : State) : (IRes.done t).Leaves P ↔ P t := Iff.rfl
@[simp] theorem leaves_jump (t : State) (ip : Nat) : (IRes.jump t ip).Leaves P ↔ P t := Iff.rfl
@[simp] theorem leaves_park (t : State) (cause : Nat) (w : Park) : (IRes.park t cause w).Leaves P ↔ P t := Iff.rfl
@[simp] theorem leaves_stop (t : State) : (IRes.stop t).Leaves P ↔ P t := Iff.rfl
@[simp] theorem leaves_fault (code addr : Nat) (own : Bool) : (IRes.fault code addr own).Leaves P ↔ True := Iff.rfl

end

/-- The settings in the state that a command leaves. -/
def settingsAfter : Host.Outcome State Fault Refusal → Option Settings
  | .next t => some (steady t).settings
  | _ => none

@[simp] theorem settingsAfter_next (t : State) : settingsAfter (.next t) = some (steady t).settings := rfl

end Machine
end Sys2Proof
end

section
/-! What the operations of Ops, CoreOps, QueueOps, RolloutOps, Rollout, Models, Collective, Shares, Teardown, Frame, Window,
MemReq, Summary, Firing, Sched, Partition, Ingress, MemEvents leave of the settings. -/
namespace Sys2Proof
namespace Machine

/-! ### Machine/Ops.lean -/

@[simp] theorem steady_invalidateRun (s : State) (pa len : Nat) :
    steady (invalidateRun s pa len) = steady s := by simp [invalidateRun]

@[simp] theorem steady_scrubRange (s : State) (pa len : Nat) : steady (scrubRange s pa len) = steady s :=
  (rfl : steady (scrubRange s pa len) = steady (invalidateRun s pa len)).trans (steady_invalidateRun _ _ _)

@[simp] theorem steady_journalDone (s : State) (cc what subject : Nat) :
    steady (journalDone s cc what subject) = steady s := (rfl)

@[simp] theorem steady_countFault (s : State) (k : Nat) : steady (countFault s k) = steady s := (rfl)

@[simp] theorem steady_saveCarrier (s : State) (f : Carrier → Carrier) : steady (saveCarrier s f) = steady s := by
  unfold saveCarrier
  dsimp only
  refine (steady_modPwr ?_ ?_ ?_).trans rfl
  all_goals split <;> rfl

/-! ### Machine/CoreOps.lean -/

@[simp] theorem steady_wakeAll (s : State) (p : Park → Bool) : steady (wakeAll s p) = steady s := by simp [wakeAll]

@[simp] theorem steady_queueFreed (s : State) : steady (queueFreed s) = steady s := by simp [queueFreed]

@[simp] theorem steady_modThread (s : State) (a : Agent) (f : Thread → Thread) : steady (modThread s a f) = steady s := by
  unfold modThread
  split <;> simp

@[simp] theorem steady_emptyCg (s : State) (a : Agent) (g : Option Nat) : steady (emptyCg s a g) = steady s := by
  unfold emptyCg
  split <;> simp

/-! ### Machine/QueueOps.lean -/

@[simp] theorem steady_flushFlit (s : State) (c ep : Nat) : steady (flushFlit s c ep) = steady s := by
  unfold flushFlit
  dsimp only
  repeat' split
  all_goals simp

@[simp] theorem steady_returnCredits (s : State) (c ep n : Nat) : steady (returnCredits s c ep n) = steady s := by
  unfold returnCredits
  dsimp only
  repeat' split
  all_goals simp

@[simp] theorem steady_releasePacket (s : State) (c ep num : Nat) :
    steady (releasePacket s c ep num) = steady s := by simp [releasePacket]

@[simp] theorem steady_tryOpen (s : State) (c ep : Nat) : steady (tryOpen s c ep) = steady s := by
  unfold tryOpen
  dsimp only
  repeat' split
  all_goals simp

@[simp] theorem steady_landWord (s : State) (c ep : Nat) (q : QWord) : steady (landWord s c ep q) = steady s := by
  unfold landWord
  split <;> simp

@[simp] theorem steady_closeEnd (s : State) (c ep : Nat) (tellFar : Bool) : steady (closeEnd s c ep tellFar) = steady s := by
  unfold closeEnd
  dsimp only
  repeat' split
  all_goals simp

@[simp] theorem steady_unconfigEnd (s : State) (c ep : Nat) : steady (unconfigEnd s c ep) = steady s := by simp [unconfigEnd]

@[simp] theorem steady_closeCoreEnds (s : State) (c : Nat) : steady (closeCoreEnds s c) = steady s := by simp [closeCoreEnds]

@[simp] theorem steady_writeCfg (s : State) (c ep : Nat) (w : Word) : steady (writeCfg s c ep w) = steady s := (rfl)

/-! ### Machine/RolloutOps.lean -/

@[simp] theorem steady_settleSteps (s : State) (n : Nat) : steady (settleSteps s n) = steady s := (rfl)

/-! ### Machine/Rollout.lean -/

@[simp] theorem steady_applyPolicy (s : State) (id : Nat) : steady (applyPolicy s id) = steady s := by
  unfold applyPolicy
  dsimp only
  repeat' split
  all_goals simp

@[simp] theorem steady_endBinding (s : State) (id : Nat) : steady (endBinding s id) = steady s := by
  unfold endBinding
  repeat' split
  all_goals simp

@[simp] theorem steady_copySet (s : State) (m : Model) (old new : PageSet) : steady (copySet s m old new) = steady s := by
  refine (steady_writeHeaders _ _ _).trans (steady_foldl _ _ fun s g => ?_)
  have read := steady_readGrain s (setPa m old g)
  generalize readGrain s (setPa m old g) = r at read ⊢
  obtain ⟨data, tag, t⟩ := r
  exact (steady_writeGrain _ _ _ _).trans read

@[simp] theorem steady_acceptLoop (s : State) (id n : Nat) : steady (acceptLoop s id n) = steady s := by
  induction n generalizing s with
  | zero => rfl
  | succ n ih =>
    unfold acceptLoop
    dsimp only
    repeat' split
    all_goals simp [ih]

@[simp] theorem steady_makeHandle (s : State) (id : Nat) : steady (makeHandle s id) = steady s := by
  unfold makeHandle
  repeat' split
  all_goals simp

/-! ### Machine/Models.lean -/

@[simp] theorem steady_readSource (s : State) (m : Model) (pa : Nat) :
    steady (readSource s m pa).2.2 = steady s := by simp [readSource]

@[simp] theorem steady_copyLayer (s : State) (m : Model) (src : Nat) (l : Layer) :
    steady (copyLayer s m src l) = steady s := by simp [copyLayer]

@[simp] theorem steady_wakeEnters (s : State) (h layer : Nat) : steady (wakeEnters s h layer) = steady s := by simp [wakeEnters]

@[simp] theorem steady_readAgain (s : State) (ix : Nat) (m : Model) : steady (readAgain s ix m) = steady s := by
  unfold readAgain
  split <;> simp

@[simp] theorem steady_syncModels (s : State) : steady (syncModels s) = steady s := by simp [syncModels]

/-! ### Machine/Collective.lean -/

@[simp] theorem steady_settleDue (s : State) : steady (settleDue s) = steady s := by simp [settleDue]

@[simp] theorem steady_modReshard (s : State) (id : Nat) (f : Reshard → Reshard) : steady (modReshard s id f) = steady s := by
  unfold modReshard
  split <;> simp

@[simp] theorem steady_stageGrain (s : State) (id : Nat) (r : Reshard) (j : Nat) (data : List Byte) (tag : GrainTag) :
    steady (stageGrain s id r j data tag) = steady s := by simp [stageGrain]

@[simp] theorem steady_reshardFlush (s : State) (id : Nat) (m : ArriveMsg) : steady (reshardFlush s id m) = steady s := by
  unfold reshardFlush
  split
  · rfl
  split
  · rfl
  split
  · rfl
  · refine (steady_modReshard _ _ _).trans (steady_foldl _ _ fun s j => ?_)
    dsimp only
    repeat' split
    all_goals simp

@[simp] theorem steady_reshardCheck (s : State) (id : Nat) : steady (reshardCheck s id) = steady s := by
  unfold reshardCheck
  dsimp only
  repeat' split
  all_goals simp

@[simp] theorem steady_reshardArrived (s : State) (id : Nat) (m : ArriveMsg) : steady (reshardArrived s id m) = steady s := by
  unfold reshardArrived
  repeat' split
  all_goals simp

@[simp] theorem steady_reshardAcks (s : State) : steady (reshardAcks s) = steady s := by
  unfold reshardAcks
  split <;> simp

@[simp] theorem steady_reshardPass (s : State) (id : Nat) : steady (reshardPass s id) = steady s := by
  unfold reshardPass
  split
  · rfl
  split
  · refine (steady_reshardCheck _ _).trans ((steady_foldl _ _ fun s m => steady_reshardArrived s id m).trans
      ((steady_takeEarly _ _ _ _ _).trans ((steady_wakeAgent _ _ _).trans ((steady_foldl _ _ fun s j => ?_).trans (by simp)))))
    dsimp only
    repeat' split
    all_goals simp
  · rfl

@[simp] theorem steady_releaseHeld (s : State) : steady (releaseHeld s) = steady s := by simp [releaseHeld]

@[simp] theorem steady_commitReshard (s : State) (r : Reshard) (t : Tensor) : steady (commitReshard s r t) = steady s := by
  refine (steady_modHub _ _).trans ?_
  split
  · rfl
  · refine steady_foldl _ _ fun s j => ?_
    split <;> simp

@[simp] theorem steady_dropReshard (s : State) (id : Nat) : steady (dropReshard s id) = steady s := by simp [dropReshard]

@[simp] theorem steady_dropHubWork (s : State) (n : Nat) : steady (dropHubWork s n) = steady s := by simp [dropHubWork]

/-! ### Machine/Shares.lean -/

@[simp] theorem steady_recomputeEnt (s : State) : steady (recomputeEnt s) = steady s := by
  refine steady_foldl _ _ fun t p => ?_
  dsimp only
  repeat' split
  all_goals simp

/-! ### Machine/Teardown.lean -/

@[simp] theorem steady_setFaultRec (s : State) (n : Nat) (f : FaultRec) : steady (setFaultRec s n f) = steady s := by
  unfold setFaultRec
  dsimp only
  split <;> simp

@[simp] theorem steady_keepCounters (s : State) (c : Nat) : steady (keepCounters s c) = steady s := by
  unfold keepCounters
  dsimp only
  split <;> simp

@[simp] theorem steady_freeCore (s : State) (c : Nat) : steady (freeCore s c) = steady s := by
  unfold freeCore
  split <;> simp

@[simp] theorem steady_dropCore (s : State) (n c : Nat) : steady (dropCore s n c) = steady s := by simp [dropCore]

@[simp] theorem steady_dropUpdWork (s : State) (n : Nat) : steady (dropUpdWork s n) = steady s := (rfl)

@[simp] theorem steady_stopWork (s : State) (n : Nat) : steady (stopWork s n) = steady s := by simp [stopWork]

@[simp] theorem steady_flushReqs (s : State) (p : MReq → Bool) : steady (flushReqs s p) = steady s := by
  refine (steady_modMem rfl rfl rfl rfl).trans (steady_foldl _ _ fun s e => ?_)
  split <;> simp

@[simp] theorem steady_endTeardown (s : State) (n : Nat) : steady (endTeardown s n) = steady s := by
  unfold endTeardown
  dsimp only
  repeat' split
  all_goals simp

@[simp] theorem steady_beginTeardown (s : State) (n : Nat) (reason : Reason) :
    steady (beginTeardown s n reason) = steady s := by
  unfold beginTeardown
  dsimp only
  repeat' split
  all_goals simp

@[simp] theorem steady_ctxFault (s : State) (n : Nat) (f : FaultRec) : steady (ctxFault s n f) = steady s := by
  unfold ctxFault
  dsimp only
  repeat' split
  all_goals simp

@[simp] theorem steady_abortOpenStep (s : State) (n own step : Nat) : steady (abortOpenStep s n own step) = steady s := by
  unfold abortOpenStep
  dsimp only
  split <;> simp

@[simp] theorem steady_abortOpenSteps (s : State) (n : Nat) : steady (abortOpenSteps s n) = steady s := by
  refine steady_foldl _ _ fun s step => ?_
  split <;> simp

@[simp] theorem steady_evictForRestart (s : State) (id : Nat) : steady (evictForRestart s id) = steady s := by
  unfold evictForRestart
  repeat' split
  all_goals simp

@[simp] theorem steady_restartCtx (s : State) (n event core : Nat) :
    steady (restartCtx s n event core) = steady s := by simp [restartCtx]

@[simp] theorem steady_loseUnit (s : State) (n event core : Nat) : steady (loseUnit s n event core) = steady s := by
  unfold loseUnit
  dsimp only
  repeat' split
  all_goals simp

/-! ### Machine/Frame.lean -/

@[simp] theorem steady_putS (s : State) (a : Agent) (r : Nat) (v : Word) : steady (putS s a r v) = steady s := by simp [putS]

@[simp] theorem steady_putD (s : State) (a : Agent) (r : Nat) (v : BitVec 256) : steady (putD s a r v) = steady s := by
  unfold putD
  split <;> simp

@[simp] theorem steady_advance (s : State) (a : Agent) (n ip : Nat) : steady (advance s a n ip) = steady s := by
  unfold advance
  dsimp only
  split <;> simp

@[simp] theorem steady_parkAgent (s : State) (a : Agent) (cause : Nat) (w : Park) :
    steady (parkAgent s a cause w) = steady s := by
  unfold parkAgent
  split <;> simp

theorem steady_issue {row : Row} {a : Agent} {n : Nat} {w : Word} {body : State → IRes} {s : State}
    (left : (body s).Leaves fun t => steady t = steady s) : steady (issue row a n w body s) = steady s := by
  unfold issue
  dsimp only
  split
  · simp
  split
  · simp
  split
  · simp
  split
  · simp
  · cases ended : body s with
    | fault code addr own =>
      dsimp only
      split <;> simp
    | _ =>
      rw [ended] at left
      simpa using left

/-! ### Machine/Window.lean -/

@[simp] theorem steady_storeW0 (s : State) (n key : Nat) (v : Word) : steady (storeW0 s n key v) = steady s := (rfl)

@[simp] theorem steady_storeW1 (s : State) (n key : Nat) (v : Word) : steady (storeW1 s n key v) = steady s := (rfl)

/-! ### Machine/MemReq.lean -/

@[simp] theorem steady_addReq (s : State) (r : MReq) : steady (addReq s r) = steady s := by
  have added : ∀ r, steady (peerCount (modMem (bump s) fun m =>
      { m with reqs := tput m.reqs s.mem.nextReq r, nextReq := s.mem.nextReq + 1 }) r true) = steady s := fun r =>
    (steady_peerCount _ _ _).trans ((steady_modMem rfl rfl rfl rfl).trans (steady_bump s))
  unfold addReq
  dsimp only
  split
  · exact added _
  · exact (steady_startMoves _).trans ((steady_startReq _ _).trans (added _))

/-! ### Machine/Summary.lean -/

@[simp] theorem steady_mailSettle (s : State) (n tag round : Nat) : steady (mailSettle s n tag round) = steady s := by
  unfold mailSettle
  dsimp only
  repeat' split
  all_goals simp

@[simp] theorem steady_mailAdd (s : State) (n : Nat) (c : Contribution) : steady (mailAdd s n c) = steady s := by simp [mailAdd]

@[simp] theorem steady_sendSummary (s : State) (c : Nat) (m : Contribution) : steady (sendSummary s c m) = steady s := (rfl)

/-! ### Machine/Firing.lean -/

@[simp] theorem steady_bindBlock (s : State) (c b thr : Nat) (d : BlockDesc) :
    steady (bindBlock s c b thr d) = steady s := by simp [bindBlock]

@[simp] theorem steady_releaseAll (s : State) (c thr : Nat) : steady (releaseAll s c thr) = steady s := by simp [releaseAll]

@[simp] theorem steady_endInstance (s : State) (c thr : Nat) : steady (endInstance s c thr) = steady s := by simp [endInstance]

@[simp] theorem steady_imageGrains (s : State) (n va k : Nat) : steady (imageGrains s n va k).2 = steady s := by
  induction k generalizing s va with
  | zero => rfl
  | succ k ih =>
    have rest := ih (engineRead s n va).2.2 (va + 256)
    rw [steady_engineRead] at rest
    unfold imageGrains
    dsimp only
    repeat' split
    all_goals simp_all

@[simp] theorem steady_readProgram (s : State) (n c va : Nat) : steady (readProgram s n c va).2 = steady s := by
  have head := steady_imageGrains s n va 1
  unfold readProgram
  split
  next ran => rwa [ran] at head
  next h t ran =>
    rw [ran] at head
    have rest := fun va k => (steady_imageGrains t n va k).trans head
    dsimp only
    split
    · exact head
    · split
      next ran => exact (congrArg (fun r => steady r.2) ran).symm.trans (rest _ _)
      next ran =>
        have read := (congrArg (fun r => steady r.2) ran).symm.trans (rest _ _)
        split <;> exact read

@[simp] theorem steady_installImage (s : State) (c : Nat) (im : Image) :
    steady (installImage s c im) = steady s := by simp [installImage]

@[simp] theorem steady_rejectImage (s : State) (c : Nat) : steady (rejectImage s c) = steady s := by simp [rejectImage]

@[simp] theorem steady_landNext (s : State) (c ep : Nat) : steady (landNext s c ep) = steady s := by
  unfold landNext
  dsimp only
  repeat' split
  all_goals simp

@[simp] theorem steady_takeCredits (s : State) (c ep : Nat) : steady (takeCredits s c ep) = steady s := by simp [takeCredits]

/-! ### Machine/Sched.lean -/

@[simp] theorem steady_preempt (s : State) (n : Nat) : steady (preempt s n) = steady s := by
  unfold preempt
  dsimp only
  split <;> simp

@[simp] theorem steady_grantCore (s : State) (n c : Nat) : steady (grantCore s n c) = steady s := (rfl)

@[simp] theorem steady_answerCores (s : State) (n : Nat) : steady (answerCores s n) = steady s := (rfl)

@[simp] theorem steady_coresStep (s : State) (n : Nat) : steady (coresStep s n) = steady s := by
  unfold coresStep
  dsimp only
  repeat' split
  all_goals simp

@[simp] theorem steady_dropRestore (s : State) (n : Nat) : steady (dropRestore s n) = steady s := by
  unfold dropRestore
  split <;> simp

@[simp] theorem steady_coresFreed (s : State) : steady (coresFreed s) = steady s := by simp [coresFreed]

@[simp] theorem steady_askCores (s : State) (n count : Nat) : steady (askCores s n count) = steady s := by
  unfold askCores
  dsimp only
  split <;> simp

@[simp] theorem steady_tryRestore (s : State) (n : Nat) : steady (tryRestore s n) = steady s := by
  unfold tryRestore
  dsimp only
  split <;> simp

@[simp] theorem steady_finishSave (s : State) (n : Nat) : steady (finishSave s n) = steady s := by simp [finishSave]

/-! ### Machine/Partition.lean -/

@[simp] theorem steady_noteDeferred (s : State) (p : Nat) : steady (noteDeferred s p) = steady s := by
  refine steady_modPart ?_
  split
  · rfl
  · refine foldl_keeps (p := Part.rqMaxActive) (fun x e => ?_) _ _
    dsimp only
    split <;> rfl

@[simp] theorem steady_fetchEntry (s : State) (p : Nat) : steady (fetchEntry s p).2 = steady s := by simp [fetchEntry]

@[simp] theorem steady_cmdComplete (s : State) (p result detail : Nat) :
    steady (cmdComplete s p result detail) = steady s := by simp [cmdComplete]

@[simp] theorem steady_retireEnergy (s : State) (n : Nat) : steady (retireEnergy s n) = steady s := (rfl)

@[simp] theorem steady_endDestroy (s : State) (p n : Nat) : steady (endDestroy s p n) = steady s := by
  unfold endDestroy
  split <;> simp

@[simp] theorem steady_advancePasses (s : State) : steady (advancePasses s) = steady s := by
  have active : (fun p => (getPart (advancePasses s) p).rqMaxActive) = fun p => (getPart s p).rqMaxActive :=
    funext (tget_tmap_keeps Part.rqMaxActive
      (f := fun _ x => { x with pass := (x.pass + passRise x.heldQ x.shareNow) % 2 ^ 64, heldQ := 0, shareNow := x.share })
      (fun _ _ => rfl) s.parts)
  simp only [steady, active]
  rfl

@[simp] theorem steady_dropServing (s : State) (p : Nat) : steady (dropServing s p) = steady s := by
  refine (steady_mk _ _ _ _ _ _ _ _ _ _ _ _ _ _ _ _ _).trans ((steady_foldl _ _ fun s ix => ?_).trans (by simp))
  split
  · rfl
  · simp

@[simp] theorem steady_resetContexts (s : State) (p : Nat) : steady (resetContexts s p) = steady s := by simp [resetContexts]

@[simp] theorem steady_dropFirmware (s : State) (p : Nat) : steady (dropFirmware s p) = steady s := by simp [dropFirmware]

@[simp] theorem steady_resetPart (s : State) (p : Nat) : steady (resetPart s p) = steady s := by
  unfold resetPart
  split <;> simp

@[simp] theorem steady_scrubWindows (s : State) (p : Nat) : steady (scrubWindows s p) = steady s := by
  refine steady_foldl _ _ fun s r => ?_
  split <;> simp

@[simp] theorem steady_snoopWindows (s : State) (p : Nat) : steady (snoopWindows s p) = steady s := by simp [snoopWindows]

@[simp] theorem steady_finishReset (s : State) (p : Nat) : steady (finishReset s p) = steady s := by simp [finishReset]

/-! ### Machine/Ingress.lean -/

@[simp] theorem steady_trackLine (s : State) (l : Nat) : steady (trackLine s l) = steady s := by
  unfold trackLine
  repeat' split
  all_goals simp

@[simp] theorem steady_hdmDenied (s : State) : steady (hdmDenied s) = steady s := (rfl)

@[simp] theorem steady_hdmOutside (s : State) (pa : Nat) (data : Option (List Byte)) :
    steady (hdmOutside s pa data) = steady s := (rfl)

@[simp] theorem steady_readLine (s : State) (pa : Nat) : steady (readLine s pa) = steady s := by
  unfold readLine
  dsimp only
  repeat' split
  all_goals simp

@[simp] theorem steady_mergeLine (s : State) (p a : Nat) (data : List Byte) : steady (mergeLine s p a data) = steady s := by
  unfold mergeLine
  dsimp only
  repeat' split
  all_goals simp

@[simp] theorem steady_writeLine (s : State) (pa : Nat) (data : List Byte) : steady (writeLine s pa data) = steady s := by
  unfold writeLine
  dsimp only
  repeat' split
  all_goals simp

@[simp] theorem steady_hdmServe (s : State) (pa : Nat) (data : Option (List Byte)) :
    steady (hdmServe s pa data) = steady s := by
  unfold hdmServe
  split <;> simp

@[simp] theorem steady_servePeerRead (s : State) (src txn pa : Nat) : steady (servePeerRead s src txn pa) = steady s := by
  unfold servePeerRead
  dsimp only
  split <;> simp

@[simp] theorem steady_addOutside (s : State) (r : MReq) : steady (addOutside s r) = steady s := (rfl)

@[simp] theorem steady_queueAtBank (s : State) (source pa : Nat) (isWrite : Bool) (data : List Byte) (tag : GrainTag)
    (dest : Dest) : steady (queueAtBank s source pa isWrite data tag dest) = steady s := (rfl)

@[simp] theorem steady_hdmEnter (s : State) (pa : Nat) (data : Option (List Byte)) :
    steady (hdmEnter s pa data) = steady s := by
  unfold hdmEnter
  split <;> simp

@[simp] theorem steady_servePeerWrite (s : State) (src txn pa off : Nat) (data : List Byte) (tag : GrainTag) :
    steady (servePeerWrite s src txn pa off data tag) = steady s := by
  unfold servePeerWrite
  dsimp only
  repeat' split
  all_goals simp

@[simp] theorem steady_serveOutside (s : State) (r : MReq) : steady (serveOutside s r) = steady s := by
  unfold serveOutside
  repeat' split
  all_goals simp

/-! ### Machine/MemEvents.lean -/

@[simp] theorem steady_discardReq (s : State) (id : Nat) (r : MReq) :
    steady (discardReq s id r) = steady s := by simp [discardReq]

@[simp] theorem steady_respond (s : State) (id : Nat) (r : MReq) (corrupt : Bool) :
    steady (respond s id r corrupt) = steady s := by
  unfold respond
  dsimp only
  repeat' split
  all_goals simp

@[simp] theorem steady_ackWrite (s : State) (id : Nat) (r : MReq) : steady (ackWrite s id r) = steady s := by simp [ackWrite]

@[simp] theorem steady_ackAtCore (s : State) (id : Nat) (r : MReq) : steady (ackAtCore s id r) = steady s := by
  unfold ackAtCore
  repeat' split
  all_goals simp

@[simp] theorem steady_freeBiWrite (s : State) (id : Nat) (r : MReq) : steady (freeBiWrite s id r) = steady s := by
  unfold freeBiWrite
  split <;> simp

@[simp] theorem steady_freeBiWrites (s : State) : steady (freeBiWrites s) = steady s := by simp [freeBiWrites]

@[simp] theorem steady_logUncorrectable (s : State) (pa : Nat) : steady (logUncorrectable s pa) = steady s := by
  unfold logUncorrectable
  split <;> simp

@[simp] theorem steady_queueRefetch (s : State) (a : Nat) : steady (queueRefetch s a) = steady s := by
  unfold queueRefetch
  repeat' split
  all_goals simp

@[simp] theorem steady_rewriteGrain (s : State) (m : Model) (l : Layer) (off : Nat) :
    steady (rewriteGrain s m l off) = steady s := by simp [rewriteGrain]

@[simp] theorem steady_refetchTile (s : State) (a : Nat) : steady (refetchTile s a) = steady s := by
  unfold refetchTile
  split <;> simp

end Machine
end Sys2Proof
end

section
/-! What the operations of Peers, Ports, Movement, Collectives, UpdMath, Update, Recover leave of the settings. -/
namespace Sys2Proof
namespace Machine

/-! ### Machine/Peers.lean -/

@[simp] theorem steady_settleDrain (s : State) : steady (settleDrain s) = steady s := by simp [settleDrain]

@[simp] theorem steady_portMoves (s : State) (k st : Nat) : steady (portMoves s k st) = steady s := by simp [portMoves]

@[simp] theorem steady_portDown (s : State) (k : Nat) : steady (portDown s k) = steady s := by simp [portDown]

@[simp] theorem steady_portRetrain (s : State) (k : Nat) : steady (portRetrain s k) = steady s := by
  unfold portRetrain
  split <;> simp

@[simp] theorem steady_recordSpares (s : State) (k : Nat) (spare : BitVec 18) : steady (recordSpares s k spare) = steady s := by
  unfold recordSpares
  split <;> simp

@[simp] theorem steady_setLanes (s : State) (k : Nat) (pass best8 : BitVec 18) :
    steady (setLanes s k pass best8) = steady s := by
  unfold setLanes
  dsimp only
  split <;> simp

@[simp] theorem steady_portUp (s : State) (k : Nat) : steady (portUp s k) = steady s := by
  unfold portUp
  dsimp only
  split <;> simp

@[simp] theorem steady_acceptHello (s : State) (j inc je : Nat) : steady (acceptHello s j inc je) = steady s := by
  unfold acceptHello
  dsimp only
  repeat' split
  all_goals simp

/-! ### Machine/Ports.lean -/

@[simp] theorem steady_sendHello (s : State) (port : Nat) : steady (sendHello s port) = steady s := by
  unfold sendHello
  dsimp only
  split <;> simp

@[simp] theorem steady_greet (s : State) (port : Nat) : steady (greet s port) = steady s := by simp [greet]

@[simp] theorem steady_replayOf (s : State) (port : Nat) : steady (replayOf s port) = steady s := by
  unfold replayOf
  dsimp only
  split <;> simp

@[simp] theorem steady_resume (s : State) (port : Nat) : steady (resume s port) = steady s := by simp [resume]

@[simp] theorem steady_sendLinkWord (s : State) (port : Nat) (nak : Bool) (swap : Nat) (cr : List Nat) :
    steady (sendLinkWord s port nak swap cr) = steady s := (rfl)

@[simp] theorem steady_nextSwap (s : State) (port : Nat) : steady (nextSwap s port) = steady s := by
  unfold nextSwap
  dsimp only
  repeat' split
  all_goals simp

@[simp] theorem steady_laneBad (s : State) (port k : Nat) : steady (laneBad s port k) = steady s := by
  unfold laneBad
  split <;> simp

@[simp] theorem steady_takeNak (s : State) (port ack : Nat) : steady (takeNak s port ack) = steady s := by
  unfold takeNak
  dsimp only
  repeat' split
  all_goals simp

@[simp] theorem steady_takeLinkWord (s : State) (port : Nat) (w : LinkWord) : steady (takeLinkWord s port w) = steady s := by
  unfold takeLinkWord
  dsimp only
  repeat' split
  all_goals simp

@[simp] theorem steady_forward (s : State) (f : Flit) : steady (forward s f) = steady s := by
  unfold forward
  split <;> simp

@[simp] theorem steady_acceptFlit (s : State) (port : Nat) (f : Flit) :
    steady (acceptFlit s port f) = steady s := by simp [acceptFlit]

theorem steady_of_takeFlit {s t : State} {port : Nat} {f : Flit} (h : takeFlit s port f = .taken t ∨ takeFlit s port f = .nak t) :
    steady t = steady s := by
  unfold takeFlit at h
  dsimp only at h
  repeat' split at h
  all_goals
    simp only [FlitResult.taken.injEq, FlitResult.nak.injEq, reduceCtorEq, or_false, false_or] at h
    subst h
  · rfl
  · simp
  · simp
  · exact (steady_acceptFlit _ _ _).trans ((steady_logEvent _ _ _ _ _ _).trans ((steady_modRec rfl).trans
      ((steady_modPort rfl).trans (steady_setPort rfl))))
  · simp

@[simp] theorem steady_takeFlits (s : State) (port : Nat) (l : List Flit) : steady (takeFlits s port l).1 = steady s := by
  induction l generalizing s with
  | nil => rfl
  | cons f fs ih =>
    unfold takeFlits
    split
    next taken => exact (ih _).trans (steady_of_takeFlit (.inl taken))
    next nak => exact steady_of_takeFlit (.inr nak)

@[simp] theorem steady_exchange (h : HelloMsg) (s : State) : steady (exchange h s) = steady s := by
  unfold exchange
  dsimp only
  repeat' split
  all_goals simp

@[simp] theorem steady_takeAbsent (peer incarnation joinEpoch : Nat) (s : State) :
    steady (takeAbsent peer incarnation joinEpoch s) = steady s := by
  unfold takeAbsent
  repeat' split
  all_goals simp

@[simp] theorem steady_takeRoutes (mask : BitVec 8) (s : State) : steady (takeRoutes mask s) = steady s := by simp [takeRoutes]

@[simp] theorem steady_takeRelaydrain (dst : Nat) (s : State) :
    steady (takeRelaydrain dst s) = steady s := by simp [takeRelaydrain]

@[simp] theorem steady_rejoin (s : State) : steady (rejoin s) = steady s := (rfl)

/-! ### Machine/Movement.lean -/

@[simp] theorem steady_schedFault (s : State) (d : Sched) (code addr : Nat) :
    steady (schedFault s d code addr) = steady s := by simp [schedFault]

@[simp] theorem steady_startCoreEntry (s : State) (id c : Nat) (d : Sched) (key off src grains : Nat) :
    steady (startCoreEntry s id c d key off src grains) = steady s := by
  unfold startCoreEntry
  dsimp only
  repeat' split
  all_goals simp

@[simp] theorem steady_startHubEntry (s : State) (id : Nat) (d : Sched) (src dst grains : Nat) :
    steady (startHubEntry s id d src dst grains) = steady s := by
  unfold startHubEntry
  split <;> simp

@[simp] theorem steady_readEntry (s : State) (d : Sched) : steady (readEntry s d).2 = steady s := by
  unfold readEntry
  dsimp only
  repeat' split
  all_goals simp

@[simp] theorem steady_installRing (s : State) (c k : Nat) (d : BitVec 256) :
    steady (installRing s c k d) = steady s := by simp [installRing]

/-! ### Machine/Collectives.lean -/

@[simp] theorem steady_collIssue (s : State) (a : Agent) (n g : Nat) (desc src dst : BitVec 256) (d : ColDesc) (t u : Tensor) :
    steady (collIssue s a n g desc src dst d t u) = steady s := by
  unfold collIssue
  split <;> simp

@[simp] theorem steady_gflagAtOnce (s : State) (g : GflagWait) : steady (gflagAtOnce s g) = steady s := by simp [gflagAtOnce]

@[simp] theorem steady_readMapRec (s : State) (n va : Nat) (d : ColDesc) (t : Tensor) :
    steady (readMapRec s n va d t).2 = steady s := by
  unfold readMapRec
  dsimp only
  repeat' split
  all_goals simp

@[simp] theorem steady_reshardEnter (s : State) (a : Agent) (n g : Nat) (desc tensor : BitVec 256) (m : MapRec) (check : Nat) :
    steady (reshardEnter s a n g desc tensor m check).2 = steady s := by simp [reshardEnter]

@[simp] theorem steady_reshardVoid (s : State) (a : Agent) (g : Nat) :
    steady (reshardVoid s a g) = steady s := by simp [reshardVoid]

@[simp] theorem steady_takeArrive (m : ArriveMsg) (s : State) : steady (takeArrive m s) = steady s := by
  unfold takeArrive
  repeat' split
  all_goals simp

@[simp] theorem steady_collData (s : State) (id : Nat) (c : Coll) (d : ColData) : steady (collData s id c d) = steady s := by
  unfold collData
  dsimp only
  repeat' split
  all_goals simp

@[simp] theorem steady_reshardData (s : State) (id : Nat) (r : Reshard) (d : ColData) :
    steady (reshardData s id r d) = steady s := by
  unfold reshardData
  dsimp only
  repeat' split
  all_goals simp

@[simp] theorem steady_takeAbort (group attempt step : Nat) (s : State) :
    steady (takeAbort group attempt step s) = steady s := by
  unfold takeAbort
  dsimp only
  repeat' split
  all_goals simp

@[simp] theorem steady_takeGflagMessage (src group attempt step : Nat) (flag aborted : Bool) (s : State) :
    steady (takeGflagMessage src group attempt step flag aborted s) = steady s := by
  unfold takeGflagMessage
  dsimp only
  repeat' split
  all_goals simp

/-! ### Machine/UpdMath.lean -/

@[simp] theorem steady_fetchGrain (s : State) (n va : Nat) : steady (fetchGrain s n va).2.2.2 = steady s := by simp [fetchGrain]

@[simp] theorem steady_storeFmt (s : State) (n va fmt : Nat) (data : List Byte) (poison : Bool) :
    steady (storeFmt s n va fmt data poison) = steady s := by simp [storeFmt]

@[simp] theorem steady_fetchRun (s : State) (n va k : Nat) : steady (fetchRun s n va k).2.2.2 = steady s := by
  induction k with
  | zero => rfl
  | succ k ih => exact (steady_fetchGrain _ _ _).trans ih

@[simp] theorem steady_fetchRow (s : State) (n va fmt cols : Nat) : steady (fetchRow s n va fmt cols).2.2 = steady s :=
  steady_fetchRun s n va _

@[simp] theorem steady_fetchRows (s : State) (n va fmt cols k : Nat) : steady (fetchRows s n va fmt cols k).2.2 = steady s := by
  induction k with
  | zero => rfl
  | succ k ih => exact (steady_fetchRow _ _ _ _ _).trans ih

@[simp] theorem steady_storeRow (s : State) (n va fmt : Nat) (row : List UElem) :
    steady (storeRow s n va fmt row) = steady s := by simp [storeRow]

@[simp] theorem steady_storeRows (s : State) (n va fmt : Nat) (rows : List (List UElem)) :
    steady (storeRows s n va fmt rows) = steady s := by simp [storeRows]

@[simp] theorem steady_writeCopy (s : State) (n va fmt : Nat) (master : List (List UElem)) :
    steady (writeCopy s n va fmt master) = steady s := by
  unfold writeCopy
  split <;> simp

/-! ### Machine/Update.lean -/

@[simp] theorem steady_updBad (s : State) : steady (updBad s).2 = steady s := (rfl)

@[simp] theorem steady_updOpenRun (s : State) (o : UpdOp) (d : UpdDesc) (t : Tensor) :
    steady (updOpenRun s o d t).2 = steady s := by
  unfold updOpenRun
  repeat' split
  all_goals simp

@[simp] theorem steady_normSum (emu : Bool) (lossExp : Int) (s : State) (n base k : Nat) :
    steady (normSum emu lossExp s n base k).2 = steady s := by
  induction k with
  | zero => rfl
  | succ k ih => exact (steady_fetchGrain _ _ _).trans ih

@[simp] theorem steady_updNormRun (s : State) (o : UpdOp) (d : UpdDesc) (t : Tensor) :
    steady (updNormRun s o d t).2 = steady s := by
  unfold updNormRun
  dsimp only
  repeat' split
  all_goals simp

@[simp] theorem steady_readParams (s : State) (n : Nat) (d : UpdDesc) (t : Tensor) :
    steady (readParams s n d t).2 = steady s := by
  unfold readParams
  dsimp only
  repeat' split
  all_goals simp

@[simp] theorem steady_readUpdState (s : State) (n : Nat) (p : UpdParams) : steady (readUpdState s n p).2 = steady s := by
  unfold readUpdState
  dsimp only
  repeat' split
  all_goals simp

@[simp] theorem steady_writeUpdState (s : State) (n : Nat) (p : UpdParams) (u : UpdState) :
    steady (writeUpdState s n p u) = steady s := by simp [writeUpdState]

@[simp] theorem steady_applyStep (s : State) (n : Nat) (p : UpdParams) (t : Tensor) (step : Nat) (gh : List (List UVal)) :
    steady (applyStep s n p t step gh).2 = steady s := by
  unfold applyStep
  dsimp only
  repeat' split
  all_goals simp

@[simp] theorem steady_applySlots (s : State) (n : Nat) (p : UpdParams) (t : Tensor) (due : List (Nat × Nat)) (u : UpdState) (r : Applied) :
    steady (applySlots s n p t due u r).2.2 = steady s := by
  induction due generalizing s u r with
  | nil => rfl
  | cons e due ih => exact (ih _ _ _).trans ((steady_applyStep _ _ _ _ _ _).trans (steady_fetchRows _ _ _ _ _ _))

@[simp] theorem steady_updateLoss (s : State) (n ls step : Nat) (skipped : Bool) :
    steady (updateLoss s n ls step skipped).2 = steady s := by
  unfold updateLoss
  dsimp only
  repeat' split
  all_goals simp

@[simp] theorem steady_engineMerge (s : State) (ref : CgRef) (n va off : Nat) (bs : List Byte) :
    steady (engineMerge s ref n va off bs) = steady s := by
  unfold engineMerge
  dsimp only
  repeat' split
  all_goals simp

@[simp] theorem steady_copySnapshot (s : State) (id : Nat) : steady (copySnapshot s id) = steady s := by
  unfold copySnapshot
  split <;> simp

@[simp] theorem steady_copyBefore (s : State) (n : Nat) (p : UpdParams) (t : Tensor) :
    steady (copyBefore s n p t) = steady s := by simp [copyBefore]

@[simp] theorem steady_mirrorValid (s : State) (n va bank : Nat) (v : Bool) :
    steady (mirrorValid s n va bank v) = steady s := by simp [mirrorValid]

@[simp] theorem steady_startSnapshot (s : State) (n : Nat) (p : UpdParams) (t : Tensor) (step : Nat) :
    steady (startSnapshot s n p t step) = steady s := by simp [startSnapshot]

@[simp] theorem steady_noteMirrored (s : State) (o : UpdOp) (d : UpdDesc) (p : UpdParams) :
    steady (noteMirrored s o d p) = steady s := by
  unfold noteMirrored
  split <;> simp

@[simp] theorem steady_finishStep (s : State) (n : Nat) (p : UpdParams) (d : UpdDesc) (t : Tensor) (u : UpdState) (step : Nat)
    (r : Applied) : steady (finishStep s n p d t u step r).2 = steady s := by
  unfold finishStep
  dsimp only
  generalize ended : updateLoss _ n d.ls step (d.outcome == 1) = r
  have kept := congrArg (fun r => steady r.2) ended
  simp only [steady_updateLoss, apply_ite steady, steady_startSnapshot, steady_setLatch, steady_writeUpdState, ite_self] at kept
  obtain ⟨a, v⟩ := r
  cases a <;> exact kept.symm

@[simp] theorem steady_runStep (s : State) (n : Nat) (p : UpdParams) (d : UpdDesc) (t : Tensor) (u : UpdState) (step : Nat) :
    steady (runStep s n p d t u step).2 = steady s := by
  unfold runStep
  dsimp only
  repeat' split
  all_goals simp

@[simp] theorem steady_updStepRun (s : State) (o : UpdOp) (d : UpdDesc) (t : Tensor) :
    steady (updStepRun s o d t).2 = steady s := by
  have read := steady_readParams s o.ctx d t
  unfold updStepRun
  dsimp only
  split
  next ran => rwa [ran] at read
  next p v ran =>
    rw [ran] at read
    have state := (steady_readUpdState v o.ctx p).trans read
    split
    next ran => rwa [ran] at state
    next ran =>
      rw [ran] at state
      repeat' split
      all_goals simpa using state

@[simp] theorem steady_updRegenRun (s : State) (o : UpdOp) (d : UpdDesc) (t : Tensor) :
    steady (updRegenRun s o d t).2 = steady s := by
  have read := steady_readParams s o.ctx d t
  unfold updRegenRun
  dsimp only
  split
  next ran => rwa [ran] at read
  next p v ran =>
    rw [ran] at read
    split
    · exact read
    · simpa using read

@[simp] theorem steady_updFlushRun (s : State) (o : UpdOp) (d : UpdDesc) (t : Tensor) :
    steady (updFlushRun s o d t).2 = steady s := by
  have read := steady_readParams s o.ctx d t
  unfold updFlushRun
  dsimp only
  split
  next ran => rwa [ran] at read
  next p v ran =>
    rw [ran] at read
    have state := (steady_readUpdState v o.ctx p).trans read
    split
    next ran => rwa [ran] at state
    next ran =>
      rw [ran] at state
      simpa using state

@[simp] theorem steady_gatherRun (s : State) (n src : Nat) (t : Tensor) (off : Nat) (headBad : Bool) (k : Nat) :
    steady (gatherRun s n src t off headBad k).2.2 = steady s := by
  induction k with
  | zero => rfl
  | succ k ih => exact (steady_engineWrite _ _ _ _ _).trans ((steady_engineRead _ _ _).trans ih)

@[simp] theorem steady_gatherGo (ref : CgRef) (n out : Nat) (t : Tensor) (bs : List Byte) (k i next : Nat) (r : Bool × Bool)
    (s : State) : steady (gatherGo ref n out t bs k i next r s).2 = steady s := by
  induction k generalizing i next r s with
  | zero => rfl
  | succ k ih =>
    unfold gatherGo
    dsimp only
    repeat' split
    all_goals simp [ih]

@[simp] theorem steady_updGatherRun (s : State) (o : UpdOp) (d : UpdDesc) (t : Tensor) :
    steady (updGatherRun s o d t).2 = steady s := by
  unfold updGatherRun
  dsimp only
  repeat' split
  all_goals simp

@[simp] theorem steady_runUpd (s : State) (o : UpdOp) (d : UpdDesc) (t : Tensor) : steady (runUpd s o d t).2 = steady s := by
  unfold runUpd
  split <;> simp

@[simp] theorem steady_endUpd (s : State) (o : UpdOp) (d : UpdDesc) (t : Tensor) : steady (endUpd s o d t) = steady s := by
  have ran := (steady_runUpd (queueFreed s) o d t).trans (steady_queueFreed s)
  unfold endUpd
  split
  all_goals
    next ended =>
      rw [ended] at ran
      simpa using ran

@[simp] theorem steady_startUpd (s : State) (id : Nat) : steady (startUpd s id) = steady s := by
  unfold startUpd
  repeat' split
  all_goals simp

/-! ### Machine/Recover.lean -/

@[simp] theorem steady_settleAlert (s : State) : steady (settleAlert s) = steady s := (rfl)

@[simp] theorem steady_setDegraded (s : State) : steady (setDegraded s) = steady s := (rfl)

/-- The settings of ports and of the clock are none of the things that stop (R388). -/
@[simp] theorem steady_stopAll (s : State) : steady (stopAll s) = steady s := by
  have down : steady ((s.ports.filter fun e => isUp s e.1).foldl (fun s e => emit s (.portDown e.1)) s) = steady s :=
    steady_foldl _ _ fun _ _ => steady_emit _ _
  unfold stopAll
  dsimp only
  generalize List.foldl _ s _ = t at down ⊢
  have retired := (steady_foldl (t.ctxs.map Prod.fst) t steady_retireEnergy).trans down
  generalize List.foldl _ t _ = u at retired ⊢
  refine Eq.trans ?_ retired
  have replay : (fun p => (tget Port.reset (tmap (fun _ p => quietPort p) u.ports) p).replayMax) = fun p => (getPort u p).replayMax :=
    funext (tget_tmap_keeps Port.replayMax (f := fun _ p => quietPort p) (fun _ _ => rfl) u.ports)
  simp only [steady, getPort, replay]
  rfl

@[simp] theorem settings_enterFatal (s : State) : (steady (enterFatal s)).settings = (steady s).settings := by
  unfold enterFatal
  dsimp only
  repeat' split
  all_goals simp

@[simp] theorem steady_freezeCores (s : State) (die : Nat) : steady (freezeCores s die) = steady s := by simp [freezeCores]

@[simp] theorem steady_freezeStacks (s : State) : steady (freezeStacks s) = steady s := by simp [freezeStacks]

@[simp] theorem steady_flushCores (s : State) (p : Nat → Bool) : steady (flushCores s p) = steady s := by simp [flushCores]

@[simp] theorem steady_loseCores (s : State) (p : Nat → Bool) (event first : Nat) :
    steady (loseCores s p event first) = steady s := by simp [loseCores]

@[simp] theorem steady_fenceCore (s : State) (c : Nat) : steady (fenceCore s c) = steady s := (rfl)

@[simp] theorem steady_loseCore (s : State) (c : Nat) : steady (loseCore s c) = steady s := by
  unfold loseCore
  dsimp only
  split <;> simp

@[simp] theorem steady_dropDieEdge (s : State) (die : Nat) : steady (dropDieEdge s die) = steady s := (rfl)

@[simp] theorem settings_loseDie (s : State) (die k : Nat) : (steady (loseDie s die k)).settings = (steady s).settings := by
  unfold loseDie
  dsimp only
  split <;> simp

@[simp] theorem steady_evictOnStack (s : State) (k : Nat) : steady (evictOnStack s k) = steady s := by
  refine steady_foldl _ _ fun s e => ?_
  split <;> simp

@[simp] theorem steady_failPending (s : State) (p : Nat → Bool) : steady (failPending s p) = steady s := by
  refine steady_foldl _ _ fun s e => ?_
  split <;> simp

@[simp] theorem steady_askStack (s : State) (k : Nat) : steady (askStack s k) = steady s := by
  unfold askStack
  split <;> simp

@[simp] theorem steady_loseStack (s : State) (k : Nat) : steady (loseStack s k) = steady s := by simp [loseStack]

@[simp] theorem steady_rereadLayer (s : State) (k : Nat) (m : Model) (l : Layer) :
    steady (rereadLayer s k m l) = steady s := by simp [rereadLayer]

@[simp] theorem steady_rebuildModels (s : State) (k : Nat) : steady (rebuildModels s k) = steady s := by
  refine (steady_foldl _ _ fun s e => ?_).trans (steady_foldl _ _ fun s e => ?_)
  · split
    · refine steady_foldl _ _ fun s pr => ?_
      split
      · exact steady_foldl _ _ fun s g => steady_storeGrain _ _ _ _
      · rfl
    · rfl
  · split
    · simp
    · rfl

@[simp] theorem steady_rebuildFrom (s : State) (n : Nat) (p : UpdParams) (t : Tensor) (bank step : Nat) :
    steady (rebuildFrom s n p t bank step) = steady s := by
  unfold rebuildFrom
  split <;> simp

@[simp] theorem steady_rebuildOne (s : State) (k : Nat) (m : MirrorNote) : steady (rebuildOne s k m).2 = steady s := by
  unfold rebuildOne
  dsimp only
  split
  · rfl
  next t _ =>
    have read := steady_readParams s m.ctx
      { op := 0, params := m.params, contrib := 0, ntags := 0, lossExp := 0, ls := 0, outcome := 0, init := false, out := 0 } t
    split
    next ran => rwa [ran] at read
    next ran =>
      rw [ran] at read
      repeat' split
      all_goals simpa using read

@[simp] theorem steady_rebuildTensors (s : State) (k : Nat) : steady (rebuildTensors s k) = steady s := by
  refine steady_foldl _ _ fun s m => ?_
  dsimp only
  split <;> simp

@[simp] theorem steady_placeStack (s : State) (k sp : Nat) : steady (placeStack s k sp) = steady s := by simp [placeStack]

@[simp] theorem steady_reissueMove (s : State) (id : Nat) : steady (reissueMove s id) = steady s := by
  unfold reissueMove
  dsimp only
  repeat' split
  all_goals simp

@[simp] theorem steady_reissueMoves (s : State) (h : Nat) : steady (reissueMoves s h) = steady s := by simp [reissueMoves]

@[simp] theorem settings_loseHubUnit (s : State) (u : HubUnit) : (steady (loseHubUnit s u)).settings = (steady s).settings := by
  unfold loseHubUnit
  repeat' split
  all_goals simp

@[simp] theorem settings_restartCore (s : State) (cc : Nat) : (steady (restartCore s cc)).settings = (steady s).settings := by
  unfold restartCore
  dsimp only
  repeat' split
  all_goals simp

@[simp] theorem settings_sramEffect (s : State) (a : SramPlace) : (steady (sramEffect s a)).settings = (steady s).settings := by
  unfold sramEffect
  repeat' split
  all_goals simp

end Machine
end Sys2Proof
end

section
/-! What the operations of Firmware, Queues, Clock, Hold, Functions, HostLink, Sync, Bringup, Change, Control, Matrix, Ordered,
PowerStates, Registers, Serving, Sessions, Spdm, Vector leave of the settings. -/
namespace Sys2Proof
namespace Machine

/-! ### Machine/Firmware.lean -/

@[simp] theorem settings_fwEnd (s : State) (state result : Nat) :
    (steady (fwEnd s state result)).settings = (steady s).settings := (rfl)

@[simp] theorem settings_fwIgnore (s : State) : (steady (fwIgnore s)).settings = (steady s).settings := (rfl)

@[simp] theorem settings_markActive (s : State) : (steady (markActive s)).settings = (steady s).settings := (rfl)

@[simp] theorem settings_startActivate (s : State) : (steady (startActivate s)).settings = (steady s).settings := by
  unfold startActivate
  dsimp only
  repeat' split
  all_goals simp

@[simp] theorem settings_finishSwitch (s : State) : (steady (finishSwitch s)).settings = (steady s).settings := (rfl)

@[simp] theorem settings_pauseCore (s : State) : (steady (pauseCore s)).settings = (steady s).settings := (rfl)

@[simp] theorem settings_resumeCore (s : State) : (steady (resumeCore s)).settings = (steady s).settings := by
  unfold resumeCore
  dsimp only
  split <;> simp

@[simp] theorem settings_switchCore (s : State) : (steady (switchCore s)).settings = (steady s).settings := by
  unfold switchCore
  dsimp only
  split <;> simp

/-! ### Machine/Queues.lean -/

@[simp] theorem steady_qcfgWrite (s : State) (c ep : Nat) (v : Word) :
    steady (qcfgWrite s c ep v) = steady s := by simp [qcfgWrite]

@[simp] theorem steady_sendWord (s : State) (c ep : Nat) (q : QWord) : steady (sendWord s c ep q) = steady s := by
  unfold sendWord
  dsimp only
  repeat' split
  all_goals simp

@[simp] theorem steady_sendWords (s : State) (c ep off n i k : Nat) : steady (sendWords s c ep off n i k) = steady s := by
  induction k generalizing s i with
  | zero => rfl
  | succ k ih => exact (ih _ _).trans (steady_sendWord _ _ _ _)

@[simp] theorem steady_dstSent (s : State) (n ep words : Nat) : steady (dstSent s n ep words) = steady s := (rfl)

@[simp] theorem steady_dropHeld (s : State) (a : Agent) (ep num : Nat) :
    steady (dropHeld s a ep num) = steady s := by simp [dropHeld]

@[simp] theorem steady_discardEarly (f : QueueFlit) (s : State) : steady (discardEarly f s) = steady s := by
  unfold discardEarly
  split <;> simp

@[simp] theorem steady_takeQueueFlit (f : QueueFlit) (s : State) : steady (takeQueueFlit f s) = steady s := by
  unfold takeQueueFlit
  split <;> simp

@[simp] theorem steady_takeQcredit (src sendCore sendEp recvCore recvEp words : Nat) (s : State) :
    steady (takeQcredit src sendCore sendEp recvCore recvEp words s) = steady s := by
  unfold takeQcredit
  dsimp only
  repeat' split
  all_goals simp

@[simp] theorem steady_takeQconfig (src core ep : Nat) (word : Word) (part : Nat) (answer : Bool) (s : State) :
    steady (takeQconfig src core ep word part answer s) = steady s := by
  unfold takeQconfig
  dsimp only
  repeat' split
  all_goals simp

@[simp] theorem steady_takeQclose (src core ep peerCore peerEp words : Nat) (s : State) :
    steady (takeQclose src core ep peerCore peerEp words s) = steady s := by
  unfold takeQclose
  dsimp only
  repeat' split
  all_goals simp

/-! ### Machine/Clock.lean -/

@[simp] theorem steady_settleGov (s : State) : steady (settleGov s) = steady s := (rfl)

@[simp] theorem steady_heatStep (s : State) : steady (heatStep s) = steady s := by
  unfold heatStep
  dsimp only
  refine (steady_settleAlert _).trans ((steady_settleGov _).trans ((steady_modPwr rfl rfl rfl).trans (steady_modClk ?_ ?_)))
  all_goals split <;> rfl

@[simp] theorem steady_payCtx (s : State) (n : Nat) : steady (payCtx s n) = steady s := by simp [payCtx]

@[simp] theorem steady_payOut (k : Nat) (s : State) : steady (payOut k s) = steady s := by
  induction k generalizing s with
  | zero => rfl
  | succ k ih =>
    refine (ih _).trans ?_
    repeat' split
    all_goals simp

@[simp] theorem steady_chargeCycles (s : State) (d : DomainReading) :
    steady (chargeCycles s d) = steady s := by simp [chargeCycles]

@[simp] theorem steady_noteCorrected (s : State) (ds : List DomainReading) : steady (noteCorrected s ds) = steady s := (rfl)

@[simp] theorem steady_deliverEdge (s : State) (a : EdgeItem) : steady (deliverEdge s a) = steady s := by
  unfold deliverEdge
  repeat' split
  all_goals simp

/-! ### Machine/Hold.lean -/

@[simp] theorem steady_requestHold (s : State) : steady (requestHold s) = steady s := by
  unfold requestHold
  repeat' split
  all_goals simp

/-! ### Machine/Functions.lean -/

@[simp] theorem steady_resetParts (s : State) (ps : List Nat) : steady (resetParts s ps) = steady s := by simp [resetParts]

@[simp] theorem steady_clearFunctions (s : State) (fs : List Nat) : steady (clearFunctions s fs) = steady s := (rfl)

@[simp] theorem steady_disableVfs (s : State) : steady (disableVfs s) = steady s := by simp [disableVfs]

@[simp] theorem steady_configWrite (n off v : Nat) (s : State) : steady (configWrite n off v s) = steady s := by
  unfold configWrite
  repeat' split
  all_goals simp

/-! ### Machine/HostLink.lean -/

@[simp] theorem steady_hdmAccess (pa : Nat) (data : Option (List Byte)) (s : State) :
    steady (hdmAccess pa data s) = steady s := by
  unfold hdmAccess
  repeat' split
  all_goals simp

@[simp] theorem steady_failHostReqs (s : State) : steady (failHostReqs s) = steady s := by simp [failHostReqs]

@[simp] theorem steady_freeBiWaits (s : State) : steady (freeBiWaits s) = steady s := by simp [freeBiWaits]

@[simp] theorem settings_loseConfig (s : State) : (steady (loseConfig s)).settings = (steady s).settings := (rfl)

@[simp] theorem settings_linkDown (s : State) : (steady (linkDown s)).settings = (steady s).settings := by simp [linkDown]

/-! ### Machine/Sync.lean -/

@[simp] theorem steady_sendTokens (s : State) (c b n : Nat) : steady (sendTokens s c b n).2 = steady s := by
  unfold sendTokens
  dsimp only
  repeat' split
  all_goals simp

@[simp] theorem steady_claimCg (s : State) (a : Agent) (g : Nat) : steady (claimCg s a g) = steady s := by
  unfold claimCg
  split <;> simp

@[simp] theorem steady_entered (s : State) (n ix e layer : Nat) (ok : Bool) :
    steady (entered s n ix e layer ok) = steady s := by
  unfold entered
  split <;> simp

@[simp] theorem steady_leftLayer (s : State) (n ix e layer : Nat) : steady (leftLayer s n ix e layer) = steady s := by
  unfold leftLayer
  dsimp only
  repeat' split
  all_goals simp

/-! ### Machine/Bringup.lean -/

@[simp] theorem steady_newLifeOf (s : State) (slot : Nat) (other : Option Nat) :
    steady (newLifeOf s slot other) = steady s := (rfl)

@[simp] theorem steady_stopConversion (s : State) : steady (stopConversion s) = steady s := (rfl)

@[simp] theorem settings_enterRecovery (s : State) (code : Nat) :
    (steady (enterRecovery s code)).settings = (steady s).settings := (rfl)

@[simp] theorem steady_loadLaneMaps (s : State) : steady (loadLaneMaps s) = steady s := by simp [loadLaneMaps]

@[simp] theorem steady_assignUnits (s : State) : steady (assignUnits s) = steady s :=
  (steady_foldl _ _ fun s c => steady_modCore s c _).trans rfl

@[simp] theorem steady_bringDie (s : State) (freq : Nat) (e : Nat × Nat) : steady (bringDie s freq e) = steady s := (rfl)

@[simp] theorem steady_noteRecord (s : State) : steady (noteRecord s) = steady s := by
  unfold noteRecord
  dsimp only
  split <;> simp

@[simp] theorem steady_failUnits (s : State) (l : List Unit1) : steady (failUnits s l) = steady s := by
  have logged : ∀ l : List Unit1, steady (l.foldl (fun s u => logEvent s (failLog u).1 (failLog u).2 0 none 0) s) = steady s
      := fun l =>
    steady_foldl _ _ fun _ _ => steady_logEvent _ _ _ _ _ _
  unfold failUnits
  refine (steady_modClk rfl rfl).trans ((steady_modRec rfl).trans
      (Eq.trans ?_ (logged (l.filter fun u => !namedFailed s.recov.failedCores (carrier s) u))))
  repeat' split
  all_goals simp

@[simp] theorem steady_enablePorts (s : State) : steady (enablePorts s) = steady s := by
  refine steady_foldl _ _ fun s k => ?_
  split <;> simp

/-! ### Machine/Change.lean -/

@[simp] theorem settings_setCr (s : State) (i : Nat) (x : CrSlot) :
    (steady (setCr s i x)).settings = (steady s).settings := (rfl)

@[simp] theorem settings_endSlot (s : State) (i state result : Nat) :
    (steady (endSlot s i state result)).settings = (steady s).settings := (rfl)

@[simp] theorem settings_expireSlot (s : State) (i : Nat) : (steady (expireSlot s i)).settings = (steady s).settings := (rfl)

@[simp] theorem settings_badSig (s : State) : (steady (badSig s)).settings = (steady s).settings := (rfl)

@[simp] theorem settings_addSign (s : State) (i : Nat) (x : CrSlot) (role : Nat) (sig : List Byte) :
    (steady (addSign s i x role sig)).settings = (steady s).settings := by
  unfold addSign
  dsimp only
  repeat' split
  all_goals simp

@[simp] theorem settings_applySlot (s : State) (i : Nat) (x : CrSlot) :
    (steady (applySlot s i x)).settings = (steady s).settings := (rfl)

@[simp] theorem settings_goOnActivate (s : State) : (steady (goOnActivate s)).settings = (steady s).settings := by
  unfold goOnActivate
  split <;> simp

@[simp] theorem settings_stepApply (s : State) (i : Nat) (x : CrSlot) :
    (steady (stepApply s i x)).settings = (steady s).settings := by
  unfold stepApply
  dsimp only
  repeat' split
  all_goals simp

@[simp] theorem settings_applyTurn (s : State) (i : Nat) :
    (steady (applyTurn s i)).settings = (steady s).settings := by simp [applyTurn]

/-! ### Machine/Control.lean -/

@[simp] theorem steady_extWord (s : State) (a : Agent) (n : Nat) (w : Word) : steady (extWord s a n w).2 = steady s := by
  unfold extWord
  dsimp only
  repeat' split
  all_goals simp

/-! ### Machine/Matrix.lean -/

@[simp] theorem steady_shadowBlock (n c : Nat) (old : Core) (g : AccGroup) (ta tb : Tile) (s : State) (b : Block) :
    steady (shadowBlock n c old g ta tb s b) = steady s := by
  unfold shadowBlock
  dsimp only
  repeat' split
  all_goals simp

@[simp] theorem steady_shadowMma (n c cls : Nat) (noShadow : Bool) (old : Core) (g : AccGroup) (ta tb : Tile) (s : State) :
    steady (shadowMma n c cls noShadow old g ta tb s) = steady s := by
  unfold shadowMma
  dsimp only
  split <;> simp

@[simp] theorem steady_mmaRun (s : State) (n c cls k : Nat) (noShadow : Bool) (ta tb : Tile) :
    steady (mmaRun s n c cls k noShadow ta tb) = steady s := by simp [mmaRun]

@[simp] theorem steady_agoutRun (s : State) (a : Agent) (n c : Nat) (w : Word) (tout : Tile) (te : Option Tile) :
    steady (agoutRun s a n c w tout te).1 = steady s := (rfl)

/-! ### Machine/Ordered.lean -/

@[simp] theorem steady_deliver (c : Instr) (s : State) : steady (deliver c s) = steady s := by
  unfold deliver
  split <;> simp

@[simp] theorem steady_eseqTaken (s : State) (src cls : Nat) : steady (eseqTaken s src cls) = steady s := (rfl)

@[simp] theorem steady_deliverEarly (fuel src cls : Nat) (s : State) :
    steady (deliverEarly fuel src cls s) = steady s := by
  induction fuel generalizing s with
  | zero => rfl
  | succ fuel ih =>
    unfold deliverEarly
    split
    · rfl
    · exact (ih _).trans (by simp)

@[simp] theorem steady_ordered (src cls eseq : Nat) (c : Instr) (s : State) : steady (ordered src cls eseq c s) = steady s := by
  unfold ordered
  dsimp only
  repeat' split
  all_goals simp

/-! ### Machine/PowerStates.lean -/

@[simp] theorem steady_leaveHold (s : State) : steady (leaveHold s) = steady s := by
  unfold leaveHold
  split <;> simp

@[simp] theorem steady_reportAll (s : State) : steady (reportAll s) = steady s := (rfl)

/-! ### Machine/Registers.lean -/

@[simp] theorem steady_onHalf {h : Option Nat} {s : State} {f : Nat → State} (kept : ∀ v, steady (f v) = steady s) :
    steady (onHalf h s f) = steady s := by
  cases h with
  | none => rfl
  | some v => exact kept v

@[simp] theorem settings_onHalf {h : Option Nat} {s : State} {f : Nat → State}
    (kept : ∀ v, (steady (f v)).settings = (steady s).settings) : (steady (onHalf h s f)).settings = (steady s).settings := by
  cases h with
  | none => rfl
  | some v => exact kept v

@[simp] theorem settings_securityWrite (w : RegWr) (s : State) :
    (steady (securityWrite w s)).settings = (steady s).settings := by
  unfold securityWrite
  repeat' split
  all_goals simp

@[simp] theorem steady_errorWrite (w : RegWr) (s : State) : steady (errorWrite w s) = steady s := by
  unfold errorWrite
  repeat' split
  all_goals simp

@[simp] theorem steady_countersWrite (w : RegWr) (s : State) : steady (countersWrite w s) = steady s := by
  unfold countersWrite
  split <;> simp

@[simp] theorem steady_partWrite (pf : Bool) (p : Nat) (w : RegWr) (s : State) : steady (partWrite pf p w s) = steady s := by
  unfold partWrite
  split
  · exact steady_onHalf fun v => steady_modPart rfl
  · split
    · rfl
    · exact steady_onHalf fun v => steady_modPart rfl
  · split
    · rfl
    · exact steady_onHalf fun v => steady_modPart rfl
  · rfl

@[simp] theorem steady_ctxWrite (n : Nat) (w : RegWr) (s : State) : steady (ctxWrite n w s) = steady s := by
  unfold ctxWrite
  split
  · simp
  · simp
  · simp
  · simp
  · refine (steady_onHalf fun v => ?_).trans (steady_onHalf fun v => ?_)
    · simp
    · split <;> simp
  · rfl

@[simp] theorem steady_rqRefuse (s : State) (p : Nat) : steady (rqRefuse s p) = steady s := by simp [rqRefuse]

@[simp] theorem steady_mdlRefuse (s : State) (p : Nat) : steady (mdlRefuse s p) = steady s := by simp [mdlRefuse]

@[simp] theorem steady_cmdRefuse (s : State) (p : Nat) : steady (cmdRefuse s p) = steady s := by simp [cmdRefuse]

@[simp] theorem steady_mdlConfig {s : State} {p : Nat} {ok : Bool} {f : Part → Part}
    (h : (f (getPart s p)).rqMaxActive = (getPart s p).rqMaxActive) : steady (mdlConfig s p ok f) = steady s := by
  unfold mdlConfig
  split
  · simp
  · exact steady_modPart h

@[simp] theorem steady_mdlWrite (p : Nat) (w : RegWr) (s : State) : steady (mdlWrite p w s) = steady s := by
  unfold mdlWrite
  split <;> simp

@[simp] theorem steady_cmdBaseWrite (s : State) (p v : Nat) : steady (cmdBaseWrite s p v) = steady s := by
  unfold cmdBaseWrite
  dsimp only
  split <;> simp

@[simp] theorem steady_cmdOrderWrite (s : State) (p v : Nat) : steady (cmdOrderWrite s p v) = steady s := by
  unfold cmdOrderWrite
  dsimp only
  split <;> simp

@[simp] theorem steady_cmdTailWrite (s : State) (p v : Nat) : steady (cmdTailWrite s p v) = steady s := by
  unfold cmdTailWrite
  dsimp only
  repeat' split
  all_goals simp

@[simp] theorem steady_cmdWrite (p : Nat) (w : RegWr) (s : State) : steady (cmdWrite p w s) = steady s := by
  unfold cmdWrite
  split <;> simp

@[simp] theorem steady_msixTableWrite (p : Nat) (w : RegWr) (s : State) :
    steady (msixTableWrite p w s) = steady s := by simp [msixTableWrite]

@[simp] theorem steady_takeConfig (n : Nat) (w : RegWr) (s : State) : steady (takeConfig n w s) = steady s := by
  unfold takeConfig
  split <;> simp

/-! ### Machine/Serving.lean -/

@[simp] theorem steady_withW1 (s : State) (n req : Nat) (w1 : Option Word) : steady (withW1 s n req w1) = steady s := by
  unfold withW1
  repeat' split
  all_goals simp

/-! ### Machine/Sessions.lean -/

@[simp] theorem steady_setSession (s : State) (id : Nat) (x : Session) : steady (setSession s id x) = steady s := (rfl)

@[simp] theorem steady_cacheGrain (s : State) (x : Session) (g : Nat) : steady (cacheGrain s x g).1 = steady s := by
  unfold cacheGrain
  split <;> simp

@[simp] theorem steady_uncacheGrain (s : State) (x : Session) (g : Nat) : steady (uncacheGrain s x g).1 = steady s := by
  unfold uncacheGrain
  split <;> simp

@[simp] theorem steady_poisonGrain (s : State) (n va : Nat) : steady (poisonGrain s n va) = steady s := by
  unfold poisonGrain
  split <;> simp

@[simp] theorem steady_addGrain (s : State) (n va : Nat) (cached : Bool) (data : List Byte) (poison : Bool) :
    steady (addGrain s n va cached data poison) = steady s := by
  unfold addGrain
  repeat' split
  all_goals simp

@[simp] theorem steady_addInTurn (s : State) (id g : Nat) (data : List Byte) (poison : Bool) (fuel : Nat) :
    steady (addInTurn s id g data poison fuel) = steady s := by
  induction fuel generalizing s data poison with
  | zero => rfl
  | succ fuel ih =>
    unfold addInTurn
    dsimp only
    repeat' split
    all_goals simp [ih]

@[simp] theorem steady_countCloses (s : State) (id : Nat) : steady (countCloses s id) = steady s := by
  unfold countCloses
  dsimp only
  repeat' split
  all_goals simp

@[simp] theorem steady_forgetSession (s : State) (id : Nat) : steady (forgetSession s id) = steady s := by
  unfold forgetSession
  repeat' split
  all_goals simp

@[simp] theorem steady_endContrib (s : State) (id : Nat) (k : Contrib) (code : Nat) :
    steady (endContrib s id k code) = steady s := by simp [endContrib]

@[simp] theorem steady_acceptContrib (s : State) (k : Contrib) (x : Session) (poison : Bool) :
    steady (acceptContrib s k x poison) = steady s := by
  unfold acceptContrib
  dsimp only
  repeat' split
  all_goals simp

@[simp] theorem steady_countSession (s : State) (n id : Nat) (x : Session) : steady (countSession s n id x) = steady s := by
  unfold countSession
  split <;> simp

@[simp] theorem steady_closeGrain (s : State) (x : Session) (g : Nat) : steady (closeGrain s x g).2 = steady s := by
  unfold closeGrain
  dsimp only
  split <;> simp

@[simp] theorem steady_closeGrains (s : State) (x : Session) (l : List Nat) : steady (closeGrains s x l).2 = steady s := by
  induction l generalizing s with
  | nil => rfl
  | cons g gs ih => exact (ih _).trans (steady_closeGrain _ _ _)

/-! ### Machine/Spdm.lean -/

@[simp] theorem settings_modSpdm (s : State) (f : Spdm → Spdm) : (steady (modSpdm s f)).settings = (steady s).settings := (rfl)

@[simp] theorem steady_refuseSpdm (s : State) (code : Nat) : steady (refuseSpdm s code) = steady s := (rfl)

@[simp] theorem settings_sendSigned (s : State) (bs : List Byte) :
    (steady (sendSigned s bs)).settings = (steady s).settings := (rfl)

/-! ### Machine/Vector.lean -/

@[simp] theorem steady_putTile (s : State) (c : Nat) (q : RndCfg) (o : Tile) (present : Nat → Nat → Option Nat)
    (rows : List (List Computed)) : steady (putTile s c q o present rows).1 = steady s := (rfl)

@[simp] theorem steady_redSummary (s : State) (c m : Nat) (poison : Bool) (value : Nat) :
    steady (redSummary s c m poison value) = steady s := by
  unfold redSummary
  split <;> simp

@[simp] theorem steady_vredRun (s : State) (c : Nat) (emu : Bool) (m : Nat) (ta : Tile) (o : Option Tile) :
    steady (vredRun s c emu m ta o).1 = steady s := by
  unfold vredRun
  repeat' split
  all_goals simp

end Machine
end Sys2Proof
end

section
/-! What the growth of a binding, the commit window and the frames of the commands leave of the settings. -/
namespace Sys2Proof
namespace Machine

/-! ### Page sets and the growth of a binding (R311, R314, R315) -/

theorem steady_of_placeSet {s t : State} {pool e firstPos kf vf epoch id : Nat} {m : Model}
    (h : placeSet s pool m e firstPos kf vf epoch = some (id, t)) : steady t = steady s := by
  unfold placeSet at h
  dsimp only at h
  split at h
  · cases h
  · cases h
    simp

theorem steady_of_placeUpTo {s t : State} {pool firstPos kf vf epoch id e : Nat} {m : Model}
    (h : placeUpTo s pool m firstPos kf vf epoch e = some (id, t)) : steady t = steady s := by
  induction e with
  | zero => cases h
  | succ e ih =>
    unfold placeUpTo at h
    split at h
    · cases h
    · split at h
      next placed => exact steady_of_placeSet (placed.trans h)
      · exact ih h

/-- Whatever state a growth ends in is as said. -/
def Grown.Leaves (g : Grown) (P : State → Prop) : Prop :=
  match g with
  | .room t => P t
  | .none t => P t
  | .full => True

@[simp] theorem grown_leaves_room {P : State → Prop} (t : State) : (Grown.room t).Leaves P ↔ P t := Iff.rfl
@[simp] theorem grown_leaves_none {P : State → Prop} (t : State) : (Grown.none t).Leaves P ↔ P t := Iff.rfl
@[simp] theorem grown_leaves_full {P : State → Prop} : Grown.full.Leaves P ↔ True := Iff.rfl

theorem leaves_cowLast (s : State) (id pool fuel : Nat) : (cowLast s id pool fuel).Leaves fun t => steady t = steady s := by
  induction fuel generalizing s with
  | zero => rfl
  | succ fuel ih =>
    unfold cowLast
    split
    · split
      · rfl
      split
      · rfl
      split
      · split
        next placed =>
          refine Eq.trans ?_ (steady_of_placeSet placed)
          split <;> simp
        · split
          next v _ => simpa using ih (evictReq s v false)
          · rfl
      · rfl
    · rfl

theorem leaves_growLoop (s : State) (id pool kf vf epoch target fuel : Nat) :
    (growLoop s id pool kf vf epoch target fuel).Leaves fun t => steady t = steady s := by
  induction fuel generalizing s with
  | zero => rfl
  | succ fuel ih =>
    unfold growLoop
    split
    · split
      · rfl
      split
      · trivial
      split
      next placed =>
        rw [← steady_of_placeUpTo placed]
        split
        · rfl
        · rw [← steady_modReq]
          exact ih _
      · split
        next v _ => simpa using ih (evictReq s v false)
        · rfl
    · rfl

/-! ### The commands of the commit window (R305 to R309) -/

/-- Whatever state a command of the commit window leaves, other than a fault's, is as said. -/
def CommitRes.Leaves (r : CommitRes) (P : State → Prop) : Prop :=
  match r with
  | .fault _ => True
  | .done _ _ t => P t

@[simp] theorem commitRes_leaves_done {P : State → Prop} (res val : Nat) (t : State) :
    (CommitRes.done res val t).Leaves P ↔ P t := Iff.rfl
@[simp] theorem commitRes_leaves_fault {P : State → Prop} (code : Nat) : (CommitRes.fault code).Leaves P ↔ True := Iff.rfl

theorem leaves_commitBind (s : State) (id : Nat) (w0 : Word) : (commitBind s id w0).Leaves fun t => steady t = steady s := by
  unfold commitBind
  cases getReq s id with
  | none => trivial
  | some r =>
    dsimp only
    split
    · rfl
    split
    · rfl
    split
    · rfl
    split
    next pool _ ix m _ _ =>
      split
      · simp
      split
      · trivial
      · have copied := leaves_cowLast (setReq s id { r with bound := true, boundEpoch := bindEpochOf s ix m }) id pool 65537
        rw [steady_setReq] at copied
        generalize cowLast _ id pool 65537 = g at copied ⊢
        cases g with
        | room u =>
          have grown := leaves_growLoop u id pool (fld w0 55 52) (fld w0 51 48) (bindEpochOf s ix m) (r.kvLen + fld w0 47 32) 66000
          rw [show steady u = steady s from copied] at grown
          dsimp only
          generalize growLoop u _ _ _ _ _ _ _ = h at grown ⊢
          cases h with
          | room v => simpa using grown
          | none v => simpa using grown
          | full => rfl
        | none u => simpa using copied
        | full => rfl
    · simp

theorem leaves_commitEmit (s : State) (id : Nat) (w0 w1 : Word) :
    (commitEmit s id w0 w1).Leaves fun t => steady t = steady s := by
  unfold commitEmit
  dsimp only
  repeat' split
  all_goals simp

theorem leaves_commitDraft (s : State) (id : Nat) (w0 w1 : Word) :
    (commitDraft s id w0 w1).Leaves fun t => steady t = steady s := by
  unfold commitDraft
  dsimp only
  repeat' split
  all_goals simp

theorem leaves_commitAccept (s : State) (id : Nat) (w0 : Word) :
    (commitAccept s id w0).Leaves fun t => steady t = steady s := by
  unfold commitAccept
  repeat' split
  all_goals simp

theorem leaves_commitRollback (s : State) (id : Nat) (w0 : Word) :
    (commitRollback s id w0).Leaves fun t => steady t = steady s := by
  unfold commitRollback
  repeat' split
  all_goals simp

theorem leaves_commitPrefilled (s : State) (id : Nat) : (commitPrefilled s id).Leaves fun t => steady t = steady s := by
  unfold commitPrefilled
  dsimp only
  repeat' split
  all_goals simp

theorem leaves_commitUnbind (s : State) (id : Nat) : (commitUnbind s id).Leaves fun t => steady t = steady s := by
  unfold commitUnbind
  repeat' split
  all_goals simp

theorem leaves_commitFail (s : State) (id : Nat) (w1 : Word) : (commitFail s id w1).Leaves fun t => steady t = steady s := by
  unfold commitFail
  dsimp only
  repeat' split
  all_goals simp

theorem leaves_commitCommand (s : State) (n id : Nat) (w0 w1 : Word) :
    (commitCommand s n id w0 w1).Leaves fun t => steady t = steady s := by
  unfold commitCommand
  split
  · trivial
  split
  · trivial
  split
  · trivial
  · rw [← steady_journal s (controlCoreOf n) 3 id true]
    dsimp only
    split
    · exact leaves_commitBind _ _ _
    · exact leaves_commitEmit _ _ _ _
    · exact leaves_commitDraft _ _ _ _
    · exact leaves_commitAccept _ _ _
    · exact leaves_commitRollback _ _ _
    · exact leaves_commitPrefilled _ _
    · exact leaves_commitUnbind _ _
    · exact leaves_commitFail _ _ _
    · trivial

theorem steady_of_regainPrefix {s t : State} {r : Request} (h : regainPrefix s r = some t) : steady t = steady s := by
  unfold regainPrefix at h
  revert h
  generalize (r.pfxSets.filter fun i => !r.sets.contains i) = l
  induction l generalizing s with
  | nil =>
    intro h
    cases h
    rfl
  | cons i l ih =>
    intro h
    rw [List.foldl_cons, Option.bind_some] at h
    split at h
    · exact (ih h).trans (steady_refSet _ _ _)
    · have gone : ∀ l : List Nat, l.foldl (fun o i => o.bind fun s : State =>
          if (tfind s.rollout.sets i).isSome then some (refSet s i true) else none) none = none := fun l => by
        induction l with
        | nil => rfl
        | cons i l ih => exact ih
      rw [gone] at h
      cases h

theorem leaves_commitDispatch (s : State) (n : Nat) (w0 : Word) :
    (commitDispatch s n w0).Leaves fun t => steady t = steady s := by
  unfold commitDispatch commitFetch
  split
  · split
    · simp
    split
    · simp
    split
    · simp
    next regained =>
      rw [← steady_journal s (controlCoreOf n) 3 0x10000 true, ← steady_of_regainPrefix regained]
      dsimp only
      split <;> simp
  · trivial

/-! ### The frames in which commands run -/

theorem settingsAfter_runInstr {row : Row} {a : Agent} {w : Word} {body : Nat → State → IRes} {s : State}
    (left : ∀ n, (body n s).Leaves fun t => steady t = steady s) :
    settingsAfter (runInstr row a w body s) = some (steady s).settings := by
  unfold runInstr
  split
  · rfl
  next n _ =>
    split
    · simp [steady_issue (left n)]
    · rfl

@[simp] theorem leaves_ite {c : Prop} [Decidable c] {r q : IRes} {P : State → Prop} :
    (if c then r else q).Leaves P ↔ if c then r.Leaves P else q.Leaves P := by
  split <;> rfl

@[simp] theorem leaves_onCore {a : Agent} {f : Nat → Nat → IRes} {P : State → Prop} (left : ∀ c t, (f c t).Leaves P) :
    (onCore a f).Leaves P := by
  cases a with
  | thread c t => exact left c t
  | ctl n => trivial

@[simp] theorem leaves_afterSlot {a : Agent} {f : State → IRes} {s : State} (left : (f s).Leaves fun t => steady t = steady s) :
    (afterSlot a f s).Leaves fun t => steady t = steady s := by
  unfold afterSlot
  split
  · rfl
  · exact left

theorem steady_of_guardSp {s t : State} {c thr : Nat} {reads writes : List (Nat × Nat)} (h : guardSp s c thr reads writes = .ok t) :
    steady t = steady s := by
  obtain ⟨y, -, rfl⟩ := guardSp_keeps (dst := 0) (out := fun _ => True) h
  exact steady_setCore s c y

@[simp] theorem leaves_guarded_steady {s : State} {c thr : Nat} {reads writes : List (Nat × Nat)} {f : State → IRes}
    (left : ∀ s, (f s).Leaves fun t => steady t = steady s) :
    (guarded s (guardSp s c thr reads writes) f).Leaves fun t => steady t = steady s := by
  unfold guarded
  split
  next ok =>
    rw [← steady_of_guardSp ok]
    exact left _
  · rfl
  · trivial

section
variable {P : State → Prop}

@[simp] theorem leaves_descFault : descFault.Leaves P ↔ True := Iff.rfl
@[simp] theorem leaves_epochFault : epochFault.Leaves P ↔ True := Iff.rfl

end

@[simp] theorem leaves_doneRc {s t : State} {a : Agent} {w : Word} {rc : Nat} :
    (doneRc t a w rc).Leaves (fun u => steady u = steady s) ↔ steady t = steady s := by simp [doneRc]

@[simp] theorem leaves_doneEpe {s t : State} {a : Agent} {epe v : Bool} {sel : Nat} :
    (doneEpe t a epe sel v).Leaves (fun u => steady u = steady s) ↔ steady t = steady s := by simp [doneEpe]

@[simp] theorem leaves_parkThen {s t : State} {a : Agent} {cause : Nat} {w : Park} {f : State → State}
    (kept : ∀ s, steady (f s) = steady s) :
    (parkThen t a cause w f).Leaves (fun u => steady u = steady s) ↔ steady t = steady s := by simp [parkThen, kept]

@[simp] theorem leaves_issueReqs (s : State) (a : Agent) (c : Nat) (g : Option Nat) (reqs : List MReq) :
    (issueReqs s a c g reqs).Leaves fun t => steady t = steady s := by
  unfold issueReqs
  dsimp only
  repeat' split
  all_goals simp

@[simp] theorem leaves_qsendRun (s : State) (a : Agent) (n c thr ep off words : Nat) (w : Word) :
    (qsendRun s a n c thr ep off words w).Leaves fun t => steady t = steady s := by
  unfold qsendRun
  dsimp only
  repeat' split
  all_goals simp

@[simp] theorem leaves_barArrive (s : State) (n b count : Nat) (a : Agent) :
    (barArrive s n b count a).Leaves fun t => steady t = steady s := by
  unfold barArrive
  dsimp only
  repeat' split
  all_goals simp

theorem leaves_sendContribs {s u : State} (kept : steady u = steady s) (c t n sess g tag : Nat) (x : Session) (tile : Tile)
    (gs : List (Nat × Nat × Nat)) : (sendContribs u c t n sess g tag x tile gs).Leaves fun v => steady v = steady s := by
  unfold sendContribs
  dsimp only
  split <;> simp [kept]

@[simp] theorem leaves_updopBody (op : Nat) (a : Agent) (w : Word) (n : Nat) (s : State) :
    (updopBody op a w n s).Leaves fun t => steady t = steady s := by
  unfold updopBody
  dsimp only
  repeat' split
  all_goals simp

@[simp] theorem leaves_ctlLoad (s : State) (a : Agent) (n va : Nat) (w : Word) :
    (ctlLoad s a n va w).Leaves fun t => steady t = steady s := by
  unfold ctlLoad
  repeat' split
  all_goals simp

@[simp] theorem leaves_notifyStore (s : State) (n va : Nat) (v : Word) :
    (notifyStore s n va v).Leaves fun t => steady t = steady s := by
  unfold notifyStore
  dsimp only
  repeat' split
  all_goals simp

@[simp] theorem settingsAfter_doorbell (p : Nat) (c : Instr) (s : State) :
    settingsAfter (doorbell p c s) = some (steady s).settings := by
  unfold doorbell
  repeat' split
  all_goals simp

theorem leaves_slotResult {n id va : Nat} {w0 : Word} {r : CommitRes} {s : State} (left : r.Leaves fun t => steady t = steady s) :
    (slotResult n id va w0 r).Leaves fun t => steady t = steady s := by
  unfold slotResult
  cases r with
  | fault code => trivial
  | done res val t => simpa using left

theorem steady_servingEnd {s : State} (n : Nat) {r : IRes} (left : r.Leaves fun t => steady t = steady s) :
    steady (servingEnd s n r) = steady s := by
  unfold servingEnd
  cases r with
  | done t => exact left
  | fault code addr own => simp
  | _ => rfl

theorem leaves_dispatchResult {n va : Nat} {w0 : Word} {r : CommitRes} {s : State} (left : r.Leaves fun t => steady t = steady s) :
    (dispatchResult n va w0 r).Leaves fun t => steady t = steady s := by
  unfold dispatchResult
  cases r with
  | fault code => trivial
  | done res val t => simpa using left

theorem leaves_slotStore (s : State) (n va : Nat) (v : Word) : (slotStore s n va v).Leaves fun t => steady t = steady s := by
  unfold slotStore
  dsimp only
  split
  · trivial
  · split
    · exact leaves_slotResult (leaves_commitCommand _ _ _ _ _)
    · simp
    · trivial

theorem leaves_of_windowStore {s : State} {n va : Nat} {v : Word} {r : IRes} (h : windowStore s n va v = some r) :
    r.Leaves fun t => steady t = steady s := by
  unfold windowStore at h
  split at h
  · cases h
    exact leaves_notifyStore s n va v
  split at h
  · cases h
    exact leaves_slotStore s n va v
  split at h
  · cases h
    split
    · exact leaves_dispatchResult (leaves_commitDispatch s n v)
    · split <;> simp
  · split at h
    · cases h
      trivial
    · cases h

@[simp] theorem leaves_ctlStore (s : State) (a : Agent) (n va : Nat) (v : Word) :
    (ctlStore s a n va v).Leaves fun t => steady t = steady s := by
  unfold ctlStore
  split
  next stored => exact leaves_of_windowStore stored
  · split <;> simp

@[simp] theorem settingsAfter_serving (op n req : Nat) (w0 : Word) (w1 : Option Word) (s : State) :
    settingsAfter (serving op n req w0 w1 s) = some (steady s).settings := by
  unfold serving
  split
  · simp [steady_servingEnd n (leaves_slotResult (leaves_commitCommand _ _ _ _ _))]
  · rfl

/-- Whatever state a command of a command ring leaves is as said. -/
def CmdEnd.Leaves (r : CmdEnd) (P : State → Prop) : Prop :=
  match r with
  | .done t _ _ => P t
  | .wait t => P t

@[simp] theorem cmdEnd_leaves_done {P : State → Prop} (t : State) (res detail : Nat) :
    (CmdEnd.done t res detail).Leaves P ↔ P t := Iff.rfl
@[simp] theorem cmdEnd_leaves_wait {P : State → Prop} (t : State) : (CmdEnd.wait t).Leaves P ↔ P t := Iff.rfl

@[simp] theorem leaves_onCtx {s : State} {p : Nat} {f : Nat → CmdEnd} (left : ∀ n, (f n).Leaves fun t => steady t = steady s) :
    (onCtx s p f).Leaves fun t => steady t = steady s := by
  unfold onCtx
  dsimp only
  split
  · exact left _
  · rfl

@[simp] theorem leaves_refuseCreate (s : State) (p result : Nat) :
    (refuseCreate s p result).Leaves fun t => steady t = steady s := by simp [refuseCreate]

theorem settingsAfter_runCommand {op part : Nat} {body : State → CmdEnd} {s : State}
    (left : ∀ s, (body s).Leaves fun t => steady t = steady s) :
    settingsAfter (runCommand op part body s) = some (steady s).settings := by
  unfold runCommand
  split
  · rfl
  split
  · rfl
  · dsimp only
    split
    · simp
    split
    · simp
    · have kept := left (commandLogged s part)
      rw [commandLogged] at kept
      split
      all_goals
        next ended =>
          rw [ended] at kept
          simpa using congrArg Steady.settings kept

section
variable {s : State} {f : State → State} (kept : (steady (f s)).settings = (steady s).settings)
include kept

@[simp] theorem settingsAfter_onSpdm : settingsAfter (onSpdm s f) = some (steady s).settings := by
  unfold onSpdm
  split
  · exact congrArg some kept
  · rfl

@[simp] theorem settingsAfter_onSmb : settingsAfter (onSmb s f) = some (steady s).settings := by
  unfold onSmb
  split
  · rfl
  · exact congrArg some kept

@[simp] theorem settings_smbTake (code : Byte) (bs : List Byte) (pec : Option Byte) :
    (steady (smbTake s code bs pec f)).settings = (steady s).settings := by
  unfold smbTake
  split
  · simpa using kept
  · simp

@[simp] theorem settings_negotiated (k : Nat) : (steady (negotiated s k f)).settings = (steady s).settings := by
  unfold negotiated
  split
  · simp
  · exact kept

@[simp] theorem settings_secured : (steady (secured s f)).settings = (steady s).settings := by
  unfold secured
  split
  · simp
  · exact kept

@[simp] theorem settings_inSession : (steady (inSession s f)).settings = (steady s).settings := by
  unfold inSession
  refine settings_secured ?_
  split
  · simp
  · exact kept

end

@[simp] theorem steady_readBody (s : State) (pa : Nat) : steady (readBody s pa).2 = steady s := by
  unfold readBody
  dsimp only
  repeat' split
  all_goals simp

@[simp] theorem steady_sigOf (s : State) (x : CrSlot) : steady (sigOf s x).2 = steady s := by
  unfold sigOf
  dsimp only
  repeat' split
  all_goals simp

end Machine
end Sys2Proof
end

section
/-! What the commands of Rollout, Models, Doorbells, Summary, Firing, Partition, MemEvents, Ports, Movement, Collectives,
Update, Recover, Firmware, Queues, Clock leave of the settings. -/
namespace Sys2Proof
namespace Machine

/-! ### Machine/Rollout.lean -/

@[simp] theorem settingsAfter_execRingPoll (req : Nat) (s : State) :
    settingsAfter (execRingPoll req s) = some (steady s).settings := by
  unfold execRingPoll
  repeat' split
  all_goals simp

@[simp] theorem settingsAfter_execDeadlineMonitor (req : Nat) (s : State) :
    settingsAfter (execDeadlineMonitor req s) = some (steady s).settings := by
  unfold execDeadlineMonitor
  repeat' split
  all_goals simp

/-! ### Machine/Models.lean -/

@[simp] theorem settingsAfter_execLayerLoaded (model : Nat) (s : State) :
    settingsAfter (execLayerLoaded model s) = some (steady s).settings := by
  unfold execLayerLoaded
  dsimp only
  repeat' split
  all_goals simp

@[simp] theorem settingsAfter_execSourceReadFail (f : SourceFail) (s : State) :
    settingsAfter (execSourceReadFail f s) = some (steady s).settings := by
  unfold execSourceReadFail
  dsimp only
  repeat' split
  all_goals simp

@[simp] theorem settingsAfter_execLayerStaged (model : Nat) (s : State) :
    settingsAfter (execLayerStaged model s) = some (steady s).settings := by
  unfold execLayerStaged
  repeat' split
  all_goals simp

@[simp] theorem settingsAfter_execLayerInstall (model : Nat) (s : State) :
    settingsAfter (execLayerInstall model s) = some (steady s).settings := by
  unfold execLayerInstall
  split
  · rfl
  next m _ =>
    split
    · rfl
    next l _ =>
      split
      · split
        next at_ _ =>
          refine congrArg some (congrArg Steady.settings ((steady_setModel _ _ _).trans (steady_foldl _ _ fun s g => ?_)))
          have read := steady_readGrain s (spacePa m.stagePages (256 * (at_ + g)))
          generalize readGrain s _ = r at read ⊢
          obtain ⟨data, tag, t⟩ := r
          exact (steady_writeGrain _ _ _ _).trans read
        · split <;> simp
      · rfl

@[simp] theorem settingsAfter_execLayerInstalled (model : Nat) (s : State) :
    settingsAfter (execLayerInstalled model s) = some (steady s).settings := by
  unfold execLayerInstalled
  repeat' split
  all_goals simp

@[simp] theorem settingsAfter_execReplaceRetry (model : Nat) (s : State) :
    settingsAfter (execReplaceRetry model s) = some (steady s).settings := by
  unfold execReplaceRetry
  repeat' split
  all_goals simp

@[simp] theorem settingsAfter_execUseDecay (s : State) : settingsAfter (execUseDecay s) = some (steady s).settings := by
  unfold execUseDecay
  split <;> simp

/-! ### Machine/Doorbells.lean -/

@[simp] theorem settingsAfter_execSubmit (part slot : Nat) (s : State) :
    settingsAfter (execSubmit part slot s) = some (steady s).settings := by simp [execSubmit]

@[simp] theorem settingsAfter_execCancel (part slot : Nat) (s : State) :
    settingsAfter (execCancel part slot s) = some (steady s).settings := by simp [execCancel]

@[simp] theorem settingsAfter_execKick (part slot : Nat) (s : State) :
    settingsAfter (execKick part slot s) = some (steady s).settings := by simp [execKick]

@[simp] theorem settingsAfter_execPfxRelease (part : Nat) (handle : Word) (s : State) :
    settingsAfter (execPfxRelease part handle s) = some (steady s).settings := by simp [execPfxRelease]

@[simp] theorem settingsAfter_execLoad (part slot : Nat) (s : State) :
    settingsAfter (execLoad part slot s) = some (steady s).settings := by simp [execLoad]

@[simp] theorem settingsAfter_execUnload (part slot : Nat) (s : State) :
    settingsAfter (execUnload part slot s) = some (steady s).settings := by simp [execUnload]

@[simp] theorem settingsAfter_execReplace (part slot : Nat) (s : State) :
    settingsAfter (execReplace part slot s) = some (steady s).settings := by simp [execReplace]

@[simp] theorem settingsAfter_execAttach (part slot ctx : Nat) (serve : Bool) (s : State) :
    settingsAfter (execAttach part slot ctx serve s) = some (steady s).settings := by simp [execAttach]

@[simp] theorem settingsAfter_execDetach (part slot ctx : Nat) (s : State) :
    settingsAfter (execDetach part slot ctx s) = some (steady s).settings := by simp [execDetach]

@[simp] theorem settingsAfter_execDoorbellReservedOp (models : Bool) (part : Nat) (value : Word) (s : State) :
    settingsAfter (execDoorbellReservedOp models part value s) = some (steady s).settings := by simp [execDoorbellReservedOp]

/-! ### Machine/Summary.lean -/

@[simp] theorem settingsAfter_execSummaryArrive (ctx core : Nat) (s : State) :
    settingsAfter (execSummaryArrive ctx core s) = some (steady s).settings := by
  unfold execSummaryArrive
  repeat' split
  all_goals simp

/-! ### Machine/Firing.lean -/

@[simp] theorem settingsAfter_execBlockBind (core : Nat) (s : State) :
    settingsAfter (execBlockBind core s) = some (steady s).settings := by
  unfold execBlockBind
  dsimp only
  repeat' split
  all_goals simp

@[simp] theorem settingsAfter_execLoadProceed (ctx core : Nat) (s : State) :
    settingsAfter (execLoadProceed ctx core s) = some (steady s).settings := by
  unfold execLoadProceed
  split
  · rfl
  next j _ =>
    have read := steady_readProgram s ctx core j.va
    dsimp only
    split
    · rfl
    split
    · simp
    · generalize readProgram s ctx core j.va = r at read ⊢
      obtain ⟨image, t⟩ := r
      cases image with
      | ok im =>
        dsimp only
        split <;> simpa using congrArg Steady.settings read
      | error e =>
        dsimp only
        split <;> simpa using congrArg Steady.settings read

@[simp] theorem settingsAfter_execStarvationFault (core : Nat) (s : State) :
    settingsAfter (execStarvationFault core s) = some (steady s).settings := by
  unfold execStarvationFault
  dsimp only
  repeat' split
  all_goals simp

@[simp] theorem settingsAfter_execCoreClockGate (core : Nat) (s : State) :
    settingsAfter (execCoreClockGate core s) = some (steady s).settings := by
  unfold execCoreClockGate
  dsimp only
  repeat' split
  all_goals simp

@[simp] theorem settingsAfter_execQueueWordLand (core ep : Nat) (s : State) :
    settingsAfter (execQueueWordLand core ep s) = some (steady s).settings := by
  unfold execQueueWordLand
  dsimp only
  repeat' split
  all_goals simp

@[simp] theorem settingsAfter_execCreditArrive (core ep : Nat) (s : State) :
    settingsAfter (execCreditArrive core ep s) = some (steady s).settings := by
  unfold execCreditArrive
  dsimp only
  repeat' split
  all_goals simp

/-! ### Machine/Partition.lean -/

@[simp] theorem settingsAfter_execMsixSend (part vec : Nat) (s : State) :
    settingsAfter (execMsixSend part vec s) = some (steady s).settings := by
  unfold execMsixSend
  split <;> simp

@[simp] theorem settingsAfter_execCmdNop (part : Nat) (s : State) :
    settingsAfter (execCmdNop part s) = some (steady s).settings := settingsAfter_runCommand fun s => by simp

@[simp] theorem settingsAfter_execReservedCommand (part : Nat) (s : State) :
    settingsAfter (execReservedCommand part s) = some (steady s).settings := by
  unfold execReservedCommand
  dsimp only
  split
  · rfl
  · exact settingsAfter_runCommand fun s => rfl

@[simp] theorem settingsAfter_execCreate (part : Nat) (s : State) :
    settingsAfter (execCreate part s) = some (steady s).settings := by
  unfold execCreate
  split
  · simp
  · exact settingsAfter_runCommand fun s => by
      dsimp only
      repeat' split
      all_goals simp

@[simp] theorem settingsAfter_execRun (part : Nat) (s : State) : settingsAfter (execRun part s) = some (steady s).settings := by
  refine settingsAfter_runCommand fun s => ?_
  generalize cmdWord s part 2 = va
  dsimp only
  split
  · rfl
  · exact leaves_onCtx fun n => by split <;> simp

@[simp] theorem settingsAfter_execDestroy (part : Nat) (s : State) :
    settingsAfter (execDestroy part s) = some (steady s).settings :=
  settingsAfter_runCommand fun s => leaves_onCtx fun n => by
    dsimp only
    repeat' split
    all_goals simp

@[simp] theorem settingsAfter_execMap (part : Nat) (s : State) : settingsAfter (execMap part s) = some (steady s).settings := by
  refine settingsAfter_runCommand fun s => ?_
  generalize cmdWord s part 2 = va
  generalize cmdWord s part 3 = pa
  generalize cmdWord s part 4 = ctl
  dsimp only
  split
  · rfl
  · apply leaves_onCtx
    intro n
    repeat' split
    all_goals simp

@[simp] theorem settingsAfter_execUnmap (part : Nat) (s : State) :
    settingsAfter (execUnmap part s) = some (steady s).settings := by
  refine settingsAfter_runCommand fun s => ?_
  generalize cmdWord s part 2 = va
  dsimp only
  split
  · rfl
  · exact leaves_onCtx fun n => by split <;> simp

@[simp] theorem settingsAfter_execPost (part : Nat) (s : State) : settingsAfter (execPost part s) = some (steady s).settings :=
  settingsAfter_runCommand fun s => by
    dsimp only
    split
    · simp
    · apply leaves_onCtx
      intro n
      split <;> simp

@[simp] theorem settingsAfter_execTeardownComplete (ctx : Nat) (s : State) :
    settingsAfter (execTeardownComplete ctx s) = some (steady s).settings := by
  unfold execTeardownComplete
  split <;> simp

@[simp] theorem settingsAfter_execTeardownRead (part : Nat) (s : State) :
    settingsAfter (execTeardownRead part s) = some (steady s).settings := by
  unfold execTeardownRead
  repeat' split
  all_goals simp

@[simp] theorem settingsAfter_execQuantumBoundary (s : State) :
    settingsAfter (execQuantumBoundary s) = some (steady s).settings := by
  unfold execQuantumBoundary
  split <;> simp

@[simp] theorem settingsAfter_execContextSaved (ctx : Nat) (s : State) :
    settingsAfter (execContextSaved ctx s) = some (steady s).settings := by
  unfold execContextSaved
  dsimp only
  repeat' split
  all_goals simp

@[simp] theorem settingsAfter_execContextRestored (ctx : Nat) (s : State) :
    settingsAfter (execContextRestored ctx s) = some (steady s).settings := by
  unfold execContextRestored
  dsimp only
  repeat' split
  all_goals simp

@[simp] theorem settingsAfter_execPartitionReset (part : Nat) (s : State) :
    settingsAfter (execPartitionReset part s) = some (steady s).settings := by
  unfold execPartitionReset
  split <;> simp

/-! ### Machine/MemEvents.lean -/

@[simp] theorem settingsAfter_execGrainResponse (req : Nat) (corrupt : Bool) (s : State) :
    settingsAfter (execGrainResponse req corrupt s) = some (steady s).settings := by
  unfold execGrainResponse
  dsimp only
  repeat' split
  all_goals simp

@[simp] theorem settingsAfter_execWriteAck (req : Nat) (s : State) :
    settingsAfter (execWriteAck req s) = some (steady s).settings := by
  unfold execWriteAck
  dsimp only
  repeat' split
  all_goals simp

@[simp] theorem settingsAfter_execBankServe (bank : Nat) (s : State) :
    settingsAfter (execBankServe bank s) = some (steady s).settings := by
  unfold execBankServe
  dsimp only
  repeat' split
  all_goals simp

@[simp] theorem settingsAfter_execBackInvalidate (line : Nat) (s : State) :
    settingsAfter (execBackInvalidate line s) = some (steady s).settings := by simp [execBackInvalidate]

@[simp] theorem settingsAfter_execTierLate (req : Nat) (s : State) :
    settingsAfter (execTierLate req s) = some (steady s).settings := by
  unfold execTierLate
  repeat' split
  all_goals simp

@[simp] theorem settingsAfter_execMemUncorrectable (pa : Nat) (s : State) :
    settingsAfter (execMemUncorrectable pa s) = some (steady s).settings := by
  unfold execMemUncorrectable
  dsimp only
  repeat' split
  all_goals simp

@[simp] theorem settingsAfter_execRefetchDone (pa : Nat) (s : State) :
    settingsAfter (execRefetchDone pa s) = some (steady s).settings := by
  unfold execRefetchDone
  dsimp only
  repeat' split
  all_goals simp

@[simp] theorem settingsAfter_execPatrolScrub (pa : Nat) (corrected : Bool) (s : State) :
    settingsAfter (execPatrolScrub pa corrected s) = some (steady s).settings := by
  unfold execPatrolScrub
  repeat' split
  all_goals simp

@[simp] theorem settingsAfter_execMemreq (src txn : Nat) (span : GrainSpan) (isWrite : Bool) (s : State) :
    settingsAfter (execMemreq src txn span isWrite s) = some (steady s).settings := by
  unfold execMemreq
  dsimp only
  repeat' split
  all_goals simp

@[simp] theorem settingsAfter_execMemdata (src txn : Nat) (data : List Byte) (format part : Nat) (poison : Bool) (s : State) :
    settingsAfter (execMemdata src txn data format part poison s) = some (steady s).settings := by
  unfold execMemdata
  dsimp only
  repeat' split
  all_goals simp

@[simp] theorem settingsAfter_execMemack (src txn code : Nat) (s : State) :
    settingsAfter (execMemack src txn code s) = some (steady s).settings := by
  unfold execMemack
  repeat' split
  all_goals simp

@[simp] theorem settingsAfter_execTier4Completion (req : Nat) (ok poison : Bool) (s : State) :
    settingsAfter (execTier4Completion req ok poison s) = some (steady s).settings := by
  unfold execTier4Completion
  repeat' split
  all_goals simp

@[simp] theorem settingsAfter_execHostSnoop (addr : Nat) (s : State) :
    settingsAfter (execHostSnoop addr s) = some (steady s).settings := by
  unfold execHostSnoop
  split <;> simp

/-! ### Machine/Ports.lean -/

@[simp] theorem settingsAfter_execPortEnable (port : Nat) (on : Bool) (s : State) :
    settingsAfter (execPortEnable port on s) = some (steady s).settings := by
  unfold execPortEnable
  dsimp only
  repeat' split
  all_goals simp

@[simp] theorem settingsAfter_execPortRetrain (port : Nat) (s : State) :
    settingsAfter (execPortRetrain port s) = some (steady s).settings := by
  unfold execPortRetrain
  split <;> simp

@[simp] theorem settingsAfter_execSignalDetect (port : Nat) (lanes : BitVec 18) (s : State) :
    settingsAfter (execSignalDetect port lanes s) = some (steady s).settings := by
  unfold execSignalDetect
  split <;> simp

@[simp] theorem settingsAfter_execTrainComplete (port : Nat) (pass best8 : BitVec 18) (s : State) :
    settingsAfter (execTrainComplete port pass best8 s) = some (steady s).settings := by
  unfold execTrainComplete
  repeat' split
  all_goals simp

@[simp] theorem settingsAfter_execRetrainComplete (port : Nat) (ok : Bool) (pass best8 : BitVec 18) (s : State) :
    settingsAfter (execRetrainComplete port ok pass best8 s) = some (steady s).settings := by
  unfold execRetrainComplete
  dsimp only
  repeat' split
  all_goals simp

@[simp] theorem settingsAfter_execPortDownTimeout (port : Nat) (s : State) :
    settingsAfter (execPortDownTimeout port s) = some (steady s).settings := by
  unfold execPortDownTimeout
  dsimp only
  repeat' split
  all_goals simp

@[simp] theorem settingsAfter_execLaneErrorInterval (port : Nat) (counts : List Nat) (s : State) :
    settingsAfter (execLaneErrorInterval port counts s) = some (steady s).settings := by
  unfold execLaneErrorInterval
  dsimp only
  repeat' split
  all_goals simp

@[simp] theorem settingsAfter_execLaneSignalLoss (port lane : Nat) (s : State) :
    settingsAfter (execLaneSignalLoss port lane s) = some (steady s).settings := by
  unfold execLaneSignalLoss
  dsimp only
  repeat' split
  all_goals simp

@[simp] theorem settingsAfter_execLaneSwap (port lane : Nat) (s : State) :
    settingsAfter (execLaneSwap port lane s) = some (steady s).settings := by
  unfold execLaneSwap
  dsimp only
  repeat' split
  all_goals simp

@[simp] theorem settingsAfter_execFecGroupReceive (port : Nat) (g : FecGroup) (s : State) :
    settingsAfter (execFecGroupReceive port g s) = some (steady s).settings := by
  unfold execFecGroupReceive
  dsimp only
  repeat' split
  all_goals simp

@[simp] theorem settingsAfter_execReservedFlit (port : Nat) (s : State) :
    settingsAfter (execReservedFlit port s) = some (steady s).settings := by
  unfold execReservedFlit
  split <;> simp

@[simp] theorem settingsAfter_execHello (h : HelloMsg) (s : State) :
    settingsAfter (execHello h s) = some (steady s).settings := by
  unfold execHello
  dsimp only
  repeat' split
  all_goals simp

@[simp] theorem settingsAfter_execRejoin (s : State) : settingsAfter (execRejoin s) = some (steady s).settings := by
  have greeted : steady ((List.range 8).foldl (fun s p => if isActive s p then greet s p else s) (rejoin s)) = steady s := by
    refine (steady_foldl _ _ fun s p => ?_).trans (steady_rejoin s)
    split <;> simp
  unfold execRejoin
  split
  · rfl
  · simp [greeted]

/-! ### Machine/Movement.lean -/

@[simp] theorem settingsAfter_execLdt (a : Agent) (w : Word) (s : State) :
    settingsAfter (execLdt a w s) = some (steady s).settings :=
  settingsAfter_runInstr fun n => leaves_afterSlot (leaves_onCore fun c t => by
    repeat' split
    all_goals simp)

@[simp] theorem settingsAfter_execStt (a : Agent) (w : Word) (s : State) :
    settingsAfter (execStt a w s) = some (steady s).settings :=
  settingsAfter_runInstr fun n => leaves_afterSlot (leaves_onCore fun c t => by
    repeat' split
    all_goals simp)

@[simp] theorem settingsAfter_execMovt (a : Agent) (w : Word) (s : State) :
    settingsAfter (execMovt a w s) = some (steady s).settings := settingsAfter_runInstr fun n => by
  dsimp only
  repeat' split
  all_goals simp

@[simp] theorem settingsAfter_execPfsArm (a : Agent) (w : Word) (s : State) :
    settingsAfter (execPfsArm a w s) = some (steady s).settings := settingsAfter_runInstr fun n => by split <;> simp

@[simp] theorem settingsAfter_execPfsStop (a : Agent) (w : Word) (s : State) :
    settingsAfter (execPfsStop a w s) = some (steady s).settings := settingsAfter_runInstr fun n => by
  dsimp only
  repeat' split
  all_goals simp

@[simp] theorem settingsAfter_execGatePoll (sched : Nat) (s : State) :
    settingsAfter (execGatePoll sched s) = some (steady s).settings := by
  unfold execGatePoll
  dsimp only
  repeat' split
  all_goals simp

@[simp] theorem settingsAfter_execPrefetchEntryStart (id : Nat) (s : State) :
    settingsAfter (execPrefetchEntryStart id s) = some (steady s).settings := by
  unfold execPrefetchEntryStart
  split
  · rfl
  next d _ =>
    have read := steady_readEntry s d
    split
    · rfl
    · split
      all_goals
        next ran =>
          rw [ran] at read
          have kept := congrArg Steady.settings read
          repeat' split
          all_goals simp [kept]

@[simp] theorem settingsAfter_execRcfg (a : Agent) (w : Word) (s : State) :
    settingsAfter (execRcfg a w s) = some (steady s).settings := settingsAfter_runInstr fun n => leaves_onCore fun c t => by
  dsimp only
  repeat' split
  all_goals simp

@[simp] theorem settingsAfter_execRingCommit (a : Agent) (w : Word) (s : State) :
    settingsAfter (execRingCommit a w s) = some (steady s).settings :=
  settingsAfter_runInstr fun n => leaves_onCore fun c t => by
  dsimp only
  split <;> simp

@[simp] theorem settingsAfter_execRingRelease (a : Agent) (w : Word) (s : State) :
    settingsAfter (execRingRelease a w s) = some (steady s).settings :=
  settingsAfter_runInstr fun n => leaves_onCore fun c t => by
  dsimp only
  repeat' split
  all_goals simp

@[simp] theorem settingsAfter_execRingSwap (a : Agent) (w : Word) (s : State) :
    settingsAfter (execRingSwap a w s) = some (steady s).settings := settingsAfter_runInstr fun n => leaves_onCore fun c t => by
  dsimp only
  split <;> simp

/-! ### Machine/Collectives.lean -/

@[simp] theorem settingsAfter_execColl (a : Agent) (w : Word) (s : State) :
    settingsAfter (execColl a w s) = some (steady s).settings := settingsAfter_runInstr fun n => by
  dsimp only
  repeat' split
  all_goals simp

@[simp] theorem settingsAfter_execGflag (a : Agent) (w : Word) (s : State) :
    settingsAfter (execGflag a w s) = some (steady s).settings := settingsAfter_runInstr fun n => by
  dsimp only
  repeat' split
  all_goals simp

@[simp] theorem settingsAfter_execReshard (a : Agent) (w : Word) (s : State) :
    settingsAfter (execReshard a w s) = some (steady s).settings :=
  settingsAfter_runInstr fun n => by
    dsimp only
    split
    · rfl
    split
    next d t _ _ =>
      have read := steady_readMapRec s n (sOf s a (iSrc2 w)).toNat d t
      split
      · trivial
      split
      · trivial
      · split
        · trivial
        next ran =>
          rw [ran] at read
          repeat' split
          all_goals simp [read]
    · trivial

@[simp] theorem settingsAfter_execReshardFencePass (id : Nat) (s : State) :
    settingsAfter (execReshardFencePass id s) = some (steady s).settings := by
  unfold execReshardFencePass
  repeat' split
  all_goals simp

@[simp] theorem settingsAfter_execCommitComplete (id : Nat) (s : State) :
    settingsAfter (execCommitComplete id s) = some (steady s).settings := by
  unfold execCommitComplete
  repeat' split
  all_goals simp

@[simp] theorem settingsAfter_execColdata (d : ColData) (s : State) :
    settingsAfter (execColdata d s) = some (steady s).settings := by
  unfold execColdata
  dsimp only
  repeat' split
  all_goals simp

@[simp] theorem settingsAfter_execPeerWaitLimit (ctx step : Nat) (s : State) :
    settingsAfter (execPeerWaitLimit ctx step s) = some (steady s).settings := by
  unfold execPeerWaitLimit
  repeat' split
  all_goals simp

/-! ### Machine/Update.lean -/

@[simp] theorem settingsAfter_execUpdopOpen (a : Agent) (w : Word) (s : State) :
    settingsAfter (execUpdopOpen a w s) = some (steady s).settings := settingsAfter_runInstr fun n => by simp

@[simp] theorem settingsAfter_execUpdopNorm (a : Agent) (w : Word) (s : State) :
    settingsAfter (execUpdopNorm a w s) = some (steady s).settings := settingsAfter_runInstr fun n => by simp

@[simp] theorem settingsAfter_execUpdopStep (a : Agent) (w : Word) (s : State) :
    settingsAfter (execUpdopStep a w s) = some (steady s).settings := settingsAfter_runInstr fun n => by simp

@[simp] theorem settingsAfter_execUpdopRegen (a : Agent) (w : Word) (s : State) :
    settingsAfter (execUpdopRegen a w s) = some (steady s).settings := settingsAfter_runInstr fun n => by simp

@[simp] theorem settingsAfter_execUpdopFlush (a : Agent) (w : Word) (s : State) :
    settingsAfter (execUpdopFlush a w s) = some (steady s).settings := settingsAfter_runInstr fun n => by simp

@[simp] theorem settingsAfter_execUpdopKvgather (a : Agent) (w : Word) (s : State) :
    settingsAfter (execUpdopKvgather a w s) = some (steady s).settings := settingsAfter_runInstr fun n => by simp

@[simp] theorem settingsAfter_execUpdOpStart (op : Nat) (s : State) :
    settingsAfter (execUpdOpStart op s) = some (steady s).settings := by simp [execUpdOpStart]

@[simp] theorem settingsAfter_execSnapshotComplete (snap : Nat) (s : State) :
    settingsAfter (execSnapshotComplete snap s) = some (steady s).settings := by
  unfold execSnapshotComplete
  split <;> simp

/-! ### Machine/Recover.lean -/

@[simp] theorem settingsAfter_execCoreLost (core : Nat) (s : State) :
    settingsAfter (execCoreLost core s) = some (steady s).settings := by
  unfold execCoreLost
  repeat' split
  all_goals simp

@[simp] theorem settingsAfter_execSpareCoreReady (core : Nat) (pass : Bool) (s : State) :
    settingsAfter (execSpareCoreReady core pass s) = some (steady s).settings := by
  unfold execSpareCoreReady
  dsimp only
  repeat' split
  all_goals simp

@[simp] theorem settingsAfter_execDieLost (die : Nat) (s : State) :
    settingsAfter (execDieLost die s) = some (steady s).settings := by
  unfold execDieLost
  repeat' split
  all_goals simp

@[simp] theorem settingsAfter_execSpareDieReady (pass : Bool) (s : State) :
    settingsAfter (execSpareDieReady pass s) = some (steady s).settings := by
  unfold execSpareDieReady
  dsimp only
  split
  · split
    · refine congrArg some (congrArg Steady.settings ((steady_coresFreed _).trans ((steady_recomputeEnt _).trans
        ((steady_saveCarrier _ _).trans ((steady_logEvent _ _ _ _ _ _).trans ?_)))))
      rfl
    · simp
  · rfl

@[simp] theorem settingsAfter_execStackLost (stack : Nat) (s : State) :
    settingsAfter (execStackLost stack s) = some (steady s).settings := by
  unfold execStackLost
  repeat' split
  all_goals simp

@[simp] theorem settingsAfter_execSpareStackReady (stack : Nat) (pass : Bool) (s : State) :
    settingsAfter (execSpareStackReady stack pass s) = some (steady s).settings := by
  unfold execSpareStackReady
  dsimp only
  repeat' split
  all_goals simp

@[simp] theorem settingsAfter_execChannelLost (chan : Nat) (s : State) :
    settingsAfter (execChannelLost chan s) = some (steady s).settings := by
  unfold execChannelLost
  split <;> simp

@[simp] theorem settingsAfter_execHubPathFault (u : HubUnit) (s : State) :
    settingsAfter (execHubPathFault u s) = some (steady s).settings := by
  unfold execHubPathFault
  split <;> simp

@[simp] theorem settingsAfter_execBridgeLaneSwap (group lane : Nat) (s : State) :
    settingsAfter (execBridgeLaneSwap group lane s) = some (steady s).settings := by
  unfold execBridgeLaneSwap
  dsimp only
  repeat' split
  all_goals simp

@[simp] theorem settingsAfter_execWatchdogExpiry (cc : Nat) (s : State) :
    settingsAfter (execWatchdogExpiry cc s) = some (steady s).settings := by
  unfold execWatchdogExpiry
  split <;> simp

@[simp] theorem settingsAfter_execSramUncorrectable (place : SramPlace) (s : State) :
    settingsAfter (execSramUncorrectable place s) = some (steady s).settings := by
  unfold execSramUncorrectable
  split <;> simp

/-! ### Machine/Firmware.lean -/

@[simp] theorem settingsAfter_execFwVerify (s : State) : settingsAfter (execFwVerify s) = some (steady s).settings := by
  unfold execFwVerify
  dsimp only
  repeat' split
  all_goals simp

@[simp] theorem settingsAfter_execFwVerifyDone (s : State) : settingsAfter (execFwVerifyDone s) = some (steady s).settings := by
  unfold execFwVerifyDone
  split <;> simp

@[simp] theorem settingsAfter_execFwActivate (s : State) : settingsAfter (execFwActivate s) = some (steady s).settings := by
  unfold execFwActivate
  repeat' split
  all_goals simp

@[simp] theorem settingsAfter_execFwCoreSwitch (selfCheckOk : Bool) (s : State) :
    settingsAfter (execFwCoreSwitch selfCheckOk s) = some (steady s).settings := by
  unfold execFwCoreSwitch
  dsimp only
  repeat' split
  all_goals simp

/-! ### Machine/Queues.lean -/

@[simp] theorem settingsAfter_execQcfg (a : Agent) (w : Word) (s : State) :
    settingsAfter (execQcfg a w s) = some (steady s).settings := settingsAfter_runInstr fun n => by
  dsimp only
  repeat' split
  all_goals simp

@[simp] theorem settingsAfter_execQsend (a : Agent) (w : Word) (s : State) :
    settingsAfter (execQsend a w s) = some (steady s).settings := settingsAfter_runInstr fun n => by split <;> simp

@[simp] theorem settingsAfter_execQrecv (a : Agent) (w : Word) (s : State) :
    settingsAfter (execQrecv a w s) = some (steady s).settings := settingsAfter_runInstr fun n => leaves_onCore fun c t => by
  dsimp only
  repeat' split
  all_goals simp

@[simp] theorem settingsAfter_execQheld (a : Agent) (w : Word) (s : State) :
    settingsAfter (execQheld a w s) = some (steady s).settings := settingsAfter_runInstr fun n => leaves_onCore fun c t => by
  dsimp only
  split <;> simp

@[simp] theorem settingsAfter_execQrel (a : Agent) (w : Word) (s : State) :
    settingsAfter (execQrel a w s) = some (steady s).settings :=
  settingsAfter_runInstr fun n => leaves_onCore fun c t => by split <;> simp

@[simp] theorem settingsAfter_execQsum (a : Agent) (w : Word) (s : State) :
    settingsAfter (execQsum a w s) = some (steady s).settings := settingsAfter_runInstr fun n => by simp

/-! ### Machine/Clock.lean -/

@[simp] theorem govCompare_sustainedW (clock : Bool) (maxC : Nat) (c : Clock) (mw : Nat) :
    (govCompare clock maxC c mw).sustainedW = c.sustainedW := by
  unfold govCompare lowerStep raiseStep
  dsimp only
  repeat' split
  all_goals rfl

@[simp] theorem settingsAfter_execGovStep (mw : Nat) (s : State) :
    settingsAfter (execGovStep mw s) = some (steady s).settings := by
  unfold execGovStep
  split <;> simp

@[simp] theorem settingsAfter_execThermalSense (maxC : Nat) (s : State) :
    settingsAfter (execThermalSense maxC s) = some (steady s).settings := by
  unfold execThermalSense
  dsimp only
  repeat' split
  all_goals simp

@[simp] theorem oweDomains_sustainedW (ds : List DomainReading) (c : Clock) (key : Nat) :
    (oweDomains c key ds).2.2.sustainedW = c.sustainedW := by
  induction ds generalizing c key with
  | nil => rfl
  | cons d ds ih => exact ih (oweDomain c key d).2 (key + 1)

@[simp] theorem oweSplit_sustainedW (c : Clock) (key : Nat) (x : Split) :
    (oweSplit c key x).sustainedW = c.sustainedW := rfl

theorem settings_withClk {s : State} {c : Clock} (cap : c.sustainedW = s.clk.sustainedW) :
    (steady { s with clk := c }).settings = (steady s).settings := by
  simp only [steady, Steady.settings, cap]; rfl

@[simp] theorem settingsAfter_execMonitorCollect (uj : Nat) (ds : List DomainReading) (s : State) :
    settingsAfter (execMonitorCollect uj ds s) = some (steady s).settings := by
  unfold execMonitorCollect
  split
  · rfl
  · have charged : steady (noteCorrected (ds.foldl chargeCycles s) ds) = steady s := by simp
    generalize noteCorrected (ds.foldl chargeCycles s) ds = u at charged ⊢
    refine congrArg some ((congrArg Steady.settings (steady_payOut _ _)).trans ((settings_withClk ?_).trans
        (congrArg Steady.settings charged)))
    simp

@[simp] theorem settingsAfter_execOscFail (oscB : Bool) (s : State) :
    settingsAfter (execOscFail oscB s) = some (steady s).settings := by
  unfold execOscFail
  dsimp only
  repeat' split
  all_goals simp

@[simp] theorem settingsAfter_execPllStop (die : Nat) (s : State) :
    settingsAfter (execPllStop die s) = some (steady s).settings := by
  unfold execPllStop
  dsimp only
  repeat' split
  all_goals simp

@[simp] theorem settingsAfter_execPllStable (die : Nat) (s : State) :
    settingsAfter (execPllStable die s) = some (steady s).settings := by
  unfold execPllStable
  dsimp only
  repeat' split
  all_goals simp

@[simp] theorem settingsAfter_execTickLoRead (s : State) : settingsAfter (execTickLoRead s) = some (steady s).settings := by
  unfold execTickLoRead
  split <;> simp

@[simp] theorem settingsAfter_execGovStatusRead (s : State) :
    settingsAfter (execGovStatusRead s) = some (steady s).settings := by
  unfold execGovStatusRead
  split <;> simp

@[simp] theorem settingsAfter_execKeepWarmWrite (die : Nat) (value : Word32) (s : State) :
    settingsAfter (execKeepWarmWrite die value s) = some (steady s).settings := by
  unfold execKeepWarmWrite
  split <;> simp

end Machine
end Sys2Proof
end

section
/-! What the commands of HostLink, Sync, Bringup, Change, Control, Matrix, Ordered, PowerStates, Serving, Sessions, Spdm,
Vector leave of the settings. -/
namespace Sys2Proof
namespace Machine

/-! ### Machine/HostLink.lean -/

@[simp] theorem settingsAfter_execHdmRead (pa : Nat) (s : State) :
    settingsAfter (execHdmRead pa s) = some (steady s).settings := by simp [execHdmRead]

@[simp] theorem settingsAfter_execHdmWrite (pa : Nat) (data : List Byte) (s : State) :
    settingsAfter (execHdmWrite pa data s) = some (steady s).settings := by simp [execHdmWrite]

@[simp] theorem settingsAfter_execDecoderCommit (dec ways : Nat) (s : State) :
    settingsAfter (execDecoderCommit dec ways s) = some (steady s).settings := by
  unfold execDecoderCommit
  repeat' split
  all_goals simp

@[simp] theorem settingsAfter_execFlrVf (n : Nat) (s : State) : settingsAfter (execFlrVf n s) = some (steady s).settings := by
  unfold execFlrVf
  split <;> simp

@[simp] theorem settingsAfter_execFlrPf (s : State) : settingsAfter (execFlrPf s) = some (steady s).settings := by
  unfold execFlrPf
  split <;> simp

@[simp] theorem settingsAfter_execVfEnableClear (s : State) :
    settingsAfter (execVfEnableClear s) = some (steady s).settings := by
  unfold execVfEnableClear
  split <;> simp

@[simp] theorem settingsAfter_execDlDown (s : State) : settingsAfter (execDlDown s) = some (steady s).settings := by
  unfold execDlDown
  split <;> simp

@[simp] theorem settingsAfter_execIdeFail (s : State) : settingsAfter (execIdeFail s) = some (steady s).settings := by
  unfold execIdeFail
  split <;> simp

@[simp] theorem settingsAfter_execPerstDeassert (s : State) :
    settingsAfter (execPerstDeassert s) = some (steady s).settings := by
  unfold execPerstDeassert
  dsimp only
  repeat' split
  all_goals simp

@[simp] theorem settingsAfter_execHostLinkUp (speed width : Nat) (s : State) :
    settingsAfter (execHostLinkUp speed width s) = some (steady s).settings := by
  unfold execHostLinkUp
  split
  · rfl
  · refine congrArg some ((settings_modPwr _ fun p => ?_).trans rfl)
    split <;> rfl

/-! ### Machine/Sync.lean -/

@[simp] theorem settingsAfter_execFence (a : Agent) (w : Word) (s : State) :
    settingsAfter (execFence a w s) = some (steady s).settings := settingsAfter_runInstr fun n => by
  dsimp only
  repeat' split
  all_goals simp

@[simp] theorem settingsAfter_execBar (a : Agent) (w : Word) (s : State) :
    settingsAfter (execBar a w s) = some (steady s).settings := settingsAfter_runInstr fun n => by simp

@[simp] theorem settingsAfter_execStart (a : Agent) (w : Word) (s : State) :
    settingsAfter (execStart a w s) = some (steady s).settings := settingsAfter_runInstr fun n => by
  dsimp only
  repeat' split
  all_goals simp

@[simp] theorem settingsAfter_execCg (a : Agent) (w : Word) (s : State) :
    settingsAfter (execCg a w s) = some (steady s).settings := settingsAfter_runInstr fun n => by simp

@[simp] theorem settingsAfter_execEpochEnter (a : Agent) (w : Word) (s : State) :
    settingsAfter (execEpochEnter a w s) = some (steady s).settings := settingsAfter_runInstr fun n => by split <;> simp

@[simp] theorem settingsAfter_execEpochLeave (a : Agent) (w : Word) (s : State) :
    settingsAfter (execEpochLeave a w s) = some (steady s).settings := settingsAfter_runInstr fun n => by split <;> simp

/-! ### Machine/Bringup.lean -/

@[simp] theorem settingsAfter_execMatedNFall (vinMv : Nat) (s : State) :
    settingsAfter (execMatedNFall vinMv s) = some (steady s).settings := by
  unfold execMatedNFall
  split <;> simp

@[simp] theorem settingsAfter_execPowerGood (slot : Nat) (s : State) :
    settingsAfter (execPowerGood slot s) = some (steady s).settings := by
  unfold execPowerGood
  split <;> simp

@[simp] theorem settingsAfter_execInputExcursionTimeout (s : State) :
    settingsAfter (execInputExcursionTimeout s) = some (steady s).settings := by
  unfold execInputExcursionTimeout
  repeat' split
  all_goals simp

@[simp] theorem settingsAfter_execInputRestored (mv : Nat) (s : State) :
    settingsAfter (execInputRestored mv s) = some (steady s).settings := by
  unfold execInputRestored
  split <;> simp

@[simp] theorem settingsAfter_execRecordVerify (copyA copyB : CopyCheck) (s : State) :
    settingsAfter (execRecordVerify copyA copyB s) = some (steady s).settings := by
  unfold execRecordVerify
  repeat' split
  all_goals simp

@[simp] theorem settingsAfter_execIdentityCheck (read : IdentityRead) (s : State) :
    settingsAfter (execIdentityCheck read s) = some (steady s).settings := by
  unfold execIdentityCheck
  repeat' split
  all_goals simp

@[simp] theorem settingsAfter_execFirmwareBoot (s : State) : settingsAfter (execFirmwareBoot s) = some (steady s).settings := by
  unfold execFirmwareBoot
  dsimp only
  repeat' split
  all_goals simp

@[simp] theorem settingsAfter_execEarlyService (s : State) : settingsAfter (execEarlyService s) = some (steady s).settings := by
  unfold execEarlyService
  split <;> simp

@[simp] theorem settingsAfter_execUnitSelfTestDone (failed : List Unit1) (s : State) :
    settingsAfter (execUnitSelfTestDone failed s) = some (steady s).settings := by
  unfold execUnitSelfTestDone
  repeat' split
  all_goals simp

@[simp] theorem settingsAfter_execSpeedTest (s : State) : settingsAfter (execSpeedTest s) = some (steady s).settings := by
  unfold execSpeedTest
  dsimp only
  repeat' split
  all_goals simp

@[simp] theorem settingsAfter_execFullService (s : State) : settingsAfter (execFullService s) = some (steady s).settings := by
  unfold execFullService
  split <;> simp

/-! ### Machine/Change.lean -/

@[simp] theorem settingsAfter_execCrSubmit (i : Nat) (s : State) :
    settingsAfter (execCrSubmit i s) = some (steady s).settings := by
  unfold execCrSubmit
  dsimp only
  repeat' split
  all_goals simp

@[simp] theorem settingsAfter_execCrSign (i : Nat) (s : State) : settingsAfter (execCrSign i s) = some (steady s).settings := by
  unfold execCrSign
  dsimp only
  repeat' split
  all_goals simp

@[simp] theorem settingsAfter_execCrClear (i : Nat) (s : State) :
    settingsAfter (execCrClear i s) = some (steady s).settings := by
  unfold execCrClear
  dsimp only
  repeat' split
  all_goals simp

@[simp] theorem settingsAfter_execCrWindowExpiry (i : Nat) (s : State) :
    settingsAfter (execCrWindowExpiry i s) = some (steady s).settings := by
  unfold execCrWindowExpiry
  split <;> simp

@[simp] theorem settingsAfter_execCrApply (i : Nat) (s : State) :
    settingsAfter (execCrApply i s) = some (steady s).settings := by
  unfold execCrApply
  split <;> simp

@[simp] theorem settingsAfter_execResetScrubDone (part : Nat) (s : State) :
    settingsAfter (execResetScrubDone part s) = some (steady s).settings := by
  unfold execResetScrubDone
  dsimp only
  repeat' split
  all_goals simp

/-! ### Machine/Control.lean -/

@[simp] theorem settingsAfter_execSalu (a : Agent) (w : Word) (s : State) :
    settingsAfter (execSalu a w s) = some (steady s).settings :=
  settingsAfter_runInstr fun n => by
    have read := steady_extWord s a n w
    dsimp only
    split
    · split
      · trivial
      next ran =>
        rw [ran] at read
        simpa using read
    · simp

@[simp] theorem settingsAfter_execScmp (a : Agent) (w : Word) (s : State) :
    settingsAfter (execScmp a w s) = some (steady s).settings := settingsAfter_runInstr fun n => by simp

@[simp] theorem settingsAfter_execBr (a : Agent) (w : Word) (s : State) :
    settingsAfter (execBr a w s) = some (steady s).settings := settingsAfter_runInstr fun n => by simp

@[simp] theorem settingsAfter_execSmemLoad (a : Agent) (w : Word) (s : State) :
    settingsAfter (execSmemLoad a w s) = some (steady s).settings := settingsAfter_runInstr fun n => by split <;> simp

@[simp] theorem settingsAfter_execSmemStore (a : Agent) (w : Word) (s : State) :
    settingsAfter (execSmemStore a w s) = some (steady s).settings := settingsAfter_runInstr fun n => by split <;> simp

@[simp] theorem settingsAfter_execNotify (a : Agent) (w : Word) (s : State) :
    settingsAfter (execNotify a w s) = some (steady s).settings := by
  cases a with
  | thread c t => rfl
  | ctl n =>
    unfold execNotify
    dsimp only
    split
    · exact settingsAfter_runInstr fun n => leaves_notifyStore _ _ _ _
    · rfl

@[simp] theorem settingsAfter_execDwr (a : Agent) (w : Word) (s : State) :
    settingsAfter (execDwr a w s) = some (steady s).settings := settingsAfter_runInstr fun n => by simp

@[simp] theorem settingsAfter_execBend (a : Agent) (w : Word) (s : State) :
    settingsAfter (execBend a w s) = some (steady s).settings :=
  settingsAfter_runInstr fun n => leaves_onCore fun c t => by simp

@[simp] theorem settingsAfter_execHalt (a : Agent) (w : Word) (s : State) :
    settingsAfter (execHalt a w s) = some (steady s).settings := settingsAfter_runInstr fun n => by simp

@[simp] theorem settingsAfter_execYield (a : Agent) (w : Word) (s : State) :
    settingsAfter (execYield a w s) = some (steady s).settings := settingsAfter_runInstr fun n => by simp

@[simp] theorem settingsAfter_execNop (a : Agent) (w : Word) (s : State) :
    settingsAfter (execNop a w s) = some (steady s).settings := settingsAfter_runInstr fun n => by simp

@[simp] theorem settingsAfter_execRdsysTick (a : Agent) (w : Word) (s : State) :
    settingsAfter (execRdsysTick a w s) = some (steady s).settings := settingsAfter_runInstr fun n => by simp

@[simp] theorem settingsAfter_execRdsysStatus (a : Agent) (w : Word) (s : State) :
    settingsAfter (execRdsysStatus a w s) = some (steady s).settings := settingsAfter_runInstr fun n => by split <;> simp

@[simp] theorem settingsAfter_execRdsysCounter (a : Agent) (w : Word) (s : State) :
    settingsAfter (execRdsysCounter a w s) = some (steady s).settings := settingsAfter_runInstr fun n => by split <;> simp

@[simp] theorem settingsAfter_execRdsysContext (a : Agent) (w : Word) (s : State) :
    settingsAfter (execRdsysContext a w s) = some (steady s).settings := settingsAfter_runInstr fun n => by simp

@[simp] theorem settingsAfter_execRdsysPeer (a : Agent) (w : Word) (s : State) :
    settingsAfter (execRdsysPeer a w s) = some (steady s).settings := settingsAfter_runInstr fun n => by simp

@[simp] theorem settingsAfter_execRdsysCtxRegister (a : Agent) (w : Word) (s : State) :
    settingsAfter (execRdsysCtxRegister a w s) = some (steady s).settings := settingsAfter_runInstr fun n => by split <;> simp

@[simp] theorem settingsAfter_execLoadp (a : Agent) (w : Word) (s : State) :
    settingsAfter (execLoadp a w s) = some (steady s).settings := settingsAfter_runInstr fun n => by split <;> simp

@[simp] theorem settingsAfter_execSumarm (a : Agent) (w : Word) (s : State) :
    settingsAfter (execSumarm a w s) = some (steady s).settings := settingsAfter_runInstr fun n => by simp

@[simp] theorem settingsAfter_execSumget (a : Agent) (w : Word) (s : State) :
    settingsAfter (execSumget a w s) = some (steady s).settings := settingsAfter_runInstr fun n => by
  dsimp only
  repeat' split
  all_goals simp

@[simp] theorem settingsAfter_execCores (a : Agent) (w : Word) (s : State) :
    settingsAfter (execCores a w s) = some (steady s).settings := settingsAfter_runInstr fun n => by split <;> simp

@[simp] theorem settingsAfter_execIllegalInstruction (a : Agent) (w : Word) (s : State) :
    settingsAfter (execIllegalInstruction a w s) = some (steady s).settings := settingsAfter_runInstr fun n => by simp

/-! ### Machine/Matrix.lean -/

@[simp] theorem settingsAfter_execShadowRecompute (core : Nat) (s : State) :
    settingsAfter (execShadowRecompute core s) = some (steady s).settings := by
  unfold execShadowRecompute
  dsimp only
  repeat' split
  all_goals simp

@[simp] theorem settingsAfter_execMma (a : Agent) (w : Word) (s : State) :
    settingsAfter (execMma a w s) = some (steady s).settings := settingsAfter_runInstr fun n => leaves_onCore fun c t => by
  dsimp only
  split <;> simp

@[simp] theorem settingsAfter_execAgset (a : Agent) (w : Word) (s : State) :
    settingsAfter (execAgset a w s) = some (steady s).settings := settingsAfter_runInstr fun n => by simp

@[simp] theorem settingsAfter_execAgopen (a : Agent) (w : Word) (s : State) :
    settingsAfter (execAgopen a w s) = some (steady s).settings := settingsAfter_runInstr fun n => by simp

@[simp] theorem settingsAfter_execAgout (a : Agent) (w : Word) (s : State) :
    settingsAfter (execAgout a w s) = some (steady s).settings := settingsAfter_runInstr fun n => leaves_onCore fun c t => by
  dsimp only
  repeat' split
  all_goals simp

@[simp] theorem settingsAfter_execAtts (a : Agent) (w : Word) (s : State) :
    settingsAfter (execAtts a w s) = some (steady s).settings := settingsAfter_runInstr fun n => leaves_onCore fun c t => by
  dsimp only
  split <;> simp

@[simp] theorem settingsAfter_execAttv (a : Agent) (w : Word) (s : State) :
    settingsAfter (execAttv a w s) = some (steady s).settings := settingsAfter_runInstr fun n => leaves_onCore fun c t => by
  dsimp only
  split <;> simp

/-! ### Machine/Ordered.lean -/

@[simp] theorem settingsAfter_execQueueFlit (f : QueueFlit) (s : State) :
    settingsAfter (execQueueFlit f s) = some (steady s).settings := by simp [execQueueFlit]

@[simp] theorem settingsAfter_execAbsent (src : InOrder Nat) (peer incarnation joinEpoch : Nat) (s : State) :
    settingsAfter (execAbsent src peer incarnation joinEpoch s) = some (steady s).settings := by simp [execAbsent]

@[simp] theorem settingsAfter_execArrive (m : InOrder ArriveMsg) (s : State) :
    settingsAfter (execArrive m s) = some (steady s).settings := by simp [execArrive]

@[simp] theorem settingsAfter_execAbort (src : InOrder Nat) (group attempt step : Nat) (s : State) :
    settingsAfter (execAbort src group attempt step s) = some (steady s).settings := by simp [execAbort]

@[simp] theorem settingsAfter_execGflagMessage (src : InOrder Nat) (group attempt step : Nat) (flag aborted : Bool)
    (s : State) :
    settingsAfter (execGflagMessage src group attempt step flag aborted s) = some (steady s).settings := by simp [execGflagMessage]

@[simp] theorem settingsAfter_execRelaydrain (dst : InOrder Nat) (s : State) :
    settingsAfter (execRelaydrain dst s) = some (steady s).settings := by simp [execRelaydrain]

@[simp] theorem settingsAfter_execQcredit (src : InOrder Nat) (sendCore sendEp recvCore recvEp words : Nat) (s : State) :
    settingsAfter (execQcredit src sendCore sendEp recvCore recvEp words s) = some (steady s).settings := by simp [execQcredit]

@[simp] theorem settingsAfter_execQconfig (src : InOrder Nat) (core ep : Nat) (word : Word) (part : Nat) (answer : Bool)
    (s : State) : settingsAfter (execQconfig src core ep word part answer s) = some (steady s).settings := by simp [execQconfig]

@[simp] theorem settingsAfter_execQclose (src : InOrder Nat) (core ep peerCore peerEp words : Nat) (s : State) :
    settingsAfter (execQclose src core ep peerCore peerEp words s) = some (steady s).settings := by simp [execQclose]

@[simp] theorem settingsAfter_execRoutes (mask : InOrder (BitVec 8)) (s : State) :
    settingsAfter (execRoutes mask s) = some (steady s).settings := by simp [execRoutes]

/-! ### Machine/PowerStates.lean -/

@[simp] theorem settingsAfter_execNapEntry (s : State) : settingsAfter (execNapEntry s) = some (steady s).settings := by
  unfold execNapEntry
  repeat' split
  all_goals simp

@[simp] theorem settingsAfter_execHold (s : State) : settingsAfter (execHold s) = some (steady s).settings := by
  unfold execHold
  split <;> simp

@[simp] theorem settingsAfter_execHoldExit (s : State) :
    settingsAfter (execHoldExit s) = some (steady s).settings := by simp [execHoldExit]

@[simp] theorem settingsAfter_execSmbStatus (s : State) :
    settingsAfter (execSmbStatus s) = some (steady s).settings := by simp [execSmbStatus]

@[simp] theorem settingsAfter_execSmbPower (s : State) :
    settingsAfter (execSmbPower s) = some (steady s).settings := by simp [execSmbPower]

@[simp] theorem settingsAfter_execSmbVoltage (s : State) :
    settingsAfter (execSmbVoltage s) = some (steady s).settings := by simp [execSmbVoltage]

@[simp] theorem settingsAfter_execSmbTemp (s : State) :
    settingsAfter (execSmbTemp s) = some (steady s).settings := by simp [execSmbTemp]

@[simp] theorem settingsAfter_execSmbBoot (s : State) :
    settingsAfter (execSmbBoot s) = some (steady s).settings := by simp [execSmbBoot]

@[simp] theorem settingsAfter_execSmbWake (s : State) :
    settingsAfter (execSmbWake s) = some (steady s).settings := by simp [execSmbWake]

@[simp] theorem settingsAfter_execSmbHold (value : SmbWrite 8) (s : State) :
    settingsAfter (execSmbHold value s) = some (steady s).settings := by
  unfold execSmbHold
  split <;> simp

@[simp] theorem settingsAfter_execSmbAlertResponse (s : State) :
    settingsAfter (execSmbAlertResponse s) = some (steady s).settings := by
  refine settingsAfter_onSmb ?_
  split <;> simp

@[simp] theorem settingsAfter_execSmbNak (code : Byte) (s : State) :
    settingsAfter (execSmbNak code s) = some (steady s).settings := by
  unfold execSmbNak
  split <;> simp

/-! ### Machine/Serving.lean -/

@[simp] theorem settingsAfter_execBind (ctx req : Nat) (w0 : Word) (s : State) :
    settingsAfter (execBind ctx req w0 s) = some (steady s).settings := by simp [execBind]

@[simp] theorem settingsAfter_execEmit (ctx req : Nat) (w0 w1 : Word) (s : State) :
    settingsAfter (execEmit ctx req w0 w1 s) = some (steady s).settings := by simp [execEmit]

@[simp] theorem settingsAfter_execDraft (ctx req : Nat) (w0 w1 : Word) (s : State) :
    settingsAfter (execDraft ctx req w0 w1 s) = some (steady s).settings := by simp [execDraft]

@[simp] theorem settingsAfter_execAccept (ctx req : Nat) (w0 : Word) (s : State) :
    settingsAfter (execAccept ctx req w0 s) = some (steady s).settings := by simp [execAccept]

@[simp] theorem settingsAfter_execRollback (ctx req : Nat) (w0 : Word) (s : State) :
    settingsAfter (execRollback ctx req w0 s) = some (steady s).settings := by simp [execRollback]

@[simp] theorem settingsAfter_execPrefilled (ctx req : Nat) (w0 : Word) (s : State) :
    settingsAfter (execPrefilled ctx req w0 s) = some (steady s).settings := by simp [execPrefilled]

@[simp] theorem settingsAfter_execUnbind (ctx req : Nat) (w0 : Word) (s : State) :
    settingsAfter (execUnbind ctx req w0 s) = some (steady s).settings := by simp [execUnbind]

@[simp] theorem settingsAfter_execFail (ctx req : Nat) (w0 w1 : Word) (s : State) :
    settingsAfter (execFail ctx req w0 w1 s) = some (steady s).settings := by simp [execFail]

@[simp] theorem settingsAfter_execFetch (ctx : Nat) (w0 : Word) (s : State) :
    settingsAfter (execFetch ctx w0 s) = some (steady s).settings := by
  unfold execFetch
  split
  · simp [steady_servingEnd ctx (leaves_dispatchResult (leaves_commitDispatch s ctx w0))]
  · rfl

/-! ### Machine/Sessions.lean -/

@[simp] theorem settingsAfter_execContributionArrive (req : Nat) (corrupt : Bool) (s : State) :
    settingsAfter (execContributionArrive req corrupt s) = some (steady s).settings := by
  unfold execContributionArrive
  dsimp only
  repeat' split
  all_goals simp

@[simp] theorem settingsAfter_execContributionResend (req : Nat) (s : State) :
    settingsAfter (execContributionResend req s) = some (steady s).settings := by
  unfold execContributionResend
  repeat' split
  all_goals simp

@[simp] theorem settingsAfter_execUpdacc (a : Agent) (w : Word) (s : State) :
    settingsAfter (execUpdacc a w s) = some (steady s).settings :=
  settingsAfter_runInstr fun n => leaves_onCore fun c t => leaves_afterSlot (by
    dsimp only
    repeat' split
    all_goals simp [leaves_sendContribs])

@[simp] theorem settingsAfter_execUpdclose (a : Agent) (w : Word) (s : State) :
    settingsAfter (execUpdclose a w s) = some (steady s).settings := settingsAfter_runInstr fun n => by
  dsimp only
  repeat' split
  all_goals simp

@[simp] theorem settingsAfter_execSessionComplete (sess : Nat) (s : State) :
    settingsAfter (execSessionComplete sess s) = some (steady s).settings := by
  unfold execSessionComplete
  dsimp only
  repeat' split
  all_goals simp

/-! ### Machine/Spdm.lean -/

@[simp] theorem settingsAfter_execDoeDiscovery (index : Nat) (s : State) :
    settingsAfter (execDoeDiscovery index s) = some (steady s).settings := by simp [execDoeDiscovery]

@[simp] theorem settingsAfter_execGetVersion (s : State) :
    settingsAfter (execGetVersion s) = some (steady s).settings := by simp [execGetVersion]

@[simp] theorem settingsAfter_execGetCapabilities (s : State) :
    settingsAfter (execGetCapabilities s) = some (steady s).settings := by simp [execGetCapabilities]

@[simp] theorem settingsAfter_execNegotiateAlgorithms (extAsym hash dhe aead : Bool) (s : State) :
    settingsAfter (execNegotiateAlgorithms extAsym hash dhe aead s) = some (steady s).settings :=
  by simp [execNegotiateAlgorithms]

@[simp] theorem settingsAfter_execGetDigests (s : State) :
    settingsAfter (execGetDigests s) = some (steady s).settings := by simp [execGetDigests]

@[simp] theorem settingsAfter_execGetCertificate (slot offset length : Nat) (s : State) :
    settingsAfter (execGetCertificate slot offset length s) = some (steady s).settings := by
  unfold execGetCertificate
  split <;> simp

@[simp] theorem settingsAfter_execChallenge (slot : Nat) (nonce : List Byte) (s : State) :
    settingsAfter (execChallenge slot nonce s) = some (steady s).settings := by
  refine settingsAfter_onSpdm ?_
  split
  · simp
  · refine settings_negotiated ?_ 3
    split <;> simp

@[simp] theorem settingsAfter_execGetMeasurements (index : Nat) (signed : Bool) (nonce : List Byte) (s : State) :
    settingsAfter (execGetMeasurements index signed nonce s) = some (steady s).settings := by
  refine settingsAfter_onSpdm ?_
  split
  · simp
  split
  · simp
  · refine settings_negotiated ?_ 3
    repeat' split
    all_goals simp

@[simp] theorem settingsAfter_execKeyExchange (slot : Nat) (k : KeyShare) (s : State) :
    settingsAfter (execKeyExchange slot k s) = some (steady s).settings := by
  refine settingsAfter_onSpdm (settings_secured (settings_negotiated ?_ 3))
  dsimp only
  repeat' split
  all_goals simp

@[simp] theorem settingsAfter_execFinish (mac : List Byte) (s : State) :
    settingsAfter (execFinish mac s) = some (steady s).settings := by
  refine settingsAfter_onSpdm (settings_secured ?_)
  repeat' split
  all_goals simp

@[simp] theorem settingsAfter_execKeyUpdate (s : State) :
    settingsAfter (execKeyUpdate s) = some (steady s).settings := by simp [execKeyUpdate]

@[simp] theorem settingsAfter_execHeartbeat (s : State) :
    settingsAfter (execHeartbeat s) = some (steady s).settings := by simp [execHeartbeat]

@[simp] theorem settingsAfter_execEndSession (s : State) :
    settingsAfter (execEndSession s) = some (steady s).settings := by simp [execEndSession]

/-- A request carried in chunks keeps what the request itself keeps (R444). -/
@[simp] theorem settings_runRequest (c : Instr) (s : State) : (steady (runRequest c s)).settings = (steady s).settings := by
  have kept : ∀ o : Host.Outcome State Fault Refusal, settingsAfter o = some (steady s).settings →
      (steady (match o with | .next t => t | _ => s)).settings = (steady s).settings := fun o after => by
    cases o with
    | next t => exact Option.some.inj after
    | _ => rfl
  exact kept _ (by split <;> simp)

@[simp] theorem settingsAfter_execChunkSend (handle seq : Nat) (last : Bool) (data : List Byte) (s : State) :
    settingsAfter (execChunkSend handle seq last data s) = some (steady s).settings := by
  refine settingsAfter_onSpdm ?_
  dsimp only
  repeat' split
  all_goals simp

@[simp] theorem settingsAfter_execChunkGet (handle seq : Nat) (s : State) :
    settingsAfter (execChunkGet handle seq s) = some (steady s).settings := by
  refine settingsAfter_onSpdm ?_
  dsimp only
  repeat' split
  all_goals simp

@[simp] theorem settingsAfter_execIdeKm (k : IdeKm) (s : State) : settingsAfter (execIdeKm k s) = some (steady s).settings := by
  unfold execIdeKm
  split <;> simp

@[simp] theorem settingsAfter_execRecoveryInfo (s : State) : settingsAfter (execRecoveryInfo s) = some (steady s).settings := by
  refine settingsAfter_onSpdm ?_
  split <;> simp

@[simp] theorem settingsAfter_execUnsupportedRequest (_code : Nat) (s : State) :
    settingsAfter (execUnsupportedRequest _code s) = some (steady s).settings := by simp [execUnsupportedRequest]

/-! ### Machine/Vector.lean -/

@[simp] theorem settingsAfter_execVfn (a : Agent) (w : Word) (s : State) :
    settingsAfter (execVfn a w s) = some (steady s).settings := settingsAfter_runInstr fun n => leaves_onCore fun c t => by
  dsimp only
  repeat' split
  all_goals simp

@[simp] theorem settingsAfter_execCvt (a : Agent) (w : Word) (s : State) :
    settingsAfter (execCvt a w s) = some (steady s).settings := settingsAfter_runInstr fun n => leaves_onCore fun c t => by
  dsimp only
  repeat' split
  all_goals simp

@[simp] theorem settingsAfter_execVred (a : Agent) (w : Word) (s : State) :
    settingsAfter (execVred a w s) = some (steady s).settings := settingsAfter_runInstr fun n => leaves_onCore fun c t => by
  dsimp only
  repeat' split
  all_goals simp

@[simp] theorem settingsAfter_execVcmp (a : Agent) (w : Word) (s : State) :
    settingsAfter (execVcmp a w s) = some (steady s).settings := settingsAfter_runInstr fun n => leaves_onCore fun c t => by
  dsimp only
  split <;> simp

@[simp] theorem settingsAfter_execPep (a : Agent) (w : Word) (s : State) :
    settingsAfter (execPep a w s) = some (steady s).settings := settingsAfter_runInstr fun n => leaves_onCore fun c t => by
  dsimp only
  repeat' split
  all_goals simp

end Machine
end Sys2Proof
end

section
/-! Every step keeps the settings within their limits (O57). -/
namespace Sys2Proof
namespace Machine

/-! ### Settings as at reset -/

/-- A table whose listed entries all come to read as an unlisted one reads so everywhere. -/
theorem tget_tmap_default {α β : Type} (g : α → β) {d : α} {f : Nat → α → α} (h : ∀ k v, g (f k v) = g d) (t : Tbl α) (k : Nat) :
    g (tget d (tmap f t) k) = g d := by
  induction t with
  | nil => rfl
  | cons e t ih =>
    simp only [tmap, List.map_cons, tget]
    split
    · exact h _ _
    · exact ih

theorem settings_powerOff (s : State) : (steady (powerOff s)).settings = (steady State.reset).settings := rfl

theorem settings_warmSettings (s : State) : (steady (warmSettings s)).settings = (steady State.reset).settings := by
  have replay : (fun p => (getPort (warmSettings s) p).replayMax) = fun _ => Port.reset.replayMax :=
    funext (tget_tmap_default Port.replayMax (f := fun _ p => warmPort p) (fun _ _ => rfl) s.ports)
  have active : (fun p => (getPart (warmSettings s) p).rqMaxActive) = fun _ => Part.reset.rqMaxActive :=
    funext (tget_tmap_default Part.rqMaxActive (f := fun _ x => warmPart x) (fun _ _ => rfl) s.parts)
  simp only [steady, Steady.settings, replay, active]
  rfl

theorem legal_of_reset {s : State} (h : (steady s).settings = (steady State.reset).settings) : s.Legal :=
  legal_of_settings_eq h reset_legal

theorem legal_goOff {s : State} (legal : s.Legal) : (goOff s).Legal := by
  unfold goOff
  split
  · exact legal
  · exact legal_of_reset (settings_powerOff _)

theorem legal_warmReset {s : State} (slot : Nat) (legal : s.Legal) : (warmReset s slot).Legal := by
  unfold warmReset
  split
  · exact legal
  · have begun (t : State) (other : Option Nat) :
        steady (settleAlert (newLifeOf (loadLaneMaps (warmSettings t)) slot other)) = steady (warmSettings t) := by simp
    exact legal_of_reset ((congrArg Steady.settings (begun _ _)).trans (settings_warmSettings _))

/-! ### Registers with limits -/

theorem legal_withSustainedW {s : State} (v : Nat) (legal : s.Legal) :
    (modClk s fun c => { c with sustainedW := capOf v }).Legal :=
  { legal with cap := by simp [capOf] }

theorem legal_writeHintCtl {s : State} (v : Nat) (legal : s.Legal) : (writeHintCtl s v).Legal := by
  unfold writeHintCtl modMem
  dsimp only
  split
  · exact { legal with }
  next other =>
    split
    · exact { legal with }
    · exact { legal with groups := by dsimp only; simp at other; omega }

theorem legal_onHalf {h : Option Nat} {s : State} {f : Nat → State} (legal : s.Legal) (kept : ∀ v, (f v).Legal) :
    (onHalf h s f).Legal := by
  cases h with
  | none => exact legal
  | some v => exact kept v

theorem legal_globalWrite {s : State} (w : RegWr) (legal : s.Legal) : (globalWrite w s).Legal := by
  obtain ⟨t2, t3, t4⟩ := legal.late
  unfold globalWrite
  split
  · exact legal_onHalf legal fun v => { legal with late := ⟨le_max_left _ _, t3, t4⟩ }
  · exact legal_onHalf legal fun v => { legal with late := ⟨t2, le_max_left _ _, t4⟩ }
  · exact legal_onHalf legal fun v => { legal with late := ⟨t2, t3, le_max_left _ _⟩ }
  · exact legal_onHalf legal fun v => { legal with quantum := by dsimp only; omega }
  · exact legal

theorem legal_powerWrite {s : State} (w : RegWr) (legal : s.Legal) : (powerWrite w s).Legal := by
  unfold powerWrite
  split
  · exact legal_onHalf legal fun v => legal_withSustainedW _ legal
  · exact legal_onHalf legal fun v => { legal with }
  · exact legal_of_settings_eq (by simp) legal
  · have low : (onHalf w.lo s fun v => modPwr s fun p => { p with pin := v % 65536 }).Legal :=
      legal_onHalf legal fun v => { legal with }
    exact legal_onHalf low fun v => { low with nap := le_max_left _ _ }
  · exact legal

theorem replayMax_portCtlWrite (v : Nat) (p : Port) :
    1 ≤ (portCtlWrite v p).replayMax ∧ (portCtlWrite v p).replayMax ≤ 7 := by
  have field : bits v 29 27 < 8 := by simp [bits]; omega
  simp only [portCtlWrite]
  omega

theorem legal_portCtlWrite {s : State} (p v : Nat) (legal : s.Legal) : (modPort s p (portCtlWrite v)).Legal := by
  refine { legal with replay := fun q => ?_ }
  by_cases other : p = q
  · subst other
    simpa using replayMax_portCtlWrite v (getPort s p)
  · simpa [getPort_modPort_ne _ _ _ _ other] using legal.replay q

theorem legal_portsWrite {s : State} (w : RegWr) (legal : s.Legal) : (portsWrite w s).Legal := by
  unfold portsWrite
  dsimp only
  split
  · exact legal
  · split
    · have low : (onHalf w.lo s fun v => modPort s (w.unit / 0x1000) fun q => { q with wiringErr := w1c q.wiringErr v 17 }).Legal :=
        legal_of_settings_eq (by simp) legal
      exact legal_onHalf low fun v => legal_portCtlWrite _ _ low
    · exact legal_of_settings_eq (by simp) legal
    · exact legal

/-- A sum over a range in which one term is another. -/
theorem foldl_add_range_update {f g : Nat → Nat} {p : Nat} (same : ∀ q, q ≠ p → g q = f q) (n : Nat) :
    (List.range n).foldl (fun k q => k + g q) 0 + (if p < n then f p else 0) =
      (List.range n).foldl (fun k q => k + f q) 0 + (if p < n then g p else 0) := by
  induction n with
  | zero => rfl
  | succ n ih =>
    simp only [List.range_succ, List.foldl_append, List.foldl_cons, List.foldl_nil]
    by_cases last : p = n
    · subst last
      simp at ih ⊢
      omega
    · have := same n (Ne.symm last)
      have lt : p < n + 1 ↔ p < n := by omega
      simp only [lt]
      omega

theorem legal_withMaxActive {s : State} {p v : Nat} (legal : s.Legal) (room : ¬ 65536 < maxActiveSum s - (getPart s p).rqMaxActive + v) :
    (modPart s p fun x => { x with rqMaxActive := v }).Legal := by
  have moved := foldl_add_range_update (f := fun q => (getPart s q).rqMaxActive)
    (g := fun q => (getPart (modPart s p fun x => { x with rqMaxActive := v }) q).rqMaxActive) (p := p)
    (fun q other => by rw [getPart_modPart_ne _ _ _ _ (Ne.symm other)]) 64
  refine { legal with reserved := ?_ }
  have before := legal.reserved
  unfold maxActiveSum at *
  simp only [getPart_modPart] at moved
  split at moved <;> omega

theorem legal_rqWrite {s : State} (p : Nat) (w : RegWr) (legal : s.Legal) : (rqWrite p w s).Legal := by
  unfold rqWrite
  dsimp only
  split
  · refine legal_of_settings_eq ?_ legal
    split <;> simp
  · generalize low : (onHalf w.lo s _) = t
    have kept : steady t = steady s := by
      rw [← low]
      refine steady_onHalf fun v => ?_
      split <;> simp
    have legalLow : t.Legal := legal_of_settings_eq (congrArg Steady.settings kept) legal
    have active : (getPart t p).rqMaxActive = (getPart s p).rqMaxActive := congrFun (congrArg Steady.maxActive kept) p
    refine legal_onHalf legalLow fun v => ?_
    split
    · exact legal_of_settings_eq (by simp) legalLow
    next room => exact legal_withMaxActive legalLow (by rwa [active])
  · exact legal_of_settings_eq (by simp) legal
  · exact legal

theorem legal_ite {c : Prop} [Decidable c] {s t : State} (yes : s.Legal) (no : t.Legal) : (if c then s else t).Legal := by
  split
  · exact yes
  · exact no

theorem legal_pfBasicWrite {s : State} (w : RegWr) (legal : s.Legal) : (pfBasicWrite w s).Legal :=
  legal_ite (legal_globalWrite w legal) (legal_ite (legal_powerWrite _ legal)
    (legal_ite (legal_of_settings_eq (settings_securityWrite _ _) legal)
      (legal_ite (legal_of_steady_eq (steady_errorWrite _ _) legal) legal)))

theorem legal_pfFullWrite {s : State} (w : RegWr) (legal : s.Legal) : (pfFullWrite w s).Legal :=
  legal_ite legal <| legal_ite (legal_portsWrite _ legal) <| legal_ite (legal_of_steady_eq (steady_partWrite _ _ _ _) legal) <|
  legal_ite legal <| legal_ite (legal_of_steady_eq (steady_countersWrite _ _) legal) <|
  legal_ite (legal_of_steady_eq (steady_ctxWrite _ _ _) legal) <| legal_ite (legal_rqWrite _ _ legal) <| legal_ite legal <|
  legal_ite (legal_of_steady_eq (steady_mdlWrite _ _ _) legal) <| legal_ite legal <|
  legal_ite (legal_of_steady_eq (steady_cmdWrite _ _ _) legal) <| legal_ite legal <|
  legal_ite (legal_of_steady_eq (steady_msixTableWrite _ _ _) legal) legal

theorem legal_vfWrite {s : State} (n : Nat) (w : RegWr) (legal : s.Legal) : (vfWrite n w s).Legal := by
  unfold vfWrite
  dsimp only
  split
  · exact legal_of_steady_eq (steady_partWrite _ _ _ _) legal
  · exact legal_rqWrite _ _ legal
  · exact legal_of_steady_eq (steady_mdlWrite _ _ _) legal
  · exact legal_of_steady_eq (steady_cmdWrite _ _ _) legal
  · exact legal_ite (legal_of_steady_eq (steady_msixTableWrite _ _ _) legal) legal

theorem legal_takeWrite {s : State} (func : Nat) (w : RegWr) (legal : s.Legal) : (takeWrite func w s).Legal := by
  unfold takeWrite
  split
  · split
    · exact legal_pfBasicWrite w legal
    · exact legal_pfFullWrite w (legal_pfBasicWrite w legal)
  · split
    · exact legal_vfWrite func w legal
    · exact legal

theorem legal_takeConfig {s : State} (n : Nat) (w : RegWr) (legal : s.Legal) : (takeConfig n w s).Legal :=
  legal_of_steady_eq (steady_takeConfig n w s) legal

/-! ### Commands and steps -/

theorem legal_of_settingsAfter {s t : State} {o : Host.Outcome State Fault Refusal} (kept :
    settingsAfter o = some (steady s).settings)
    (ended : o = .next t) (legal : s.Legal) : t.Legal := by
  rw [ended] at kept
  exact legal_of_settings_eq (Option.some.inj kept) legal

theorem legal_execRegisterWrite {s t : State} {func off width : Nat} {v : Word}
    (ran : execRegisterWrite func off width v s = .next t) (legal : s.Legal) : t.Legal := by
  unfold execRegisterWrite at ran
  split at ran
  · cases ran
    exact legal
  split at ran
  · cases ran
    exact legal
  split at ran
  · cases ran
    exact legal_takeWrite _ _ legal
  · cases ran
    exact legal_takeConfig _ _ legal

/-- What an SMBus command leaves is legal where its effect is. -/
theorem legal_onSmb {s t : State} {f : State → State} (ran : onSmb s f = .next t) (legal : s.Legal) (kept : (f s).Legal) :
    t.Legal := by
  unfold onSmb at ran
  split at ran
  · cases ran
    exact legal
  · cases ran
    exact kept

theorem legal_smbTake {s : State} {f : State → State} (code : Byte) (bs : List Byte) (pec : Option Byte) (legal : s.Legal)
    (kept : (f s).Legal) : (smbTake s code bs pec f).Legal := by
  unfold smbTake
  split
  · exact legal_of_steady_eq (steady_emit _ _) kept
  · exact legal_of_steady_eq (steady_emit _ _) legal

theorem legal_execSmbCap {s t : State} {v : Option (SmbWrite 16)} (ran : execSmbCap v s = .next t) (legal : s.Legal) :
    t.Legal := by
  refine legal_onSmb ran legal ?_
  cases v with
  | none => exact legal_of_steady_eq (steady_emit _ _) legal
  | some v => exact legal_smbTake _ _ _ legal (legal_withSustainedW _ legal)

theorem legal_execSmbWarm {s t : State} {v : SmbWrite 8} {slot : Nat} (ran : execSmbWarm v slot s = .next t) (legal : s.Legal) :
    t.Legal :=
  legal_onSmb ran legal (legal_smbTake _ _ _ legal (legal_ite (legal_warmReset slot legal) legal))

theorem legal_execWarm {s t : State} {slot : Nat} (ran : execWarm slot s = .next t) (legal : s.Legal) : t.Legal := by
  unfold execWarm at ran
  split at ran
  · cases ran
    exact legal_warmReset slot legal
  · cases ran
    exact legal

theorem legal_execMatedNRise {s t : State} (ran : execMatedNRise s = .next t) (legal : s.Legal) : t.Legal := by
  unfold execMatedNRise at ran
  split at ran
  · cases ran
    exact legal
  · cases ran
    exact legal_of_settings_eq (by simp) (legal_goOff legal)

theorem legal_execInputOutOfRange {s t : State} {mv : Nat} (ran : execInputOutOfRange mv s = .next t) (legal : s.Legal) :
    t.Legal := by
  unfold execInputOutOfRange at ran
  dsimp only at ran
  split at ran
  · cases ran
    exact legal_ite (legal_of_settings_eq (by simp) legal) legal
  split at ran
  · cases ran
    exact legal_of_settings_eq (by simp) (legal_goOff legal)
  split at ran
  · cases ran
    exact legal_of_settings_eq (by simp) legal
  · cases ran
    exact legal_of_settings_eq (by simp) legal

theorem legal_execInputCollapse {s t : State} (ran : execInputCollapse s = .next t) (legal : s.Legal) : t.Legal := by
  unfold execInputCollapse at ran
  split at ran
  · cases ran
    exact legal_ite (legal_of_settings_eq (by simp) legal) legal
  · cases ran
    exact legal_of_settings_eq (by simp) (legal_goOff legal)

/-- Every command keeps the settings legal: those that write a setting clamp it, a reset sets it, and the others leave it. -/
theorem legal_exec (i : Instr) {s t : State} (ran : exec i s = .next t) (legal : s.Legal) : t.Legal := by
  cases i with
  | hintCtlWrite v =>
    cases ran
    exact legal_writeHintCtl _ legal
  | registerWrite func off width v => exact legal_execRegisterWrite ran legal
  | smbCap v => exact legal_execSmbCap ran legal
  | smbWarm v slot => exact legal_execSmbWarm ran legal
  | warm slot => exact legal_execWarm ran legal
  | matedNRise => exact legal_execMatedNRise ran legal
  | inputOutOfRange mv => exact legal_execInputOutOfRange ran legal
  | inputCollapse => exact legal_execInputCollapse ran legal
  | _ => exact legal_of_settingsAfter (by simp [exec]) ran legal

theorem legal_idleTick {s : State} (legal : s.Legal) : (idleTick s).Legal := by
  cases off : s.pwr.off with
  | true => rwa [idleTick_off off]
  | false => exact legal_of_steady_eq (steady_idleTick off) (legal_of_settings_eq (s := s) (t := ticked s) rfl legal)

/-- Settles O57: a tick keeps the settings, and a command keeps them legal. -/
theorem legalKept : Obligations.LegalKept := by
  intro s t legal ran
  unfold step at ran
  split at ran
  · cases ran
    exact legal_idleTick legal
  · exact legal_exec _ ran (legal_of_settings_eq (s := s) rfl legal)

end Machine
end Sys2Proof
end

section
/-! Request doorbells, the ring poll and the deadline monitor: what each does to its slot, handle or request (R301 to R343). -/
namespace Sys2Proof
namespace Machine

/-! ### A request in the table of requests -/

@[simp] theorem getReq_setReq (s : State) (id : Nat) (r : Request) : getReq (setReq s id r) id = some r := tfind_tput_same _ _ _

theorem modReq_of_getReq {s : State} {id : Nat} {r : Request} (found : getReq s id = some r) (f : Request → Request) :
    modReq s id f = setReq s id (f r) := by
  simp only [modReq, found]

/-! ### Doorbells (R373, R418) -/

theorem doorbell_atOnce {s t : State} {p : Nat} {c : Instr} (arrives : AtOnce s t p c) : doorbell p c s = .next (ringBell c t) := by
  obtain ⟨accepts, free, rfl⟩ := arrives
  simp [doorbell, accepts, free]

theorem doorbell_waits {s : State} {p : Nat} {c : Instr} (accepts : accepting s p = true) (busy : bellAtOnce s p c = false) :
    doorbell p c s = .next (pumpBells (modPart s p fun x => { x with bells := x.bells ++ [(c, x.cmdTail)] })) := by
  simp [doorbell, accepts, busy]

theorem exec_doorbell_waits {s : State} {p slot n : Nat} {w : Word} {b : Bool} {i : Instr} (accepts : accepting s p = true)
    (busy : bellAtOnce s p i = false)
    (bell : i ∈ [Instr.submit p slot, .cancel p slot, .kick p slot, .pfxRelease p w, .load p slot, .unload p slot, .replace p slot,
      .attach p slot n b, .detach p slot n, .doorbellReservedOp b p w]) :
    exec i s = .next (pumpBells (modPart s p fun x => { x with bells := x.bells ++ [(i, x.cmdTail)] })) := by
  have rings : exec i s = doorbell p i s := by
    simp only [List.mem_cons, List.not_mem_nil, or_false] at bell
    obtain rfl | rfl | rfl | rfl | rfl | rfl | rfl | rfl | rfl | rfl := bell <;> rfl
  exact rings.trans (doorbell_waits accepts busy)

/-! ### SUBMIT (R301, R303) -/

theorem submitEffect_badSlot {t : State} {p slot : Nat} (bad : (getPart t p).rqSlots ≤ slot ∨ (reqBySlot t p slot).isSome = true ∨
    inWindows t p ((getPart t p).rqBase + 256 * slot) 256 = false) :
    submitEffect t p slot = modPart t p fun x => { x with rqBadDoorbell := true } :=
  if_pos (by simpa [or_assoc] using bad)

theorem acceptRequest_queued {u : State} {r : Request} {m : Nat × Model} (served : modelByHandle u r.part r.model = some m)
    (noPrefix : r.pfxIn = 0) (prompt : r.promptTokens ≠ 0) :
    acceptRequest u r = syncReq (setReq (modPart u r.part fun x => { x with rqAccepted := x.rqAccepted + 1 }) (freeReqId u) r)
      (freeReqId u) := by
  have served : modelByHandle (modPart u r.part fun x => { x with rqAccepted := x.rqAccepted + 1 }) r.part r.model = some m := served
  simp only [acceptRequest, served, if_pos noPrefix, if_neg prompt]

theorem submitEffect_accepts {t u : State} {p slot : Nat} {bs : List Byte} (room : slot < (getPart t p).rqSlots)
    (free : reqBySlot t p slot = none) (mapped : inWindows t p ((getPart t p).rqBase + 256 * slot) 256 = true)
    (read : fwFetch (journal t 0 1 (p * 65536 + slot) true) ((getPart t p).rqBase + 256 * slot) 256 = (bs, false, u))
    (sound : recordOk u (readRequest u p slot bs) (recWord bs) = true) (active : activeReqs u p < (getPart t p).rqMaxActive)
    (live : liveReqs u < 65536) : submitEffect t p slot = acceptRequest u (readRequest u p slot bs) := by
  have good : ¬ (decide ((getPart t p).rqSlots ≤ slot) || (reqBySlot t p slot).isSome ||
      !inWindows t p ((getPart t p).rqBase + 256 * slot) 256) = true := by simp [room, free, mapped]
  unfold submitEffect
  dsimp only
  rw [if_neg good, read]
  simp [sound, active, live]

theorem now_of_fwFetch {s u : State} {pa n : Nat} {bs : List Byte} {bad : Bool} (read : fwFetch s pa n = (bs, bad, u)) :
    now u = now s := by
  have kept := congrArg Steady.tick (steady_fwFetch s pa n)
  rwa [read] at kept

/-! ### CANCEL and KICK (R317, R320) -/

theorem slotDoorbell_badSlot {t : State} {p slot : Nat} {f : State → Nat → State} (beyond : (getPart t p).rqSlots ≤ slot) :
    slotDoorbell t p slot f = modPart t p fun x => { x with rqBadDoorbell := true } := if_pos beyond

theorem slotDoorbell_live {t : State} {p slot id : Nat} {r : Request} {f : State → Nat → State} (room : slot < (getPart t p).rqSlots)
    (found : reqBySlot t p slot = some (id, r)) :
    slotDoorbell t p slot f = f (journal t (homeCore r.ctx) 2 id true) id := by
  simp only [slotDoorbell, if_neg (Nat.not_le.mpr room), found]

section
variable {s : State} {id : Nat} {r : Request} (found : getReq s id = some r)
include found

theorem cancelRequest_idle (unbound : r.bound = false) (noEntry : r.heldEntry = none) :
    cancelRequest s id = endRequest (setReq s id { r with drafts := [], kvLen := r.kvLen - r.drafts.length }) id 2 := by
  simp [cancelRequest, found, unbound, noEntry]

theorem cancelRequest_bound (bound : r.bound = true) :
    cancelRequest s id = syncReq (modReq (setReq s id { r with drafts := [], kvLen := r.kvLen - r.drafts.length }) id fun r =>
      { r with cancelPending := true, state := rqCancelling }) id := by
  simp only [cancelRequest, found, if_pos bound]

end

/-! ### PREFIX_RELEASE, RING_POLL and deadlines (R316, R320, R342, R343) -/

theorem pfxReleaseEffect_held {t : State} {p ix : Nat} {w : Word} {h : Handle} (named : handleByWord t p w = some (ix, h))
    (held : tfind t.rollout.handles ix = some h) :
    pfxReleaseEffect t p w = refSets (modRo (journal t 0 9 ix true) fun ro => { ro with handles := tdel ro.handles ix }) h.sets false := by
  have held : tfind (journal t 0 9 ix true).rollout.handles ix = some h := held
  simp only [pfxReleaseEffect, named, releaseHandle, held]

theorem pfxReleaseEffect_none {t : State} {p : Nat} {w : Word} (unknown : handleByWord t p w = none) : pfxReleaseEffect t p w = t := by
  simp only [pfxReleaseEffect, unknown]

theorem execRingPoll_held {s : State} {req : Nat} {r : Request} (found : getReq s req = some r) (held : r.heldEntry.isSome = true)
    (runs : coreStops s (homeCore r.ctx) = false) : execRingPoll req s = .next (publishHeld s req) := by
  simp [execRingPoll, found, held, runs]

theorem applyPolicy_idle {s : State} {id : Nat} {r : Request} (found : getReq s id = some r) (first : r.fallenBack = false)
    (unbound : r.bound = false) (ring : r.state ≠ rqRingWait) :
    applyPolicy s id = if r.dlPolicy = 1 then moveRequest s id else if r.dlPolicy = 2 then endRequest s id 3 else s := by
  simp [applyPolicy, found, first, unbound, ring]

theorem execDeadlineMonitor_passed {s : State} {req : Nat} {r : Request} (found : getReq s req = some r) (live : rqLive r = true)
    (passed : deadlinePassed s r = true) (first : r.pastDeadline = false) (awake : s.pwr.inHold = false)
    (runs : coreStops s (homeCore r.ctx) = false) :
    execDeadlineMonitor req s = .next (applyPolicy (setReq s req { r with pastDeadline := true }) req) := by
  simp [execDeadlineMonitor, found, live, passed, first, awake, runs]

/-! ### Reserved doorbell operations (R303) -/

theorem reservedBell_of_reserved {models : Bool} {t : State} {p : Nat} {w : Word}
    (reserved : fld w 63 60 = 0 ∨ (if models then 5 else 3) < fld w 63 60) :
    reservedBell models t p w = modPart t p fun x =>
      if models then { x with mdlBadDoorbell := true } else { x with rqBadDoorbell := true } := by
  refine if_neg ?_
  simp only [Bool.and_eq_true, decide_eq_true_eq]
  omega

end Machine
end Sys2Proof
end

section
/-! Request doorbells, handles, ring polls and deadlines (O37). -/
namespace Sys2Proof
namespace Machine

section
variable {s t : State} {p slot : Nat}

theorem exec_submit_badSlot (arrives : AtOnce s t p (.submit p slot)) (bad : (getPart t p).rqSlots ≤ slot ∨
    (reqBySlot t p slot).isSome = true ∨ inWindows t p ((getPart t p).rqBase + 256 * slot) 256 = false) :
    exec (.submit p slot) s = .next (modPart t p fun x => { x with rqBadDoorbell := true }) :=
  (doorbell_atOnce arrives).trans (congrArg _ (submitEffect_badSlot bad))

theorem exec_submit_accepts {u : State} {bs : List Byte} {m : Nat × Model} (arrives : AtOnce s t p (.submit p slot))
    (room : slot < (getPart t p).rqSlots) (free : reqBySlot t p slot = none)
    (mapped : inWindows t p ((getPart t p).rqBase + 256 * slot) 256 = true)
    (read : fwFetch (journal t 0 1 (p * 65536 + slot) true) ((getPart t p).rqBase + 256 * slot) 256 = (bs, false, u))
    (sound : recordOk u (readRequest u p slot bs) (recWord bs) = true) (active : activeReqs u p < (getPart t p).rqMaxActive)
    (live : liveReqs u < 65536) (served : modelByHandle u p (readRequest u p slot bs).model = some m)
    (noPrefix : (readRequest u p slot bs).pfxIn = 0) (prompt : (readRequest u p slot bs).promptTokens ≠ 0) :
    exec (.submit p slot) s = .next (syncReq (setReq (modPart u p fun x => { x with rqAccepted := x.rqAccepted + 1 })
      (freeReqId u) (readRequest u p slot bs)) (freeReqId u)) :=
  (doorbell_atOnce arrives).trans (congrArg _
    ((submitEffect_accepts room free mapped read sound active live).trans (acceptRequest_queued served noPrefix prompt)))

theorem exec_cancel_idle {id : Nat} {r : Request} (arrives : AtOnce s t p (.cancel p slot)) (room : slot < (getPart t p).rqSlots)
    (live : reqBySlot t p slot = some (id, r)) (found : getReq t id = some r) (unbound : r.bound = false) (noEntry : r.heldEntry = none) :
    exec (.cancel p slot) s = .next (endRequest (setReq (journal t (homeCore r.ctx) 2 id true) id
      { r with drafts := [], kvLen := r.kvLen - r.drafts.length }) id 2) :=
  (doorbell_atOnce arrives).trans (congrArg _ ((slotDoorbell_live room live).trans (cancelRequest_idle found unbound noEntry)))

theorem exec_cancel_bound {id : Nat} {r : Request} (arrives : AtOnce s t p (.cancel p slot)) (room : slot < (getPart t p).rqSlots)
    (live : reqBySlot t p slot = some (id, r)) (found : getReq t id = some r) (bound : r.bound = true) :
    exec (.cancel p slot) s = .next (syncReq (modReq (setReq (journal t (homeCore r.ctx) 2 id true) id
      { r with drafts := [], kvLen := r.kvLen - r.drafts.length }) id fun r =>
        { r with cancelPending := true, state := rqCancelling }) id) :=
  (doorbell_atOnce arrives).trans (congrArg _ ((slotDoorbell_live room live).trans (cancelRequest_bound found bound)))

theorem exec_kick {id : Nat} {r : Request} (arrives : AtOnce s t p (.kick p slot)) (room : slot < (getPart t p).rqSlots)
    (live : reqBySlot t p slot = some (id, r)) :
    exec (.kick p slot) s = .next (publishHeld (journal t (homeCore r.ctx) 2 id true) id) :=
  (doorbell_atOnce arrives).trans (congrArg _ (slotDoorbell_live room live))

theorem exec_slotDoorbell_badSlot {i : Instr} (arrives : AtOnce s t p i) (beyond : (getPart t p).rqSlots ≤ slot)
    (bell : i ∈ [Instr.cancel p slot, .kick p slot]) :
    exec i s = .next (modPart t p fun x => { x with rqBadDoorbell := true }) := by
  simp only [List.mem_cons, List.not_mem_nil, or_false] at bell
  obtain rfl | rfl := bell
  · exact (doorbell_atOnce arrives).trans (congrArg _ (slotDoorbell_badSlot beyond))
  · exact (doorbell_atOnce arrives).trans (congrArg _ (slotDoorbell_badSlot beyond))

theorem exec_pfxRelease_held {ix : Nat} {w : Word} {h : Handle} (arrives : AtOnce s t p (.pfxRelease p w))
    (named : handleByWord t p w = some (ix, h)) (held : tfind t.rollout.handles ix = some h) :
    exec (.pfxRelease p w) s = .next (refSets (modRo (journal t 0 9 ix true) fun ro =>
      { ro with handles := tdel ro.handles ix }) h.sets false) :=
  (doorbell_atOnce arrives).trans (congrArg _ (pfxReleaseEffect_held named held))

theorem exec_pfxRelease_none {w : Word} (arrives : AtOnce s t p (.pfxRelease p w)) (unknown : handleByWord t p w = none) :
    exec (.pfxRelease p w) s = .next t :=
  (doorbell_atOnce arrives).trans (congrArg _ (pfxReleaseEffect_none unknown))

theorem exec_deadlineMonitor_idle {req : Nat} {r : Request} (found : getReq s req = some r) (live : rqLive r = true)
    (passed : deadlinePassed s r = true) (first : r.pastDeadline = false) (own : r.fallenBack = false) (unbound : r.bound = false)
    (ring : r.state ≠ rqRingWait) (awake : s.pwr.inHold = false) (runs : coreStops s (homeCore r.ctx) = false) :
    exec (.deadlineMonitor req) s = .next (
      let u := setReq s req { r with pastDeadline := true }
      if r.dlPolicy = 1 then moveRequest u req else if r.dlPolicy = 2 then endRequest u req 3 else u) :=
  (execDeadlineMonitor_passed found live passed first awake runs).trans
    (congrArg _ (applyPolicy_idle (r := { r with pastDeadline := true }) (getReq_setReq _ _ _) own unbound ring))

theorem exec_doorbellReservedOp {models : Bool} {w : Word} (arrives : AtOnce s t p (.doorbellReservedOp models p w))
    (reserved : fld w 63 60 = 0 ∨ (if models then 5 else 3) < fld w 63 60) :
    exec (.doorbellReservedOp models p w) s = .next (modPart t p fun x =>
      if models then { x with mdlBadDoorbell := true } else { x with rqBadDoorbell := true }) :=
  (doorbell_atOnce arrives).trans (congrArg _ (reservedBell_of_reserved reserved))

end

/-- Settles O37: a doorbell taken at once does what its function makes of its slot or handle; the ring poll and the deadline monitor
read the request themselves. -/
theorem requestDoorbells : Obligations.RequestDoorbells := by
  refine ⟨fun _ _ _ _ arrives bad => exec_submit_badSlot arrives bad, ?submit,
    fun _ _ _ _ _ _ arrives room live found unbound noEntry => ⟨_, exec_cancel_idle arrives room live found unbound noEntry⟩,
    fun _ _ _ _ _ _ arrives room live found bound => ⟨_, exec_cancel_bound arrives room live found bound⟩,
    fun _ _ _ _ _ _ arrives room live => ⟨_, exec_kick arrives room live⟩,
    fun _ _ _ _ _ arrives beyond bell => exec_slotDoorbell_badSlot arrives beyond bell,
    fun _ _ _ _ _ _ arrives named held => exec_pfxRelease_held arrives named held,
    fun _ _ _ _ arrives unknown => exec_pfxRelease_none arrives unknown,
    fun _ _ _ _ _ _ _ accepts busy bell => exec_doorbell_waits accepts busy bell,
    fun _ _ _ found held runs => execRingPoll_held found held runs, ?deadline,
    fun _ _ _ _ arrives reserved => exec_doorbellReservedOp arrives reserved,
    fun _ _ _ _ arrives reserved => exec_doorbellReservedOp arrives reserved⟩
  case submit =>
    intro s t u p slot bs r m arrives room free mapped read same sound active live served noPrefix prompt
    subst same
    have sameTick : now u = now s := by
      rw [now_of_fwFetch read, arrives.2.2]
      rfl
    exact ⟨exec_submit_accepts arrives room free mapped read sound active live served noPrefix prompt, rfl, sameTick, rfl⟩
  case deadline =>
    intro s req r found live limited due first own unbound ring awake runs
    exact exec_deadlineMonitor_idle found live (by simp [deadlinePassed, limited, due]) first own unbound ring awake runs

end Machine
end Sys2Proof
end

section
/-! The commands of the commit window: what decides before them, the frames in which they run, and each command on its request (R305
to R309, R313 to R316, R319 to R322). -/
namespace Sys2Proof
namespace Machine

/-! ### What the read of a ring keeps of the requests (R320) -/

theorem tput_tput {α : Type} (t : Tbl α) (k : Nat) (v w : α) : tput (tput t k v) k w = tput t k w := by
  induction t with
  | nil => simp [tput]
  | cons e t ih =>
    obtain ⟨i, u⟩ := e
    simp only [tput]
    by_cases below : k < i
    · simp [below, tput]
    · by_cases same : i = k
      · simp [same, tput]
      · simp [below, same, tput, ih]

theorem setReq_setReq (s : State) (id : Nat) (r q : Request) : setReq (setReq s id r) id q = setReq s id q := by
  simp [setReq, modRo, tput_tput]

@[simp] theorem rollout_readHost (s : State) (pa : Nat) : (readHost s pa).2.2.rollout = s.rollout := by
  unfold readHost
  dsimp only
  split <;> rfl

@[simp] theorem rollout_fwGrain (s : State) (a : Nat) : (fwGrain s a).2.2.rollout = s.rollout := by
  unfold fwGrain
  split
  · exact rollout_readHost s a
  · split <;> rfl

@[simp] theorem rollout_fwFetch (s : State) (pa n : Nat) : (fwFetch s pa n).2.2.rollout = s.rollout :=
  foldl_keeps (p := fun r : List Byte × Bool × State => r.2.2.rollout)
    (f := fun r i => let (d, bad, s) := fwGrain r.2.2 ((pa / 256 + i) * 256)
      (r.1 ++ d, r.2.1 || bad, s)) (fun r _ => rollout_fwGrain r.2.2 _) _ ([], false, s)

@[simp] theorem rollout_logEvent (s : State) (event : Nat) (u : LogUnit) (part : Nat) (ctx : Option Nat) (detail : Nat) :
    (logEvent s event u part ctx detail).rollout = s.rollout := by
  unfold logEvent writeLog msixRequest
  dsimp only
  repeat' split
  all_goals rfl

/-- Reading a request's ring again changes at most what it has seen of READ. -/
theorem getReq_rereadRing {s : State} {id : Nat} {r : Request} (found : getReq s id = some r) :
    ∃ seen, getReq (rereadRing s id) id = some { r with readSeen := seen } := by
  simp only [rereadRing, found]
  split
  · exact ⟨r.readSeen, by simpa [getReq] using found⟩
  · exact ⟨_, getReq_setReq _ _ _⟩

/-- No deadline passes as a ring is read. -/
@[simp] theorem tokenOf_rereadRing (s : State) (id : Nat) (r : Request) (w0 w1 : Word) :
    tokenOf (rereadRing s id) r w0 w1 = tokenOf s r w0 w1 := by
  have tick : now (rereadRing s id) = now s := congrArg Steady.tick (steady_rereadRing s id)
  simp only [tokenOf, deadlinePassed, tick]

/-! ### What decides before a command (R306, R317) -/

section
variable {r : Request} (live : rqLive r = true) (stays : r.state ≠ rqEvicted) (going : r.cancelPending = false)
include live stays going

theorem commitGate_passes {needsBinding afterCancel : Bool} (bound : needsBinding = true → r.bound = true) :
    commitGate r needsBinding afterCancel = none := by
  cases needsBinding with
  | false => simp [commitGate, live, stays, going]
  | true => simp [commitGate, live, stays, going, bound]

theorem commitGate_notBound {afterCancel : Bool} (unbound : r.bound = false) : commitGate r true afterCancel = some resNotBound := by
  simp [commitGate, live, stays, going, unbound]

end

/-! ### The frames -/

/-- What the command `op` stored to W0 of a request's slot does, once it is the context's own and in its journal (Table 12.7). -/
def commitOf (op : Nat) (s : State) (id : Nat) (w0 w1 : Word) : CommitRes :=
  match op with
  | 1 => commitBind s id w0
  | 2 => commitEmit s id w0 w1
  | 3 => commitDraft s id w0 w1
  | 4 => commitAccept s id w0
  | 5 => commitRollback s id w0
  | 6 => commitPrefilled s id
  | 7 => commitUnbind s id
  | 8 => commitFail s id w1
  | _ => .fault 0x02

theorem commitCommand_own {s : State} {n id : Nat} {w0 w1 : Word} {r : Request} (found : getReq s id = some r) (own : r.ctx = some n)
    (plain : fld w0 57 56 = 0) : commitCommand s n id w0 w1 = commitOf (fld w0 63 60) (journaled s n id) id w0 w1 := by
  simp only [commitCommand, found, own, plain, bne_self_eq_false, Bool.false_eq_true, if_false]
  rfl

section
variable {s t : State} {n req op res val : Nat} {w0 : Word} {r : Request} (reaches : Commits s n req op w0 r)
include reaches

theorem serving_answers (ran : ∀ w1, commitOf op (journaled s n req) req w0 w1 = .done res val t) :
    serving op n req w0 none s = .next (answered t n req w0 res val) := by
  obtain ⟨issues, isOp, plain, found, own, -⟩ := reaches
  have none : withW1 s n req none = s := rfl
  simp only [serving, issues, isOp, beq_self_eq_true, Bool.and_self, if_true, none, commitCommand_own found own plain, ran]
  rfl

theorem serving_withW1_answers {w1 : Word} (ran : commitOf op (journaled (storeW1 s n req w1) n req) req w0 w1 = .done res val t) :
    serving op n req w0 (some w1) s = .next (answered t n req w0 res val) := by
  obtain ⟨issues, isOp, plain, found, own, -⟩ := reaches
  have stored : withW1 s n req (some w1) = storeW1 s n req w1 := by simp only [withW1, found, own, if_true]
  have found : getReq (storeW1 s n req w1) req = some r := found
  have read : tget 0 (getCtx (storeW1 s n req w1) n).windowW1 req = w1 := by simp [storeW1]
  simp only [serving, issues, isOp, beq_self_eq_true, Bool.and_self, if_true, stored, read, commitCommand_own found own plain, ran]
  rfl

end

theorem execFetch_answers {s t : State} {n res val : Nat} {w0 : Word} (issues : canIssue s (.ctl n) n = true) (isOp : fld w0 63 60 = 9)
    (plain : fld w0 57 56 = 0) (ran : commitFetch (journal s (controlCoreOf n) 3 0x10000 true) n = .done res val t) :
    execFetch n w0 s = .next (dispatched t n w0 res val) := by
  simp only [execFetch, commitDispatch, issues, isOp, plain, beq_self_eq_true, Bool.and_self, decide_true, if_true, ran]
  rfl

/-! ### BIND (R311, R314, R315) -/

theorem setsNeeded_of_le {capacity target : Nat} (fits : target ≤ capacity) (fuel : Nat) : setsNeeded capacity target fuel = 0 := by
  cases fuel with
  | zero => rfl
  | succ fuel => exact if_pos fits

section
variable {s : State} {id ix pool : Nat} {w0 : Word} {r : Request} {m pm : Model} (found : getReq s id = some r)
  (gate : commitGate r false false = none) (space : r.state ≠ rqRingWait)
  (pages : r.sets.length + setsNeeded r.capacity (r.kvLen + fld w0 47 32) 300 ≤ 256)
  (pooled : poolModel s r = some (pool, pm)) (served : modelByHandle s r.part r.model = some (ix, m))
include found gate space pages pooled served

theorem commitBind_reads (noTokens : fld w0 47 32 = 0) : commitBind s id w0 =
    .done resOk r.capacity (syncReq (setReq s id { r with bound := true, boundEpoch := bindEpochOf s ix m }) id) := by
  rw [noTokens] at pages
  simp only [commitBind, found, gate, if_neg space, noTokens, if_neg (Nat.not_lt.mpr pages), pooled, served, if_true]

end

/-- What a BIND that writes answers, by how the copy of its last page set and its growth end. -/
def bindEnd (s : State) (id : Nat) (g : Grown) : CommitRes :=
  match g with
  | .room t => .done resOk ((getReq t id).elim 0 fun r => r.capacity) (syncReq t id)
  | .none t => .done resEvicted 0 (endBinding (evictReq t id true) id)
  | .full => .done resRefused 0 s

theorem commitBind_writes {s : State} {n id ix pool : Nat} {w0 : Word} {r : Request} {m pm : Model}
    (found : getReq (journaled s n id) id = some r) (gate : commitGate r false false = none) (space : r.state ≠ rqRingWait)
    (pages : r.sets.length + setsNeeded r.capacity (r.kvLen + fld w0 47 32) 300 ≤ 256)
    (pooled : poolModel (journaled s n id) r = some (pool, pm))
    (served : modelByHandle (journaled s n id) r.part r.model = some (ix, m))
    (tokens : 0 < fld w0 47 32) (kfmt : 1 ≤ fld w0 55 52 ∧ fld w0 55 52 ≤ 8) (vfmt : 1 ≤ fld w0 51 48 ∧ fld w0 51 48 ≤ 8) :
    commitBind (journaled s n id) id w0 = bindEnd (journaled s n id) id (bindGrown s n id ix pool w0 r m) := by
  have formats : (fld w0 55 52 = 0 || decide (8 < fld w0 55 52) || fld w0 51 48 = 0 || decide (8 < fld w0 51 48)) = false := by
    simp; omega
  simp only [commitBind, found, gate, if_neg space, if_neg (Nat.not_lt.mpr pages), pooled, served, if_neg (Nat.pos_iff_ne_zero.mp tokens),
    formats, Bool.false_eq_true, if_false]
  rfl

/-! ### EMIT and DRAFT (R313, R319 to R321) -/

section
variable {s : State} {id : Nat} {w0 w1 : Word} {r : Request} (found : getReq s id = some r) (gate : commitGate r true false = none)
include found gate

theorem commitEmit_refused (noSpace : r.drafts ≠ [] ∨ r.heldEntry.isSome = true) :
    commitEmit s id w0 w1 = .done resRefused r.tokensOut s := by
  have busy : (!r.drafts.isEmpty || r.heldEntry.isSome) = true := by simpa using noSpace
  simp only [commitEmit, found, gate, busy, if_true]

section
variable {q : Request} (noDrafts : r.drafts = []) (noEntry : r.heldEntry = none) (sound : wbit w0 58 = false)
  (read : getReq (rereadRing s id) id = some q)
include noDrafts noEntry sound read

theorem commitEmit_fits (fits : ringFits q 0 = true) : commitEmit s id w0 w1 = .done resOk (r.tokensOut + 1) (
    let t := publishToken (modReq (rereadRing s id) id fun x => { x with
      kvLen := x.kvLen + 1, published := x.published ++ [fld w0 31 0] }) id (tokenOf s r w0 w1) r.kvLen
    if wbit w0 59 = true ∨ r.maxNew ≤ r.tokensOut + 1 then endRequest t id 1 else endBinding t id) := by
  have free : (!r.drafts.isEmpty || r.heldEntry.isSome) = false := by simp [noDrafts, noEntry]
  have room : ringFits { q with kvLen := q.kvLen + 1, published := q.published ++ [fld w0 31 0] } 0 = true := fits
  simp only [commitEmit, found, gate, free, tokenOf, sound, modReq_of_getReq read, getReq_setReq, Option.any_some, room]
  simp only [Bool.false_eq_true, if_false, if_true, Bool.or_eq_true, decide_eq_true_eq]
  split <;> rfl

theorem commitEmit_held (full : ringFits q 0 = false) : commitEmit s id w0 w1 = .done resHeld r.tokensOut (endBinding
    (setReq (rereadRing s id) id { q with
      kvLen := q.kvLen + 1, published := q.published ++ [fld w0 31 0], state := rqRingWait
      heldEntry := some (tokenOf s r w0 w1, q.kvLen) }) id) := by
  have free : (!r.drafts.isEmpty || r.heldEntry.isSome) = false := by simp [noDrafts, noEntry]
  have noRoom : ringFits { q with kvLen := q.kvLen + 1, published := q.published ++ [fld w0 31 0] } 0 = false := full
  simp only [commitEmit, found, gate, free, tokenOf, sound, modReq_of_getReq read, getReq_setReq, Option.any_some, noRoom]
  simp only [Bool.false_eq_true, if_false, modReq_of_getReq (getReq_setReq _ _ _), setReq_setReq, Nat.add_sub_cancel]

end

theorem commitDraft_ok {q : Request} (read : getReq (rereadRing s id) id = some q) (fits : ringFits q r.drafts.length = true)
    (noEntry : q.heldEntry = none) (spec : r.drafts.length < r.specMax) (limit : r.drafts.length < r.maxNew - r.tokensOut) :
    commitDraft s id w0 w1 = .done resOk r.tokensOut (syncReq (modReq (rereadRing s id) id fun x => { x with
      drafts := x.drafts ++ [tokenOf s r w0 w1], kvLen := x.kvLen + 1 }) id) := by
  have carried : tokenOf s q w0 w1 = tokenOf s r w0 w1 := by
    obtain ⟨seen, kept⟩ := getReq_rereadRing found
    obtain rfl := Option.some.inj (read.symm.trans kept)
    rfl
  simp [commitDraft, found, gate, fits, noEntry, spec, limit, read, modReq_of_getReq read, carried]

/-! ### ACCEPT, ROLLBACK, PREFILLED, UNBIND and FAIL (R307, R316, R321) -/

theorem commitAccept_ok {u : State} (accepted : u = acceptLoop (rereadRing s id) id (min (fld w0 47 32) r.drafts.length)) :
    commitAccept s id w0 = .done resOk ((getReq u id).elim 0 fun r => r.tokensOut) (syncReq u id) := by
  subst accepted
  simp only [commitAccept, found, gate]

theorem commitRollback_ok {k : Nat} (dropped : k = min (fld w0 47 32) r.drafts.length) : commitRollback s id w0 =
    .done resOk r.tokensOut (syncReq (setReq s id { r with
      drafts := r.drafts.take (r.drafts.length - k), kvLen := r.kvLen - k }) id) := by
  subst dropped
  simp only [commitRollback, found, gate]

theorem commitPrefilled_ok (prefill : r.state = rqPrefill) (noPrefix : r.pfxLen = 0) (noEntry : r.heldEntry = none)
    (tokens : 0 < r.maxNew) : commitPrefilled s id = .done resOk r.tokensOut (endBinding (setReq s id { r with
      kvLen := r.pfxTokens + r.replayLen, state := rqDecode }) id) := by
  simp [commitPrefilled, found, gate, prefill, noPrefix, noEntry, Nat.pos_iff_ne_zero.mp tokens]

end

theorem commitUnbind_ok {s : State} {id : Nat} {r : Request} (found : getReq s id = some r) (gate : commitGate r true true = none) :
    commitUnbind s id = .done resOk r.tokensOut (endBinding s id) := by
  simp only [commitUnbind, found, gate]

theorem commitFail_ok {s : State} {id : Nat} {w1 : Word} {r : Request} (found : getReq s id = some r)
    (gate : commitGate r true true = none) (code : fld w1 31 0 = 4 ∨ fld w1 31 0 = 5) :
    commitFail s id w1 = .done resOk r.tokensOut (endRequest s id (fld w1 31 0)) := by
  have known : (fld w1 31 0 != 4 && fld w1 31 0 != 5) = false := by simpa [← not_or, or_iff_not_imp_left] using code
  simp only [commitFail, found, gate, known, Bool.false_eq_true, if_false]

/-- A command that needs a binding answers NOT_BOUND without one. -/
theorem commitOf_notBound {s : State} {id op : Nat} {w0 w1 : Word} {r : Request} (found : getReq s id = some r)
    (gate : ∀ afterCancel, commitGate r true afterCancel = some resNotBound) (needs : op ∈ [4, 5, 6, 7]) :
    commitOf op s id w0 w1 = .done resNotBound 0 s := by
  simp only [List.mem_cons, List.not_mem_nil, or_false] at needs
  obtain rfl | rfl | rfl | rfl := needs
  · simp only [commitOf, commitAccept, found, gate]
  · simp only [commitOf, commitRollback, found, gate]
  · simp only [commitOf, commitPrefilled, found, gate]
  · simp only [commitOf, commitUnbind, found, gate]

/-! ### FETCH (R309) -/

theorem commitFetch_empty {s : State} {n : Nat} (nothing : nextReady s n = none) : commitFetch s n = .done resEmpty 0 s := by
  simp only [commitFetch, nothing]

theorem commitFetch_found {s u : State} {n id ix : Nat} {r : Request} {m : Model} (next : nextReady s n = some id)
    (found : getReq s id = some r) (regained : regainPrefix s r = some u) (served : modelByHandle u r.part r.model = some (ix, m)) :
    commitFetch s n = .done resOk id (
      let q : Request := { r with
        state := rqPrefill, ctx := some n, sets := r.pfxSets, capacity := setsCapacity u r.pfxSets, kvLen := r.pfxTokens,
        replayLen := r.promptTokens + r.published.length, pagesVa := Config.pagesVa id, replayVa := Config.replayVa id }
      let t := syncModel (setModel (setReq u id q) ix { m with use := m.use + 1, lastUse := now u }) ix
      syncReq t id) := by
  have served (q : Request) : modelByHandle (setReq u id q) r.part r.model = some (ix, m) := served
  simp only [commitFetch, next, found, regained, served]
  rfl

end Machine
end Sys2Proof
end

section
/-! The commands of the commit window, with what they answer (O38). -/
namespace Sys2Proof
namespace Machine

section
variable {s : State} {n req : Nat} {w0 : Word} {r : Request}

theorem commitGate_of_commits {op : Nat} (reaches : Commits s n req op w0 r) (afterCancel : Bool) :
    commitGate r false afterCancel = none := by
  obtain ⟨-, -, -, -, -, live, stays, going⟩ := reaches
  exact commitGate_passes live stays going (by simp)

theorem commitGate_of_bound {op : Nat} (reaches : Commits s n req op w0 r) (bound : r.bound = true) (afterCancel : Bool) :
    commitGate r true afterCancel = none := by
  obtain ⟨-, -, -, -, -, live, stays, going⟩ := reaches
  exact commitGate_passes live stays going fun _ => bound

theorem getReq_journaled {op : Nat} (reaches : Commits s n req op w0 r) : getReq (journaled s n req) req = some r := by
  obtain ⟨-, -, -, found, -⟩ := reaches
  exact found

theorem getReq_journaled_storeW1 {op : Nat} (reaches : Commits s n req op w0 r) (w1 : Word) :
    getReq (journaled (storeW1 s n req w1) n req) req = some r := by
  obtain ⟨-, -, -, found, -⟩ := reaches
  exact found

section
variable {ix pool : Nat} {m pm : Model} (reaches : Commits s n req 1 w0 r) (space : r.state ≠ rqRingWait)
  (pooled : poolModel s r = some (pool, pm)) (served : modelByHandle s r.part r.model = some (ix, m))
include reaches space pooled served

theorem exec_bind_reads (noTokens : fld w0 47 32 = 0) (held : r.kvLen ≤ r.capacity) (pages : r.sets.length ≤ 256) :
    exec (.bind n req w0) s = .next (answered (syncReq (setReq (journaled s n req) req
      { r with bound := true, boundEpoch := bindEpochOf s ix m }) req) n req w0 resOk r.capacity) :=
  serving_answers reaches fun _ => commitBind_reads (getReq_journaled reaches) (commitGate_of_commits reaches false) space
    (by rwa [noTokens, Nat.add_zero, setsNeeded_of_le held]) pooled served noTokens

theorem exec_bind_writes {grown : Grown} (tokens : 0 < fld w0 47 32) (kfmt : 1 ≤ fld w0 55 52 ∧ fld w0 55 52 ≤ 8)
    (vfmt : 1 ≤ fld w0 51 48 ∧ fld w0 51 48 ≤ 8)
    (pages : r.sets.length + setsNeeded r.capacity (r.kvLen + fld w0 47 32) 300 ≤ 256) :
    bindGrown s n req ix pool w0 r m = grown → exec (.bind n req w0) s = .next (match grown with
      | .room u => answered (syncReq u req) n req w0 resOk ((getReq u req).elim 0 fun r => r.capacity)
      | .none u => answered (endBinding (evictReq u req true) req) n req w0 resEvicted 0
      | .full => answered (journaled s n req) n req w0 resRefused 0) := by
  intro grows
  have ends (w1 : Word) : commitOf 1 (journaled s n req) req w0 w1 = bindEnd (journaled s n req) req (bindGrown s n req ix pool w0 r m) :=
    commitBind_writes (getReq_journaled reaches) (commitGate_of_commits reaches false) space pages pooled served tokens kfmt vfmt
  rw [grows] at ends
  cases grown with
  | room u => exact serving_answers reaches ends
  | none u => exact serving_answers reaches ends
  | full => exact serving_answers reaches ends

end

section
variable {w1 : Word} (bound : r.bound = true)
include bound

section
variable (reaches : Commits s n req 2 w0 r)
include reaches

theorem exec_emit_refused (noSpace : r.drafts ≠ [] ∨ r.heldEntry.isSome = true) :
    exec (.emit n req w0 w1) s = .next (answered (journaled (storeW1 s n req w1) n req) n req w0 resRefused r.tokensOut) :=
  serving_withW1_answers reaches
    (commitEmit_refused (getReq_journaled_storeW1 reaches w1) (commitGate_of_bound reaches bound false) noSpace)

section
variable {u : State} {q : Request} (noDrafts : r.drafts = []) (noEntry : r.heldEntry = none) (sound : wbit w0 58 = false)
  (read : u = rereadRing (journaled (storeW1 s n req w1) n req) req) (found : getReq u req = some q)
include noDrafts noEntry sound read found

theorem exec_emit_fits (fits : ringFits q 0 = true) : exec (.emit n req w0 w1) s = .next (answered (
    let t := publishToken (modReq u req fun r => { r with
      kvLen := r.kvLen + 1, published := r.published ++ [fld w0 31 0] }) req (tokenOf s r w0 w1) r.kvLen
    if wbit w0 59 = true ∨ r.maxNew ≤ r.tokensOut + 1 then endRequest t req 1 else endBinding t req) n req w0 resOk (r.tokensOut + 1)) := by
  subst read
  exact serving_withW1_answers reaches (commitEmit_fits (getReq_journaled_storeW1 reaches w1) (commitGate_of_bound reaches bound false)
    noDrafts noEntry sound found fits)

theorem exec_emit_held (full : ringFits q 0 = false) : exec (.emit n req w0 w1) s = .next (answered (endBinding (setReq u req { q with
    kvLen := r.kvLen + 1, published := r.published ++ [fld w0 31 0], state := rqRingWait
    heldEntry := some (tokenOf s r w0 w1, r.kvLen) }) req) n req w0 resHeld r.tokensOut) := by
  subst read
  have ran := commitEmit_held (w1 := w1) (getReq_journaled_storeW1 reaches w1) (commitGate_of_bound reaches bound false) noDrafts noEntry sound found
    full
  obtain ⟨seen, kept⟩ := getReq_rereadRing (getReq_journaled_storeW1 reaches w1)
  obtain rfl := Option.some.inj (found.symm.trans kept)
  exact serving_withW1_answers reaches ran

end
end

theorem exec_draft_ok {u : State} {q : Request} (reaches : Commits s n req 3 w0 r)
    (read : u = rereadRing (journaled (storeW1 s n req w1) n req) req) (found : getReq u req = some q)
    (fits : ringFits q r.drafts.length = true) (noEntry : q.heldEntry = none) (spec : r.drafts.length < r.specMax)
    (limit : r.drafts.length < r.maxNew - r.tokensOut) :
    exec (.draft n req w0 w1) s = .next (answered (syncReq (modReq u req fun x => { x with
      drafts := x.drafts ++ [tokenOf s r w0 w1], kvLen := x.kvLen + 1 }) req) n req w0 resOk r.tokensOut) := by
  subst read
  exact serving_withW1_answers reaches (commitDraft_ok (getReq_journaled_storeW1 reaches w1) (commitGate_of_bound reaches bound false) found
    fits noEntry spec limit)

theorem exec_fail_ok (reaches : Commits s n req 8 w0 r) (code : fld w1 31 0 = 4 ∨ fld w1 31 0 = 5) :
    exec (.fail n req w0 w1) s = .next (answered (endRequest (journaled (storeW1 s n req w1) n req) req (fld w1 31 0))
      n req w0 resOk r.tokensOut) :=
  serving_withW1_answers reaches (commitFail_ok (getReq_journaled_storeW1 reaches w1) (commitGate_of_bound reaches bound true) code)

theorem exec_accept_ok {u : State} (reaches : Commits s n req 4 w0 r)
    (accepted : u = acceptLoop (rereadRing (journaled s n req) req) req (min (fld w0 47 32) r.drafts.length)) :
    exec (.accept n req w0) s = .next (answered (syncReq u req) n req w0 resOk ((getReq u req).elim 0 fun r => r.tokensOut)) :=
  serving_answers reaches fun _ => commitAccept_ok (getReq_journaled reaches) (commitGate_of_bound reaches bound false) accepted

theorem exec_rollback_ok {k : Nat} (reaches : Commits s n req 5 w0 r) (dropped : k = min (fld w0 47 32) r.drafts.length) :
    exec (.rollback n req w0) s = .next (answered (syncReq (setReq (journaled s n req) req { r with
      drafts := r.drafts.take (r.drafts.length - k), kvLen := r.kvLen - k }) req) n req w0 resOk r.tokensOut) :=
  serving_answers reaches fun _ => commitRollback_ok (getReq_journaled reaches) (commitGate_of_bound reaches bound false) dropped

theorem exec_prefilled_ok (reaches : Commits s n req 6 w0 r) (prefill : r.state = rqPrefill) (noPrefix : r.pfxLen = 0)
    (noEntry : r.heldEntry = none) (tokens : 0 < r.maxNew) :
    exec (.prefilled n req w0) s = .next (answered (endBinding (setReq (journaled s n req) req { r with
      kvLen := r.pfxTokens + r.replayLen, state := rqDecode }) req) n req w0 resOk r.tokensOut) :=
  serving_answers reaches fun _ => commitPrefilled_ok (getReq_journaled reaches) (commitGate_of_bound reaches bound false) prefill noPrefix
    noEntry tokens

theorem exec_unbind_ok (reaches : Commits s n req 7 w0 r) :
    exec (.unbind n req w0) s = .next (answered (endBinding (journaled s n req) req) n req w0 resOk r.tokensOut) :=
  serving_answers reaches fun _ => commitUnbind_ok (getReq_journaled reaches) (commitGate_of_bound reaches bound true)

end

theorem exec_commit_notBound {op : Nat} {i : Instr} (reaches : Commits s n req op w0 r) (unbound : r.bound = false)
    (command : (i, op) ∈ [(Instr.accept n req w0, 4), (.rollback n req w0, 5), (.prefilled n req w0, 6), (.unbind n req w0, 7)]) :
    exec i s = .next (answered (journaled s n req) n req w0 resNotBound 0) := by
  have found := getReq_journaled reaches
  have gate (afterCancel : Bool) : commitGate r true afterCancel = some resNotBound := by
    obtain ⟨-, -, -, -, -, live, stays, going⟩ := reaches
    exact commitGate_notBound live stays going unbound
  simp only [List.mem_cons, Prod.mk.injEq, List.not_mem_nil, or_false] at command
  obtain ⟨rfl, rfl⟩ | ⟨rfl, rfl⟩ | ⟨rfl, rfl⟩ | ⟨rfl, rfl⟩ := command
  all_goals exact serving_answers reaches fun _ => commitOf_notBound found gate (by decide)

end

/-- Settles O38: nothing decides before the command, so the slot answers with what the command makes of its request. -/
theorem commitResults : Obligations.CommitResults := by
  refine ⟨fun _ _ _ _ _ _ _ _ _ reaches noTokens space held pages pooled served =>
      exec_bind_reads reaches space pooled served noTokens held pages,
    fun _ _ _ _ _ _ _ _ _ _ reaches tokens kfmt vfmt space pages pooled served grows =>
      exec_bind_writes reaches space pooled served tokens kfmt vfmt pages grows,
    ?fits, ?held, fun _ _ _ _ _ _ reaches bound noSpace => exec_emit_refused bound reaches noSpace,
    fun _ _ _ _ _ _ _ _ reaches bound read found fits noEntry spec limit =>
      exec_draft_ok bound reaches read found fits noEntry spec limit,
    fun _ _ _ _ _ _ reaches bound accepted => exec_accept_ok bound reaches accepted,
    fun _ _ _ _ _ _ reaches bound dropped => exec_rollback_ok bound reaches dropped,
    fun _ _ _ _ _ reaches bound prefill noPrefix noEntry tokens => exec_prefilled_ok bound reaches prefill noPrefix noEntry tokens,
    fun _ _ _ _ _ reaches bound => exec_unbind_ok bound reaches,
    fun _ _ _ _ _ _ reaches bound code => exec_fail_ok bound reaches code,
    fun _ _ _ _ _ _ _ reaches unbound command => exec_commit_notBound reaches unbound command,
    fun _ _ _ issues isOp plain nothing => execFetch_answers issues isOp plain (commitFetch_empty nothing),
    fun _ _ _ _ _ _ _ _ issues isOp plain next found regained served =>
      execFetch_answers issues isOp plain (commitFetch_found next found regained served)⟩
  case fits =>
    intro s u n req w0 w1 r q reaches bound noDrafts sound read found fits noEntry
    simpa only [tokenOf, sound] using exec_emit_fits bound reaches noDrafts noEntry sound read found fits
  case held =>
    intro s u n req w0 w1 r q reaches bound noDrafts sound read found full noEntry
    simpa only [tokenOf, sound] using exec_emit_held bound reaches noDrafts noEntry sound read found full

end Machine
end Sys2Proof
end

section
/-! Models: what each doorbell of the model table, and each event of a load and of a replacement, does to its model (R326 to R341). -/
namespace Sys2Proof
namespace Machine

/-! ### The index that a LOAD takes (R326) -/

theorem tfind_of_not_thas {α : Type} {t : Tbl α} {k : Nat} (absent : thas t k = false) : tfind t k = none := by
  induction t with
  | nil => rfl
  | cons e t ih =>
    obtain ⟨other, absent⟩ := Bool.or_eq_false_iff.mp absent
    exact (if_neg (ne_of_beq_false other)).trans (ih absent)

theorem tfind_of_tfree {α : Type} {t : Tbl α} {n k : Nat} (free : tfree t n = some k) : tfind t k = none :=
  tfind_of_not_thas (by simpa using List.find?_some free)

theorem takeIndex_spec {s u : State} {p ix g : Nat} (taken : takeIndex s p = some (ix, g, u)) :
    tfind s.models ix = none ∧ (getPart u p).mdlLoads = (getPart s p).mdlLoads + 1 := by
  unfold takeIndex at taken
  split at taken
  · cases taken
  next free =>
    cases taken
    exact ⟨tfind_of_tfree free, by rw [getPart_modPart]; rfl⟩

/-! ### LOAD (R327, R328, R330) -/

theorem recordImage_refused {s : State} {p src : Nat} {w : Nat → Word} {bad : Bool} (fails : bad = true ∨ modelRecordOk s p w = false) :
    recordImage s p w bad src = (none, s) :=
  if_pos (by simpa using fails)

theorem loadEffect_badSlot {t : State} {p slot : Nat} (bad : slotInTable t p slot = false ∨ (modelBySlot t p slot).isSome = true) :
    loadEffect t p slot = badModelDoorbell t p :=
  if_pos (by simpa using bad)

section
variable {t u v x : State} {p slot ix g : Nat} {w : Nat → Word} {bad : Bool} (inTable : slotInTable t p slot = true)
  (free : modelBySlot t p slot = none) (record : modelRecord (journal t 0 4 (p * 256 + slot) true) p slot = (w, bad, u))
include inTable free record

theorem loadEffect_full (full : takeIndex u p = none) : loadEffect t p slot = refuseSlot u p slot 4 := by
  simp [loadEffect, inTable, free, record, full]

theorem loadEffect_refused (taken : takeIndex u p = some (ix, g, v)) (image : recordImage v p w bad (fld (w 1) 47 0) = (none, x)) :
    loadEffect t p slot = refuseModel x ix (readModel p slot g w []) 3 := by
  simp [loadEffect, inTable, free, record, taken, image]

theorem loadEffect_checked {ls : List Layer} (taken : takeIndex u p = some (ix, g, v))
    (image : recordImage v p w bad (fld (w 1) 47 0) = (some ls, x)) :
    loadEffect t p slot = loadChecked x ix (readModel p slot g w ls) := by
  simp [loadEffect, inTable, free, record, taken, image]

end

section
variable {s u : State} {ix : Nat} {m : Model} (base : m.kind = 0)
include base

theorem loadChecked_fits {a : Model} (room : allocEvict s ix m 257 = (u, some a)) :
    loadChecked s ix m = syncModel (setModel u ix { a with
      state := if a.layers.isEmpty then mdlResident else mdlLoading, epoch := 1, installed := 0,
      kvElems := Config.kvRowElems (handleOf ix a), poolVa := Config.kvPoolVa (handleOf ix a) }) ix := by
  simp only [loadChecked, if_pos base, startLoad, room]

theorem loadChecked_noSpace (full : allocEvict s ix m 257 = (u, none)) : loadChecked s ix m = refuseModel u ix m 4 := by
  simp only [loadChecked, if_pos base, startLoad, full]

end

/-! ### The other doorbells of a slot (R328, R331, R336, R339) -/

theorem modelDoorbell_outside {t : State} {p slot : Nat} {f : State → Nat → Model → State} (outside : slotInTable t p slot = false) :
    modelDoorbell t p slot f = badModelDoorbell t p :=
  if_pos (by simp only [outside, Bool.not_false])

theorem modelDoorbell_alive {t : State} {p slot ix : Nat} {m : Model} {f : State → Nat → Model → State}
    (inTable : slotInTable t p slot = true) (found : modelBySlot t p slot = some (ix, m)) :
    modelDoorbell t p slot f = f (journal t 0 5 ix true) ix m := by
  simp [modelDoorbell, inTable, found]

section
variable {t : State} {p slot ix : Nat} {m : Model} (inTable : slotInTable t p slot = true)
  (found : modelBySlot t p slot = some (ix, m))
include inTable found

theorem detachEffect_alive (n : Nat) : detachEffect t p slot n = detachOne (journal t 0 5 ix true) ix n :=
  modelDoorbell_alive inTable found

theorem ringBell_replace_alive : ringBell (.replace p slot) t = replaceEffect (journal t 0 5 ix true) p slot ix m :=
  modelDoorbell_alive (f := fun s ix m => replaceEffect s p slot ix m) inTable found

theorem unloadEffect_unused (unnamed : namedByLive t p (handleOf ix m) = false) (noAddition : usedAsBase t p (handleOf ix m) = false) :
    unloadEffect t p slot = endModel (journal t 0 5 ix true) ix 1 := by
  refine (modelDoorbell_alive inTable found).trans (if_neg ?_)
  change ¬ (namedByLive t p (handleOf ix m) || usedAsBase t p (handleOf ix m)) = true
  simp only [unnamed, noAddition, Bool.or_false, Bool.false_eq_true, not_false_eq_true]

theorem unloadEffect_used (used : namedByLive t p (handleOf ix m) = true ∨ usedAsBase t p (handleOf ix m) = true) :
    unloadEffect t p slot = badModelDoorbell (journal t 0 5 ix true) p :=
  (modelDoorbell_alive inTable found).trans (if_pos (Bool.or_eq_true_iff.mpr used))

theorem attachEffect_base {n : Nat} {serve : Bool} (inside : inCtxRange t p n = true)
    (allowed : m.kind = 0 ∧ m.shared = true ∨ n = m.owner) (active : ctxActive (getCtx t n) = true) (base : m.kind = 0) :
    attachEffect t p slot n serve = attachOne (journal t 0 5 ix true) ix n serve (!m.shared) := by
  have inside : inCtxRange (journal t 0 5 ix true) p n = true := inside
  have active : ctxActive (getCtx (journal t 0 5 ix true) n) = true := active
  refine (modelDoorbell_alive inTable found).trans ?_
  rcases allowed with ⟨-, shared⟩ | rfl
  · simp [inside, active, base, shared]
  · simp [inside, active, base]

theorem attachEffect_outside {n : Nat} {serve : Bool} (outside : inCtxRange t p n = false) :
    attachEffect t p slot n serve = badModelDoorbell (journal t 0 5 ix true) p :=
  (modelDoorbell_alive inTable found).trans (if_pos (congrArg not outside))

end

/-! ### REPLACE on a base that is not being replaced (R339 step 1) -/

section
variable {s : State} {p slot ix : Nat} {m : Model} (base : m.kind = 0) (idle : m.replStatus ≠ 1) (notDue : m.replaceDue = false)
include base idle notDue

theorem replaceEffect_loading (loading : m.state = mdlLoading) :
    replaceEffect s p slot ix m = setModel s ix { m with replaceDue := true } := by
  simp [replaceEffect, base, idle, notDue, loading]

section
variable {u x : State} {w : Nat → Word} {bad : Bool} (loaded : m.state ≠ mdlLoading) (record : modelRecord s p slot = (w, bad, u))
include loaded record

theorem replaceEffect_refused (image : recordImage u p w bad (fld (w 4) 47 0) = (none, x)) :
    replaceEffect s p slot ix m = endModel x ix 3 := by
  simp [replaceEffect, base, idle, notDue, loaded, record, image]

theorem replaceEffect_otherShape {ls : List Layer} (image : recordImage u p w bad (fld (w 4) 47 0) = (some ls, x))
    (differs : sameShape ls m.layers = false) :
    replaceEffect s p slot ix m = syncModel (setModel x ix { m with replStatus := 3 }) ix := by
  simp [replaceEffect, base, idle, notDue, loaded, record, image, differs]

end

theorem replaceEffect_starts {u x : State} {w : Nat → Word} {bad : Bool} {ls : List Layer} (resident : m.state = mdlResident)
    (record : modelRecord s p slot = (w, bad, u)) (image : recordImage u p w bad (fld (w 4) 47 0) = (some ls, x))
    (same : sameShape ls m.layers = true) (layers : m.layers ≠ []) :
    replaceEffect s p slot ix m = syncModel (setModel x ix { m with
      replSrcPa := fld (w 4) 47 0, epoch := m.epoch + 1, installed := 0, staged := 0, stagedAt := [],
      failures := [], retried := false, replStatus := 1, state := mdlReplacing, installing := false }) ix := by
  have loaded : m.state ≠ mdlLoading := by rw [resident]; decide
  have settled : m.state ≠ mdlReplacing := by rw [resident]; decide
  simp [replaceEffect, base, idle, notDue, loaded, settled, record, image, same, layers]

end

/-! ### Loads (R330) -/

theorem execLayerLoaded_loads {s : State} {ix : Nat} {m : Model} {l : Layer} (found : tfind s.models ix = some m)
    (loading : m.state = mdlLoading) (notDue : m.replaceDue = false) (layer : m.layers[m.installed]? = some l) :
    execLayerLoaded ix s = .next (
      let q : Model := { m with
        layers := lset m.layers m.installed { l with epoch := m.epoch }, installed := m.installed + 1, failures := [],
        state := if m.installed + 1 = m.layers.length then mdlResident else mdlLoading }
      wakeEnters (syncModel (setModel (copyLayer s m m.srcPa l) ix q) ix) (handleOf ix m) m.installed) := by
  simp only [execLayerLoaded, found, if_pos loading, layer, notDue, Bool.and_false, Bool.false_eq_true, if_false, Nat.add_sub_cancel]
  rfl

/-! ### Failed reads of a source image (R330, R341) -/

/-- A read fails for good when it was the one that a stalled replacement made again, or the third in a row of its grain. -/
theorem not_readAgain_of_last {m : Model} {grain : Nat} (last : m.retried = true ∨ 2 ≤ tget 0 m.failures grain) :
    (decide (tget 0 m.failures grain + 1 < 3) && !m.retried) = false := by
  rcases last with again | third
  · simp [again]
  · simp [Nat.not_lt.mpr (Nat.succ_le_succ third)]

section
variable {s : State} {f : SourceFail} {m : Model} (found : tfind s.models f.model = some m)
include found

theorem execSourceReadFail_notReading (idle : reading m = false) : execSourceReadFail f s = .next s := by
  simp only [execSourceReadFail, found, idle, Bool.not_false, if_true]

section
variable (reads : reading m = true)
include reads

theorem execSourceReadFail_again (first : m.retried = false) (few : tget 0 m.failures f.grain < 2) :
    execSourceReadFail f s = .next (countFailed (setModel s f.model { m with
      failures := tput m.failures f.grain (tget 0 m.failures f.grain + 1) })) := by
  have fewer : tget 0 m.failures f.grain + 1 < 3 := Nat.succ_lt_succ few
  simp [execSourceReadFail, found, reads, first, fewer]

section
variable (last : m.retried = true ∨ 2 ≤ tget 0 m.failures f.grain)
include last

theorem execSourceReadFail_stalls (loaded : m.state ≠ mdlLoading) :
    execSourceReadFail f s = .next (syncModel (setModel (countFailed s) f.model { m with
      failures := [], retried := false, replStatus := 4 }) f.model) := by
  have ends := not_readAgain_of_last last
  simp [execSourceReadFail, found, reads, ends, loaded]

theorem execSourceReadFail_loadFails (loading : m.state = mdlLoading)
    (unnamed : ∀ e ∈ s.rollout.requests, rqLive e.2 = true → e.2.part = m.part → e.2.model ≠ handleOf f.model m) :
    execSourceReadFail f s = .next (endModel (countFailed s) f.model 5) := by
  have ends := not_readAgain_of_last last
  have noRequests : (s.rollout.requests.filter fun e => rqLive e.2 && e.2.part == m.part && e.2.model == handleOf f.model m) = [] := by
    rw [List.filter_eq_nil_iff]
    simpa [and_imp] using unnamed
  simp [execSourceReadFail, found, reads, ends, loading, noRequests]

end
end
end

/-! ### Staging and installs of a replacement (R339, R341) -/

theorem aside_readSource (s : State) (m : Model) (pa : Nat) : aside (readSource s m pa).2.2 = aside s := aside_readGrain s pa

section
variable {s : State} {ix : Nat} {m : Model} (found : tfind s.models ix = some m)
include found

theorem execLayerStaged_stages {pl : Nat} {l : Layer} (replacing : m.state = mdlReplacing) (runs : m.replStatus = 1)
    (layer : m.layers[m.staged]? = some l) (fits : stagePlace m l = some pl) :
    ∃ t, aside t = aside s ∧ execLayerStaged ix s = .next (setModel t ix { m with
      staged := m.staged + 1, stagedAt := m.stagedAt ++ [(m.staged, pl)], failures := [] }) := by
  have reads : replReading m = true := by simp [replReading, replacing, runs]
  simp only [execLayerStaged, found, if_pos reads, layer, fits, readAgain, if_pos runs]
  exact ⟨_, foldl_keeps (p := aside) (fun _ _ => (aside_writeGrain _ _ _ _).trans (aside_readSource _ _ _)) _ _, rfl⟩

section
variable {l : Layer} (layer : m.layers[m.installed]? = some l)
include layer

theorem execLayerInstall_waits (older : olderPassed m m.installed = false) : execLayerInstall ix s = .next s := by
  simp [execLayerInstall, found, layer, older]

section
variable (replacing : m.state = mdlReplacing)
include replacing

/-- The branches are split here, not simplified: the kernel would compute the address that a grain is read at. -/
theorem execLayerInstall_installs {k pl : Nat} (idle : m.installing = false) (older : olderPassed m m.installed = true)
    (staged : (m.stagedAt.find? fun e => e.1 == m.installed) = some (k, pl)) :
    ∃ t, aside t = aside s ∧ execLayerInstall ix s = .next (setModel t ix { m with installing := true }) := by
  have ready : (decide (m.state = mdlReplacing) && !m.installing && olderPassed m m.installed) = true := by simp [replacing, idle, older]
  unfold execLayerInstall
  split
  next absent => cases found.symm.trans absent
  next held =>
    cases found.symm.trans held
    split
    next absent => cases layer.symm.trans absent
    next held =>
      cases layer.symm.trans held
      rw [if_pos ready]
      split
      next held =>
        cases staged.symm.trans held
        refine ⟨_, foldl_keeps (p := aside) (fun s g => ?_) _ _, rfl⟩
        have read := aside_readGrain s (spacePa m.stagePages (256 * (pl + g)))
        generalize readGrain s _ = r at read ⊢
        obtain ⟨data, tag, t⟩ := r
        exact (aside_writeGrain _ _ _ _).trans read
      next absent => cases staged.symm.trans absent

theorem execLayerInstalled_goesOn (installing : m.installing = true) (more : m.installed + 1 < m.layers.length) :
    execLayerInstalled ix s = .next (wakeEnters (syncModel (setModel s ix { m with
      layers := lset m.layers m.installed { l with epoch := m.epoch }, installed := m.installed + 1, installing := false,
      stagedAt := m.stagedAt.filter (fun e => e.1 != m.installed) }) ix) (handleOf ix m) m.installed) := by
  simp [execLayerInstalled, found, layer, replacing, installing, more.ne]

end
end

theorem execReplaceRetry_retries (replacing : m.state = mdlReplacing) (stalled : m.replStatus ≠ 1) :
    execReplaceRetry ix s = .next (setModel s ix { m with retried := true }) := by
  simp [execReplaceRetry, found, replacing, stalled]

end

/-! ### USE (R335) -/

theorem execUseDecay_due {s : State} (due : s.rollout.decayAt + 48000000 ≤ s.clk.tick) :
    execUseDecay s = .next (
      let u := modRo s fun ro => { ro with decayAt := s.clk.tick }
      syncModels { u with models := tmap (fun _ m => { m with use := m.use / 2 }) u.models }) := by
  unfold execUseDecay
  exact if_neg (Nat.not_lt.mpr due)

theorem execUseDecay_early {s : State} (early : s.clk.tick < s.rollout.decayAt + 48000000) : execUseDecay s = .next s := by
  unfold execUseDecay
  exact if_pos early

end Machine
end Sys2Proof
end

section
/-! LOAD, UNLOAD, REPLACE, ATTACH and DETACH (O39), and the events of loads and replacements (O40). -/
namespace Sys2Proof
namespace Machine

/-- A doorbell that firmware takes at once ends in what it makes of the state. -/
theorem doorbell_of_ringBell {s t u : State} {p : Nat} {c : Instr} (arrives : AtOnce s t p c) (effect : ringBell c t = u) :
    doorbell p c s = .next u :=
  (doorbell_atOnce arrives).trans (congrArg _ effect)

theorem exec_modelBell_outside {s t : State} {p slot n : Nat} {serve : Bool} {i : Instr} (arrives : AtOnce s t p i)
    (outside : slotInTable t p slot = false)
    (bell : i ∈ [Instr.load p slot, .unload p slot, .replace p slot, .attach p slot n serve, .detach p slot n]) :
    exec i s = .next (badModelDoorbell t p) := by
  simp only [List.mem_cons, List.not_mem_nil, or_false] at bell
  obtain rfl | rfl | rfl | rfl | rfl := bell
  · exact doorbell_of_ringBell arrives (loadEffect_badSlot (.inl outside))
  all_goals
    refine doorbell_of_ringBell arrives ?_
    simp only [ringBell, unloadEffect, attachEffect, detachEffect, modelDoorbell_outside outside]

/-- Settles O39: a doorbell of the model table taken at once does what its function makes of the slot, its record and its model. -/
theorem modelDoorbells : Obligations.ModelDoorbells := by
  refine ⟨?load, ?loadRefused, ?loadFull, fun _ _ _ _ _ fails => recordImage_refused fails, fun _ _ _ _ _ taken => takeIndex_spec taken,
    fun _ _ _ _ _ base room _ => loadChecked_fits base room, fun _ _ _ _ base full => loadChecked_noSpace base full,
    ?loadTaken, ?unload, ?unloadUsed, ?replace, ?replaceRefused, ?replaceShape, ?replaceLoading, ?attach, ?attachOutside, ?detach,
    fun _ _ _ _ _ _ _ arrives outside bell => exec_modelBell_outside arrives outside bell⟩
  case load =>
    intro s t u v x p slot ix g w bad ls arrives inTable free record taken image
    exact doorbell_of_ringBell arrives (loadEffect_checked inTable free record taken image)
  case loadRefused =>
    intro s t u v x p slot ix g w bad arrives inTable free record taken image
    exact doorbell_of_ringBell arrives (loadEffect_refused inTable free record taken image)
  case loadFull =>
    intro s t u p slot w bad arrives inTable free record full
    exact doorbell_of_ringBell arrives (loadEffect_full inTable free record full)
  case loadTaken =>
    intro s t p slot ix m arrives inTable found
    exact doorbell_of_ringBell arrives (loadEffect_badSlot (.inr (by rw [found]; rfl)))
  case unload =>
    intro s t p slot ix m arrives inTable found unnamed noAddition
    exact doorbell_of_ringBell arrives (unloadEffect_unused inTable found unnamed noAddition)
  case unloadUsed =>
    intro s t p slot ix m arrives inTable found used
    exact doorbell_of_ringBell arrives (unloadEffect_used inTable found used)
  case replace =>
    intro s t u x p slot ix w bad m ls arrives inTable found base resident idle notDue record image same layers
    exact doorbell_of_ringBell arrives ((ringBell_replace_alive inTable found).trans
      (replaceEffect_starts base idle notDue resident record image same layers))
  case replaceRefused =>
    intro s t u x p slot ix w bad m arrives inTable found base loaded idle notDue record image
    exact doorbell_of_ringBell arrives ((ringBell_replace_alive inTable found).trans
      (replaceEffect_refused base idle notDue loaded record image))
  case replaceShape =>
    intro s t u x p slot ix w bad m ls arrives inTable found base loaded idle notDue record image differs
    exact doorbell_of_ringBell arrives ((ringBell_replace_alive inTable found).trans
      (replaceEffect_otherShape base idle notDue loaded record image differs))
  case replaceLoading =>
    intro s t p slot ix m arrives inTable found base loading idle notDue
    exact doorbell_of_ringBell arrives ((ringBell_replace_alive inTable found).trans (replaceEffect_loading base idle notDue loading))
  case attach =>
    intro s t p slot ix n serve m arrives inTable found inside allowed active base
    exact doorbell_of_ringBell arrives (attachEffect_base inTable found inside allowed active base)
  case attachOutside =>
    intro s t p slot ix n serve m arrives inTable found outside
    exact doorbell_of_ringBell arrives (attachEffect_outside inTable found outside)
  case detach =>
    intro s t p slot ix n m arrives inTable found
    exact doorbell_of_ringBell arrives (detachEffect_alive inTable found n)

/-- Settles O40: an event of a model does what its function makes of that model; the grains that a staging or an install copies reach
no context, core or model. -/
theorem modelEvents : Obligations.ModelEvents := by
  refine ⟨fun _ _ _ _ found loading notDue layer => execLayerLoaded_loads found loading notDue layer, ?staged, ?install,
    fun _ _ _ _ found layer older => execLayerInstall_waits found layer older,
    fun _ _ _ _ found replacing installing layer more => execLayerInstalled_goesOn found layer replacing installing more,
    fun _ _ _ found reads first few => execSourceReadFail_again found reads first few, ?stalls, ?loadFails,
    fun _ _ _ found idle => execSourceReadFail_notReading found idle, ?retry, fun _ due => ⟨_, rfl, execUseDecay_due due⟩,
    fun _ early => execUseDecay_early early⟩
  case staged =>
    intro s ix pl m l found replacing runs layer fits
    obtain ⟨t, kept, ran⟩ := execLayerStaged_stages found replacing runs layer fits
    exact ⟨_, ran, tfind_tput_same _ _ _, congrArg Aside.ctxs kept, congrArg Aside.cores kept⟩
  case install =>
    intro s ix pl m l e found replacing layer idle older staged
    obtain ⟨t, kept, ran⟩ := execLayerInstall_installs found layer replacing idle older staged
    exact ⟨_, ran, tfind_tput_same _ _ _, congrArg Aside.ctxs kept⟩
  case stalls =>
    intro s f m found replacing last
    have reads : reading m = true := by
      rcases last with ⟨runs, -⟩ | again
      · simp [reading, replReading, replacing, runs]
      · simp [reading, replReading, replacing, again]
    have loaded : m.state ≠ mdlLoading := by rw [replacing]; decide
    exact execSourceReadFail_stalls found reads (last.symm.imp_right And.right) loaded
  case loadFails =>
    intro s f m found loading first three unnamed
    exact execSourceReadFail_loadFails found (by simp [reading, loading]) (.inr three) loading unnamed
  case retry =>
    intro s ix m found replacing stalled
    exact execReplaceRetry_retries found replacing (by rw [stalled]; decide)

end Machine
end Sys2Proof
end

section
/-! The queue's front runs (O1), and an agent that may not issue has no effect (O4). -/
namespace Sys2Proof
namespace Machine
open Host

/-- Settles O1: the step is defined by the front of the queue. -/
theorem stepRunsFront : Obligations.StepRunsFront := fun _ _ _ => rfl

theorem runInstr_cannotIssue {row : Row} {a : Agent} {w : Word} {s : State} (body : Nat → State → IRes)
    (idle : ∀ n, ctxOf s a = some n → canIssue s a n = false) : runInstr row a w body s = .next s := by
  unfold runInstr
  split
  · rfl
  next n ofCtx => simp [idle n ofCtx]

/-- Settles O4: every instruction with a row runs through `runInstr`, which asks first whether the agent may issue. -/
theorem noIssueNoEffect : Obligations.NoIssueNoEffect := by
  intro i row a w s ofRow idle
  obtain ⟨body, run⟩ := exec_of_rowOf ofRow s
  rw [run, runInstr_cannotIssue body idle]

end Machine
end Sys2Proof
end

section
/-! The canonical form of memory as a property of states: what the updates of one field, and the writes of memory and scratchpads,
make of it (O56). -/
namespace Sys2Proof
namespace Machine

/-! ### Tables of cores -/

/-- Every scratchpad of a table of cores is in canonical form. -/
def spsWf (t : Tbl Core) : Prop := ∀ e ∈ t, Memory.wf e.2.sp = true

theorem memWf_iff {s : State} : s.memWf ↔ Memory.wf s.mem.cells = true ∧ spsWf s.cores := .rfl

theorem spsWf_tput {t : Tbl Core} {c : Nat} {x : Core} (w : spsWf t) (new : Memory.wf x.sp = true) : spsWf (tput t c x) :=
  all_tput (fun e : Nat × Core => Memory.wf e.2.sp = true) t c x w new

theorem tget_spWf {t : Tbl Core} (w : spsWf t) (c : Nat) : Memory.wf (tget Core.reset t c).sp = true :=
  tget_all (fun x : Core => Memory.wf x.sp = true) Core.reset t c w rfl

/-- A core that is set with the scratchpad it had leaves the scratchpads of the table as they were. -/
theorem spsWf_tput_iff {t : Tbl Core} {c : Nat} {x : Core} (same : x.sp = (tget Core.reset t c).sp) :
    spsWf (tput t c x) ↔ spsWf t := by
  refine ⟨fun w => ?_, fun w => spsWf_tput w (same ▸ tget_spWf w c)⟩
  induction t with
  | nil => simp [spsWf]
  | cons e t ih =>
    obtain ⟨i, y⟩ := e
    simp only [spsWf, tput, tget] at w same ih ⊢
    split at w
    · exact fun e at_ => w e (List.mem_cons_of_mem _ at_)
    · split at w
      next same_key =>
        rw [if_pos same_key] at same
        simp only [List.forall_mem_cons] at w ⊢
        exact ⟨same ▸ w.1, w.2⟩
      next other =>
        rw [if_neg other] at same
        simp only [List.forall_mem_cons] at w ⊢
        exact ⟨w.1, ih same w.2⟩

theorem spsWf_tdel {t : Tbl Core} (c : Nat) (w : spsWf t) : spsWf (tdel t c) := by
  induction t with
  | nil => exact w
  | cons e t ih =>
    simp only [spsWf, List.forall_mem_cons] at w ih
    simp only [tdel]
    split
    · exact ih w.2
    · exact List.forall_mem_cons.mpr ⟨w.1, ih w.2⟩

/-- Cores that are all changed but for their scratchpads. -/
theorem spsWf_tmap {t : Tbl Core} {f : Nat → Core → Core} (same : ∀ c x, (f c x).sp = x.sp) : spsWf (tmap f t) ↔ spsWf t := by
  simp only [spsWf, tmap, List.forall_mem_map, same]

/-! ### Scratchpads -/

@[simp] theorem setThread_sp (x : Core) (t : Nat) (v : Thread) : (setThread x t v).sp = x.sp := (rfl)
@[simp] theorem setEp_sp (x : Core) (e : Nat) (v : Endpoint) : (setEp x e v).sp = x.sp := (rfl)
@[simp] theorem spMark_sp (x : Core) (off len : Nat) : (spMark x off len).sp = x.sp := (rfl)
@[simp] theorem wakeThreads_sp (x : Core) (p : Nat → Park → Bool) : (wakeThreads x p).sp = x.sp := (rfl)
@[simp] theorem setAg_sp (x : Core) (k : Nat) (g : AccGroup) : (setAg x k g).sp = x.sp := (rfl)
@[simp] theorem forgetPackets_sp (x : Core) (ep : Nat) : (forgetPackets x ep).sp = x.sp := (rfl)

@[simp] theorem savedCore_sp (x : Core) : (savedCore x).sp = [] := (rfl)
@[simp] theorem bareCore_sp (x : Core) : (bareCore x).sp = [] := (rfl)

/-- Writes of several runs keep the canonical form. -/
theorem writeRuns_wf (runs : List (Nat × List Byte)) {m : List Host.Cell} (w : Memory.wf m = true) :
    Memory.wf (runs.foldl (fun m r => writeBytes m r.1 r.2) m) = true := by
  induction runs generalizing m with
  | nil => exact w
  | cons r runs ih => exact ih (writeBytes_wf _ _ _ w)

@[simp] theorem wf_nil : Memory.wf [] = true := (rfl)

@[simp] theorem wf_spWrite (x : Core) (off : Nat) (bs : List Byte) (p : Bool) (w : Memory.wf x.sp = true) :
    Memory.wf (spWrite x off bs p).sp = true := spWrite_wf x off bs p w

@[simp] theorem wf_spPut (x : Core) (runs : List (Nat × List Byte)) (bad : List Nat) (w : Memory.wf x.sp = true) :
    Memory.wf (spPut x runs bad).sp = true := writeRuns_wf runs w

@[simp] theorem wf_writeTile (x : Core) (t : Tile) (rows : List (List OutElem)) (scales : List (List Nat))
    (w : Memory.wf x.sp = true) : Memory.wf (writeTile x t rows scales).sp = true := wf_spPut x _ _ w

@[simp] theorem wf_writeGroup (x : Core) (g : AccGroup) (c0 : Nat) (rows : List (List OutElem)) (w : Memory.wf x.sp = true) :
    Memory.wf (writeGroup x g c0 rows).sp = true := wf_spPut x _ _ w

@[simp] theorem wf_outputTile (x : Core) (q : RndCfg) (t : Tile) (present : Nat → Nat → Option Nat) (rows : List (List Computed))
    (w : Memory.wf x.sp = true) : Memory.wf (outputTile x q t present rows).1.sp = true := wf_writeTile _ _ _ _ w

@[simp] theorem claimPackets_sp (n : Nat) (x : Core) (ep thr : Nat) : (claimPackets x ep thr n).sp = x.sp := by
  induction n generalizing x with
  | zero => rfl
  | succ n ih =>
    unfold claimPackets
    dsimp only
    split
    · rfl
    · exact (ih _).trans rfl

@[simp] theorem claimOp_sp (x : Core) (b thr : Nat) (o : OpDecl) : (claimOp x b thr o).sp = x.sp := by
  unfold claimOp
  split
  · simp
  · split <;> rfl
  · rfl
  · rfl

/-! ### Updates that reach no memory -/

@[simp] theorem memWf_mk (s : State) (pending : List Instr) (fresh serial : Nat) (out : List Out) (clk : Clock) (ctxs : Tbl Ctx)
    (scheds : Tbl Sched) (nextSched : Nat) (parts : Tbl Part) (quantumUs quantumAt preemptions : Nat) (hub : Hub) (upd : Upd)
    (ports : Tbl Port) (peers : Peers) (rollout : Rollout) (models : Tbl Model) (modelGens : Tbl Nat) (recov : Rec) (host : HostSide)
    (pwr : Power) (sec : Sec) :
    State.memWf { s with
      pending := pending, fresh := fresh, serial := serial, out := out, clk := clk, ctxs := ctxs, scheds := scheds
      nextSched := nextSched, parts := parts, quantumUs := quantumUs, quantumAt := quantumAt, preemptions := preemptions, hub := hub
      upd := upd, ports := ports, peers := peers, rollout := rollout, models := models, modelGens := modelGens, recov := recov
      host := host, pwr := pwr, sec := sec } ↔ s.memWf := .rfl

@[simp] theorem memWf_emit (s : State) (o : Out) : (emit s o).memWf ↔ s.memWf := .rfl
@[simp] theorem memWf_bump (s : State) : (bump s).memWf ↔ s.memWf := .rfl
@[simp] theorem memWf_setCtx (s : State) (n : Nat) (x : Ctx) : (setCtx s n x).memWf ↔ s.memWf := .rfl
@[simp] theorem memWf_modCtx (s : State) (n : Nat) (f : Ctx → Ctx) : (modCtx s n f).memWf ↔ s.memWf := .rfl
@[simp] theorem memWf_setPart (s : State) (p : Nat) (x : Part) : (setPart s p x).memWf ↔ s.memWf := .rfl
@[simp] theorem memWf_modPart (s : State) (p : Nat) (f : Part → Part) : (modPart s p f).memWf ↔ s.memWf := .rfl
@[simp] theorem memWf_setPort (s : State) (k : Nat) (x : Port) : (setPort s k x).memWf ↔ s.memWf := .rfl
@[simp] theorem memWf_modPort (s : State) (k : Nat) (f : Port → Port) : (modPort s k f).memWf ↔ s.memWf := .rfl
@[simp] theorem memWf_modDie (s : State) (k : Nat) (f : DieClk → DieClk) : (modDie s k f).memWf ↔ s.memWf := .rfl
@[simp] theorem memWf_modClk (s : State) (f : Clock → Clock) : (modClk s f).memWf ↔ s.memWf := .rfl
@[simp] theorem memWf_modHub (s : State) (f : Hub → Hub) : (modHub s f).memWf ↔ s.memWf := .rfl
@[simp] theorem memWf_modUpd (s : State) (f : Upd → Upd) : (modUpd s f).memWf ↔ s.memWf := .rfl
@[simp] theorem memWf_modPeers (s : State) (f : Peers → Peers) : (modPeers s f).memWf ↔ s.memWf := .rfl
@[simp] theorem memWf_modRo (s : State) (f : Rollout → Rollout) : (modRo s f).memWf ↔ s.memWf := .rfl
@[simp] theorem memWf_modRec (s : State) (f : Rec → Rec) : (modRec s f).memWf ↔ s.memWf := .rfl
@[simp] theorem memWf_modHost (s : State) (f : HostSide → HostSide) : (modHost s f).memWf ↔ s.memWf := .rfl
@[simp] theorem memWf_modPwr (s : State) (f : Power → Power) : (modPwr s f).memWf ↔ s.memWf := .rfl
@[simp] theorem memWf_modSec (s : State) (f : Sec → Sec) : (modSec s f).memWf ↔ s.memWf := .rfl

/-! ### Updates of memory and of cores -/

@[simp] theorem memWf_modMem (s : State) {f : Mem → Mem} (same : ∀ m, (f m).cells = m.cells) : (modMem s f).memWf ↔ s.memWf := by
  simp [memWf_iff, modMem, same]

theorem memWf_setCore {s : State} {c : Nat} {x : Core} (h : s.memWf) (new : Memory.wf x.sp = true) : (setCore s c x).memWf :=
  ⟨h.1, spsWf_tput h.2 new⟩

/-- A core that is set with the scratchpad it had. -/
@[simp] theorem memWf_setCore_iff {s : State} {c : Nat} {x : Core} (same : x.sp = (getCore s c).sp) :
    (setCore s c x).memWf ↔ s.memWf := and_congr_right fun _ => spsWf_tput_iff same

@[simp] theorem memWf_modCore_iff (s : State) (c : Nat) {f : Core → Core} (same : ∀ x, (f x).sp = x.sp) :
    (modCore s c f).memWf ↔ s.memWf := memWf_setCore_iff (same _)

/-- A core whose new scratchpad is in canonical form, whatever it was. -/
@[simp] theorem memWf_modCore_of (s : State) (c : Nat) {f : Core → Core} (h : s.memWf)
    (kept : ∀ x, Memory.wf x.sp = true → Memory.wf (f x).sp = true) : (modCore s c f).memWf := memWf_modCore h c f kept

@[simp] theorem getCore_wf {s : State} (h : s.memWf) (c : Nat) : Memory.wf (getCore s c).sp = true := wf_sp h c

/-- A fold keeps the form when each of its steps does. -/
@[simp] theorem memWf_foldl {α : Type} {f : State → α → State} (step : ∀ s a, s.memWf → (f s a).memWf) (l : List α) {s : State}
    (h : s.memWf) : (l.foldl f s).memWf := by
  induction l generalizing s with
  | nil => exact h
  | cons a l ih => exact ih (step s a h)

/-- A fold whose steps leave the memories alone. -/
@[simp] theorem memWf_foldl_iff {α : Type} {f : State → α → State} (l : List α) (s : State)
    (step : ∀ s a, (f s a).memWf ↔ s.memWf) : (l.foldl f s).memWf ↔ s.memWf := by
  induction l generalizing s with
  | nil => rfl
  | cons a l ih => exact (ih _).trans (step s a)

end Machine
end Sys2Proof
end

section
/-! What the shared operations make of the canonical form of memory: an equivalence for one that reaches no memory and no
scratchpad, an implication for one that writes them. A discharger of a `simp` call goes one writer further than `simp`'s own. -/
namespace Sys2Proof
namespace Machine

/-! ### Named operations: reads and writes of memory, the log, journals, firmware at HOST scope (Machine/Ops.lean) -/

@[simp] theorem memWf_snoopLines (s : State) (p : Nat → Bool) : (snoopLines s p).memWf ↔ s.memWf := by simp [snoopLines]

@[simp] theorem memWf_invalidateGrain (s : State) (pa : Nat) :
    (invalidateGrain s pa).memWf ↔ s.memWf := by simp [invalidateGrain]

@[simp] theorem memWf_storeGrain (s : State) (pa : Nat) (data : List Byte) (tag : GrainTag) (h : s.memWf) :
    (storeGrain s pa data tag).memWf := storeGrain_wf s pa data tag h

@[simp] theorem memWf_putGrain (s : State) (pa : Nat) (data : List Byte) (tag : GrainTag) (h : s.memWf) :
    (putGrain s pa data tag).memWf := putGrain_wf s pa data tag h

@[simp] theorem memWf_countFailed (s : State) : (countFailed s).memWf ↔ s.memWf := .rfl

@[simp] theorem memWf_putServed (s : State) (pa : Nat) (data : List Byte) (tag : GrainTag) (h : s.memWf) :
    (putServed s pa data tag).memWf := putServed_wf s pa data tag h

@[simp] theorem memWf_writeGrain (s : State) (pa : Nat) (data : List Byte) (tag : GrainTag) (h : s.memWf) :
    (writeGrain s pa data tag).memWf := writeGrain_wf s pa data tag h

@[simp] theorem memWf_mergeAs (s : State) (pa off : Nat) (bs : List Byte) (t : GrainTag) (h : s.memWf) :
    (mergeAs s pa off bs t).memWf := mergeAs_wf s pa off bs t h

@[simp] theorem memWf_mergeGrain (s : State) (pa off : Nat) (bs : List Byte) (poison : Bool) (h : s.memWf) :
    (mergeGrain s pa off bs poison).memWf := mergeGrain_wf s pa off bs poison h

@[simp] theorem memWf_remoteGrain (s : State) : (remoteGrain s).2.memWf ↔ s.memWf := .rfl

@[simp] theorem memWf_freeWord (s : State) : (freeWord s).2.memWf ↔ s.memWf := .rfl

@[simp] theorem memWf_readHost (s : State) (pa : Nat) : (readHost s pa).2.2.memWf ↔ s.memWf := by
  unfold readHost
  dsimp only
  split <;> simp

@[simp] theorem memWf_fwGrain (s : State) (a : Nat) : (fwGrain s a).2.2.memWf ↔ s.memWf := by
  unfold fwGrain
  dsimp only
  repeat' split
  all_goals simp

@[simp] theorem memWf_fwFetch (s : State) (pa n : Nat) : (fwFetch s pa n).2.2.memWf ↔ s.memWf :=
  iff_of_eq (foldl_keeps (p := fun r : List Byte × Bool × State => r.2.2.memWf)
    (f := fun r i => (r.1 ++ (fwGrain r.2.2 ((pa / 256 + i) * 256)).1, r.2.1 || (fwGrain r.2.2 ((pa / 256 + i) * 256)).2.1,
      (fwGrain r.2.2 ((pa / 256 + i) * 256)).2.2))
    (fun _ _ => propext (memWf_fwGrain _ _)) _ _)

@[simp] theorem memWf_fwWriteTags (fuel : Nat) (s : State) (pa : Nat) (bs : List Byte) (h : s.memWf) :
    (fwWriteTags s pa bs fuel).memWf := by
  induction fuel generalizing s pa bs with
  | zero => exact h
  | succ fuel ih =>
    cases bs with
    | nil => exact h
    | cons b bs => exact ih _ _ _ (memWf_mergeGrain _ _ _ _ _ h)

@[simp] theorem memWf_emitHostWrite (s : State) (req pa : Nat) (bs : List Byte) (poison : Bool) :
    (emitHostWrite s req pa bs poison).memWf ↔ s.memWf := by simp [memWf_iff]

@[simp] theorem memWf_fwWrite (s : State) (pa : Nat) (bs : List Byte) (h : s.memWf) : (fwWrite s pa bs).memWf := fwWrite_wf s pa bs h

@[simp] theorem memWf_msixRequest (s : State) (p vec : Nat) (teardown : Bool) :
    (msixRequest s p vec teardown).memWf ↔ s.memWf := by
  unfold msixRequest
  dsimp only
  split <;> simp

@[simp] theorem memWf_setJournal (s : State) (cc : Nat) (l : List JournalEntry) :
    (setJournal s cc l).memWf ↔ s.memWf := .rfl

@[simp] theorem memWf_journal (s : State) (cc what subject : Nat) (complete : Bool) :
    (journal s cc what subject complete).memWf ↔ s.memWf := .rfl

@[simp] theorem memWf_listEffects (s : State) (cc : Nat) (acts : List FwAct) : (listEffects s cc acts).memWf ↔ s.memWf := by
  unfold listEffects
  dsimp only
  repeat' split
  all_goals simp

@[simp] theorem memWf_markEffect (s : State) (cc num : Nat) : (markEffect s cc num).memWf ↔ s.memWf := .rfl

@[simp] theorem memWf_advanceRing (s : State) (p : Nat) : (advanceRing s p).memWf ↔ s.memWf := by
  unfold advanceRing
  dsimp only
  split <;> simp

@[simp] theorem memWf_runActs (cc num : Nat) (acts : List FwAct) (s : State) (h : s.memWf) : (runActs cc num acts s).1.memWf := by
  induction acts generalizing s with
  | nil => exact h
  | cons a acts ih =>
    cases a with
    | write pa bs =>
      unfold runActs
      dsimp only
      split
      · exact ih _ (by simp [h])
      · simp [h]
    | head p => exact ih _ (by simp [h])
    | msix p v => exact ih _ (by simp [h])

theorem memWf_of_runActs {cc num : Nat} {acts : List FwAct} {s t : State} {w : Option FwWait}
    (ran : runActs cc num acts s = (t, w)) (h : s.memWf) : t.memWf := by
  have left := memWf_runActs cc num acts s h
  rwa [ran] at left

@[simp] theorem memWf_fwDo (s : State) (cc : Nat) (acts : List FwAct) (h : s.memWf) : (fwDo s cc acts).memWf := by
  unfold fwDo
  dsimp only
  have listed : (listEffects s cc acts).memWf := by simp [h]
  split
  · exact listed
  · split
    next ran => exact (memWf_of_runActs ran listed :)
    next ran => exact (memWf_of_runActs ran listed :)

@[simp] theorem memWf_goOnBi (fuel : Nat) (s : State) (h : s.memWf) : (goOnBi fuel s).memWf := by
  induction fuel generalizing s with
  | zero => exact h
  | succ fuel ih =>
    unfold goOnBi
    split
    · exact h
    · split
      · exact h
      · split
        all_goals
          rename_i ran
          have went := memWf_of_runActs ran h
          exact ih _ went

@[simp] theorem memWf_firmwareGoesOn (s : State) (h : s.memWf) : (firmwareGoesOn s).memWf := by simp [h, firmwareGoesOn]

@[simp] theorem memWf_writeLog (s : State) (event : Nat) (u : LogUnit) (part : Nat) (ctx : Option Nat) (detail : Nat) :
    (writeLog s event u part ctx detail).memWf ↔ s.memWf := by
  unfold writeLog
  dsimp only
  split
  · exact (memWf_msixRequest _ _ _ _).trans .rfl
  · rfl

@[simp] theorem memWf_logEvent (s : State) (event : Nat) (u : LogUnit) (part : Nat) (ctx : Option Nat) (detail : Nat) :
    (logEvent s event u part ctx detail).memWf ↔ s.memWf := by
  unfold logEvent
  repeat' split
  all_goals simp

@[simp] theorem memWf_checkFailed (s : State) (pa : Nat) : (checkFailed s pa).memWf ↔ s.memWf := by simp [checkFailed]

@[simp] theorem memWf_egressTag (s : State) (pa : Nat) (data : List Byte) (tag : GrainTag) :
    (egressTag s pa data tag).2.memWf ↔ s.memWf := by
  unfold egressTag
  split <;> simp

@[simp] theorem memWf_modAcct (s : State) (n : Nat) (f : Acct → Acct) : (modAcct s n f).memWf ↔ s.memWf := .rfl

@[simp] theorem memWf_chargeTier (s : State) (n t bytes : Nat) : (chargeTier s n t bytes).memWf ↔ s.memWf := .rfl

@[simp] theorem memWf_chargeLink (s : State) (n cls flits : Nat) : (chargeLink s n cls flits).memWf ↔ s.memWf := .rfl

/-! ### Parking, waking, the bridge edge, completion groups (Machine/CoreOps.lean) -/

@[simp] theorem memWf_modDieOf (s : State) (c : Nat) (f : DieClk → DieClk) : (modDieOf s c f).memWf ↔ s.memWf := by
  unfold modDieOf
  split <;> simp

@[simp] theorem memWf_dieWorked (s : State) (c : Nat) : (dieWorked s c).memWf ↔ s.memWf := by simp [dieWorked]

@[simp] theorem memWf_touchCore (s : State) (c : Nat) : (touchCore s c).memWf ↔ s.memWf := by simp [touchCore]

@[simp] theorem memWf_wakeCore (s : State) (c : Nat) (p : Nat → Park → Bool) : (wakeCore s c p).memWf ↔ s.memWf := by
  simp [wakeCore]

@[simp] theorem memWf_wakeCoreWith (s : State) (c val : Nat) (p : Park → Bool) :
    (wakeCoreWith s c val p).memWf ↔ s.memWf := by simp [wakeCoreWith]

@[simp] theorem memWf_wakeCtl (s : State) (n : Nat) (p : Park → Bool) : (wakeCtl s n p).memWf ↔ s.memWf := .rfl

@[simp] theorem memWf_wakeAgent (s : State) (a : Agent) (woken : Option Nat) :
    (wakeAgent s a woken).memWf ↔ s.memWf := by
  unfold wakeAgent
  dsimp only
  split <;> simp

@[simp] theorem memWf_onControls (s : State) (cc : Nat) (f : Thread → Thread) : (onControls s cc f).memWf ↔ s.memWf := .rfl

@[simp] theorem memWf_issueCg (s : State) (a : Agent) (g n : Nat) : (issueCg s a g n).memWf ↔ s.memWf := by
  unfold issueCg
  dsimp only
  split <;> simp

@[simp] theorem memWf_startPll (s : State) (c : Nat) : (startPll s c).memWf ↔ s.memWf := by
  unfold startPll
  split <;> simp

@[simp] theorem memWf_holdAtEdge (s : State) (c : Nat) (it : EdgeItem) : (holdAtEdge s c it).memWf ↔ s.memWf := by
  unfold holdAtEdge
  dsimp only
  repeat' split
  all_goals simp

@[simp] theorem memWf_groupDone (s : State) (a : Agent) (g code : Nat) :
    (groupDone s a g code).memWf ↔ s.memWf := by
  unfold groupDone
  dsimp only
  repeat' split
  all_goals simp

@[simp] theorem memWf_doneCg (s : State) (a : Agent) (g code : Nat) : (doneCg s a g code).memWf ↔ s.memWf := by
  unfold doneCg
  repeat' split
  all_goals simp

@[simp] theorem memWf_noteCg (s : State) (a : Agent) (g code : Nat) : (noteCg s a g code).memWf ↔ s.memWf := by
  unfold noteCg
  dsimp only
  split <;> simp

@[simp] theorem memWf_peerOutCg (s : State) (a : Agent) (g : Nat) (up : Bool) :
    (peerOutCg s a g up).memWf ↔ s.memWf := by
  unfold peerOutCg
  dsimp only
  split <;> simp

@[simp] theorem memWf_mergeRun (fuel : Nat) (s : State) (pa : Nat) (bs : List Byte) (poison : Bool) (h : s.memWf) :
    (mergeRun s pa bs poison fuel).memWf := by
  induction fuel generalizing s pa bs with
  | zero => exact h
  | succ fuel ih =>
    cases bs with
    | nil => exact h
    | cons b bs => exact ih _ _ _ (memWf_mergeGrain _ _ _ _ _ h)

/-! ### Latches and open reductions (Machine/Flags.lean) -/

@[simp] theorem memWf_setLatch (s : State) (n step : Nat) : (setLatch s n step).memWf ↔ s.memWf := .rfl

@[simp] theorem memWf_clearLatch (s : State) (n step : Nat) : (clearLatch s n step).memWf ↔ s.memWf := by
  unfold clearLatch
  dsimp only
  split <;> simp

@[simp] theorem memWf_modReductions (s : State) (n id : Nat) (up : Bool) : (modReductions s n id up).memWf ↔ s.memWf := .rfl

/-! ### What leaves over the peer links (Machine/LinkOps.lean) -/

@[simp] theorem memWf_qconfigLeft (s : State) (o : Out) : (qconfigLeft s o).memWf ↔ s.memWf := by
  unfold qconfigLeft
  split <;> simp

@[simp] theorem memWf_sendGroups (s : State) (k : Nat) (lseqs : List Nat) :
    (sendGroups s k lseqs).memWf ↔ s.memWf := by simp [sendGroups]

@[simp] theorem memWf_sendOne (s : State) (k cls : Nat) (round : Tbl Nat) :
    (sendOne s k cls round).memWf ↔ s.memWf := by
  unfold sendOne
  dsimp only
  split <;> simp

@[simp] theorem memWf_pumpPort (k fuel : Nat) (s : State) : (pumpPort k fuel s).memWf ↔ s.memWf := by
  induction fuel generalizing s with
  | zero => rfl
  | succ fuel ih =>
    unfold pumpPort
    dsimp only
    split
    · rfl
    · split
      · rfl
      · exact (ih _).trans (memWf_sendOne _ _ _ _)

@[simp] theorem memWf_drainPort (s : State) (k : Nat) : (drainPort s k).memWf ↔ s.memWf := by
  unfold drainPort
  dsimp only
  split <;> simp

@[simp] theorem memWf_linkPut (s : State) (q : Sent) : (linkPut s q).memWf ↔ s.memWf := by
  unfold linkPut
  dsimp only
  repeat' split
  all_goals simp

@[simp] theorem memWf_linkSend (s : State) (dst cls : Nat) (eseq : Option Nat) (o : Out) :
    (linkSend s dst cls eseq o).memWf ↔ s.memWf := by simp [linkSend]

@[simp] theorem memWf_sendBulk (s : State) (dst : Nat) (o : Out) : (sendBulk s dst o).memWf ↔ s.memWf := by simp [sendBulk]

/-! ### Ends of queues (Machine/QueueOps.lean) -/

@[simp] theorem memWf_nextEseq (s : State) (dst cls : Nat) : (nextEseq s dst cls).2.memWf ↔ s.memWf := .rfl

@[simp] theorem memWf_sendCtl (s : State) (dst : Nat) (o : Out) : (sendCtl s dst o).memWf ↔ s.memWf := by simp [sendCtl]

@[simp] theorem memWf_sendQconfig (s : State) (c ep : Nat) (answer : Bool) :
    (sendQconfig s c ep answer).memWf ↔ s.memWf := by simp [sendQconfig]

@[simp] theorem memWf_sendQclose (s : State) (c ep : Nat) : (sendQclose s c ep).memWf ↔ s.memWf := by simp [sendQclose]

@[simp] theorem memWf_dstNotice (s : State) (c ep : Nat) (p : Packet) : (dstNotice s c ep p).memWf ↔ s.memWf := by
  unfold dstNotice
  dsimp only
  split <;> simp

@[simp] theorem memWf_putSaved (cfg : Word) (n c : Nat) (s : State) (pos : Nat) (l : List QWord) (h : s.memWf) :
    (putSaved cfg n c s pos l).memWf := by
  induction l generalizing s pos with
  | nil => exact h
  | cons q l ih => exact ih _ _ (memWf_mergeRun _ _ _ _ _ h)

theorem putWords_wf (cfg : Word) (l : List QWord) (x : Core) (pos : Nat) (w : Memory.wf x.sp = true) :
    Memory.wf (putWords cfg x pos l).sp = true := by
  induction l generalizing x pos with
  | nil => exact w
  | cons q l ih => exact ih _ _ (spWrite_wf _ _ _ _ w)

@[simp] theorem memWf_putArrived (s : State) (c : Nat) (e : Endpoint) (h : s.memWf) : (putArrived s c e).memWf := by
  unfold putArrived
  split
  · simp [h]
  · exact memWf_modCore h c _ fun x => putWords_wf _ _ x _

@[simp] theorem memWf_giveNotice (s : State) (c ep : Nat) (truncated : Bool) (h : s.memWf) :
    (giveNotice s c ep truncated).memWf := by simp [h, giveNotice]

@[simp] theorem memWf_openEndAt (s : State) (c ep : Nat) (far : Word) (mate : Option Nat) :
    (openEndAt s c ep far mate).memWf ↔ s.memWf := by simp [openEndAt]

@[simp] theorem memWf_answerConfig (s : State) (c ep : Nat) (h : HeldCfg) : (answerConfig s c ep h).memWf ↔ s.memWf := by
  unfold answerConfig
  dsimp only
  repeat' split
  all_goals simp

@[simp] theorem memWf_answerDue (s : State) (c ep : Nat) : (answerDue s c ep).memWf ↔ s.memWf := by
  unfold answerDue
  dsimp only
  repeat' split
  all_goals simp

@[simp] theorem memWf_finishClose (s : State) (c ep : Nat) (h : s.memWf) : (finishClose s c ep).memWf := by
  unfold finishClose
  dsimp only
  repeat' split
  all_goals simp [h]

@[simp] theorem memWf_farClosed (s : State) (c ep words : Nat) (h : s.memWf) : (farClosed s c ep words).memWf := by
  unfold farClosed
  dsimp only
  repeat' split
  all_goals simp [h]

@[simp] theorem memWf_rejectQcfg (s : State) (c ep n : Nat) : (rejectQcfg s c ep n).memWf ↔ s.memWf := by simp [rejectQcfg]

@[simp] theorem memWf_closePeerEnd (s : State) (c ep : Nat) (h : s.memWf) : (closePeerEnd s c ep).memWf := by
  unfold closePeerEnd
  split <;> simp [h]

@[simp] theorem memWf_closePeerQueues (s : State) (peer : Nat) (h : s.memWf) : (closePeerQueues s peer).memWf := by
  refine memWf_foldl (fun s e h => memWf_foldl (fun s f h => ?_) _ h) _ h
  split
  · split <;> simp [h]
  · exact h

/-! ### Engines of the hubs (Machine/HubOps.lean) -/

@[simp] theorem memWf_readPeer (s : State) (pa : Nat) : (readPeer s pa).2.2.memWf ↔ s.memWf := by
  unfold readPeer
  dsimp only
  split <;> simp

@[simp] theorem memWf_readGrain (s : State) (pa : Nat) : (readGrain s pa).2.2.memWf ↔ s.memWf := by
  unfold readGrain
  dsimp only
  repeat' split
  all_goals simp

@[simp] theorem memWf_writeGrainAt (s : State) (pa : Nat) (data : List Byte) (tag : GrainTag) (h : s.memWf) :
    (writeGrainAt s pa data tag).memWf := by
  unfold writeGrainAt
  dsimp only
  repeat' split
  all_goals simp [h]

@[simp] theorem memWf_checkHome (s : State) (pa off len : Nat) : (checkHome s pa off len).memWf ↔ s.memWf := by
  unfold checkHome
  split <;> simp

@[simp] theorem memWf_performWrite (s : State) (r : MReq) (h : s.memWf) : (performWrite s r).memWf := by
  unfold performWrite
  dsimp only
  split
  · exact h
  · exact ⟨writeBytes_wf _ _ _ h.1, h.2⟩
  · split
    · exact h
    · split <;> simp [h]

@[simp] theorem memWf_setMReq (s : State) (id : Nat) (r : MReq) : (setMReq s id r).memWf ↔ s.memWf := .rfl

@[simp] theorem memWf_sendToPeer (s : State) (id : Nat) (r : MReq) : (sendToPeer s id r).memWf ↔ s.memWf := by
  unfold sendToPeer
  dsimp only
  split <;> simp

@[simp] theorem memWf_sendToHost (s : State) (id : Nat) (r : MReq) : (sendToHost s id r).memWf ↔ s.memWf := by
  unfold sendToHost
  dsimp only
  split <;> simp

@[simp] theorem memWf_engineRead (s : State) (n va : Nat) : (engineRead s n va).2.2.memWf ↔ s.memWf := by
  unfold engineRead
  split <;> simp

@[simp] theorem memWf_engineWrite (s : State) (n va : Nat) (data : List Byte) (tag : GrainTag) (h : s.memWf) :
    (engineWrite s n va data tag).memWf := by
  unfold engineWrite
  dsimp only
  repeat' split
  all_goals simp [h]

@[simp] theorem memWf_groupReq (s : State) (ref : CgRef) (r : MReq) : (groupReq s ref r).2.memWf ↔ s.memWf := by simp [groupReq]

@[simp] theorem memWf_settleWrites (s : State) (ref : CgRef) (n : Nat) :
    (settleWrites s ref n).memWf ↔ s.memWf := by simp [settleWrites]

@[simp] theorem memWf_groupEnds (s : State) (ref : CgRef) (n code : Nat) :
    (groupEnds s ref n code).memWf ↔ s.memWf := by simp [groupEnds]

@[simp] theorem memWf_groupWrite (s : State) (ref : CgRef) (n va : Nat) (data : List Byte) (tag : GrainTag) (h : s.memWf) :
    (groupWrite s ref n va data tag).memWf := by
  unfold groupWrite
  dsimp only
  repeat' split
  all_goals simp [h]

@[simp] theorem memWf_engineReads (s : State) (n : Nat) (vas : List Nat) : (engineReads s n vas).2.memWf ↔ s.memWf := by
  induction vas generalizing s with
  | nil => rfl
  | cons va vas ih => exact (ih _).trans (memWf_engineRead _ _ _)

@[simp] theorem memWf_enginePoison (s : State) (ref : CgRef) (n va : Nat) (h : s.memWf) : (enginePoison s ref n va).memWf := by
  unfold enginePoison
  dsimp only
  repeat' split
  all_goals simp [h]

@[simp] theorem memWf_raiseAttempt (s : State) (group : Nat) : (raiseAttempt s group).memWf ↔ s.memWf := .rfl

@[simp] theorem memWf_castCtl (s : State) (n mask : Nat) (o : Nat → Out) :
    (castCtl s n mask o).memWf ↔ s.memWf := by simp [castCtl]

@[simp] theorem memWf_sendAbort (s : State) (n mask attempt step : Nat) :
    (sendAbort s n mask attempt step).memWf ↔ s.memWf := by simp [sendAbort]

/-! ### Requests and models as they are stored (Machine/RolloutOps.lean) -/

@[simp] theorem memWf_setModel (s : State) (ix : Nat) (m : Model) : (setModel s ix m).memWf ↔ s.memWf := .rfl

@[simp] theorem memWf_modModel (s : State) (ix : Nat) (f : Model → Model) : (modModel s ix f).memWf ↔ s.memWf := by
  unfold modModel
  split <;> simp

@[simp] theorem memWf_syncModel (s : State) (ix : Nat) (h : s.memWf) : (syncModel s ix).memWf := by
  unfold syncModel
  dsimp only
  repeat' split
  all_goals simp [h]

@[simp] theorem memWf_mapPool (s : State) (ix n : Nat) : (mapPool s ix n).memWf ↔ s.memWf := by
  unfold mapPool
  split <;> simp

@[simp] theorem memWf_attachOne (s : State) (ix n : Nat) (serve write : Bool) :
    (attachOne s ix n serve write).memWf ↔ s.memWf := by
  unfold attachOne
  dsimp only
  split <;> simp

@[simp] theorem memWf_detachOne (s : State) (ix n : Nat) : (detachOne s ix n).memWf ↔ s.memWf := by
  unfold detachOne
  dsimp only
  split <;> simp

@[simp] theorem memWf_setReq (s : State) (id : Nat) (r : Request) : (setReq s id r).memWf ↔ s.memWf := .rfl

@[simp] theorem memWf_modReq (s : State) (id : Nat) (f : Request → Request) : (modReq s id f).memWf ↔ s.memWf := by
  unfold modReq
  split <;> simp

@[simp] theorem memWf_syncReq (s : State) (id : Nat) (h : s.memWf) : (syncReq s id).memWf := by
  unfold syncReq
  dsimp only
  repeat' split
  all_goals simp [h]

@[simp] theorem memWf_rereadRing (s : State) (id : Nat) : (rereadRing s id).memWf ↔ s.memWf := by
  unfold rereadRing
  dsimp only
  repeat' split
  all_goals simp

@[simp] theorem memWf_putEntry (s : State) (id : Nat) (bs : List Byte) (h : s.memWf) : (putEntry s id bs).memWf := by
  unfold putEntry
  dsimp only
  split <;> simp [h]

@[simp] theorem memWf_publishToken (s : State) (id : Nat) (d : Draft) (pos : Nat) (h : s.memWf) :
    (publishToken s id d pos).memWf := by
  unfold publishToken
  dsimp only
  repeat' split
  all_goals simp [h]

@[simp] theorem memWf_writeHeaders (s : State) (m : Model) (p : PageSet) (h : s.memWf) : (writeHeaders s m p).memWf :=
  memWf_foldl (fun _ _ h => memWf_writeGrain _ _ _ _ h) _ h

@[simp] theorem memWf_refSet (s : State) (id : Nat) (up : Bool) (h : s.memWf) : (refSet s id up).memWf := by
  unfold refSet
  dsimp only
  repeat' split
  all_goals simp [h]

@[simp] theorem memWf_refSets (s : State) (ids : List Nat) (up : Bool) (h : s.memWf) : (refSets s ids up).memWf :=
  memWf_foldl (fun _ _ h => memWf_refSet _ _ _ h) _ h

@[simp] theorem memWf_releaseSets (s : State) (id : Nat) (h : s.memWf) : (releaseSets s id).memWf := by
  unfold releaseSets
  split <;> simp [h]

@[simp] theorem memWf_endRequest (s : State) (id code : Nat) (h : s.memWf) : (endRequest s id code).memWf := by
  unfold endRequest
  dsimp only
  repeat' split
  all_goals simp (disch := simp (disch := simp [h]) [h]) [h]

@[simp] theorem memWf_evictReq (s : State) (id : Nat) (self : Bool) (h : s.memWf) : (evictReq s id self).memWf := by
  unfold evictReq
  dsimp only
  split <;> simp [h]

@[simp] theorem memWf_moveRequest (s : State) (id : Nat) (h : s.memWf) : (moveRequest s id).memWf := by
  unfold moveRequest
  dsimp only
  repeat' split
  all_goals simp [h]

@[simp] theorem memWf_afterBinding (s : State) (id : Nat) (h : s.memWf) : (afterBinding s id).memWf := by
  unfold afterBinding
  repeat' split
  all_goals simp [h]

@[simp] theorem memWf_publishHeld (s : State) (id : Nat) (h : s.memWf) : (publishHeld s id).memWf := by
  unfold publishHeld
  dsimp only
  repeat' split
  all_goals simp [h]

@[simp] theorem memWf_releaseHandle (s : State) (ix : Nat) (h : s.memWf) : (releaseHandle s ix).memWf := by
  unfold releaseHandle
  split <;> simp [h]

@[simp] theorem memWf_releaseHandles (s : State) (p : Handle → Bool) (h : s.memWf) : (releaseHandles s p).memWf :=
  memWf_foldl (fun _ _ h => memWf_releaseHandle _ _ h) _ h

@[simp] theorem memWf_endOneModel (s : State) (ix code : Nat) (h : s.memWf) : (endOneModel s ix code).memWf := by
  unfold endOneModel
  dsimp only
  split <;> simp (disch := simp [h]) [h]

@[simp] theorem memWf_endModel (s : State) (ix code : Nat) (h : s.memWf) : (endModel s ix code).memWf := by
  unfold endModel
  dsimp only
  repeat' split
  all_goals simp [h]

/-! ### Requests (Machine/Rollout.lean) -/

@[simp] theorem memWf_refuseRequest (s : State) (r : Request) (ringOk : Bool) (code : Nat) (h : s.memWf) :
    (refuseRequest s r ringOk code).memWf := by
  unfold refuseRequest
  dsimp only
  repeat' split
  all_goals simp (disch := simp [h])

@[simp] theorem memWf_acceptRequest (s : State) (r : Request) (h : s.memWf) : (acceptRequest s r).memWf := by
  unfold acceptRequest
  dsimp only
  repeat' split
  all_goals simp [h]

@[simp] theorem memWf_submitEffect (s : State) (part slot : Nat) (h : s.memWf) : (submitEffect s part slot).memWf := by
  unfold submitEffect
  dsimp only
  repeat' split
  all_goals simp [h]

@[simp] theorem memWf_cancelRequest (s : State) (id : Nat) (h : s.memWf) : (cancelRequest s id).memWf := by
  unfold cancelRequest
  dsimp only
  repeat' split
  all_goals simp [h]

theorem memWf_slotDoorbell {f : State → Nat → State} (kept : ∀ s id, s.memWf → (f s id).memWf) (s : State) (part slot : Nat)
    (h : s.memWf) : (slotDoorbell s part slot f).memWf := by
  unfold slotDoorbell
  split
  · simpa using h
  · split
    · exact h
    · exact kept _ _ (by simpa using h)

@[simp] theorem memWf_pfxReleaseEffect (s : State) (part : Nat) (handle : Word) (h : s.memWf) :
    (pfxReleaseEffect s part handle).memWf := by
  unfold pfxReleaseEffect
  split <;> simp [h]

/-! ### Models (Machine/Models.lean) -/

@[simp] theorem memWf_badModelDoorbell (s : State) (part : Nat) :
    (badModelDoorbell s part).memWf ↔ s.memWf := by simp [badModelDoorbell]

@[simp] theorem memWf_modelRecord (s : State) (part slot : Nat) :
    (modelRecord s part slot).2.2.memWf ↔ s.memWf := by simp [modelRecord]

@[simp] theorem memWf_readImage (s : State) (part src : Nat) : (readImage s part src).2.memWf ↔ s.memWf := by
  unfold readImage
  dsimp only
  repeat' split
  all_goals simp

@[simp] theorem memWf_recordImage (s : State) (part : Nat) (w : Nat → Word) (bad : Bool) (src : Nat) :
    (recordImage s part w bad src).2.memWf ↔ s.memWf := by
  unfold recordImage
  split <;> simp

theorem memWf_of_recordImage {s t : State} {part src : Nat} {w : Nat → Word} {bad : Bool} {r : Option (List Layer)}
    (read : recordImage s part w bad src = (r, t)) : t.memWf ↔ s.memWf := by
  rw [← memWf_recordImage s part w bad src, read]

@[simp] theorem memWf_allocEvict (s : State) (ix : Nat) (m : Model) (fuel : Nat) (h : s.memWf) :
    (allocEvict s ix m fuel).1.memWf := by
  induction fuel generalizing s with
  | zero => exact h
  | succ fuel ih =>
    unfold allocEvict
    split
    · exact h
    · split
      · exact h
      · exact ih _ (by simp [h])

@[simp] theorem memWf_refuseModel (s : State) (ix : Nat) (m : Model) (code : Nat) (h : s.memWf) :
    (refuseModel s ix m code).memWf := by simp [h, refuseModel]

@[simp] theorem memWf_refuseSlot (s : State) (part slot code : Nat) (h : s.memWf) :
    (refuseSlot s part slot code).memWf := by simp [h, refuseSlot]

@[simp] theorem memWf_startLoad (s : State) (ix : Nat) (m : Model) (h : s.memWf) : (startLoad s ix m).memWf := by
  unfold startLoad
  dsimp only
  split <;> simp [h]

theorem memWf_takeIndex {s t : State} {part ix g : Nat} (taken : takeIndex s part = some (ix, g, t)) : t.memWf ↔ s.memWf := by
  unfold takeIndex at taken
  split at taken
  · cases taken
  · cases taken
    simp

@[simp] theorem memWf_startCopy (s : State) (add : Nat) (b : Model) (owner : Nat) (h : s.memWf) :
    (startCopy s add b owner).memWf := by
  unfold startCopy
  split
  · simp [h]
  next taken =>
    rw [← memWf_takeIndex taken] at h
    dsimp only
    split <;> simp [h]

@[simp] theorem memWf_loadChecked (s : State) (ix : Nat) (m : Model) (h : s.memWf) : (loadChecked s ix m).memWf := by
  unfold loadChecked
  dsimp only
  repeat' split
  all_goals simp [h]

@[simp] theorem memWf_loadEffect (s : State) (part slot : Nat) (h : s.memWf) : (loadEffect s part slot).memWf := by
  unfold loadEffect
  dsimp only
  split
  · simpa using h
  · have before : (modelRecord (journal s 0 4 (part * 256 + slot) true) part slot).2.2.memWf := by simpa using h
    split
    · exact memWf_refuseSlot _ _ _ _ before
    next taken =>
      have begun := (memWf_takeIndex taken).mpr before
      split
      next image => exact memWf_refuseModel _ _ _ _ ((memWf_of_recordImage image).mpr begun)
      next image => exact memWf_loadChecked _ _ _ ((memWf_of_recordImage image).mpr begun)

theorem memWf_modelDoorbell {f : State → Nat → Model → State} (kept : ∀ s ix m, s.memWf → (f s ix m).memWf) (s : State)
    (part slot : Nat) (h : s.memWf) : (modelDoorbell s part slot f).memWf := by
  unfold modelDoorbell
  split
  · simpa using h
  · split
    · simpa using h
    · exact kept _ _ _ (by simpa using h)

@[simp] theorem memWf_unloadEffect (s : State) (part slot : Nat) (h : s.memWf) : (unloadEffect s part slot).memWf :=
  memWf_modelDoorbell (fun _ _ _ h => by split <;> simp [h]) s part slot h

@[simp] theorem memWf_attachEffect (s : State) (part slot ctx : Nat) (serve : Bool) (h : s.memWf) :
    (attachEffect s part slot ctx serve).memWf := by
  refine memWf_modelDoorbell (fun s ix m h => ?_) s part slot h
  dsimp only
  repeat' split
  all_goals simp [h]

@[simp] theorem memWf_detachEffect (s : State) (part slot ctx : Nat) (h : s.memWf) : (detachEffect s part slot ctx).memWf :=
  memWf_modelDoorbell (fun s ix _ h => (memWf_detachOne s ix ctx).mpr h) s part slot h

@[simp] theorem memWf_refreshKv (s : State) (ix : Nat) (m : Model) (h : s.memWf) : (refreshKv s ix m).memWf := by
  refine memWf_foldl (fun t e h => ?_) _ (memWf_releaseHandles _ _ h)
  dsimp only
  split
  · exact h
  · split
    · split <;> simp [h]
    · exact h

@[simp] theorem memWf_finishReplace (s : State) (ix : Nat) (m : Model) (h : s.memWf) : (finishReplace s ix m).memWf := by
  unfold finishReplace
  dsimp only
  split <;> simp [h]

@[simp] theorem memWf_replaceEffect (s : State) (part slot ix : Nat) (m : Model) (h : s.memWf) :
    (replaceEffect s part slot ix m).memWf := by
  unfold replaceEffect
  dsimp only
  split
  · simp [h]
  · split
    · simp [h]
    · split
      all_goals
        rename_i image
        rw [← memWf_modelRecord s part slot, ← memWf_of_recordImage image] at h
      · simp [h]
      · repeat' split
        all_goals simp [h]

/-! ### Doorbells (Machine/Doorbells.lean) -/

@[simp] theorem memWf_takeTurn (s : State) (p : Nat) : (takeTurn s p).memWf ↔ s.memWf := .rfl

@[simp] theorem memWf_reservedBell (models : Bool) (s : State) (part : Nat) (value : Word) :
    (reservedBell models s part value).memWf ↔ s.memWf := by
  unfold reservedBell
  dsimp only
  repeat' split
  all_goals simp

@[simp] theorem memWf_ringBell (c : Instr) (s : State) (h : s.memWf) : (ringBell c s).memWf := by
  unfold ringBell
  split
  · exact memWf_submitEffect _ _ _ h
  · exact memWf_slotDoorbell memWf_cancelRequest _ _ _ h
  · exact memWf_slotDoorbell memWf_publishHeld _ _ _ h
  · exact memWf_pfxReleaseEffect _ _ _ h
  · exact memWf_loadEffect _ _ _ h
  · exact memWf_unloadEffect _ _ _ h
  · exact memWf_modelDoorbell (fun _ _ _ => memWf_replaceEffect _ _ _ _ _) _ _ _ h
  · exact memWf_attachEffect _ _ _ _ _ h
  · exact memWf_detachEffect _ _ _ _ h
  · exact (memWf_reservedBell _ _ _ _).mpr h
  · exact h

@[simp] theorem memWf_takeBells (fuel : Nat) (s : State) (h : s.memWf) : (takeBells fuel s).memWf := by
  induction fuel generalizing s with
  | zero => exact h
  | succ fuel ih =>
    unfold takeBells
    split
    · exact ih _ (by simp [h])
    · exact h

@[simp] theorem memWf_pumpBells (s : State) (h : s.memWf) : (pumpBells s).memWf := by
  unfold pumpBells
  split <;> simp [h]

/-! ### Collectives (Machine/Collective.lean) -/

@[simp] theorem memWf_modColl (s : State) (id : Nat) (f : Coll → Coll) : (modColl s id f).memWf ↔ s.memWf := by
  unfold modColl
  split <;> simp

@[simp] theorem memWf_finishColl (s : State) (id code : Nat) : (finishColl s id code).memWf ↔ s.memWf := by
  unfold finishColl
  dsimp only
  repeat' split
  all_goals simp

@[simp] theorem memWf_collLand (s : State) (id : Nat) (v : CollView) (ix : Nat) (data : List Byte) (tag : GrainTag) (h : s.memWf) :
    (collLand s id v ix data tag).memWf := by
  unfold collLand
  dsimp only
  repeat' split
  all_goals simp [h]

@[simp] theorem memWf_sendColdata (s : State) (n p flow ix : Nat) (data : List Byte) (tag : GrainTag) :
    (sendColdata s n p flow ix data tag).memWf ↔ s.memWf := by simp [sendColdata]

@[simp] theorem memWf_collFlush (s : State) (id : Nat) (m : ArriveMsg) : (collFlush s id m).memWf ↔ s.memWf := by
  unfold collFlush
  dsimp only
  repeat' split
  all_goals simp

@[simp] theorem memWf_collReduced (s : State) (id : Nat) (v : CollView) (ix : Nat) (data : List Byte) (poison : Bool) (h : s.memWf) :
    (collReduced s id v ix data poison).memWf := by
  unfold collReduced
  dsimp only
  repeat' split
  all_goals simp [h]

@[simp] theorem memWf_collCombine (s : State) (id : Nat) (h : s.memWf) : (collCombine s id).memWf := by
  unfold collCombine
  dsimp only
  split
  · exact h
  · split
    · exact h
    · split
      · exact h
      · split
        · split
          · exact h
          · split
            · exact h
            · exact memWf_foldl (fun _ _ h => memWf_collReduced _ _ _ _ _ _ h) _ h
        · split
          · split
            · exact h
            · split
              · exact h
              · exact memWf_foldl (fun _ _ h => memWf_collReduced _ _ _ _ _ _ h) _ h
          · refine memWf_foldl (fun s i h => ?_) _ h
            split
            · exact h
            · split
              · exact h
              · simp [h]

@[simp] theorem memWf_collGot (s : State) (id src ix : Nat) (data : List Byte) (tag : GrainTag) (h : s.memWf) :
    (collGot s id src ix data tag).memWf := by
  unfold collGot
  repeat' split
  all_goals simp [h]

@[simp] theorem memWf_collCheck (s : State) (id : Nat) : (collCheck s id).memWf ↔ s.memWf := by
  unfold collCheck
  repeat' split
  all_goals simp

@[simp] theorem memWf_settleHeader (s : State) (n step va : Nat) (applied : Bool) (h : s.memWf) :
    (settleHeader s n step va applied).memWf := by
  unfold settleHeader
  dsimp only
  split <;> simp [h]

@[simp] theorem memWf_settleWhey (s : State) (n step : Nat) (applied : Bool) (h : s.memWf) :
    (settleWhey s n step applied).memWf := by simp +contextual [h, settleWhey]

@[simp] theorem memWf_collPoison (s : State) (ref : CgRef) (n va : Nat) (h : s.memWf) : (collPoison s ref n va).memWf := by
  unfold collPoison
  split <;> simp [h]

@[simp] theorem memWf_settleReshard (s : State) (id : Nat) (r : Reshard) (applied : Bool) :
    (settleReshard s id r applied).memWf ↔ s.memWf := by
  unfold settleReshard
  dsimp only
  split <;> simp

@[simp] theorem memWf_gflagReturn (s : State) (g : GflagWait) (flag : Bool) (rc : Nat) (h : s.memWf) :
    (gflagReturn s g flag rc).memWf := by
  unfold gflagReturn
  dsimp only
  split <;> simp [h]

@[simp] theorem memWf_gflagCheck (s : State) (g : GflagWait) (h : s.memWf) : (gflagCheck s g).memWf := by
  unfold gflagCheck
  dsimp only
  split <;> simp [h]

@[simp] theorem memWf_gflagSend (s : State) (g : GflagWait) (h : s.memWf) : (gflagSend s g).memWf := by
  unfold gflagSend
  dsimp only
  split <;> simp [h]

@[simp] theorem memWf_gflagPump (s : State) (h : s.memWf) : (gflagPump s).memWf := by
  simp +contextual (disch := simp +contextual [h]) [gflagPump]

@[simp] theorem memWf_abortColl (s : State) (id : Nat) (c : Coll) (h : s.memWf) : (abortColl s id c).memWf := by
  unfold abortColl
  refine (memWf_finishColl _ _ _).mpr ?_
  split
  · exact h
  · refine memWf_foldl (fun s i h => ?_) _ h
    split <;> simp [h]

@[simp] theorem memWf_abortReshard (s : State) (id : Nat) (r : Reshard) : (abortReshard s id r).memWf ↔ s.memWf := by
  unfold abortReshard
  dsimp only
  split <;> simp

@[simp] theorem memWf_endStep (s : State) (n attempt step : Nat) (h : s.memWf) : (endStep s n attempt step).memWf := by
  unfold endStep
  dsimp only
  repeat' split
  all_goals simp +contextual (disch := simp +contextual [h])

@[simp] theorem memWf_collArrived (s : State) (id : Nat) (m : ArriveMsg) (h : s.memWf) :
    (collArrived s id m).memWf := by
  unfold collArrived
  dsimp only
  repeat' split
  all_goals simp [h]

@[simp] theorem memWf_takeEarly (s : State) (group attempt step colseq : Nat) :
    (takeEarly s group attempt step colseq).2.memWf ↔ s.memWf := .rfl

@[simp] theorem memWf_wheyRead (s : State) (n : Nat) (v : CollView) :
    (wheyRead s n v).2.2.memWf ↔ s.memWf := by simp [wheyRead]

@[simp] theorem memWf_wheyWrite (s : State) (c : Coll) (v : CollView) (cur : Nat) (w : List (List Byte × Bool)) (h : s.memWf) :
    (wheyWrite s c v cur w).memWf := by simp +contextual (disch := simp +contextual [h]) [wheyWrite]

@[simp] theorem memWf_takeInbox (s : State) (id : Nat) (c : Coll) (h : s.memWf) : (takeInbox s id c).memWf := by
  simp +contextual [h, takeInbox]

@[simp] theorem memWf_collRead (s : State) (id : Nat) (c : Coll) (v : CollView) (h : s.memWf) : (collRead s id c v).memWf := by
  unfold collRead
  dsimp only
  repeat' split
  all_goals simp +contextual (disch := simp +contextual (disch := simp +contextual [h]) [h])

@[simp] theorem memWf_collBegin (s : State) (id : Nat) (c : Coll) (v : CollView) (h : s.memWf) : (collBegin s id c v).memWf := by
  unfold collBegin
  dsimp only
  repeat' split
  all_goals simp +contextual [h]

theorem memWf_collStart {go : State → State} (kept : ∀ s, s.memWf → (go s).memWf) (s : State) (h : s.memWf) :
    (collStart go s).memWf := by
  unfold collStart
  split
  · exact h
  · split
    · exact kept _ (by simp [h])
    · exact kept _ (by simp [h])
    · exact h

@[simp] theorem memWf_pumpColls (fuel : Nat) (s : State) (h : s.memWf) : (pumpColls fuel s).memWf := by
  induction fuel generalizing s with
  | zero => exact h
  | succ fuel ih =>
    rw [pumpColls_succ]
    exact memWf_collStart ih s h

@[simp] theorem memWf_collResume (s : State) (id : Nat) (h : s.memWf) : (collResume s id).memWf := by
  unfold collResume
  repeat' split
  all_goals simp [h]

@[simp] theorem memWf_hubSettle (s : State) (h : s.memWf) : (hubSettle s).memWf := by
  simp +contextual (disch := simp +contextual (disch := simp +contextual [h]) [h]) [hubSettle]

/-! ### What a teardown discards (Machine/Teardown.lean) -/

@[simp] theorem memWf_dropSample (s : State) (n c : Nat) : (dropSample s n c).memWf ↔ s.memWf := by
  unfold dropSample
  dsimp only
  split <;> simp

/-! ### The commit window (Machine/Window.lean) -/

@[simp] theorem memWf_promptPoison (s : State) (n va : Nat) : (promptPoison s n va).2.memWf ↔ s.memWf := by
  unfold promptPoison
  dsimp only
  split <;> simp

/-! ### Memory requests (Machine/MemReq.lean) -/

@[simp] theorem memWf_wakeMemWait (s : State) (a : Agent) : (wakeMemWait s a).memWf ↔ s.memWf := by
  unfold wakeMemWait
  repeat' split
  all_goals simp

@[simp] theorem memWf_wakeRings (s : State) (c : Nat) : (wakeRings s c).memWf ↔ s.memWf := by simp [wakeRings]

@[simp] theorem memWf_fillSlot (s : State) (c k j : Nat) : (fillSlot s c k j).memWf ↔ s.memWf := by
  unfold fillSlot
  dsimp only
  repeat' split
  all_goals simp

@[simp] theorem memWf_schedCheck (s : State) (id : Nat) : (schedCheck s id).memWf ↔ s.memWf := by
  unfold schedCheck
  dsimp only
  repeat' split
  all_goals simp

@[simp] theorem memWf_schedLanded (s : State) (id key code : Nat) : (schedLanded s id key code).memWf ↔ s.memWf := by
  unfold schedLanded
  dsimp only
  repeat' split
  all_goals simp

@[simp] theorem memWf_landSaved (s : State) (n c : Nat) (ps : List (Nat × Nat × Nat)) (data : List Byte) (poison : Bool) (h : s.memWf) :
    (landSaved s n c ps data poison).memWf := by simp +contextual [h, landSaved]

@[simp] theorem memWf_landGrain (s : State) (r : MReq) (data : List Byte) (tag : GrainTag) (h : s.memWf) :
    (landGrain s r data tag).memWf := by
  unfold landGrain
  split
  · split
    · simp [h]
    · simpa using memWf_modCore h _ _ fun x => writeRuns_wf _
  · split <;> simp [h]
  · exact h

@[simp] theorem memWf_peerCount (s : State) (r : MReq) (up : Bool) : (peerCount s r up).memWf ↔ s.memWf := by
  unfold peerCount
  repeat' split
  all_goals simp

@[simp] theorem memWf_countEnd (s : State) (r : MReq) (code : Nat) : (countEnd s r code).memWf ↔ s.memWf := by
  unfold countEnd
  repeat' split
  all_goals simp

@[simp] theorem memWf_moveOn (s : State) (r : MReq) (va code : Nat) (data : List Byte) (tag : GrainTag) :
    (moveOn s r va code data tag).memWf ↔ s.memWf := by
  unfold moveOn
  split <;> simp

@[simp] theorem memWf_reportStore (s : State) (r : MReq) (code : Nat) : (reportStore s r code).memWf ↔ s.memWf := by
  unfold reportStore
  dsimp only
  repeat' split
  all_goals simp

@[simp] theorem memWf_endReq (s : State) (id code : Nat) (data : List Byte) (tag : GrainTag) (h : s.memWf) :
    (endReq s id code data tag).memWf := by
  unfold endReq
  dsimp only
  repeat' split
  all_goals simp [h]

@[simp] theorem memWf_failedWriteLands (s : State) : (failedWriteLands s).2.memWf ↔ s.memWf := .rfl

@[simp] theorem memWf_failArrives (s : State) (id : Nat) (r : MReq) (h : s.memWf) : (failArrives s id r).memWf := by
  unfold failArrives
  repeat' split
  all_goals simp [h]

@[simp] theorem memWf_failReq (s : State) (id : Nat) (h : s.memWf) : (failReq s id).memWf := by
  unfold failReq
  dsimp only
  repeat' split
  all_goals simp [h]

@[simp] theorem memWf_routeReq (s : State) (id : Nat) (r : MReq) (h : s.memWf) : (routeReq s id r).memWf := by
  unfold routeReq
  repeat' split
  all_goals simp [h]

@[simp] theorem memWf_startWindow (s : State) (id : Nat) (r : MReq) :
    (startWindow s id r).memWf ↔ s.memWf := by simp [startWindow]

@[simp] theorem memWf_startReq (s : State) (id : Nat) (h : s.memWf) : (startReq s id).memWf := by
  unfold startReq
  dsimp only
  repeat' split
  all_goals simp [h]

@[simp] theorem memWf_takeSlot (s : State) (c : Nat) (w : Waiting) (h : s.memWf) : (takeSlot s c w).memWf := by
  unfold takeSlot
  dsimp only
  split <;> simp [h]

@[simp] theorem memWf_fillSlots (c fuel : Nat) (s : State) (h : s.memWf) : (fillSlots c fuel s).memWf := by
  induction fuel generalizing s with
  | zero => exact h
  | succ fuel ih =>
    unfold fillSlots
    split
    · exact h
    · split
      · exact h
      · exact ih _ (memWf_takeSlot _ _ _ h)

@[simp] theorem memWf_pumpSlots (s : State) (c : Nat) (h : s.memWf) : (pumpSlots s c).memWf := by simp [h, pumpSlots]

@[simp] theorem memWf_startMoves (s : State) (h : s.memWf) : (startMoves s).memWf := by simp +contextual [h, startMoves]

@[simp] theorem memWf_sendOrdered (s : State) (h : s.memWf) : (sendOrdered s).memWf := by simp +contextual [h, sendOrdered]

@[simp] theorem memWf_afterReq (s : State) (core : Option Nat) (h : s.memWf) : (afterReq s core).memWf := by
  unfold afterReq
  dsimp only
  split <;> simp [h]

/-! ### Firing (Machine/Firing.lean) -/

@[simp] theorem memWf_addTokens (s : State) (c b n : Nat) : (addTokens s c b n).memWf ↔ s.memWf := by simp [addTokens]

/-! ### Contexts: saves and restores (Machine/Sched.lean) -/

@[simp] theorem memWf_beginSave (s : State) (n : Nat) : (beginSave s n).memWf ↔ s.memWf := by
  unfold beginSave
  dsimp only
  split <;> simp

@[simp] theorem memWf_saveGrain (s : State) (n pa : Nat) (d : List Byte) (poison : Bool) (h : s.memWf) :
    (saveGrain s n pa d poison).memWf := by
  unfold saveGrain
  split <;> simp [h]

@[simp] theorem memWf_saveState (n pa fuel : Nat) (s : State) (h : s.memWf) : (saveState n pa fuel s).memWf := by
  induction fuel generalizing pa s with
  | zero => exact h
  | succ fuel ih => exact ih _ _ (by simp [h])

@[simp] theorem memWf_writeImage (s : State) (n c : Nat) (h : s.memWf) : (writeImage s n c).memWf :=
  memWf_saveState _ _ _ _ (memWf_foldl (fun _ _ h => memWf_saveGrain _ _ _ _ _ h) _ h)

@[simp] theorem memWf_rekeyCtx (s : State) (n : Nat) (f : Nat → Nat) : (rekeyCtx s n f).memWf ↔ s.memWf := .rfl

@[simp] theorem memWf_dropEdge (s : State) (c : Nat) : (dropEdge s c).memWf ↔ s.memWf := .rfl

@[simp] theorem memWf_edgeToBlocks (s : State) (c : Nat) : (edgeToBlocks s c).memWf ↔ s.memWf := by
  refine memWf_foldl_iff _ _ fun s e => ?_
  split
  · split <;> simp
  · split
    · split <;> simp
    · rfl
  · rfl

@[simp] theorem memWf_saveCore (s : State) (n c : Nat) (h : s.memWf) : (saveCore s n c).memWf := by
  rw [saveCore]
  have written : (writeImage (dropSample (dropEdge (edgeToBlocks s c) c) n c) n c).memWf := by simp [h]
  generalize writeImage (dropSample (dropEdge (edgeToBlocks s c) c) n c) n c = t at written ⊢
  exact memWf_setCore (memWf_setCore written rfl) rfl

@[simp] theorem memWf_chargeSave (s : State) (n k : Nat) : (chargeSave s n k).memWf ↔ s.memWf := .rfl

@[simp] theorem memWf_claimRestore (s : State) (n : Nat) : (claimRestore s n).memWf ↔ s.memWf := by
  unfold claimRestore
  dsimp only
  split <;> simp

@[simp] theorem memWf_readSaved (s : State) (n c u : Nat) : (readSaved s n c u).2.2.memWf ↔ s.memWf := by
  induction u with
  | zero => rfl
  | succ u ih => exact (memWf_readGrain _ _).trans ih

theorem readSaved_wf (s : State) (n c u : Nat) : Memory.wf (readSaved s n c u).1 = true := by
  induction u with
  | zero => rfl
  | succ u ih => exact writeBytes_wf _ _ _ ih

/-- The grain count is made a variable first, so that no check of the proof runs a core's read-back. -/
@[simp] theorem memWf_restoreCore (s : State) (n c : Nat) (h : s.memWf) : (restoreCore s n c).memWf := by
  have general : ∀ f, f = restoreCore → (f s n c).memWf := by
    delta restoreCore
    generalize 8192 = grains
    intro f restored
    have read := (memWf_readSaved s n c grains).mpr h
    have cells := readSaved_wf s n c grains
    have restored := congrFun (congrFun (congrFun restored s) n) c
    rw [restored]
    generalize readSaved s n c grains = r at read cells ⊢
    obtain ⟨m, marks, t⟩ := r
    exact memWf_setCore ⟨read.1, spsWf_tdel _ read.2⟩ cells
  exact general _ rfl

@[simp] theorem memWf_restoreCtx (s : State) (n : Nat) (h : s.memWf) : (restoreCtx s n).memWf := by
  simp +contextual (disch := simp +contextual [h]) [restoreCtx]

@[simp] theorem memWf_recordReplay (s : State) (n : Nat) : (recordReplay s n).memWf ↔ s.memWf := .rfl

@[simp] theorem memWf_bringBack (s : State) (n : Nat) (h : s.memWf) : (bringBack s n).memWf := by simp [h, bringBack]

@[simp] theorem memWf_saveAll (s : State) (n : Nat) (h : s.memWf) : (saveAll s n).memWf := by simp +contextual [h, saveAll]

/-! ### Peers (Machine/Peers.lean) -/

@[simp] theorem memWf_failPeerReqs (s : State) (j : Nat) (h : s.memWf) : (failPeerReqs s j).memWf := by
  simp +contextual (disch := simp +contextual [h]) [failPeerReqs]

@[simp] theorem memWf_endStepsOf (s : State) (p : Nat → Bool) (h : s.memWf) : (endStepsOf s p).memWf := by
  simp +contextual [h, endStepsOf]

@[simp] theorem memWf_declareAbsent (s : State) (j : Nat) (h : s.memWf) : (declareAbsent s j).memWf := by
  unfold declareAbsent
  dsimp only
  split
  · exact h
  · refine memWf_hubSettle _ (memWf_endStepsOf _ _ (memWf_failPeerReqs _ _ (memWf_closePeerQueues _ _ ?_)))
    exact memWf_foldl (fun _ _ h => by simp [h]) _ (by simpa using h)

@[simp] theorem memWf_showRelay (s : State) : (showRelay s).memWf ↔ s.memWf := by
  refine memWf_foldl_iff _ _ fun s k => ?_
  dsimp only
  split <;> simp

@[simp] theorem memWf_relink (s : State) (h : s.memWf) : (relink s).memWf := by
  unfold relink
  exact (memWf_showRelay _).mpr (memWf_foldl memWf_declareAbsent _ (by simpa using h))

@[simp] theorem memWf_sendRoutes (s : State) : (sendRoutes s).memWf ↔ s.memWf := by
  unfold sendRoutes
  split <;> simp

@[simp] theorem memWf_rerouteAll (s : State) (k : Nat) : (rerouteAll s k).memWf ↔ s.memWf := by simp [rerouteAll]

@[simp] theorem memWf_portOff (s : State) (k st : Nat) (h : s.memWf) : (portOff s k st).memWf := by
  unfold portOff
  dsimp only
  split <;> simp [h]

/-! ### The way into Hold (Machine/Hold.lean) -/

@[simp] theorem memWf_saveLive (s : State) (h : s.memWf) : (saveLive s).memWf := by simp +contextual [h, saveLive]

@[simp] theorem memWf_leavePeers (s : State) (h : s.memWf) : (leavePeers s).memWf :=
  memWf_foldl memWf_declareAbsent _ (memWf_foldl (fun s k => memWf_portOff s k ptDisabled) _ h)

@[simp] theorem memWf_enterHold (s : State) (h : s.memWf) : (enterHold s).memWf := by
  have left : (leavePeers (saveLive s)).memWf := memWf_leavePeers _ (memWf_saveLive s h)
  unfold enterHold
  generalize leavePeers (saveLive s) = t at left ⊢
  exact left

@[simp] theorem memWf_holdStep (s : State) (h : s.memWf) : (holdStep s).memWf := by
  unfold holdStep
  split <;> simp [h]

/-! ### What a tick lets go on (Machine/Tick.lean) -/

@[simp] theorem memWf_pllOffTick (s : State) (k : Nat) : (pllOffTick s k).memWf ↔ s.memWf := by
  unfold pllOffTick
  dsimp only
  split <;> simp

@[simp] theorem memWf_heldTick (s : State) (k : Nat) : (heldTick s k).memWf ↔ s.memWf := .rfl

@[simp] theorem coreCycles_sp (s : State) (n c : Nat) (x : Core) : (coreCycles s n c x).sp = x.sp := by
  unfold coreCycles
  dsimp only
  split <;> rfl

@[simp] theorem memWf_dieTick (s : State) (k : Nat) : (dieTick s k).memWf ↔ s.memWf := by
  unfold dieTick
  dsimp only
  repeat' split
  all_goals simp

@[simp] theorem memWf_napTick (s : State) : (napTick s).memWf ↔ s.memWf := .rfl

@[simp] theorem memWf_endRestarts (s : State) (h : s.memWf) : (endRestarts s).memWf := by
  simp [h, endRestarts, apply_ite State.memWf]

@[simp] theorem memWf_endSpeedTest (s : State) (h : s.memWf) : (endSpeedTest s).memWf := by
  unfold endSpeedTest
  split
  · exact h
  · split
    · exact h
    · exact memWf_foldl memWf_bringBack _ (by simpa using h)

end Machine
end Sys2Proof
end

section
/-! What the operations of Ops, CoreOps, QueueOps, RolloutOps, Rollout, Models, Collective, Shares, Teardown, Frame, Window,
MemReq, Summary, Firing, Sched, Partition, Ingress, MemEvents make of the canonical form of memory. -/
namespace Sys2Proof
namespace Machine

/-! ### Machine/Ops.lean -/

@[simp] theorem memWf_invalidateRun (s : State) (pa len : Nat) :
    (invalidateRun s pa len).memWf ↔ s.memWf := by simp [invalidateRun]

@[simp] theorem memWf_scrubRange (s : State) (pa len : Nat) (h : s.memWf) : (scrubRange s pa len).memWf := scrubRange_wf s pa len h

@[simp] theorem memWf_journalDone (s : State) (cc what subject : Nat) :
    (journalDone s cc what subject).memWf ↔ s.memWf := .rfl

@[simp] theorem memWf_countFault (s : State) (k : Nat) : (countFault s k).memWf ↔ s.memWf := .rfl

@[simp] theorem memWf_saveCarrier (s : State) (f : Carrier → Carrier) : (saveCarrier s f).memWf ↔ s.memWf := .rfl

/-! ### Machine/CoreOps.lean -/

@[simp] theorem memWf_wakeAll (s : State) (p : Park → Bool) : (wakeAll s p).memWf ↔ s.memWf := by simp [wakeAll]

@[simp] theorem memWf_queueFreed (s : State) : (queueFreed s).memWf ↔ s.memWf := by simp [queueFreed]

@[simp] theorem memWf_modThread (s : State) (a : Agent) (f : Thread → Thread) : (modThread s a f).memWf ↔ s.memWf := by
  unfold modThread
  split <;> simp

@[simp] theorem memWf_emptyCg (s : State) (a : Agent) (g : Option Nat) : (emptyCg s a g).memWf ↔ s.memWf := by
  unfold emptyCg
  split <;> simp

/-! ### Machine/QueueOps.lean -/

@[simp] theorem memWf_flushFlit (s : State) (c ep : Nat) : (flushFlit s c ep).memWf ↔ s.memWf := by
  unfold flushFlit
  dsimp only
  repeat' split
  all_goals simp

@[simp] theorem memWf_returnCredits (s : State) (c ep n : Nat) : (returnCredits s c ep n).memWf ↔ s.memWf := by
  unfold returnCredits
  dsimp only
  repeat' split
  all_goals simp

@[simp] theorem memWf_releasePacket (s : State) (c ep num : Nat) :
    (releasePacket s c ep num).memWf ↔ s.memWf := by simp [releasePacket]

@[simp] theorem memWf_tryOpen (s : State) (c ep : Nat) : (tryOpen s c ep).memWf ↔ s.memWf := by
  unfold tryOpen
  dsimp only
  repeat' split
  all_goals simp

@[simp] theorem memWf_landWord (s : State) (c ep : Nat) (q : QWord) (h : s.memWf) : (landWord s c ep q).memWf := by
  unfold landWord
  split <;> simp (disch := simp [h])

@[simp] theorem memWf_closeEnd (s : State) (c ep : Nat) (tellFar : Bool) (h : s.memWf) : (closeEnd s c ep tellFar).memWf := by
  unfold closeEnd
  dsimp only
  repeat' split
  all_goals simp [h]

@[simp] theorem memWf_unconfigEnd (s : State) (c ep : Nat) (h : s.memWf) : (unconfigEnd s c ep).memWf := by simp [h, unconfigEnd]

@[simp] theorem memWf_closeCoreEnds (s : State) (c : Nat) (h : s.memWf) : (closeCoreEnds s c).memWf := by
  simp +contextual [h, closeCoreEnds]

@[simp] theorem memWf_writeCfg (s : State) (c ep : Nat) (w : Word) : (writeCfg s c ep w).memWf ↔ s.memWf := by simp [writeCfg]

/-! ### Machine/RolloutOps.lean -/

@[simp] theorem memWf_settleSteps (s : State) (n : Nat) : (settleSteps s n).memWf ↔ s.memWf := .rfl

/-! ### Machine/Rollout.lean -/

@[simp] theorem memWf_applyPolicy (s : State) (id : Nat) (h : s.memWf) : (applyPolicy s id).memWf := by
  unfold applyPolicy
  dsimp only
  repeat' split
  all_goals simp [h]

@[simp] theorem memWf_endBinding (s : State) (id : Nat) (h : s.memWf) : (endBinding s id).memWf := by
  unfold endBinding
  repeat' split
  all_goals simp [h]

@[simp] theorem memWf_copySet (s : State) (m : Model) (old new : PageSet) (h : s.memWf) : (copySet s m old new).memWf := by
  refine memWf_writeHeaders _ _ _ (memWf_foldl (fun s g h => ?_) _ h)
  have read := (memWf_readGrain s (setPa m old g)).mpr h
  generalize readGrain s (setPa m old g) = r at read ⊢
  obtain ⟨data, tag, t⟩ := r
  exact memWf_writeGrain _ _ _ _ read

@[simp] theorem memWf_acceptLoop (s : State) (id n : Nat) (h : s.memWf) : (acceptLoop s id n).memWf := by
  induction n generalizing s with
  | zero => exact h
  | succ n ih =>
    unfold acceptLoop
    dsimp only
    repeat' split
    all_goals simp [h, ih]

@[simp] theorem memWf_makeHandle (s : State) (id : Nat) (h : s.memWf) : (makeHandle s id).memWf := by
  unfold makeHandle
  repeat' split
  all_goals simp [h]

/-! ### Machine/Models.lean -/

@[simp] theorem memWf_readSource (s : State) (m : Model) (pa : Nat) :
    (readSource s m pa).2.2.memWf ↔ s.memWf := by simp [readSource]

@[simp] theorem memWf_copyLayer (s : State) (m : Model) (src : Nat) (l : Layer) (h : s.memWf) :
    (copyLayer s m src l).memWf := by simp +contextual [h, copyLayer]

@[simp] theorem memWf_wakeEnters (s : State) (h layer : Nat) : (wakeEnters s h layer).memWf ↔ s.memWf := by simp [wakeEnters]

@[simp] theorem memWf_readAgain (s : State) (ix : Nat) (m : Model) (h : s.memWf) : (readAgain s ix m).memWf := by
  unfold readAgain
  split <;> simp [h]

@[simp] theorem memWf_syncModels (s : State) (h : s.memWf) : (syncModels s).memWf := by simp +contextual [h, syncModels]

/-! ### Machine/Collective.lean -/

@[simp] theorem memWf_settleDue (s : State) (h : s.memWf) : (settleDue s).memWf := by
  simp +contextual (disch := simp +contextual [h]) [settleDue]

@[simp] theorem memWf_modReshard (s : State) (id : Nat) (f : Reshard → Reshard) : (modReshard s id f).memWf ↔ s.memWf := by
  unfold modReshard
  split <;> simp

@[simp] theorem memWf_stageGrain (s : State) (id : Nat) (r : Reshard) (j : Nat) (data : List Byte) (tag : GrainTag) (h : s.memWf) :
    (stageGrain s id r j data tag).memWf := by simp [h, stageGrain]

@[simp] theorem memWf_reshardFlush (s : State) (id : Nat) (m : ArriveMsg) : (reshardFlush s id m).memWf ↔ s.memWf := by
  unfold reshardFlush
  split
  · rfl
  split
  · rfl
  split
  · rfl
  · refine (memWf_modReshard _ _ _).trans (memWf_foldl_iff _ _ fun s j => ?_)
    dsimp only
    repeat' split
    all_goals simp

@[simp] theorem memWf_reshardCheck (s : State) (id : Nat) : (reshardCheck s id).memWf ↔ s.memWf := by
  unfold reshardCheck
  dsimp only
  repeat' split
  all_goals simp

@[simp] theorem memWf_reshardArrived (s : State) (id : Nat) (m : ArriveMsg) (h : s.memWf) : (reshardArrived s id m).memWf := by
  unfold reshardArrived
  repeat' split
  all_goals simp [h]

@[simp] theorem memWf_reshardAcks (s : State) (h : s.memWf) : (reshardAcks s).memWf := by
  unfold reshardAcks
  split <;> simp [h]

@[simp] theorem memWf_reshardPass (s : State) (id : Nat) (h : s.memWf) : (reshardPass s id).memWf := by
  unfold reshardPass
  split
  · exact h
  split
  · refine (memWf_reshardCheck _ _).mpr (memWf_foldl (fun s m => memWf_reshardArrived s id m) _ ((memWf_takeEarly _ _ _ _ _).mpr
      ((memWf_wakeAgent _ _ _).mpr (memWf_foldl (fun s j h => ?_) _ (by simp [h])))))
    dsimp only
    repeat' split
    all_goals simp [h]
  · exact h

@[simp] theorem memWf_releaseHeld (s : State) (h : s.memWf) : (releaseHeld s).memWf := by simp [h, releaseHeld]

@[simp] theorem memWf_commitReshard (s : State) (r : Reshard) (t : Tensor) (h : s.memWf) : (commitReshard s r t).memWf := by
  refine (memWf_modHub _ _).mpr ?_
  split
  · exact h
  · refine memWf_foldl (fun s j h => ?_) _ h
    split <;> simp [h]

@[simp] theorem memWf_dropReshard (s : State) (id : Nat) (h : s.memWf) : (dropReshard s id).memWf := by simp [h, dropReshard]

@[simp] theorem memWf_dropHubWork (s : State) (n : Nat) (h : s.memWf) : (dropHubWork s n).memWf := by simp [h, dropHubWork]

/-! ### Machine/Shares.lean -/

@[simp] theorem memWf_recomputeEnt (s : State) : (recomputeEnt s).memWf ↔ s.memWf := by
  refine memWf_foldl_iff _ _ fun t p => ?_
  dsimp only
  repeat' split
  all_goals simp

/-! ### Machine/Teardown.lean -/

@[simp] theorem memWf_setFaultRec (s : State) (n : Nat) (f : FaultRec) (h : s.memWf) : (setFaultRec s n f).memWf := by
  unfold setFaultRec
  dsimp only
  split <;> simp [h]

@[simp] theorem memWf_keepCounters (s : State) (c : Nat) : (keepCounters s c).memWf ↔ s.memWf := by
  unfold keepCounters
  dsimp only
  split <;> simp

@[simp] theorem memWf_freeCore (s : State) (c : Nat) (h : s.memWf) : (freeCore s c).memWf := by
  have kept : (keepCounters s c).memWf := by simp [h]
  unfold freeCore
  dsimp only
  split
  · exact ⟨kept.1, spsWf_tdel _ kept.2⟩
  · simp [h]

@[simp] theorem memWf_dropCore (s : State) (n c : Nat) (h : s.memWf) : (dropCore s n c).memWf := by simp [h, dropCore]

@[simp] theorem memWf_dropUpdWork (s : State) (n : Nat) : (dropUpdWork s n).memWf ↔ s.memWf := .rfl

@[simp] theorem memWf_stopWork (s : State) (n : Nat) (h : s.memWf) : (stopWork s n).memWf := by
  simp +contextual (disch := simp +contextual [h]) [stopWork]

@[simp] theorem memWf_flushReqs (s : State) (p : MReq → Bool) (h : s.memWf) : (flushReqs s p).memWf := by
  refine (memWf_modMem _ fun _ => rfl).mpr (memWf_foldl (fun s e h => ?_) _ h)
  split <;> simp [h]

@[simp] theorem memWf_endTeardown (s : State) (n : Nat) (h : s.memWf) : (endTeardown s n).memWf := by
  unfold endTeardown
  dsimp only
  repeat' split
  all_goals simp +contextual [h]

@[simp] theorem memWf_beginTeardown (s : State) (n : Nat) (reason : Reason) (h : s.memWf) :
    (beginTeardown s n reason).memWf := by
  unfold beginTeardown
  dsimp only
  repeat' split
  all_goals simp +contextual (disch := simp +contextual (disch := simp +contextual [h]) [h]) [h]

@[simp] theorem memWf_ctxFault (s : State) (n : Nat) (f : FaultRec) (h : s.memWf) : (ctxFault s n f).memWf := by
  unfold ctxFault
  dsimp only
  repeat' split
  all_goals simp [h]

@[simp] theorem memWf_abortOpenStep (s : State) (n own step : Nat) (h : s.memWf) : (abortOpenStep s n own step).memWf := by
  unfold abortOpenStep
  dsimp only
  split <;> simp [h]

@[simp] theorem memWf_abortOpenSteps (s : State) (n : Nat) (h : s.memWf) : (abortOpenSteps s n).memWf := by
  refine memWf_foldl (fun s step h => ?_) _ h
  split <;> simp [h]

@[simp] theorem memWf_evictForRestart (s : State) (id : Nat) (h : s.memWf) : (evictForRestart s id).memWf := by
  unfold evictForRestart
  repeat' split
  all_goals simp [h]

@[simp] theorem memWf_restartCtx (s : State) (n event core : Nat) (h : s.memWf) : (restartCtx s n event core).memWf := by
  have evicted := memWf_foldl memWf_evictForRestart (reqsOfCtx (stopWork s n) n) (memWf_stopWork s n h)
  have freed := fun (l : List Nat) => memWf_foldl memWf_freeCore l
    (memWf_flushReqs (dropHubWork (settleSteps (abortOpenSteps ((reqsOfCtx (stopWork s n) n).foldl evictForRestart (stopWork s n)) n)
      n) n) (fun r => r.ctx == n) (by simp [evicted]))
  simp [restartCtx, freed]

@[simp] theorem memWf_loseUnit (s : State) (n event core : Nat) (h : s.memWf) : (loseUnit s n event core).memWf := by
  unfold loseUnit
  dsimp only
  repeat' split
  all_goals simp [h]

/-! ### Machine/Frame.lean -/

@[simp] theorem memWf_putS (s : State) (a : Agent) (r : Nat) (v : Word) : (putS s a r v).memWf ↔ s.memWf := by simp [putS]

@[simp] theorem memWf_putD (s : State) (a : Agent) (r : Nat) (v : BitVec 256) : (putD s a r v).memWf ↔ s.memWf := by
  unfold putD
  split <;> simp

@[simp] theorem memWf_advance (s : State) (a : Agent) (n ip : Nat) (h : s.memWf) : (advance s a n ip).memWf := by
  unfold advance
  dsimp only
  split <;> simp [h]

@[simp] theorem memWf_parkAgent (s : State) (a : Agent) (cause : Nat) (w : Park) :
    (parkAgent s a cause w).memWf ↔ s.memWf := by
  unfold parkAgent
  split <;> simp

theorem memWf_issue {row : Row} {a : Agent} {n : Nat} {w : Word} {body : State → IRes} {s : State} (h : s.memWf)
    (left : (body s).Leaves State.memWf) : (issue row a n w body s).memWf := by
  unfold issue
  dsimp only
  split
  · simp [h]
  split
  · simp [h]
  split
  · simp [h]
  split
  · simp [h]
  · cases ended : body s with
    | fault code addr own =>
      dsimp only
      split <;> simp [h]
    | _ =>
      rw [ended] at left
      have left : State.memWf _ := left
      simp [left]

/-! ### Machine/Window.lean -/

@[simp] theorem memWf_storeW0 (s : State) (n key : Nat) (v : Word) : (storeW0 s n key v).memWf ↔ s.memWf := .rfl

@[simp] theorem memWf_storeW1 (s : State) (n key : Nat) (v : Word) : (storeW1 s n key v).memWf ↔ s.memWf := .rfl

/-! ### Machine/MemReq.lean -/

@[simp] theorem memWf_addReq (s : State) (r : MReq) (h : s.memWf) : (addReq s r).memWf := by
  unfold addReq
  dsimp only
  split
  · simp [h]
  · exact memWf_startMoves _ (memWf_startReq _ _ (by simp [h]))

/-! ### Machine/Summary.lean -/

@[simp] theorem memWf_mailSettle (s : State) (n tag round : Nat) : (mailSettle s n tag round).memWf ↔ s.memWf := by
  unfold mailSettle
  dsimp only
  repeat' split
  all_goals simp

@[simp] theorem memWf_mailAdd (s : State) (n : Nat) (c : Contribution) : (mailAdd s n c).memWf ↔ s.memWf := by simp [mailAdd]

@[simp] theorem memWf_sendSummary (s : State) (c : Nat) (m : Contribution) : (sendSummary s c m).memWf ↔ s.memWf := by
  simp [sendSummary]

/-! ### Machine/Firing.lean -/

@[simp] theorem memWf_bindBlock (s : State) (c b thr : Nat) (d : BlockDesc) : (bindBlock s c b thr d).memWf ↔ s.memWf := by
  have claimed : ∀ (ops : List OpDecl) (x : Core), (ops.foldl (fun x o => claimOp x b thr o) x).sp = x.sp := fun ops x =>
    foldl_keeps (p := Core.sp) (fun x o => claimOp_sp x b thr o) ops x
  simp [bindBlock, claimed]

@[simp] theorem memWf_releaseAll (s : State) (c thr : Nat) : (releaseAll s c thr).memWf ↔ s.memWf := by simp [releaseAll]

@[simp] theorem memWf_endInstance (s : State) (c thr : Nat) : (endInstance s c thr).memWf ↔ s.memWf := by simp [endInstance]

@[simp] theorem memWf_imageGrains (s : State) (n va k : Nat) : (imageGrains s n va k).2.memWf ↔ s.memWf := by
  induction k generalizing s va with
  | zero => rfl
  | succ k ih =>
    have rest := ih (engineRead s n va).2.2 (va + 256)
    rw [memWf_engineRead] at rest
    unfold imageGrains
    dsimp only
    repeat' split
    all_goals simp_all

theorem memWf_of_imageGrains {s t : State} {n va k : Nat} {r : Except Nat (List Byte)} (ran : imageGrains s n va k = (r, t)) :
    t.memWf ↔ s.memWf := by
  rw [← memWf_imageGrains s n va k, ran]

@[simp] theorem memWf_readProgram (s : State) (n c va : Nat) : (readProgram s n c va).2.memWf ↔ s.memWf := by
  unfold readProgram
  split
  next ran => exact memWf_of_imageGrains ran
  next h t ran =>
    have head := memWf_of_imageGrains ran
    dsimp only
    split
    · exact head
    split
    next ran => exact (memWf_of_imageGrains ran).trans head
    next ran =>
      have read := (memWf_of_imageGrains ran).trans head
      split <;> exact read

@[simp] theorem memWf_installImage (s : State) (c : Nat) (im : Image) (h : s.memWf) : (installImage s c im).memWf := by
  have installed (f : Core → Core) (data : ∀ x, Memory.wf (f x).sp = true) : (modCore (closeCoreEnds s c) c f).memWf :=
    memWf_modCore_of _ _ (by simp [h]) fun x _ => data x
  unfold installImage
  simpa using installed _ fun _ => writeBytes_wf _ _ _ (writeBytes_wf _ _ _ rfl)

@[simp] theorem memWf_rejectImage (s : State) (c : Nat) (h : s.memWf) : (rejectImage s c).memWf := by simp [h, rejectImage]

@[simp] theorem memWf_landNext (s : State) (c ep : Nat) (h : s.memWf) : (landNext s c ep).memWf := by
  unfold landNext
  dsimp only
  repeat' split
  all_goals simp [h]

@[simp] theorem memWf_takeCredits (s : State) (c ep : Nat) : (takeCredits s c ep).memWf ↔ s.memWf := by simp [takeCredits]

/-! ### Machine/Sched.lean -/

@[simp] theorem memWf_preempt (s : State) (n : Nat) : (preempt s n).memWf ↔ s.memWf := by
  unfold preempt
  dsimp only
  split <;> simp

@[simp] theorem memWf_grantCore (s : State) (n c : Nat) (h : s.memWf) : (grantCore s n c).memWf := by simp [h, grantCore]

@[simp] theorem memWf_answerCores (s : State) (n : Nat) : (answerCores s n).memWf ↔ s.memWf := .rfl

@[simp] theorem memWf_coresStep (s : State) (n : Nat) (h : s.memWf) : (coresStep s n).memWf := by
  unfold coresStep
  dsimp only
  repeat' split
  all_goals simp +contextual [h]

@[simp] theorem memWf_dropRestore (s : State) (n : Nat) : (dropRestore s n).memWf ↔ s.memWf := by
  unfold dropRestore
  split <;> simp

@[simp] theorem memWf_coresFreed (s : State) (h : s.memWf) : (coresFreed s).memWf := by simp +contextual [h, coresFreed]

@[simp] theorem memWf_askCores (s : State) (n count : Nat) (h : s.memWf) : (askCores s n count).memWf := by
  unfold askCores
  dsimp only
  split <;> simp (disch := simp [h])

@[simp] theorem memWf_tryRestore (s : State) (n : Nat) : (tryRestore s n).memWf ↔ s.memWf := by
  unfold tryRestore
  dsimp only
  split <;> simp

@[simp] theorem memWf_finishSave (s : State) (n : Nat) (h : s.memWf) : (finishSave s n).memWf := by simp [h, finishSave]

/-! ### Machine/Partition.lean -/

@[simp] theorem memWf_noteDeferred (s : State) (p : Nat) : (noteDeferred s p).memWf ↔ s.memWf := .rfl

@[simp] theorem memWf_fetchEntry (s : State) (p : Nat) : (fetchEntry s p).2.memWf ↔ s.memWf := by simp [fetchEntry]

@[simp] theorem memWf_cmdComplete (s : State) (p result detail : Nat) (h : s.memWf) :
    (cmdComplete s p result detail).memWf := by simp [h, cmdComplete]

@[simp] theorem memWf_retireEnergy (s : State) (n : Nat) : (retireEnergy s n).memWf ↔ s.memWf := .rfl

@[simp] theorem memWf_endDestroy (s : State) (p n : Nat) (h : s.memWf) : (endDestroy s p n).memWf := by
  unfold endDestroy
  split <;> simp [h]

@[simp] theorem memWf_advancePasses (s : State) : (advancePasses s).memWf ↔ s.memWf := .rfl

@[simp] theorem memWf_dropServing (s : State) (p : Nat) (h : s.memWf) : (dropServing s p).memWf := by
  unfold dropServing
  refine (memWf_mk _ ..).mpr (memWf_foldl (fun s ix h => ?_) _
    (memWf_releaseHandles _ _ ((memWf_modRo _ _).mpr (memWf_foldl memWf_releaseSets _ h))))
  split <;> simp [h]

@[simp] theorem memWf_resetContexts (s : State) (p : Nat) (h : s.memWf) : (resetContexts s p).memWf := by
  simp +contextual [h, resetContexts]

@[simp] theorem memWf_dropFirmware (s : State) (p : Nat) : (dropFirmware s p).memWf ↔ s.memWf := by simp [dropFirmware]

@[simp] theorem memWf_resetPart (s : State) (p : Nat) (h : s.memWf) : (resetPart s p).memWf := by
  unfold resetPart
  split <;> simp [h]

@[simp] theorem memWf_scrubWindows (s : State) (p : Nat) (h : s.memWf) : (scrubWindows s p).memWf := by
  refine memWf_foldl (fun s r h => ?_) _ h
  split <;> simp [h]

@[simp] theorem memWf_snoopWindows (s : State) (p : Nat) : (snoopWindows s p).memWf ↔ s.memWf := by simp [snoopWindows]

@[simp] theorem memWf_finishReset (s : State) (p : Nat) (h : s.memWf) : (finishReset s p).memWf := by simp [h, finishReset]

/-! ### Machine/Ingress.lean -/

@[simp] theorem memWf_trackLine (s : State) (l : Nat) : (trackLine s l).memWf ↔ s.memWf := by
  unfold trackLine
  repeat' split
  all_goals simp

@[simp] theorem memWf_hdmDenied (s : State) : (hdmDenied s).memWf ↔ s.memWf := .rfl

@[simp] theorem memWf_hdmOutside (s : State) (pa : Nat) (data : Option (List Byte)) :
    (hdmOutside s pa data).memWf ↔ s.memWf := .rfl

@[simp] theorem memWf_readLine (s : State) (pa : Nat) : (readLine s pa).memWf ↔ s.memWf := by
  unfold readLine
  dsimp only
  repeat' split
  all_goals simp

@[simp] theorem memWf_mergeLine (s : State) (p a : Nat) (data : List Byte) (h : s.memWf) : (mergeLine s p a data).memWf := by
  unfold mergeLine
  dsimp only
  repeat' split
  all_goals simp [h]

@[simp] theorem memWf_writeLine (s : State) (pa : Nat) (data : List Byte) (h : s.memWf) : (writeLine s pa data).memWf := by
  unfold writeLine
  dsimp only
  repeat' split
  all_goals simp [h]

@[simp] theorem memWf_hdmServe (s : State) (pa : Nat) (data : Option (List Byte)) (h : s.memWf) :
    (hdmServe s pa data).memWf := by
  unfold hdmServe
  split <;> simp [h]

@[simp] theorem memWf_servePeerRead (s : State) (src txn pa : Nat) : (servePeerRead s src txn pa).memWf ↔ s.memWf := by
  unfold servePeerRead
  dsimp only
  split <;> simp

@[simp] theorem memWf_addOutside (s : State) (r : MReq) : (addOutside s r).memWf ↔ s.memWf := .rfl

@[simp] theorem memWf_queueAtBank (s : State) (source pa : Nat) (isWrite : Bool) (data : List Byte) (tag : GrainTag)
    (dest : Dest) :
    (queueAtBank s source pa isWrite data tag dest).memWf ↔ s.memWf := .rfl

@[simp] theorem memWf_hdmEnter (s : State) (pa : Nat) (data : Option (List Byte)) (h : s.memWf) :
    (hdmEnter s pa data).memWf := by
  unfold hdmEnter
  split <;> simp [h]

@[simp] theorem memWf_servePeerWrite (s : State) (src txn pa off : Nat) (data : List Byte) (tag : GrainTag) (h : s.memWf) :
    (servePeerWrite s src txn pa off data tag).memWf := by
  unfold servePeerWrite
  dsimp only
  repeat' split
  all_goals simp [h]

@[simp] theorem memWf_serveOutside (s : State) (r : MReq) (h : s.memWf) : (serveOutside s r).memWf := by
  unfold serveOutside
  repeat' split
  all_goals simp [h]

/-! ### Machine/MemEvents.lean -/

@[simp] theorem memWf_discardReq (s : State) (id : Nat) (r : MReq) (h : s.memWf) :
    (discardReq s id r).memWf := by simp [h, discardReq]

@[simp] theorem memWf_respond (s : State) (id : Nat) (r : MReq) (corrupt : Bool) (h : s.memWf) :
    (respond s id r corrupt).memWf := by
  unfold respond
  dsimp only
  repeat' split
  all_goals simp [h]

@[simp] theorem memWf_ackWrite (s : State) (id : Nat) (r : MReq) (h : s.memWf) : (ackWrite s id r).memWf := by simp [h, ackWrite]

@[simp] theorem memWf_ackAtCore (s : State) (id : Nat) (r : MReq) (h : s.memWf) : (ackAtCore s id r).memWf := by
  unfold ackAtCore
  repeat' split
  all_goals simp [h]

@[simp] theorem memWf_freeBiWrite (s : State) (id : Nat) (r : MReq) (h : s.memWf) : (freeBiWrite s id r).memWf := by
  unfold freeBiWrite
  split <;> simp [h]

@[simp] theorem memWf_freeBiWrites (s : State) (h : s.memWf) : (freeBiWrites s).memWf := by simp +contextual [h, freeBiWrites]

@[simp] theorem memWf_logUncorrectable (s : State) (pa : Nat) : (logUncorrectable s pa).memWf ↔ s.memWf := by
  unfold logUncorrectable
  split <;> simp

@[simp] theorem memWf_queueRefetch (s : State) (a : Nat) : (queueRefetch s a).memWf ↔ s.memWf := by
  unfold queueRefetch
  repeat' split
  all_goals simp

@[simp] theorem memWf_rewriteGrain (s : State) (m : Model) (l : Layer) (off : Nat) (h : s.memWf) :
    (rewriteGrain s m l off).memWf := by simp [h, rewriteGrain]

@[simp] theorem memWf_refetchTile (s : State) (a : Nat) (h : s.memWf) : (refetchTile s a).memWf := by
  unfold refetchTile
  split <;> simp +contextual [h]

end Machine
end Sys2Proof
end

section
/-! What the operations of Peers, Ports, Movement, Collectives, UpdMath, Update, Recover make of the canonical form of memory. -/
namespace Sys2Proof
namespace Machine

/-! ### Machine/Peers.lean -/

@[simp] theorem memWf_settleDrain (s : State) : (settleDrain s).memWf ↔ s.memWf := by simp [settleDrain]

@[simp] theorem memWf_portMoves (s : State) (k st : Nat) : (portMoves s k st).memWf ↔ s.memWf := by simp [portMoves]

@[simp] theorem memWf_portDown (s : State) (k : Nat) (h : s.memWf) : (portDown s k).memWf := by simp [h, portDown]

@[simp] theorem memWf_portRetrain (s : State) (k : Nat) : (portRetrain s k).memWf ↔ s.memWf := by
  unfold portRetrain
  split <;> simp

@[simp] theorem memWf_recordSpares (s : State) (k : Nat) (spare : BitVec 18) : (recordSpares s k spare).memWf ↔ s.memWf := by
  unfold recordSpares
  split <;> simp

@[simp] theorem memWf_setLanes (s : State) (k : Nat) (pass best8 : BitVec 18) :
    (setLanes s k pass best8).memWf ↔ s.memWf := by
  unfold setLanes
  dsimp only
  split <;> simp

@[simp] theorem memWf_portUp (s : State) (k : Nat) : (portUp s k).memWf ↔ s.memWf := by
  unfold portUp
  dsimp only
  split <;> simp

@[simp] theorem memWf_acceptHello (s : State) (j inc je : Nat) (h : s.memWf) : (acceptHello s j inc je).memWf := by
  unfold acceptHello
  dsimp only
  repeat' split
  all_goals simp (disch := simp [h]) [h]

/-! ### Machine/Ports.lean -/

@[simp] theorem memWf_sendHello (s : State) (port : Nat) : (sendHello s port).memWf ↔ s.memWf := by
  unfold sendHello
  dsimp only
  split <;> simp

@[simp] theorem memWf_greet (s : State) (port : Nat) : (greet s port).memWf ↔ s.memWf := by simp [greet]

@[simp] theorem memWf_replayOf (s : State) (port : Nat) : (replayOf s port).memWf ↔ s.memWf := by
  unfold replayOf
  dsimp only
  split <;> simp

@[simp] theorem memWf_resume (s : State) (port : Nat) : (resume s port).memWf ↔ s.memWf := by simp [resume]

@[simp] theorem memWf_sendLinkWord (s : State) (port : Nat) (nak : Bool) (swap : Nat) (cr : List Nat) :
    (sendLinkWord s port nak swap cr).memWf ↔ s.memWf := .rfl

@[simp] theorem memWf_nextSwap (s : State) (port : Nat) : (nextSwap s port).memWf ↔ s.memWf := by
  unfold nextSwap
  dsimp only
  repeat' split
  all_goals simp

@[simp] theorem memWf_laneBad (s : State) (port k : Nat) : (laneBad s port k).memWf ↔ s.memWf := by
  unfold laneBad
  split <;> simp

@[simp] theorem memWf_takeNak (s : State) (port ack : Nat) : (takeNak s port ack).memWf ↔ s.memWf := by
  unfold takeNak
  dsimp only
  repeat' split
  all_goals simp

@[simp] theorem memWf_takeLinkWord (s : State) (port : Nat) (w : LinkWord) (h : s.memWf) : (takeLinkWord s port w).memWf := by
  unfold takeLinkWord
  dsimp only
  repeat' split
  all_goals simp [h]

@[simp] theorem memWf_forward (s : State) (f : Flit) : (forward s f).memWf ↔ s.memWf := by
  unfold forward
  split <;> simp

@[simp] theorem memWf_acceptFlit (s : State) (port : Nat) (f : Flit) :
    (acceptFlit s port f).memWf ↔ s.memWf := by simp [acceptFlit]

theorem memWf_of_takeFlit {s t : State} {port : Nat} {f : Flit} (ran : takeFlit s port f = .taken t ∨ takeFlit s port f = .nak t)
    (h : s.memWf) : t.memWf := by
  unfold takeFlit at ran
  dsimp only at ran
  repeat' split at ran
  all_goals
    simp only [FlitResult.taken.injEq, FlitResult.nak.injEq, reduceCtorEq, or_false, false_or] at ran
    subst ran
    simp [h]

@[simp] theorem memWf_takeFlits (s : State) (port : Nat) (l : List Flit) (h : s.memWf) : (takeFlits s port l).1.memWf := by
  induction l generalizing s with
  | nil => exact h
  | cons f fs ih =>
    unfold takeFlits
    split
    next taken => exact ih _ (memWf_of_takeFlit (.inl taken) h)
    next nak => exact memWf_of_takeFlit (.inr nak) h

@[simp] theorem memWf_exchange (m : HelloMsg) (s : State) (h : s.memWf) : (exchange m s).memWf := by
  unfold exchange
  dsimp only
  repeat' split
  all_goals simp [h]

@[simp] theorem memWf_takeAbsent (peer incarnation joinEpoch : Nat) (s : State) (h : s.memWf) :
    (takeAbsent peer incarnation joinEpoch s).memWf := by
  unfold takeAbsent
  repeat' split
  all_goals simp [h]

@[simp] theorem memWf_takeRoutes (mask : BitVec 8) (s : State) (h : s.memWf) : (takeRoutes mask s).memWf := by simp [h, takeRoutes]

@[simp] theorem memWf_takeRelaydrain (dst : Nat) (s : State) (h : s.memWf) :
    (takeRelaydrain dst s).memWf := by simp [h, takeRelaydrain]

@[simp] theorem memWf_rejoin (s : State) : (rejoin s).memWf ↔ s.memWf := .rfl

/-! ### Machine/Movement.lean -/

@[simp] theorem memWf_schedFault (s : State) (d : Sched) (code addr : Nat) (h : s.memWf) :
    (schedFault s d code addr).memWf := by simp [h, schedFault]

@[simp] theorem memWf_startCoreEntry (s : State) (id c : Nat) (d : Sched) (key off src grains : Nat) (h : s.memWf) :
    (startCoreEntry s id c d key off src grains).memWf := by
  have begun : (modCore s c fun x => match tfind x.rings d.ring with
      | none => x
      | some r => { x with rings := tput x.rings d.ring (ringStart r) }).memWf :=
    (memWf_modCore_iff s c fun x => by split <;> rfl).mpr h
  unfold startCoreEntry
  dsimp only
  generalize modCore s c _ = u at begun ⊢
  split
  · simp [begun]
  · refine memWf_pumpSlots _ _ (memWf_foldl memWf_addReq _ ?_)
    split <;> simp [begun]

@[simp] theorem memWf_startHubEntry (s : State) (id : Nat) (d : Sched) (src dst grains : Nat) (h : s.memWf) :
    (startHubEntry s id d src dst grains).memWf := by
  unfold startHubEntry
  split <;> simp +contextual [h]

@[simp] theorem memWf_readEntry (s : State) (d : Sched) : (readEntry s d).2.memWf ↔ s.memWf := by
  unfold readEntry
  dsimp only
  repeat' split
  all_goals simp

@[simp] theorem memWf_installRing (s : State) (c k : Nat) (d : BitVec 256) :
    (installRing s c k d).memWf ↔ s.memWf := by simp [installRing]

/-! ### Machine/Collectives.lean -/

@[simp] theorem memWf_collIssue (s : State) (a : Agent) (n g : Nat) (desc src dst : BitVec 256) (d : ColDesc) (t u : Tensor) (h : s.memWf) :
    (collIssue s a n g desc src dst d t u).memWf := by
  unfold collIssue
  split <;> simp [h]

@[simp] theorem memWf_gflagAtOnce (s : State) (g : GflagWait) (h : s.memWf) : (gflagAtOnce s g).memWf := by simp [h, gflagAtOnce]

@[simp] theorem memWf_readMapRec (s : State) (n va : Nat) (d : ColDesc) (t : Tensor) :
    (readMapRec s n va d t).2.memWf ↔ s.memWf := by
  unfold readMapRec
  dsimp only
  repeat' split
  all_goals simp

@[simp] theorem memWf_reshardEnter (s : State) (a : Agent) (n g : Nat) (desc tensor : BitVec 256) (m : MapRec) (check : Nat) :
    (reshardEnter s a n g desc tensor m check).2.memWf ↔ s.memWf := by simp [reshardEnter]

@[simp] theorem memWf_reshardVoid (s : State) (a : Agent) (g : Nat) :
    (reshardVoid s a g).memWf ↔ s.memWf := by simp [reshardVoid]

@[simp] theorem memWf_takeArrive (m : ArriveMsg) (s : State) (h : s.memWf) : (takeArrive m s).memWf := by
  unfold takeArrive
  repeat' split
  all_goals simp [h]

@[simp] theorem memWf_collData (s : State) (id : Nat) (c : Coll) (d : ColData) (h : s.memWf) : (collData s id c d).memWf := by
  unfold collData
  dsimp only
  repeat' split
  all_goals simp [h]

@[simp] theorem memWf_reshardData (s : State) (id : Nat) (r : Reshard) (d : ColData) (h : s.memWf) :
    (reshardData s id r d).memWf := by
  unfold reshardData
  dsimp only
  repeat' split
  all_goals simp [h]

@[simp] theorem memWf_takeAbort (group attempt step : Nat) (s : State) (h : s.memWf) :
    (takeAbort group attempt step s).memWf := by
  unfold takeAbort
  dsimp only
  repeat' split
  all_goals simp [h]

@[simp] theorem memWf_takeGflagMessage (src group attempt step : Nat) (flag aborted : Bool) (s : State) (h : s.memWf) :
    (takeGflagMessage src group attempt step flag aborted s).memWf := by
  unfold takeGflagMessage
  dsimp only
  repeat' split
  all_goals simp [h]

/-! ### Machine/UpdMath.lean -/

@[simp] theorem memWf_fetchGrain (s : State) (n va : Nat) : (fetchGrain s n va).2.2.2.memWf ↔ s.memWf := by simp [fetchGrain]

@[simp] theorem memWf_storeFmt (s : State) (n va fmt : Nat) (data : List Byte) (poison : Bool) (h : s.memWf) :
    (storeFmt s n va fmt data poison).memWf := by simp [h, storeFmt]

@[simp] theorem memWf_fetchRun (s : State) (n va k : Nat) : (fetchRun s n va k).2.2.2.memWf ↔ s.memWf := by
  induction k with
  | zero => rfl
  | succ k ih => exact (memWf_fetchGrain _ _ _).trans ih

@[simp] theorem memWf_fetchRow (s : State) (n va fmt cols : Nat) : (fetchRow s n va fmt cols).2.2.memWf ↔ s.memWf :=
  memWf_fetchRun s n va _

@[simp] theorem memWf_fetchRows (s : State) (n va fmt cols k : Nat) : (fetchRows s n va fmt cols k).2.2.memWf ↔ s.memWf := by
  induction k with
  | zero => rfl
  | succ k ih => exact (memWf_fetchRow _ _ _ _ _).trans ih

@[simp] theorem memWf_storeRow (s : State) (n va fmt : Nat) (row : List UElem) (h : s.memWf) :
    (storeRow s n va fmt row).memWf := by simp +contextual [h, storeRow]

@[simp] theorem memWf_storeRows (s : State) (n va fmt : Nat) (rows : List (List UElem)) (h : s.memWf) :
    (storeRows s n va fmt rows).memWf := by simp +contextual [h, storeRows]

@[simp] theorem memWf_writeCopy (s : State) (n va fmt : Nat) (master : List (List UElem)) (h : s.memWf) :
    (writeCopy s n va fmt master).memWf := by
  unfold writeCopy
  split <;> simp [h]

/-! ### Machine/Update.lean -/

@[simp] theorem memWf_updBad (s : State) : (updBad s).2.memWf ↔ s.memWf := .rfl

@[simp] theorem memWf_updOpenRun (s : State) (o : UpdOp) (d : UpdDesc) (t : Tensor) (h : s.memWf) :
    (updOpenRun s o d t).2.memWf := by
  unfold updOpenRun
  repeat' split
  all_goals simp +contextual [h]

@[simp] theorem memWf_normSum (emu : Bool) (lossExp : Int) (s : State) (n base k : Nat) :
    (normSum emu lossExp s n base k).2.memWf ↔ s.memWf := by
  induction k with
  | zero => rfl
  | succ k ih => exact (memWf_fetchGrain _ _ _).trans ih

@[simp] theorem memWf_updNormRun (s : State) (o : UpdOp) (d : UpdDesc) (t : Tensor) (h : s.memWf) :
    (updNormRun s o d t).2.memWf := by
  unfold updNormRun
  dsimp only
  repeat' split
  all_goals simp [h]

@[simp] theorem memWf_readParams (s : State) (n : Nat) (d : UpdDesc) (t : Tensor) :
    (readParams s n d t).2.memWf ↔ s.memWf := by
  unfold readParams
  dsimp only
  repeat' split
  all_goals simp

@[simp] theorem memWf_readUpdState (s : State) (n : Nat) (p : UpdParams) : (readUpdState s n p).2.memWf ↔ s.memWf := by
  unfold readUpdState
  dsimp only
  repeat' split
  all_goals simp

@[simp] theorem memWf_writeUpdState (s : State) (n : Nat) (p : UpdParams) (u : UpdState) (h : s.memWf) :
    (writeUpdState s n p u).memWf := by simp [h, writeUpdState]

@[simp] theorem memWf_applyStep (s : State) (n : Nat) (p : UpdParams) (t : Tensor) (step : Nat) (gh : List (List UVal)) (h : s.memWf) :
    (applyStep s n p t step gh).2.memWf := by
  unfold applyStep
  dsimp only
  repeat' split
  all_goals
    repeat' first
      | exact h
      | apply memWf_writeCopy
      | apply memWf_storeRows
      | apply memWf_storeRow
      | refine (memWf_fetchRow _ _ _ _ _).mpr ?_
      | refine (memWf_fetchRows _ _ _ _ _ _).mpr ?_

@[simp] theorem memWf_applySlots (s : State) (n : Nat) (p : UpdParams) (t : Tensor) (due : List (Nat × Nat)) (u : UpdState)
    (r : Applied) (h : s.memWf) : (applySlots s n p t due u r).2.2.memWf := by
  induction due generalizing s u r with
  | nil => exact h
  | cons e due ih => exact ih _ _ _ (memWf_applyStep _ _ _ _ _ _ (by simp [h]))

@[simp] theorem memWf_updateLoss (s : State) (n ls step : Nat) (skipped : Bool) (h : s.memWf) :
    (updateLoss s n ls step skipped).2.memWf := by
  unfold updateLoss
  dsimp only
  repeat' split
  all_goals simp [h]

@[simp] theorem memWf_engineMerge (s : State) (ref : CgRef) (n va off : Nat) (bs : List Byte) (h : s.memWf) :
    (engineMerge s ref n va off bs).memWf := by
  unfold engineMerge
  dsimp only
  repeat' split
  all_goals simp [h]

@[simp] theorem memWf_copySnapshot (s : State) (id : Nat) (h : s.memWf) : (copySnapshot s id).memWf := by
  unfold copySnapshot
  split <;> simp +contextual (disch := simp +contextual [h]) [h]

@[simp] theorem memWf_copyBefore (s : State) (n : Nat) (p : UpdParams) (t : Tensor) (h : s.memWf) :
    (copyBefore s n p t).memWf := by simp +contextual [h, copyBefore]

@[simp] theorem memWf_mirrorValid (s : State) (n va bank : Nat) (v : Bool) (h : s.memWf) :
    (mirrorValid s n va bank v).memWf := by simp [h, mirrorValid]

@[simp] theorem memWf_startSnapshot (s : State) (n : Nat) (p : UpdParams) (t : Tensor) (step : Nat) (h : s.memWf) :
    (startSnapshot s n p t step).memWf := by simp [h, startSnapshot]

@[simp] theorem memWf_noteMirrored (s : State) (o : UpdOp) (d : UpdDesc) (p : UpdParams) :
    (noteMirrored s o d p).memWf ↔ s.memWf := by
  unfold noteMirrored
  split <;> simp

@[simp] theorem memWf_finishStep (s : State) (n : Nat) (p : UpdParams) (d : UpdDesc) (t : Tensor) (u : UpdState) (step : Nat)
    (r : Applied) (h : s.memWf) : (finishStep s n p d t u step r).2.memWf := by
  have loss (v : State) (w : v.memWf) : (match updateLoss v n d.ls step (d.outcome == 1) with
      | (.error e, s) => ((.error e, s) : UpdEnd)
      | (.ok rc, s) => (.ok (max rc (updRc r.lost r.bad)), s)).2.memWf := by
    have left := memWf_updateLoss v n d.ls step (d.outcome == 1) w
    split
    all_goals next ran => rwa [ran] at left
  refine loss _ ?_
  split <;> split <;> simp [h]

@[simp] theorem memWf_runStep (s : State) (n : Nat) (p : UpdParams) (d : UpdDesc) (t : Tensor) (u : UpdState) (step : Nat) (h : s.memWf) :
    (runStep s n p d t u step).2.memWf := by
  unfold runStep
  dsimp only
  repeat' split
  all_goals simp +contextual (disch := simp +contextual (disch := simp +contextual [h]) [h])

@[simp] theorem memWf_updStepRun (s : State) (o : UpdOp) (d : UpdDesc) (t : Tensor) (h : s.memWf) :
    (updStepRun s o d t).2.memWf := by
  have read := (memWf_readParams s o.ctx d t).mpr h
  unfold updStepRun
  dsimp only
  split
  next ran => rwa [ran] at read
  next p v ran =>
    rw [ran] at read
    have state := (memWf_readUpdState v o.ctx p).mpr read
    split
    next ran => rwa [ran] at state
    next ran =>
      rw [ran] at state
      have state : State.memWf _ := state
      repeat' split
      all_goals simp [state]

@[simp] theorem memWf_updRegenRun (s : State) (o : UpdOp) (d : UpdDesc) (t : Tensor) (h : s.memWf) :
    (updRegenRun s o d t).2.memWf := by
  have read := (memWf_readParams s o.ctx d t).mpr h
  unfold updRegenRun
  dsimp only
  split
  next ran => rwa [ran] at read
  next p v ran =>
    rw [ran] at read
    split
    · exact read
    · simp only at read
      simp [read]

@[simp] theorem memWf_updFlushRun (s : State) (o : UpdOp) (d : UpdDesc) (t : Tensor) (h : s.memWf) :
    (updFlushRun s o d t).2.memWf := by
  have read := (memWf_readParams s o.ctx d t).mpr h
  unfold updFlushRun
  dsimp only
  split
  next ran => rwa [ran] at read
  next p v ran =>
    rw [ran] at read
    have state := (memWf_readUpdState v o.ctx p).mpr read
    split
    next ran => rwa [ran] at state
    next ran =>
      rw [ran] at state
      have copied := memWf_copyBefore _ o.ctx p t state
      simp [copied]

@[simp] theorem memWf_gatherRun (s : State) (n src : Nat) (t : Tensor) (off : Nat) (headBad : Bool) (k : Nat) (h : s.memWf) :
    (gatherRun s n src t off headBad k).2.2.memWf := by
  induction k with
  | zero => exact h
  | succ k ih => exact memWf_engineWrite _ _ _ _ _ ((memWf_engineRead _ _ _).mpr ih)

@[simp] theorem memWf_gatherGo (ref : CgRef) (n out : Nat) (t : Tensor) (bs : List Byte) (k i next : Nat) (r : Bool × Bool)
    (s : State) (h : s.memWf) :
    (gatherGo ref n out t bs k i next r s).2.memWf := by
  induction k generalizing i next r s with
  | zero => exact h
  | succ k ih =>
    unfold gatherGo
    dsimp only
    repeat' split
    all_goals simp (disch := simp [h]) [h, ih]

@[simp] theorem memWf_updGatherRun (s : State) (o : UpdOp) (d : UpdDesc) (t : Tensor) (h : s.memWf) :
    (updGatherRun s o d t).2.memWf := by
  unfold updGatherRun
  dsimp only
  repeat' split
  all_goals simp [h]

@[simp] theorem memWf_runUpd (s : State) (o : UpdOp) (d : UpdDesc) (t : Tensor) (h : s.memWf) : (runUpd s o d t).2.memWf := by
  unfold runUpd
  split <;> simp [h]

@[simp] theorem memWf_endUpd (s : State) (o : UpdOp) (d : UpdDesc) (t : Tensor) (h : s.memWf) : (endUpd s o d t).memWf := by
  have ran := memWf_runUpd (queueFreed s) o d t (by simpa using h)
  unfold endUpd
  split
  all_goals
    next ended =>
      rw [ended] at ran
      have ran : State.memWf _ := ran
      simp [ran]

@[simp] theorem memWf_startUpd (s : State) (id : Nat) (h : s.memWf) : (startUpd s id).memWf := by
  unfold startUpd
  repeat' split
  all_goals simp [h]

/-! ### Machine/Recover.lean -/

@[simp] theorem memWf_settleAlert (s : State) : (settleAlert s).memWf ↔ s.memWf := .rfl

@[simp] theorem memWf_setDegraded (s : State) : (setDegraded s).memWf ↔ s.memWf := .rfl

@[simp] theorem memWf_stopAll (s : State) : (stopAll s).memWf := by
  refine ⟨rfl, fun e at_ => ?_⟩
  obtain ⟨_, -, rfl⟩ := List.mem_map.mp at_
  rfl

@[simp] theorem memWf_enterFatal (s : State) (h : s.memWf) : (enterFatal s).memWf := by
  unfold enterFatal
  dsimp only
  repeat' split
  all_goals simp [h]

@[simp] theorem memWf_freezeCores (s : State) (die : Nat) : (freezeCores s die).memWf ↔ s.memWf := by simp [freezeCores]

@[simp] theorem memWf_freezeStacks (s : State) : (freezeStacks s).memWf ↔ s.memWf := by simp [freezeStacks]

@[simp] theorem memWf_flushCores (s : State) (p : Nat → Bool) (h : s.memWf) : (flushCores s p).memWf := by simp [h, flushCores]

@[simp] theorem memWf_loseCores (s : State) (p : Nat → Bool) (event first : Nat) (h : s.memWf) :
    (loseCores s p event first).memWf := by simp +contextual [h, loseCores]

@[simp] theorem memWf_fenceCore (s : State) (c : Nat) (h : s.memWf) : (fenceCore s c).memWf := by simp [h, fenceCore]

@[simp] theorem memWf_loseCore (s : State) (c : Nat) (h : s.memWf) : (loseCore s c).memWf := by
  have lost : (loseCores (closeCoreEnds (flushCores (logEvent (countFault s 1) 0x08 { cls := 2, kind := 1, unit := physCore s c }
    (coreHolder s c).1 (coreHolder s c).2 0) fun k => k == c) c) (fun k => k == c) 0x08 c).memWf :=
    memWf_loseCores _ _ _ _ (by simp [h])
  unfold loseCore
  dsimp only
  refine memWf_coresFreed _ ?_
  split <;> simp [lost]

@[simp] theorem memWf_dropDieEdge (s : State) (die : Nat) : (dropDieEdge s die).memWf ↔ s.memWf := .rfl

@[simp] theorem memWf_loseDie (s : State) (die k : Nat) (h : s.memWf) : (loseDie s die k).memWf := by
  unfold loseDie
  refine memWf_coresFreed _ ((memWf_recomputeEnt _).mpr ?_)
  have bared : ∀ (l : List Nat) {s : State}, s.memWf → (l.foldl (fun s c => modCore s c fun x => bareCore x) s).memWf :=
    fun l _ h => memWf_foldl (fun s c h => memWf_modCore_of s c h fun _ _ => rfl) l h
  have closed := fun (l : List Nat) {s : State} (h : s.memWf) => memWf_foldl (fun s c => memWf_closeCoreEnds s c) l h
  have ended : ∀ t : State, t.memWf → (match coldDie t with
      | some sp => modDie (modRec t fun r => { r with spareDie := 1 }) sp fun d => { d with state := 1 }
      | none => setDegraded t).memWf := fun t w => by split <;> simpa using w
  refine ended _ ((memWf_modRec _ _).mpr ((memWf_modDie _ _ _).mpr (bared _ (memWf_loseCores _ _ _ _ ?_))))
  refine (memWf_dropDieEdge _ _).mpr (closed _ ?_)
  simp [h]

@[simp] theorem memWf_evictOnStack (s : State) (k : Nat) (h : s.memWf) : (evictOnStack s k).memWf := by
  refine memWf_foldl (fun s e h => ?_) _ h
  split <;> simp [h]

@[simp] theorem memWf_failPending (s : State) (p : Nat → Bool) (h : s.memWf) : (failPending s p).memWf := by
  refine memWf_foldl (fun s e h => ?_) _ h
  split <;> simp [h]

@[simp] theorem memWf_askStack (s : State) (k : Nat) : (askStack s k).memWf ↔ s.memWf := by
  unfold askStack
  split <;> simp

@[simp] theorem memWf_loseStack (s : State) (k : Nat) (h : s.memWf) : (loseStack s k).memWf := by
  simp +contextual (disch := simp +contextual (disch := simp +contextual [h]) [h]) [loseStack]

@[simp] theorem memWf_rereadLayer (s : State) (k : Nat) (m : Model) (l : Layer) (h : s.memWf) :
    (rereadLayer s k m l).memWf := by simp +contextual [h, rereadLayer]

@[simp] theorem memWf_rebuildModels (s : State) (k : Nat) (h : s.memWf) : (rebuildModels s k).memWf := by
  refine memWf_foldl (fun s e h => ?_) _ (memWf_foldl (fun s e h => ?_) _ h)
  · split
    · refine memWf_foldl (fun s pr h => ?_) _ h
      split
      · exact memWf_foldl (fun s g h => memWf_storeGrain _ _ _ _ h) _ h
      · exact h
    · exact h
  · split
    · exact memWf_foldl (fun s l h => memWf_rereadLayer s k e.2 l h) _ h
    · exact h

@[simp] theorem memWf_rebuildFrom (s : State) (n : Nat) (p : UpdParams) (t : Tensor) (bank step : Nat) (h : s.memWf) :
    (rebuildFrom s n p t bank step).memWf := by
  unfold rebuildFrom
  refine memWf_writeUpdState _ _ _ _ ?_
  have copied : ((bankRuns p t bank).foldl (fun s r => (List.range r.2.2).foldl (fun s i =>
      let (d, tag, s) := engineRead s n (r.2.1 + 256 * i)
      engineWrite s n (r.1 + 256 * i) d tag) s) s).memWf :=
    memWf_foldl (fun s r h => memWf_foldl (fun s i h => memWf_engineWrite _ _ _ _ _ ((memWf_engineRead _ _ _).mpr h)) _ h) _ h
  dsimp only
  split
  · exact copied
  · exact memWf_writeCopy _ _ _ _ _ ((memWf_fetchRows _ _ _ _ _ _).mpr copied)

@[simp] theorem memWf_rebuildOne (s : State) (k : Nat) (m : MirrorNote) (h : s.memWf) : (rebuildOne s k m).2.memWf := by
  unfold rebuildOne
  dsimp only
  split
  · exact h
  next t _ =>
    have read := (memWf_readParams s m.ctx
      { op := 0, params := m.params, contrib := 0, ntags := 0, lossExp := 0, ls := 0, outcome := 0, init := false, out := 0 } t).mpr h
    split
    next ran => rwa [ran] at read
    next ran =>
      rw [ran] at read
      simp only at read
      repeat' split
      all_goals simp [read]

@[simp] theorem memWf_rebuildTensors (s : State) (k : Nat) (h : s.memWf) : (rebuildTensors s k).memWf := by
  refine memWf_foldl (fun s m h => ?_) _ h
  dsimp only
  split <;> simp [h]

@[simp] theorem memWf_placeStack (s : State) (k sp : Nat) (h : s.memWf) : (placeStack s k sp).memWf := by
  simp (disch := simp [h]) [placeStack]

@[simp] theorem memWf_reissueMove (s : State) (id : Nat) (h : s.memWf) : (reissueMove s id).memWf := by
  unfold reissueMove
  dsimp only
  repeat' split
  all_goals simp [h]

@[simp] theorem memWf_reissueMoves (s : State) (hub : Nat) (h : s.memWf) : (reissueMoves s hub).memWf :=
  memWf_foldl (fun _ _ h => memWf_reissueMove _ _ h) _ h

@[simp] theorem memWf_loseHubUnit (s : State) (u : HubUnit) (h : s.memWf) : (loseHubUnit s u).memWf := by
  unfold loseHubUnit
  repeat' split
  all_goals simp [h]

@[simp] theorem memWf_restartCore (s : State) (cc : Nat) (h : s.memWf) : (restartCore s cc).memWf := by
  unfold restartCore
  dsimp only
  repeat' split
  all_goals simp [h]

@[simp] theorem memWf_sramEffect (s : State) (a : SramPlace) (h : s.memWf) : (sramEffect s a).memWf := by
  unfold sramEffect
  repeat' split
  all_goals simp [h]

end Machine
end Sys2Proof
end

section
/-! What the operations of Firmware, Queues, Clock, Hold, Functions, HostLink, Sync, Bringup, Change, Control, Matrix, Ordered,
PowerStates, Registers, Serving, Sessions, Spdm, Vector make of the canonical form of memory. -/
namespace Sys2Proof
namespace Machine

/-! ### Machine/Firmware.lean -/

@[simp] theorem memWf_fwEnd (s : State) (state result : Nat) (h : s.memWf) :
    (fwEnd s state result).memWf := by simp [h, fwEnd]

@[simp] theorem memWf_fwIgnore (s : State) (h : s.memWf) : (fwIgnore s).memWf := by simp [h, fwIgnore]

@[simp] theorem memWf_markActive (s : State) (h : s.memWf) : (markActive s).memWf := by simp [h, markActive]

@[simp] theorem memWf_startActivate (s : State) (h : s.memWf) : (startActivate s).memWf := by
  unfold startActivate
  dsimp only
  repeat' split
  all_goals simp [h]

@[simp] theorem memWf_finishSwitch (s : State) (h : s.memWf) : (finishSwitch s).memWf := by simp [h, finishSwitch]

@[simp] theorem memWf_pauseCore (s : State) (h : s.memWf) : (pauseCore s).memWf := by simp [h, pauseCore]

@[simp] theorem memWf_resumeCore (s : State) (h : s.memWf) : (resumeCore s).memWf := by
  unfold resumeCore
  dsimp only
  split <;> simp [h]

@[simp] theorem memWf_switchCore (s : State) (h : s.memWf) : (switchCore s).memWf := by
  unfold switchCore
  dsimp only
  split <;> simp [h]

/-! ### Machine/Queues.lean -/

@[simp] theorem memWf_qcfgWrite (s : State) (c ep : Nat) (v : Word) (h : s.memWf) :
    (qcfgWrite s c ep v).memWf := by simp [h, qcfgWrite]

@[simp] theorem memWf_sendWord (s : State) (c ep : Nat) (q : QWord) : (sendWord s c ep q).memWf ↔ s.memWf := by
  unfold sendWord
  dsimp only
  repeat' split
  all_goals simp

@[simp] theorem memWf_sendWords (s : State) (c ep off n i k : Nat) : (sendWords s c ep off n i k).memWf ↔ s.memWf := by
  induction k generalizing s i with
  | zero => rfl
  | succ k ih => exact (ih _ _).trans (memWf_sendWord _ _ _ _)

@[simp] theorem memWf_dstSent (s : State) (n ep words : Nat) : (dstSent s n ep words).memWf ↔ s.memWf := .rfl

@[simp] theorem memWf_dropHeld (s : State) (a : Agent) (ep num : Nat) :
    (dropHeld s a ep num).memWf ↔ s.memWf := by simp [dropHeld]

@[simp] theorem memWf_discardEarly (f : QueueFlit) (s : State) : (discardEarly f s).memWf ↔ s.memWf := by
  unfold discardEarly
  split <;> simp

@[simp] theorem memWf_takeQueueFlit (f : QueueFlit) (s : State) : (takeQueueFlit f s).memWf ↔ s.memWf := by
  unfold takeQueueFlit
  split <;> simp

@[simp] theorem memWf_takeQcredit (src sendCore sendEp recvCore recvEp words : Nat) (s : State) :
    (takeQcredit src sendCore sendEp recvCore recvEp words s).memWf ↔ s.memWf := by
  unfold takeQcredit
  dsimp only
  repeat' split
  all_goals simp

@[simp] theorem memWf_takeQconfig (src core ep : Nat) (word : Word) (part : Nat) (answer : Bool) (s : State) :
    (takeQconfig src core ep word part answer s).memWf ↔ s.memWf := by
  unfold takeQconfig
  dsimp only
  repeat' split
  all_goals simp

@[simp] theorem memWf_takeQclose (src core ep peerCore peerEp words : Nat) (s : State) (h : s.memWf) :
    (takeQclose src core ep peerCore peerEp words s).memWf := by
  unfold takeQclose
  dsimp only
  repeat' split
  all_goals simp [h]

/-! ### Machine/Clock.lean -/

@[simp] theorem memWf_settleGov (s : State) : (settleGov s).memWf ↔ s.memWf := .rfl

@[simp] theorem memWf_heatStep (s : State) : (heatStep s).memWf ↔ s.memWf := by simp [heatStep]

@[simp] theorem memWf_payCtx (s : State) (n : Nat) : (payCtx s n).memWf ↔ s.memWf := by simp [payCtx]

@[simp] theorem memWf_payOut (k : Nat) (s : State) : (payOut k s).memWf ↔ s.memWf := by
  induction k generalizing s with
  | zero => rfl
  | succ k ih =>
    refine (ih _).trans ?_
    repeat' split
    all_goals simp

@[simp] theorem memWf_chargeCycles (s : State) (d : DomainReading) :
    (chargeCycles s d).memWf ↔ s.memWf := by simp [chargeCycles]

@[simp] theorem memWf_noteCorrected (s : State) (ds : List DomainReading) : (noteCorrected s ds).memWf ↔ s.memWf := .rfl

@[simp] theorem memWf_deliverEdge (s : State) (a : EdgeItem) (h : s.memWf) : (deliverEdge s a).memWf := by
  unfold deliverEdge
  repeat' split
  all_goals simp [h]

/-! ### Machine/Hold.lean -/

@[simp] theorem memWf_requestHold (s : State) (h : s.memWf) : (requestHold s).memWf := by
  unfold requestHold
  repeat' split
  all_goals simp [h]

/-! ### Machine/Functions.lean -/

@[simp] theorem memWf_resetParts (s : State) (ps : List Nat) (h : s.memWf) : (resetParts s ps).memWf := by
  simp +contextual [h, resetParts]

@[simp] theorem memWf_clearFunctions (s : State) (fs : List Nat) : (clearFunctions s fs).memWf ↔ s.memWf := .rfl

@[simp] theorem memWf_disableVfs (s : State) (h : s.memWf) : (disableVfs s).memWf := by simp [h, disableVfs]

@[simp] theorem memWf_configWrite (n off v : Nat) (s : State) (h : s.memWf) : (configWrite n off v s).memWf := by
  unfold configWrite
  repeat' split
  all_goals simp [h]

/-! ### Machine/HostLink.lean -/

@[simp] theorem memWf_hdmAccess (pa : Nat) (data : Option (List Byte)) (s : State) (h : s.memWf) :
    (hdmAccess pa data s).memWf := by
  unfold hdmAccess
  repeat' split
  all_goals simp [h]

@[simp] theorem memWf_failHostReqs (s : State) (h : s.memWf) : (failHostReqs s).memWf := by
  simp +contextual (disch := simp +contextual [h]) [failHostReqs]

@[simp] theorem memWf_freeBiWaits (s : State) (h : s.memWf) : (freeBiWaits s).memWf := by simp [h, freeBiWaits]

@[simp] theorem memWf_loseConfig (s : State) : (loseConfig s).memWf ↔ s.memWf := .rfl

@[simp] theorem memWf_linkDown (s : State) (h : s.memWf) : (linkDown s).memWf := by simp (disch := simp [h]) [linkDown]

/-! ### Machine/Sync.lean -/

@[simp] theorem memWf_sendTokens (s : State) (c b n : Nat) : (sendTokens s c b n).2.memWf ↔ s.memWf := by
  unfold sendTokens
  dsimp only
  repeat' split
  all_goals simp

@[simp] theorem memWf_claimCg (s : State) (a : Agent) (g : Nat) : (claimCg s a g).memWf ↔ s.memWf := by
  unfold claimCg
  split <;> simp

@[simp] theorem memWf_entered (s : State) (n ix e layer : Nat) (ok : Bool) (h : s.memWf) :
    (entered s n ix e layer ok).memWf := by
  unfold entered
  split <;> simp [h]

@[simp] theorem memWf_leftLayer (s : State) (n ix e layer : Nat) : (leftLayer s n ix e layer).memWf ↔ s.memWf := by
  unfold leftLayer
  dsimp only
  repeat' split
  all_goals simp

/-! ### Machine/Bringup.lean -/

@[simp] theorem memWf_newLifeOf (s : State) (slot : Nat) (other : Option Nat) :
    (newLifeOf s slot other).memWf ↔ s.memWf := .rfl

@[simp] theorem memWf_stopConversion (s : State) : (stopConversion s).memWf ↔ s.memWf := .rfl

@[simp] theorem memWf_enterRecovery (s : State) (code : Nat) (h : s.memWf) :
    (enterRecovery s code).memWf := by simp [h, enterRecovery]

@[simp] theorem memWf_loadLaneMaps (s : State) : (loadLaneMaps s).memWf ↔ s.memWf := by simp [loadLaneMaps]

@[simp] theorem memWf_assignUnits (s : State) : (assignUnits s).memWf ↔ s.memWf := by
  have kept (lost : Nat → Bool) : spsWf (tmap (fun c x => { x with lost := lost c }) s.cores) ↔ spsWf s.cores :=
    spsWf_tmap fun _ _ => rfl
  exact (memWf_foldl_iff _ _ fun s c => by simp).trans (and_congr_right fun _ => kept _)

@[simp] theorem memWf_bringDie (s : State) (freq : Nat) (e : Nat × Nat) : (bringDie s freq e).memWf ↔ s.memWf := .rfl

@[simp] theorem memWf_noteRecord (s : State) : (noteRecord s).memWf ↔ s.memWf := by
  unfold noteRecord
  dsimp only
  split <;> simp

@[simp] theorem memWf_failUnits (s : State) (l : List Unit1) : (failUnits s l).memWf ↔ s.memWf := by
  unfold failUnits
  refine (memWf_modClk _ _).trans ((memWf_modRec _ _).trans ?_)
  repeat' split
  all_goals simp

@[simp] theorem memWf_enablePorts (s : State) : (enablePorts s).memWf ↔ s.memWf := by
  refine memWf_foldl_iff _ _ fun s k => ?_
  split <;> simp

/-! ### Machine/Change.lean -/

@[simp] theorem memWf_setCr (s : State) (i : Nat) (x : CrSlot) (h : s.memWf) :
    (setCr s i x).memWf := by simp [h, setCr]

@[simp] theorem memWf_endSlot (s : State) (i state result : Nat) (h : s.memWf) :
    (endSlot s i state result).memWf := by simp [h, endSlot]

@[simp] theorem memWf_expireSlot (s : State) (i : Nat) (h : s.memWf) : (expireSlot s i).memWf := by simp [h, expireSlot]

@[simp] theorem memWf_badSig (s : State) (h : s.memWf) : (badSig s).memWf := by simp [h, badSig]

@[simp] theorem memWf_addSign (s : State) (i : Nat) (x : CrSlot) (role : Nat) (sig : List Byte) (h : s.memWf) :
    (addSign s i x role sig).memWf := by
  unfold addSign
  dsimp only
  repeat' split
  all_goals simp [h]

@[simp] theorem memWf_applySlot (s : State) (i : Nat) (x : CrSlot) : (applySlot s i x).memWf ↔ s.memWf := by
  simp [applySlot, endSlot, setCr, saveProt]

@[simp] theorem memWf_goOnActivate (s : State) (h : s.memWf) : (goOnActivate s).memWf := by
  unfold goOnActivate
  split <;> simp [h]

@[simp] theorem memWf_stepApply (s : State) (i : Nat) (x : CrSlot) (h : s.memWf) :
    (stepApply s i x).memWf := by
  unfold stepApply
  dsimp only
  repeat' split
  all_goals simp [h]

@[simp] theorem memWf_applyTurn (s : State) (i : Nat) (h : s.memWf) :
    (applyTurn s i).memWf := by simp [h, applyTurn]

/-! ### Machine/Control.lean -/

@[simp] theorem memWf_extWord (s : State) (a : Agent) (n : Nat) (w : Word) : (extWord s a n w).2.memWf ↔ s.memWf := by
  unfold extWord
  dsimp only
  repeat' split
  all_goals simp

/-! ### Machine/Matrix.lean -/

@[simp] theorem memWf_shadowBlock (n c : Nat) (old : Core) (g : AccGroup) (ta tb : Tile) (s : State) (b : Block) :
    (shadowBlock n c old g ta tb s b).memWf ↔ s.memWf := by
  unfold shadowBlock
  dsimp only
  repeat' split
  all_goals simp

@[simp] theorem memWf_shadowMma (n c cls : Nat) (noShadow : Bool) (old : Core) (g : AccGroup) (ta tb : Tile) (s : State) :
    (shadowMma n c cls noShadow old g ta tb s).memWf ↔ s.memWf := by
  unfold shadowMma
  dsimp only
  split <;> simp

@[simp] theorem memWf_mmaRun (s : State) (n c cls k : Nat) (noShadow : Bool) (ta tb : Tile) (h : s.memWf) :
    (mmaRun s n c cls k noShadow ta tb).memWf :=
  (memWf_shadowMma _ _ _ _ _ _ _ _ _).mpr (memWf_setCore h (wf_writeGroup _ _ _ _ (getCore_wf h c)))

@[simp] theorem memWf_agoutRun (s : State) (a : Agent) (n c : Nat) (w : Word) (tout : Tile) (te : Option Tile) (h : s.memWf) :
    (agoutRun s a n c w tout te).1.memWf := memWf_setCore h (wf_outputTile _ _ _ _ _ (getCore_wf h c))

/-! ### Machine/Ordered.lean -/

@[simp] theorem memWf_deliver (c : Instr) (s : State) (h : s.memWf) : (deliver c s).memWf := by
  unfold deliver
  split <;> simp [h]

@[simp] theorem memWf_eseqTaken (s : State) (src cls : Nat) : (eseqTaken s src cls).memWf ↔ s.memWf := .rfl

@[simp] theorem memWf_deliverEarly (fuel src cls : Nat) (s : State) (h : s.memWf) :
    (deliverEarly fuel src cls s).memWf := by
  induction fuel generalizing s with
  | zero => exact h
  | succ fuel ih =>
    unfold deliverEarly
    split
    · exact h
    · exact ih _ (by simp [h])

@[simp] theorem memWf_ordered (src cls eseq : Nat) (c : Instr) (s : State) (h : s.memWf) : (ordered src cls eseq c s).memWf := by
  unfold ordered
  dsimp only
  repeat' split
  all_goals simp [h]

/-! ### Machine/PowerStates.lean -/

@[simp] theorem memWf_leaveHold (s : State) (h : s.memWf) : (leaveHold s).memWf := by
  unfold leaveHold
  split <;> simp [h]

@[simp] theorem memWf_reportAll (s : State) : (reportAll s).memWf ↔ s.memWf := .rfl

/-! ### Machine/Registers.lean -/

@[simp] theorem memWf_onHalf {half : Option Nat} {s : State} {f : Nat → State} (kept : ∀ v, (f v).memWf ↔ s.memWf) :
    (onHalf half s f).memWf ↔ s.memWf := by
  cases half with
  | none => rfl
  | some v => exact kept v

@[simp] theorem memWf_securityWrite (w : RegWr) (s : State) (h : s.memWf) :
    (securityWrite w s).memWf := by
  unfold securityWrite
  repeat' split
  all_goals simp [h]

@[simp] theorem memWf_errorWrite (w : RegWr) (s : State) : (errorWrite w s).memWf ↔ s.memWf := by
  unfold errorWrite
  repeat' split
  all_goals simp

@[simp] theorem memWf_countersWrite (w : RegWr) (s : State) : (countersWrite w s).memWf ↔ s.memWf := by
  unfold countersWrite
  split <;> simp

@[simp] theorem memWf_partWrite (pf : Bool) (p : Nat) (w : RegWr) (s : State) : (partWrite pf p w s).memWf ↔ s.memWf := by
  unfold partWrite
  repeat' split
  all_goals simp

@[simp] theorem memWf_ctxWrite (n : Nat) (w : RegWr) (s : State) : (ctxWrite n w s).memWf ↔ s.memWf := by
  unfold ctxWrite
  split
  · simp
  · simp
  · simp
  · simp
  · refine (memWf_onHalf fun v => ?_).trans (memWf_onHalf fun v => ?_)
    · simp
    · split <;> simp
  · rfl

@[simp] theorem memWf_rqRefuse (s : State) (p : Nat) : (rqRefuse s p).memWf ↔ s.memWf := by simp [rqRefuse]

@[simp] theorem memWf_mdlRefuse (s : State) (p : Nat) : (mdlRefuse s p).memWf ↔ s.memWf := by simp [mdlRefuse]

@[simp] theorem memWf_cmdRefuse (s : State) (p : Nat) : (cmdRefuse s p).memWf ↔ s.memWf := by simp [cmdRefuse]

@[simp] theorem memWf_mdlConfig (s : State) (p : Nat) (ok : Bool) (f : Part → Part) : (mdlConfig s p ok f).memWf ↔ s.memWf := by
  unfold mdlConfig
  split <;> simp

@[simp] theorem memWf_mdlWrite (p : Nat) (w : RegWr) (s : State) : (mdlWrite p w s).memWf ↔ s.memWf := by
  unfold mdlWrite
  split <;> simp

@[simp] theorem memWf_cmdBaseWrite (s : State) (p v : Nat) : (cmdBaseWrite s p v).memWf ↔ s.memWf := by
  unfold cmdBaseWrite
  dsimp only
  split <;> simp

@[simp] theorem memWf_cmdOrderWrite (s : State) (p v : Nat) : (cmdOrderWrite s p v).memWf ↔ s.memWf := by
  unfold cmdOrderWrite
  dsimp only
  split <;> simp

@[simp] theorem memWf_cmdTailWrite (s : State) (p v : Nat) : (cmdTailWrite s p v).memWf ↔ s.memWf := by
  unfold cmdTailWrite
  dsimp only
  repeat' split
  all_goals simp

@[simp] theorem memWf_cmdWrite (p : Nat) (w : RegWr) (s : State) : (cmdWrite p w s).memWf ↔ s.memWf := by
  unfold cmdWrite
  split <;> simp

@[simp] theorem memWf_msixTableWrite (p : Nat) (w : RegWr) (s : State) :
    (msixTableWrite p w s).memWf ↔ s.memWf := by simp [msixTableWrite]

@[simp] theorem memWf_takeConfig (n : Nat) (w : RegWr) (s : State) (h : s.memWf) : (takeConfig n w s).memWf := by
  unfold takeConfig
  split <;> simp (disch := simp [h]) [h]

/-! ### Machine/Serving.lean -/

@[simp] theorem memWf_withW1 (s : State) (n req : Nat) (w1 : Option Word) : (withW1 s n req w1).memWf ↔ s.memWf := by
  unfold withW1
  repeat' split
  all_goals simp

/-! ### Machine/Sessions.lean -/

@[simp] theorem memWf_setSession (s : State) (id : Nat) (x : Session) : (setSession s id x).memWf ↔ s.memWf := .rfl

@[simp] theorem memWf_cacheGrain (s : State) (x : Session) (g : Nat) : (cacheGrain s x g).1.memWf ↔ s.memWf := by
  unfold cacheGrain
  split <;> simp

@[simp] theorem memWf_uncacheGrain (s : State) (x : Session) (g : Nat) : (uncacheGrain s x g).1.memWf ↔ s.memWf := by
  unfold uncacheGrain
  split <;> simp

@[simp] theorem memWf_poisonGrain (s : State) (n va : Nat) (h : s.memWf) : (poisonGrain s n va).memWf := by
  unfold poisonGrain
  split <;> simp [h]

@[simp] theorem memWf_addGrain (s : State) (n va : Nat) (cached : Bool) (data : List Byte) (poison : Bool) (h : s.memWf) :
    (addGrain s n va cached data poison).memWf := by
  unfold addGrain
  repeat' split
  all_goals simp [h]

@[simp] theorem memWf_addInTurn (s : State) (id g : Nat) (data : List Byte) (poison : Bool) (fuel : Nat) (h : s.memWf) :
    (addInTurn s id g data poison fuel).memWf := by
  induction fuel generalizing s data poison with
  | zero => exact h
  | succ fuel ih =>
    unfold addInTurn
    dsimp only
    repeat' split
    all_goals simp [h, ih]

@[simp] theorem memWf_countCloses (s : State) (id : Nat) : (countCloses s id).memWf ↔ s.memWf := by
  unfold countCloses
  dsimp only
  repeat' split
  all_goals simp

@[simp] theorem memWf_forgetSession (s : State) (id : Nat) : (forgetSession s id).memWf ↔ s.memWf := by
  unfold forgetSession
  repeat' split
  all_goals simp

@[simp] theorem memWf_endContrib (s : State) (id : Nat) (k : Contrib) (code : Nat) (h : s.memWf) :
    (endContrib s id k code).memWf := by simp [h, endContrib]

@[simp] theorem memWf_acceptContrib (s : State) (k : Contrib) (x : Session) (poison : Bool) (h : s.memWf) :
    (acceptContrib s k x poison).memWf := by
  unfold acceptContrib
  dsimp only
  repeat' split
  all_goals simp [h]

@[simp] theorem memWf_countSession (s : State) (n id : Nat) (x : Session) : (countSession s n id x).memWf ↔ s.memWf := by
  unfold countSession
  split <;> simp

@[simp] theorem memWf_closeGrain (s : State) (x : Session) (g : Nat) (h : s.memWf) : (closeGrain s x g).2.memWf := by
  unfold closeGrain
  dsimp only
  split <;> simp +contextual (disch := simp +contextual [h])

@[simp] theorem memWf_closeGrains (s : State) (x : Session) (l : List Nat) (h : s.memWf) : (closeGrains s x l).2.memWf := by
  induction l generalizing s with
  | nil => exact h
  | cons g gs ih => exact ih _ (memWf_closeGrain _ _ _ h)

/-! ### Machine/Spdm.lean -/

@[simp] theorem memWf_modSpdm (s : State) (f : Spdm → Spdm) (h : s.memWf) : (modSpdm s f).memWf := by simp [h, modSpdm]

@[simp] theorem memWf_refuseSpdm (s : State) (code : Nat) : (refuseSpdm s code).memWf ↔ s.memWf := .rfl

@[simp] theorem memWf_sendSigned (s : State) (bs : List Byte) : (sendSigned s bs).memWf ↔ s.memWf := by
  simp [sendSigned, sendLarge, refuseSpdm, modSpdm]

/-! ### Machine/Vector.lean -/

@[simp] theorem memWf_putTile (s : State) (c : Nat) (q : RndCfg) (o : Tile) (present : Nat → Nat → Option Nat)
    (rows : List (List Computed)) (h : s.memWf) : (putTile s c q o present rows).1.memWf :=
  memWf_setCore h (wf_outputTile _ _ _ _ _ (getCore_wf h c))

@[simp] theorem memWf_redSummary (s : State) (c m : Nat) (poison : Bool) (value : Nat) :
    (redSummary s c m poison value).memWf ↔ s.memWf := by
  unfold redSummary
  split <;> simp

@[simp] theorem memWf_vredRun (s : State) (c : Nat) (emu : Bool) (m : Nat) (ta : Tile) (o : Option Tile) (h : s.memWf) :
    (vredRun s c emu m ta o).1.memWf := by
  unfold vredRun
  cases o with
  | none => dsimp only; split <;> simp [h]
  | some o =>
    have written (rows : List (List OutElem)) : (setCore s c (writeTile (getCore s c) o rows [])).memWf :=
      memWf_setCore h (wf_writeTile _ _ _ _ (getCore_wf h c))
    dsimp only
    split <;> simp [written]

end Machine
end Sys2Proof
end

section
/-! What the growth of a binding, the commit window and the frames of the commands make of the canonical form of memory. -/
namespace Sys2Proof
namespace Machine

/-! ### Page sets and the growth of a binding (R311, R314, R315) -/

theorem memWf_of_placeSet {s t : State} {pool e firstPos kf vf epoch id : Nat} {m : Model} (h : s.memWf)
    (placed : placeSet s pool m e firstPos kf vf epoch = some (id, t)) : t.memWf := by
  unfold placeSet at placed
  dsimp only at placed
  split at placed
  · cases placed
  · cases placed
    simp [h]

theorem memWf_of_placeUpTo {s t : State} {pool firstPos kf vf epoch id e : Nat} {m : Model} (h : s.memWf)
    (placed : placeUpTo s pool m firstPos kf vf epoch e = some (id, t)) : t.memWf := by
  induction e with
  | zero => cases placed
  | succ e ih =>
    unfold placeUpTo at placed
    split at placed
    · cases placed
    · split at placed
      next there => exact memWf_of_placeSet h (there.trans placed)
      · exact ih placed

theorem leavesWf_cowLast (s : State) (id pool fuel : Nat) (h : s.memWf) : (cowLast s id pool fuel).Leaves State.memWf := by
  induction fuel generalizing s with
  | zero => exact h
  | succ fuel ih =>
    unfold cowLast
    split
    · split
      · exact h
      split
      · exact h
      split
      · split
        next placed =>
          have there := memWf_of_placeSet h placed
          refine (memWf_modRo _ _).mpr ((memWf_modReq _ _ _).mpr (memWf_refSet _ _ _ ?_))
          split <;> simp [there]
        · split
          next v _ => exact ih (evictReq s v false) (by simp [h])
          · exact h
      · exact h
    · exact h

theorem leavesWf_growLoop (s : State) (id pool kf vf epoch target fuel : Nat) (h : s.memWf) :
    (growLoop s id pool kf vf epoch target fuel).Leaves State.memWf := by
  induction fuel generalizing s with
  | zero => exact h
  | succ fuel ih =>
    unfold growLoop
    split
    · split
      · exact h
      split
      · trivial
      split
      next placed =>
        have there := memWf_of_placeUpTo h placed
        split
        · exact there
        · exact ih _ (by simp [there])
      · split
        next v _ => exact ih (evictReq s v false) (by simp [h])
        · exact h
    · exact h

/-! ### The commands of the commit window (R305 to R309) -/

theorem leavesWf_commitBind (s : State) (id : Nat) (w0 : Word) (h : s.memWf) : (commitBind s id w0).Leaves State.memWf := by
  unfold commitBind
  cases getReq s id with
  | none => trivial
  | some r =>
    dsimp only
    split
    · exact h
    split
    · exact h
    split
    · exact h
    split
    next pool _ ix m _ _ =>
      split
      · simp [h]
      split
      · trivial
      · have copied := leavesWf_cowLast (setReq s id { r with bound := true, boundEpoch := bindEpochOf s ix m }) id pool 65537
          (by simp [h])
        generalize cowLast _ id pool 65537 = g at copied ⊢
        cases g with
        | room u =>
          have grown := leavesWf_growLoop u id pool (fld w0 55 52) (fld w0 51 48) (bindEpochOf s ix m) (r.kvLen + fld w0 47 32) 66000
            copied
          dsimp only
          generalize growLoop u _ _ _ _ _ _ _ = k at grown ⊢
          cases k with
          | room v => exact memWf_syncReq _ _ grown
          | none v => exact memWf_endBinding _ _ (memWf_evictReq _ _ _ grown)
          | full => exact h
        | none u => exact memWf_endBinding _ _ (memWf_evictReq _ _ _ copied)
        | full => exact h
    · simp [h]

theorem leavesWf_commitEmit (s : State) (id : Nat) (w0 w1 : Word) (h : s.memWf) : (commitEmit s id w0 w1).Leaves State.memWf := by
  unfold commitEmit
  dsimp only
  repeat' split
  all_goals simp [h]

theorem leavesWf_commitDraft (s : State) (id : Nat) (w0 w1 : Word) (h : s.memWf) : (commitDraft s id w0 w1).Leaves State.memWf := by
  unfold commitDraft
  dsimp only
  repeat' split
  all_goals simp [h]

theorem leavesWf_commitAccept (s : State) (id : Nat) (w0 : Word) (h : s.memWf) : (commitAccept s id w0).Leaves State.memWf := by
  unfold commitAccept
  repeat' split
  all_goals simp [h]

theorem leavesWf_commitRollback (s : State) (id : Nat) (w0 : Word) (h : s.memWf) : (commitRollback s id w0).Leaves State.memWf := by
  unfold commitRollback
  repeat' split
  all_goals simp [h]

theorem leavesWf_commitPrefilled (s : State) (id : Nat) (h : s.memWf) : (commitPrefilled s id).Leaves State.memWf := by
  unfold commitPrefilled
  dsimp only
  repeat' split
  all_goals simp [h]

theorem leavesWf_commitUnbind (s : State) (id : Nat) (h : s.memWf) : (commitUnbind s id).Leaves State.memWf := by
  unfold commitUnbind
  repeat' split
  all_goals simp [h]

theorem leavesWf_commitFail (s : State) (id : Nat) (w1 : Word) (h : s.memWf) : (commitFail s id w1).Leaves State.memWf := by
  unfold commitFail
  dsimp only
  repeat' split
  all_goals simp [h]

theorem leavesWf_commitCommand (s : State) (n id : Nat) (w0 w1 : Word) (h : s.memWf) :
    (commitCommand s n id w0 w1).Leaves State.memWf := by
  unfold commitCommand
  split
  · trivial
  split
  · trivial
  split
  · trivial
  · have noted : (journal s (controlCoreOf n) 3 id true).memWf := by simpa using h
    dsimp only
    split
    · exact leavesWf_commitBind _ _ _ noted
    · exact leavesWf_commitEmit _ _ _ _ noted
    · exact leavesWf_commitDraft _ _ _ _ noted
    · exact leavesWf_commitAccept _ _ _ noted
    · exact leavesWf_commitRollback _ _ _ noted
    · exact leavesWf_commitPrefilled _ _ noted
    · exact leavesWf_commitUnbind _ _ noted
    · exact leavesWf_commitFail _ _ _ noted
    · trivial

theorem memWf_of_regainPrefix {s t : State} {r : Request} (h : s.memWf) (regained : regainPrefix s r = some t) : t.memWf := by
  unfold regainPrefix at regained
  revert regained
  generalize (r.pfxSets.filter fun i => !r.sets.contains i) = l
  induction l generalizing s with
  | nil =>
    intro regained
    cases regained
    exact h
  | cons i l ih =>
    intro regained
    rw [List.foldl_cons, Option.bind_some] at regained
    split at regained
    · exact ih (memWf_refSet _ _ _ h) regained
    · have gone : ∀ l : List Nat, l.foldl (fun o i => o.bind fun s : State =>
          if (tfind s.rollout.sets i).isSome then some (refSet s i true) else none) none = none := fun l => by
        induction l with
        | nil => rfl
        | cons i l ih => exact ih
      rw [gone] at regained
      cases regained

theorem leavesWf_commitDispatch (s : State) (n : Nat) (w0 : Word) (h : s.memWf) :
    (commitDispatch s n w0).Leaves State.memWf := by
  unfold commitDispatch commitFetch
  split
  · have noted : (journal s (controlCoreOf n) 3 0x10000 true).memWf := by simpa using h
    split
    · simp [h]
    split
    · simp [h]
    split
    · simp [h]
    next regained =>
      have back := memWf_of_regainPrefix noted regained
      dsimp only
      split <;> simp [back]
  · trivial

/-! ### The frames in which commands run -/

/-- Whatever state a command answers with is in canonical form. -/
def answersWf : Host.Outcome State Fault Refusal → Prop
  | .next t => t.memWf
  | _ => True

@[simp] theorem answersWf_next {t : State} : answersWf (.next t) ↔ t.memWf := .rfl

theorem answersWf_runInstr {row : Row} {a : Agent} {w : Word} {body : Nat → State → IRes} {s : State} (h : s.memWf)
    (left : ∀ n, (body n s).Leaves State.memWf) : answersWf (runInstr row a w body s) := by
  unfold runInstr
  split
  · exact h
  next n _ =>
    split
    · exact memWf_issue h (left n)
    · exact h

@[simp] theorem leavesWf_afterSlot {a : Agent} {f : State → IRes} {s : State} (h : s.memWf) (left : (f s).Leaves State.memWf) :
    (afterSlot a f s).Leaves State.memWf := by
  unfold afterSlot
  split
  · exact h
  · exact left

theorem memWf_of_guardSp {s t : State} {c thr : Nat} {reads writes : List (Nat × Nat)} (h : s.memWf)
    (guard : guardSp s c thr reads writes = .ok t) : t.memWf := by
  obtain ⟨y, kept, rfl⟩ := guardSp_keeps (dst := 0) (out := fun _ => True) guard
  exact memWf_setCore h (kept.bytes (getCore_wf h c)).1

@[simp] theorem leavesWf_guarded {s : State} {c thr : Nat} {reads writes : List (Nat × Nat)} {f : State → IRes} (h : s.memWf)
    (left : ∀ s, s.memWf → (f s).Leaves State.memWf) : (guarded s (guardSp s c thr reads writes) f).Leaves State.memWf := by
  unfold guarded
  split
  next ok => exact left _ (memWf_of_guardSp h ok)
  · exact h
  · trivial

@[simp] theorem leavesWf_doneRc {t : State} {a : Agent} {w : Word} {rc : Nat} :
    (doneRc t a w rc).Leaves State.memWf ↔ t.memWf := by simp [doneRc]

@[simp] theorem leavesWf_doneEpe {t : State} {a : Agent} {epe v : Bool} {sel : Nat} :
    (doneEpe t a epe sel v).Leaves State.memWf ↔ t.memWf := by simp [doneEpe]

@[simp] theorem leavesWf_parkThen {t : State} {a : Agent} {cause : Nat} {w : Park} {f : State → State}
    (kept : ∀ s, (f s).memWf ↔ s.memWf) : (parkThen t a cause w f).Leaves State.memWf ↔ t.memWf := by simp [parkThen, kept]

@[simp] theorem leavesWf_issueReqs (s : State) (a : Agent) (c : Nat) (g : Option Nat) (reqs : List MReq) (h : s.memWf) :
    (issueReqs s a c g reqs).Leaves State.memWf := by
  have pumped (u : State) (w : u.memWf) : (pumpSlots (reqs.foldl addReq u) c).memWf :=
    memWf_pumpSlots _ _ (memWf_foldl memWf_addReq _ w)
  unfold issueReqs
  dsimp only
  repeat' split
  all_goals simp [h, pumped]

@[simp] theorem leavesWf_qsendRun (s : State) (a : Agent) (n c thr ep off words : Nat) (w : Word) (h : s.memWf) :
    (qsendRun s a n c thr ep off words w).Leaves State.memWf := by
  unfold qsendRun
  dsimp only
  repeat' split
  all_goals simp [h]

@[simp] theorem leavesWf_barArrive (s : State) (n b count : Nat) (a : Agent) (h : s.memWf) :
    (barArrive s n b count a).Leaves State.memWf := by
  unfold barArrive
  dsimp only
  repeat' split
  all_goals simp [h]

theorem leavesWf_sendContribs {u : State} (h : u.memWf) (c t n sess g tag : Nat) (x : Session) (tile : Tile)
    (gs : List (Nat × Nat × Nat)) : (sendContribs u c t n sess g tag x tile gs).Leaves State.memWf := by
  unfold sendContribs
  dsimp only
  split <;> simp [h]

@[simp] theorem leavesWf_updopBody (op : Nat) (a : Agent) (w : Word) (n : Nat) (s : State) (h : s.memWf) :
    (updopBody op a w n s).Leaves State.memWf := by
  unfold updopBody
  dsimp only
  repeat' split
  all_goals simp [h]

@[simp] theorem leavesWf_ctlLoad (s : State) (a : Agent) (n va : Nat) (w : Word) (h : s.memWf) :
    (ctlLoad s a n va w).Leaves State.memWf := by
  unfold ctlLoad
  split
  · split <;> simp [h]
  · split
    · simp [h]
    · trivial
    · split
      · trivial
      · exact memWf_addReq _ _ (by simp [h])

@[simp] theorem leavesWf_notifyStore (s : State) (n va : Nat) (v : Word) (h : s.memWf) :
    (notifyStore s n va v).Leaves State.memWf := by
  unfold notifyStore
  dsimp only
  repeat' split
  all_goals simp [h]

@[simp] theorem answersWf_doorbell (p : Nat) (c : Instr) (s : State) (h : s.memWf) : answersWf (doorbell p c s) := by
  unfold doorbell
  repeat' split
  all_goals simp [h]

theorem leavesWf_slotResult {n id va : Nat} {w0 : Word} {r : CommitRes} (left : r.Leaves State.memWf) :
    (slotResult n id va w0 r).Leaves State.memWf := by
  unfold slotResult
  cases r with
  | fault code => trivial
  | done res val t => simpa using left

theorem memWf_servingEnd {s : State} (n : Nat) {r : IRes} (h : s.memWf) (left : r.Leaves State.memWf) :
    (servingEnd s n r).memWf := by
  unfold servingEnd
  cases r with
  | done t => exact left
  | fault code addr own => simp [h]
  | _ => exact h

theorem leavesWf_dispatchResult {n va : Nat} {w0 : Word} {r : CommitRes} (left : r.Leaves State.memWf) :
    (dispatchResult n va w0 r).Leaves State.memWf := by
  unfold dispatchResult
  cases r with
  | fault code => trivial
  | done res val t => simpa using left

theorem leavesWf_slotStore (s : State) (n va : Nat) (v : Word) (h : s.memWf) : (slotStore s n va v).Leaves State.memWf := by
  unfold slotStore
  dsimp only
  split
  · trivial
  · split
    · exact leavesWf_slotResult (leavesWf_commitCommand _ _ _ _ _ h)
    · simp [h]
    · trivial

theorem leavesWf_of_windowStore {s : State} {n va : Nat} {v : Word} {r : IRes} (h : s.memWf)
    (stored : windowStore s n va v = some r) : r.Leaves State.memWf := by
  unfold windowStore at stored
  split at stored
  · cases stored
    exact leavesWf_notifyStore s n va v h
  split at stored
  · cases stored
    exact leavesWf_slotStore s n va v h
  split at stored
  · cases stored
    split
    · exact leavesWf_dispatchResult (leavesWf_commitDispatch s n v h)
    · split <;> simp [h]
  · split at stored
    · cases stored
      trivial
    · cases stored

@[simp] theorem leavesWf_ctlStore (s : State) (a : Agent) (n va : Nat) (v : Word) (h : s.memWf) :
    (ctlStore s a n va v).Leaves State.memWf := by
  unfold ctlStore
  split
  next stored => exact leavesWf_of_windowStore h stored
  · split <;> simp [h]

@[simp] theorem answersWf_serving (op n req : Nat) (w0 : Word) (w1 : Option Word) (s : State) (h : s.memWf) :
    answersWf (serving op n req w0 w1 s) := by
  unfold serving
  split
  · have taken : (withW1 s n req w1).memWf := by simpa using h
    exact memWf_servingEnd n taken (leavesWf_slotResult (leavesWf_commitCommand _ _ _ _ _ taken))
  · exact h

@[simp] theorem leavesWf_onCtx {s : State} {p : Nat} {f : Nat → CmdEnd} (h : s.memWf) (left : ∀ n, (f n).Leaves State.memWf) :
    (onCtx s p f).Leaves State.memWf := by
  unfold onCtx
  dsimp only
  split
  · exact left _
  · exact h

@[simp] theorem leavesWf_refuseCreate (s : State) (p result : Nat) (h : s.memWf) :
    (refuseCreate s p result).Leaves State.memWf := by simp [h, refuseCreate]

theorem answersWf_runCommand {op part : Nat} {body : State → CmdEnd} {s : State} (h : s.memWf)
    (left : ∀ s, s.memWf → (body s).Leaves State.memWf) : answersWf (runCommand op part body s) := by
  have logged : (commandLogged s part).memWf := by simpa [commandLogged] using h
  have kept := left _ logged
  unfold runCommand
  split
  · exact h
  split
  · exact h
  · rw [commandLogged] at logged kept
    dsimp only
    revert h logged kept
    split
    · intro h _ _
      simp [h]
    split
    · intro h _ _
      simp [h]
    · intro h logged kept
      split
      all_goals
        next ended =>
          rw [ended] at kept
          have kept : State.memWf _ := kept
          simp [kept]

section
variable {s : State} {f : State → State} (h : s.memWf) (kept : (f s).memWf)
include h kept

@[simp] theorem answersWf_onSpdm : answersWf (onSpdm s f) := by
  unfold onSpdm
  split
  · exact kept
  · exact h

@[simp] theorem answersWf_onSmb : answersWf (onSmb s f) := by
  unfold onSmb
  split
  · exact h
  · exact kept

@[simp] theorem memWf_smbTake (code : Byte) (bs : List Byte) (pec : Option Byte) : (smbTake s code bs pec f).memWf := by
  unfold smbTake
  split
  · simpa using kept
  · simp [h]

@[simp] theorem memWf_negotiated (k : Nat) : (negotiated s k f).memWf := by
  unfold negotiated
  split
  · simp [h]
  · exact kept

@[simp] theorem memWf_secured : (secured s f).memWf := by
  unfold secured
  split
  · simp [h]
  · exact kept

@[simp] theorem memWf_inSession : (inSession s f).memWf := by
  unfold inSession
  refine memWf_secured h ?_
  split
  · simp [h]
  · exact kept

end

@[simp] theorem memWf_readBody (s : State) (pa : Nat) : (readBody s pa).2.memWf ↔ s.memWf := by
  unfold readBody
  dsimp only
  repeat' split
  all_goals simp

@[simp] theorem memWf_sigOf (s : State) (x : CrSlot) : (sigOf s x).2.memWf ↔ s.memWf := by
  unfold sigOf
  dsimp only
  repeat' split
  all_goals simp

end Machine
end Sys2Proof
end

section
/-! What the commands of Rollout, Models, Doorbells, Summary, Firing, Partition, MemEvents, Ports, Movement, Collectives,
Update, Recover, Firmware, Queues, Clock make of the canonical form of memory. -/
namespace Sys2Proof
namespace Machine

/-! ### Machine/Rollout.lean -/

@[simp] theorem answersWf_execRingPoll (req : Nat) (s : State) (h : s.memWf) :
    answersWf (execRingPoll req s) := by
  unfold execRingPoll
  repeat' split
  all_goals simp [h]

@[simp] theorem answersWf_execDeadlineMonitor (req : Nat) (s : State) (h : s.memWf) :
    answersWf (execDeadlineMonitor req s) := by
  unfold execDeadlineMonitor
  repeat' split
  all_goals simp [h]

/-! ### Machine/Models.lean -/

@[simp] theorem answersWf_execLayerLoaded (model : Nat) (s : State) (h : s.memWf) :
    answersWf (execLayerLoaded model s) := by
  unfold execLayerLoaded
  dsimp only
  repeat' split
  all_goals simp (disch := simp [h]) [h]

@[simp] theorem answersWf_execSourceReadFail (f : SourceFail) (s : State) (h : s.memWf) :
    answersWf (execSourceReadFail f s) := by
  unfold execSourceReadFail
  dsimp only
  repeat' split
  all_goals simp +contextual (disch := simp +contextual [h]) [h]

@[simp] theorem answersWf_execLayerStaged (model : Nat) (s : State) (h : s.memWf) :
    answersWf (execLayerStaged model s) := by
  unfold execLayerStaged
  repeat' split
  all_goals simp +contextual (disch := simp +contextual [h]) [h]

@[simp] theorem answersWf_execLayerInstall (model : Nat) (s : State) (h : s.memWf) :
    answersWf (execLayerInstall model s) := by
  unfold execLayerInstall
  split
  · exact h
  next m _ =>
    split
    · exact h
    next l _ =>
      split
      · split
        next at_ _ =>
          refine (memWf_setModel _ _ _).mpr (memWf_foldl (fun s g h => ?_) _ h)
          have read := (memWf_readGrain s (spacePa m.stagePages (256 * (at_ + g)))).mpr h
          generalize readGrain s _ = r at read ⊢
          obtain ⟨data, tag, t⟩ := r
          exact memWf_writeGrain _ _ _ _ read
        · split <;> simp [h]
      · exact h

@[simp] theorem answersWf_execLayerInstalled (model : Nat) (s : State) (h : s.memWf) :
    answersWf (execLayerInstalled model s) := by
  unfold execLayerInstalled
  repeat' split
  all_goals simp [h]

@[simp] theorem answersWf_execReplaceRetry (model : Nat) (s : State) (h : s.memWf) :
    answersWf (execReplaceRetry model s) := by
  unfold execReplaceRetry
  repeat' split
  all_goals simp [h]

@[simp] theorem answersWf_execUseDecay (s : State) (h : s.memWf) : answersWf (execUseDecay s) := by
  unfold execUseDecay
  split <;> simp [h]

/-! ### Machine/Doorbells.lean -/

@[simp] theorem answersWf_execSubmit (part slot : Nat) (s : State) (h : s.memWf) :
    answersWf (execSubmit part slot s) := by simp [h, execSubmit]

@[simp] theorem answersWf_execCancel (part slot : Nat) (s : State) (h : s.memWf) :
    answersWf (execCancel part slot s) := by simp [h, execCancel]

@[simp] theorem answersWf_execKick (part slot : Nat) (s : State) (h : s.memWf) :
    answersWf (execKick part slot s) := by simp [h, execKick]

@[simp] theorem answersWf_execPfxRelease (part : Nat) (handle : Word) (s : State) (h : s.memWf) :
    answersWf (execPfxRelease part handle s) := by simp [h, execPfxRelease]

@[simp] theorem answersWf_execLoad (part slot : Nat) (s : State) (h : s.memWf) :
    answersWf (execLoad part slot s) := by simp [h, execLoad]

@[simp] theorem answersWf_execUnload (part slot : Nat) (s : State) (h : s.memWf) :
    answersWf (execUnload part slot s) := by simp [h, execUnload]

@[simp] theorem answersWf_execReplace (part slot : Nat) (s : State) (h : s.memWf) :
    answersWf (execReplace part slot s) := by simp [h, execReplace]

@[simp] theorem answersWf_execAttach (part slot ctx : Nat) (serve : Bool) (s : State) (h : s.memWf) :
    answersWf (execAttach part slot ctx serve s) := by simp [h, execAttach]

@[simp] theorem answersWf_execDetach (part slot ctx : Nat) (s : State) (h : s.memWf) :
    answersWf (execDetach part slot ctx s) := by simp [h, execDetach]

@[simp] theorem answersWf_execDoorbellReservedOp (models : Bool) (part : Nat) (value : Word) (s : State) (h : s.memWf) :
    answersWf (execDoorbellReservedOp models part value s) := by simp [h, execDoorbellReservedOp]

/-! ### Machine/Summary.lean -/

@[simp] theorem answersWf_execSummaryArrive (ctx core : Nat) (s : State) (h : s.memWf) :
    answersWf (execSummaryArrive ctx core s) := by
  unfold execSummaryArrive
  repeat' split
  all_goals simp [h]

/-! ### Machine/Firing.lean -/

@[simp] theorem answersWf_execBlockBind (core : Nat) (s : State) (h : s.memWf) :
    answersWf (execBlockBind core s) := by
  unfold execBlockBind
  dsimp only
  repeat' split
  all_goals simp [h]

@[simp] theorem answersWf_execLoadProceed (ctx core : Nat) (s : State) (h : s.memWf) :
    answersWf (execLoadProceed ctx core s) := by
  unfold execLoadProceed
  split
  · exact h
  next j _ =>
    have read := (memWf_readProgram s ctx core j.va).mpr h
    dsimp only
    split
    · exact h
    split
    · simp [h]
    · generalize readProgram s ctx core j.va = r at read ⊢
      obtain ⟨image, t⟩ := r
      have read : t.memWf := read
      cases image with
      | ok im =>
        dsimp only
        split <;> simp [read]
      | error e =>
        dsimp only
        split <;> simp [read]

@[simp] theorem answersWf_execStarvationFault (core : Nat) (s : State) (h : s.memWf) :
    answersWf (execStarvationFault core s) := by
  unfold execStarvationFault
  dsimp only
  repeat' split
  all_goals simp [h]

@[simp] theorem answersWf_execCoreClockGate (core : Nat) (s : State) (h : s.memWf) :
    answersWf (execCoreClockGate core s) := by
  unfold execCoreClockGate
  dsimp only
  repeat' split
  all_goals simp [h]

@[simp] theorem answersWf_execQueueWordLand (core ep : Nat) (s : State) (h : s.memWf) :
    answersWf (execQueueWordLand core ep s) := by
  unfold execQueueWordLand
  dsimp only
  repeat' split
  all_goals simp [h]

@[simp] theorem answersWf_execCreditArrive (core ep : Nat) (s : State) (h : s.memWf) :
    answersWf (execCreditArrive core ep s) := by
  unfold execCreditArrive
  dsimp only
  repeat' split
  all_goals simp [h]

/-! ### Machine/Partition.lean -/

@[simp] theorem answersWf_execMsixSend (part vec : Nat) (s : State) (h : s.memWf) :
    answersWf (execMsixSend part vec s) := by
  unfold execMsixSend
  split <;> simp [h]

@[simp] theorem answersWf_execCmdNop (part : Nat) (s : State) (h : s.memWf) :
    answersWf (execCmdNop part s) := answersWf_runCommand h fun s h => by simp [h]

@[simp] theorem answersWf_execReservedCommand (part : Nat) (s : State) (h : s.memWf) :
    answersWf (execReservedCommand part s) := by
  unfold execReservedCommand
  dsimp only
  split
  · exact h
  · exact answersWf_runCommand h fun _ h => h

@[simp] theorem answersWf_execCreate (part : Nat) (s : State) (h : s.memWf) :
    answersWf (execCreate part s) := by
  unfold execCreate
  split
  · simp [h]
  · exact answersWf_runCommand h fun s h => by
      dsimp only
      repeat' split
      all_goals simp [h]

@[simp] theorem answersWf_execRun (part : Nat) (s : State) (h : s.memWf) : answersWf (execRun part s) := by
  refine answersWf_runCommand h fun s h => ?_
  generalize cmdWord s part 2 = va
  dsimp only
  split
  · exact h
  · exact leavesWf_onCtx h fun n => by split <;> simp [h]

@[simp] theorem answersWf_execDestroy (part : Nat) (s : State) (h : s.memWf) :
    answersWf (execDestroy part s) :=
  answersWf_runCommand h fun s h => leavesWf_onCtx h fun n => by
    dsimp only
    repeat' split
    all_goals simp [h]

@[simp] theorem answersWf_execMap (part : Nat) (s : State) (h : s.memWf) : answersWf (execMap part s) := by
  refine answersWf_runCommand h fun s h => ?_
  generalize cmdWord s part 2 = va
  generalize cmdWord s part 3 = pa
  generalize cmdWord s part 4 = ctl
  dsimp only
  split
  · exact h
  · apply leavesWf_onCtx h
    intro n
    repeat' split
    all_goals simp [h]

@[simp] theorem answersWf_execUnmap (part : Nat) (s : State) (h : s.memWf) :
    answersWf (execUnmap part s) := by
  refine answersWf_runCommand h fun s h => ?_
  generalize cmdWord s part 2 = va
  dsimp only
  split
  · exact h
  · exact leavesWf_onCtx h fun n => by split <;> simp [h]

@[simp] theorem answersWf_execPost (part : Nat) (s : State) (h : s.memWf) : answersWf (execPost part s) :=
  answersWf_runCommand h fun s h => by
    dsimp only
    split
    · simp [h]
    · apply leavesWf_onCtx h
      intro n
      split <;> simp [h]

@[simp] theorem answersWf_execTeardownComplete (ctx : Nat) (s : State) (h : s.memWf) :
    answersWf (execTeardownComplete ctx s) := by
  unfold execTeardownComplete
  split <;> simp (disch := simp [h]) [h]

@[simp] theorem answersWf_execTeardownRead (part : Nat) (s : State) (h : s.memWf) :
    answersWf (execTeardownRead part s) := by
  unfold execTeardownRead
  repeat' split
  all_goals simp [h]

@[simp] theorem answersWf_execQuantumBoundary (s : State) (h : s.memWf) :
    answersWf (execQuantumBoundary s) := by
  unfold execQuantumBoundary
  split <;> simp [h]

@[simp] theorem answersWf_execContextSaved (ctx : Nat) (s : State) (h : s.memWf) :
    answersWf (execContextSaved ctx s) := by
  unfold execContextSaved
  dsimp only
  repeat' split
  all_goals simp [h]

@[simp] theorem answersWf_execContextRestored (ctx : Nat) (s : State) (h : s.memWf) :
    answersWf (execContextRestored ctx s) := by
  unfold execContextRestored
  dsimp only
  repeat' split
  all_goals simp [h]

@[simp] theorem answersWf_execPartitionReset (part : Nat) (s : State) (h : s.memWf) :
    answersWf (execPartitionReset part s) := by
  unfold execPartitionReset
  split <;> simp [h]

/-! ### Machine/MemEvents.lean -/

@[simp] theorem answersWf_execGrainResponse (req : Nat) (corrupt : Bool) (s : State) (h : s.memWf) :
    answersWf (execGrainResponse req corrupt s) := by
  unfold execGrainResponse
  dsimp only
  repeat' split
  all_goals simp [h]

@[simp] theorem answersWf_execWriteAck (req : Nat) (s : State) (h : s.memWf) :
    answersWf (execWriteAck req s) := by
  unfold execWriteAck
  dsimp only
  repeat' split
  all_goals simp [h]

@[simp] theorem answersWf_execBankServe (bank : Nat) (s : State) (h : s.memWf) :
    answersWf (execBankServe bank s) := by
  unfold execBankServe
  dsimp only
  repeat' split
  all_goals simp [h]

@[simp] theorem answersWf_execBackInvalidate (line : Nat) (s : State) (h : s.memWf) :
    answersWf (execBackInvalidate line s) := by simp [h, execBackInvalidate]

@[simp] theorem answersWf_execTierLate (req : Nat) (s : State) (h : s.memWf) :
    answersWf (execTierLate req s) := by
  unfold execTierLate
  repeat' split
  all_goals simp [h]

@[simp] theorem answersWf_execMemUncorrectable (pa : Nat) (s : State) (h : s.memWf) :
    answersWf (execMemUncorrectable pa s) := by
  unfold execMemUncorrectable
  dsimp only
  repeat' split
  all_goals simp [h]

@[simp] theorem answersWf_execRefetchDone (pa : Nat) (s : State) (h : s.memWf) :
    answersWf (execRefetchDone pa s) := by
  unfold execRefetchDone
  dsimp only
  repeat' split
  all_goals simp [h]

@[simp] theorem answersWf_execPatrolScrub (pa : Nat) (corrected : Bool) (s : State) (h : s.memWf) :
    answersWf (execPatrolScrub pa corrected s) := by
  unfold execPatrolScrub
  repeat' split
  all_goals simp [h]

@[simp] theorem answersWf_execMemreq (src txn : Nat) (span : GrainSpan) (isWrite : Bool) (s : State) (h : s.memWf) :
    answersWf (execMemreq src txn span isWrite s) := by
  unfold execMemreq
  dsimp only
  repeat' split
  all_goals simp [h]

@[simp] theorem answersWf_execMemdata (src txn : Nat) (data : List Byte) (format part : Nat) (poison : Bool) (s : State) (h : s.memWf) :
    answersWf (execMemdata src txn data format part poison s) := by
  unfold execMemdata
  dsimp only
  repeat' split
  all_goals simp [h]

@[simp] theorem answersWf_execMemack (src txn code : Nat) (s : State) (h : s.memWf) :
    answersWf (execMemack src txn code s) := by
  unfold execMemack
  repeat' split
  all_goals simp [h]

@[simp] theorem answersWf_execTier4Completion (req : Nat) (ok poison : Bool) (s : State) (h : s.memWf) :
    answersWf (execTier4Completion req ok poison s) := by
  unfold execTier4Completion
  repeat' split
  all_goals simp [h]

@[simp] theorem answersWf_execHostSnoop (addr : Nat) (s : State) (h : s.memWf) :
    answersWf (execHostSnoop addr s) := by
  unfold execHostSnoop
  split <;> simp [h]

/-! ### Machine/Ports.lean -/

@[simp] theorem answersWf_execPortEnable (port : Nat) (on : Bool) (s : State) (h : s.memWf) :
    answersWf (execPortEnable port on s) := by
  unfold execPortEnable
  dsimp only
  repeat' split
  all_goals simp [h]

@[simp] theorem answersWf_execPortRetrain (port : Nat) (s : State) (h : s.memWf) :
    answersWf (execPortRetrain port s) := by
  unfold execPortRetrain
  split <;> simp [h]

@[simp] theorem answersWf_execSignalDetect (port : Nat) (lanes : BitVec 18) (s : State) (h : s.memWf) :
    answersWf (execSignalDetect port lanes s) := by
  unfold execSignalDetect
  split <;> simp [h]

@[simp] theorem answersWf_execTrainComplete (port : Nat) (pass best8 : BitVec 18) (s : State) (h : s.memWf) :
    answersWf (execTrainComplete port pass best8 s) := by
  unfold execTrainComplete
  repeat' split
  all_goals simp [h]

@[simp] theorem answersWf_execRetrainComplete (port : Nat) (ok : Bool) (pass best8 : BitVec 18) (s : State) (h : s.memWf) :
    answersWf (execRetrainComplete port ok pass best8 s) := by
  unfold execRetrainComplete
  dsimp only
  repeat' split
  all_goals simp [h]

@[simp] theorem answersWf_execPortDownTimeout (port : Nat) (s : State) (h : s.memWf) :
    answersWf (execPortDownTimeout port s) := by
  unfold execPortDownTimeout
  dsimp only
  repeat' split
  all_goals simp [h]

@[simp] theorem answersWf_execLaneErrorInterval (port : Nat) (counts : List Nat) (s : State) (h : s.memWf) :
    answersWf (execLaneErrorInterval port counts s) := by
  unfold execLaneErrorInterval
  dsimp only
  repeat' split
  all_goals simp [h]

@[simp] theorem answersWf_execLaneSignalLoss (port lane : Nat) (s : State) (h : s.memWf) :
    answersWf (execLaneSignalLoss port lane s) := by
  unfold execLaneSignalLoss
  dsimp only
  repeat' split
  all_goals simp [h]

@[simp] theorem answersWf_execLaneSwap (port lane : Nat) (s : State) (h : s.memWf) :
    answersWf (execLaneSwap port lane s) := by
  unfold execLaneSwap
  dsimp only
  repeat' split
  all_goals simp [h]

@[simp] theorem answersWf_execFecGroupReceive (port : Nat) (g : FecGroup) (s : State) (h : s.memWf) :
    answersWf (execFecGroupReceive port g s) := by
  unfold execFecGroupReceive
  dsimp only
  repeat' split
  all_goals simp [h]

@[simp] theorem answersWf_execReservedFlit (port : Nat) (s : State) (h : s.memWf) :
    answersWf (execReservedFlit port s) := by
  unfold execReservedFlit
  split <;> simp [h]

@[simp] theorem answersWf_execHello (m : HelloMsg) (s : State) (h : s.memWf) : answersWf (execHello m s) := by
  unfold execHello
  dsimp only
  repeat' split
  all_goals simp [h]

@[simp] theorem answersWf_execRejoin (s : State) (h : s.memWf) : answersWf (execRejoin s) := by
  unfold execRejoin
  split
  · exact h
  · refine memWf_foldl (fun s p h => ?_) _ (by simp [h])
    split <;> simp [h]

/-! ### Machine/Movement.lean -/

@[simp] theorem answersWf_execLdt (a : Agent) (w : Word) (s : State) (h : s.memWf) :
    answersWf (execLdt a w s) :=
  answersWf_runInstr h fun n => leavesWf_afterSlot h (leaves_onCore fun c t => by
    repeat' split
    all_goals simp +contextual [h])

@[simp] theorem answersWf_execStt (a : Agent) (w : Word) (s : State) (h : s.memWf) :
    answersWf (execStt a w s) :=
  answersWf_runInstr h fun n => leavesWf_afterSlot h (leaves_onCore fun c t => by
    repeat' split
    all_goals simp +contextual [h])

@[simp] theorem answersWf_execMovt (a : Agent) (w : Word) (s : State) (h : s.memWf) :
    answersWf (execMovt a w s) := answersWf_runInstr h fun n => by
  dsimp only
  repeat' split
  all_goals simp +contextual [h]

@[simp] theorem answersWf_execPfsArm (a : Agent) (w : Word) (s : State) (h : s.memWf) :
    answersWf (execPfsArm a w s) := answersWf_runInstr h fun n => by split <;> simp [h]

@[simp] theorem answersWf_execPfsStop (a : Agent) (w : Word) (s : State) (h : s.memWf) :
    answersWf (execPfsStop a w s) := answersWf_runInstr h fun n => by
  dsimp only
  repeat' split
  all_goals simp [h]

@[simp] theorem answersWf_execGatePoll (sched : Nat) (s : State) (h : s.memWf) :
    answersWf (execGatePoll sched s) := by
  unfold execGatePoll
  dsimp only
  repeat' split
  all_goals simp [h]

@[simp] theorem answersWf_execPrefetchEntryStart (id : Nat) (s : State) (h : s.memWf) :
    answersWf (execPrefetchEntryStart id s) := by
  unfold execPrefetchEntryStart
  split
  · exact h
  next d _ =>
    have read := memWf_readEntry s d
    split
    · exact h
    · split
      all_goals
        next ran =>
          rw [ran] at read
          have kept := read.mpr h
          repeat' split
          all_goals simp [h, kept]

@[simp] theorem answersWf_execRcfg (a : Agent) (w : Word) (s : State) (h : s.memWf) :
    answersWf (execRcfg a w s) := answersWf_runInstr h fun n => leaves_onCore fun c t => by
  dsimp only
  repeat' split
  all_goals simp [h]

@[simp] theorem answersWf_execRingCommit (a : Agent) (w : Word) (s : State) (h : s.memWf) :
    answersWf (execRingCommit a w s) :=
  answersWf_runInstr h fun n => leaves_onCore fun c t => by
  dsimp only
  split <;> simp [h]

@[simp] theorem answersWf_execRingRelease (a : Agent) (w : Word) (s : State) (h : s.memWf) :
    answersWf (execRingRelease a w s) :=
  answersWf_runInstr h fun n => leaves_onCore fun c t => by
  dsimp only
  repeat' split
  all_goals simp [h]

@[simp] theorem answersWf_execRingSwap (a : Agent) (w : Word) (s : State) (h : s.memWf) :
    answersWf (execRingSwap a w s) := answersWf_runInstr h fun n => leaves_onCore fun c t => by
  dsimp only
  split <;> simp [h]

/-! ### Machine/Collectives.lean -/

@[simp] theorem answersWf_execColl (a : Agent) (w : Word) (s : State) (h : s.memWf) :
    answersWf (execColl a w s) := answersWf_runInstr h fun n => by
  dsimp only
  repeat' split
  all_goals simp [h]

@[simp] theorem answersWf_execGflag (a : Agent) (w : Word) (s : State) (h : s.memWf) :
    answersWf (execGflag a w s) := answersWf_runInstr h fun n => by
  dsimp only
  repeat' split
  all_goals simp [h]

@[simp] theorem answersWf_execReshard (a : Agent) (w : Word) (s : State) (h : s.memWf) :
    answersWf (execReshard a w s) :=
  answersWf_runInstr h fun n => by
    dsimp only
    split
    · exact h
    split
    next d t _ _ =>
      have read := memWf_readMapRec s n (sOf s a (iSrc2 w)).toNat d t
      split
      · trivial
      split
      · trivial
      · split
        · trivial
        next ran =>
          rw [ran] at read
          repeat' split
          all_goals simp [h, read]
    · trivial

@[simp] theorem answersWf_execReshardFencePass (id : Nat) (s : State) (h : s.memWf) :
    answersWf (execReshardFencePass id s) := by
  unfold execReshardFencePass
  repeat' split
  all_goals simp [h]

@[simp] theorem answersWf_execCommitComplete (id : Nat) (s : State) (h : s.memWf) :
    answersWf (execCommitComplete id s) := by
  unfold execCommitComplete
  repeat' split
  all_goals simp (disch := simp [h]) [h]

@[simp] theorem answersWf_execColdata (d : ColData) (s : State) (h : s.memWf) :
    answersWf (execColdata d s) := by
  unfold execColdata
  dsimp only
  repeat' split
  all_goals simp [h]

@[simp] theorem answersWf_execPeerWaitLimit (ctx step : Nat) (s : State) (h : s.memWf) :
    answersWf (execPeerWaitLimit ctx step s) := by
  unfold execPeerWaitLimit
  repeat' split
  all_goals simp +contextual (disch := simp +contextual (disch := simp +contextual [h]) [h]) [h]

/-! ### Machine/Update.lean -/

@[simp] theorem answersWf_execUpdopOpen (a : Agent) (w : Word) (s : State) (h : s.memWf) :
    answersWf (execUpdopOpen a w s) := answersWf_runInstr h fun n => by simp [h]

@[simp] theorem answersWf_execUpdopNorm (a : Agent) (w : Word) (s : State) (h : s.memWf) :
    answersWf (execUpdopNorm a w s) := answersWf_runInstr h fun n => by simp [h]

@[simp] theorem answersWf_execUpdopStep (a : Agent) (w : Word) (s : State) (h : s.memWf) :
    answersWf (execUpdopStep a w s) := answersWf_runInstr h fun n => by simp [h]

@[simp] theorem answersWf_execUpdopRegen (a : Agent) (w : Word) (s : State) (h : s.memWf) :
    answersWf (execUpdopRegen a w s) := answersWf_runInstr h fun n => by simp [h]

@[simp] theorem answersWf_execUpdopFlush (a : Agent) (w : Word) (s : State) (h : s.memWf) :
    answersWf (execUpdopFlush a w s) := answersWf_runInstr h fun n => by simp [h]

@[simp] theorem answersWf_execUpdopKvgather (a : Agent) (w : Word) (s : State) (h : s.memWf) :
    answersWf (execUpdopKvgather a w s) := answersWf_runInstr h fun n => by simp [h]

@[simp] theorem answersWf_execUpdOpStart (op : Nat) (s : State) (h : s.memWf) :
    answersWf (execUpdOpStart op s) := by simp [h, execUpdOpStart]

@[simp] theorem answersWf_execSnapshotComplete (snap : Nat) (s : State) (h : s.memWf) :
    answersWf (execSnapshotComplete snap s) := by
  unfold execSnapshotComplete
  split <;> simp (disch := simp [h]) [h]

/-! ### Machine/Recover.lean -/

@[simp] theorem answersWf_execCoreLost (core : Nat) (s : State) (h : s.memWf) :
    answersWf (execCoreLost core s) := by
  unfold execCoreLost
  repeat' split
  all_goals simp [h]

@[simp] theorem answersWf_execSpareCoreReady (core : Nat) (pass : Bool) (s : State) (h : s.memWf) :
    answersWf (execSpareCoreReady core pass s) := by
  unfold execSpareCoreReady
  dsimp only
  repeat' split
  all_goals simp [h]

@[simp] theorem answersWf_execDieLost (die : Nat) (s : State) (h : s.memWf) :
    answersWf (execDieLost die s) := by
  unfold execDieLost
  repeat' split
  all_goals simp [h]

@[simp] theorem answersWf_execSpareDieReady (pass : Bool) (s : State) (h : s.memWf) :
    answersWf (execSpareDieReady pass s) := by
  unfold execSpareDieReady
  dsimp only
  split
  next die rest _ _ _ =>
    split
    · have found : spsWf (tmap (fun c x => if c / 128 = die then { x with lost := false } else x) s.cores) :=
        (spsWf_tmap fun c x => by split <;> rfl).mpr h.2
      exact memWf_coresFreed _ ((memWf_recomputeEnt _).mpr ((memWf_saveCarrier _ _).mpr
        ((memWf_logEvent _ _ _ _ _ _).mpr ⟨h.1, found⟩)))
    · simp [h]
  · exact h

@[simp] theorem answersWf_execStackLost (stack : Nat) (s : State) (h : s.memWf) :
    answersWf (execStackLost stack s) := by
  unfold execStackLost
  repeat' split
  all_goals simp [h]

@[simp] theorem answersWf_execSpareStackReady (stack : Nat) (pass : Bool) (s : State) (h : s.memWf) :
    answersWf (execSpareStackReady stack pass s) := by
  unfold execSpareStackReady
  dsimp only
  repeat' split
  all_goals simp [h]

@[simp] theorem answersWf_execChannelLost (chan : Nat) (s : State) (h : s.memWf) :
    answersWf (execChannelLost chan s) := by
  unfold execChannelLost
  split <;> simp [h]

@[simp] theorem answersWf_execHubPathFault (u : HubUnit) (s : State) (h : s.memWf) :
    answersWf (execHubPathFault u s) := by
  unfold execHubPathFault
  split <;> simp [h]

@[simp] theorem answersWf_execBridgeLaneSwap (group lane : Nat) (s : State) (h : s.memWf) :
    answersWf (execBridgeLaneSwap group lane s) := by
  unfold execBridgeLaneSwap
  dsimp only
  repeat' split
  all_goals simp [h]

@[simp] theorem answersWf_execWatchdogExpiry (cc : Nat) (s : State) (h : s.memWf) :
    answersWf (execWatchdogExpiry cc s) := by
  unfold execWatchdogExpiry
  split <;> simp [h]

@[simp] theorem answersWf_execSramUncorrectable (place : SramPlace) (s : State) (h : s.memWf) :
    answersWf (execSramUncorrectable place s) := by
  unfold execSramUncorrectable
  split <;> simp [h]

/-! ### Machine/Firmware.lean -/

@[simp] theorem answersWf_execFwVerify (s : State) (h : s.memWf) : answersWf (execFwVerify s) := by
  unfold execFwVerify
  dsimp only
  repeat' split
  all_goals simp [h]

@[simp] theorem answersWf_execFwVerifyDone (s : State) (h : s.memWf) : answersWf (execFwVerifyDone s) := by
  unfold execFwVerifyDone
  split <;> simp [h]

@[simp] theorem answersWf_execFwActivate (s : State) (h : s.memWf) : answersWf (execFwActivate s) := by
  unfold execFwActivate
  repeat' split
  all_goals simp [h]

@[simp] theorem answersWf_execFwCoreSwitch (selfCheckOk : Bool) (s : State) (h : s.memWf) :
    answersWf (execFwCoreSwitch selfCheckOk s) := by
  unfold execFwCoreSwitch
  dsimp only
  repeat' split
  all_goals simp [h]

/-! ### Machine/Queues.lean -/

@[simp] theorem answersWf_execQcfg (a : Agent) (w : Word) (s : State) (h : s.memWf) :
    answersWf (execQcfg a w s) := answersWf_runInstr h fun n => by
  dsimp only
  repeat' split
  all_goals simp [h]

@[simp] theorem answersWf_execQsend (a : Agent) (w : Word) (s : State) (h : s.memWf) :
    answersWf (execQsend a w s) := answersWf_runInstr h fun n => by split <;> simp +contextual (disch := simp +contextual [h])

@[simp] theorem answersWf_execQrecv (a : Agent) (w : Word) (s : State) (h : s.memWf) :
    answersWf (execQrecv a w s) := answersWf_runInstr h fun n => leaves_onCore fun c t => by
  dsimp only
  repeat' split
  all_goals simp [h]

@[simp] theorem answersWf_execQheld (a : Agent) (w : Word) (s : State) (h : s.memWf) :
    answersWf (execQheld a w s) := answersWf_runInstr h fun n => leaves_onCore fun c t => by
  dsimp only
  split <;> simp [h]

@[simp] theorem answersWf_execQrel (a : Agent) (w : Word) (s : State) (h : s.memWf) :
    answersWf (execQrel a w s) :=
  answersWf_runInstr h fun n => leaves_onCore fun c t => by split <;> simp [h]

@[simp] theorem answersWf_execQsum (a : Agent) (w : Word) (s : State) (h : s.memWf) :
    answersWf (execQsum a w s) := answersWf_runInstr h fun n => by simp [h]

/-! ### Machine/Clock.lean -/

@[simp] theorem answersWf_execGovStep (mw : Nat) (s : State) (h : s.memWf) :
    answersWf (execGovStep mw s) := by
  unfold execGovStep
  split <;> simp [h]

@[simp] theorem answersWf_execThermalSense (maxC : Nat) (s : State) (h : s.memWf) :
    answersWf (execThermalSense maxC s) := by
  unfold execThermalSense
  dsimp only
  repeat' split
  all_goals simp [h]

@[simp] theorem answersWf_execMonitorCollect (uj : Nat) (ds : List DomainReading) (s : State) (h : s.memWf) :
    answersWf (execMonitorCollect uj ds s) := by
  have charged : (noteCorrected (ds.foldl chargeCycles s) ds).memWf := by simp [h]
  unfold execMonitorCollect
  split
  · exact h
  · generalize noteCorrected (ds.foldl chargeCycles s) ds = u at charged ⊢
    exact (memWf_payOut _ _).mpr charged

@[simp] theorem answersWf_execOscFail (oscB : Bool) (s : State) (h : s.memWf) :
    answersWf (execOscFail oscB s) := by
  unfold execOscFail
  dsimp only
  repeat' split
  all_goals simp [h]

@[simp] theorem answersWf_execPllStop (die : Nat) (s : State) (h : s.memWf) :
    answersWf (execPllStop die s) := by
  unfold execPllStop
  dsimp only
  repeat' split
  all_goals simp [h]

@[simp] theorem answersWf_execPllStable (die : Nat) (s : State) (h : s.memWf) :
    answersWf (execPllStable die s) := by
  unfold execPllStable
  dsimp only
  repeat' split
  all_goals simp +contextual [h]

@[simp] theorem answersWf_execTickLoRead (s : State) (h : s.memWf) : answersWf (execTickLoRead s) := by
  unfold execTickLoRead
  split <;> simp [h]

@[simp] theorem answersWf_execGovStatusRead (s : State) (h : s.memWf) :
    answersWf (execGovStatusRead s) := by
  unfold execGovStatusRead
  split <;> simp [h]

@[simp] theorem answersWf_execKeepWarmWrite (die : Nat) (value : Word32) (s : State) (h : s.memWf) :
    answersWf (execKeepWarmWrite die value s) := by
  unfold execKeepWarmWrite
  split <;> simp [h]

end Machine
end Sys2Proof
end

section
/-! What the commands of HostLink, Sync, Bringup, Change, Control, Matrix, Ordered, PowerStates, Serving, Sessions, Spdm,
Vector make of the canonical form of memory. -/
namespace Sys2Proof
namespace Machine

/-! ### Machine/HostLink.lean -/

@[simp] theorem answersWf_execHdmRead (pa : Nat) (s : State) (h : s.memWf) :
    answersWf (execHdmRead pa s) := by simp [h, execHdmRead]

@[simp] theorem answersWf_execHdmWrite (pa : Nat) (data : List Byte) (s : State) (h : s.memWf) :
    answersWf (execHdmWrite pa data s) := by simp [h, execHdmWrite]

@[simp] theorem answersWf_execDecoderCommit (dec ways : Nat) (s : State) (h : s.memWf) :
    answersWf (execDecoderCommit dec ways s) := by
  unfold execDecoderCommit
  repeat' split
  all_goals simp [h]

@[simp] theorem answersWf_execFlrVf (n : Nat) (s : State) (h : s.memWf) : answersWf (execFlrVf n s) := by
  unfold execFlrVf
  split <;> simp [h]

@[simp] theorem answersWf_execFlrPf (s : State) (h : s.memWf) : answersWf (execFlrPf s) := by
  unfold execFlrPf
  split <;> simp [h]

@[simp] theorem answersWf_execVfEnableClear (s : State) (h : s.memWf) :
    answersWf (execVfEnableClear s) := by
  unfold execVfEnableClear
  split <;> simp [h]

@[simp] theorem answersWf_execDlDown (s : State) (h : s.memWf) : answersWf (execDlDown s) := by
  unfold execDlDown
  split <;> simp [h]

@[simp] theorem answersWf_execIdeFail (s : State) (h : s.memWf) : answersWf (execIdeFail s) := by
  unfold execIdeFail
  split <;> simp [h]

@[simp] theorem answersWf_execPerstDeassert (s : State) (h : s.memWf) :
    answersWf (execPerstDeassert s) := by
  unfold execPerstDeassert
  dsimp only
  repeat' split
  all_goals simp [h]

@[simp] theorem answersWf_execHostLinkUp (speed width : Nat) (s : State) (h : s.memWf) :
    answersWf (execHostLinkUp speed width s) := by
  unfold execHostLinkUp
  split
  · exact h
  · exact h

/-! ### Machine/Sync.lean -/

@[simp] theorem answersWf_execFence (a : Agent) (w : Word) (s : State) (h : s.memWf) :
    answersWf (execFence a w s) := answersWf_runInstr h fun n => by
  dsimp only
  repeat' split
  all_goals simp [h]

@[simp] theorem answersWf_execBar (a : Agent) (w : Word) (s : State) (h : s.memWf) :
    answersWf (execBar a w s) := answersWf_runInstr h fun n => by simp [h]

@[simp] theorem answersWf_execStart (a : Agent) (w : Word) (s : State) (h : s.memWf) :
    answersWf (execStart a w s) := answersWf_runInstr h fun n => by
  dsimp only
  repeat' split
  all_goals simp [h]

@[simp] theorem answersWf_execCg (a : Agent) (w : Word) (s : State) (h : s.memWf) :
    answersWf (execCg a w s) := answersWf_runInstr h fun n => by simp [h]

@[simp] theorem answersWf_execEpochEnter (a : Agent) (w : Word) (s : State) (h : s.memWf) :
    answersWf (execEpochEnter a w s) := answersWf_runInstr h fun n => by split <;> simp [h]

@[simp] theorem answersWf_execEpochLeave (a : Agent) (w : Word) (s : State) (h : s.memWf) :
    answersWf (execEpochLeave a w s) := answersWf_runInstr h fun n => by split <;> simp [h]

/-! ### Machine/Bringup.lean -/

@[simp] theorem answersWf_execMatedNFall (vinMv : Nat) (s : State) (h : s.memWf) :
    answersWf (execMatedNFall vinMv s) := by
  unfold execMatedNFall
  split <;> simp [h]

@[simp] theorem answersWf_execPowerGood (slot : Nat) (s : State) (h : s.memWf) :
    answersWf (execPowerGood slot s) := by
  unfold execPowerGood
  split <;> simp [h]

@[simp] theorem answersWf_execInputExcursionTimeout (s : State) (h : s.memWf) :
    answersWf (execInputExcursionTimeout s) := by
  unfold execInputExcursionTimeout
  repeat' split
  all_goals simp [h]

@[simp] theorem answersWf_execInputRestored (mv : Nat) (s : State) (h : s.memWf) :
    answersWf (execInputRestored mv s) := by
  unfold execInputRestored
  split <;> simp [h]

@[simp] theorem answersWf_execRecordVerify (copyA copyB : CopyCheck) (s : State) (h : s.memWf) :
    answersWf (execRecordVerify copyA copyB s) := by
  unfold execRecordVerify
  repeat' split
  all_goals simp [h]

@[simp] theorem answersWf_execIdentityCheck (read : IdentityRead) (s : State) (h : s.memWf) :
    answersWf (execIdentityCheck read s) := by
  unfold execIdentityCheck
  repeat' split
  all_goals simp [h]

@[simp] theorem answersWf_execFirmwareBoot (s : State) (h : s.memWf) : answersWf (execFirmwareBoot s) := by
  unfold execFirmwareBoot
  dsimp only
  repeat' split
  all_goals simp [h]

@[simp] theorem answersWf_execEarlyService (s : State) (h : s.memWf) : answersWf (execEarlyService s) := by
  unfold execEarlyService
  split <;> simp [h]

@[simp] theorem answersWf_execUnitSelfTestDone (failed : List Unit1) (s : State) (h : s.memWf) :
    answersWf (execUnitSelfTestDone failed s) := by
  unfold execUnitSelfTestDone
  repeat' split
  all_goals simp [h]

@[simp] theorem answersWf_execSpeedTest (s : State) (h : s.memWf) : answersWf (execSpeedTest s) := by
  unfold execSpeedTest
  dsimp only
  repeat' split
  all_goals simp +contextual [h]

@[simp] theorem answersWf_execFullService (s : State) (h : s.memWf) : answersWf (execFullService s) := by
  unfold execFullService
  split <;> simp [h]

/-! ### Machine/Change.lean -/

@[simp] theorem answersWf_execCrSubmit (i : Nat) (s : State) (h : s.memWf) :
    answersWf (execCrSubmit i s) := by
  unfold execCrSubmit
  dsimp only
  repeat' split
  all_goals simp [h]

@[simp] theorem answersWf_execCrSign (i : Nat) (s : State) (h : s.memWf) : answersWf (execCrSign i s) := by
  unfold execCrSign
  dsimp only
  repeat' split
  all_goals simp [h]

@[simp] theorem answersWf_execCrClear (i : Nat) (s : State) (h : s.memWf) :
    answersWf (execCrClear i s) := by
  unfold execCrClear
  dsimp only
  repeat' split
  all_goals simp [h]

@[simp] theorem answersWf_execCrWindowExpiry (i : Nat) (s : State) (h : s.memWf) :
    answersWf (execCrWindowExpiry i s) := by
  unfold execCrWindowExpiry
  split <;> simp [h]

@[simp] theorem answersWf_execCrApply (i : Nat) (s : State) (h : s.memWf) :
    answersWf (execCrApply i s) := by
  unfold execCrApply
  split <;> simp [h]

@[simp] theorem answersWf_execResetScrubDone (part : Nat) (s : State) (h : s.memWf) :
    answersWf (execResetScrubDone part s) := by
  unfold execResetScrubDone
  dsimp only
  repeat' split
  all_goals simp [h]

/-! ### Machine/Control.lean -/

@[simp] theorem answersWf_execSalu (a : Agent) (w : Word) (s : State) (h : s.memWf) : answersWf (execSalu a w s) :=
  answersWf_runInstr h fun n => by
    have read := (memWf_extWord s a n w).mpr h
    dsimp only
    split
    · split
      · trivial
      next ran =>
        rw [ran] at read
        have read : State.memWf _ := read
        simp [read]
    · simp [h]

@[simp] theorem answersWf_execScmp (a : Agent) (w : Word) (s : State) (h : s.memWf) :
    answersWf (execScmp a w s) := answersWf_runInstr h fun n => by simp [h]

@[simp] theorem answersWf_execBr (a : Agent) (w : Word) (s : State) (h : s.memWf) :
    answersWf (execBr a w s) := answersWf_runInstr h fun n => by simp [h]

@[simp] theorem answersWf_execSmemLoad (a : Agent) (w : Word) (s : State) (h : s.memWf) :
    answersWf (execSmemLoad a w s) := answersWf_runInstr h fun n => by split <;> simp +contextual [h]

@[simp] theorem answersWf_execSmemStore (a : Agent) (w : Word) (s : State) (h : s.memWf) :
    answersWf (execSmemStore a w s) := answersWf_runInstr h fun n => by split <;> simp +contextual (disch := simp +contextual [h])

@[simp] theorem answersWf_execNotify (a : Agent) (w : Word) (s : State) (h : s.memWf) : answersWf (execNotify a w s) := by
  cases a with
  | thread c t => exact h
  | ctl n =>
    unfold execNotify
    dsimp only
    split
    · exact answersWf_runInstr h fun n => leavesWf_notifyStore _ _ _ _ h
    · exact h

@[simp] theorem answersWf_execDwr (a : Agent) (w : Word) (s : State) (h : s.memWf) :
    answersWf (execDwr a w s) := answersWf_runInstr h fun n => by simp [h]

@[simp] theorem answersWf_execBend (a : Agent) (w : Word) (s : State) (h : s.memWf) :
    answersWf (execBend a w s) :=
  answersWf_runInstr h fun n => leaves_onCore fun c t => by simp [h]

@[simp] theorem answersWf_execHalt (a : Agent) (w : Word) (s : State) (h : s.memWf) :
    answersWf (execHalt a w s) := answersWf_runInstr h fun n => by simp [h]

@[simp] theorem answersWf_execYield (a : Agent) (w : Word) (s : State) (h : s.memWf) :
    answersWf (execYield a w s) := answersWf_runInstr h fun n => by simp [h]

@[simp] theorem answersWf_execNop (a : Agent) (w : Word) (s : State) (h : s.memWf) :
    answersWf (execNop a w s) := answersWf_runInstr h fun n => by simp [h]

@[simp] theorem answersWf_execRdsysTick (a : Agent) (w : Word) (s : State) (h : s.memWf) :
    answersWf (execRdsysTick a w s) := answersWf_runInstr h fun n => by simp [h]

@[simp] theorem answersWf_execRdsysStatus (a : Agent) (w : Word) (s : State) (h : s.memWf) :
    answersWf (execRdsysStatus a w s) := answersWf_runInstr h fun n => by split <;> simp [h]

@[simp] theorem answersWf_execRdsysCounter (a : Agent) (w : Word) (s : State) (h : s.memWf) :
    answersWf (execRdsysCounter a w s) := answersWf_runInstr h fun n => by split <;> simp [h]

@[simp] theorem answersWf_execRdsysContext (a : Agent) (w : Word) (s : State) (h : s.memWf) :
    answersWf (execRdsysContext a w s) := answersWf_runInstr h fun n => by simp [h]

@[simp] theorem answersWf_execRdsysPeer (a : Agent) (w : Word) (s : State) (h : s.memWf) :
    answersWf (execRdsysPeer a w s) := answersWf_runInstr h fun n => by simp [h]

@[simp] theorem answersWf_execRdsysCtxRegister (a : Agent) (w : Word) (s : State) (h : s.memWf) :
    answersWf (execRdsysCtxRegister a w s) := answersWf_runInstr h fun n => by split <;> simp [h]

@[simp] theorem answersWf_execLoadp (a : Agent) (w : Word) (s : State) (h : s.memWf) :
    answersWf (execLoadp a w s) := answersWf_runInstr h fun n => by split <;> simp [h]

@[simp] theorem answersWf_execSumarm (a : Agent) (w : Word) (s : State) (h : s.memWf) :
    answersWf (execSumarm a w s) := answersWf_runInstr h fun n => by simp [h]

@[simp] theorem answersWf_execSumget (a : Agent) (w : Word) (s : State) (h : s.memWf) :
    answersWf (execSumget a w s) := answersWf_runInstr h fun n => by
  dsimp only
  repeat' split
  all_goals simp [h]

@[simp] theorem answersWf_execCores (a : Agent) (w : Word) (s : State) (h : s.memWf) : answersWf (execCores a w s) :=
  answersWf_runInstr h fun n => by
    split
    · simp [h]
    · exact memWf_askCores _ _ _ (by simp [h])

@[simp] theorem answersWf_execIllegalInstruction (a : Agent) (w : Word) (s : State) (h : s.memWf) :
    answersWf (execIllegalInstruction a w s) := answersWf_runInstr h fun n => by simp [h]

/-! ### Machine/Matrix.lean -/

@[simp] theorem answersWf_execShadowRecompute (core : Nat) (s : State) (h : s.memWf) :
    answersWf (execShadowRecompute core s) := by
  unfold execShadowRecompute
  dsimp only
  repeat' split
  all_goals simp [h]

@[simp] theorem answersWf_execMma (a : Agent) (w : Word) (s : State) (h : s.memWf) :
    answersWf (execMma a w s) := answersWf_runInstr h fun n => leaves_onCore fun c t => by
  dsimp only
  split <;> simp +contextual [h]

@[simp] theorem answersWf_execAgset (a : Agent) (w : Word) (s : State) (h : s.memWf) :
    answersWf (execAgset a w s) := answersWf_runInstr h fun n => by simp [h]

@[simp] theorem answersWf_execAgopen (a : Agent) (w : Word) (s : State) (h : s.memWf) :
    answersWf (execAgopen a w s) := answersWf_runInstr h fun n => by simp +contextual (disch := simp +contextual (disch := simp +contextual [h]) [h])

@[simp] theorem answersWf_execAgout (a : Agent) (w : Word) (s : State) (h : s.memWf) :
    answersWf (execAgout a w s) := answersWf_runInstr h fun n => leaves_onCore fun c t => by
  dsimp only
  repeat' split
  all_goals simp +contextual [h]

@[simp] theorem answersWf_execAtts (a : Agent) (w : Word) (s : State) (h : s.memWf) :
    answersWf (execAtts a w s) := answersWf_runInstr h fun n => leaves_onCore fun c t => by
  dsimp only
  split <;> simp +contextual (disch := simp +contextual [h]) [h]

@[simp] theorem answersWf_execAttv (a : Agent) (w : Word) (s : State) (h : s.memWf) :
    answersWf (execAttv a w s) := answersWf_runInstr h fun n => leaves_onCore fun c t => by
  dsimp only
  split <;> simp +contextual (disch := simp +contextual [h]) [h]

/-! ### Machine/Ordered.lean -/

@[simp] theorem answersWf_execQueueFlit (f : QueueFlit) (s : State) (h : s.memWf) :
    answersWf (execQueueFlit f s) := by simp [h, execQueueFlit]

@[simp] theorem answersWf_execAbsent (src : InOrder Nat) (peer incarnation joinEpoch : Nat) (s : State) (h : s.memWf) :
    answersWf (execAbsent src peer incarnation joinEpoch s) := by simp [h, execAbsent]

@[simp] theorem answersWf_execArrive (m : InOrder ArriveMsg) (s : State) (h : s.memWf) :
    answersWf (execArrive m s) := by simp [h, execArrive]

@[simp] theorem answersWf_execAbort (src : InOrder Nat) (group attempt step : Nat) (s : State) (h : s.memWf) :
    answersWf (execAbort src group attempt step s) := by simp [h, execAbort]

@[simp] theorem answersWf_execGflagMessage (src : InOrder Nat) (group attempt step : Nat) (flag aborted : Bool)
    (s : State) (h : s.memWf) :
    answersWf (execGflagMessage src group attempt step flag aborted s) := by simp [h, execGflagMessage]

@[simp] theorem answersWf_execRelaydrain (dst : InOrder Nat) (s : State) (h : s.memWf) :
    answersWf (execRelaydrain dst s) := by simp [h, execRelaydrain]

@[simp] theorem answersWf_execQcredit (src : InOrder Nat) (sendCore sendEp recvCore recvEp words : Nat) (s : State) (h : s.memWf) :
    answersWf (execQcredit src sendCore sendEp recvCore recvEp words s) := by simp [h, execQcredit]

@[simp] theorem answersWf_execQconfig (src : InOrder Nat) (core ep : Nat) (word : Word) (part : Nat) (answer : Bool)
    (s : State) (h : s.memWf) :
    answersWf (execQconfig src core ep word part answer s) := by simp [h, execQconfig]

@[simp] theorem answersWf_execQclose (src : InOrder Nat) (core ep peerCore peerEp words : Nat) (s : State) (h : s.memWf) :
    answersWf (execQclose src core ep peerCore peerEp words s) := by simp [h, execQclose]

@[simp] theorem answersWf_execRoutes (mask : InOrder (BitVec 8)) (s : State) (h : s.memWf) :
    answersWf (execRoutes mask s) := by simp [h, execRoutes]

/-! ### Machine/PowerStates.lean -/

@[simp] theorem answersWf_execNapEntry (s : State) (h : s.memWf) : answersWf (execNapEntry s) := by
  unfold execNapEntry
  repeat' split
  all_goals simp [h]

@[simp] theorem answersWf_execHold (s : State) (h : s.memWf) : answersWf (execHold s) := by
  unfold execHold
  split <;> simp [h]

@[simp] theorem answersWf_execHoldExit (s : State) (h : s.memWf) :
    answersWf (execHoldExit s) := by simp [h, execHoldExit]

@[simp] theorem answersWf_execSmbStatus (s : State) (h : s.memWf) :
    answersWf (execSmbStatus s) := by simp [h, execSmbStatus]

@[simp] theorem answersWf_execSmbPower (s : State) (h : s.memWf) :
    answersWf (execSmbPower s) := by simp [h, execSmbPower]

@[simp] theorem answersWf_execSmbVoltage (s : State) (h : s.memWf) :
    answersWf (execSmbVoltage s) := by simp [h, execSmbVoltage]

@[simp] theorem answersWf_execSmbTemp (s : State) (h : s.memWf) :
    answersWf (execSmbTemp s) := by simp [h, execSmbTemp]

@[simp] theorem answersWf_execSmbBoot (s : State) (h : s.memWf) :
    answersWf (execSmbBoot s) := by simp [h, execSmbBoot]

@[simp] theorem answersWf_execSmbWake (s : State) (h : s.memWf) :
    answersWf (execSmbWake s) := by simp [h, execSmbWake]

@[simp] theorem answersWf_execSmbHold (value : SmbWrite 8) (s : State) (h : s.memWf) :
    answersWf (execSmbHold value s) := by
  unfold execSmbHold
  split <;> simp (disch := simp [h])

@[simp] theorem answersWf_execSmbAlertResponse (s : State) (h : s.memWf) :
    answersWf (execSmbAlertResponse s) := by
  refine answersWf_onSmb h ?_
  split <;> simp [h]

@[simp] theorem answersWf_execSmbNak (code : Byte) (s : State) (h : s.memWf) :
    answersWf (execSmbNak code s) := by
  unfold execSmbNak
  split <;> simp [h]

/-! ### Machine/Serving.lean -/

@[simp] theorem answersWf_execBind (ctx req : Nat) (w0 : Word) (s : State) (h : s.memWf) :
    answersWf (execBind ctx req w0 s) := by simp [h, execBind]

@[simp] theorem answersWf_execEmit (ctx req : Nat) (w0 w1 : Word) (s : State) (h : s.memWf) :
    answersWf (execEmit ctx req w0 w1 s) := by simp [h, execEmit]

@[simp] theorem answersWf_execDraft (ctx req : Nat) (w0 w1 : Word) (s : State) (h : s.memWf) :
    answersWf (execDraft ctx req w0 w1 s) := by simp [h, execDraft]

@[simp] theorem answersWf_execAccept (ctx req : Nat) (w0 : Word) (s : State) (h : s.memWf) :
    answersWf (execAccept ctx req w0 s) := by simp [h, execAccept]

@[simp] theorem answersWf_execRollback (ctx req : Nat) (w0 : Word) (s : State) (h : s.memWf) :
    answersWf (execRollback ctx req w0 s) := by simp [h, execRollback]

@[simp] theorem answersWf_execPrefilled (ctx req : Nat) (w0 : Word) (s : State) (h : s.memWf) :
    answersWf (execPrefilled ctx req w0 s) := by simp [h, execPrefilled]

@[simp] theorem answersWf_execUnbind (ctx req : Nat) (w0 : Word) (s : State) (h : s.memWf) :
    answersWf (execUnbind ctx req w0 s) := by simp [h, execUnbind]

@[simp] theorem answersWf_execFail (ctx req : Nat) (w0 w1 : Word) (s : State) (h : s.memWf) :
    answersWf (execFail ctx req w0 w1 s) := by simp [h, execFail]

@[simp] theorem answersWf_execFetch (ctx : Nat) (w0 : Word) (s : State) (h : s.memWf) : answersWf (execFetch ctx w0 s) := by
  unfold execFetch
  split
  · exact memWf_servingEnd ctx h (leavesWf_dispatchResult (leavesWf_commitDispatch s ctx w0 h))
  · exact h

/-! ### Machine/Sessions.lean -/

@[simp] theorem answersWf_execContributionArrive (req : Nat) (corrupt : Bool) (s : State) (h : s.memWf) :
    answersWf (execContributionArrive req corrupt s) := by
  unfold execContributionArrive
  dsimp only
  repeat' split
  all_goals simp [h]

@[simp] theorem answersWf_execContributionResend (req : Nat) (s : State) (h : s.memWf) :
    answersWf (execContributionResend req s) := by
  unfold execContributionResend
  repeat' split
  all_goals simp [h]

@[simp] theorem answersWf_execUpdacc (a : Agent) (w : Word) (s : State) (h : s.memWf) :
    answersWf (execUpdacc a w s) :=
  answersWf_runInstr h fun n => leaves_onCore fun c t => leavesWf_afterSlot h (by
    dsimp only
    repeat' split
    all_goals simp +contextual [h, leavesWf_sendContribs])

@[simp] theorem answersWf_execUpdclose (a : Agent) (w : Word) (s : State) (h : s.memWf) :
    answersWf (execUpdclose a w s) := answersWf_runInstr h fun n => by
  dsimp only
  repeat' split
  all_goals simp [h]

@[simp] theorem answersWf_execSessionComplete (sess : Nat) (s : State) (h : s.memWf) :
    answersWf (execSessionComplete sess s) := by
  unfold execSessionComplete
  dsimp only
  repeat' split
  all_goals simp [h]

/-! ### Machine/Spdm.lean -/

@[simp] theorem answersWf_execDoeDiscovery (index : Nat) (s : State) (h : s.memWf) :
    answersWf (execDoeDiscovery index s) := by simp [h, execDoeDiscovery]

@[simp] theorem answersWf_execGetVersion (s : State) (h : s.memWf) :
    answersWf (execGetVersion s) := by simp [h, execGetVersion]

@[simp] theorem answersWf_execGetCapabilities (s : State) (h : s.memWf) :
    answersWf (execGetCapabilities s) := by simp (disch := simp [h]) [execGetCapabilities]

@[simp] theorem answersWf_execNegotiateAlgorithms (extAsym hash dhe aead : Bool) (s : State) (h : s.memWf) :
    answersWf (execNegotiateAlgorithms extAsym hash dhe aead s) :=
  by simp (disch := simp [h]) [execNegotiateAlgorithms]

@[simp] theorem answersWf_execGetDigests (s : State) (h : s.memWf) :
    answersWf (execGetDigests s) := by simp [h, execGetDigests]

@[simp] theorem answersWf_execGetCertificate (slot offset length : Nat) (s : State) (h : s.memWf) :
    answersWf (execGetCertificate slot offset length s) := by
  unfold execGetCertificate
  split <;> simp [h]

@[simp] theorem answersWf_execChallenge (slot : Nat) (nonce : List Byte) (s : State) (h : s.memWf) :
    answersWf (execChallenge slot nonce s) := by
  refine answersWf_onSpdm h ?_
  split
  · simp [h]
  · refine memWf_negotiated h ?_ 3
    split <;> simp [h]

@[simp] theorem answersWf_execGetMeasurements (index : Nat) (signed : Bool) (nonce : List Byte) (s : State) (h : s.memWf) :
    answersWf (execGetMeasurements index signed nonce s) := by
  refine answersWf_onSpdm h ?_
  split
  · simp [h]
  split
  · simp [h]
  · refine memWf_negotiated h ?_ 3
    repeat' split
    all_goals simp [h]

@[simp] theorem answersWf_execKeyExchange (slot : Nat) (k : KeyShare) (s : State) (h : s.memWf) :
    answersWf (execKeyExchange slot k s) := by
  refine answersWf_onSpdm h (memWf_secured h (memWf_negotiated h ?_ 3))
  dsimp only
  repeat' split
  all_goals simp [h]

@[simp] theorem answersWf_execFinish (mac : List Byte) (s : State) (h : s.memWf) :
    answersWf (execFinish mac s) := by
  refine answersWf_onSpdm h (memWf_secured h ?_)
  repeat' split
  all_goals simp [h]

@[simp] theorem answersWf_execKeyUpdate (s : State) (h : s.memWf) :
    answersWf (execKeyUpdate s) := by simp (disch := simp [h]) [execKeyUpdate]

@[simp] theorem answersWf_execHeartbeat (s : State) (h : s.memWf) :
    answersWf (execHeartbeat s) := by simp [h, execHeartbeat]

@[simp] theorem answersWf_execEndSession (s : State) (h : s.memWf) :
    answersWf (execEndSession s) := by simp (disch := simp [h]) [execEndSession]

@[simp] theorem memWf_runRequest (c : Instr) (s : State) (h : s.memWf) : (runRequest c s).memWf := by
  have kept : ∀ o : Host.Outcome State Fault Refusal, answersWf o → (match o with | .next t => t | _ => s).memWf := fun o after => by
    cases o with
    | next t => exact after
    | _ => exact h
  refine kept _ ?_
  split <;> simp [h]

@[simp] theorem answersWf_execChunkSend (handle seq : Nat) (last : Bool) (data : List Byte) (s : State) (h : s.memWf) :
    answersWf (execChunkSend handle seq last data s) := by
  refine answersWf_onSpdm h ?_
  dsimp only
  repeat' split
  all_goals simp [h]

@[simp] theorem answersWf_execChunkGet (handle seq : Nat) (s : State) (h : s.memWf) :
    answersWf (execChunkGet handle seq s) := by
  refine answersWf_onSpdm h ?_
  dsimp only
  repeat' split
  all_goals simp [h]

@[simp] theorem answersWf_execIdeKm (k : IdeKm) (s : State) (h : s.memWf) : answersWf (execIdeKm k s) := by
  unfold execIdeKm
  split <;> simp (disch := simp [h])

@[simp] theorem answersWf_execRecoveryInfo (s : State) (h : s.memWf) : answersWf (execRecoveryInfo s) := by
  refine answersWf_onSpdm h ?_
  split <;> simp [h]

@[simp] theorem answersWf_execUnsupportedRequest (_code : Nat) (s : State) (h : s.memWf) :
    answersWf (execUnsupportedRequest _code s) := by simp [h, execUnsupportedRequest]

/-! ### Machine/Vector.lean -/

@[simp] theorem answersWf_execVfn (a : Agent) (w : Word) (s : State) (h : s.memWf) :
    answersWf (execVfn a w s) := answersWf_runInstr h fun n => leaves_onCore fun c t => by
  dsimp only
  repeat' split
  all_goals simp +contextual [h]

@[simp] theorem answersWf_execCvt (a : Agent) (w : Word) (s : State) (h : s.memWf) : answersWf (execCvt a w s) :=
  answersWf_runInstr h fun n => leaves_onCore fun c t => by
    dsimp only
    split
    · trivial
    split
    · split
      · trivial
      split
      · simp [h]
      · refine leavesWf_guarded h fun s h => (leavesWf_doneEpe).mpr ?_
        split
        · exact memWf_setCore h (wf_spPut _ _ _ (getCore_wf h c))
        · simp [h]
    · trivial

@[simp] theorem answersWf_execVred (a : Agent) (w : Word) (s : State) (h : s.memWf) :
    answersWf (execVred a w s) := answersWf_runInstr h fun n => leaves_onCore fun c t => by
  dsimp only
  repeat' split
  all_goals simp +contextual [h]

@[simp] theorem answersWf_execVcmp (a : Agent) (w : Word) (s : State) (h : s.memWf) : answersWf (execVcmp a w s) :=
  answersWf_runInstr h fun n => leaves_onCore fun c t => by
    have written (o : Tile) (rows : List (List OutElem)) (s : State) (h : s.memWf) :
        (setCore s c (writeTile (getCore s c) o rows [])).memWf := memWf_setCore h (wf_writeTile _ _ _ _ (getCore_wf h c))
    dsimp only
    repeat' split
    all_goals simp +contextual [h, written]

@[simp] theorem answersWf_execPep (a : Agent) (w : Word) (s : State) (h : s.memWf) : answersWf (execPep a w s) :=
  answersWf_runInstr h fun n => leaves_onCore fun c t => by
    have written (o : Tile) (rows : List (List OutElem)) (s : State) (h : s.memWf) (x : Core) (same : x.sp = (getCore s c).sp) :
        (setCore s c (writeTile x o rows [])).memWf := memWf_setCore h (wf_writeTile _ _ _ _ (same ▸ getCore_wf h c))
    dsimp only
    repeat' split
    all_goals simp +contextual [h, written]

end Machine
end Sys2Proof
end

section
/-! Every step keeps the memories of the module and of its cores in canonical form (O56). -/
namespace Sys2Proof
namespace Machine

/-! ### Power off and the warm reset, which begin with an empty memory -/

theorem memWf_powerOff (s : State) : (powerOff s).memWf := ⟨rfl, fun _ at_ => absurd at_ List.not_mem_nil⟩

@[simp] theorem memWf_goOff (s : State) (h : s.memWf) : (goOff s).memWf := by
  unfold goOff
  split
  · exact h
  · exact memWf_powerOff _

@[simp] theorem memWf_warmSettings (s : State) : (warmSettings s).memWf ↔ s.memWf := .rfl

@[simp] theorem memWf_warmReset (s : State) (slot : Nat) (h : s.memWf) : (warmReset s slot).memWf := by
  unfold warmReset
  split
  · exact h
  · simp

/-! ### Registers with limits -/

@[simp] theorem memWf_writeHintCtl (s : State) (v : Nat) : (writeHintCtl s v).memWf ↔ s.memWf :=
  memWf_modMem s fun m => by
    dsimp only
    repeat' split
    all_goals rfl

@[simp] theorem memWf_globalWrite (w : RegWr) (s : State) : (globalWrite w s).memWf ↔ s.memWf := by
  unfold globalWrite
  split
  · exact memWf_onHalf fun v => memWf_modMem s fun _ => rfl
  · exact memWf_onHalf fun v => memWf_modMem s fun _ => rfl
  · exact memWf_onHalf fun v => memWf_modMem s fun _ => rfl
  · exact memWf_onHalf fun v => .rfl
  · rfl

@[simp] theorem memWf_powerWrite (w : RegWr) (s : State) : (powerWrite w s).memWf ↔ s.memWf := by
  unfold powerWrite
  split
  · exact memWf_onHalf fun v => .rfl
  · exact memWf_onHalf fun v => .rfl
  · exact (memWf_onHalf fun v => memWf_modPwr _ _).trans (memWf_onHalf fun v => (memWf_settleAlert _).trans (memWf_modPwr _ _))
  · exact (memWf_onHalf fun v => memWf_modPwr _ _).trans (memWf_onHalf fun v => memWf_modPwr _ _)
  · rfl

@[simp] theorem memWf_portsWrite (w : RegWr) (s : State) : (portsWrite w s).memWf ↔ s.memWf := by
  unfold portsWrite
  dsimp only
  split
  · rfl
  · split
    · exact (memWf_onHalf fun v => memWf_modPort _ _ _).trans (memWf_onHalf fun v => memWf_modPort _ _ _)
    · exact memWf_onHalf fun v => .rfl
    · rfl

@[simp] theorem memWf_rqWrite (p : Nat) (w : RegWr) (s : State) : (rqWrite p w s).memWf ↔ s.memWf := by
  unfold rqWrite
  dsimp only
  split
  · split <;> simp
  · refine (memWf_onHalf fun v => ?_).trans (memWf_onHalf fun v => ?_)
    all_goals split <;> simp
  · exact memWf_onHalf fun v => .rfl
  · rfl

theorem memWf_ite {c : Prop} [Decidable c] {s t : State} (yes : s.memWf) (no : t.memWf) : (if c then s else t).memWf := by
  split
  · exact yes
  · exact no

@[simp] theorem memWf_pfBasicWrite (w : RegWr) (s : State) (h : s.memWf) : (pfBasicWrite w s).memWf :=
  memWf_ite ((memWf_globalWrite w s).mpr h) (memWf_ite ((memWf_powerWrite _ s).mpr h)
    (memWf_ite (memWf_securityWrite _ s h) (memWf_ite ((memWf_errorWrite _ s).mpr h) h)))

@[simp] theorem memWf_pfFullWrite (w : RegWr) (s : State) (h : s.memWf) : (pfFullWrite w s).memWf :=
  memWf_ite h <| memWf_ite ((memWf_portsWrite _ s).mpr h) <| memWf_ite ((memWf_partWrite _ _ _ s).mpr h) <|
  memWf_ite h <| memWf_ite ((memWf_countersWrite _ s).mpr h) <| memWf_ite ((memWf_ctxWrite _ _ s).mpr h) <|
  memWf_ite ((memWf_rqWrite _ _ s).mpr h) <| memWf_ite h <| memWf_ite ((memWf_mdlWrite _ _ s).mpr h) <| memWf_ite h <|
  memWf_ite ((memWf_cmdWrite _ _ s).mpr h) <| memWf_ite h <| memWf_ite ((memWf_msixTableWrite _ _ s).mpr h) h

@[simp] theorem memWf_vfWrite (n : Nat) (w : RegWr) (s : State) (h : s.memWf) : (vfWrite n w s).memWf := by
  unfold vfWrite
  dsimp only
  split
  · exact (memWf_partWrite _ _ _ s).mpr h
  · exact (memWf_rqWrite _ _ s).mpr h
  · exact (memWf_mdlWrite _ _ s).mpr h
  · exact (memWf_cmdWrite _ _ s).mpr h
  · exact memWf_ite ((memWf_msixTableWrite _ _ s).mpr h) h

@[simp] theorem memWf_takeWrite (func : Nat) (w : RegWr) (s : State) (h : s.memWf) : (takeWrite func w s).memWf := by
  unfold takeWrite
  split
  · split <;> simp [h]
  · split <;> simp [h]

/-! ### Commands with limits, and the input -/

theorem answersWf_execRegisterWrite {s : State} (func off width : Nat) (v : Word) (h : s.memWf) :
    answersWf (execRegisterWrite func off width v s) := by
  unfold execRegisterWrite
  repeat' split
  all_goals simp [h]

theorem answersWf_execSmbCap {s : State} (v : Option (SmbWrite 16)) (h : s.memWf) : answersWf (execSmbCap v s) := by
  refine answersWf_onSmb h ?_
  cases v with
  | none => exact h
  | some v => exact memWf_smbTake h h _ _ _

theorem answersWf_execSmbWarm {s : State} (v : SmbWrite 8) (slot : Nat) (h : s.memWf) : answersWf (execSmbWarm v slot s) :=
  answersWf_onSmb h (memWf_smbTake h (memWf_ite (memWf_warmReset s slot h) h) _ _ _)

theorem answersWf_execWarm {s : State} (slot : Nat) (h : s.memWf) : answersWf (execWarm slot s) := by
  unfold execWarm
  split <;> simp [h]

theorem answersWf_execMatedNRise {s : State} (h : s.memWf) : answersWf (execMatedNRise s) := by
  unfold execMatedNRise
  split <;> simp [h]

theorem answersWf_execInputOutOfRange {s : State} (mv : Nat) (h : s.memWf) : answersWf (execInputOutOfRange mv s) := by
  unfold execInputOutOfRange
  dsimp only
  split
  · exact memWf_ite h h
  split
  · simp [h]
  split <;> simp [h]

theorem answersWf_execInputCollapse {s : State} (h : s.memWf) : answersWf (execInputCollapse s) := by
  unfold execInputCollapse
  split
  · exact memWf_ite h h
  · simp [h]

/-! ### Steps -/

/-- Every command keeps the form: it writes memory and scratchpads by runs of bytes, or empties them. -/
theorem answersWf_exec (i : Instr) {s : State} (h : s.memWf) : answersWf (exec i s) := by
  cases i with
  | hintCtlWrite v => exact (memWf_writeHintCtl s _).mpr h
  | registerWrite func off width v => exact answersWf_execRegisterWrite func off width v h
  | smbCap v => exact answersWf_execSmbCap v h
  | smbWarm v slot => exact answersWf_execSmbWarm v slot h
  | warm slot => exact answersWf_execWarm slot h
  | matedNRise => exact answersWf_execMatedNRise h
  | inputOutOfRange mv => exact answersWf_execInputOutOfRange mv h
  | inputCollapse => exact answersWf_execInputCollapse h
  | _ => simp [exec, h]

@[simp] theorem memWf_ticked (s : State) : (ticked s).memWf ↔ s.memWf := .rfl
@[simp] theorem memWf_chargeTick (s : State) : (chargeTick s).memWf ↔ s.memWf := .rfl
@[simp] theorem memWf_diesTick (s : State) : (diesTick s).memWf ↔ s.memWf := memWf_foldl_iff _ _ memWf_dieTick

theorem memWf_idleTick {s : State} (h : s.memWf) : (idleTick s).memWf := by
  cases off : s.pwr.off with
  | true => rwa [idleTick_off off]
  | false =>
    cases halted : s.recov.fatal || s.pwr.inHold with
    | true =>
      rw [idleTick_halted off halted]
      exact (memWf_foldl_iff _ _ memWf_pllOffTick).mpr h
    | false =>
      have begun : (endSpeedTest (pumpBells (endRestarts (ticked s)))).memWf :=
        memWf_endSpeedTest _ (memWf_pumpBells _ (memWf_endRestarts _ h))
      rw [idleTick_runs off halted]
      simp [begun]

/-- Settles O56: a tick keeps the form, and so does every command. -/
theorem memoryCanonicalKept : Obligations.MemoryCanonicalKept := by
  intro s t h ran
  unfold step at ran
  split at ran
  · cases ran
    exact memWf_idleTick h
  next i rest _ =>
    have left := answersWf_exec i (s := { s with pending := rest }) h
    rwa [ran] at left

end Machine
end Sys2Proof
end

section
/-! The frame of a command of a partition's ring (R357 to R360, R373, R419 to R421): what its read leaves as it was, and what its
completion does to the ring. -/
namespace Sys2Proof
namespace Machine

open Host

/-! ### What the read of a command leaves (R419, R420) -/

/-- What a command's fields and its conditions are read from. -/
def ringView (s : State) : List Cell × Nat × Tbl Ctx × Tbl Part × Sec := (s.mem.cells, s.mem.hintGroups, s.ctxs, s.parts, s.sec)

theorem ringView_fwGrain (s : State) (a : Nat) : ringView (fwGrain s a).2.2 = ringView s := by
  unfold fwGrain
  split
  · unfold readHost
    dsimp only
    split <;> rfl
  · split <;> rfl

theorem ringView_fwFetch (s : State) (pa n : Nat) : ringView (fwFetch s pa n).2.2 = ringView s :=
  foldl_keeps (p := fun r : List Byte × Bool × State => ringView r.2.2)
    (f := fun r i => (r.1 ++ (fwGrain r.2.2 ((pa / 256 + i) * 256)).1, r.2.1 || (fwGrain r.2.2 ((pa / 256 + i) * 256)).2.1,
      (fwGrain r.2.2 ((pa / 256 + i) * 256)).2.2))
    (fun r _ => ringView_fwGrain r.2.2 _) _ _

theorem ringView_journal (s : State) (cc what subject : Nat) (complete : Bool) :
    ringView (journal s cc what subject complete) = ringView s := rfl

theorem ringView_takeTurn (s : State) (p : Nat) : ringView (takeTurn s p) = ringView s := rfl

theorem ringView_fetchEntry (s : State) (p : Nat) : ringView (fetchEntry s p).2 = ringView s := by
  simp only [fetchEntry, ringView_fwFetch]

theorem ringView_commandLogged (s : State) (p : Nat) : ringView (commandLogged s p) = ringView s := by
  rw [commandLogged, ringView_journal, ringView_takeTurn, ringView_fetchEntry]

section
variable (s : State) (p : Nat)

theorem ringView_commandLogged_fields : (commandLogged s p).mem.cells = s.mem.cells ∧
    (commandLogged s p).mem.hintGroups = s.mem.hintGroups ∧ (commandLogged s p).ctxs = s.ctxs ∧
    (commandLogged s p).parts = s.parts ∧ (commandLogged s p).sec = s.sec := by
  simpa [ringView] using ringView_commandLogged s p

@[simp] theorem getCtx_commandLogged (n : Nat) : getCtx (commandLogged s p) n = getCtx s n := by
  obtain ⟨-, -, ctxs, -, -⟩ := ringView_commandLogged_fields s p
  rw [getCtx, ctxs, getCtx]

@[simp] theorem getPart_commandLogged (q : Nat) : getPart (commandLogged s p) q = getPart s q := by
  obtain ⟨-, -, -, parts, -⟩ := ringView_commandLogged_fields s p
  rw [getPart, parts, getPart]

@[simp] theorem partEntry_commandLogged (q : Nat) : partEntry (commandLogged s p) q = partEntry s q := by
  obtain ⟨-, -, -, -, sec⟩ := ringView_commandLogged_fields s p
  rw [partEntry, sec, partEntry]

@[simp] theorem cmdWord_commandLogged (i : Nat) : cmdWord (commandLogged s p) p i = cmdWord s p i := by
  obtain ⟨cells, -, -, -, -⟩ := ringView_commandLogged_fields s p
  rw [cmdWord, fwWord, fwRead, cells, cmdEntryPa, getPart_commandLogged]
  rfl

@[simp] theorem cmdCtx_commandLogged : cmdCtx (commandLogged s p) p = cmdCtx s p := by simp [cmdCtx]

@[simp] theorem ctxInRange_commandLogged (n : Nat) : ctxInRange (commandLogged s p) p n = ctxInRange s p n := by simp [ctxInRange]

@[simp] theorem inWindows_commandLogged (q pa len : Nat) : inWindows (commandLogged s p) q pa len = inWindows s q pa len := by
  simp [inWindows]

@[simp] theorem mapFault_commandLogged (n a b c : Nat) : mapFault (commandLogged s p) p n a b c = mapFault s p n a b c := by
  obtain ⟨-, groups, -, -, -⟩ := ringView_commandLogged_fields s p
  simp only [mapFault, mapPageFault, getCtx_commandLogged, inWindows_commandLogged, groups]

end

/-! ### A command that firmware takes (R373, R420) -/

/-- What a command's end leaves: its completion, or nothing yet. -/
def commandEnds (p : Nat) : CmdEnd → State
  | .done s result detail => pumpBells (cmdComplete s p result detail)
  | .wait s => pumpBells s

section
variable {s : State} {p op : Nat} {body : State → CmdEnd} (ready : cmdReady s p = true) (sound : (fetchEntry s p).1 = false)
  (named : cmdWord s p 0 / 2 ^ 56 = op)
include ready sound named

theorem runCommand_eq : runCommand op p body s =
    if cmdFieldsOk (commandLogged s p) p op then .next (commandEnds p (body (commandLogged s p)))
    else .next (pumpBells (cmdComplete (commandLogged s p) p crBadArg 0)) := by
  have stays : ¬ (!(fetchEntry s p).1 && cmdWord s p 0 / 2 ^ 56 != op) = true := by
    rw [named]
    simp
  unfold runCommand
  rw [if_neg (by simp [ready]), if_neg stays]
  simp only [sound, Bool.false_eq_true, if_false]
  cases ok : cmdFieldsOk (commandLogged s p) p op with
  | true =>
    rw [commandLogged] at ok
    simp only [ok, Bool.not_true, Bool.false_eq_true, if_false, if_true, commandLogged]
    cases body _ <;> rfl
  | false =>
    rw [commandLogged] at ok
    simp only [ok, Bool.not_false, if_true, Bool.false_eq_true, if_false, commandLogged]

theorem runCommand_badFields (bad : cmdFieldsOk (commandLogged s p) p op = false) :
    runCommand op p body s = .next (pumpBells (cmdComplete (commandLogged s p) p crBadArg 0)) := by
  rw [runCommand_eq ready sound named, bad]
  rfl

end

theorem runCommand_commanded {s : State} {p op : Nat} {body : State → CmdEnd} (commanded : Commanded s p op) :
    runCommand op p body s = .next (commandEnds p (body (commandLogged s p))) := by
  obtain ⟨ready, sound, named, fields⟩ := commanded
  rw [runCommand_eq ready sound named, if_pos fields]

/-- A command of the ring on a context in the partition's range. -/
theorem onCtx_inRange {s : State} {p n : Nat} {f : Nat → CmdEnd} (ctx : n = cmdCtx s p) (within : ctxInRange s p n = true) :
    onCtx s p f = f n := by
  subst ctx
  exact if_pos within

theorem firstWork_of_nextTurn {s : State} {p : Nat} {w : Option Instr} (next : nextTurn s = some (p, w)) : firstWork s p = some w := by
  obtain ⟨i, -, found⟩ := List.exists_of_findSome?_eq_some next
  obtain ⟨v, work, eq⟩ := Option.map_eq_some_iff.mp found
  cases eq
  exact work

theorem accepting_of_firstWork {s : State} {p : Nat} {w : Option Instr} (work : firstWork s p = some w) : accepting s p = true := by
  unfold firstWork at work
  dsimp only at work
  split at work
  · cases work
  next free => simp only [Bool.or_eq_true, Bool.not_eq_true'] at free; simpa using mt (fun no => Or.inl (Or.inl no)) free

/-- A partition whose command is ready accepts commands, so none of its CREATEs is barred (R358, log 148). -/
theorem createBarred_of_cmdReady {s : State} {p : Nat} (ready : cmdReady s p = true) : createBarred s p = false := by
  simp only [cmdReady, Bool.and_eq_true, beq_iff_eq] at ready
  have accepts := accepting_of_firstWork (firstWork_of_nextTurn ready.2)
  simp only [accepting, Bool.and_eq_true, Bool.not_eq_true'] at accepts
  simp [createBarred, accepts]

/-! ### Writes by firmware (R205, R414)

A write by firmware reaches memory, the link and the lines that the host may hold, and nothing else: what these three leave, it
leaves. -/

section
variable {α : Type*} {p : State → α} (memory : ∀ s m, p { s with mem := m } = p s) (emitted : ∀ s o, p (emit s o) = p s)
  (snooped : ∀ s f, p (snoopLines s f) = p s)
include memory

theorem storeGrain_keeps (s : State) (pa : Nat) (data : List Byte) (tag : GrainTag) : p (storeGrain s pa data tag) = p s := memory s _

theorem modMem_keeps (s : State) (f : Mem → Mem) : p (modMem s f) = p s := memory s _

include snooped

theorem putServed_keeps (s : State) (pa : Nat) (data : List Byte) (tag : GrainTag) : p (putServed s pa data tag) = p s := by
  unfold putServed
  split
  · exact modMem_keeps memory s _
  · exact (storeGrain_keeps memory _ _ _ _).trans (snooped s _)

theorem writeGrain_keeps (s : State) (pa : Nat) (data : List Byte) (tag : GrainTag) : p (writeGrain s pa data tag) = p s := by
  unfold writeGrain
  split
  · exact putServed_keeps memory snooped s _ _ _
  · exact (putServed_keeps memory snooped _ _ _ _).trans (putServed_keeps memory snooped s _ _ _)

theorem mergeGrain_keeps (s : State) (pa off : Nat) (bs : List Byte) (poison : Bool) : p (mergeGrain s pa off bs poison) = p s := by
  unfold mergeGrain mergeAs
  dsimp only
  split
  · exact (modMem_keeps memory _ _).trans (writeGrain_keeps memory snooped s _ _ _)
  · exact writeGrain_keeps memory snooped s _ _ _

theorem fwWriteTags_keeps (fuel : Nat) (s : State) (pa : Nat) (bs : List Byte) : p (fwWriteTags s pa bs fuel) = p s := by
  induction fuel generalizing s pa bs with
  | zero => rfl
  | succ fuel ih =>
    cases bs with
    | nil => rfl
    | cons b bs => exact (ih _ _ _).trans (mergeGrain_keeps memory snooped s _ _ _ _)

include emitted

theorem fwWrite_keeps (s : State) (pa : Nat) (bs : List Byte) : p (fwWrite s pa bs) = p s := by
  unfold fwWrite
  split
  · unfold emitHostWrite
    dsimp only
    refine (emitted _ _).trans ?_
    split
    · exact memory s _
    · exact (emitted _ _).trans (memory s _)
  · exact fwWriteTags_keeps memory snooped _ s pa bs

end

/-! ### The completion of a command (R414, R420) -/

/-- Of a partition's command ring: its completions and its HEAD. -/
def ringMarks (p : Nat) (s : State) : Nat × Nat := ((getPart s p).cmdCompleted, (getPart s p).cmdHead)

/-- Neither a line that the host may hold nor a back-invalidate that it has to answer (R414). -/
def noLines (s : State) : Prop := s.host.snoop = [] ∧ s.host.biLines = []

/-- What decides whether firmware goes on: the marks of a ring, the journals' core, and the writes that wait. -/
def ringRuns (p : Nat) (s : State) : (Nat × Nat) × (Nat → Bool) × List FwWait × Prop :=
  (ringMarks p s, coreStops s, s.host.fwWaits, noLines s)

theorem foldl_biSnoop (ls : List Nat) (s : State) :
    ls.foldl (fun s l => emit s (.biSnoop l)) s = { s with out := s.out ++ ls.map Out.biSnoop } := by
  induction ls generalizing s with
  | nil => simp
  | cons l ls ih =>
    rw [List.foldl_cons, ih]
    simp [emit]

theorem snoopLines_eq (s : State) (f : Nat → Bool) : snoopLines s f =
    { s with
      out := s.out ++ (s.host.snoop.filter f).map Out.biSnoop
      host := { s.host with
        bisnp := s.host.bisnp + (s.host.snoop.filter f).length, snoop := s.host.snoop.filter fun l => !f l
        biLines := s.host.biLines ++ s.host.snoop.filter f } } := by
  simp only [snoopLines, foldl_biSnoop]

theorem noLines_snoopLines (s : State) (f : Nat → Bool) : noLines (snoopLines s f) = noLines s := by
  simp only [noLines, snoopLines_eq, eq_iff_iff]
  constructor
  · rintro ⟨stay, lines⟩
    obtain ⟨gone, left⟩ := List.append_eq_nil_iff.mp lines
    refine ⟨List.eq_nil_iff_forall_not_mem.mpr fun l at_ => ?_, gone⟩
    cases on : f l with
    | true => exact List.filter_eq_nil_iff.mp left l at_ on
    | false => exact List.filter_eq_nil_iff.mp stay l at_ (by simp [on])
  · rintro ⟨held, gone⟩
    simp [held, gone]

theorem ringMarks_modPart {p q : Nat} {s : State} {f : Part → Part}
    (kept : ∀ x : Part, (f x).cmdCompleted = x.cmdCompleted ∧ (f x).cmdHead = x.cmdHead) :
    ringMarks p (modPart s q f) = ringMarks p s := by
  by_cases same : q = p
  · subst same
    simp [ringMarks, kept]
  · simp [ringMarks, getPart_modPart_ne _ _ _ _ same]

theorem ringMarks_msixRequest (p : Nat) (s : State) (q vec : Nat) (teardown : Bool) :
    ringMarks p (msixRequest s q vec teardown) = ringMarks p s := by
  unfold msixRequest
  split
  · exact ringMarks_modPart fun _ => ⟨rfl, rfl⟩
  · rfl

theorem ringRuns_setJournal (p : Nat) (s : State) (cc : Nat) (l : List JournalEntry) : ringRuns p (setJournal s cc l) = ringRuns p s := rfl

theorem ringRuns_journal (p : Nat) (s : State) (cc what subject : Nat) (complete : Bool) :
    ringRuns p (journal s cc what subject complete) = ringRuns p s := rfl

theorem ringRuns_listEffects (p : Nat) (s : State) (cc : Nat) (acts : List FwAct) : ringRuns p (listEffects s cc acts) = ringRuns p s := by
  unfold listEffects
  dsimp only
  rw [ringRuns_setJournal]
  split
  · split
    · rfl
    · exact ringRuns_journal p s cc 8 0 true
  · exact ringRuns_journal p s cc 8 0 true

theorem ringRuns_fwWrite (p : Nat) (s : State) (pa : Nat) (bs : List Byte) : ringRuns p (fwWrite s pa bs) = ringRuns p s := by
  refine fwWrite_keeps (fun _ _ => rfl) (fun _ _ => rfl) (fun s f => ?_) s pa bs
  rw [ringRuns, noLines_snoopLines, snoopLines_eq]
  rfl

theorem ringMarks_of_ringRuns {p : Nat} {s t : State} (same : ringRuns p t = ringRuns p s) : ringMarks p t = ringMarks p s :=
  congrArg Prod.fst same

theorem ringMarks_advanceRing (s : State) (p : Nat) :
    ringMarks p (advanceRing s p) = ((ringMarks p s).1, ((ringMarks p s).2 + 1) % 2 ^ 32) := by
  have advanced : ringMarks p (modPart s p fun x => { x with cmdHead := (x.cmdHead + 1) % 2 ^ 32 }) =
      ((ringMarks p s).1, ((ringMarks p s).2 + 1) % 2 ^ 32) := by simp [ringMarks]
  unfold advanceRing
  dsimp only
  split
  · rw [ringMarks_msixRequest, advanced]
  · exact advanced

theorem cmdCompleted_advanceRing (s : State) (p q : Nat) : (ringMarks p (advanceRing s q)).1 = (ringMarks p s).1 := by
  by_cases same : q = p
  · rw [same, ringMarks_advanceRing]
  · have other : ringMarks p (modPart s q fun x => { x with cmdHead := (x.cmdHead + 1) % 2 ^ 32 }) = ringMarks p s := by
      simp [ringMarks, getPart_modPart_ne _ _ _ _ same]
    unfold advanceRing
    dsimp only
    split
    · rw [ringMarks_msixRequest, other]
    · rw [other]

/-- Effects of firmware complete no command. -/
theorem cmdCompleted_runActs (p cc num : Nat) (acts : List FwAct) (s : State) :
    (ringMarks p (runActs cc num acts s).1).1 = (ringMarks p s).1 := by
  induction acts generalizing s with
  | nil => rfl
  | cons a acts ih =>
    cases a with
    | write pa bs =>
      have wrote : (ringMarks p (fwWrite s pa bs)).1 = (ringMarks p s).1 :=
        congrArg Prod.fst (ringMarks_of_ringRuns (ringRuns_fwWrite p s pa bs))
      unfold runActs
      dsimp only
      split
      · exact (ih _).trans wrote
      · exact wrote
    | head q => exact (ih _).trans (cmdCompleted_advanceRing s p q)
    | msix q v => exact (ih _).trans (congrArg Prod.fst (ringMarks_msixRequest p s q v false))

theorem cmdCompleted_fwDo (p : Nat) (s : State) (cc : Nat) (acts : List FwAct) :
    (ringMarks p (fwDo s cc acts)).1 = (ringMarks p s).1 := by
  have listed : (ringMarks p (listEffects s cc acts)).1 = (ringMarks p s).1 :=
    congrArg Prod.fst (ringMarks_of_ringRuns (ringRuns_listEffects p s cc acts))
  have ran := (cmdCompleted_runActs p cc (newestEntry (listEffects s cc acts) cc) acts (listEffects s cc acts)).trans listed
  unfold fwDo
  dsimp only
  split
  · exact listed
  · split
    all_goals
      next ended =>
        rw [ended] at ran
        exact ran

theorem cmdCompleted_cmdComplete (s : State) (p result detail : Nat) :
    (getPart (cmdComplete s p result detail) p).cmdCompleted = (getPart s p).cmdCompleted + 1 := by
  have noted : (ringMarks p (modPart (journalDone s 0 7 (cmdSubject s p)) p fun x =>
      { x with cmdCompleted := x.cmdCompleted + 1, destroyWait := none })).1 = (getPart s p).cmdCompleted + 1 := by
    simp [ringMarks, journalDone, setJournal, getPart]
  exact (cmdCompleted_fwDo p _ 0 _).trans noted

/-- A write and the HEAD after it are made at once by a core that runs, with nothing that waits and no line that the host may hold. -/
theorem cmdHead_fwDo {s : State} (p pa : Nat) (bs : List Byte) (runs : coreStops s 0 = false) (idle : s.host.fwWaits = [])
    (clear : noLines s) :
    (getPart (fwDo s 0 [.write pa bs, .head p]) p).cmdHead = ((getPart s p).cmdHead + 1) % 2 ^ 32 := by
  have listed := ringRuns_listEffects p s 0 [.write pa bs, .head p]
  have wrote := (ringRuns_fwWrite p (listEffects s 0 [.write pa bs, .head p]) pa bs).trans listed
  simp only [ringRuns, Prod.mk.injEq] at listed wrote
  obtain ⟨-, stops, waits, -⟩ := listed
  obtain ⟨marks, -, -, lines⟩ := wrote
  have lines : noLines (fwWrite (listEffects s 0 [.write pa bs, .head p]) pa bs) := lines ▸ clear
  unfold fwDo
  simp only [stops, runs, waits, idle, List.any_nil, Bool.or_self, Bool.false_eq_true, if_false]
  generalize listEffects s 0 [.write pa bs, .head p] = u at *
  have answered (num : Nat) : biRun (markEffect (fwWrite u pa bs) 0 num) pa bs.length = [] := by
    change (fwWrite u pa bs).host.biLines.filter _ = []
    rw [lines.2]
    rfl
  simp only [runActs, answered]
  have head := congrArg Prod.snd (ringMarks_advanceRing (markEffect (fwWrite u pa bs) 0 (newestEntry u 0)) p)
  exact head.trans (congrArg (fun m : Nat × Nat => (m.2 + 1) % 2 ^ 32) marks)

end Machine
end Sys2Proof
end

section
/-! The commands of the command ring, with what they complete with (O41). -/
namespace Sys2Proof
namespace Machine

open Host

/-- A teardown of a context that runs, waits or ends already leaves it ENDING, or as it was (R360, R361). -/
theorem state_beginTeardown_ne_ended {s : State} {n : Nat} (reason : Reason) (created : (getCtx s n).state ≠ ctxCreated)
    (ended : (getCtx s n).state ≠ ctxEnded) : (getCtx (beginTeardown s n reason) n).state ≠ ctxEnded := by
  change (lives (beginTeardown s n reason)).state n ≠ ctxEnded
  unfold beginTeardown
  dsimp only
  rw [if_neg created]
  split
  · exact ended
  · split
    all_goals
      simp only [lives_dropHubWork, lives_settleSteps, lives_foldl, lives_detachOne, lives_endRequest, lives_state_stopWork,
        implies_true]
      simp [lives, ctxEnding, ctxEnded]

theorem lives_recomputeEnt (s : State) : lives (recomputeEnt s) = lives s :=
  lives_foldl (f := fun s' p => _) _ s fun s' p => by
    dsimp only
    repeat' split
    all_goals rfl

theorem state_endTeardown (s : State) (n : Nat) : (getCtx (endTeardown s n) n).state = ctxEnded := by
  change (lives (endTeardown s n)).state n = ctxEnded
  unfold endTeardown
  dsimp only
  split
  · rw [lives_recomputeEnt]
    simp [lives]
  · split
    · simp only [lives_msixRequest, lives_modPart, lives_recomputeEnt]
      simp [lives]
    · simp only [lives_modPart, lives_recomputeEnt]
      simp [lives]

theorem state_beginTeardown_created {s : State} {n : Nat} (reason : Reason) (created : (getCtx s n).state = ctxCreated) :
    (getCtx (beginTeardown s n reason) n).state = ctxEnded := by
  have active : ctxActive (getCtx s n) = true := by simp [ctxActive, created]
  simp only [beginTeardown, active, if_pos created, Bool.not_true, Bool.false_eq_true, if_false]
  exact state_endTeardown _ n

theorem commandEnds_done (p : Nat) (s : State) (result detail : Nat) :
    commandEnds p (.done s result detail) = pumpBells (cmdComplete s p result detail) := rfl

theorem commandEnds_wait (p : Nat) (s : State) : commandEnds p (.wait s) = pumpBells s := rfl

section
variable {s : State} {p n : Nat}

/-! ### CREATE, RUN, DESTROY (R357, R358, R360) -/

section
variable (commanded : Commanded s p 1) (role : bits (cmdWord s p 6) 31 30 ≠ 3) (ctl : cmdWord s p 4 % 2 ^ 31 = 0)
  (ctx : n = cmdWord s p 1 % 4096)
include commanded role ctl ctx

theorem execCreate_creates (within : ctxInRange s p n = true)
    (ok : createOk (commandLogged s p) p n (bit (cmdWord s p 1) 12) (bits (cmdWord s p 1) 47 32) (cmdWord s p 2) (cmdWord s p 3) = true) :
    execCreate p s = .next (pumpBells (cmdComplete (
      let u := modCtx (retireEnergy (commandLogged s p) n) n fun x => createdCtx x p (bit (cmdWord s p 1) 12)
        (bits (cmdWord s p 1) 47 32) (bits (cmdWord s p 1) 31 16) (cmdWord s p 2) (cmdWord s p 3) (cmdWord s p 4) (cmdWord s p 5)
        (bits (cmdWord s p 6) 31 30)
      recomputeEnt (modCtx u n fun x => { x with pass := startPass u n })) p crOk 0)) := by
  have seed : cmdWord (retireEnergy (commandLogged s p) n) p 5 = cmdWord s p 5 := cmdWord_commandLogged s p 5
  have legal : ¬ (decide (bits (cmdWord s p 6) 31 30 = 3) || cmdWord s p 4 % 2 ^ 31 != 0) = true := by rw [ctl]; simp [role]
  rw [execCreate, if_neg (by simp [createBarred_of_cmdReady commanded.1]), runCommand_commanded commanded]
  subst ctx
  simp only [cmdWord_commandLogged, ctxInRange_commandLogged, if_neg legal, within, ok, seed, Bool.not_true, Bool.false_eq_true,
    if_false, commandEnds_done]

theorem execCreate_outside (outside : ctxInRange s p n = false) :
    execCreate p s = .next (pumpBells (cmdComplete (modPart (commandLogged s p) p fun x => { x with createRefused := true }) p
      crNoWindow 0)) := by
  have legal : ¬ (decide (bits (cmdWord s p 6) 31 30 = 3) || cmdWord s p 4 % 2 ^ 31 != 0) = true := by rw [ctl]; simp [role]
  rw [execCreate, if_neg (by simp [createBarred_of_cmdReady commanded.1]), runCommand_commanded commanded]
  subst ctx
  simp only [cmdWord_commandLogged, ctxInRange_commandLogged, if_neg legal, outside, Bool.not_false, if_true, refuseCreate,
    commandEnds_done]

end

theorem onCtx_commandLogged {f : Nat → CmdEnd} (ctx : n = cmdCtx s p) (within : ctxInRange s p n = true) :
    onCtx (commandLogged s p) p f = f n := by
  refine onCtx_inRange ?_ ?_
  · rw [cmdCtx_commandLogged, ctx]
  · rw [ctxInRange_commandLogged, within]

theorem execRun_starts (commanded : Commanded s p 2) (aligned : cmdWord s p 2 % 8 = 0) (space : cmdWord s p 2 < 2 ^ 48)
    (ctx : n = cmdCtx s p) (within : ctxInRange s p n = true) (created : (getCtx s n).state = ctxCreated) :
    execRun p s = .next (pumpBells (cmdComplete (modCtx (commandLogged s p) n fun x => { x with
      state := ctxLive
      ctl := { Control.reset with codeVa := cmdWord s p 2, thr := { Thread.reset with st := .runnable } } }) p crOk 0)) := by
  have legal : ¬ (cmdWord s p 2 % 8 != 0 || decide (2 ^ 48 ≤ cmdWord s p 2)) = true := by
    rw [aligned]
    simpa using space
  rw [execRun, runCommand_commanded commanded]
  simp only [cmdWord_commandLogged, if_neg legal, onCtx_commandLogged ctx within, getCtx_commandLogged, created, bne_self_eq_false,
    Bool.false_eq_true, if_false, commandEnds_done]

section
variable (commanded : Commanded s p 3) (ctx : n = cmdCtx s p) (within : ctxInRange s p n = true)
include commanded ctx within

theorem execDestroy_eq : execDestroy p s = .next (commandEnds p (
    let t := commandLogged s p
    if (getCtx s n).state = ctxFree then .done t crRefused 0
    else if (getCtx s n).state = ctxEnded then .done t crOk 0
    else if (getCtx (beginTeardown t n (some 0xF0)) n).state = ctxEnded then .done (beginTeardown t n (some 0xF0)) crOk 0
    else .wait (modPart (beginTeardown t n (some 0xF0)) p fun x => { x with destroyWait := some n }))) := by
  rw [execDestroy, runCommand_commanded commanded, onCtx_commandLogged ctx within]
  simp only [getCtx_commandLogged]

theorem execDestroy_waits (free : (getCtx s n).state ≠ ctxFree) (ended : (getCtx s n).state ≠ ctxEnded)
    (created : (getCtx s n).state ≠ ctxCreated) :
    execDestroy p s = .next (pumpBells (modPart (beginTeardown (commandLogged s p) n (some 0xF0)) p fun x =>
      { x with destroyWait := some n })) := by
  have goesOn := state_beginTeardown_ne_ended (some 0xF0) (s := commandLogged s p) (n := n) (by simpa) (by simpa)
  rw [execDestroy_eq commanded ctx within]
  simp only [if_neg free, if_neg ended, if_neg goesOn, commandEnds_wait]

theorem execDestroy_created (created : (getCtx s n).state = ctxCreated) :
    execDestroy p s = .next (pumpBells (cmdComplete (beginTeardown (commandLogged s p) n (some 0xF0)) p crOk 0)) ∧
      (getCtx (beginTeardown (commandLogged s p) n (some 0xF0)) n).state = ctxEnded := by
  have ends := state_beginTeardown_created (some 0xF0) (s := commandLogged s p) (n := n) (by simpa)
  have free : (getCtx s n).state ≠ ctxFree := by rw [created]; decide
  have ended : (getCtx s n).state ≠ ctxEnded := by rw [created]; decide
  refine ⟨?_, ends⟩
  rw [execDestroy_eq commanded ctx within]
  simp only [if_neg free, if_neg ended, if_pos ends, commandEnds_done]

theorem execDestroy_free (free : (getCtx s n).state = ctxFree) :
    execDestroy p s = .next (pumpBells (cmdComplete (commandLogged s p) p crRefused 0)) := by
  rw [execDestroy_eq commanded ctx within]
  simp only [if_pos free, commandEnds_done]

end

/-! ### MAP, UNMAP, POST (R420, R421) -/

section
variable (va : cmdWord s p 2 % mapPage (cmdWord s p 4) = 0) (vaSpace : cmdWord s p 2 < 2 ^ 48)
  (pa : cmdWord s p 3 % mapPage (cmdWord s p 4) = 0) (paSpace : cmdWord s p 3 < 2 ^ 48)
  (hint : bit (cmdWord s p 4) 34 = false → bits (cmdWord s p 4) 37 35 = 0)
include va vaSpace pa paSpace hint

theorem map_legal : ¬ (cmdWord s p 2 % mapPage (cmdWord s p 4) != 0 || decide (2 ^ 48 ≤ cmdWord s p 2) ||
    cmdWord s p 3 % mapPage (cmdWord s p 4) != 0 || decide (2 ^ 48 ≤ cmdWord s p 3) ||
    (!bit (cmdWord s p 4) 34 && bits (cmdWord s p 4) 37 35 != 0)) = true := by
  rw [va, pa]
  simpa using And.intro (And.intro vaSpace paSpace) hint

section
variable (commanded : Commanded s p 4) (ctx : n = cmdCtx s p) (within : ctxInRange s p n = true)
  (active : ctxActive (getCtx s n) = true)
include commanded ctx within active

theorem execMap_maps (fits : mapFault s p n (cmdWord s p 2) (cmdWord s p 3) (cmdWord s p 4) = none)
    (pages : cmdWord s p 4 % 2 ^ 32 ≠ 0) :
    execMap p s = .next (pumpBells (cmdComplete (
      let m : Mapping := ⟨cmdWord s p 2, cmdWord s p 3, cmdWord s p 4 % 2 ^ 32 * mapPage (cmdWord s p 4), bit (cmdWord s p 4) 33, false⟩
      modCtx (commandLogged s p) n fun x => { x with maps := x.maps ++ [m] }) p crOk 0)) := by
  rw [execMap, runCommand_commanded commanded]
  simp only [cmdWord_commandLogged, if_neg (map_legal va vaSpace pa paSpace hint), onCtx_commandLogged ctx within,
    getCtx_commandLogged, active, mapFault_commandLogged, fits, if_neg pages, Bool.not_true, Bool.false_eq_true, if_false,
    commandEnds_done]

theorem execMap_fails {r i : Nat} (fails : mapFault s p n (cmdWord s p 2) (cmdWord s p 3) (cmdWord s p 4) = some (r, i)) :
    execMap p s = .next (pumpBells (cmdComplete (commandLogged s p) p r i)) := by
  rw [execMap, runCommand_commanded commanded]
  simp only [cmdWord_commandLogged, if_neg (map_legal va vaSpace pa paSpace hint), onCtx_commandLogged ctx within,
    getCtx_commandLogged, active, mapFault_commandLogged, fails, Bool.not_true, Bool.false_eq_true, if_false, commandEnds_done]

end

end

theorem execUnmap_unmaps (commanded : Commanded s p 5) (ctx : n = cmdCtx s p) (within : ctxInRange s p n = true)
    (active : ctxActive (getCtx s n) = true) (va : cmdWord s p 2 % mapPage (cmdWord s p 4) = 0) (space : cmdWord s p 2 < 2 ^ 48) :
    execUnmap p s = .next (pumpBells (cmdComplete (
      let f := mapOutside (cmdWord s p 2) (cmdWord s p 2 + cmdWord s p 4 % 2 ^ 32 * mapPage (cmdWord s p 4))
      modCtx (commandLogged s p) n fun x => { x with maps := x.maps.flatMap f }) p crOk 0)) := by
  have legal : ¬ (cmdWord s p 2 % mapPage (cmdWord s p 4) != 0 || decide (2 ^ 48 ≤ cmdWord s p 2)) = true := by
    rw [va]
    simpa using space
  rw [execUnmap, runCommand_commanded commanded]
  simp only [cmdWord_commandLogged, if_neg legal, onCtx_commandLogged ctx within, getCtx_commandLogged, active, Bool.not_true,
    Bool.false_eq_true, if_false, commandEnds_done]

theorem execPost_posts (commanded : Commanded s p 6) (ctx : n = cmdCtx s p) (within : ctxInRange s p n = true)
    (active : ctxActive (getCtx s n) = true) (least : 1 ≤ bits (cmdWord s p 4) 63 60) (most : bits (cmdWord s p 4) 63 60 ≤ 7) :
    execPost p s = .next (pumpBells (cmdComplete (mailAdd (commandLogged s p) n
      { source := postSource, kind := bits (cmdWord s p 4) 63 60, round := bits (cmdWord s p 4) 59 59,
        tag := bits (cmdWord s p 4) 56 53, poison := false, value := w64 (cmdWord s p 2) }) p crOk 0)) := by
  have legal : ¬ (decide (bits (cmdWord s p 4) 63 60 = 0) || decide (7 < bits (cmdWord s p 4) 63 60)) = true := by
    simp only [Bool.or_eq_true, decide_eq_true_eq]
    omega
  rw [execPost, runCommand_commanded commanded]
  simp only [cmdWord_commandLogged, if_neg legal, onCtx_commandLogged ctx within, getCtx_commandLogged, active, Bool.not_true,
    Bool.false_eq_true, if_false, commandEnds_done]

/-! ### Entries with a reserved OP or field (R6, R420) -/

section
variable {op : Nat} (ready : cmdReady s p = true) (sound : (fetchEntry s p).1 = false) (named : cmdWord s p 0 / 2 ^ 56 = op)
include ready sound named

theorem execReservedCommand_badArg (reserved : 6 < op) :
    execReservedCommand p s = .next (pumpBells (cmdComplete (commandLogged s p) p crBadArg 0)) := by
  unfold execReservedCommand
  dsimp only
  rw [named, if_neg (by omega), runCommand_eq ready sound named]
  split <;> rfl

theorem exec_badFields {i : Instr} (bad : cmdFieldsOk (commandLogged s p) p op = false)
    (listed : (i, op) ∈ [(Instr.cmdNop p, 0), (.create p, 1), (.run p, 2), (.destroy p, 3), (.map p, 4), (.unmap p, 5), (.post p, 6)]) :
    exec i s = .next (pumpBells (cmdComplete (commandLogged s p) p crBadArg 0)) := by
  simp only [List.mem_cons, List.not_mem_nil, or_false, Prod.mk.injEq] at listed
  rcases listed with ⟨rfl, rfl⟩ | ⟨rfl, rfl⟩ | ⟨rfl, rfl⟩ | ⟨rfl, rfl⟩ | ⟨rfl, rfl⟩ | ⟨rfl, rfl⟩ | ⟨rfl, rfl⟩
  all_goals
    simp only [exec, execCmdNop, execCreate, execRun, execDestroy, execMap, execUnmap, execPost, createBarred_of_cmdReady ready,
      runCommand_badFields ready sound named bad, Bool.false_eq_true, if_false]

end

end

theorem cmdHead_cmdComplete {s : State} (p result detail : Nat) (runs : coreStops s 0 = false) (idle : s.host.fwWaits = [])
    (clear : noLines s) :
    (getPart (cmdComplete s p result detail) p).cmdHead = ((getPart s p).cmdHead + 1) % 2 ^ 32 := by
  have noted : (getPart (modPart (journalDone s 0 7 (cmdSubject s p)) p fun x =>
      { x with cmdCompleted := x.cmdCompleted + 1, destroyWait := none }) p).cmdHead = (getPart s p).cmdHead := by
    rw [getPart_modPart]
    rfl
  have made := fun pa bs => cmdHead_fwDo (s := modPart (journalDone s 0 7 (cmdSubject s p)) p fun x =>
    { x with cmdCompleted := x.cmdCompleted + 1, destroyWait := none }) p pa bs runs idle clear
  exact (made _ _).trans (by rw [noted])

/-- Settles O41: each command is its body on the state with the entry read and in the journal, and the conditions are read from what
that read leaves as it was. -/
theorem ringCommands : Obligations.RingCommands :=
  ⟨fun _ _ commanded => runCommand_commanded (body := fun s => .done s crOk 0) commanded,
    fun _ _ _ commanded role ctl ctx within ok => execCreate_creates commanded role ctl ctx within ok,
    fun _ _ _ commanded role ctl ctx outside => execCreate_outside commanded role ctl ctx outside,
    fun _ _ _ commanded aligned space ctx within created => execRun_starts commanded aligned space ctx within created,
    fun _ _ _ commanded ctx within free ended created => execDestroy_waits commanded ctx within free ended created,
    fun _ _ _ commanded ctx within created => execDestroy_created commanded ctx within created,
    fun _ _ barred => if_pos barred,
    fun _ _ _ commanded ctx within free => execDestroy_free commanded ctx within free,
    fun _ _ _ commanded ctx within active va vaSpace pa paSpace hint fits pages =>
      execMap_maps va vaSpace pa paSpace hint commanded ctx within active fits pages,
    fun _ _ _ _ _ commanded ctx within active va vaSpace pa paSpace hint fails =>
      execMap_fails va vaSpace pa paSpace hint commanded ctx within active fails,
    fun _ _ _ commanded ctx within active va space => execUnmap_unmaps commanded ctx within active va space,
    fun _ _ _ commanded ctx within active least most => execPost_posts commanded ctx within active least most,
    fun _ _ _ ready sound named reserved => execReservedCommand_badArg ready sound named reserved,
    fun _ _ _ _ ready sound named bad listed => exec_badFields ready sound named bad listed,
    cmdCompleted_cmdComplete,
    fun _ p result detail runs idle snoop lines => cmdHead_cmdComplete p result detail runs idle ⟨snoop, lines⟩⟩

end Machine
end Sys2Proof
end

section
/-! ### Firmware's turns (O60) -/
namespace Sys2Proof
namespace Machine

/-- A partition whose first doorbell stands behind no command of its ring: the doorbell is its first work, unless its control core stops. -/
theorem firstWork_bell {s : State} {p k : Nat} {c : Instr} {l : List (Instr × Nat)} (hbells : (getPart s p).bells = (c, k) :: l)
    (hring : commandsBefore (getPart s p) k = false) :
    firstWork s p = if !accepting s p || (getPart s p).destroyWait.isSome || completing s p then none
      else if coreStops s (bellCore s c) then none else some (some c) := by
  simp [firstWork, hbells, hring]

/-- A partition whose ring holds commands that stood in it before its first doorbell: they are its first work. -/
theorem firstWork_ring {s : State} {p k : Nat} {c : Instr} {l : List (Instr × Nat)} (hbells : (getPart s p).bells = (c, k) :: l)
    (hring : commandsBefore (getPart s p) k = true) :
    firstWork s p = if !accepting s p || (getPart s p).destroyWait.isSome || completing s p then none
      else if coreStops s 0 then none else some none := by
  simp [firstWork, hbells, hring]

/-- In a list cut out of `range`, what stands before an element is all that is smaller. -/
theorem mem_front_of_range_eq {n a j : Nat} {front rest : List Nat} (h : List.range n = front ++ a :: rest) (hj : j < a) : j ∈ front := by
  have at_ : ∀ i (hi : i < (front ++ a :: rest).length), (front ++ a :: rest)[i] = i := fun i hi => by simp [← h]
  have ha := at_ front.length (by simp)
  rw [List.getElem_append_right (Nat.le_refl _)] at ha
  have hj' : j < front.length := by simp at ha; omega
  have := at_ j (by simp; omega)
  rw [List.getElem_append_left hj'] at this
  exact this ▸ List.getElem_mem hj'

/-- The rotation of R373: the turn is the first partition's, after the one served last, that has work. -/
theorem turn_of_nextTurn {s : State} {p : Nat} {w : Option Instr} (h : nextTurn s = some (p, w)) :
    ∃ i, i < 64 ∧ p = (s.host.turn + 1 + i) % 64 ∧ firstWork s p = some w ∧
      ∀ j, j < i → firstWork s ((s.host.turn + 1 + j) % 64) = none := by
  rw [nextTurn, List.findSome?_eq_some_iff] at h
  obtain ⟨front, i, rest, cut, found, before⟩ := h
  obtain ⟨work, rfl⟩ : firstWork s ((s.host.turn + 1 + i) % 64) = some w ∧ (s.host.turn + 1 + i) % 64 = p := by simpa using found
  have hi : i < 64 := by simpa [← cut] using (by simp : i ∈ front ++ i :: rest)
  refine ⟨i, hi, rfl, work, fun j hj => ?_⟩
  simpa using before j (mem_front_of_range_eq cut hj)

theorem firstWork_of_nextTurn_none {s : State} (h : nextTurn s = none) {p : Nat} (hp : p < 64) : firstWork s p = none := by
  simp only [nextTurn, List.findSome?_eq_none_iff, List.mem_range, Option.map_eq_none_iff] at h
  have turn := h ((p + 63 * (s.host.turn + 1)) % 64) (Nat.mod_lt _ (by decide))
  rwa [show (s.host.turn + 1 + (p + 63 * (s.host.turn + 1)) % 64) % 64 = p by omega] at turn

/-- Settles O60: the rotation is `findSome?` over the partitions after the one served last; the rest is `firstWork` case by case. -/
theorem firmwareTurns : Obligations.FirmwareTurns := by
  refine ⟨fun s p w => turn_of_nextTurn, fun s none p => firstWork_of_nextTurn_none none, ?_, ?_, ?_⟩
  · intro s p k c l accepts noDestroy done core0 core bells
    cases ring : commandsBefore (getPart s p) k with
    | true => simp [firstWork_ring bells ring, accepts, noDestroy, done, core0]
    | false => simp [firstWork_bell bells ring, accepts, noDestroy, done, core]
  · intro s p c busy
    simp [pumpBells, cmdReady, bellAtOnce, busy]
  · intro s p k c l bells ring core
    simp [firstWork_bell bells ring, core]

end Machine
end Sys2Proof
end

section
/-! ### HDM accesses (O44) -/
namespace Sys2Proof
namespace Machine

/-- No decoder covers an address at or beyond the end of tier 2. -/
theorem decoderOf_eq_none {pa : Nat} (h : tier2End ≤ pa) : decoderOf pa = none := by
  have base : tier2Base ≤ tier2End := by decide
  rw [decoderOf, if_neg (by omega), if_neg (by omega)]

/-- While the link is up, a read that no decoder covers is answered as one outside every window. -/
theorem hdmRead_undecoded {s : State} {pa : Nat} (up : hostUp s = true) (h : decoderOf pa = none) :
    exec (.hdmRead pa) s = .next (hdmOutside s pa none) := by
  simp [exec, execHdmRead, hdmAccess, up, h]

/-- While the link is up, a write that no decoder covers is answered as one outside every window. -/
theorem hdmWrite_undecoded {s : State} {pa : Nat} (bs : List Byte) (up : hostUp s = true) (h : decoderOf pa = none) :
    exec (.hdmWrite pa bs) s = .next (hdmOutside s pa (some bs)) := by
  simp [exec, execHdmWrite, hdmAccess, up, h]

section
variable {s : State} {pa d : Nat} (decoder : decoderOf pa = some d) (up : hostUp s = true)
  (committed : tget false s.host.committed d = true)
include decoder up committed

/-- A read of a committed decoder is served at an idle bank at once; at another it takes its place in the bank's queue. -/
theorem hdmRead_decoded : exec (.hdmRead pa) s = .next (if bankBusy s pa then
    queueAtBank s 1048 pa false [] (mkTag [] 0 0 false) .host else readLine s pa) := by
  simp [exec, execHdmRead, hdmAccess, hdmEnter, hdmServe, up, decoder, committed]

/-- A write of a committed decoder is served at an idle bank at once; at another it takes its place in the bank's queue. -/
theorem hdmWrite_decoded (bs : List Byte) : exec (.hdmWrite pa bs) s = .next (if bankBusy s pa then
    queueAtBank s 1048 pa true bs (mkTag [] 0 0 false) .host else emit (writeLine s pa bs) (.hdmDone (pa / 64 * 64))) := by
  simp [exec, execHdmWrite, hdmAccess, hdmEnter, hdmServe, up, decoder, committed]

end

/-- A line read outside every window answers zeros and is counted. -/
theorem readLine_outside {s : State} {pa : Nat} (h : partOfPa s (pa / 64 * 64) = none) :
    readLine s pa = emit (hdmDenied s) (.hdmData (pa / 64 * 64) (zeros 64) false) := by
  simp [readLine, h]

/-- A line read inside a window of a partition that does not reset, from a unit in service, answers the line and its poison. -/
theorem readLine_inside {s u : State} {pa p : Nat} {data : List Byte} {g : GrainTag} (part : partOfPa s (pa / 64 * 64) = some p)
    (noReset : (getPart s p).resetting = false) (unit : unitLost s (servePa s (pa / 64 * 64)) = false)
    (read : readGrain s (grainBase (pa / 64 * 64)) = (data, g, u)) :
    readLine s pa = emit (trackLine u (pa / 64 * 64 / 64)) (.hdmData (pa / 64 * 64) (slice data (pa / 64 * 64 % 256) 64) g.poison) := by
  simp [readLine, part, noReset, unit, read]

/-- A line written outside every window is dropped and counted. -/
theorem writeLine_outside {s : State} {pa : Nat} (data : List Byte) (h : partOfPa s (pa / 64 * 64) = none) :
    writeLine s pa data = hdmDenied s := by
  simp [writeLine, h]

/-- A line written inside a window of a partition that does not reset, to a unit in service, is merged into its grain. -/
theorem writeLine_inside {s : State} {pa p : Nat} (data : List Byte) (part : partOfPa s (pa / 64 * 64) = some p)
    (noReset : (getPart s p).resetting = false) (unit : unitLost s (pa / 64 * 64) = false) :
    writeLine s pa data = mergeLine s p (pa / 64 * 64) data := by
  simp [writeLine, part, noReset, unit]

end Machine

open Machine in
/-- Settles O44: the decoder first, then the bank, then the window of the line. -/
theorem hdmAccess : Obligations.HdmAccess := by
  refine ⟨?_, ?_, ?_, ?_, ?_, ?_, ?_, ?_, ?_, ?_⟩
  · exact fun s pa up beyond => hdmRead_undecoded up (decoderOf_eq_none beyond)
  · exact fun s pa bs up beyond => hdmWrite_undecoded bs up (decoderOf_eq_none beyond)
  · intro s pa d decoder up committed idle outside
    rw [hdmRead_decoded decoder up committed, idle, readLine_outside outside]
    rfl
  · intro s u pa d p data g decoder up committed idle part noReset unit read
    rw [hdmRead_decoded decoder up committed, idle, readLine_inside part noReset unit read]
    rfl
  · intro s pa d p bs decoder up committed idle part noReset unit
    rw [hdmWrite_decoded decoder up committed, idle, writeLine_inside bs part noReset unit]
    rfl
  · intro s pa d decoder up committed busy
    rw [hdmRead_decoded decoder up committed, busy]
    rfl
  · intro s pa d bs decoder up committed busy
    rw [hdmWrite_decoded decoder up committed, busy]
    rfl
  · intro s pa d bs decoder up committed idle outside
    rw [hdmWrite_decoded decoder up committed, idle, writeLine_outside bs outside]
    rfl
  · intro s d up hd
    simp [exec, execDecoderCommit, up, Nat.not_le.mpr hd]
  · intro s d w up hd ways
    simp [exec, execDecoderCommit, up, Nat.not_le.mpr hd, ways]

end Sys2Proof
end

section
/-! ### Function resets, the host link and PERST (O45) -/
namespace Sys2Proof
namespace Machine

/-- A key that no entry of a table has reads the default. -/
theorem tget_of_forall_ne {α : Type} {d : α} {t : Tbl α} {k : Nat} (h : ∀ e ∈ t, e.1 ≠ k) : tget d t k = d := by
  induction t with
  | nil => rfl
  | cons e t ih =>
    obtain ⟨i, v⟩ := e
    rw [tget, if_neg (h (i, v) List.mem_cons_self), ih fun e he => h e (List.mem_cons_of_mem _ he)]

/-- A function that is cleared has MSI-X off. -/
theorem msixOn_clearFunctions {s : State} {f : Nat} {l : List Nat} (hf : f ∈ l) :
    tget false (clearFunctions s l).host.msixOn f = false := by
  refine tget_of_forall_ne fun e he same => ?_
  have kept : e.1 ∉ l := by simpa using (List.mem_filter.mp he).2
  exact kept (same ▸ hf)

/-- What is left of the host's side once the link has lost its configuration: nothing of the link, and all of partitions and memory
but the host's own requests. -/
theorem loseConfig_fields (s : State) : (loseConfig s).host.up = false ∧ (loseConfig s).host.committed = [] ∧
    (loseConfig s).host.vfEnable = false ∧ (loseConfig s).host.snoop = [] ∧ (loseConfig s).host.biLines = [] ∧
    (loseConfig s).host.msixOn = [] ∧ (loseConfig s).parts = s.parts ∧ (loseConfig s).mem.cells = s.mem.cells ∧
    (loseConfig s).mem.reqs = s.mem.reqs.filter fun e => e.2.dest != .host :=
  ⟨rfl, rfl, rfl, rfl, rfl, rfl, rfl, rfl, rfl⟩

/-- A module runs while it is neither FATAL nor in Off. -/
theorem running_iff {s : State} : running s = true ↔ s.recov.fatal = false ∧ s.pwr.off = false := by
  simp [running]

/-- PERST may let the link go once firmware has booted, in a module that runs and is not in Hold. -/
theorem linkReady_perst {s : State} (run : running s = true) (awake : s.pwr.inHold = false) (booted : 3 ≤ s.pwr.stage) :
    linkReady (modPwr s fun p => { p with perst := false }) = true := by
  obtain ⟨alive, on⟩ := running_iff.mp run
  simp [linkReady, running, modPwr, alive, on, awake, booted]

/-- Before firmware has booted, outside recovery, the link does not train. -/
theorem linkReady_unbooted {s : State} (stage : s.pwr.stage < 3) (service : s.pwr.service ≠ 3) : linkReady s = false := by
  simp [linkReady, service, Nat.not_le.mpr stage]

/-- A link that trains is up at the speed and width it trained to; it changes no core and no memory. -/
theorem hostLinkUp_trains {s : State} {v w : Nat} (down : s.host.up = false) (ready : linkReady s = true) (low : 1 ≤ v) (high : v ≤ 4)
    (width : w = 4 ∨ w = 8 ∨ w = 16) : exec (.hostLinkUp v w) s = .next (modPwr
      (modHost s fun h => { h with up := true, speed := v, width := w, cfgReady := true })
      fun p => if p.stage = 3 then { p with stage := 4 } else p) := by
  have widthOk : (w == 4 || w == 8 || w == 16) = true := by simpa [or_assoc] using width
  simp [exec, execHostLinkUp, down, ready, low, high, widthOk]

/-- Settles O45: each event by its own definition. -/
theorem hostResets : Obligations.HostResets := by
  refine ⟨?_, ?_, ?_, fun s f l => msixOn_clearFunctions, ?_, ?_, ?_, loseConfig_fields, ?_, ?_, ?_⟩
  · intro s n up vfs low high
    simp [exec, execFlrVf, up, vfs, low, high]
  · intro s up
    simp [exec, execFlrPf, up]
  · intro s up vfs
    simp [exec, execVfEnableClear, disableVfs, modHost, up, vfs]
  · intro s up run
    simp [exec, execDlDown, up, run]
  · intro s up run ide
    have ideOn : (s.host.ideIo || s.host.ideCm != 0) = true := by simpa using ide
    simp [exec, execIdeFail, up, run, ideOn]
  · intro s io cm
    simp [exec, execIdeFail, io, cm]
  · intro s on perst run awake booted
    simp [exec, execPerstDeassert, on, perst, linkReady_perst run awake booted]
  · intro s on perst stage service
    have notReady : linkReady (modPwr s fun p => { p with perst := false }) = false := linkReady_unbooted stage service
    simp [exec, execPerstDeassert, on, perst, notReady]
  · intro s v w down ready low high width
    exact ⟨_, hostLinkUp_trains down ready low high width, by simp only [modPwr, modHost], by simp only [modPwr, modHost],
      by simp only [modPwr, modHost], rfl, rfl⟩

end Machine
end Sys2Proof
end

section
/-! ### The management bus (O47) -/
namespace Sys2Proof
namespace Machine

/-- The bus answers outside Off. -/
theorem onSmb_on {s : State} (on : s.pwr.off = false) (f : State → State) : onSmb s f = .next (f s) := by
  simp [onSmb, on]

/-- In Off the bus does nothing. -/
theorem onSmb_off {s : State} (off : s.pwr.off = true) (f : State → State) : onSmb s f = .next s := by
  simp [onSmb, off]

/-- A write whose packet error code is right is carried out and acknowledged. -/
theorem smbTake_right {s : State} {code : Byte} {bs : List Byte} {pec : Option Byte} (right : pecRight s code bs pec = true)
    (f : State → State) : smbTake s code bs pec f = emit (f s) .smbAck := by
  simp [smbTake, right]

/-- A write whose packet error code is wrong is not acknowledged and does nothing. -/
theorem smbTake_wrong {s : State} {code : Byte} {bs : List Byte} {pec : Option Byte} (wrong : pecRight s code bs pec = false)
    (f : State → State) : smbTake s code bs pec f = emit s (.smbNak code) := by
  simp [smbTake, wrong]

/-- Once all conditions that hold are reported, the alert line is released. -/
theorem alert_reportAll (s : State) : (reportAll s).pwr.alert = false := by
  change ((alertConds s).any fun k => !(alertConds s).contains k) = false
  simp

/-- Settles O47: command by command, over whether the module is in Off and whether the packet error code is right. -/
theorem smbResults : Obligations.SmbResults := by
  refine ⟨?_, ?_, ?_, ?_, ?_, ?_, ?_, ?_, ?_, ?_, ?_, ?_⟩
  · exact fun s on => ⟨reportAll s, by rw [exec, execSmbStatus, onSmb_on on], alert_reportAll s⟩
  · intro s on
    simp only [exec, execSmbPower, execSmbVoltage, execSmbTemp, execSmbBoot, execSmbCap, onSmb_on on, and_self]
  · intro s v on right
    simp only [exec, execSmbCap, onSmb_on on, smbTake_right right, capOf]
  · intro s on
    rw [exec, execSmbWake, onSmb_on on]
  · intro s v on right
    simp only [exec, execSmbHold, onSmb_on on, smbTake_right right]
  · intro s v k on right
    simp only [exec, execSmbWarm, onSmb_on on, smbTake_right right]
  · intro s v u k on
    refine ⟨fun wrong => ?_, fun wrong => ?_, fun wrong => ?_⟩
    · simp only [exec, execSmbHold, onSmb_on on, smbTake_wrong wrong]
    · simp only [exec, execSmbWarm, onSmb_on on, smbTake_wrong wrong]
    · simp only [exec, execSmbCap, onSmb_on on, smbTake_wrong wrong]
  · exact fun s code bs => ⟨rfl, by simp [pecRight]⟩
  · intro s on alert
    refine ⟨reportAll s, ?_, alert_reportAll s⟩
    simp only [exec, execSmbAlertResponse, onSmb_on on, alert, if_true]
  · intro s quiet
    cases off : s.pwr.off with
    | true => rw [exec, execSmbAlertResponse, onSmb_off off]
    | false => simp [exec, execSmbAlertResponse, onSmb_on off, quiet]
  · intro s c on unknown
    have other : smbCodes.contains c = false := by simpa using unknown
    simp only [exec, execSmbNak, onSmb_on on, other, Bool.false_eq_true, if_false]
  · intro s off
    simp only [exec, execSmbStatus, execSmbWake, onSmb_off off, and_self]

end Machine
end Sys2Proof
end

section
/-! ### The SPDM responder (O46) -/
namespace Sys2Proof
namespace Machine

/-- The responder answers while the link is up. -/
theorem onSpdm_up {s : State} (up : hostUp s = true) (f : State → State) : onSpdm s f = .next (f s) := by
  simp [onSpdm, up]

/-- A request that comes once the stages before it are negotiated is carried out. -/
theorem negotiated_reached {s : State} {k : Nat} (reached : k ≤ s.sec.spdm.negotiated) (f : State → State) :
    negotiated s k f = f s := by
  simp [negotiated, Nat.not_lt.mpr reached]

/-- Outside recovery a request for secured messages is carried out. -/
theorem secured_normal {s : State} (normal : inRecovery s = false) (f : State → State) : secured s f = f s := by
  simp [secured, normal]

/-- In recovery a request for secured messages is not supported. -/
theorem secured_recovery {s : State} (recovery : inRecovery s = true) (f : State → State) :
    secured s f = emit s (.spdmError erUnsupported) := by
  simp [secured, recovery, refuseSpdm]

/-- A request of an established session is carried out. -/
theorem inSession_established {s : State} (normal : inRecovery s = false) (session : s.sec.spdm.session = 2) (f : State → State) :
    inSession s f = f s := by
  simp [inSession, secured_normal normal, session]

/-- What CHUNK_SEND collects: the first chunk starts the buffer, a later one is appended. -/
theorem execChunkSend_inOrder {s : State} {h q : Nat} {last : Bool} {d : List Byte} (up : hostUp s = true)
    (order : q = 0 ∨ h = s.sec.spdm.chunkHandle ∧ q = s.sec.spdm.chunkSeq) :
    execChunkSend h q last d s = .next (
      let buf := if q = 0 then d else s.sec.spdm.chunkBuf ++ d
      let t := emit (modSpdm s fun p => { p with
        chunkHandle := h, chunkSeq := if last then 0 else q + 1, chunkBuf := if last then [] else buf }) (.spdm 0x05 [])
      if last then runRequest (requestOf buf) t else t) := by
  have inOrder : (q != 0 && (h != s.sec.spdm.chunkHandle || q != s.sec.spdm.chunkSeq)) = false := by
    rcases order with rfl | ⟨rfl, rfl⟩ <;> simp
  rw [execChunkSend, onSpdm_up up]
  simp only [inOrder, Bool.false_eq_true, if_false]

/-- CHALLENGE: only a module with its identity answers. -/
theorem challenge_results (s : State) (b : List Byte) (up : hostUp s = true) :
    (hasIdentity s = true → 3 ≤ s.sec.spdm.negotiated →
      exec (.challenge 0 b) s = .next (sendSigned s (sha3512 Config.certChain ++ b))) ∧
    (hasIdentity s = false → exec (.challenge 0 b) s = .next (emit s (.spdmError erUnsupported))) := by
  refine ⟨fun identity reached => ?_, fun noIdentity => ?_⟩
  · simp [exec, execChallenge, onSpdm_up up, identity, negotiated_reached reached]
  · simp [exec, execChallenge, onSpdm_up up, noIdentity, refuseSpdm]

/-- GET_MEASUREMENTS: not while firmware or a change record changes what is measured. -/
theorem getMeasurements_results (s : State) (i : Nat) (g : Bool) (b : List Byte) (up : hostUp s = true) :
    (∀ m, changing s = false → 3 ≤ s.sec.spdm.negotiated → measurement s i = some m →
      exec (.getMeasurements i false b) s = .next (emit s (.spdm 0x60 m))) ∧
    (changing s = true → exec (.getMeasurements i g b) s = .next (emit s (.spdmError erNotReady))) := by
  refine ⟨fun m steady reached measured => ?_, fun busy => ?_⟩
  · simp [exec, execGetMeasurements, onSpdm_up up, steady, negotiated_reached reached, measured]
  · simp [exec, execGetMeasurements, onSpdm_up up, busy, refuseSpdm]

/-- FINISH closes the key exchange, with the right code to a session, with another one to none. -/
theorem finish_results (s : State) (up : hostUp s = true) (normal : inRecovery s = false)
    (session : s.sec.spdm.session = 1) (m : List Byte) :
    exec (.finish m) s = .next (if m = Config.finishMac s.sec.spdm.keys then
      emit (modSpdm s fun p => { p with session := 2 }) (.spdm 0x65 [])
      else emit (modSpdm s fun p => { p with session := 0, keys := [] }) (.spdmError erDecrypt)) := by
  simp [exec, execFinish, onSpdm_up up, secured_normal normal, session, refuseSpdm]

/-- IDE_KM programs the keys; only `program` turns IDE on. -/
theorem ideKm_results (s : State) (k : IdeKm) (up : hostUp s = true) (normal : inRecovery s = false) (session : s.sec.spdm.session = 2) :
    ∃ t, exec (.ideKm k) s = .next (emit t (.spdm 0x7E [])) ∧ t.sec.spdm.idePrograms = s.sec.spdm.idePrograms + 1 ∧
      (∀ mode, k = .program mode → t.host.ideIo = true ∧ t.host.ideCm = mode) ∧ (k = .refresh → t.host = s.host) := by
  simp only [exec, execIdeKm, onSpdm_up up, inSession_established normal session]
  cases k with
  | program mode => exact ⟨_, rfl, rfl, fun _ h => ⟨rfl, IdeKm.program.inj h⟩, fun h => nomatch h⟩
  | refresh => exact ⟨_, rfl, rfl, fun mode h => (IdeKm.noConfusion h : _), fun _ => rfl⟩

/-- CHUNK_GET sends the next part of a large response. -/
theorem chunkGet_next {s : State} {b : List Byte} (up : hostUp s = true) (large : s.sec.spdm.largeResp = some b) :
    ∃ t, exec (.chunkGet s.sec.spdm.largeHandle s.sec.spdm.largeSeq) s =
      .next (emit t (.spdm 0x06 (b.take (Config.chunkBytes + 1)))) ∧ t.sec.spdm.largeSeq = s.sec.spdm.largeSeq + 1 := by
  simp only [exec, execChunkGet, onSpdm_up up, large, bne_self_eq_false, Bool.or_self, Bool.false_eq_true, if_false]
  exact ⟨_, rfl, rfl⟩

/-- Settles O46: request by request, through what the link, the negotiation, recovery and the session let pass. -/
theorem spdmResults : Obligations.SpdmResults := by
  refine ⟨?_, ?_, ?_, ?_, ?_, ?_, ?_, fun s b up identity reached => (challenge_results s b up).1 identity reached,
    fun s b up noIdentity => (challenge_results s b up).2 noIdentity,
    fun s i b m up steady reached measured => (getMeasurements_results s i false b up).1 m steady reached measured,
    fun s i g b up busy => (getMeasurements_results s i g b up).2 busy, ?_, ?_, ?_, ?_,
    fun s k up normal session => ideKm_results s k up normal session, ?_, ?_, fun s b => chunkGet_next, ?_, ?_, ?_⟩
  · intro s i up normal
    simp [exec, execDoeDiscovery, onSpdm_up up, normal]
  · intro s i up recovery
    simp [exec, execDoeDiscovery, onSpdm_up up, recovery]
  · intro s up
    rw [exec, execGetVersion, onSpdm_up up]
  · intro s up reached
    rw [exec, execGetCapabilities, onSpdm_up up, negotiated_reached reached]
  · intro s a h d e up reached
    rw [exec, execNegotiateAlgorithms, onSpdm_up up, negotiated_reached reached]
    exact ⟨_, _, rfl, rfl, rfl⟩
  · intro s up reached
    rw [exec, execGetDigests, onSpdm_up up, negotiated_reached reached]
  · intro s o l up reached
    rw [exec, execGetCertificate, onSpdm_up up, negotiated_reached reached]
    rfl
  · intro s b up normal reached keyed session
    simp [exec, execKeyExchange, onSpdm_up up, secured_normal normal, negotiated_reached reached, keyed, session]
  · intro s up normal session
    rw [finish_results s up normal session, if_pos rfl]
  · intro s m up normal session wrong
    rw [finish_results s up normal session, if_neg wrong]
  · intro s up normal session
    simp only [exec, execKeyUpdate, execHeartbeat, execEndSession, onSpdm_up up, inSession_established normal session, and_self]
  · intro s h q d up order
    rw [exec, execChunkSend_inOrder up order]
    exact ⟨_, rfl, rfl, rfl, rfl⟩
  · intro s h q d b up order buffer
    rw [exec, execChunkSend_inOrder up order, ← buffer]
    rfl
  · intro s up recovery
    simp [exec, execRecoveryInfo, onSpdm_up up, recovery]
  · intro s c up
    rw [exec, execUnsupportedRequest, onSpdm_up up, refuseSpdm]
  · intro s b up recovery
    simp only [exec, execKeyExchange, execHeartbeat, onSpdm_up up, inSession, secured_recovery recovery, and_self]

end Machine
end Sys2Proof
end

section
/-! ### Contacts and the input voltage (O48) -/
namespace Sys2Proof
namespace Machine

/-- What the input may be: 46 to 58 V. -/
theorem vinGood_iff {mv : Nat} : vinGood mv = true ↔ 46000 ≤ mv ∧ mv ≤ 58000 := by
  simp [vinGood]

/-- A module that runs and goes into FATAL: its contexts are gone and the host link is down. -/
theorem enterFatal_fields {s : State} (run : running s = true) :
    (enterFatal s).recov.fatal = true ∧ (enterFatal s).ctxs = [] ∧ (enterFatal s).host.up = false := by
  obtain ⟨alive, on⟩ := running_iff.mp run
  refine ⟨enterFatal_fatal on, ?_⟩
  rw [enterFatal, if_neg (by simp [alive, on])]
  exact ⟨rfl, rfl⟩

/-- What is announced when the links go down changes nothing that an announcement leaves as it is. -/
theorem portsDown_keeps {β : Type} {p : State → β} (announced : ∀ s o, p (emit s o) = p s) (l : List (Nat × Port)) (s : State) :
    p (l.foldl (fun s e => emit s (.portDown e.1)) (if s.host.up then emit s .hostLinkDown else s)) = p s := by
  refine (foldl_keeps (f := fun s (e : Nat × Port) => emit s (.portDown e.1)) (fun s e => announced s _) l _).trans ?_
  split
  · exact announced s _
  · rfl

/-- Going off keeps what the flash and the contacts hold, whatever was announced on the way. -/
theorem goOff_eq (s : State) (on : s.pwr.off = false) :
    ∃ t : State, goOff s = powerOff t ∧ t.sec = s.sec ∧ t.pwr = s.pwr ∧ t.pending = s.pending := by
  rw [goOff, if_neg (by simp [on])]
  exact ⟨_, rfl, portsDown_keeps (p := State.sec) (fun _ _ => rfl) _ s, portsDown_keeps (p := State.pwr) (fun _ _ => rfl) _ s,
    portsDown_keeps (p := State.pending) (fun _ _ => rfl) _ s⟩

/-- In Off only what flash and the contacts hold is left. -/
theorem goOff_fields (s : State) (on : s.pwr.off = false) : (goOff s).pwr.off = true ∧ (goOff s).ctxs = [] ∧
    (goOff s).mem = Mem.reset ∧ (goOff s).cores = [] ∧ (goOff s).sec.prot = s.sec.prot ∧ (goOff s).sec.fwSlots = s.sec.fwSlots ∧
    (goOff s).pwr.copyA = s.pwr.copyA ∧ (goOff s).pwr.copyB = s.pwr.copyB ∧ (goOff s).pending = s.pending := by
  obtain ⟨t, same, sec, pwr, pending⟩ := goOff_eq s on
  rw [same, ← sec, ← pwr, ← pending]
  exact ⟨rfl, rfl, rfl, rfl, rfl, rfl, rfl, rfl, rfl⟩

/-- An input out of range: what the module takes note of, before the limits of 42 V and 60 V. -/
def inputNoted (s : State) (mv : Nat) : State :=
  settleAlert (modPwr s fun p => { p with
    vinMv := mv, uvOv := true
    excursionSince := match p.excursionSince with | none => some (now s) | some t => some t })

/-- An input out of range of a module that is not off, by its voltage. -/
theorem exec_inputOutOfRange_on {s : State} {mv : Nat} (on : s.pwr.off = false) (bad : vinGood mv = false) :
    exec (.inputOutOfRange mv) s = .next (if mv < 36000 then modPwr (goOff s) fun p => { p with vinMv := mv }
      else if mv < 42000 ∨ 60000 ≤ mv then stopConversion (enterFatal (inputNoted s mv)) else inputNoted s mv) := by
  change execInputOutOfRange mv s = _
  rw [execInputOutOfRange, if_neg (by simp [on, bad])]
  by_cases low : mv < 36000
  · rw [if_pos low, if_pos low]
  · rw [if_neg low, if_neg low]
    by_cases far : mv < 42000 ∨ 60000 ≤ mv
    · rw [if_pos far]
      exact if_pos (by simpa using far)
    · rw [if_neg far]
      exact if_neg (by simpa using far)

/-- A module that takes note of its input is FATAL no more and no less than before. -/
theorem running_inputNoted (s : State) (mv : Nat) : running (inputNoted s mv) = running s := rfl

/-- Settles O48: the voltages by their limits, the rest by whether the module is in Off. -/
theorem powerInput : Obligations.PowerInput := by
  refine ⟨?_, ?_, ?_, ?_, ?_, ?_, ?_, ?_, ?_, ?_, ?_, goOff_fields⟩
  · intro s mv apart
    simp [exec, execMatedNFall, apart]
  · intro s mated
    simp [exec, execMatedNRise, mated]
  · intro s k off mated converting
    refine ⟨newLifeOf (modPwr s fun p => { p with off := false, pwrgd := true }) k none, ?_, rfl, rfl, rfl, rfl, rfl, rfl⟩
    simp [exec, execPowerGood, off, mated, converting]
  · intro s mv on bad low high
    rw [exec_inputOutOfRange_on on bad, if_neg (by omega), if_neg (by omega)]
    exact ⟨_, rfl, rfl, rfl, rfl, rfl, rfl⟩
  · intro s mv on alive low beyond
    have bad : vinGood mv = false := by
      rw [← Bool.not_eq_true, vinGood_iff]
      omega
    have run : running (inputNoted s mv) = true := (running_inputNoted s mv).trans (running_iff.mpr ⟨alive, on⟩)
    obtain ⟨fatal, ctxs, -⟩ := enterFatal_fields run
    rw [exec_inputOutOfRange_on on bad, if_neg (by omega), if_pos beyond]
    exact ⟨_, rfl, fatal, rfl, ctxs⟩
  · intro s mv on low
    have bad : vinGood mv = false := by
      rw [← Bool.not_eq_true, vinGood_iff]
      omega
    rw [exec_inputOutOfRange_on on bad, if_pos low]
  · intro s t since run late
    simp [exec, execInputExcursionTimeout, since, run, now, late]
  · intro s t since early
    simp [exec, execInputExcursionTimeout, since, now, Nat.not_lt.mpr early]
  · intro s on
    simp [exec, execInputCollapse, on]
  · intro s mv off mated bad
    simp [exec, execInputOutOfRange, execInputCollapse, off, mated, bad]
  · intro s mv low high mated
    simp [exec, execInputRestored, vinGood_iff.mpr ⟨low, high⟩, mated]

end Machine
end Sys2Proof
end

section
/-! ### What neither the work of units nor a context's save, restore or end changes: power, and where the rings stand (O42, O49) -/
namespace Sys2Proof
namespace Machine

open Host

/-- The power side of the module, and of each partition whether it resets and where its command ring stands. -/
structure Posture where
  pwr : Power
  resetting : Nat → Bool
  cmdHead : Nat → Nat
  cmdTail : Nat → Nat

/-- The posture of a state. Each operation below has a lemma that it keeps it. -/
def posture (s : State) : Posture where
  pwr := s.pwr
  resetting p := (getPart s p).resetting
  cmdHead p := (getPart s p).cmdHead
  cmdTail p := (getPart s p).cmdTail

theorem pwr_of_posture_eq {s t : State} (h : posture t = posture s) : t.pwr = s.pwr := congrArg Posture.pwr h

/-- A fold keeps the posture when each of its steps does. -/
@[simp] theorem posture_foldl {α : Type} {f : State → α → State} (l : List α) (s : State) (h : ∀ s a, posture (f s a) = posture s) :
    posture (l.foldl f s) = posture s := foldl_keeps h l s

/-! ### Updates of one field

Proofs by `(rfl)`, in brackets, so that `simp` takes them as rewrite rules and discharges the hypothesis of `posture_foldl` with them. -/

/-- New values in fields that the posture does not read. -/
@[simp] theorem posture_mk (s : State) (pending : List Instr) (fresh serial : Nat) (out : List Out) (clk : Clock) (mem : Mem)
    (cores : Tbl Core) (ctxs : Tbl Ctx) (scheds : Tbl Sched) (nextSched quantumUs quantumAt preemptions : Nat) (hub : Hub) (upd : Upd)
    (ports : Tbl Port) (peers : Peers) (rollout : Rollout) (models : Tbl Model) (modelGens : Tbl Nat) (recov : Rec) (host : HostSide)
    (sec : Sec) :
    posture { s with
      pending := pending, fresh := fresh, serial := serial, out := out, clk := clk, mem := mem, cores := cores, ctxs := ctxs
      scheds := scheds, nextSched := nextSched, quantumUs := quantumUs, quantumAt := quantumAt, preemptions := preemptions, hub := hub
      upd := upd, ports := ports, peers := peers, rollout := rollout, models := models, modelGens := modelGens, recov := recov
      host := host, sec := sec } = posture s := (rfl)

@[simp] theorem posture_emit (s : State) (o : Out) : posture (emit s o) = posture s := (rfl)

@[simp] theorem posture_bump (s : State) : posture (bump s) = posture s := (rfl)

@[simp] theorem posture_setCore (s : State) (c : Nat) (x : Core) : posture (setCore s c x) = posture s := (rfl)

@[simp] theorem posture_modCore (s : State) (c : Nat) (f : Core → Core) : posture (modCore s c f) = posture s := (rfl)

@[simp] theorem posture_setCtx (s : State) (n : Nat) (x : Ctx) : posture (setCtx s n x) = posture s := (rfl)

@[simp] theorem posture_modCtx (s : State) (n : Nat) (f : Ctx → Ctx) : posture (modCtx s n f) = posture s := (rfl)

@[simp] theorem posture_modHub (s : State) (f : Hub → Hub) : posture (modHub s f) = posture s := (rfl)

@[simp] theorem posture_modUpd (s : State) (f : Upd → Upd) : posture (modUpd s f) = posture s := (rfl)

@[simp] theorem posture_modPeers (s : State) (f : Peers → Peers) : posture (modPeers s f) = posture s := (rfl)

@[simp] theorem posture_modRo (s : State) (f : Rollout → Rollout) : posture (modRo s f) = posture s := (rfl)

@[simp] theorem posture_modDie (s : State) (k : Nat) (f : DieClk → DieClk) : posture (modDie s k f) = posture s := (rfl)

@[simp] theorem posture_modClk (s : State) (f : Clock → Clock) : posture (modClk s f) = posture s := (rfl)

@[simp] theorem posture_modMem (s : State) (f : Mem → Mem) : posture (modMem s f) = posture s := (rfl)

@[simp] theorem posture_modRec (s : State) (f : Rec → Rec) : posture (modRec s f) = posture s := (rfl)

@[simp] theorem posture_setPort (s : State) (k : Nat) (x : Port) : posture (setPort s k x) = posture s := (rfl)

@[simp] theorem posture_setPart {s : State} {k : Nat} {x : Part} (resetting : x.resetting = (getPart s k).resetting)
    (head : x.cmdHead = (getPart s k).cmdHead) (tail : x.cmdTail = (getPart s k).cmdTail) : posture (setPart s k x) = posture s := by
  have resets : (fun p => (getPart (setPart s k x) p).resetting) = fun p => (getPart s p).resetting :=
    funext (tget_tput_keeps Part.resetting resetting)
  have heads : (fun p => (getPart (setPart s k x) p).cmdHead) = fun p => (getPart s p).cmdHead :=
    funext (tget_tput_keeps Part.cmdHead head)
  have tails : (fun p => (getPart (setPart s k x) p).cmdTail) = fun p => (getPart s p).cmdTail :=
    funext (tget_tput_keeps Part.cmdTail tail)
  simp only [posture, resets, heads, tails]; rfl

@[simp] theorem posture_modPort (s : State) (k : Nat) (f : Port → Port) : posture (modPort s k f) = posture s := (rfl)

@[simp] theorem posture_modPart {s : State} {k : Nat} {f : Part → Part}
    (resetting : (f (getPart s k)).resetting = (getPart s k).resetting) (head : (f (getPart s k)).cmdHead = (getPart s k).cmdHead)
    (tail : (f (getPart s k)).cmdTail = (getPart s k).cmdTail) : posture (modPart s k f) = posture s :=
  posture_setPart resetting head tail

/-! ### Grains, host writes and firmware -/

@[simp] theorem posture_snoopLines (s : State) (p : Nat → Bool) : posture (snoopLines s p) = posture s :=
  posture_foldl (f := fun s l => emit s (.biSnoop l)) _ s fun _ _ => rfl

@[simp] theorem posture_invalidateGrain (s : State) (pa : Nat) :
    posture (invalidateGrain s pa) = posture s := by simp [invalidateGrain]

@[simp] theorem posture_storeGrain (s : State) (pa : Nat) (data : List Byte) (tag : GrainTag) :
    posture (storeGrain s pa data tag) = posture s := (rfl)

@[simp] theorem posture_putGrain (s : State) (pa : Nat) (data : List Byte) (tag : GrainTag) :
    posture (putGrain s pa data tag) = posture s := by simp [putGrain]

@[simp] theorem posture_countFailed (s : State) : posture (countFailed s) = posture s := (rfl)

@[simp] theorem posture_putServed (s : State) (pa : Nat) (data : List Byte) (tag : GrainTag) :
    posture (putServed s pa data tag) = posture s := by
  unfold putServed
  split <;> simp

@[simp] theorem posture_writeGrain (s : State) (pa : Nat) (data : List Byte) (tag : GrainTag) :
    posture (writeGrain s pa data tag) = posture s := by
  unfold writeGrain
  split <;> simp

@[simp] theorem posture_mergeAs (s : State) (pa off : Nat) (bs : List Byte) (t : GrainTag) :
    posture (mergeAs s pa off bs t) = posture s := by
  unfold mergeAs
  dsimp only
  split <;> simp

@[simp] theorem posture_mergeGrain (s : State) (pa off : Nat) (bs : List Byte) (poison : Bool) :
    posture (mergeGrain s pa off bs poison) = posture s := by simp [mergeGrain]

@[simp] theorem posture_remoteGrain (s : State) : posture (remoteGrain s).2 = posture s := (rfl)

@[simp] theorem posture_freeWord (s : State) : posture (freeWord s).2 = posture s := (rfl)

@[simp] theorem posture_readHost (s : State) (pa : Nat) : posture (readHost s pa).2.2 = posture s := by
  unfold readHost
  dsimp only
  split <;> simp

@[simp] theorem posture_fwGrain (s : State) (a : Nat) : posture (fwGrain s a).2.2 = posture s := by
  unfold fwGrain
  dsimp only
  repeat' split
  all_goals simp

@[simp] theorem posture_fwWriteTags (fuel : Nat) (s : State) (pa : Nat) (bs : List Byte) :
    posture (fwWriteTags s pa bs fuel) = posture s := by
  induction fuel generalizing s pa bs with
  | zero => rfl
  | succ fuel ih =>
    cases bs with
    | nil => rfl
    | cons b bs => exact (ih _ _ _).trans (posture_mergeGrain _ _ _ _ _)

@[simp] theorem posture_emitHostWrite (s : State) (req pa : Nat) (bs : List Byte) (poison : Bool) :
    posture (emitHostWrite s req pa bs poison) = posture s := by
  unfold emitHostWrite
  dsimp only
  split <;> simp

@[simp] theorem posture_fwWrite (s : State) (pa : Nat) (bs : List Byte) : posture (fwWrite s pa bs) = posture s := by
  unfold fwWrite
  split
  · exact (posture_emitHostWrite _ _ _ _ _).trans rfl
  · exact posture_fwWriteTags _ _ _ _

@[simp] theorem posture_msixRequest (s : State) (p vec : Nat) (teardown : Bool) :
    posture (msixRequest s p vec teardown) = posture s := by
  unfold msixRequest
  dsimp only
  split <;> simp

@[simp] theorem posture_setJournal (s : State) (cc : Nat) (l : List JournalEntry) :
    posture (setJournal s cc l) = posture s := (rfl)

@[simp] theorem posture_journal (s : State) (cc what subject : Nat) (complete : Bool) :
    posture (journal s cc what subject complete) = posture s := (rfl)

@[simp] theorem posture_listEffects (s : State) (cc : Nat) (acts : List FwAct) : posture (listEffects s cc acts) = posture s := by
  unfold listEffects
  dsimp only
  repeat' split
  all_goals simp

@[simp] theorem posture_markEffect (s : State) (cc num : Nat) : posture (markEffect s cc num) = posture s := (rfl)

/-- An act of firmware that moves no ring's HEAD. -/
def ringless : FwAct → Bool
  | .head _ => false
  | _ => true

@[simp] theorem ringless_write (pa : Nat) (bs : List Byte) : ringless (.write pa bs) = true := rfl
@[simp] theorem ringless_msix (p v : Nat) : ringless (.msix p v) = true := rfl

theorem posture_runActs {cc num : Nat} {acts : List FwAct} (still : ∀ a ∈ acts, ringless a = true) (s : State) :
    posture (runActs cc num acts s).1 = posture s := by
  induction acts generalizing s with
  | nil => rfl
  | cons a acts ih =>
    have rest := ih fun b hb => still b (List.mem_cons_of_mem _ hb)
    cases a with
    | write pa bs =>
      unfold runActs
      dsimp only
      split
      · exact (rest _).trans (by simp)
      · simp
    | head p => exact absurd (still _ List.mem_cons_self) Bool.false_ne_true
    | msix p v => exact (rest _).trans (by simp)

@[simp] theorem posture_fwDo {s : State} {cc : Nat} {acts : List FwAct} (still : ∀ a ∈ acts, ringless a = true) :
    posture (fwDo s cc acts) = posture s := by
  have ran := posture_runActs (cc := cc) (num := newestEntry (listEffects s cc acts) cc) still (listEffects s cc acts)
  unfold fwDo
  dsimp only
  split
  · exact posture_listEffects s cc acts
  · split
    next eq =>
      rw [eq] at ran
      exact ran.trans (posture_listEffects s cc acts)
    next eq =>
      rw [eq] at ran
      exact ran.trans (posture_listEffects s cc acts)

@[simp] theorem posture_writeLog (s : State) (event : Nat) (u : LogUnit) (part : Nat) (ctx : Option Nat) (detail : Nat) :
    posture (writeLog s event u part ctx detail) = posture s := by
  unfold writeLog
  dsimp only
  split
  · exact (posture_msixRequest _ _ _ _).trans rfl
  · rfl

@[simp] theorem posture_logEvent (s : State) (event : Nat) (u : LogUnit) (part : Nat) (ctx : Option Nat) (detail : Nat) :
    posture (logEvent s event u part ctx detail) = posture s := by
  unfold logEvent
  repeat' split
  all_goals simp

@[simp] theorem posture_checkFailed (s : State) (pa : Nat) : posture (checkFailed s pa) = posture s := by simp [checkFailed]

@[simp] theorem posture_egressTag (s : State) (pa : Nat) (data : List Byte) (tag : GrainTag) :
    posture (egressTag s pa data tag).2 = posture s := by
  unfold egressTag
  split <;> simp

/-! ### Accounts, wakes and completion groups -/

@[simp] theorem posture_modAcct (s : State) (n : Nat) (f : Acct → Acct) : posture (modAcct s n f) = posture s := (rfl)

@[simp] theorem posture_chargeTier (s : State) (n t bytes : Nat) : posture (chargeTier s n t bytes) = posture s := (rfl)

@[simp] theorem posture_chargeLink (s : State) (n cls flits : Nat) : posture (chargeLink s n cls flits) = posture s := (rfl)

@[simp] theorem posture_modDieOf (s : State) (c : Nat) (f : DieClk → DieClk) : posture (modDieOf s c f) = posture s := by
  unfold modDieOf
  split <;> simp

@[simp] theorem posture_dieWorked (s : State) (c : Nat) : posture (dieWorked s c) = posture s := by simp [dieWorked]

@[simp] theorem posture_touchCore (s : State) (c : Nat) : posture (touchCore s c) = posture s := by simp [touchCore]

@[simp] theorem posture_wakeCore (s : State) (c : Nat) (p : Nat → Park → Bool) : posture (wakeCore s c p) = posture s := (rfl)

@[simp] theorem posture_wakeCoreWith (s : State) (c val : Nat) (p : Park → Bool) :
    posture (wakeCoreWith s c val p) = posture s := (rfl)

@[simp] theorem posture_wakeCtl (s : State) (n : Nat) (p : Park → Bool) : posture (wakeCtl s n p) = posture s := (rfl)

@[simp] theorem posture_wakeAgent (s : State) (a : Agent) (woken : Option Nat) :
    posture (wakeAgent s a woken) = posture s := by
  unfold wakeAgent
  dsimp only
  split <;> simp

@[simp] theorem posture_issueCg (s : State) (a : Agent) (g n : Nat) : posture (issueCg s a g n) = posture s := by
  unfold issueCg
  dsimp only
  split <;> simp

@[simp] theorem posture_startPll (s : State) (c : Nat) : posture (startPll s c) = posture s := by
  unfold startPll
  split <;> simp

@[simp] theorem posture_holdAtEdge (s : State) (c : Nat) (it : EdgeItem) : posture (holdAtEdge s c it) = posture s := by
  unfold holdAtEdge
  dsimp only
  repeat' split
  all_goals simp

@[simp] theorem posture_groupDone (s : State) (a : Agent) (g code : Nat) :
    posture (groupDone s a g code) = posture s := by
  unfold groupDone
  dsimp only
  repeat' split
  all_goals simp

@[simp] theorem posture_doneCg (s : State) (a : Agent) (g code : Nat) : posture (doneCg s a g code) = posture s := by
  unfold doneCg
  repeat' split
  all_goals simp

@[simp] theorem posture_noteCg (s : State) (a : Agent) (g code : Nat) : posture (noteCg s a g code) = posture s := by
  unfold noteCg
  dsimp only
  split <;> simp

@[simp] theorem posture_peerOutCg (s : State) (a : Agent) (g : Nat) (up : Bool) :
    posture (peerOutCg s a g up) = posture s := by
  unfold peerOutCg
  dsimp only
  split <;> simp

@[simp] theorem posture_mergeRun (fuel : Nat) (s : State) (pa : Nat) (bs : List Byte) (poison : Bool) :
    posture (mergeRun s pa bs poison fuel) = posture s := by
  induction fuel generalizing s pa bs with
  | zero => rfl
  | succ fuel ih =>
    cases bs with
    | nil => rfl
    | cons b bs => exact (ih _ _ _).trans (posture_mergeGrain _ _ _ _ _)

/-! ### Links, peers and queue endpoints -/

@[simp] theorem posture_setLatch (s : State) (n step : Nat) : posture (setLatch s n step) = posture s := (rfl)

@[simp] theorem posture_clearLatch (s : State) (n step : Nat) : posture (clearLatch s n step) = posture s := by
  unfold clearLatch
  dsimp only
  split <;> simp

@[simp] theorem posture_modReductions (s : State) (n id : Nat) (up : Bool) : posture (modReductions s n id up) = posture s := (rfl)

@[simp] theorem posture_qconfigLeft (s : State) (o : Out) : posture (qconfigLeft s o) = posture s := by
  unfold qconfigLeft
  split <;> simp

@[simp] theorem posture_sendGroups (s : State) (k : Nat) (lseqs : List Nat) :
    posture (sendGroups s k lseqs) = posture s := by simp [sendGroups]

@[simp] theorem posture_sendOne (s : State) (k cls : Nat) (round : Tbl Nat) :
    posture (sendOne s k cls round) = posture s := by
  unfold sendOne
  dsimp only
  split <;> simp

@[simp] theorem posture_pumpPort (k fuel : Nat) (s : State) : posture (pumpPort k fuel s) = posture s := by
  induction fuel generalizing s with
  | zero => rfl
  | succ fuel ih =>
    unfold pumpPort
    dsimp only
    split
    · rfl
    · split
      · rfl
      · exact (ih _).trans (posture_sendOne _ _ _ _)

@[simp] theorem posture_drainPort (s : State) (k : Nat) : posture (drainPort s k) = posture s := by
  unfold drainPort
  dsimp only
  split <;> simp

@[simp] theorem posture_linkPut (s : State) (q : Sent) : posture (linkPut s q) = posture s := by
  unfold linkPut
  dsimp only
  repeat' split
  all_goals simp

@[simp] theorem posture_linkSend (s : State) (dst cls : Nat) (eseq : Option Nat) (o : Out) :
    posture (linkSend s dst cls eseq o) = posture s := by simp [linkSend]

@[simp] theorem posture_sendBulk (s : State) (dst : Nat) (o : Out) : posture (sendBulk s dst o) = posture s := by simp [sendBulk]

@[simp] theorem posture_nextEseq (s : State) (dst cls : Nat) : posture (nextEseq s dst cls).2 = posture s := (rfl)

@[simp] theorem posture_sendCtl (s : State) (dst : Nat) (o : Out) : posture (sendCtl s dst o) = posture s := by simp [sendCtl]

@[simp] theorem posture_sendQconfig (s : State) (c ep : Nat) (answer : Bool) :
    posture (sendQconfig s c ep answer) = posture s := by simp [sendQconfig]

@[simp] theorem posture_sendQclose (s : State) (c ep : Nat) : posture (sendQclose s c ep) = posture s := by simp [sendQclose]

@[simp] theorem posture_dstNotice (s : State) (c ep : Nat) (p : Packet) : posture (dstNotice s c ep p) = posture s := by
  unfold dstNotice
  dsimp only
  split <;> simp

@[simp] theorem posture_putSaved (cfg : Word) (n c : Nat) (s : State) (pos : Nat) (l : List QWord) :
    posture (putSaved cfg n c s pos l) = posture s := by
  induction l generalizing s pos with
  | nil => rfl
  | cons q l ih => exact (ih _ _).trans (posture_mergeRun _ _ _ _ _)

@[simp] theorem posture_putArrived (s : State) (c : Nat) (e : Endpoint) : posture (putArrived s c e) = posture s := by
  unfold putArrived
  split <;> simp

@[simp] theorem posture_giveNotice (s : State) (c ep : Nat) (truncated : Bool) :
    posture (giveNotice s c ep truncated) = posture s := by simp [giveNotice]

@[simp] theorem posture_openEndAt (s : State) (c ep : Nat) (far : Word) (mate : Option Nat) :
    posture (openEndAt s c ep far mate) = posture s := by simp [openEndAt]

@[simp] theorem posture_answerConfig (s : State) (c ep : Nat) (h : HeldCfg) : posture (answerConfig s c ep h) = posture s := by
  unfold answerConfig
  dsimp only
  repeat' split
  all_goals simp

@[simp] theorem posture_answerDue (s : State) (c ep : Nat) : posture (answerDue s c ep) = posture s := by
  unfold answerDue
  dsimp only
  repeat' split
  all_goals simp

@[simp] theorem posture_finishClose (s : State) (c ep : Nat) : posture (finishClose s c ep) = posture s := by
  unfold finishClose
  dsimp only
  repeat' split
  all_goals simp

@[simp] theorem posture_farClosed (s : State) (c ep words : Nat) : posture (farClosed s c ep words) = posture s := by
  unfold farClosed
  dsimp only
  repeat' split
  all_goals simp

/-! ### Reads and writes of the engines -/

@[simp] theorem posture_readPeer (s : State) (pa : Nat) : posture (readPeer s pa).2.2 = posture s := by
  unfold readPeer
  dsimp only
  split <;> simp

@[simp] theorem posture_readGrain (s : State) (pa : Nat) : posture (readGrain s pa).2.2 = posture s := by
  unfold readGrain
  dsimp only
  repeat' split
  all_goals simp

@[simp] theorem posture_writeGrainAt (s : State) (pa : Nat) (data : List Byte) (tag : GrainTag) :
    posture (writeGrainAt s pa data tag) = posture s := by
  unfold writeGrainAt
  dsimp only
  repeat' split
  all_goals simp

@[simp] theorem posture_checkHome (s : State) (pa off len : Nat) : posture (checkHome s pa off len) = posture s := by
  unfold checkHome
  split <;> simp

@[simp] theorem posture_performWrite (s : State) (r : MReq) : posture (performWrite s r) = posture s := by
  unfold performWrite
  dsimp only
  repeat' split
  all_goals simp

@[simp] theorem posture_setMReq (s : State) (id : Nat) (r : MReq) : posture (setMReq s id r) = posture s := (rfl)

@[simp] theorem posture_sendToPeer (s : State) (id : Nat) (r : MReq) : posture (sendToPeer s id r) = posture s := by
  unfold sendToPeer
  dsimp only
  split <;> simp

@[simp] theorem posture_sendToHost (s : State) (id : Nat) (r : MReq) : posture (sendToHost s id r) = posture s := by
  unfold sendToHost
  dsimp only
  split <;> simp

@[simp] theorem posture_engineRead (s : State) (n va : Nat) : posture (engineRead s n va).2.2 = posture s := by
  unfold engineRead
  split <;> simp

@[simp] theorem posture_engineWrite (s : State) (n va : Nat) (data : List Byte) (tag : GrainTag) :
    posture (engineWrite s n va data tag) = posture s := by
  unfold engineWrite
  dsimp only
  repeat' split
  all_goals simp

@[simp] theorem posture_groupReq (s : State) (ref : CgRef) (r : MReq) : posture (groupReq s ref r).2 = posture s :=
  posture_issueCg s ref.agent ref.cg 1

@[simp] theorem posture_settleWrites (s : State) (ref : CgRef) (n : Nat) :
    posture (settleWrites s ref n) = posture s := by simp [settleWrites]

@[simp] theorem posture_groupEnds (s : State) (ref : CgRef) (n code : Nat) :
    posture (groupEnds s ref n code) = posture s := by simp [groupEnds]

@[simp] theorem posture_groupWrite (s : State) (ref : CgRef) (n va : Nat) (data : List Byte) (tag : GrainTag) :
    posture (groupWrite s ref n va data tag) = posture s := by
  unfold groupWrite
  dsimp only
  repeat' split
  all_goals simp

@[simp] theorem posture_engineReads (s : State) (n : Nat) (vas : List Nat) : posture (engineReads s n vas).2 = posture s := by
  induction vas generalizing s with
  | nil => rfl
  | cons va vas ih => exact (ih _).trans (posture_engineRead _ _ _)

@[simp] theorem posture_enginePoison (s : State) (ref : CgRef) (n va : Nat) : posture (enginePoison s ref n va) = posture s := by
  unfold enginePoison
  dsimp only
  repeat' split
  all_goals simp

/-! ### Models, requests and their sets -/

@[simp] theorem posture_raiseAttempt (s : State) (group : Nat) : posture (raiseAttempt s group) = posture s := (rfl)

@[simp] theorem posture_castCtl (s : State) (n mask : Nat) (o : Nat → Out) :
    posture (castCtl s n mask o) = posture s := by simp [castCtl]

@[simp] theorem posture_sendAbort (s : State) (n mask attempt step : Nat) :
    posture (sendAbort s n mask attempt step) = posture s := by simp [sendAbort]

@[simp] theorem posture_setModel (s : State) (ix : Nat) (m : Model) : posture (setModel s ix m) = posture s := (rfl)

@[simp] theorem posture_detachOne (s : State) (ix n : Nat) : posture (detachOne s ix n) = posture s := by
  unfold detachOne
  dsimp only
  split <;> simp

@[simp] theorem posture_setReq (s : State) (id : Nat) (r : Request) : posture (setReq s id r) = posture s := (rfl)

@[simp] theorem posture_modReq (s : State) (id : Nat) (f : Request → Request) : posture (modReq s id f) = posture s := by
  unfold modReq
  split <;> simp

@[simp] theorem posture_syncReq (s : State) (id : Nat) : posture (syncReq s id) = posture s := by
  unfold syncReq
  dsimp only
  repeat' split
  all_goals simp

@[simp] theorem posture_putEntry (s : State) (id : Nat) (bs : List Byte) : posture (putEntry s id bs) = posture s := by
  unfold putEntry
  dsimp only
  split <;> simp

@[simp] theorem posture_writeHeaders (s : State) (m : Model) (p : PageSet) :
    posture (writeHeaders s m p) = posture s := by simp [writeHeaders]

@[simp] theorem posture_refSet (s : State) (id : Nat) (up : Bool) : posture (refSet s id up) = posture s := by
  unfold refSet
  dsimp only
  repeat' split
  all_goals simp

@[simp] theorem posture_refSets (s : State) (ids : List Nat) (up : Bool) :
    posture (refSets s ids up) = posture s := by simp [refSets]

@[simp] theorem posture_releaseSets (s : State) (id : Nat) : posture (releaseSets s id) = posture s := by
  unfold releaseSets
  split <;> simp

@[simp] theorem posture_endRequest (s : State) (id code : Nat) : posture (endRequest s id code) = posture s := by
  unfold endRequest
  dsimp only
  repeat' split
  all_goals simp

@[simp] theorem posture_releaseHandle (s : State) (ix : Nat) : posture (releaseHandle s ix) = posture s := by
  unfold releaseHandle
  split <;> simp

@[simp] theorem posture_releaseHandles (s : State) (p : Handle → Bool) :
    posture (releaseHandles s p) = posture s := by simp [releaseHandles]

/-! ### Collectives and re-shards -/

@[simp] theorem posture_modColl (s : State) (id : Nat) (f : Coll → Coll) : posture (modColl s id f) = posture s := by
  unfold modColl
  split <;> simp

@[simp] theorem posture_finishColl (s : State) (id code : Nat) : posture (finishColl s id code) = posture s := by
  unfold finishColl
  dsimp only
  repeat' split
  all_goals simp

@[simp] theorem posture_collLand (s : State) (id : Nat) (v : CollView) (ix : Nat) (data : List Byte) (tag : GrainTag) :
    posture (collLand s id v ix data tag) = posture s := by
  unfold collLand
  dsimp only
  repeat' split
  all_goals simp

@[simp] theorem posture_sendColdata (s : State) (n p flow ix : Nat) (data : List Byte) (tag : GrainTag) :
    posture (sendColdata s n p flow ix data tag) = posture s := by simp [sendColdata]

@[simp] theorem posture_collFlush (s : State) (id : Nat) (m : ArriveMsg) : posture (collFlush s id m) = posture s := by
  unfold collFlush
  dsimp only
  repeat' split
  all_goals simp

@[simp] theorem posture_collReduced (s : State) (id : Nat) (v : CollView) (ix : Nat) (data : List Byte) (poison : Bool) :
    posture (collReduced s id v ix data poison) = posture s := by
  unfold collReduced
  dsimp only
  repeat' split
  all_goals simp

@[simp] theorem posture_collCombine (s : State) (id : Nat) : posture (collCombine s id) = posture s := by
  unfold collCombine
  dsimp only
  split
  · rfl
  · split
    · rfl
    · split
      · rfl
      · split
        · split
          · rfl
          · split
            · rfl
            · simp
        · split
          · split
            · rfl
            · split
              · rfl
              · simp
          · refine posture_foldl _ _ fun s i => ?_
            split
            · rfl
            · split
              · rfl
              · simp

@[simp] theorem posture_collGot (s : State) (id src ix : Nat) (data : List Byte) (tag : GrainTag) :
    posture (collGot s id src ix data tag) = posture s := by
  unfold collGot
  repeat' split
  all_goals simp

@[simp] theorem posture_collCheck (s : State) (id : Nat) : posture (collCheck s id) = posture s := by
  unfold collCheck
  repeat' split
  all_goals simp

@[simp] theorem posture_settleHeader (s : State) (n step va : Nat) (applied : Bool) :
    posture (settleHeader s n step va applied) = posture s := by
  unfold settleHeader
  dsimp only
  split <;> simp

@[simp] theorem posture_settleWhey (s : State) (n step : Nat) (applied : Bool) :
    posture (settleWhey s n step applied) = posture s := by simp [settleWhey]

@[simp] theorem posture_collPoison (s : State) (ref : CgRef) (n va : Nat) : posture (collPoison s ref n va) = posture s := by
  unfold collPoison
  split <;> simp

@[simp] theorem posture_settleReshard (s : State) (id : Nat) (r : Reshard) (applied : Bool) :
    posture (settleReshard s id r applied) = posture s := by
  unfold settleReshard
  dsimp only
  split <;> simp

@[simp] theorem posture_gflagReturn (s : State) (g : GflagWait) (flag : Bool) (rc : Nat) :
    posture (gflagReturn s g flag rc) = posture s := by
  unfold gflagReturn
  dsimp only
  split <;> simp

@[simp] theorem posture_gflagCheck (s : State) (g : GflagWait) : posture (gflagCheck s g) = posture s := by
  unfold gflagCheck
  dsimp only
  split <;> simp

@[simp] theorem posture_gflagSend (s : State) (g : GflagWait) : posture (gflagSend s g) = posture s := by
  unfold gflagSend
  dsimp only
  split <;> simp

@[simp] theorem posture_gflagPump (s : State) : posture (gflagPump s) = posture s := by simp [gflagPump]

@[simp] theorem posture_abortColl (s : State) (id : Nat) (c : Coll) : posture (abortColl s id c) = posture s := by
  unfold abortColl
  refine (posture_finishColl _ _ _).trans ?_
  split
  · rfl
  · refine posture_foldl _ _ fun s i => ?_
    split <;> simp

@[simp] theorem posture_abortReshard (s : State) (id : Nat) (r : Reshard) : posture (abortReshard s id r) = posture s := by
  unfold abortReshard
  dsimp only
  split <;> simp

@[simp] theorem posture_endStep (s : State) (n attempt step : Nat) : posture (endStep s n attempt step) = posture s := by
  unfold endStep
  dsimp only
  repeat' split
  all_goals simp

@[simp] theorem posture_collArrived (s : State) (id : Nat) (m : ArriveMsg) :
    posture (collArrived s id m) = posture s := by
  unfold collArrived
  dsimp only
  repeat' split
  all_goals simp

@[simp] theorem posture_takeEarly (s : State) (group attempt step colseq : Nat) :
    posture (takeEarly s group attempt step colseq).2 = posture s := (rfl)

@[simp] theorem posture_wheyRead (s : State) (n : Nat) (v : CollView) :
    posture (wheyRead s n v).2.2 = posture s := by simp [wheyRead]

@[simp] theorem posture_wheyWrite (s : State) (c : Coll) (v : CollView) (cur : Nat) (w : List (List Byte × Bool)) :
    posture (wheyWrite s c v cur w) = posture s := by simp [wheyWrite]

@[simp] theorem posture_takeInbox (s : State) (id : Nat) (c : Coll) : posture (takeInbox s id c) = posture s := by simp [takeInbox]

@[simp] theorem posture_collRead (s : State) (id : Nat) (c : Coll) (v : CollView) : posture (collRead s id c v) = posture s := by
  unfold collRead
  dsimp only
  repeat' split
  all_goals simp

@[simp] theorem posture_collBegin (s : State) (id : Nat) (c : Coll) (v : CollView) : posture (collBegin s id c v) = posture s := by
  unfold collBegin
  dsimp only
  repeat' split
  all_goals simp

theorem posture_collStart {go : State → State} (h : ∀ s, posture (go s) = posture s) (s : State) :
    posture (collStart go s) = posture s := by
  unfold collStart
  split
  · rfl
  · split
    · exact (h _).trans (by simp)
    · exact (h _).trans (by simp)
    · rfl

@[simp] theorem posture_pumpColls (fuel : Nat) (s : State) : posture (pumpColls fuel s) = posture s := by
  induction fuel generalizing s with
  | zero => rfl
  | succ fuel ih =>
    rw [pumpColls_succ]
    exact posture_collStart ih s

@[simp] theorem posture_collResume (s : State) (id : Nat) : posture (collResume s id) = posture s := by
  unfold collResume
  repeat' split
  all_goals simp

@[simp] theorem posture_hubSettle (s : State) : posture (hubSettle s) = posture s := by simp [hubSettle]

/-! ### Memory requests -/

@[simp] theorem posture_dropSample (s : State) (n c : Nat) : posture (dropSample s n c) = posture s := by
  unfold dropSample
  dsimp only
  split <;> simp

@[simp] theorem posture_promptPoison (s : State) (n va : Nat) : posture (promptPoison s n va).2 = posture s := by
  unfold promptPoison
  dsimp only
  split <;> simp

@[simp] theorem posture_wakeMemWait (s : State) (a : Agent) : posture (wakeMemWait s a) = posture s := by
  unfold wakeMemWait
  repeat' split
  all_goals simp

@[simp] theorem posture_wakeRings (s : State) (c : Nat) : posture (wakeRings s c) = posture s := (rfl)

@[simp] theorem posture_fillSlot (s : State) (c k j : Nat) : posture (fillSlot s c k j) = posture s := by
  unfold fillSlot
  dsimp only
  repeat' split
  all_goals simp

@[simp] theorem posture_schedCheck (s : State) (id : Nat) : posture (schedCheck s id) = posture s := by
  unfold schedCheck
  dsimp only
  repeat' split
  all_goals simp

@[simp] theorem posture_schedLanded (s : State) (id key code : Nat) : posture (schedLanded s id key code) = posture s := by
  unfold schedLanded
  dsimp only
  repeat' split
  all_goals simp

@[simp] theorem posture_landSaved (s : State) (n c : Nat) (ps : List (Nat × Nat × Nat)) (data : List Byte) (poison : Bool) :
    posture (landSaved s n c ps data poison) = posture s := by simp [landSaved]

@[simp] theorem posture_landGrain (s : State) (r : MReq) (data : List Byte) (tag : GrainTag) :
    posture (landGrain s r data tag) = posture s := by
  unfold landGrain
  repeat' split
  all_goals simp

@[simp] theorem posture_peerCount (s : State) (r : MReq) (up : Bool) : posture (peerCount s r up) = posture s := by
  unfold peerCount
  repeat' split
  all_goals simp

@[simp] theorem posture_countEnd (s : State) (r : MReq) (code : Nat) : posture (countEnd s r code) = posture s := by
  unfold countEnd
  repeat' split
  all_goals simp

@[simp] theorem posture_moveOn (s : State) (r : MReq) (va code : Nat) (data : List Byte) (tag : GrainTag) :
    posture (moveOn s r va code data tag) = posture s := by
  unfold moveOn
  split
  · exact posture_countEnd _ _ _
  · exact (posture_peerCount _ _ _).trans (posture_modMem (bump s) _)

@[simp] theorem posture_reportStore (s : State) (r : MReq) (code : Nat) : posture (reportStore s r code) = posture s := by
  unfold reportStore
  dsimp only
  repeat' split
  all_goals simp

@[simp] theorem posture_endReq (s : State) (id code : Nat) (data : List Byte) (tag : GrainTag) :
    posture (endReq s id code data tag) = posture s := by
  unfold endReq
  dsimp only
  repeat' split
  all_goals simp

@[simp] theorem posture_failedWriteLands (s : State) : posture (failedWriteLands s).2 = posture s := (rfl)

@[simp] theorem posture_failArrives (s : State) (id : Nat) (r : MReq) : posture (failArrives s id r) = posture s := by
  unfold failArrives
  repeat' split
  all_goals simp

@[simp] theorem posture_failReq (s : State) (id : Nat) : posture (failReq s id) = posture s := by
  unfold failReq
  dsimp only
  repeat' split
  all_goals simp

@[simp] theorem posture_routeReq (s : State) (id : Nat) (r : MReq) : posture (routeReq s id r) = posture s := by
  unfold routeReq
  repeat' split
  all_goals simp

@[simp] theorem posture_startWindow (s : State) (id : Nat) (r : MReq) :
    posture (startWindow s id r) = posture s := by simp [startWindow]

@[simp] theorem posture_startReq (s : State) (id : Nat) : posture (startReq s id) = posture s := by
  unfold startReq
  dsimp only
  repeat' split
  all_goals simp

@[simp] theorem posture_takeSlot (s : State) (c : Nat) (w : Waiting) : posture (takeSlot s c w) = posture s := by
  unfold takeSlot
  dsimp only
  split <;> simp

@[simp] theorem posture_fillSlots (c fuel : Nat) (s : State) : posture (fillSlots c fuel s) = posture s := by
  induction fuel generalizing s with
  | zero => rfl
  | succ fuel ih =>
    unfold fillSlots
    split
    · rfl
    · split
      · rfl
      · exact (ih _).trans (posture_takeSlot _ _ _)

@[simp] theorem posture_pumpSlots (s : State) (c : Nat) : posture (pumpSlots s c) = posture s := by simp [pumpSlots]

/-! ### Saves and restores -/

@[simp] theorem posture_addTokens (s : State) (c b n : Nat) : posture (addTokens s c b n) = posture s := by simp [addTokens]

@[simp] theorem posture_beginSave (s : State) (n : Nat) : posture (beginSave s n) = posture s := by
  unfold beginSave
  dsimp only
  split <;> simp

@[simp] theorem posture_saveGrain (s : State) (n pa : Nat) (d : List Byte) (poison : Bool) :
    posture (saveGrain s n pa d poison) = posture s := by
  unfold saveGrain
  split <;> simp

@[simp] theorem posture_saveState (n pa fuel : Nat) (s : State) : posture (saveState n pa fuel s) = posture s := by
  induction fuel generalizing pa s with
  | zero => rfl
  | succ fuel ih => exact (ih _ _).trans (by simp)

@[simp] theorem posture_writeImage (s : State) (n c : Nat) : posture (writeImage s n c) = posture s :=
  (posture_saveState _ _ _ _).trans (posture_foldl _ _ fun _ _ => posture_saveGrain _ _ _ _ _)

@[simp] theorem posture_rekeyCtx (s : State) (n : Nat) (f : Nat → Nat) : posture (rekeyCtx s n f) = posture s := (rfl)

@[simp] theorem posture_dropEdge (s : State) (c : Nat) : posture (dropEdge s c) = posture s := (rfl)

@[simp] theorem posture_edgeToBlocks (s : State) (c : Nat) : posture (edgeToBlocks s c) = posture s := by
  refine posture_foldl _ _ fun s e => ?_
  split
  · split <;> simp
  · split
    · split <;> simp
    · rfl
  · rfl

@[simp] theorem posture_saveCore (s : State) (n c : Nat) : posture (saveCore s n c) = posture s := by
  rw [saveCore]
  simp

@[simp] theorem posture_chargeSave (s : State) (n k : Nat) : posture (chargeSave s n k) = posture s := (rfl)

@[simp] theorem posture_claimRestore (s : State) (n : Nat) : posture (claimRestore s n) = posture s := by
  unfold claimRestore
  dsimp only
  split <;> simp

@[simp] theorem posture_readSaved (s : State) (n c u : Nat) : posture (readSaved s n c u).2.2 = posture s := by
  induction u with
  | zero => rfl
  | succ u ih => exact (posture_readGrain _ _).trans ih

@[simp] theorem posture_restoreCore (s : State) (n c : Nat) : posture (restoreCore s n c) = posture s := by
  have general : ∀ f, f = restoreCore → posture (f s n c) = posture s := by
    delta restoreCore
    generalize 8192 = grains
    intro f restored
    have read := posture_readSaved s n c grains
    have restored := congrFun (congrFun (congrFun restored s) n) c
    rw [restored]
    generalize readSaved s n c grains = r at read ⊢
    obtain ⟨cells, marks, t⟩ := r
    exact read
  exact general _ rfl

@[simp] theorem posture_restoreCtx (s : State) (n : Nat) : posture (restoreCtx s n) = posture s := by simp [restoreCtx]

@[simp] theorem posture_recordReplay (s : State) (n : Nat) : posture (recordReplay s n) = posture s := (rfl)

@[simp] theorem posture_saveAll (s : State) (n : Nat) : posture (saveAll s n) = posture s := by simp [saveAll]

/-! ### The end of a context -/

@[simp] theorem posture_wakeAll (s : State) (p : Park → Bool) : posture (wakeAll s p) = posture s := by simp [wakeAll]

@[simp] theorem posture_queueFreed (s : State) : posture (queueFreed s) = posture s := by simp [queueFreed]

@[simp] theorem posture_flushFlit (s : State) (c ep : Nat) : posture (flushFlit s c ep) = posture s := by
  unfold flushFlit
  dsimp only
  repeat' split
  all_goals simp

@[simp] theorem posture_closeEnd (s : State) (c ep : Nat) (tellFar : Bool) : posture (closeEnd s c ep tellFar) = posture s := by
  unfold closeEnd
  dsimp only
  repeat' split
  all_goals simp

@[simp] theorem posture_unconfigEnd (s : State) (c ep : Nat) : posture (unconfigEnd s c ep) = posture s := by simp [unconfigEnd]

@[simp] theorem posture_closeCoreEnds (s : State) (c : Nat) : posture (closeCoreEnds s c) = posture s := by simp [closeCoreEnds]

@[simp] theorem posture_settleSteps (s : State) (n : Nat) : posture (settleSteps s n) = posture s := (rfl)

@[simp] theorem posture_settleDue (s : State) : posture (settleDue s) = posture s := by simp [settleDue]

@[simp] theorem posture_releaseHeld (s : State) : posture (releaseHeld s) = posture s := by simp [releaseHeld]

@[simp] theorem posture_dropHubWork (s : State) (n : Nat) : posture (dropHubWork s n) = posture s := by simp [dropHubWork]

@[simp] theorem posture_recomputeEnt (s : State) : posture (recomputeEnt s) = posture s := by
  refine posture_foldl _ _ fun t p => ?_
  dsimp only
  repeat' split
  all_goals simp

@[simp] theorem posture_keepCounters (s : State) (c : Nat) : posture (keepCounters s c) = posture s := by
  unfold keepCounters
  dsimp only
  split <;> simp

@[simp] theorem posture_freeCore (s : State) (c : Nat) : posture (freeCore s c) = posture s := by
  unfold freeCore
  split <;> simp

@[simp] theorem posture_dropUpdWork (s : State) (n : Nat) : posture (dropUpdWork s n) = posture s := (rfl)

@[simp] theorem posture_stopWork (s : State) (n : Nat) : posture (stopWork s n) = posture s := by simp [stopWork]

@[simp] theorem posture_flushReqs (s : State) (p : MReq → Bool) : posture (flushReqs s p) = posture s := by
  refine (posture_modMem _ _).trans (posture_foldl _ _ fun s e => ?_)
  split <;> simp

@[simp] theorem posture_endTeardown (s : State) (n : Nat) : posture (endTeardown s n) = posture s := by
  unfold endTeardown
  dsimp only
  repeat' split
  all_goals simp

@[simp] theorem posture_beginTeardown (s : State) (n : Nat) (reason : Reason) :
    posture (beginTeardown s n reason) = posture s := by
  unfold beginTeardown
  dsimp only
  repeat' split
  all_goals simp

@[simp] theorem posture_preempt (s : State) (n : Nat) : posture (preempt s n) = posture s := by
  unfold preempt
  dsimp only
  split <;> simp

@[simp] theorem posture_dropServing (s : State) (p : Nat) : posture (dropServing s p) = posture s := by
  refine (posture_foldl (f := fun s ix => match tfind s.models ix with
    | none => s
    | some m => m.attached.foldl (fun s a => detachOne s ix a.1) s) _ _ fun s ix => ?_).trans (by simp)
  split
  · rfl
  · simp

@[simp] theorem posture_resetContexts (s : State) (p : Nat) : posture (resetContexts s p) = posture s := by simp [resetContexts]

@[simp] theorem posture_bringDie (s : State) (freq : Nat) (e : Nat × Nat) : posture (bringDie s freq e) = posture s := (rfl)

end Machine
end Sys2Proof
end

section
/-! ### Teardown, saves and restores, the quantum, messages, partition resets (O42) -/
namespace Sys2Proof
namespace Machine

/-- A key that is deleted from a table reads the default. -/
theorem tget_tdel_same {α : Type} (d : α) (t : Tbl α) (k : Nat) : tget d (tdel t k) k = d := by
  induction t with
  | nil => rfl
  | cons e t ih =>
    obtain ⟨i, v⟩ := e
    rw [tdel]
    split
    · exact ih
    next other => rw [tget, if_neg other, ih]

/-- A count in a table that is taken down by one, its entry deleted at 0, reads one less. -/
theorem tget_countDown (t : Tbl Nat) (k : Nat) :
    tget 0 (if tget 0 t k - 1 = 0 then tdel t k else tput t k (tget 0 t k - 1)) k = tget 0 t k - 1 := by
  split
  next zero => rw [tget_tdel_same, zero]
  next => rw [tget_tput_same]

/-- What is posted as deferred leaves a partition's tokens and its pending messages. -/
theorem noteDeferred_keeps (s : State) (p : Nat) :
    (getPart (noteDeferred s p) p).tokens = (getPart s p).tokens ∧ (getPart (noteDeferred s p) p).pba = (getPart s p).pba := by
  rw [← Prod.mk.injEq, noteDeferred, getPart_modPart]
  split
  · rfl
  · refine foldl_keeps (p := fun x : Part => (x.tokens, x.pba)) (fun x e => ?_) _ _
    dsimp only
    split <;> rfl

/-- A message that is sent costs its partition one token and takes one off what the vector has pending. -/
theorem exec_msixSend {s : State} {p v : Nat} (ready : msixReady s p v = true) (turn : msixNext s = some p) :
    ∃ t, exec (.msixSend p v) s = .next (emit t (.msix p v)) ∧ (getPart t p).tokens = (getPart s p).tokens - 1 ∧
      tget 0 (getPart t p).pba v = tget 0 (getPart s p).pba v - 1 := by
  simp only [exec, execMsixSend, ready, turn, bne_self_eq_false, Bool.not_true, Bool.or_self, Bool.false_eq_true, if_false]
  refine ⟨_, rfl, ?_, ?_⟩
  · rw [(noteDeferred_keeps _ p).1, getPart_modPart]
    rfl
  · rw [(noteDeferred_keeps _ p).2, getPart_modPart]
    exact tget_countDown _ _

/-- What a reset does at once to its partition. -/
def resetBegun (x : Part) : Part :=
  { x with
    resetting := true, pba := [], deferred := [], vectors := [], teardown := [], cmdHead := 0, cmdTail := 0, destroyWait := none
    bells := [] }

/-- The steps of a partition reset that begins. -/
theorem resetPart_eq {s : State} {p : Nat} (idle : (getPart s p).resetting = false) : resetPart s p =
    modUpd (dropServing (resetContexts (modPart (dropFirmware s p) p resetBegun) p) p)
      fun u => { u with mirrored := u.mirrored.filter fun e => e.part != p } := by
  rw [resetPart, if_neg (by simp [idle])]
  rfl

/-- A partition that begins to reset is resetting, with its ring at 0, once its contexts, requests and models are gone. -/
theorem resetPart_begins {s : State} {p : Nat} (idle : (getPart s p).resetting = false) :
    (getPart (resetPart s p) p).resetting = true ∧ (getPart (resetPart s p) p).cmdHead = 0 ∧
      (getPart (resetPart s p) p).cmdTail = 0 := by
  have kept : posture (resetPart s p) = posture (modPart (dropFirmware s p) p resetBegun) := by
    rw [resetPart_eq idle, posture_modUpd, posture_dropServing, posture_resetContexts]
  have begun : getPart (modPart (dropFirmware s p) p resetBegun) p = resetBegun (getPart (dropFirmware s p) p) := getPart_modPart _ _ _
  have resetting := congrFun (congrArg Posture.resetting kept) p
  have head := congrFun (congrArg Posture.cmdHead kept) p
  have tail := congrFun (congrArg Posture.cmdTail kept) p
  simp only [posture, begun] at resetting head tail
  exact ⟨resetting, head, tail⟩

/-- Neither the back-invalidates of a partition's windows nor the scrub changes which change record is next. -/
theorem turnOf_finishReset_snoopWindows (s : State) (p : Nat) : turnOf (finishReset (snoopWindows s p) p) = turnOf s := by
  have kept : steady (finishReset (snoopWindows s p) p) = steady s := by rw [steady_finishReset, steady_snoopWindows]
  have sec : (finishReset (snoopWindows s p) p).sec = s.sec := congrArg Steady.sec kept
  rw [turnOf, turnOf, sec]

/-- A partition resets on while none of its contexts ends: the back-invalidates first, then the scrub and the change record that waited. -/
theorem exec_resetScrubDone {s : State} {p : Nat} (resets : (getPart s p).resetting = true)
    (ended : ∀ e ∈ s.ctxs, e.2.part = p → e.2.state ≠ ctxEnding) :
    exec (.resetScrubDone p) s = .next (
      if windowsWait (snoopWindows s p) p then snoopWindows s p
      else match turnOf (finishReset (snoopWindows s p) p) with
        | some i =>
          if (getSlot (finishReset (snoopWindows s p) p) i).awaitReset && bodyIndex (getSlot (finishReset (snoopWindows s p) p) i).body == p
          then applyTurn (finishReset (snoopWindows s p) p) i else finishReset (snoopWindows s p) p
        | none => finishReset (snoopWindows s p) p) := by
  have noneEnds : (s.ctxs.any fun e => e.2.part == p && e.2.state == ctxEnding) = false := by
    simpa using ended
  change execResetScrubDone p s = _
  rw [execResetScrubDone, if_neg (by simp [resets, noneEnds])]
  dsimp only
  by_cases waits : windowsWait (snoopWindows s p) p
  · rw [if_pos waits, if_pos waits]
  · rw [if_neg waits, if_neg waits]
    cases turnOf (finishReset (snoopWindows s p) p) with
    | none => rfl
    | some i => exact (apply_ite Host.Outcome.next _ _ _).symm

/-- A saved context is HELD, and saves no more. -/
theorem saveAll_held (s : State) (n : Nat) : (getCtx (saveAll s n) n).state = ctxHeld ∧ (getCtx (saveAll s n) n).saving = false := by
  rw [saveAll, getCtx_modCtx]
  exact ⟨rfl, rfl⟩

/-- Settles O42: clause by clause; the partition reset by what none of its steps changes (`posture`), the scrub by what it leaves of the
change records (`steady`). -/
theorem contextEvents : Obligations.ContextEvents := by
  refine ⟨?_, ?_, ?_, ?_, ?_, ?_, ?_, saveAll_held, ?_, fun s p v => exec_msixSend, ?_, ?_, ?_, ?_, ?_⟩
  · intro s n ending out
    simp [exec, execTeardownComplete, ending, out]
  · intro s n out
    simp [exec, execTeardownComplete, out]
  · intro s p n r l up service entries
    simp [exec, execTeardownRead, up, service, entries]
  · intro s p up service entries
    simp [exec, execTeardownRead, up, service, entries]
  · intro s alive on awake noHold passed
    refine ⟨_, rfl, ?_⟩
    change execQuantumBoundary s = _
    rw [execQuantumBoundary, if_neg (by simp [alive, on, awake, noHold, passed])]
    rfl
  · intro s early
    have notOver : quantumOver s = false := decide_eq_false (Nat.not_le.mpr early)
    simp [exec, execQuantumBoundary, notOver]
  · intro s n live saving loaded
    simp [exec, execContextSaved, finishSave, live, saving, loaded]
  · intro s n held restoring cores
    simp [exec, execContextRestored, held, restoring, cores]
  · intro s p up service hp idle
    refine ⟨resetPart s p, ?_, resetPart_begins idle⟩
    simp [exec, execPartitionReset, up, service, hp]
  · intro s p up hp resets
    simp [exec, execPartitionReset, resetPart, resets]
  · intro s u p resets ended begun free noTurn
    subst begun
    rw [exec_resetScrubDone resets ended, free, turnOf_finishReset_snoopWindows, noTurn]
    rfl
  · intro s u p resets ended begun waits
    subst begun
    rw [exec_resetScrubDone resets ended, waits]
    rfl
  · intro s u p i resets ended begun free turn await index
    subst begun
    rw [exec_resetScrubDone resets ended, free, turn]
    simp [await, index]

end Machine
end Sys2Proof
end

section
/-! ### What a save leaves of the states of contexts (O49) -/
namespace Sys2Proof
namespace Machine

@[simp] theorem lives_setCore (s : State) (c : Nat) (x : Core) : lives (setCore s c x) = lives s := (rfl)
@[simp] theorem lives_recordReplay (s : State) (n : Nat) : lives (recordReplay s n) = lives s := (rfl)
@[simp] theorem lives_dropEdge (s : State) (c : Nat) : lives (dropEdge s c) = lives s := (rfl)

@[simp] theorem lives_chargeSave (s : State) (n k : Nat) : lives (chargeSave s n k) = lives s := lives_chargeTier _ _ _ _

@[simp] theorem lives_addTokens (s : State) (c b n : Nat) : lives (addTokens s c b n) = lives s := by simp [addTokens]

@[simp] theorem lives_saveGrain (s : State) (n pa : Nat) (d : List Byte) (poison : Bool) : lives (saveGrain s n pa d poison) = lives s := by
  unfold saveGrain
  split <;> simp

@[simp] theorem lives_saveState (n pa fuel : Nat) (s : State) : lives (saveState n pa fuel s) = lives s := by
  induction fuel generalizing pa s with
  | zero => rfl
  | succ fuel ih => exact (ih _ _).trans (by simp)

@[simp] theorem lives_writeImage (s : State) (n c : Nat) : lives (writeImage s n c) = lives s :=
  (lives_saveState _ _ _ _).trans (lives_foldl _ _ fun _ _ => lives_saveGrain _ _ _ _ _)

@[simp] theorem lives_edgeToBlocks (s : State) (c : Nat) : lives (edgeToBlocks s c) = lives s := by
  refine lives_foldl _ _ fun s e => ?_
  split
  · split <;> simp
  · split
    · split <;> simp
    · rfl
  · rfl

@[simp] theorem lives_saveCore (s : State) (n c : Nat) : lives (saveCore s n c) = lives s := by
  rw [saveCore]
  simp

/-- Renaming a context's cores changes no context's state, though the update engines' work follows. -/
theorem state_rekeyCtx (s : State) (n : Nat) (f : Nat → Nat) (k : Nat) : (getCtx (rekeyCtx s n f) k).state = (getCtx s k).state :=
  congrFun (congrArg Lives.state (lives_modCtx rfl)) k

/-- A save changes the state of no other context. -/
theorem state_saveAll_ne (s : State) {n k : Nat} (other : n ≠ k) : (getCtx (saveAll s n) k).state = (getCtx s k).state := by
  rw [saveAll, getCtx_modCtx_ne _ _ _ _ other, state_rekeyCtx]
  have kept := (lives_saveState n ((getCtx (chargeSave (recordReplay s n) n (heldByCtx (recordReplay s n) n).length) n).savePa + 256) 255
    (chargeSave (recordReplay s n) n (heldByCtx (recordReplay s n) n).length)).trans (lives_chargeSave (recordReplay s n) n _)
  exact congrFun (congrArg Lives.state ((lives_foldl _ _ fun _ c => lives_saveCore _ n c).trans kept)) k

@[simp] theorem lives_beginSave (s : State) (n : Nat) : lives (beginSave s n) = lives s := by
  unfold beginSave
  dsimp only
  split <;> simp

/-- Preempting a context changes the state of none. -/
theorem lives_preempt (s : State) (n : Nat) : lives (preempt s n) = lives s := by
  unfold preempt
  dsimp only
  split
  · exact lives_beginSave s n
  · rfl

/-! ### Bring-up, stage by stage (O49) -/

/-- The save of a context for the speed test. -/
def testSave (s : State) (n : Nat) : State := saveAll (preempt s n) n

/-- A context that is HELD stays so while others are saved for the speed test. -/
theorem state_foldl_testSave {l : List Nat} {s : State} {k : Nat} (h : k ∈ l ∨ (getCtx s k).state = ctxHeld) :
    (getCtx (l.foldl testSave s) k).state = ctxHeld := by
  induction l generalizing s with
  | nil => simpa using h
  | cons n l ih =>
    refine ih ?_
    by_cases same : n = k
    · subst same
      exact .inr (saveAll_held _ _).1
    · rcases h with mem | held
      · exact .inl ((List.mem_cons.mp mem).resolve_left fun eq => same eq.symm)
      · refine .inr ?_
        rw [testSave, state_saveAll_ne _ same]
        exact (congrFun (congrArg Lives.state (lives_preempt s n)) k).trans held

/-- The saves for the speed test leave power as it is. -/
theorem pwr_foldl_testSave (l : List Nat) (s : State) : (l.foldl testSave s).pwr = s.pwr :=
  congrArg Posture.pwr (posture_foldl l s fun s n => (posture_saveAll _ n).trans (posture_preempt s n))

/-- The saves for the speed test take no local tick. -/
theorem tick_foldl_testSave (l : List Nat) (s : State) : (l.foldl testSave s).clk.tick = s.clk.tick :=
  congrArg Steady.tick (steady_foldl l s fun s n => (steady_saveAll _ n).trans (steady_preempt s n))

/-- A speed test starts once the self-tests are done and no context on die 0 is being loaded. -/
theorem exec_speedTest {s : State} (run : running s = true) (early : s.pwr.service = 1) (selfTested : s.pwr.selfTested = true)
    (untested : s.pwr.speedTested = false) (idle : s.pwr.speedTest = none) (loaded : ∀ n ∈ onDie0 s, (getCtx s n).loadp = none) :
    exec .speedTest s = .next (modPwr ((onDie0 s).foldl testSave s) fun p =>
      { p with speedTest := some (now ((onDie0 s).foldl testSave s), onDie0 s) }) := by
  have noneLoads : ((onDie0 s).any fun n => (getCtx s n).loadp.isSome) = false := by
    simpa using loaded
  change execSpeedTest s = _
  rw [execSpeedTest, if_neg (by simp [run, early, selfTested, untested, idle, noneLoads])]
  rfl

/-- The context that comes back from the speed test leaves power as it is. -/
theorem posture_bringBack (s : State) (n : Nat) : posture (bringBack s n) = posture s := by
  rw [bringBack, posture_restoreCtx, posture_claimRestore, posture_modCtx]

/-- The speed test ends 96,000,000 ticks after its start. -/
theorem endSpeedTest_results (s : State) (t0 : Nat) (l : List Nat) (test : s.pwr.speedTest = some (t0, l)) :
    (s.clk.tick < t0 + 96000000 → endSpeedTest s = s) ∧
    (t0 + 96000000 ≤ s.clk.tick → (endSpeedTest s).pwr.speedTested = true ∧ (endSpeedTest s).pwr.speedTest = none) := by
  refine ⟨fun early => ?_, fun passed => ?_⟩
  · simp only [endSpeedTest, test]
    exact if_pos early
  · have ended : (endSpeedTest s).pwr = { s.pwr with speedTest := none, speedTested := true } := by
      simp only [endSpeedTest, test]
      rw [if_neg (show ¬ now s < t0 + 96000000 from Nat.not_lt.mpr passed)]
      exact pwr_of_posture_eq (posture_foldl _ _ posture_bringBack)
    rw [ended]
    exact ⟨rfl, rfl⟩

/-- The lane maps of the record are loaded into the ports only. -/
theorem loadLaneMaps_keeps {β : Type} {p : State → β} (ports : ∀ s l, p { s with ports := l } = p s) (s : State) :
    p (loadLaneMaps s) = p s :=
  foldl_keeps (f := fun t k => modPort t k fun q => { q with spare := tget 0 (carrier s).peerSpare k }) (fun _ _ => ports _ _) _ _

/-- What is noted of a short record changes neither the service nor the stage. -/
theorem noteRecord_stage (s : State) : (noteRecord s).pwr.service = s.pwr.service ∧ (noteRecord s).pwr.stage = s.pwr.stage := by
  unfold noteRecord
  dsimp only
  split <;> exact ⟨rfl, rfl⟩

/-- Recovery, with its code, at the stage it was found at. -/
theorem enterRecovery_fields (s : State) (code : Nat) : (enterRecovery s code).pwr.service = 3 ∧
    (enterRecovery s code).pwr.bootCode = code ∧ (enterRecovery s code).pwr.stage = s.pwr.stage := ⟨rfl, rfl, rfl⟩

/-- The stage a module is at. -/
theorem stage_of_atStage {s : State} {k : Nat} (h : atStage s k = true) : s.pwr.stage = k := by
  simp only [atStage, Bool.and_eq_true, beq_iff_eq] at h
  exact h.2

/-- What a module takes from the copy of the record that it picks. -/
def recordTaken (s : State) : State :=
  loadLaneMaps (modRec (modPwr s fun p => { p with currentB := pickB p, stage := 1 }) fun r => { r with failedCores := [] })

/-- The record is verified: one valid copy is enough, and the copy in use is picked. -/
theorem exec_recordVerify {s : State} (a b : CopyCheck) (stage : atStage s 0 = true) :
    exec (.recordVerify a b) s = .next (
      let u := modPwr s fun p => { p with checkA := a, checkB := b }
      if a ≠ .valid ∧ b ≠ .valid then enterRecovery u 1
      else modClk (recordTaken u) fun c => { c with dies := namedDies (carrier (recordTaken u)) c.dies }) := by
  change execRecordVerify a b s = _
  rw [execRecordVerify, if_neg (by simp [stage])]
  dsimp only
  by_cases invalid : a ≠ .valid ∧ b ≠ .valid
  · rw [if_pos invalid, if_pos (by simpa using invalid)]
  · rw [if_neg invalid, if_neg (by simpa using invalid)]
    rfl

/-- Taking the record moves the module to stage 1, in the copy picked, and changes neither memory nor cores. -/
theorem recordTaken_fields (s : State) : (recordTaken s).pwr = { s.pwr with currentB := pickB s.pwr, stage := 1 } ∧
    (recordTaken s).mem = s.mem ∧ (recordTaken s).cores = s.cores :=
  ⟨loadLaneMaps_keeps (p := State.pwr) (fun _ _ => rfl) _, loadLaneMaps_keeps (p := State.mem) (fun _ _ => rfl) _,
    loadLaneMaps_keeps (p := State.cores) (fun _ _ => rfl) _⟩

/-- One valid copy of the record: the module goes on to stage 1. -/
theorem recordVerify_valid {s : State} {a b : CopyCheck} (stage : atStage s 0 = true) (valid : a = .valid ∨ b = .valid) :
    ∃ t, exec (.recordVerify a b) s = .next t ∧ t.pwr.stage = 1 ∧ t.pwr.service = s.pwr.service ∧
      t.pwr.currentB = pickB (modPwr s fun p => { p with checkA := a, checkB := b }).pwr ∧ t.mem = s.mem ∧ t.cores = s.cores := by
  have notBoth : ¬ (a ≠ .valid ∧ b ≠ .valid) := fun h => valid.elim h.1 h.2
  obtain ⟨pwr, mem, cores⟩ := recordTaken_fields (modPwr s fun p => { p with checkA := a, checkB := b })
  refine ⟨_, (exec_recordVerify a b stage).trans (congrArg _ (if_neg notBoth)), ?_, ?_, ?_, mem, cores⟩
  · rw [modClk_pwr, pwr]
  · rw [modClk_pwr, pwr, modPwr_pwr]
  · rw [modClk_pwr, pwr]

/-- The identity check: a valid copy of the protection record and a matching identity, else recovery with code 2. -/
theorem exec_identityCheck {s : State} (r : IdentityRead) (stage : atStage s 1 = true) :
    exec (.identityCheck r) s = .next (
      if identityMatches r.puf = true ∧ (r.current = .valid ∨ r.other = .valid) then
        modPwr (modSec s fun c => { pickProt c r.current r.other with
          puf := Config.pufCorrect r.puf Config.pufHelper, idDigest := fit 64 Config.idDigest })
          fun p => { p with stage := 2, idOk := true }
      else enterRecovery s 2) := by
  change execIdentityCheck r s = _
  rw [execIdentityCheck, if_neg (by simp [stage])]
  by_cases matches_ : identityMatches r.puf = true ∧ (r.current = .valid ∨ r.other = .valid)
  · rw [if_pos matches_, if_pos (by simpa using matches_)]
  · rw [if_neg matches_, if_neg (by simpa using matches_)]

/-- Which copy of the protection record is taken: the valid one with the higher sequence number. -/
theorem prot_pickProt (c : Sec) :
    ((pickProt c .valid .valid).prot = if c.prot.cfgSeq < c.protOther.cfgSeq then c.protOther else c.prot) ∧
    ∀ k, k ≠ .valid → (pickProt c .valid k).prot = c.prot ∧ (pickProt c k .valid).prot = c.protOther := by
  refine ⟨?_, fun k invalid => ⟨?_, ?_⟩⟩
  · by_cases newer : c.prot.cfgSeq < c.protOther.cfgSeq
    · simp [pickProt, newer]
    · simp [pickProt, newer]
  · simp [pickProt, invalid]
  · simp [pickProt, invalid]

/-- Firmware boots from the active slot, else from the other one; with PERST released the link may then train. -/
theorem firmwareBoot_boots {s : State} {i : FwImage} (stage : atStage s 2 = true) (image : bootImage s = some i) :
    ∃ t, exec .firmwareBoot s = .next t ∧ t.pwr.stage = 3 ∧ t.sec.fwRunning = some i ∧
      (s.pwr.perst = false → t.host.cfgReady = true) := by
  simp only [exec, execFirmwareBoot, stage, image, Bool.not_true, Bool.false_eq_true, if_false]
  refine ⟨_, rfl, ?_⟩
  split
  next held => exact ⟨rfl, rfl, fun released => by simp [released] at held⟩
  next => exact ⟨rfl, rfl, fun _ => rfl⟩

/-- What a module in early service has brought up: its assigned units and the first of its dies. -/
def earlyUnits (s : State) : State :=
  let s := assignUnits s
  let s := (activeDies s).foldl (fun s k => modDie s k fun d => { d with state := 1 }) s
  ((dieOrder s).take 1).foldl (fun s e => bringDie s 550 e) s

/-- Early service starts with a die that is active. -/
theorem exec_earlyService {s : State} (stage : atStage s 3 = true ∨ atStage s 4 = true) (dies : activeDies s ≠ []) :
    exec .earlyService s = .next (recomputeEnt (noteRecord (modPwr (earlyUnits s) fun p => { p with service := 1, stage := 5 }))) := by
  have ready : (!(atStage s 3 || atStage s 4) || (activeDies s).isEmpty) = false := by
    rcases stage with h | h <;> simp [h, dies]
  change execEarlyService s = _
  rw [execEarlyService, if_neg (Bool.eq_false_iff.mp ready)]
  rfl

/-- A module in early service is in service 1, at stage 5. -/
theorem earlyService_starts {s : State} (stage : atStage s 3 = true ∨ atStage s 4 = true) (dies : activeDies s ≠ []) :
    ∃ t, exec .earlyService s = .next t ∧ t.pwr.service = 1 ∧ t.pwr.stage = 5 := by
  have kept (u : State) : (recomputeEnt u).pwr = u.pwr := pwr_of_posture_eq (posture_recomputeEnt u)
  obtain ⟨service, stage5⟩ := noteRecord_stage (modPwr (earlyUnits s) fun p => { p with service := 1, stage := 5 })
  refine ⟨_, exec_earlyService stage dies, ?_, ?_⟩
  · rw [kept, service, modPwr_pwr]
  · rw [kept, stage5, modPwr_pwr]

/-- The speed test: the contexts on logical die 0 are HELD from its start. -/
theorem speedTest_holds {s : State} (run : running s = true) (early : s.pwr.service = 1) (selfTested : s.pwr.selfTested = true)
    (untested : s.pwr.speedTested = false) (idle : s.pwr.speedTest = none) (loaded : ∀ n ∈ onDie0 s, (getCtx s n).loadp = none) :
    ∃ t, exec .speedTest s = .next t ∧ t.pwr.speedTest = some (s.clk.tick, onDie0 s) ∧ t.pwr.speedTested = false ∧
      ∀ n ∈ onDie0 s, (getCtx t n).state = ctxHeld := by
  refine ⟨_, exec_speedTest run early selfTested untested idle loaded, ?_, ?_, fun n hn => state_foldl_testSave (.inl hn)⟩
  · rw [modPwr_pwr, now, tick_foldl_testSave]
  · rw [modPwr_pwr, pwr_foldl_testSave, untested]

/-- Settles O49: stage by stage; the speed test by what a save leaves of power (`posture`), of the clock (`steady`) and of the
other contexts' states (`lives`). -/
theorem bringupResults : Obligations.BringupResults := by
  refine ⟨fun s a b => recordVerify_valid, ?_, ?_, ?_, prot_pickProt, fun s i => firmwareBoot_boots, ?_, fun s => earlyService_starts,
    ?_, ?_, fun s => speedTest_holds, endSpeedTest_results, ?_, ?_⟩
  · intro s a b stage badA badB
    exact ⟨_, (exec_recordVerify a b stage).trans (congrArg _ (if_pos ⟨badA, badB⟩)), rfl, rfl⟩
  · intro s r stage valid
    rw [exec_identityCheck r stage]
    refine ⟨_, rfl, fun same => ?_, fun other => ?_⟩
    · rw [if_pos ⟨same, valid⟩]
      exact ⟨rfl, rfl, rfl, rfl, rfl⟩
    · rw [if_neg fun h => absurd (other.symm.trans h.1) Bool.false_ne_true]
      exact ⟨rfl, rfl, (stage_of_atStage stage : s.pwr.stage = 1)⟩
  · intro s r stage badCurrent badOther
    rw [exec_identityCheck r stage, if_neg fun h => h.2.elim badCurrent badOther]
    exact ⟨_, rfl, rfl, rfl, (stage_of_atStage stage : s.pwr.stage = 1)⟩
  · intro s stage noImage
    refine ⟨enterRecovery s 3, ?_, rfl, rfl⟩
    simp [exec, execFirmwareBoot, stage, noImage]
  · intro s l stage
    have ready : (atStage s 3 || atStage s 4) = true := by simpa using stage
    simp [exec, execUnitSelfTestDone, ready]
  · intro s l run early untested
    have notBoot (k : Nat) : atStage s k = false := by simp [atStage, early]
    simp [exec, execUnitSelfTestDone, notBoot, run, early, untested]
  · intro s run early selfTested speedTested
    refine ⟨modPwr ((dieOrder s).foldl (fun s e => bringDie s 1100 e) s) fun p => { p with service := 2, stage := 6 }, ?_, rfl, rfl⟩
    simp [exec, execFullService, run, early, selfTested, speedTested]
  · intro s a b stage
    simp [exec, execRecordVerify, stage]

end Machine
end Sys2Proof
end

section
/-! ### Lost units (O43) -/
namespace Sys2Proof
namespace Machine

/-- A running module that took note of hub die 0 as moved at tick 0 and whose time to recover from that has passed. -/
def hubDieMoved : State :=
  { State.reset with
    pwr := { State.reset.pwr with off := false }
    clk := { State.reset.clk with tick := 961 }
    recov := { State.reset.recov with fatal := false, rerouted := [(.die 0, 1, 0)] } }

theorem running_hubDieMoved : running hubDieMoved = true := rfl

/-- A fault of a hub unit that was moved away before, after its time to recover, has no effect: that of a hub die is no exception. -/
theorem hubPathFault_hubDieMoved : exec (.hubPathFault (.die 0)) hubDieMoved = .next hubDieMoved := by
  have moved : loseHubUnit hubDieMoved (.die 0) = hubDieMoved := by
    rw [loseHubUnit, if_neg (by decide), if_pos (by decide)]
  change execHubPathFault (.die 0) hubDieMoved = _
  rw [execHubPathFault, if_pos (by decide), moved]

/-- Refutes O43: its clause on a fault of a hub die holds of every running module; one that lists the hub die among the units moved
away, whose 960 ticks have passed, stays as it is and does not go into FATAL. (The clause is about every state: no event of the model
itself lists a hub die there.) -/
theorem not_unitLoss : ¬ Obligations.UnitLoss := by
  rintro ⟨-, -, -, -, -, -, -, -, -, hubDie, -⟩
  have entered := hubDie hubDieMoved 0 running_hubDieMoved (by decide)
  rw [hubPathFault_hubDieMoved] at entered
  have same : hubDieMoved = enterFatal hubDieMoved := Host.Outcome.next.inj entered
  have fatal := (enterFatal_fields running_hubDieMoved).1
  rw [← same] at fatal
  exact Bool.false_ne_true fatal

end Machine
end Sys2Proof
end

section
/-! ### Low power: the end of Hold (O50) -/
namespace Sys2Proof
namespace Machine

/-- Without service no partition has work that firmware takes. -/
theorem firstWork_noService {s : State} (off : s.pwr.service = 0) (p : Nat) : firstWork s p = none := by
  simp [firstWork, accepting, off]

/-- Without service firmware takes no doorbell. -/
theorem pumpBells_noService {s : State} (off : s.pwr.service = 0) : pumpBells s = s := by
  have noTurn : nextTurn s = none := by
    simp [nextTurn, firstWork_noService off]
  rw [pumpBells]
  split
  · rfl
  · cases bellCount s with
    | zero => rfl
    | succ fuel => rw [takeBells, noTurn]

/-- A port to the partner that still has a QCONFIG to send. -/
def qconfigPort : Port :=
  { Port.reset with
    state := ptActive, farPeer := 4
    txWait := [{ lseq := 0, cls := 0, dst := 4, foreign := false, relay := false, eseq := none, msg := .qconfig 4 0 0 0 0 false }] }

/-- A control thread that waits until that QCONFIG has left. -/
def qconfigWaiter : Ctx :=
  { Ctx.reset with ctl := { Ctx.reset.ctl with thr := { Thread.reset with st := .parked 0 (.qconfigOut 0 0) 0 } } }

/-- A module in Hold, in no service, whose port 7 is up and holds the QCONFIG. -/
def holdWithQconfig : State :=
  { State.reset with
    pwr := { State.reset.pwr with off := false, inHold := true, service := 0 }
    peers := { Peers.reset with present := 16 }
    ports := [(7, qconfigPort)]
    ctxs := [(0, qconfigWaiter)] }

/-- That module once Hold is over and its other ports are enabled: the port changes go out as ROUTES through port 7, and the QCONFIG
that waited before them leaves. -/
def heldQconfigLeft : State := enablePorts (rejoin (emit (modPwr holdWithQconfig fun p => { p with inHold := false }) (.l12 false)))

theorem leaveHold_holdWithQconfig : leaveHold holdWithQconfig = pumpBells heldQconfigLeft := by
  rw [leaveHold, if_neg (by decide)]
  rfl

/-- The control thread that waited for its QCONFIG goes on. -/
theorem waiter_heldQconfigLeft : (getCtx heldQconfigLeft 0).ctl.thr.st = .runnable := by
  decide

/-- Whatever state firmware's turns start from, if they end in that one they have changed nothing: there is no service. -/
theorem eq_heldQconfigLeft {t : State} (h : pumpBells t = heldQconfigLeft) : t = heldQconfigLeft := by
  have service : t.pwr.service = heldQconfigLeft.pwr.service :=
    (congrArg Steady.service (steady_pumpBells t)).symm.trans (congrArg (fun s : State => s.pwr.service) h)
  have off : heldQconfigLeft.pwr.service = 0 := by decide
  rw [← h, pumpBells_noService (service.trans off)]

/-- Refutes O50: its clause on HOLD_EXIT claims that the contexts stay as they are until firmware takes the doorbells that waited; but the
ports that are enabled send ROUTES, and with them leaves the QCONFIG on which a control thread waits, which goes on. (The clause is
about every state in Hold; the model itself enters Hold with its ports off.) -/
theorem not_lowPower : ¬ Obligations.LowPower := by
  rintro ⟨-, -, -, -, -, -, -, -, -, holdExit, -⟩
  obtain ⟨t, left, -, -, ctxs, -⟩ := holdExit holdWithQconfig (by decide) (by decide)
  have result : exec .holdExit holdWithQconfig = .next (pumpBells heldQconfigLeft) :=
    congrArg Host.Outcome.next leaveHold_holdWithQconfig
  have off : heldQconfigLeft.pwr.service = 0 := by decide
  rw [result, pumpBells_noService off] at left
  have same := eq_heldQconfigLeft (Host.Outcome.next.inj left).symm
  have thread : (getCtx heldQconfigLeft 0).ctl.thr.st = (getCtx holdWithQconfig 0).ctl.thr.st := by
    rw [getCtx, getCtx, ← same, ctxs]
  rw [waiter_heldQconfigLeft] at thread
  exact absurd thread (by decide)

end Machine
end Sys2Proof
end

section
/-! ### Firmware VERIFY, ACTIVATE and the switch of control cores (O52) -/
namespace Sys2Proof
namespace Machine

/-- What holds of the default and of every new entry under a key holds of what the key reads in a table that is mapped over. -/
theorem tget_tmap_all {α : Type} {p : α → Prop} {d : α} {f : Nat → α → α} {k : Nat} (default : p d)
    (mapped : ∀ v, p (f k v)) (t : Tbl α) :
    p (tget d (tmap f t) k) := by
  induction t with
  | nil => exact default
  | cons e t ih =>
    obtain ⟨i, v⟩ := e
    rw [tmap, List.map_cons, tget]
    split
    next same => exact same ▸ mapped v
    next => exact ih

/-- The control threads of a control core that pauses run no more. -/
theorem thr_onControls_parkControl {s u : State} {cc n : Nat} (home : controlCoreOf n = cc) :
    (getCtx (onControls s cc (parkControl u)) n).ctl.thr.st ≠ .runnable := by
  have bare : Ctx.reset.ctl.thr.st ≠ .runnable := by decide
  refine tget_tmap_all (p := fun x : Ctx => x.ctl.thr.st ≠ .runnable)
    (f := fun n x => if controlCoreOf n = cc then { x with ctl := { x.ctl with thr := parkControl u x.ctl.thr } } else x)
    bare (fun x => ?_) s.ctxs
  dsimp only
  rw [if_pos home]
  dsimp only [parkControl]
  split
  · exact fun running => nomatch running
  next idle => exact idle

/-- VERIFY of a module whose firmware engine is not busy. -/
theorem exec_fwVerify {s u : State} {bs : List Byte} {bad : Bool} (up : hostUp s = true) (idle : s.sec.fwState ≠ fsBusy)
    (stage : stageOk s s.sec.stagePa s.sec.fwBytes = true) (fetched : fwFetch s s.sec.stagePa s.sec.fwBytes = (bs, bad, u)) :
    exec .fwVerify s = .next (if bad then fwEnd u fsIdle fwBadSig
      else modSec u fun x => { x with fwState := fsBusy, fwSlots := tput x.fwSlots (otherSlot u) (readImg bs) }) := by
  change execFwVerify s = _
  rw [execFwVerify, if_neg (by simp [up]), if_neg idle, if_neg (by simp [stage]), fetched]
  cases bad <;> rfl

/-- ACTIVATE of a verified image while no change record is being applied. -/
theorem exec_fwActivate_verified {s : State} (up : hostUp s = true) (verified : s.sec.fwState = fsVerified) (settled : applying s = false) :
    exec .fwActivate s = .next (startActivate s) := by
  have idle : s.sec.fwState ≠ fsBusy := by
    rw [verified]
    decide
  change execFwActivate s = _
  rw [execFwActivate, if_neg (by simp [up]), if_neg idle, if_neg (by simp [verified]), if_neg (by simp [settled])]

/-- An image that no longer passes its check is not admitted where both signatures are required. -/
theorem not_stillAdmitted {s : State} {i : FwImage} (cosign : s.sec.prot.cosign = true) (fails : imageResult s i ≠ fwOk) :
    stillAdmitted s i = false := by
  simp [stillAdmitted, cosign, fails]

/-- A paused control core that passes its self-check goes on with the new image, and the next core's turn comes. -/
theorem exec_fwCoreSwitch_paused {s : State} {ok : Bool} (run : running s = true) (mode : s.sec.fwMode = 2)
    (paused : s.sec.fwPaused = true) :
    exec (.fwCoreSwitch ok) s =
      .next (if s.sec.fwStep = 0 ∧ ok = false then fwEnd (resumeCore s) fsIdle fwSelfCheck else switchCore s) := by
  change execFwCoreSwitch ok s = _
  rw [execFwCoreSwitch, if_neg (by simp [run, mode]), if_neg (by simp [paused])]
  by_cases failed : s.sec.fwStep = 0 ∧ ok = false
  · rw [if_pos failed, if_pos (by simpa using failed)]
  · rw [if_neg failed, if_neg (by simpa using failed)]

/-- A control core whose journal holds no incomplete entry pauses: its control threads run no more, and memory stays as it is. -/
theorem fwCoreSwitch_pauses {s : State} {ok : Bool} (run : running s = true) (mode : s.sec.fwMode = 2) (goes : s.sec.fwPaused = false)
    (done : openEntries s s.sec.fwStep = []) :
    ∃ t, exec (.fwCoreSwitch ok) s = .next t ∧ coreStops t s.sec.fwStep = true ∧ t.sec.fwStep = s.sec.fwStep ∧ t.mem = s.mem ∧
      ∀ n, controlCoreOf n = s.sec.fwStep → (getCtx t n).ctl.thr.st ≠ .runnable := by
  have paused : exec (.fwCoreSwitch ok) s = .next (pauseCore s) := by
    simp [exec, execFwCoreSwitch, run, mode, goes, done]
  refine ⟨_, paused, ?_, rfl, rfl, fun n home => thr_onControls_parkControl home⟩
  simp [coreStops, pauseCore, onControls, modSec]

/-- Settles O52: command by command, over what the firmware engine is doing. -/
theorem firmwareResults : Obligations.FirmwareResults := by
  refine ⟨fun s u bs up idle stage fetched => exec_fwVerify up idle stage fetched,
    fun s u bs up idle stage fetched => exec_fwVerify up idle stage fetched,
    ?_, ?_, ?_, ?_, ?_, ?_, ?_, fun s i => not_stillAdmitted, fun s ok => fwCoreSwitch_pauses, ?_, ?_, ?_, ?_, ?_⟩
  · intro s up idle stage
    simp [exec, execFwVerify, up, idle, stage]
  · intro s up busy
    exact ⟨by simp [exec, execFwVerify, fwIgnore, up, busy], by simp [exec, execFwActivate, fwIgnore, up, busy]⟩
  · intro s run busy mode
    simp [exec, execFwVerifyDone, run, busy, mode]
  · intro s up verified applies
    have idle : fsVerified ≠ fsBusy := by decide
    simp [exec, execFwActivate, up, verified, idle, applies]
  · intro s up verified settled gone
    simp only [exec_fwActivate_verified up verified settled, startActivate, gone, Bool.not_false, if_true]
  · intro s up verified settled admitted normal table
    simp [exec_fwActivate_verified up verified settled, startActivate, admitted, normal, table]
  · intro s up verified settled admitted other
    have marks : (inRecovery s || runningTable s != some (stagedImage s).tableVersion) = true := by simpa using other
    simp [exec_fwActivate_verified up verified settled, startActivate, markActive, admitted, marks]
  · intro s ok mode goes open_
    simp [exec, execFwCoreSwitch, mode, goes, open_]
  · intro s run mode paused inner
    rw [exec_fwCoreSwitch_paused run mode paused, if_neg (by simp), switchCore]
    exact congrArg _ (if_neg (by omega))
  · intro s run mode paused last
    rw [exec_fwCoreSwitch_paused run mode paused, if_neg (by simp), switchCore, last]
    rfl
  · intro s run mode paused first_
    rw [exec_fwCoreSwitch_paused run mode paused, if_pos ⟨first_, rfl⟩]
  · intro s b mode
    simp [exec, execFwCoreSwitch, mode]

end Machine
end Sys2Proof
end

section
/-! ### Change records (O53) -/
namespace Sys2Proof
namespace Machine

/-- A slot reads as it was written last. -/
@[simp] theorem getSlot_setCr (s : State) (i : Nat) (x : CrSlot) : getSlot (setCr s i x) i = x := tget_tput_same _ _ _ _

/-- SUBMIT of a slot that is empty or whose record has ended. -/
theorem exec_crSubmit {s u : State} {i : Nat} {b : Option (List Byte)} (up : secUp s = true) (hi : i < 4)
    (free : (getSlot s i).state = csEmpty ∨ csApplied ≤ (getSlot s i).state) (body : readBody s (getSlot s i).bodyPa = (b, u)) :
    exec (.crSubmit i) s = .next (setCr u i (submitted u (getSlot s i) b)) := by
  have ended : (getSlot s i).state ≠ csPending ∧ (getSlot s i).state ≠ csSigned1 ∧ (getSlot s i).state ≠ csApplying := by
    simp only [csEmpty, csPending, csSigned1, csApplying, csApplied] at free ⊢
    omega
  obtain ⟨notPending, notSigned, notApplying⟩ := ended
  simp [exec, execCrSubmit, up, Nat.not_le.mpr hi, notPending, notSigned, notApplying, body]

/-- A body in its format that names this module makes the slot's record pending. -/
theorem submitted_pending {s : State} {x : CrSlot} {b : List Byte} (format : bodyOk b = true) (module_ : slice b 16 64 = s.sec.idDigest) :
    submitted s x (some b) = { CrSlot.reset with
      bodyPa := x.bodyPa, sigPa := x.sigPa, submitTick := now s, window := s.sec.prot.window, body := b, digest := leNat (shake256 b)
      state := csPending } := by
  simp [submitted, format, module_]

section
variable {s u : State} {i : Nat} {sig : Option (List Byte)} (up : secUp s = true) (hi : i < 4)
  (open_ : windowPassed s (getSlot s i) = false) (read : sigOf s (getSlot s i) = (sig, u))
include up hi open_ read

/-- A signature that cannot be read, or that no role's key made, is counted as bad. -/
theorem crSign_unsigned (noRole : ∀ b, sig = some b → signerOf u (getSlot s i) b = none) :
    exec (.crSign i) s = .next (badSig u) := by
  have noSigner : (sig.bind fun b => (signerOf u (getSlot s i) b).map fun r => (r, b)) = none := by
    cases sig with
    | none => rfl
    | some b => rw [Option.bind_some, noRole b rfl, Option.map_none]
  change execCrSign i s = _
  rw [execCrSign, if_neg (by simp [up, hi]), if_neg (by simp [open_]), read]
  dsimp only
  rw [noSigner]

/-- A signature of a role that has signed before is counted as bad; else it is added while the record still takes signatures. -/
theorem crSign_signed {r : Nat} {b : List Byte} (present : sig = some b) (role : signerOf u (getSlot s i) b = some r) :
    exec (.crSign i) s = .next (
      if (r = 0 ∧ (getSlot s i).operator = true) ∨ (r = 1 ∧ (getSlot s i).custodian = true) then badSig u
      else if (getSlot s i).state = csPending ∨ (getSlot s i).state = csSigned1 then addSign u i (getSlot s i) r b else u) := by
  have signer : (sig.bind fun b => (signerOf u (getSlot s i) b).map fun r => (r, b)) = some (r, b) := by
    rw [present, Option.bind_some, role, Option.map_some]
  change execCrSign i s = _
  rw [execCrSign, if_neg (by simp [up, hi]), if_neg (by simp [open_]), read]
  dsimp only
  rw [signer]
  dsimp only
  by_cases again : (r = 0 ∧ (getSlot s i).operator = true) ∨ (r = 1 ∧ (getSlot s i).custodian = true)
  · rw [if_pos again, if_pos (by simpa using again)]
  · rw [if_neg again, if_neg (by simpa using again)]
    by_cases takes : (getSlot s i).state = csPending ∨ (getSlot s i).state = csSigned1
    · rw [if_pos takes, if_pos (by simpa using takes)]
    · rw [if_neg takes, if_neg (by simpa using takes)]

end

/-- The second signature makes the record the next to be applied, behind those signed before it. -/
theorem addSign_second {s : State} {i r : Nat} {x : CrSlot} {b : List Byte} (hr : r < 2) (op : (x.operator || r == 0) = true)
    (cu : (x.custodian || r == 1) = true) :
    (getSlot (addSign s i x r b) i).state = csApplying ∧ (getSlot (addSign s i x r b) i).order = s.sec.nextOrder ∧
    (r = 0 → (getSlot (addSign s i x r b) i).opSig = b) ∧ (r = 1 → (getSlot (addSign s i x r b) i).cuSig = b) := by
  have order (y : CrSlot) : getSlot (modSec (setCr s i y) fun c => { c with nextOrder := c.nextOrder + 1 }) i = y := getSlot_setCr s i y
  obtain rfl | rfl : r = 0 ∨ r = 1 := by omega
  · have custodian : x.custodian = true := by simpa using cu
    simp [addSign, custodian, order]
  · have operator : x.operator = true := by simpa using op
    simp [addSign, operator, order]

/-- The turn of a record whose sequence number is no longer the next: it ends as stale. -/
theorem stepApply_stale {s : State} {i : Nat} {x : CrSlot} (stale : bodyWord x.body 1 ≠ s.sec.prot.cfgSeq) :
    stepApply s i x = endSlot s i csRejected crStale := by
  simp [stepApply, stale]

/-- The turn of a record no longer signed under the enrolled keys: it takes no effect. -/
theorem stepApply_unsigned {s : State} {i : Nat} {x : CrSlot} (current : bodyWord x.body 1 = s.sec.prot.cfgSeq)
    (unsigned : signedNow s x = false) : stepApply s i x = endSlot s i csRejected crCheck := by
  simp [stepApply, current, unsigned]

/-- The turn of a signed record about firmware and windows whose settings pass the checks: it is applied. -/
theorem stepApply_firmware {s : State} {i : Nat} {x : CrSlot} (current : bodyWord x.body 1 = s.sec.prot.cfgSeq)
    (table : tableOk (newSettings s.sec.prot x.body) = true) (rules : rulesOk (newSettings s.sec.prot x.body) = true)
    (kind : bodyKind x.body = 3) (signed : signedNow s x = true) : stepApply s i x = applySlot s i x := by
  simp [stepApply, current, table, rules, kind, signed]

/-- The settings that a record about firmware and windows asks for. -/
theorem newSettings_firmware {p : Protection} {b : List Byte} (kind : bodyKind b = 3) : newSettings p b =
    { p with cfgSeq := p.cfgSeq + 1, cosign := bit (payWord b 0) 32, minFw := bits (payWord b 0) 31 0, window := payWord b 1 } := by
  simp [newSettings, kind]

/-- A record that is applied: its settings stand in the copy that was not in use, and the settings before it in the other. -/
theorem applySlot_fields (s : State) (i : Nat) (x : CrSlot) : (getSlot (applySlot s i x) i).state = csApplied ∧
    (applySlot s i x).sec.prot = newSettings s.sec.prot x.body ∧ (applySlot s i x).sec.protOther = s.sec.prot ∧
    (applySlot s i x).sec.protOtherSig = s.sec.protSig := by
  refine ⟨?_, rfl, rfl, rfl⟩
  rw [applySlot, endSlot, getSlot_setCr]

/-- The turn of the record that is next. -/
theorem exec_crApply {s : State} {i : Nat} (run : running s = true) (turn : turnOf s = some i) :
    exec (.crApply i) s = .next (goOnActivate (stepApply s i (getSlot s i))) := by
  simp [exec, execCrApply, applyTurn, run, turn]

/-- Settles O53: command by command; the turn of a record by what `stepApply` finds of it. -/
theorem changeRecordResults : Obligations.ChangeRecordResults := by
  refine ⟨fun s i up hi free b u => exec_crSubmit up hi free, fun s x => ⟨rfl, rfl⟩, ?_, fun s u i sig => crSign_unsigned, ?_,
    fun s i r x b => addSign_second, ?_, ?_, ?_, ?_, ?_, ?_⟩
  · intro s x b format module_
    rw [submitted_pending format module_]
    exact ⟨rfl, rfl, rfl, rfl, rfl, rfl⟩
  · intro s u i b up hi open_ read
    cases role : signerOf u (getSlot s i) b with
    | none => exact crSign_unsigned up hi open_ read fun c same => Option.some.inj same ▸ role
    | some r => exact crSign_signed up hi open_ read rfl role
  · intro s i up hi idle
    simp [exec, execCrClear, up, Nat.not_le.mpr hi, idle]
  · intro s i run passed
    refine ⟨expireSlot s i, ?_, congrArg CrSlot.state (getSlot_setCr s i _), rfl⟩
    simp [exec, execCrWindowExpiry, run, passed]
  · intro s i run turn stale
    rw [exec_crApply run turn, stepApply_stale stale]
  · intro s i run turn current table rules kind
    refine ⟨_, exec_crApply run turn, fun signed => ?_, fun unsigned => ?_⟩
    · obtain ⟨state, prot, other, otherSig⟩ := applySlot_fields s i (getSlot s i)
      rw [stepApply_firmware current table rules kind signed, prot, newSettings_firmware kind]
      exact ⟨state, rfl, rfl, rfl, rfl, other, otherSig⟩
    · rw [stepApply_unsigned current unsigned]
      exact ⟨congrArg CrSlot.state (getSlot_setCr s i _), rfl⟩
  · intro s i run turn current unsigned
    rw [exec_crApply run turn, stepApply_unsigned current unsigned]
  · intro s i turn
    simp [exec, execCrApply, turn]

end Machine
end Sys2Proof
end
